-- ==== Sys2Proof/Word.lean ====
section
/-! DEFINITION. The word types of the UZ1640 and its numbered resources (spec R2, R8, R29). -/

namespace Sys2Proof

/-- A word without a qualifier is 32 bits (R8). -/
abbrev Word := BitVec 32

/-- One byte of a memory, a register or a transfer. -/
abbrev Byte := BitVec 8

/-- A 64-bit quantity: an address under R33, a position under R132. -/
abbrev Quad := BitVec 64

/-- PCIe functions PF0 to PF15 (R2). -/
abbrev Fn := Fin 16

/-- Channel engines 0 to 63, and 64 for CE-A (R72). -/
abbrev EngineId := Fin 65

/-- Operation slots 0 to 127 of an engine; CE-A uses 0 to 63 (R72). -/
abbrev SlotId := Fin 128

/-- Ring contexts 0 to 16383 (R161). -/
abbrev RingId := Fin 16384

/-- Tempo sources T0 to T15 (R136). -/
abbrev SrcId := Fin 16

/-- Strike groups 0 to 255 (R149). -/
abbrev GroupId := Fin 256

/-- Lanes LANE00 to LANE95 (R276). -/
abbrev LaneId := Fin 96

/-- Stream FIFOs 0 to 191: 2L inbound, 2L + 1 outbound of lane L (R305). -/
abbrev FifoId := Fin 192

/-- Port groups PG0 to PG7 (R276). -/
abbrev PgId := Fin 8

/-- Stations 0 to 4095 (R287). -/
abbrev StationId := Fin 4096

/-- Shaping cores SC0 to SC15 (R234). -/
abbrev CoreId := Fin 16

/-- Processors of the interrupt controller: 0 Pommel, 1 Cantle, 2 + n SCn (R367). -/
abbrev ProcId := Fin 18

/-- Interrupt sources 0 to 1023 (R354). -/
abbrev IrqId := Fin 1024

/-- Lock registers LK_0 to LK_255 (R377). -/
abbrev LockId := Fin 256

/-- Power domains 0 to 29, numbered as the bits of PM_DOM (R424). -/
abbrev DomId := Fin 30

end Sys2Proof
end

