-- ==== Sys2Proof/Syntax.lean ====
section
/-! DEFINITION. The commands of the UZ1640: one constructor of `Instr` per row of spec/opcode_table.json,
with the row's operands, and the types of those operands. -/

namespace Sys2Proof

/-- A master of R29, as the sender of an addressed access. -/
inductive Master where
  /-- the Pommel (management) core, ID 1 -/
  | pommel
  /-- the Cantle core, ID 2 -/
  | cantle
  /-- the debug port, ID 127 -/
  | debug
  /-- function f of the host, ID 32 + f -/
  | host (f : Fn)
deriving DecidableEq, Repr

/-- The master ID of R29. -/
def Master.id : Master → Nat
  | .pommel => 1
  | .cantle => 2
  | .debug => 127
  | .host f => 32 + f.val

/-- What the host side answers to a read that the part issued (R85, R176, R193). -/
inductive HostResult where
  /-- a successful completion with its data -/
  | ok (data : List Byte)
  /-- Unsupported Request -/
  | ur
  /-- Completer Abort -/
  | ca
  /-- a poisoned completion -/
  | poisoned
  /-- the completion timeout of R222 -/
  | timeout
  /-- the link is not in a state that carries the tunnel -/
  | noTunnel
deriving DecidableEq, Repr

/-- One access to a register: R9 gives reads and writes their effects. -/
inductive RegOp where
  | write (v : Word)
  /-- a write of 8 bytes -/
  | writeQuad (v : Quad)
  | read
deriving DecidableEq, Repr

/-- The word that a register of one aligned word takes from it; none for a read. -/
def RegOp.word : RegOp → Option Word
  | .write v => some v
  | .writeQuad v => some (v.setWidth 32)
  | .read => none

/-- One access to memory (R25). -/
inductive MemOp where
  | read
  | fetch
  | write (data : List Byte)
deriving DecidableEq, Repr

/-- How a Tack Room access meets an overlapping access of the other port to the same word (R337). -/
structure TrMeet where
  /-- the edge of this access came later -/
  later : Bool
  /-- the other access is a write -/
  otherWrites : Bool
deriving DecidableEq, Repr

/-- What became of one item on the lanes (R294, R299). -/
inductive ItemResult where
  /-- the item moved; `v` is the inbound item where the direction is in -/
  | moved (v : Word)
  /-- the address was not acknowledged -/
  | noResponse
  /-- a written byte was not acknowledged -/
  | dataNack
  /-- a framing, parity, CRC or target protocol error -/
  | protocol
  /-- arbitration was lost -/
  | arbLost
deriving DecidableEq, Repr

/-- How a lane transfer came to its end (R540). -/
inductive XferEnd where
  /-- the chain's total count has moved, or the outbound data has been sent -/
  | counted
  /-- the remote ended it: T bit, STOP, repeated START, or a slot error with its UX bit -/
  | remote
  /-- the remote offered more bytes than the count before it ended the transfer -/
  | remoteMore
deriving DecidableEq, Repr

/-- Which party's attention event reached a station (R291). -/
inductive AttnKind where
  | edge (rising : Bool)
  | protocol
deriving DecidableEq, Repr

/-- Who asks for an entry to be posted (R196). -/
inductive PostSource where
  /-- a slot in POSTING, or with a pending progress mark -/
  | slot (e : EngineId) (s : SlotId)
  /-- the oldest redeemed reservation (refusal or marker) of a ring -/
  | redeemed (g : RingId)
  /-- the oldest redeemed refusal or marker of CE-A -/
  | redeemedCeA
deriving DecidableEq, Repr

/-- The three sleep handshakes of R206. -/
inductive SleepRequest where
  | d3hot (f : Fn)
  | cl2
  | routerSleep
deriving DecidableEq, Repr

/-- Who issued a non-posted request that timed out (R222). -/
inductive ReadOwner where
  | slot (e : EngineId) (s : SlotId)
  | scan (g : RingId) (line : Nat)
  | head (g : RingId)
deriving DecidableEq, Repr

/-- A memory that self-test covers (R345). -/
inductive MemUnit where
  | mainMacro (m : Fin 24)
  | cantleSram
  | tackRoom
  | quad (k : Fin 4)
deriving DecidableEq, Repr

/-- A detector's report on its way to the Fault Collector (R386, R387). -/
structure Report where
  group  : Fin 48
  det    : Fin 64
  /-- the class the detection takes in service: 0 CE, 1 UC, 2 FT (R382) -/
  cls    : Fin 3
  /-- OWNER code of R387 -/
  owner  : Fin 32
  unit   : BitVec 16
  master : BitVec 7
  detail : Word
  /-- condition-type detector (R381) -/
  cond   : Bool
deriving DecidableEq, Repr

/-- Who asked for a reset (R453, R461). -/
inductive ResetBy where
  /-- a write of SU_RST with its value -/
  | suRst (m : Master) (v : Word)
  /-- a reaction of the Fault Collector -/
  | reaction
  /-- the debug port's own request (R486) -/
  | debugPort
deriving DecidableEq, Repr

/-- What fuse load read (R446). -/
structure Fuses where
  lifecycle : Fin 4
  keyDigest : List Byte
  svnMin    : Nat
  dieRev    : Byte
  serial    : Quad
  mipiMfr   : BitVec 16
  /-- remap entries with LOCK: entry number and WORD (R348) -/
  remap     : List (Nat × Nat)
deriving DecidableEq, Repr

/-- The boot flash as the boot loader read it for one image (R481 to R483). -/
structure Image where
  cantle   : Bool
  /-- MAGIC, FORMAT, KIND and LENGTH are as R482 requires -/
  headerOk : Bool
  /-- the key, signature and digest checks of R483 -/
  authOk   : Bool
  svn      : Nat
  build    : Quad
  entry    : Word
  warm     : Word
  payload  : List Byte
deriving DecidableEq, Repr

/-- Why the tunnel pauses (R230). -/
inductive PauseWhy where
  | cl2
  | routerSleep
  | retrain
deriving DecidableEq, Repr

/-- The requester classes of R466; a service function carries its number. -/
inductive DictClass where
  | p
  | s (f : Fn)
  | i
  | c
deriving DecidableEq, Repr

/-- A dictionary request: the header of R468 and its data. -/
structure DictReq where
  cls    : DictClass
  fin    : Bool
  seq    : Fin 8
  index  : BitVec 16
  sub    : Byte
  offset : Nat
  len    : Nat
  data   : List Byte
deriving DecidableEq, Repr

/-- What the debug port asks for (R486). -/
inductive DebugReq where
  | reset (scope : Byte)
  | haltCore (cantle : Bool)
  | resumeCore (cantle : Bool)
  | stepCore (cantle : Bool)
  | register (addr : Word) (op : RegOp)
  | memory (addr : Word) (size : Nat) (op : MemOp)
deriving DecidableEq, Repr

/-- Why a replay ends (R507). -/
inductive ReplayEndWhy where
  | endRecord
  | gap
  | stop
deriving DecidableEq, Repr

/-- The commands. The docstring of each constructor names its row and the row's requirement. -/
inductive Instr where
  /-- DOORBELL (R171). -/
  | doorbell (f : Fn) (i : Fin 4096)
  /-- CQ_DOORBELL (R192). -/
  | cqDoorbell (f : Fn) (i : Fin 4096)
  /-- SCAN_READ_RETURN (R174). -/
  | scanReadReturn (g : RingId) (ret : Option (Nat × HostResult))
  /-- WQ_FENCE (R91). -/
  | wqFence (g : RingId)
  /-- QUEUE_RESUME (R175). -/
  | queueResume (g : RingId)
  /-- ADMISSION_DECISION (R113). -/
  | admissionDecision
  /-- CE_A_ADMISSION (R128). -/
  | ceAAdmission
  /-- STATION_ACQUIRE (R73). -/
  | stationAcquire (e : EngineId) (s : SlotId)
  /-- CCW_FETCH (R82). -/
  | ccwFetch (e : EngineId) (s : SlotId)
  /-- WHEN_MET (R49). -/
  | whenMet (e : EngineId) (s : SlotId)
  /-- WINDOW_END (R52). -/
  | windowEnd (e : EngineId) (s : SlotId)
  /-- WRITE (R37). -/
  | write (e : EngineId) (s : SlotId)
  /-- READ (R37). -/
  | read (e : EngineId) (s : SlotId)
  /-- CONTROL (R37). -/
  | control (e : EngineId) (s : SlotId)
  /-- SENSE (R292). -/
  | sense (e : EngineId) (s : SlotId)
  /-- WRITE_READ (R37). -/
  | writeRead (e : EngineId) (s : SlotId)
  /-- JUMP (R56). -/
  | jump (e : EngineId) (s : SlotId)
  /-- JUMP_IF (R58). -/
  | jumpIf (e : EngineId) (s : SlotId)
  /-- LOOP (R59). -/
  | loop (e : EngineId) (s : SlotId)
  /-- WAIT (R52). -/
  | wait (e : EngineId) (s : SlotId)
  /-- STRIKE (R55). -/
  | strike (e : EngineId) (s : SlotId)
  /-- SHAPE (R62). -/
  | shape (e : EngineId) (s : SlotId)
  /-- MOVE (R60). -/
  | move (e : EngineId) (s : SlotId)
  /-- COMPARE (R61). -/
  | compare (e : EngineId) (s : SlotId)
  /-- POST (R63). -/
  | post (e : EngineId) (s : SlotId)
  /-- SIGNAL (R64). -/
  | signal (e : EngineId) (s : SlotId)
  /-- FENCE (R65). -/
  | fence (e : EngineId) (s : SlotId)
  /-- NOP (R65). -/
  | nop (e : EngineId) (s : SlotId)
  /-- STATION_COMMAND (R66). -/
  | stationCommand (e : EngineId) (s : SlotId)
  /-- LANE_ITEM (R299). -/
  | laneItem (l : LaneId) (inbound : Bool) (r : ItemResult)
  /-- STREAM_IDLE_CLOSE (R307). -/
  | streamIdleClose (l : LaneId)
  /-- STATION_TRANSFER_END (R540). -/
  | stationTransferEnd (st : StationId) (how : XferEnd)
  /-- UART_BREAK (R295). -/
  | uartBreak (l : LaneId)
  /-- IBI (R291). -/
  | ibi (st : StationId) (payload : List Byte)
  /-- ATTENTION_EVENT (R291). -/
  | attentionEvent (st : StationId) (k : AttnKind)
  /-- OPERATION_END (R76). -/
  | operationEnd (e : EngineId) (s : SlotId)
  /-- POSTING_REQUEST (R196). -/
  | postingRequest (src : PostSource)
  /-- BACKLOG_DRAIN (R198). -/
  | backlogDrain (g : RingId)
  /-- HEAD_WORD_RETURN (R193). -/
  | headWordReturn (g : RingId) (r : HostResult)
  /-- HEAD_REREAD (R192). -/
  | headReread (g : RingId)
  /-- COMPLETION_STALL (R200). -/
  | completionStall (g : RingId)
  /-- MODERATION_TIMER (R202). -/
  | moderationTimer (g : RingId)
  /-- MSIX_UNMASK (R204). -/
  | msixUnmask (f : Fn) (v : Fin 1024)
  /-- KEPT_FIRING_DELIVERY (R207). -/
  | keptFiringDelivery (f : Fn)
  /-- SLEEP_FLUSH (R206). -/
  | sleepFlush (q : SleepRequest)
  /-- FLUSH_ACK_TIMEOUT (R206). -/
  | flushAckTimeout (q : SleepRequest)
  /-- HALT (R93). -/
  | halt (e : EngineId) (s : SlotId)
  /-- CLEAR (R94). -/
  | clear (e : EngineId) (s : SlotId)
  /-- SUSPEND (R96). -/
  | suspend (e : EngineId) (s : SlotId)
  /-- RESUME (R97). -/
  | resume (e : EngineId) (s : SlotId)
  /-- STOP_BOUNDARY_TIMEOUT (R93). -/
  | stopBoundaryTimeout (e : EngineId) (s : SlotId)
  /-- RESPONSE_TIMEOUT (R99). -/
  | responseTimeout (e : EngineId) (s : SlotId)
  /-- BUSY_CLAIM_EXHAUSTED (R121). -/
  | busyClaimExhausted (e : EngineId) (s : SlotId)
  /-- LOCKSTEP_MISMATCH (R102). -/
  | lockstepMismatch (e : EngineId)
  /-- SEQUENCER_RESET_DONE (R102). -/
  | sequencerResetDone (e : EngineId)
  /-- DEADLINE_MISS (R127). -/
  | deadlineMiss (e : EngineId) (s : SlotId)
  /-- SHAPE_LATE (R127). -/
  | shapeLate (e : EngineId) (s : SlotId)
  /-- HOST_READ_COMPLETION (R85). -/
  | hostReadCompletion (e : EngineId) (s : SlotId) (r : HostResult)
  /-- COMPLETION_TIMEOUT (R222). -/
  | completionTimeout (f : Fn) (who : ReadOwner)
  /-- CE_A_DOORBELL (R185). -/
  | ceADoorbell (m : Master)
  /-- CE_A_ENABLE (R105). -/
  | ceAEnable (m : Master) (v : Word)
  /-- CE_A_CQ_HEAD_WRITE (R212). -/
  | ceACqHeadWrite (m : Master) (v : Word)
  /-- CE_A_STALL (R212). -/
  | ceAStall
  /-- RING_ENABLE (R179). -/
  | ringEnable (m : Master) (f : Fn)
  /-- RING_DISABLE (R179). -/
  | ringDisable (m : Master) (f : Fn)
  /-- RING_RESTART (R179). -/
  | ringRestart (m : Master) (f : Fn)
  /-- SHARE_WRITE (R183). -/
  | shareWrite (m : Master) (f : Fn) (v : Word)
  /-- INPUT_EDGE (R138). -/
  | inputEdge (n : SrcId) (rising : Bool)
  /-- HOST_TIME_UPDATE (R142). -/
  | hostTimeUpdate (t : Quad)
  /-- HOST_SYNC_LOSS (R226). -/
  | hostSyncLoss
  /-- SOURCE_OVERDUE (R143). -/
  | sourceOverdue (n : SrcId)
  /-- HOLDOVER_EXPIRY (R142). -/
  | holdoverExpiry (n : SrcId)
  /-- DUP_COUNTER_MISMATCH (R148). -/
  | dupCounterMismatch (n : SrcId) (other : Quad)
  /-- SOURCE_CFG_WRITE (R137). -/
  | sourceCfgWrite (m : Master) (n : SrcId) (v : Word)
  /-- TEMPO_CLOCK_CHANGE (R157). -/
  | tempoClockChange
  /-- POSITION_READ (R158). -/
  | positionRead (m : Master) (n : SrcId)
  /-- STRIKE_ACTION_EFFECT (R152). -/
  | strikeActionEffect (g : GroupId)
  /-- PULSE_END (R151). -/
  | pulseEnd (l : LaneId)
  /-- STRIKE_GROUP_ARM (R150). -/
  | strikeGroupArm (m : Master) (g : GroupId) (v : Word)
  /-- STRIKE_GROUP_DISARM (R150). -/
  | strikeGroupDisarm (m : Master) (g : GroupId) (v : Word)
  /-- ACTION_ENTRY_WRITE (R150). -/
  | actionEntryWrite (m : Master) (i : Fin 2048) (v : Word)
  /-- PG_CTRL_WRITE (R276). -/
  | pgCtrlWrite (m : Master) (n : PgId) (v : Word)
  /-- LANE_FN_WRITE (R281). -/
  | laneFnWrite (m : Master) (l : LaneId) (v : Word)
  /-- LANE_CFG_WRITE (R282). -/
  | laneCfgWrite (m : Master) (l : LaneId) (tim : Bool) (v : Word)
  /-- READBACK_FAULT (R300). -/
  | readbackFault (l : LaneId)
  /-- SAFEN_LOW (R301). -/
  | safenLow
  /-- SAFEN_HIGH (R451). -/
  | safenHigh
  /-- FORCE (R301). -/
  | force (m : Master) (v : Word)
  /-- RELEASE (R303). -/
  | release (m : Master)
  /-- STATION_DESCRIPTOR_WRITE (R289). -/
  | stationDescriptorWrite (m : Master) (w : Fin 5) (v : Word)
  /-- PROFILE_WRITE (R296). -/
  | profileWrite (m : Master) (p : Fin 64) (w : Fin 256) (v : Word)
  /-- FIFO_ENABLE (R309). -/
  | fifoEnable (m : Master) (q : FifoId) (v : Word)
  /-- FIFO_FLUSH (R312). -/
  | fifoFlush (m : Master) (q : FifoId)
  /-- ALIAS_WRITE (R325). -/
  | aliasWrite (m : Master) (addr : Word) (data : List Byte)
  /-- CORE_MEMORY_ACCESS (R25). -/
  | coreMemoryAccess (m : Master) (addr : Word) (size : Nat) (op : MemOp) (meet : Option TrMeet)
  /-- BAR2_ACCESS (R220). -/
  | bar2Access (off : BitVec 28) (size : Nat) (op : MemOp)
  /-- MERGE_DRAIN (R334). -/
  | mergeDrain (k : Fin 25)
  /-- SCRUB_LINE (R332). -/
  | scrubLine (addr : Word)
  /-- FILL_COMPLETE (R343). -/
  | fillComplete (d : DomId)
  /-- SELFTEST_COMPLETE (R346). -/
  | selftestComplete (u : MemUnit) (failing : List Nat) (checkerOk : Bool)
  /-- REMAP_WRITE (R349). -/
  | remapWrite (m : Master) (v : Word)
  /-- INJECTION_ARM (R350). -/
  | injectionArm (m : Master) (v : Word)
  /-- SOURCE_MESSAGE (R355). -/
  | sourceMessage (n : IrqId)
  /-- IC_RAISE (R355). -/
  | icRaise (m : Master) (v : Word)
  /-- CANDIDATE_COMMIT (R360). -/
  | candidateCommit (p : ProcId)
  /-- INTERRUPT_DELIVERY (R361). -/
  | interruptDelivery (p : ProcId)
  /-- IC_CLAIM (R357). -/
  | icClaim (m : Master)
  /-- IC_COMPLETE (R358). -/
  | icComplete (m : Master) (v : Word)
  /-- MAILBOX_WRITE (R370). -/
  | mailboxWrite (m : Master) (box : Fin 34) (v : Word)
  /-- MAILBOX_READ (R370). -/
  | mailboxRead (m : Master) (box : Fin 34)
  /-- LOCK_READ (R377). -/
  | lockRead (m : Master) (n : LockId)
  /-- LOCK_WRITE (R377). -/
  | lockWrite (m : Master) (n : LockId) (v : Word)
  /-- DETECTION (R386). -/
  | detection (r : Option Report)
  /-- FC_ACK (R392). -/
  | fcAck (m : Master) (seq : Word)
  /-- GRACE_EXPIRY (R393). -/
  | graceExpiry (k : Fin 64)
  /-- SHADOW_CLOSE (R400). -/
  | shadowClose
  /-- FTREL (R395). -/
  | ftrel (m : Master) (v : Word)
  /-- FC_KICK (R435). -/
  | fcKick (m : Master)
  /-- WATCHDOG_EXPIRY (R406). -/
  | watchdogExpiry (cantle : Bool)
  /-- FC_INJ (R411). -/
  | fcInj (m : Master) (v : Word)
  /-- GROUP_STATUS_CLEAR (R401). -/
  | groupStatusClear (m : Master) (g : Fin 48) (v : Word)
  /-- MODE_TRANSITION_START (R414). -/
  | modeTransitionStart
  /-- MODE_TRANSITION_END (R417). -/
  | modeTransitionEnd
  /-- PREP_TIMEOUT (R419). -/
  | prepTimeout
  /-- MODE_REQUEST (R414). -/
  | modeRequest (m : Master) (v : Word)
  /-- DOMAIN_REQUEST (R420). -/
  | domainRequest (m : Master) (v : Word)
  /-- PORT_GROUP_DOWN_TIMEOUT (R420). -/
  | portGroupDownTimeout (n : PgId)
  /-- QUAD_DOWN_TIMEOUT (R420). -/
  | quadDownTimeout (k : Fin 4)
  /-- LINK_FAIL (R414). -/
  | linkFail
  /-- GIVE (R436). -/
  | give (m : Master)
  /-- TAKE (R436). -/
  | take (m : Master)
  /-- HEARTBEAT_LAPSE (R435). -/
  | heartbeatLapse
  /-- WAKE_EVENT (R431). -/
  | wakeEvent (i : Fin 11)
  /-- SIDEBAND_DETECT (R432). -/
  | sidebandDetect
  /-- WAKE_TIMER_ARM (R440). -/
  | wakeTimerArm (m : Master) (v : Word)
  /-- WAKE_TIMER_DISARM (R440). -/
  | wakeTimerDisarm (m : Master) (v : Word)
  /-- WAKE_TIMER_DUE (R431). -/
  | wakeTimerDue
  /-- WAKEN_SET (R433). -/
  | wakenSet (m : Master)
  /-- WAKEN_CLR (R433). -/
  | wakenClr (m : Master)
  /-- WAKEN_TIMEOUT (R433). -/
  | wakenTimeout
  /-- PATROL_PASS (R430). -/
  | patrolPass
  /-- SVC_ENTER (R415). -/
  | svcEnter (m : Master)
  /-- SVC_EXIT (R415). -/
  | svcExit (m : Master)
  /-- REPLAY_ENTER (R503). -/
  | replayEnter (m : Master)
  /-- REPLAY_EXIT (R507). -/
  | replayExit (m : Master)
  /-- PM_CLK_WRITE (R429). -/
  | pmClkWrite (m : Master) (v : Word)
  /-- CK_AON32_MONITOR_ARM (R445). -/
  | ckAon32MonitorArm
  /-- CK_AON32_START_TIMEOUT (R445). -/
  | ckAon32StartTimeout
  /-- PORN_LOW (R444). -/
  | pornLow
  /-- SUPPLY_OUT_OF_RANGE (R516). -/
  | supplyOutOfRange (rail : Fin 4)
  /-- PORN_RELEASE (R447). -/
  | pornRelease
  /-- FUSE_LOAD (R446). -/
  | fuseLoad (r : Option Fuses)
  /-- BOOT_IMAGE_LOADED (R448). -/
  | bootImageLoaded (img : Image)
  /-- BOOT_FLASH_TIMEOUT (R450). -/
  | bootFlashTimeout
  /-- LINKGO (R449). -/
  | linkgo (m : Master)
  /-- WARM_START (R452). -/
  | warmStart (ok : Bool)
  /-- DEVICE_RESET (R453). -/
  | deviceReset (by_ : ResetBy)
  /-- POMMEL_HALF_RESET (R454). -/
  | pommelHalfReset (by_ : ResetBy)
  /-- CANTLE_CORE_RESET (R455). -/
  | cantleCoreReset (by_ : ResetBy)
  /-- LINK_TRAINED (R213). -/
  | linkTrained (gen3 : Bool) (two : Bool)
  /-- TUNNEL_PAUSE (R230). -/
  | tunnelPause (why : PauseWhy)
  /-- TUNNEL_RESUME (R230). -/
  | tunnelResume
  /-- TUNNEL_LOSS (R230). -/
  | tunnelLoss
  /-- CL2_REQUEST (R206). -/
  | cl2Request (router : Bool)
  /-- LINK_WAKE (R225). -/
  | linkWake (m : Master) (v : Word)
  /-- POWER_STATE_WRITE (R224). -/
  | powerStateWrite (f : Fn) (ps : BitVec 2)
  /-- CONFIG_WRITE (R216). -/
  | configWrite (f : Fn) (off : BitVec 12) (v : Word)
  /-- FLR (R228). -/
  | flr (f : Fn)
  /-- FN_RESET (R228). -/
  | fnReset (m : Master) (f : Fn) (v : Word)
  /-- FUNCTION_RESET_END (R228). -/
  | functionResetEnd (f : Fn)
  /-- PTM_DIALOGUE (R227). -/
  | ptmDialogue
  /-- PTM_DIALOGUE_DONE (R227). -/
  | ptmDialogueDone (r : Option Quad)
  /-- SHAPE_DISPATCH (R271). -/
  | shapeDispatch
  /-- KLIMIT (R272). -/
  | klimit (c : CoreId)
  /-- KERNEL_STOP (R273). -/
  | kernelStop (c : CoreId)
  /-- DMA_COMPLETE (R251). -/
  | dmaComplete (c : CoreId)
  /-- SC_CTRL_WRITE (R275). -/
  | scCtrlWrite (m : Master) (c : CoreId) (v : Word)
  /-- SC_DMEM_DATA_ACCESS (R237). -/
  | scDmemDataAccess (m : Master) (c : CoreId) (op : RegOp)
  /-- SC_WINDOW_ACCESS (R237). -/
  | scWindowAccess (m : Master) (c : CoreId) (off : BitVec 16) (size : Nat) (op : RegOp)
  /-- ADD (R244). -/
  | scAdd (c : CoreId)
  /-- ADC (R244). -/
  | scAdc (c : CoreId)
  /-- SUB (R244). -/
  | scSub (c : CoreId)
  /-- SBC (R244). -/
  | scSbc (c : CoreId)
  /-- AND (R244). -/
  | scAnd (c : CoreId)
  /-- OR (R244). -/
  | scOr (c : CoreId)
  /-- XOR (R244). -/
  | scXor (c : CoreId)
  /-- ANDN (R244). -/
  | scAndn (c : CoreId)
  /-- SHL (R244). -/
  | scShl (c : CoreId)
  /-- SHR (R244). -/
  | scShr (c : CoreId)
  /-- SAR (R244). -/
  | scSar (c : CoreId)
  /-- ROR (R244). -/
  | scRor (c : CoreId)
  /-- MIN (R244). -/
  | scMin (c : CoreId)
  /-- MAX (R244). -/
  | scMax (c : CoreId)
  /-- MINU (R244). -/
  | scMinu (c : CoreId)
  /-- MAXU (R244). -/
  | scMaxu (c : CoreId)
  /-- MUL (R244). -/
  | scMul (c : CoreId)
  /-- MULH (R244). -/
  | scMulh (c : CoreId)
  /-- MULHU (R244). -/
  | scMulhu (c : CoreId)
  /-- CMP (R244). -/
  | scCmp (c : CoreId)
  /-- TST (R244). -/
  | scTst (c : CoreId)
  /-- MOV (R244). -/
  | scMov (c : CoreId)
  /-- ADDS (R244). -/
  | scAdds (c : CoreId)
  /-- SUBS (R244). -/
  | scSubs (c : CoreId)
  /-- ADDI (R245). -/
  | scAddi (c : CoreId)
  /-- ANDI (R245). -/
  | scAndi (c : CoreId)
  /-- ORI (R245). -/
  | scOri (c : CoreId)
  /-- XORI (R245). -/
  | scXori (c : CoreId)
  /-- SHI (R245). -/
  | scShi (c : CoreId)
  /-- CMPI (R245). -/
  | scCmpi (c : CoreId)
  /-- MOVHI (R245). -/
  | scMovhi (c : CoreId)
  /-- MOVI (R245). -/
  | scMovi (c : CoreId)
  /-- LD_W (R250). -/
  | scLdW (c : CoreId)
  /-- LD_H (R250). -/
  | scLdH (c : CoreId)
  /-- LD_HU (R250). -/
  | scLdHu (c : CoreId)
  /-- LD_B (R250). -/
  | scLdB (c : CoreId)
  /-- LD_BU (R250). -/
  | scLdBu (c : CoreId)
  /-- ST_W (R250). -/
  | scStW (c : CoreId)
  /-- ST_H (R250). -/
  | scStH (c : CoreId)
  /-- ST_B (R250). -/
  | scStB (c : CoreId)
  /-- LDA (R253). -/
  | scLda (c : CoreId)
  /-- STA (R253). -/
  | scSta (c : CoreId)
  /-- MPY_Q15 (R248). -/
  | scMpyQ15 (c : CoreId)
  /-- MAC_Q15 (R248). -/
  | scMacQ15 (c : CoreId)
  /-- MSU_Q15 (R248). -/
  | scMsuQ15 (c : CoreId)
  /-- MPY_Q31 (R248). -/
  | scMpyQ31 (c : CoreId)
  /-- MAC_Q31 (R248). -/
  | scMacQ31 (c : CoreId)
  /-- MSU_Q31 (R248). -/
  | scMsuQ31 (c : CoreId)
  /-- MACD_Q15 (R248). -/
  | scMacdQ15 (c : CoreId)
  /-- ACLR (R249). -/
  | scAclr (c : CoreId)
  /-- ASAT_H (R249). -/
  | scAsatH (c : CoreId)
  /-- ASAT_W (R249). -/
  | scAsatW (c : CoreId)
  /-- ARD_L (R249). -/
  | scArdL (c : CoreId)
  /-- ARD_H (R249). -/
  | scArdH (c : CoreId)
  /-- AWR (R249). -/
  | scAwr (c : CoreId)
  /-- AWRH (R249). -/
  | scAwrh (c : CoreId)
  /-- CLZ (R246). -/
  | scClz (c : CoreId)
  /-- POPC (R246). -/
  | scPopc (c : CoreId)
  /-- BREV (R246). -/
  | scBrev (c : CoreId)
  /-- BSWAP (R246). -/
  | scBswap (c : CoreId)
  /-- EXT (R246). -/
  | scExt (c : CoreId)
  /-- INS (R246). -/
  | scIns (c : CoreId)
  /-- B_CC (R247). -/
  | scBCc (c : CoreId)
  /-- CALL (R257). -/
  | scCall (c : CoreId)
  /-- CALLR (R257). -/
  | scCallr (c : CoreId)
  /-- SYS_NOP (R260). -/
  | scSysNop (c : CoreId)
  /-- RET (R257). -/
  | scRet (c : CoreId)
  /-- END (R260). -/
  | scEnd (c : CoreId)
  /-- SPILL (R258). -/
  | scSpill (c : CoreId)
  /-- FILL (R258). -/
  | scFill (c : CoreId)
  /-- RETT (R258). -/
  | scRett (c : CoreId)
  /-- WFI (R260). -/
  | scWfi (c : CoreId)
  /-- RPT (R254). -/
  | scRpt (c : CoreId)
  /-- MFS (R259). -/
  | scMfs (c : CoreId)
  /-- MTS (R259). -/
  | scMts (c : CoreId)
  /-- DMAR (R251). -/
  | scDmar (c : CoreId)
  /-- DMAW (R251). -/
  | scDmaw (c : CoreId)
  /-- DMAWAIT (R251). -/
  | scDmawait (c : CoreId)
  /-- VANGEST_ENTRY (R268). -/
  | scVangestEntry (c : CoreId)
  /-- FN_DICT_GO (R473). -/
  | fnDictGo (m : Master) (v : Word)
  /-- DICT_REPLY_READY (R473). -/
  | dictReplyReady
  /-- I3C_DICT_REQUEST (R476). -/
  | i3cDictRequest (bytes : List Byte)
  /-- I3C_DICT_REPLY_READ (R476). -/
  | i3cDictReplyRead
  /-- DICT_READ (R469). -/
  | dictRead (q : DictReq)
  /-- DICT_WRITE (R469). -/
  | dictWrite (q : DictReq)
  /-- STAGED_WRITE_TIMEOUT (R469). -/
  | stagedWriteTimeout (k : DictClass)
  /-- SAVE (R479). -/
  | save (k : DictClass)
  /-- DEFAULTS (R479). -/
  | defaults (k : DictClass)
  /-- CANTLE_IMAGE (R484). -/
  | cantleImage (k : DictClass) (data : List Byte) (fin : Bool) (img : Image)
  /-- POMMEL_IMAGE (R484). -/
  | pommelImage (k : DictClass) (data : List Byte) (fin : Bool) (img : Image)
  /-- COMMIT (R484). -/
  | commit (k : DictClass)
  /-- SVN_RAISE (R484). -/
  | svnRaise (k : DictClass) (v : Byte)
  /-- ADVANCE (R485). -/
  | advance (k : DictClass) (v : Word)
  /-- KEY_PROG (R485). -/
  | keyProg (k : DictClass) (digest : List Byte)
  /-- DICT_RESET (R462). -/
  | dictReset (k : DictClass) (scope : Byte)
  /-- DICT_ACK (R412). -/
  | dictAck (k : DictClass) (seq : Word)
  /-- DICT_SERVICE (R443). -/
  | dictService (k : DictClass) (v : Byte)
  /-- DICT_REPLAY (R511). -/
  | dictReplay (k : DictClass) (v : Byte)
  /-- DEBUG_ATTACH (R487). -/
  | debugAttach
  /-- ZEROIZE (R487). -/
  | zeroize
  /-- DEBUG_REQUEST (R486). -/
  | debugRequest (q : DebugReq)
  /-- JN_START (R494). -/
  | jnStart (m : Master)
  /-- JN_STOP (R496). -/
  | jnStop (m : Master)
  /-- QUIET_REACHED (R494). -/
  | quietReached
  /-- QUIET_TIMEOUT (R494). -/
  | quietTimeout
  /-- CHECKPOINT_DONE (R494). -/
  | checkpointDone
  /-- PROD_ANNOUNCE (R498). -/
  | prodAnnounce
  /-- CONS_POLL (R498). -/
  | consPoll (r : HostResult)
  /-- REPLAY_STALL (R505). -/
  | replayStall
  /-- REPLAY_END (R507). -/
  | replayEnd (why : ReplayEndWhy)
  /-- REGISTER_WRITE (R9). -/
  | registerWrite (m : Master) (addr : Word) (size : Nat) (op : RegOp)
  /-- ILLEGAL_INSTRUCTION (R243). -/
  | illegalInstruction (c : CoreId)
  /-- SUPPLY_IN_RANGE (R444). -/
  | supplyInRange
  /-- VIO_REMOVED (R517). -/
  | vioRemoved (n : PgId)
  /-- CONNECTION_DETECT (R416). -/
  | connectionDetect
  /-- PLL_LOCK (R428). -/
  | pllLock
  /-- POWER_UP_RAMP_END (R417). -/
  | powerUpRampEnd (d : DomId)
  /-- DEBUG_PORT_RESET (R378). -/
  | debugPortReset
  /-- DYNAMIC_ADDRESS_ASSIGNMENT (R475). -/
  | dynamicAddressAssignment (setdasa : Bool) (addr : BitVec 7)
  /-- CONDITION_GONE (R381). -/
  | conditionGone (g : Fin 48) (det : Fin 64)
  /-- JOURNAL_RING_READ (R505). -/
  | journalRingRead (r : HostResult)
deriving DecidableEq, Repr

end Sys2Proof
end

