-- ==== Sys2Proof/Decode.lean ====
section
/-! DEFINITION. The commands arrive as commands, not as words: no row of the table gives bits, so no word spells a
command. -/

namespace Sys2Proof

/-- The command that a word spells: none, for the table gives no row any bits. -/
def decodeTableWord (_nbits _w : Nat) : Option Instr := none

end Sys2Proof
end

