-- ==== Sys2Proof/Config.lean ====
section
/-! DEFINITION. What an implementation fixes, and the free values: constants without a body, of which no
proof can see anything. Each is named in the assumption log. -/

namespace Sys2Proof

/-- The data that a colliding Tack Room read returns is undefined (R337): free, one value per fresh draw. -/
opaque Config.tackRoomUndefined : Nat → BitVec 64

/-- The contents that an access to a bus window outside the spec's words returns: fresh draw `n`. -/
opaque Config.freeQuad : Nat → BitVec 64

/-- The event codes of HOSTEV journal records, which R490 does not give: 1 PowerState, 2 Bus Master Enable, 3 FLR,
4 tunnel state, 5 a transmit flow-control stall. -/
opaque Config.hostEventCode : Nat → BitVec 8

/-- Inverting bits b and b + 1 of a clean ECC word, of the Tack Room or of another memory, gives the syndrome 0x03; the code's
columns are the implementation's (R326). -/
opaque Config.eccPairIsPoison : Bool → Nat → Bool

/-- Inverting bit b of a word of stored poison gives a syndrome that is a column of the code (R326). -/
opaque Config.eccOddIsColumn : Bool → Nat → Bool

/-- Retimers found on the sideband, 0 to 2 (R214, R231). -/
opaque Config.retimers : Fin 3

/-- The grade of the part: UZ1640-X, or else UZ1640-C (R1, R478). -/
opaque Config.gradeX : Bool

/-- The cryptographic checks of R483 on an image that the dictionary's generic WRITE has carried: by KEY_DIGEST and the bytes
of header and payload. -/
opaque Config.imageAuth : List (BitVec 8) → List (BitVec 8) → Bool

end Sys2Proof
end

