-- ==== Sys2Proof/Machine/Map.lean ====
section
/-! DEFINITION. Sparse tables: the memory of R19 and every numbered resource are lists of (number, contents)
in one canonical form, numbers strictly rising and no entry equal to what an unlisted number holds. -/

namespace Sys2Proof.Machine

/-- A sparse table: number and contents, rising. -/
abbrev SMap (α : Type) := List (Nat × α)

/-- What the table holds at `k`; an unlisted number holds `d`. -/
def SMap.get {α : Type} (d : α) : SMap α → Nat → α
  | [], _ => d
  | (j, a) :: m, k => if j = k then a else SMap.get d m k

/-- Remove the entry at `k`. -/
def SMap.del {α : Type} : SMap α → Nat → SMap α
  | [], _ => []
  | (j, a) :: m, k => if j = k then SMap.del m k else (j, a) :: SMap.del m k

/-- Insert an entry at its place in rising order (`k` is not listed). -/
def SMap.ins {α : Type} : SMap α → Nat → α → SMap α
  | [], k, a => [(k, a)]
  | (j, b) :: m, k, a => if k < j then (k, a) :: (j, b) :: m else (j, b) :: SMap.ins m k a

/-- Write `a` at `k`; writing what an unlisted number holds removes the entry. -/
def SMap.set {α : Type} [DecidableEq α] (d : α) (m : SMap α) (k : Nat) (a : α) : SMap α :=
  if a = d then SMap.del m k else SMap.ins (SMap.del m k) k a

/-- The canonical form, relative to what the unlisted number `k` holds. -/
def SMap.wf {α : Type} [DecidableEq α] (d : Nat → α) : SMap α → Bool
  | [] => true
  | [(k, a)] => decide (a ≠ d k)
  | (k, a) :: (j, b) :: m => decide (a ≠ d k) && decide (k < j) && SMap.wf d ((j, b) :: m)

/-- Keep the entries whose number satisfies `p`: what a reset of a range of numbers keeps. -/
def SMap.keep {α : Type} (p : Nat → Bool) : SMap α → SMap α
  | [] => []
  | (k, a) :: m => if p k then (k, a) :: SMap.keep p m else SMap.keep p m

/-- Change every listed entry, keeping the canonical form. -/
def SMap.mapAll {α : Type} [DecidableEq α] (d : α) (f : α → α) : SMap α → SMap α
  | [] => []
  | (k, a) :: m => if f a = d then SMap.mapAll d f m else (k, f a) :: SMap.mapAll d f m

end Sys2Proof.Machine
end

