-- ==== Sys2Proof/Machine/Bits.lean ====
section
/-! DEFINITION. Bit fields, little-endian bytes (R8) and fixed-point helpers. -/

namespace Sys2Proof.Machine

/-- Bits [hi:lo] of a word, as a number (field tables run from the high bits to the low bits). -/
def bitsOf (v : Word) (hi lo : Nat) : Nat := (v.toNat >>> lo) % 2 ^ (hi + 1 - lo)

/-- Bit `i` of a word. -/
def bit (v : Word) (i : Nat) : Bool := v.getLsbD i

/-- The mask of bits [hi:lo]. -/
def maskOf (hi lo : Nat) : Word := BitVec.ofNat 32 ((2 ^ (hi + 1 - lo) - 1) <<< lo)

/-- `v` with bits [hi:lo] replaced by the low bits of `x`. -/
def putBits (v : Word) (hi lo x : Nat) : Word :=
  (v &&& ~~~ maskOf hi lo) ||| (BitVec.ofNat 32 ((x % 2 ^ (hi + 1 - lo)) <<< lo))

/-- The word with bit `i` alone, or 0. -/
def bitWord (i : Nat) (b : Bool) : Word := if b then BitVec.ofNat 32 (2 ^ i) else 0#32

/-- Replace the bits of `mask`: the RW part of a register write (R9, R11). -/
def mergeMask (old new mask : Word) : Word := (old &&& ~~~ mask) ||| (new &&& mask)

/-- The number that little-endian bytes spell (R8). -/
def leNat : List Byte → Nat
  | [] => 0
  | b :: bs => b.toNat + 256 * leNat bs

/-- `n` little-endian bytes of a number (R8). -/
def leBytes : Nat → Nat → List Byte
  | 0, _ => []
  | n + 1, v => BitVec.ofNat 8 (v % 256) :: leBytes n (v / 256)

/-- A word from four little-endian bytes. -/
def leWord (bs : List Byte) : Word := BitVec.ofNat 32 (leNat (bs.take 4))

/-- A 64-bit quantity from eight little-endian bytes. -/
def leQuad (bs : List Byte) : Quad := BitVec.ofNat 64 (leNat (bs.take 8))

/-- A list of `n` equal elements. -/
def rep {α : Type} (n : Nat) (a : α) : List α := List.replicate n a

/-- The first `n` bytes, filled up with zeros. -/
def padTo (n : Nat) (bs : List Byte) : List Byte := bs.take n ++ rep (n - bs.length) 0#8

/-- Rounded-up division, for densities (R111). -/
def ceilDiv (a b : Nat) : Nat := if b = 0 then 0 else (a + (b - 1)) / b

/-- A saturating 32-bit increment (R130: counters saturate at 0xFFFF_FFFF). -/
def satInc (v : Word) : Word := if v = 0xFFFFFFFF#32 then v else v + 1#32

/-- Saturating 32-bit addition. -/
def satAdd (v : Word) (n : Nat) : Word :=
  if v.toNat + n ≥ 2 ^ 32 then 0xFFFFFFFF#32 else BitVec.ofNat 32 (v.toNat + n)

/-- The address `a` as a multiple of `n`, rounded down. -/
def alignDown (a n : Nat) : Nat := a / n * n

/-- The numbers `lo, lo + 1, …`, `n` of them. -/
def span (lo : Nat) : Nat → List Nat
  | 0 => []
  | n + 1 => lo :: span (lo + 1) n

/-- One step of a reflected CRC over a byte (R267: CRCB; R476, R493). -/
def crcByte (poly : Nat) (c : Nat) (b : Byte) : Nat :=
  let step := fun (x : Nat) => if x % 2 = 1 then (x / 2) ^^^ poly else x / 2
  step (step (step (step (step (step (step (step (c ^^^ b.toNat))))))))

/-- A reflected CRC over bytes from an initial value, without final inversion. -/
def crcBytes (poly : Nat) : Nat → List Byte → Nat
  | c, [] => c
  | c, b :: bs => crcBytes poly (crcByte poly c b) bs

/-- CRC-32C with initial value 0xFFFF_FFFF and final inversion (R493). -/
def crc32c (bs : List Byte) : Nat := (crcBytes 0x82F63B78 0xFFFFFFFF bs) ^^^ 0xFFFFFFFF

end Sys2Proof.Machine
end

