-- ==== Sys2Proof/Machine/State.lean ====
section
/-! DEFINITION. The state of the UZ1640 as plain data: registers, memories, operation slots, rings, tempo
sources, lanes, stations, stream FIFOs, shaping cores, interrupt controller, mailboxes, locks, Fault Collector,
power controller, dictionary, journal, host port, and the queue of waiting commands.
The log entries that hold here: DESIGN CHOICE 3, 6, 37, 41, 51. -/

namespace Sys2Proof.Machine

/-- Reasons for which a step stops the machine. Every refusal, check and error of the spec is a next state (R22,
R85, R102, R177), so no row raises one; safe: no run can reach a fault. -/
inductive Fault where
  /-- raised by nothing: kept so that the type is inhabited; safe -/
  | none
deriving DecidableEq, Repr

/-- Reasons for which a command has no meaning. -/
inductive Refusal where
  /-- raised by a dispatch arm without a meaning; safe: a run stops there -/
  | notModelled (mnemonic : String)
deriving DecidableEq, Repr

/-! ## What leaves the part -/

/-- What opens a transfer of an I2C, I3C or SPI controller lane, from the command's LANEOP and the station (R288, R298). -/
structure XferHead where
  /-- the 7-bit address of the remote target, 0x7E for a broadcast CCC; 0 on SPI -/
  addr  : Nat := 0
  /-- the data goes from the remote to the part -/
  read  : Bool := false
  /-- REG is a CCC code, broadcast or for the one target; the transfer uses HDR-DDR -/
  ccc   : Bool := false
  bcast : Bool := false
  hdr   : Bool := false
  /-- cycles between the opcode and the data, and the lanes that carry the data, of SPI -/
  dummy : Nat := 0
  width : Nat := 1
deriving DecidableEq, Repr

/-- What the part sends or answers, in order: host requests, messages, answers to accesses, pins. -/
inductive Out where
  /-- a posted host write; `ro` is the Relaxed Ordering attribute (R88) -/
  | hostWrite (f : Nat) (addr : Nat) (data : List Byte) (ro : Bool) (poisoned : Bool)
  /-- a non-posted host read -/
  | hostRead (f : Nat) (addr : Nat) (len : Nat)
  /-- an MSI-X message of a vector: its address and data (R203) -/
  | msix (f : Nat) (v : Nat) (addr : Nat) (data : Word)
  /-- a PM_PME message (R207) -/
  | pme (f : Nat)
  /-- the data of a read, to the master with this ID (R9) -/
  | readData (m : Nat) (data : List Byte)
  /-- a read that was refused: it returns 0 and the requester sees its error (R22) -/
  | accessError (m : Nat) (addr : Nat)
  /-- a BAR2 answer: data with its poisoned attribute, or Unsupported Request (R22, R330) -/
  | bar2 (data : Option (List Byte)) (poisoned : Bool)
  /-- a configuration write has been completed to the host (R206) -/
  | cfgDone (f : Nat)
  /-- the acknowledgement of a sleep request (R206) -/
  | sleepAck (q : SleepRequest)
  /-- items or a condition sent on the lanes of a primary lane -/
  | lane (l : Nat) (data : List Byte)
  /-- a STOP, CS release or repeated START on a bus, or a UART break: 0 STOP or release, 1 repeated START, 2 break -/
  | busEnd (l : Nat) (kind : Nat)
  /-- what opens a transfer on a lane's bus (R298) -/
  | xferHead (l : Nat) (h : XferHead)
  /-- an interrupt request to a processor, or its wake (R361) -/
  | irq (p : Nat)
  /-- a reply on the dictionary's I3C port (R476) -/
  | i3c (data : List Byte)
  /-- the dictionary's I3C port does not acknowledge its address (R476) -/
  | i3cNack
  /-- an in-band interrupt of the dictionary's I3C port with its mandatory byte (R476) -/
  | i3cIbi (b : Byte)
  /-- the answer of the dictionary's server to a requester, by class code and function: result and data (R470) -/
  | dict (cls f : Nat) (res : Nat) (data : List Byte)
  /-- a PTM request message (R227) -/
  | ptmRequest
  /-- the debug port's answer (R486) -/
  | debug (ok : Bool) (data : List Byte)
  /-- a request to the link partner: 0 wake, 1 enter CL1 (R225) -/
  | link (kind : Nat)
  /-- flash programmed by the dictionary: which area, and the bytes (R479, R481) -/
  | flash (area : Nat) (data : List Byte)
  /-- a fuse programmed (R485) -/
  | fuse (which : Nat) (value : Nat)
deriving DecidableEq, Repr

/-! ## Operation slots (chapters 02 and 03) -/

/-- The slot states of R77. -/
inductive SlotSt where
  | idle | admitted | fetching | running | waiting | suspended | posting | postHeld | halting
deriving DecidableEq, Repr

/-- The STATE codes of R77. -/
def SlotSt.code : SlotSt → Nat
  | .idle => 0 | .admitted => 1 | .fetching => 2 | .running => 3 | .waiting => 4
  | .suspended => 5 | .posting => 6 | .postHeld => 7 | .halting => 8

/-- The CMP condition of R57. -/
inductive Cmp where
  | lt | eq | gt
deriving DecidableEq, Repr

/-- The CMP codes of R80. -/
def Cmp.code : Cmp → Nat
  | .lt => 0 | .eq => 1 | .gt => 2

/-- A line or a single CCW read for a slot (R81): its address and bytes, with poisoned bytes marked. -/
structure Line where
  addr : Nat
  data : List Byte
  poison : Bool
deriving DecidableEq, Repr

/-- A read of host memory made for an operation (R85); `spec` marks a speculative line read (R81). -/
structure HostRead where
  addr : Nat
  len  : Nat
  spec : Bool
  /-- its requests that are outstanding, those that wait for room under R221, and when the first went out (R222) -/
  sent : Nat := 1
  left : Nat := 0
  at_  : Nat := 0
deriving DecidableEq, Repr

/-- A completion entry before its lap mark is written (R186). -/
structure Entry where
  ringIndex : Nat
  kind      : Nat
  engine    : Nat
  tag       : Word
  cstat     : Word
  ustat     : Word
  residual  : Nat
  slot      : Nat
  lastCcw   : Quad
  ts        : Nat
  /-- the digest of the operation so far: raw SDIG register, MDIG, strike launches, owner (R493) -/
  sdig      : Nat := 0xFFFFFFFF
  mdig      : Nat := 0
  nlaunch   : Nat := 0
  owner     : Nat := 0
deriving DecidableEq, Repr

/-- The status fixed for an operation that has ended: last-CCW address and residual of R86. -/
structure Ending where
  lastCcw  : Quad
  residual : Nat
  /-- ended normally -/
  normal   : Bool
deriving DecidableEq, Repr

/-- How a shaping-core kernel ended (R262, R264). -/
inductive KernelEnd where
  | returned
  | poison
  | fault
  | noCore
deriving DecidableEq, Repr

/-- The engine's working state for a slot: bytes 184 to 255 of the record, not part of the interface (R80). -/
structure Work where
  ringIndex  : Nat := 0
  /-- acceptance order number (R73) -/
  order      : Nat := 0
  holding    : Bool := false
  snapped    : Bool := false
  /-- flow CCW that branched to CUR (R56) -/
  branchFrom : Option Quad := none
  lines      : List Line := []
  reads      : List HostRead := []
  inbox      : List (HostRead × HostResult) := []
  /-- parameter block, page list or descriptor read at step 10 of R70 -/
  block      : List Byte := []
  /-- data chain: OP of its first CCW, address of the current member -/
  chainOp    : Option Nat := none
  /-- the successor of a SPAN member is being fetched (R42) -/
  succ       : Bool := false
  succAddr   : Quad := 0#64
  /-- bytes of the current CCW moved to or from memory -/
  moved      : Nat := 0
  /-- WHEN target and window end, full-width positions (R134) -/
  target     : Option Nat := none
  winEnd     : Option Nat := none
  /-- converted to local time: the T0 ticks of target and window end, in time units (R145) -/
  localAt    : Option Nat := none
  localEnd   : Option Nat := none
  /-- the WHEN condition of the current CCW has been met -/
  met        : Bool := false
  /-- response timer (R98): running since, and time already counted -/
  timerFrom  : Option Nat := none
  timerUsed  : Nat := 0
  ending     : Option Ending := none
  /-- the station is handled as under R94 -/
  cleared    : Bool := false
  /-- HALTING under a function reset (R79) -/
  fnReset    : Bool := false
  /-- pending progress marks (R44), oldest first -/
  marks      : List Entry := []
  /-- a PMK entry is held: POST-HELD leads back to FETCHING -/
  markHeld   : Bool := false
  /-- the final entry, captured under R86 -/
  final      : Option Entry := none
  /-- the final entry has been captured on the tick of this T0 position -/
  heldOrder  : Nat := 0
  /-- SHAPE: request time, core and result (R62, R271) -/
  shapeAt    : Option Nat := none
  shapeEnd   : Option KernelEnd := none
  shapeLate  : Bool := false
  xferEnd    : Option XferEnd := none
  densPg     : Nat := 0
  densE      : Nat := 0
  densL      : Nat := 0
  /-- the deadline in time units -/
  deadlineAt : Nat := 0
  /-- time from which `busyBase` goes on counting; it moves at a change of the tick (R122) -/
  busyMark   : Nat := 0
  missed     : Bool := false
  /-- staging shares of the owner when the operation was accepted: base and size of A and B (R23) -/
  stageA     : Nat × Nat := (0, 0)
  stageB     : Nat × Nat := (0, 0)
  /-- the CCW has passed steps 1 to 9 of R70 and step 10 waits for a host read -/
  op10       : Bool := false
  /-- host data read for the current CCW and not yet used -/
  data       : List Byte := []
  /-- bytes of the data chain moved by members before the current one -/
  chainPos   : Nat := 0
  /-- the current transfer has been loaded into its lane engine -/
  loaded     : Bool := false
  /-- the CCW has been captured as ended in the marks (R44) -/
  marked     : Bool := false
  /-- the CCW has ended and its marks are still to be written or parked (R44, R78) -/
  ccwDone    : Bool := false
  /-- it was the operation's last one: its residual (R78) -/
  lastDone   : Option Nat := none
  /-- a HALT has taken effect on a MOVE, COMPARE or POST, which runs to its end (R93) -/
  haltRuns   : Bool := false
  /-- HALT (2), CLEAR (3), SUSPEND (4), RESUME (5) delivered and not yet in effect -/
  deliv      : List Nat := []
  /-- the operation's digest (R493): raw SDIG register, MDIG, strike launches -/
  sdig       : Nat := 0xFFFFFFFF
  mdig       : Nat := 0
  nlaunch    : Nat := 0
deriving DecidableEq, Repr

/-- One operation slot: the record of R80. -/
structure Slot where
  st         : SlotSt := .idle
  be         : Bool := false
  susreq     : Bool := false
  haltreq    : Bool := false
  clearreq   : Bool := false
  markset    : Bool := false
  owner      : Nat := 0
  wq         : Nat := 0
  cq         : Nat := 0
  station    : Nat := 0
  flow       : Nat := 0
  tag        : Word := 0#32
  prog       : Quad := 0#64
  cur        : Quad := 0#64
  ccw        : BitVec 128 := 0#128
  /-- a T0 position, or all ones for best-effort (R110) -/
  deadline   : Quad := 0#64
  /-- the acceptance tick, in time units -/
  accept     : Nat := 0
  claimBusy  : Nat := 0
  claimBytes : Nat := 0
  claimCcws  : Nat := 0
  /-- busy ticks counted up to `busyFrom`, and the time from which they count (R108, R122) -/
  busyBase   : Nat := 0
  busyFrom   : Option Nat := none
  usedBytes  : Nat := 0
  usedCcws   : Nat := 0
  remain     : Nat := 0
  cmp        : Cmp := .gt
  timeout    : Bool := false
  fallback   : Bool := false
  short      : Bool := false
  markSrc    : Nat := 0
  markPos    : Nat := 0
  loops      : List (Quad × Nat) := []
  cstat      : Word := 0#32
  ustat      : Word := 0#32
  w          : Work := {}
deriving DecidableEq, Repr

/-! ## Rings and Weir (chapters 04, 06 and 07) -/

/-- The stored condition of an ECC word (R326). -/
inductive EccMark where
  | ok | correctable | uncorrectable | poison
deriving DecidableEq, Repr

/-- A START on its way through Weir (R107, R166). -/
structure Start where
  /-- global work queue, or none for CE-A's ring -/
  ring      : Nat
  fn        : Nat
  ringIndex : Nat
  len       : Nat
  station   : Nat
  be        : Bool
  tag       : Word
  prog      : Quad
  deadline  : Nat
  busy      : Nat
  ccws      : Nat
  bytes     : Nat
  anchor    : Option (Nat × Nat)
  /-- the reservation of R118 lies in the ring (else in the park share) -/
  inRing    : Bool
  /-- the completion ring, by its global number, for which it was made -/
  cq        : Nat := 0
deriving DecidableEq, Repr

/-- A ring read in flight: first unit of its 64-byte line, DBSEQ tag, event number of its issue (R174). -/
structure ScanRead where
  unit  : Nat
  tag   : Word
  issue : Nat
  /-- its request is outstanding, and since when (R221, R222) -/
  sent  : Bool := true
  at_   : Nat := 0
deriving DecidableEq, Repr

/-- A unit in the prefetch buffer: data, or none where a speculative read failed (R176). -/
structure RUnit where
  idx   : Nat
  tag   : Word
  issue : Nat
  ret   : Nat
  data  : List Byte
  /-- condition of the unit in the prefetch buffer (R180, R326) -/
  mark  : EccMark := .ok
deriving DecidableEq, Repr

/-- An item of a completion ring's backlog (R196). -/
inductive Backlog where
  /-- parked, with the condition of its two copies (R197) -/
  | parked (e : Entry) (copies : EccMark × EccMark := (.ok, .ok))
  /-- the slot with this key holds it: in POST-HELD, or while the chain of its mark runs on (R44) -/
  | held (key : Nat) (e : Entry)
  /-- an entry held against a reservation in the ring -/
  | reserved (e : Entry)
deriving DecidableEq, Repr

/-- One ring context: R163 and R194, with the scan's and the moderation's working state. -/
structure Ring where
  base     : Quad := 0#64
  typ      : Nat := 0
  size     : Nat := 0
  /-- work queue: state code of R179; completion ring: 0 disabled, 1 enabled -/
  st       : Nat := 0
  head     : Nat := 0
  errIndex : Nat := 0
  lapx     : Bool := false
  errcode  : Nat := 0
  pfdepth  : Nat := 2
  mod      : Nat := 0
  /-- function-local index of the bound completion ring -/
  cq       : Nat := 0
  dbseq    : Word := 0#32
  consumed : Word := 0#32
  /-- scan -/
  buf      : Bool := false
  scanOrder : Nat := 0
  ev       : Nat := 0
  reads    : List ScanRead := []
  units    : List RUnit := []
  /-- a read the scan needs is for this unit: its failure is a queue error -/
  need     : Option Nat := none
  inWeir   : Bool := false
  /-- held because the completion ring is blocked (R199) -/
  heldBlock : Bool := false
  /-- the START at HEAD that waits for a domain (R421) -/
  heldStart : Option Start := none
  /-- the FENCE at HEAD that holds the queue: NOTIFY and TAG (R91) -/
  fence    : Option (Bool × Word) := none
  /-- completion ring -/
  haddr    : Quad := 0#64
  tail     : Nat := 0
  qhead    : Nat := 0
  lapw     : Bool := false
  wake     : Bool := false
  cnt      : Nat := 7
  time     : Nat := 100
  /-- the time threshold in force: TIME as the last entry written found it (R202) -/
  timeIn   : Nat := 100
  vector   : Nat := 0
  stall    : Nat := 100
  posted   : Word := 0#32
  resRing  : Nat := 0
  resPark  : Nat := 0
  backlog  : List Backlog := []
  /-- redeemed reservations whose posting request is due, with where the reservation lies -/
  redeemed : List (Entry × Bool) := []
  modCount : Nat := 0
  modFrom  : Option Nat := none
  headRead : Bool := false
  headAgain : Bool := false
  headLast : Nat := 0
  stallFrom : Option Nat := none
  stallDone : Bool := false
  cqStatus : Word := 0#32
  /-- COMPLETION_STALL's time already counted before a pause -/
  stallUsed : Nat := 0
  /-- an entry that joined the backlog has raised a wake since the function could last write (R208) -/
  woke     : Bool := false
  /-- held because the journal waits for quiet or writes its checkpoint (R494) -/
  jnHold   : Bool := false
deriving DecidableEq, Repr

/-- CE-A's rings: working state beside the CE_A_ registers (R105, R185, R212). -/
structure CeA where
  wqBase   : Nat := 0
  wqSize   : Nat := 6
  cqBase   : Nat := 0
  cqSize   : Nat := 4
  lapx     : Bool := true
  lapw     : Bool := true
  scanning : Bool := false
  stopped  : Bool := false
  /-- completion-ring entries reserved under R118, R165 -/
  res      : Nat := 0
  redeemed : List Entry := []
  stallFrom : Option Nat := none
  stallDone : Bool := false
deriving DecidableEq, Repr

/-! ## Tempo (chapter 05) -/

/-- The source states of R141. -/
inductive SrcSt where
  | off | acquire | locked | holdover | lost
deriving DecidableEq, Repr

/-- STATE codes of R141. -/
def SrcSt.code : SrcSt → Nat
  | .off => 0 | .acquire => 1 | .locked => 2 | .holdover => 3 | .lost => 4

/-- One tempo source. Positions are 64-bit numbers: period count times 4096 plus phase (R132). -/
structure Source where
  st       : SrcSt := .off
  /-- position at `e`, the time of the last boundary or update; frozen position when not counting -/
  base     : Nat := 0
  e        : Nat := 0
  /-- the position never falls below this (R132, R143) -/
  floor    : Nat := 0
  /-- P_est in ticks of the current clock, times 256 (R139) -/
  pest     : Nat := 0
  /-- the last complete intervals, newest first, in ticks times 256 -/
  hist     : List Nat := []
  /-- counted edges since the last boundary -/
  edges    : Nat := 0
  lastEdge : Option Nat := none
  lastBound : Option Nat := none
  holdFrom : Nat := 0
  lossAt   : Nat := 0
  fromLost : Bool := false
  glitch   : Nat := 0
  relock   : Nat := 0
  /-- position on the tick before the one at this time, noted before anything moved the source on it (R133) -/
  prev     : Option (Nat × Nat) := none
  /-- an edge at the input that has not yet been stable for FILT ticks: its time, the time at which it will have been, and
  the level after it (R138) -/
  cand     : Option (Nat × Nat × Bool) := none
deriving DecidableEq, Repr

/-- A strike launch in progress (R153). -/
structure Launch where
  group  : Nat
  /-- tick of record -/
  at_    : Nat
  /-- slots (keys) that count the launch as their own -/
  owners : List Nat
  /-- its actions have reached the balls -/
  done   : Bool
  /-- lanes whose action is not complete -/
  open_  : List Nat
  /-- the group's entries at the launch: lane, action, parameter -/
  entries : List (Nat × Nat × Nat)
deriving DecidableEq, Repr

/-! ## Lanes, stations and FIFOs (chapter 10) -/

/-- What the part drives on a lane. -/
inductive Drive where
  | hiZ | low | high | pullDown | pullUp
deriving DecidableEq, Repr

/-- A transfer in a lane engine (R285, R298, R299). -/
structure Xfer where
  station : Nat
  key     : Nat
  out     : Bool
  inn     : Bool
  laneop  : Nat
  /-- started on the lanes; false while held at the gate -/
  started : Bool
  /-- bytes that go out before the data (opcode, REG, prefix) -/
  lead    : List Byte
  /-- bytes the engine has asked for and that have not arrived -/
  want    : Nat
  /-- bytes the engine will still pass outbound -/
  owe     : Nat
  /-- bytes moved on the lanes -/
  count   : Nat
  /-- a HALT is bringing it to its stop boundary (R93) -/
  stopping : Bool
deriving DecidableEq, Repr

/-- One lane: drive, ball level, pulse and engine (R276 to R304). -/
structure Lane where
  drive    : Drive := .hiZ
  /-- level at the ball as last seen -/
  ball     : Bool := false
  /-- FUNC has been written since the domain powered up (R279) -/
  live     : Bool := false
  /-- end of a pulse, and the level after it -/
  pulse    : Option (Nat × Bool) := none
  gateOpen : Bool := false
  /-- a GATE_CLOSE waits for the next item boundary (R285) -/
  closing  : Bool := false
  busKept  : Bool := false
  xfer     : Option Xfer := none
  /-- PWM duty in force since the period that began at `pwmFrom`, and the duty of the next period (R299) -/
  duty     : Option Nat := none
  dutyNext : Option Nat := none
  pwmFrom  : Nat := 0
  /-- stream held open after a transfer (I2S/TDM) -/
  streamOn : Bool := false
  lastItem : Nat := 0
  /-- time the driven level last changed (R300) -/
  drivenAt : Nat := 0
  /-- the lane returns from SAFE to its configuration on the next tick (R94, R297) -/
  idleDue  : Bool := false
  /-- inbound I2S/TDM: slots of the present frame that have come, and whether that frame is dropped (R286) -/
  frame    : Nat := 0
  dropFrame : Bool := false
deriving DecidableEq, Repr

/-- One station: words 0 to 4 and the sense data (R288, R293). -/
structure Station where
  w0 : Word := 0#32
  w1 : Word := 0#32
  w2 : Word := 0#32
  w3 : Word := 0#32
  w4 : Word := 0#32
  flags    : Nat := 0
  ureason  : Nat := 0
  ibiCount : Nat := 0
  ibiData  : List Byte := []
  levels   : Nat := 0
  attnT0   : Nat := 0
  lastLen  : Nat := 0
  latch    : Bool := false
  /-- forced safe states that had started when its FLAGS were last cleared (R292, R302) -/
  safeAck  : Nat := 0
deriving DecidableEq, Repr

/-- One FIFO word (R306): its valid bytes, EOP, and the poison mark of R311; `mark`: its condition in the Spillway, where it has
gone through the middle (R311). -/
structure FWord where
  data   : List Byte
  eop    : Bool
  poison : Bool
  mark   : EccMark := .ok
deriving DecidableEq, Repr

/-- One stream FIFO (R305). -/
structure Fifo where
  words   : List FWord := []
  /-- lane items or engine bytes not yet closed into a word -/
  part    : List Byte := []
  partBad : Bool := false
  /-- the middle is in use (R18, R309) -/
  spillOn : Bool := false
  /-- a consumer has begun the packet at the head (R308) -/
  begun   : Bool := false
deriving DecidableEq, Repr

/-! ## Host port (chapter 08) -/

/-- One PCIe function (R216 to R233). -/
structure Func where
  /-- configuration space words by offset, where they differ from reset -/
  cfg     : SMap Word := []
  /-- MSI-X table words: vector times 4 plus word (R216) -/
  msix    : SMap Word := []
  /-- pending vectors, ascending (R204) -/
  pba     : List Nat := []
  /-- kept firings, ascending (R207) -/
  kept    : List Nat := []
  /-- the vectors whose message went out on the present tick, with that tick's time (R203) -/
  fired   : List (Nat × Nat) := []
  /-- a function reset is in progress: start time (R228) -/
  resetAt : Option Nat := none
  /-- MSI-X vectors in force (R233) -/
  vectors : Nat := 256
  /-- when its last PM_PME was raised, while PME_Status is 1 (R207) -/
  pmeAt   : Option Nat := none
  /-- step 2 of its reset is due on the next tick (R228) -/
  stepTwo : Bool := false
deriving DecidableEq, Repr

/-- Tunnel state of R230. -/
inductive Tunnel where
  | none | carried | paused (why : PauseWhy)
deriving DecidableEq, Repr

/-! ## Shaping cores (chapter 09) -/

/-- A SHAPE request waiting for a core or running (R270, R271). -/
structure ShapeReq where
  key    : Nat
  owner  : Nat
  desc   : List Byte
  at_    : Nat
deriving DecidableEq, Repr

/-- An outstanding DMA of a core (R251). -/
structure Dma where
  write : Bool
  sys   : Nat
  dmem  : Nat
  len   : Nat
deriving DecidableEq, Repr

/-- What a shaping core is doing (SC_STATE); `ending`: it completes its outstanding DMAs (R264). -/
inductive CoreSt where
  | disabled | idle | running | ending
deriving DecidableEq, Repr

/-- An exception of a shaping core (R262, R275): cause, sub-reason, detail, PC, data address, repetitions not completed. -/
structure ScExc where
  cause  : Nat
  sub    : Nat := 0
  detail : Nat := 0
  addr   : Nat := 0
  pc     : Nat := 0
  rpt    : Option Nat := none
deriving DecidableEq, Repr

/-- One shaping core (R234, R238). -/
structure ScCore where
  st     : CoreSt := .disabled
  w      : SMap Word := []
  g      : SMap Word := []
  pc     : Nat := 0
  n      : Bool := false
  z      : Bool := false
  c      : Bool := false
  v      : Bool := false
  t      : Bool := false
  wp     : Nat := 0
  depth  : Nat := 0
  res    : Nat := 0
  lk     : Nat := 0
  rpt    : Nat := 0
  wsp    : Nat := 0
  wslim  : Nat := 0
  tpc    : Nat := 0
  a0     : BitVec 40 := 0#40
  a1     : BitVec 40 := 0#40
  /-- AGnA, AGnC, AGnP by special-register number -/
  ag     : SMap Word := []
  imem   : SMap Byte := []
  dmem   : SMap Byte := []
  ucode  : SMap Byte := []
  /-- repetition in progress: passes left -/
  rep    : Option Nat := none
  dmas   : List Dma := []
  /-- WFI waits for a candidate (R260, R359) -/
  wfi    : Bool := false
  req    : Option ShapeReq := none
  /-- time of the kernel's start -/
  start  : Nat := 0
  /-- the exception on which the kernel ends, while its DMAs complete -/
  exc    : Option ScExc := none
  /-- EN 1 is refused: the quad failed self-test (R450) -/
  failed : Bool := false
deriving DecidableEq, Repr

/-! ## Memory system (chapter 11) -/

/-- A merge-buffer entry (R333): the 8-byte word address and its bytes, none where not written. -/
structure MergeEntry where
  addr  : Nat
  bytes : List (Option Byte)
deriving DecidableEq, Repr

/-! ## Interrupt controller (chapter 12) -/

/-- One interrupt source (R354, R368). -/
structure IrqSrc where
  en      : Bool := false
  wake    : Bool := false
  pend    : Bool := false
  active  : Bool := false
  target  : Nat := 0
  prio    : Nat := 0
  /-- PRIO latched at claim and the claiming processor -/
  latched : Nat := 0
  holder  : Nat := 0
deriving DecidableEq, Repr

/-- A committed candidate of a processor (R360, R361): the source, its latched priority, the time of the commit, DEN at
that time, and whether it has been delivered. -/
structure Commit where
  src       : Nat
  prio      : Nat
  at_       : Nat
  den       : Bool
  delivered : Bool
deriving DecidableEq, Repr

/-! ## Fault Collector (chapter 13) -/

/-- A record that the Fault Collector still works on (R387, R388, R396). -/
structure FcRec where
  seq     : Nat
  /-- place in the fault log -/
  idx     : Nat
  group   : Nat
  det     : Nat
  cls     : Nat
  owner   : Nat
  unit    : Nat
  master  : Nat
  detail  : Word
  mode    : Nat
  t0      : Nat
  count   : Nat := 1
  acked   : Bool := false
  soft    : Bool := false
  post    : Bool := false
  echo    : Bool := false
  esc     : Bool := false
  severe  : Bool := false
  react   : Nat := 0
  done    : Bool := false
  link    : Nat := 0
  /-- time at which the grace timer expires (R391) -/
  grace   : Option Nat := none
  /-- its reaction runs -/
  reacting : Bool := false
  /-- the vector of PF0 that its host report fires (R403) -/
  vec     : Option Nat := none
  created : Nat
deriving DecidableEq, Repr

/-- What a shadow covers (R398). -/
inductive ShadowOf where
  | fn (f : Nat)
  | engine (e : Nat)
  | cantle
  | pommel
  | ft
deriving DecidableEq, Repr

/-- A reset shadow: its scope, start, the end of its reset, and the record whose reaction opened it (R398, R399). -/
structure Shadow where
  of_   : ShadowOf
  start : Nat
  ended : Option Nat
  seq   : Nat
  group : Nat
  det   : Nat
  owner : Nat
  unit  : Nat
deriving DecidableEq, Repr

/-! ## Journal (chapter 17) -/

/-- One journal record (R490, R491): its tick as a time, type, SRCID and payload words. -/
structure JRec where
  at_     : Nat
  type    : Nat
  srcid   : Nat
  payload : List Nat
  damaged : Bool
  /-- its ECC condition in the window's array, once it is written there (R330, R350) -/
  mark    : Option EccMark := none
deriving DecidableEq, Repr

/-- A digest of an operation as a DIGEST record holds it (R490, R493). -/
structure Digest where
  at_    : Nat
  srcid  : Nat
  word0  : Nat
  word1  : Nat
deriving DecidableEq, Repr

/-- The recorder's working state beside the JN_ registers (R494 to R507). -/
structure Jn where
  /-- records held in the window, oldest first -/
  recs     : List JRec := []
  /-- tick of the record that left the window last, or of the session's start -/
  base     : Nat := 0
  /-- records are being dropped; bytes lost since that began (R499) -/
  dropping : Bool := false
  lost     : Nat := 0
  /-- bytes of the session, and END flags (R496) -/
  total    : Nat := 0
  flags    : Nat := 0
  /-- the ring's running byte counts (R498) and the first unannounced byte's time -/
  prod     : Nat := 0
  cons     : Nat := 0
  annFrom  : Option Nat := none
  pollAt   : Nat := 0
  /-- start of the hold (R494) -/
  holdFrom : Nat := 0
  /-- replay: T0 positions become replay time; whether the clocks stand still; records read and not yet used -/
  stalled  : Bool := false
  exact    : Bool := false
  bytesIn  : List Byte := []
  live     : Nat := 0
  expect   : List Digest := []
  /-- replay is to stop (STOPDIV, or an INPUT divergence) -/
  stopReq  : Bool := false
  /-- number of the session (R490, R508) -/
  session  : Nat := 0
  /-- SAMPLES records that are still open: lane, time of the first and the last sample, bits a sample, samples (R490) -/
  samples  : List (Nat × Nat × Nat × Nat × List Nat) := []
  /-- loading a replay: bytes of the checkpoint, bytes of it read, SESSION seen, replay may start, its first tick -/
  ckpt     : Nat := 0
  got      : Nat := 0
  seen     : Bool := false
  ready    : Bool := false
  start    : Nat := 0
  /-- tick of the last record read -/
  lastAt   : Nat := 0
  /-- the live tunnel and functions while a replay runs (R504) -/
  liveTun  : Tunnel := .none
  liveFns  : SMap Func := []
  /-- SAMPLES records read for a replay, by lane: samples left and their bits (R490, R504) -/
  samplesIn : SMap (List (Nat × Nat)) := []
  /-- HOSTRD records of a replay at DATA level that wait for their read (R505) -/
  answers  : List JRec := []
deriving DecidableEq, Repr

/-! ## Dictionary (chapter 16) -/

/-- What the server keeps for one requester (R469): the last header and its reply, the staged write with the entry, the bytes
so far and the time of its last segment, and the entries it has read from OFFSET 0 with whether each was written since. -/
structure DictMem where
  hdr     : List Nat := []
  res     : Nat := 0
  reply   : List Byte := []
  staged  : Option (Nat × List Byte × Nat) := none
  reads   : List (Nat × Bool) := []
deriving DecidableEq, Repr

/-- The mailbox of a service function as resident firmware serves it (R474): a WRITE whose value word has yet to come, and the words
of a reply that wait for the function's box. -/
structure SvcMem where
  req  : Option Word := none
  outq : List Word := []
deriving DecidableEq, Repr

/-- What the boot flash holds for the dictionary (R479, R481): the newer valid copy of the persistent store, and the directory
in force: GEN and the slots of the Cantle and the Pommel image. -/
structure Flash where
  store : Option (SMap (List Byte)) := none
  gen   : Nat := 0
  slotC : Bool := false
  slotP : Bool := false
deriving DecidableEq, Repr

/-- Fuses programmed since fuse load, which take effect at the next one (R484, R485). -/
structure Burn where
  key  : Option (List Byte) := none
  life : Option Nat := none
  svn  : Option Nat := none
deriving DecidableEq, Repr

/-! ## The machine -/

/-- The state of the UZ1640. -/
structure State where
  /-- commands waiting, first in first out -/
  pending  : List Instr := []
  /-- time since T0 started, in units of 1/1200 microsecond: 6 to a 5 ns tick, 25 to a 1/48 microsecond tick -/
  time     : Nat := 0
  /-- time of the tick before this one (R133), and the step of R146 that this tick has reached -/
  prevTime : Nat := 0
  tickStep : Nat := 0
  /-- launches of WAITING slots that each engine has made on this tick (R124) -/
  launched : SMap Nat := []
  /-- tempo clock: true CK_AONF, false CK_TB (R156); and a change waiting for T0's boundary (R157) -/
  tickAon  : Bool := true
  clkReq   : Option Bool := none
  /-- the MODEL's counter of free values drawn -/
  freeCtr  : Nat := 0
  /-- the MODEL's counter of accepted operations and of POST-HELD entries: orders of R73, R198 -/
  seq      : Nat := 0
  /-- what has left the part, oldest first -/
  out      : List Out := []
  /-- register contents by local address, where they differ from reset -/
  regs     : SMap Word := []
  /-- memories by local address: main SRAM, Tack Room, Cantle SRAM; an unlisted byte is 0 (R341) -/
  mem      : SMap Byte := []
  ecc      : SMap EccMark := []
  slots    : SMap Slot := []
  /-- engines stopped by a mismatch, with its time (R102) -/
  stopped  : SMap Nat := []
  weir     : List Start := []
  /-- the ring from which the next turn of the scan is looked for (R175) -/
  scanNext : Nat := 0
  ceaWeir  : List Start := []
  cea      : CeA := {}
  rings    : SMap Ring := []
  srcs     : SMap Source := []
  launches : List Launch := []
  lanes    : SMap Lane := []
  stations : SMap Station := []
  fifos    : SMap Fifo := []
  fns      : SMap Func := []
  tunnel   : Tunnel := .none
  /-- when the tunnel was paused (R230) -/
  pausedAt : Nat := 0
  /-- the low-power state that the link enters in CL0 when nothing is sent, as CLSTATE codes it, and how much had been sent to the host
  then: it lasts until more is (R230, R231) -/
  cl       : Nat × Nat := (0, 0)
  /-- Subsystem ID and Subsystem Vendor ID in force (R216, R233) -/
  subsys   : Word := 0x16401F3E#32
  cores    : SMap ScCore := []
  shapeQ   : List ShapeReq := []
  /-- detector reports that the Fault Collector has not yet taken -/
  reports  : List Report := []
  irqs     : SMap IrqSrc := []
  /-- power-domain states: 0 off, 1 ramping, 2 filling, 3 on, 4 retained (R14, R17) -/
  doms     : SMap Nat := [(0, 3)]
  mode     : Nat := 1
  /-- merge buffers: macros 0 to 23, and 24 for Cantle SRAM (R333) -/
  merge    : SMap (List MergeEntry) := []
  /-- addresses of the last 16 reported correctable errors (R331) -/
  ceList   : List Nat := []
  /-- remap entries 0 to 203 (R347, R352) -/
  remap    : SMap Word := []
  /-- posted writes and messages held while the tunnel is paused (R230) -/
  held     : List Out := []
  /-- domains asked to go down, with the time of the request plus 1 (R420) -/
  downReq  : SMap Nat := []
  /-- staging shares in force: 4 f + i for STAGE_A_BASE, STAGE_A_SIZE, STAGE_B_BASE, STAGE_B_SIZE (R478) -/
  staging  : SMap Nat := []
  /-- sleep handshakes waiting for their flush, with the time of the request (R206) -/
  sleepReqs : List (SleepRequest × Nat) := []
  /-- level of the SAFEN ball; FORCED starts while it is low (R301) -/
  safen    : Bool := true
  /-- forced safe states that have started: each sets SAFE in every station's sense data (R302) -/
  safeMark : Nat := 0
  /-- the CK_AON32 monitor is armed (R445) -/
  aonArmed : Bool := false
  /-- what fuse load read (R446); before it, the part is as a RETIRED one -/
  fuses    : Fuses := { lifecycle := 3, keyDigest := [], svnMin := 0, dieRev := 0#8, serial := 0#64, mipiMfr := 0#16, remap := [] }
  /-- mailbox boxes that are full: 0 to 15 host to Pommel, 16 to 31 Pommel to host, 32 Pommel to Cantle, 33 Cantle to
  Pommel (R369) -/
  boxes    : SMap (Option Word) := []
  /-- the debug port's sticky error flag with the failing address (R22) -/
  debugErr : Option Nat := none
  jn       : Jn := {}
  /-- dictionary values that were written, by index times 256 plus sub-index (R463, R471) -/
  dict     : SMap (List Byte) := []
  /-- a Pommel-half reset is in progress: its start (R454) -/
  phReset  : Option Nat := none
  /-- time of the last PTM dialogue, and whether one is open (R227) -/
  ptmLast  : Option Nat := none
  ptmOpen  : Bool := false
  /-- the Pommel core and the Cantle core are out of reset (R447) -/
  pommelUp : Bool := false
  cantleUp : Bool := false
  /-- committed candidates by processor (R360) -/
  commits  : SMap (Option Commit) := []
  /-- open entries 0 to 63 of the Fault Collector, and records without an entry whose reaction runs (R388) -/
  opens    : SMap (Option FcRec) := []
  loose    : List FcRec := []
  shadows  : List Shadow := []
  /-- condition-type detectors whose condition is present (R381) -/
  conds    : List Report := []
  /-- times of the counting events of a group (R385) -/
  counted  : SMap (List Nat) := []
  /-- an FT reaction is in progress: its start, and whether its resets still run (R394) -/
  ftReact  : Option Nat := none
  /-- the record whose FT reaction has yet to start its resets (R394 step 3) -/
  ftHeld   : Option FcRec := none
  /-- FAULTN is driven low (R395) -/
  faultN   : Bool := false
  /-- last FC_KICK of the Cantle core and of the Pommel core since its release (R406, R435) -/
  kickC    : Option Nat := none
  kickP    : Option Nat := none
  /-- when the Cantle core and the Pommel core last left reset -/
  relC     : Nat := 0
  relP     : Nat := 0
  /-- a mode transition in progress: target code and start (R417) -/
  trans    : Option (Nat × Nat) := none
  /-- the handshake of R419 is in progress, since this time -/
  prep     : Option Nat := none
  /-- WAKEN is driven low, since this time (R433) -/
  waken    : Option Nat := none
  /-- the wake timer is armed (R440) -/
  timerArm : Bool := false
  /-- CK_REF is stable and the PLLs are locked (R428) -/
  pll      : Bool := false
  /-- a connection is present, since this time (R414) -/
  conn     : Option Nat := none
  /-- end of the last patrol pass, or start of the mode; a pass runs (R430) -/
  patrolAt : Nat := 0
  patrol   : Bool := false
  /-- PG_ and SF_ registers of PG0 and PG1 saved in DEEP (R422) -/
  saved    : SMap Word := []
  /-- level of PORN, and rails outside their range (R444) -/
  porn     : Bool := true
  badRails : List Nat := []
  /-- a Cantle core reset is in progress: its start (R455) -/
  crReset  : Option Nat := none
  /-- the boot loader checks the Pommel image in place (R452, R454) -/
  warmRun  : Bool := false
  /-- memories still in self-test: 0 to 23 macros, 24 Cantle SRAM, 25 Tack Room, 26 to 29 quads (R344) -/
  bistRun  : List Nat := []
  /-- uncorrectable words that the scrubber has reported (R332) -/
  scrubSeen : List Nat := []
  /-- the boot loader reads the Cantle image (true) or the Pommel image (false) from flash (R447, R448) -/
  loader   : Option Bool := none
  /-- the running images as they were loaded (R448); the Cantle one with its payload, which R455 checks in place -/
  cImg     : Option Image := none
  pImg     : Option Image := none
  /-- where the Cantle core and the Pommel core were last released; none for the Cantle core's boot ROM (R447, R452) -/
  startC   : Option Nat := none
  startP   : Option Nat := none
  /-- phase of a Pommel-half reset (R454): 0 function resets, 1 fills, 2 image check -/
  phPhase  : Nat := 0
  /-- records of the fault log that have not been read, at most 512 (R387) -/
  logUnread : Nat := 0
  /-- what the dictionary's server keeps for each requester: 0 P, 1 to 15 the service functions, 32 I, 33 C (R469) -/
  dreq     : SMap DictMem := []
  /-- mailbox requests of the service functions in progress (R474) -/
  svc      : SMap SvcMem := []
  /-- WRITE_LOG: its last 64 records, oldest first, each of four words (R480) -/
  wlog     : List (List Nat) := []
  /-- SAVE_STATE (R478) -/
  saveSt   : Nat := 0
  flash    : Flash := {}
  /-- STAGED, and the slots of the running images (R478, R484) -/
  stagedC  : Bool := false
  stagedP  : Bool := false
  runC     : Bool := false
  runP     : Bool := false
  burn     : Burn := {}
  /-- dynamic address of the dictionary port, and the reply that it holds (R475, R476) -/
  i3cAddr  : Option Nat := none
  i3cReply : Option (List Byte) := none
  /-- debug is attached, and has halted the Cantle core or the Pommel core (R486, R487) -/
  dbgOn    : Bool := false
  haltC    : Bool := false
  haltP    : Bool := false
  /-- what resident firmware still has to apply from the dictionary: domains that have started, 100 the start of the Cantle
  firmware, 101 that of the Pommel firmware (R131, R160, R184, R353, R471) -/
  fwDue    : List Nat := []
deriving DecidableEq, Repr

/-- The machine right after reset. -/
def State.reset : State := {}

end Sys2Proof.Machine
end

