-- ==== Sys2Proof/Machine/Regs.lean ====
section
/-! DEFINITION. The register maps as one table of descriptors (R9 to R13): address, reset value, access masks and
the legal values of enumerated fields. Banked registers (one per requester) use the bank as bits from 32 upwards. -/

namespace Sys2Proof.Machine

/-- `n` registers from `base` at `stride`; register i resets to `r0 + i * rs`. `rw`, `w1c` and `rc` are the
bits with those access codes; `legal` lists (hi, lo, min, max) of the enumerated fields (R13). -/
structure RegDesc where
  base   : Nat
  stride : Nat := 4
  n      : Nat := 1
  r0     : Nat := 0
  rs     : Nat := 0
  rw     : Nat := 0
  w1c    : Nat := 0
  rc     : Bool := false
  legal  : List (Nat × Nat × Nat × Nat) := []
deriving DecidableEq, Repr

/-- Does the descriptor name this address? -/
def RegDesc.has (d : RegDesc) (a : Nat) : Bool :=
  d.base ≤ a && decide (a < d.base + d.stride * d.n) && (a - d.base) % d.stride == 0

/-- The reset value of the register at `a`. -/
def RegDesc.resetAt (d : RegDesc) (a : Nat) : Word := BitVec.ofNat 32 (d.r0 + (a - d.base) / d.stride * d.rs)

/-- CE_ registers (R103, R104). -/
def regsCE : List RegDesc := [
  { base := 0x04400000, r0 := 0x00800040 },
  { base := 0x04400004, w1c := 0x3 },
  { base := 0x04400008, r0 := 2, rw := 0x3, legal := [(1, 0, 0, 2)] },
  { base := 0x04400010, r0 := 0xFFFFFFFF, rw := 0xFFFFFFFF },
  { base := 0x04400014, r0 := 0xFFFFFFFF, rw := 0xFFFFFFFF },
  { base := 0x04400020 },
  { base := 0x04480000, r0 := 2, rw := 0x7, legal := [(2, 1, 0, 2)] },
  { base := 0x04480004, w1c := 0x7 },
  { base := 0x04480008, rw := 0xFFFFFFFF },
  { base := 0x0448000C, r0 := 6, rw := 0xF, legal := [(3, 0, 6, 12)] },
  { base := 0x04480010, rw := 0xFFFFFFFF },
  { base := 0x04480014, r0 := 4, rw := 0xF, legal := [(3, 0, 4, 10)] },
  { base := 0x0448001C }, { base := 0x04480020 },
  { base := 0x04480024, rw := 0x3FF } ]

/-- AD_ registers (R130). -/
def regsAD : List RegDesc := [
  { base := 0x04300000, r0 := 0x00100040 },
  { base := 0x04300004, w1c := 0x7 },
  { base := 0x04300008, r0 := 0x50504B00, rw := 0xFFFFFF01,
    legal := [(31, 24, 50, 100), (23, 16, 50, 100), (15, 8, 50, 100)] },
  { base := 0x0430000C }, { base := 0x04300014 },
  { base := 0x04300020, n := 6, rc := true },
  { base := 0x04300200, stride := 16, n := 16, r0 := 0x02000001, rw := 0x3FFF0003, legal := [(29, 16, 0, 8192)] },
  { base := 0x04300204, stride := 16, n := 16, r0 := 0x00C80000, rw := 0xFFFFFFFF },
  { base := 0x04300500, rw := 0xFFF } ]

/-- TP_ registers (R158, R159). The registers of T0 are read-only; T7 keeps EN at 1 (R136). -/
def regsTP : List RegDesc := [
  { base := 0x04500000, r0 := 0x01000010 },
  { base := 0x04500004, w1c := 0x3F },
  { base := 0x04500008, r0 := 0xE, rw := 0x3E },
  { base := 0x04500010 },
  { base := 0x04500100, r0 := 0x80000000 }, { base := 0x04500104, r0 := 0x00193242 },
  { base := 0x04500108, r0 := 0x2710 }, { base := 0x0450010C, r0 := 0xC8 },
  { base := 0x04500120, rw := 0x80000000 },
  { base := 0x045001E0, r0 := 0x80000000 },
  { base := 0x045001C0, rw := 0xFCFFF07F, legal := [(30, 29, 0, 2), (6, 0, 0, 95)] },
  { base := 0x04500140, stride := 32, n := 14, rw := 0xF8FFF07F, legal := [(30, 29, 0, 2), (6, 0, 0, 95)] },
  { base := 0x04500124, stride := 32, n := 15, r0 := 0x00193242, rw := 0x00FFFFFF,
    legal := [(23, 16, 1, 100), (15, 8, 10, 95), (7, 4, 2, 15)] },
  { base := 0x04500128, stride := 32, n := 15, r0 := 0x2710, rw := 0xFFFFFF, legal := [(23, 0, 1, 10000000)] },
  { base := 0x045001EC, r0 := 0x17D8, rw := 0x7FFFFFFF, legal := [(30, 0, 200, 2147483647)] },
  { base := 0x0450012C, stride := 32, n := 15, r0 := 0xC8, rw := 0x7FFFFFFF, legal := [(30, 0, 200, 2147483647)] },
  { base := 0x04501000, stride := 8, n := 256, rw := 0xDF03FFFF, legal := [(28, 24, 0, 16)] },
  { base := 0x04501004, stride := 8, n := 256 },
  { base := 0x04502000, n := 2048, rw := 0xFFFF0F7F } ]

/-- QM_ registers kept by address: the views' status and event registers and the global registers (R181 to R183, R210). -/
def regsQM : List RegDesc := [
  { base := 0x04200004, stride := 0x10000, n := 16, w1c := 0x7 },
  { base := 0x04200008, stride := 0x10000, n := 16, rw := 0x800003FF },
  { base := 0x04208000, r0 := 0x40000400 },
  { base := 0x04208004, w1c := 0x1 },
  { base := 0x04208100, n := 16, r0 := 0x04000000, rs := 0x400, rw := 0x1FFF3FFF, legal := [(28, 16, 0, 4096)] } ]

/-- PG_ registers (R313 to R315); the lane registers are at 0x20 per lane. -/
def regsPG : List RegDesc := [
  { base := 0x04700000, stride := 0x10000, n := 8, r0 := 0x0C000000, rs := 0x10000 },
  { base := 0x04700004, stride := 0x10000, n := 8, w1c := 0x7 },
  { base := 0x04700008, stride := 0x10000, n := 8, r0 := 0x801, rw := 0x3F03, legal := [(13, 8, 2, 63), (1, 0, 0, 2)] },
  { base := 0x0470000C, stride := 0x10000, n := 8 },
  { base := 0x04700014, stride := 0x10000, n := 8, rw := 0xFFF },
  { base := 0x04780000, r0 := 0x10000040 },
  { base := 0x04780004, w1c := 0x3 },
  { base := 0x04790000, n := 0x4000, rw := 0xFFFFFFFF } ]

/-- SF_ registers (R316, R317). -/
def regsSF : List RegDesc := [ { base := 0x04880000, r0 := 0x00C00600 } ]

/-- A register of local lane k of a port group: offset 0x100 + 0x20 k + w (R313). -/
def laneDesc (a : Nat) : Option RegDesc :=
  let off := a % 0x10000
  if 0x04700000 ≤ a ∧ a < 0x04780000 ∧ 0x100 ≤ off ∧ off < 0x100 + 0x20 * 12 then
    let w := off % 0x20
    if w = 0 then some { base := a, rw := 0xF }
    else if w = 4 then some { base := a, rw := 0xFF83FF00 }
    else if w = 8 then some { base := a, rw := 0xFFFFFFFF }
    else if w = 0xC then some { base := a, rw := 0x7, legal := [(2, 0, 0, 5)] }
    else if w = 0x10 then some { base := a }
    else none
  else none

/-- A register of local FIFO j of a port group: offset 0x40 j + w (R316). -/
def fifoDesc (a : Nat) : Option RegDesc :=
  let off := a % 0x10000
  if 0x04800000 ≤ a ∧ a < 0x04880000 ∧ off < 0x40 * 24 then
    let w := off % 0x40
    if w = 0 then some { base := a, rw := 0x00FF0001, legal := [(23, 16, 0, 64)] }
    else if w = 4 then some { base := a, rw := 0x7FFF7FFF, legal := [(30, 16, 0, 16400), (14, 0, 0, 16400)] }
    else if w = 0xC then some { base := a, w1c := 0x1F }
    else none
  else none

/-- MS_ registers (R351, R352); MS_REMAP_SEL is banked, MS_REMAP_ENT selects a remap entry. -/
def regsMS : List RegDesc := [
  { base := 0x04900000, r0 := 0x18080800 },
  { base := 0x04900004, w1c := 0x3F },
  { base := 0x04900008, r0 := 0x3C03, rw := 0xFF03, legal := [(15, 8, 1, 255)] },
  { base := 0x0490000C }, { base := 0x04900010 }, { base := 0x04900014 },
  { base := 0x04900018, n := 2, rc := true },
  { base := 0x04900020, w1c := 0xC0000000 },
  { base := 0x04900024, r0 := 0x20000000, rw := 0xE3007F1F },
  { base := 0x04900028 }, { base := 0x0490002C } ]

/-- HP_ registers (R231). -/
def regsHP : List RegDesc := [
  { base := 0x04000000, r0 := 0x03020010 },
  { base := 0x04000004, w1c := 0xF },
  { base := 0x04000008, r0 := 0xC, rw := 0x17C, legal := [(3, 2, 2, 3)] },
  { base := 0x0400000C, r0 := 0x05000000 },
  { base := 0x04000010, r0 := 0xA, rw := 0xFFFF, legal := [(15, 0, 1, 1000)] },
  { base := 0x04000014, n := 2, rc := true } ]

/-- FN_ registers of the sixteen views (R232), and PF0's dictionary channel (R472). -/
def regsFN : List RegDesc := [
  { base := 0x04100004, stride := 0x10000, n := 16, w1c := 0x7 },
  { base := 0x04100018, stride := 0x10000, n := 16, w1c := 0x1C },
  { base := 0x0410001C, stride := 0x10000, n := 16, rw := 0xC00003FF },
  { base := 0x04100020, stride := 0x10000, n := 16 }, { base := 0x04100024, stride := 0x10000, n := 16 },
  { base := 0x04100028, stride := 0x10000, n := 16 }, { base := 0x0410002C, stride := 0x10000, n := 16 },
  { base := 0x04100030, stride := 0x10000, n := 16 },
  { base := 0x04100100, rw := 0xFFFFFFFF, legal := [(3, 0, 1, 2)] },
  { base := 0x04100104, rw := 0xFFFFFFFF },
  { base := 0x04100108, rw := 0xFF, legal := [(7, 0, 0, 128)] },
  { base := 0x0410010C, rw := 0x800003FF },
  { base := 0x04100114, w1c := 0x1 },
  { base := 0x04100140, n := 32, rw := 0xFFFFFFFF } ]

/-- SC_ registers of the sixteen cores (R274, R275). -/
def regsSC : List RegDesc := [
  { base := 0x04600000, stride := 0x10000, n := 16, r0 := 0x20400000, rs := 1 },
  { base := 0x04600004, stride := 0x10000, n := 16, w1c := 0x7 },
  { base := 0x04600008, stride := 0x10000, n := 16, rw := 0xF0001 },
  { base := 0x04600010, stride := 0x10000, n := 16, rw := 0x7FFC7FFC },
  { base := 0x04600014, stride := 0x10000, n := 16, rw := 0xFFFCFFFC },
  { base := 0x04600018, stride := 0x10000, n := 16 }, { base := 0x0460001C, stride := 0x10000, n := 16 },
  { base := 0x04600020, stride := 0x10000, n := 16 }, { base := 0x04600024, stride := 0x10000, n := 16 },
  { base := 0x04600028, stride := 0x10000, n := 16, rw := 0xFFFC },
  { base := 0x04600030, stride := 0x10000, n := 16, rc := true },
  { base := 0x04600034, stride := 0x10000, n := 16, rc := true },
  { base := 0x04600044, rc := true } ]

/-- IC_ registers kept by address (R367, R368); the sources stand in `irqs`. -/
def regsIC : List RegDesc := [
  { base := 0x04A00000, r0 := 0x04000012 },
  { base := 0x04A00004, w1c := 0x3 },
  { base := 0x04A00008, rw := 0x1 },
  { base := 0x04A00020 },
  { base := 0x04A00100, stride := 16, n := 18, r0 := 0x40000000, rw := 0xC000000F },
  { base := 0x04A00108, stride := 16, n := 18, rc := true },
  { base := 0x04A00600, n := 64, r0 := 0x1F, rw := 0x1F } ]

/-- MB_ and LK_ registers kept by address (R376, R377, R379); the boxes stand in `boxes`. -/
def regsMB : List RegDesc := [
  { base := 0x04B00000, r0 := 0x11 },
  { base := 0x04B00004, w1c := 0x1 },
  { base := 0x04B00008 },
  { base := 0x04B01008, stride := 16, n := 16, w1c := 0x4 },
  { base := 0x04B02010, w1c := 0x4 },
  { base := 0x04B80000, r0 := 0x100 },
  { base := 0x04B80004, w1c := 0x3 },
  { base := 0x04B80008 },
  { base := 0x04B81000, n := 256 } ]

/-- FC_ registers kept by address (R410, R411); groups 0 to 9, 20, 43, 44 and 46 are control groups (R382). -/
def regsFC : List RegDesc := [
  { base := 0x04C00000, r0 := 0x02DB3040 },
  { base := 0x04C00004, w1c := 0x3F },
  { base := 0x04C00008, rw := 0x100 },
  { base := 0x04C0000C, r0 := 0x3E8, rw := 0x1FFFF, legal := [(16, 0, 10, 100000)] },
  { base := 0x04C00014 }, { base := 0x04C00018 },
  { base := 0x04C0001C, rw := 0x1FF },
  { base := 0x04C00020, rc := true },
  { base := 0x04C00024, r0 := 0xC0000000, rw := 0xC00003FF },
  { base := 0x04C00030, rw := 0x803F003F },
  { base := 0x04C00400, n := 48, w1c := 0x7 },
  { base := 0x04C00500, n := 10, r0 := 0x03E80001, rw := 0x3FFF00FF, legal := [(29, 16, 1, 10000), (7, 0, 1, 255)] },
  { base := 0x04C00550, r0 := 0x03E80001, rw := 0x3FFF00FF, legal := [(29, 16, 1, 10000), (7, 0, 1, 255)] },
  { base := 0x04C005AC, n := 2, r0 := 0x03E80001, rw := 0x3FFF00FF, legal := [(29, 16, 1, 10000), (7, 0, 1, 255)] },
  { base := 0x04C005B8, r0 := 0x03E80001, rw := 0x3FFF00FF, legal := [(29, 16, 1, 10000), (7, 0, 1, 255)] },
  { base := 0x04C00500, n := 48, r0 := 0x03E80008, rw := 0x3FFF00FF, legal := [(29, 16, 1, 10000), (7, 0, 1, 255)] } ]

/-- PM_ registers kept by address (R440, R441); mode, domains and heartbeat stand in fields of their own. -/
def regsPM : List RegDesc := [
  { base := 0x04D00000, r0 := 0x0C1E1900 },
  { base := 0x04D00004, w1c := 0x7F },
  { base := 0x04D0000C, r0 := 0x00050000, rw := 0x000F000F },
  { base := 0x04D00014, r0 := 0x1900A014, rw := 0xFFFFF01F, legal := [(31, 22, 1, 1000), (21, 12, 1, 1000), (4, 0, 1, 25)] },
  { base := 0x04D00018 },
  { base := 0x04D00024, r0 := 0x233FFFF0, rw := 0x233FFFF0 },
  { base := 0x04D00028, r0 := 0x7FF, rw := 0x07FF07FF },
  { base := 0x04D0002C, w1c := 0x7FF },
  { base := 0x04D00030, rw := 0x03FFFFFF, legal := [(25, 24, 0, 2)] },
  { base := 0x04D00034, n := 2, rw := 0xFFFFFFFF },
  { base := 0x04D0003C, rw := 0x7F03, legal := [(14, 8, 0, 95)] } ]

/-- SU_ registers (R460, R461). -/
def regsSU : List RegDesc := [
  { base := 0x04E00000, r0 := 0x2 },
  { base := 0x04E00004, w1c := 0x3 },
  { base := 0x04E00008 },
  { base := 0x04E00014 },
  { base := 0x04E00018, rc := true } ]

/-- JN_ registers (R508, R509). -/
def regsJN : List RegDesc := [
  { base := 0x04F00000, r0 := 0x1 },
  { base := 0x04F00004, w1c := 0x7F },
  { base := 0x04F00008, r0 := 0x64A00000, rw := 0xFFF8003C, legal := [(31, 24, 1, 255), (23, 19, 16, 30), (3, 2, 0, 2)] },
  { base := 0x04F00010 },
  { base := 0x04F00014, r0 := 0xFFFF, rw := 0xFFFF },
  { base := 0x04F00018, rw := 0xFFFFF000 }, { base := 0x04F0001C, rw := 0x7FFFFFFF },
  { base := 0x04F00020, rw := 0xFFFFFFF0 }, { base := 0x04F00024, rw := 0x7FFFFFFF },
  { base := 0x04F0002C, n := 3, rc := true },
  { base := 0x04F00038, n := 6 } ]

/-- The rows of the block that holds this address (R16). -/
def regRows (a : Nat) : List RegDesc :=
  match a / 0x100000 with
  | 0x42 => regsQM
  | 0x43 => regsAD
  | 0x44 => regsCE
  | 0x45 => regsTP
  | 0x47 => regsPG
  | 0x48 => regsSF
  | 0x49 => regsMS
  | 0x40 => regsHP
  | 0x41 => regsFN
  | 0x46 => regsSC
  | 0x4A => regsIC
  | 0x4B => regsMB
  | 0x4C => regsFC
  | 0x4D => regsPM
  | 0x4E => regsSU
  | 0x4F => regsJN
  | _ => []

/-- The descriptor of the register at a local address, if a register map lists it (R12). -/
def regDesc (a : Nat) : Option RegDesc :=
  match (regRows a).find? (fun d => d.has a) with
  | some d => some d
  | none =>
    match laneDesc a with
    | some d => some d
    | none => fifoDesc a

/-- Reset value of the register at a local address; 0 for an offset that no map lists (R12). Banked copies reset
to 0. -/
def regReset (a : Nat) : Word :=
  match regDesc a with
  | some d => d.resetAt a
  | none => 0#32

/-- The stored value of the register at `a`. -/
def State.reg (s : State) (a : Nat) : Word := SMap.get (regReset a) s.regs a

/-- Store a register value (a hardware update, or the stored part of a software write). -/
def State.setReg (s : State) (a : Nat) (v : Word) : State := { s with regs := SMap.set (regReset a) s.regs a v }

/-- The key of a register that each requester holds for itself: bank b is the requester's master ID. -/
def banked (b a : Nat) : Nat := b * 2 ^ 32 + a

/-- The value a software write stores: RW bits from the write, RW1C bits cleared by ones, all else kept (R9, R11);
an enumerated field that would take a reserved value keeps its previous value (R13). -/
def RegDesc.merged (d : RegDesc) (old v : Word) : Word :=
  let new := mergeMask old v (BitVec.ofNat 32 d.rw) &&& ~~~ (v &&& BitVec.ofNat 32 d.w1c)
  d.legal.foldl (fun w (hi, lo, mn, mx) =>
    if mn ≤ bitsOf v hi lo ∧ bitsOf v hi lo ≤ mx then w else putBits w hi lo (bitsOf old hi lo)) new

/-- Does the write place a reserved value into an enumerated field (R13)? -/
def RegDesc.illegal (d : RegDesc) (v : Word) : Bool :=
  d.legal.any (fun (hi, lo, mn, mx) => !(decide (mn ≤ bitsOf v hi lo) && decide (bitsOf v hi lo ≤ mx)))

end Sys2Proof.Machine
end

