-- ==== Sys2Proof/Machine/Ops.lean ====
section
/-! DEFINITION. The shared operations over registers, memories, interrupts, reports and time: what several
families of commands do in the same way.
The log entries that hold here: DESIGN CHOICE 1, 3, 5, 7, 65; DEDUCED 8, 30, 45, 64. -/

namespace Sys2Proof.Machine

/-! ## Outcome, output and free values -/

/-- The outcome of a step of the machine. -/
abbrev Result := Host.Outcome State Fault Refusal

/-- What the datapath of a replay does not let out: host writes, messages and what goes to the balls (R504). -/
def Out.ofPath : Out → Bool
  | .hostWrite _ _ _ _ _ => true
  | .msix _ _ _ _ => true
  | .pme _ => true
  | .lane _ _ => true
  | .busEnd _ _ => true
  | .xferHead _ _ => true
  | _ => false

/-- Something leaves the part; in REPLAY the datapath's writes, messages and lane outputs are discarded (R504). -/
def State.emit (s : State) (o : Out) : State := if s.mode == 0xA && o.ofPath then s else { s with out := s.out ++ [o] }

/-- A fresh free value (Config.freeQuad), and the state with the counter advanced. -/
def State.draw (s : State) : Quad × State := (Config.freeQuad s.freeCtr, { s with freeCtr := s.freeCtr + 1 })

/-! ## Time (R109, R132, R156) -/

/-- Length of a tempo tick in time units of 1/1200 microsecond (R156). -/
def State.tickLen (s : State) : Nat := if s.tickAon then 25 else 6

/-- Ticks per microsecond of the current tempo clock (R136). -/
def State.tpu (s : State) : Nat := if s.tickAon then 48 else 200

/-- T0's position at a time: whole microseconds and the phase, rounded down (R132, R156). -/
def t0At (t : Nat) : Nat := t / 1200 * 4096 + t % 1200 * 4096 / 1200

/-- T0's position now. -/
def State.t0 (s : State) : Nat := t0At s.time

/-- A replay runs: JN_STATE reads REPLAY (R508). -/
def State.replaying (s : State) : Bool := bitsOf (s.reg 0x04F00010) 2 0 == 5

/-- The live time: while a replay runs it goes on beside replay time, and what lies outside the datapath keeps it (R489,
R504). -/
def State.live (s : State) : Nat := if s.replaying then s.jn.live else s.time

/-- The live T0 position. -/
def State.liveT0 (s : State) : Nat := t0At s.live

/-- T0 position in a record word: period count [19:0] and phase (R186, R158). -/
def t0Word (t : Nat) : Word := BitVec.ofNat 32 (t0At t % 2 ^ 32)

/-! ## Power domains (R14, R17, R28, R343) -/

/-- The domain is powered and filled (R343). -/
def State.domOn (s : State) (d : Nat) : Bool := SMap.get 0 s.doms d == 3

/-- Port group n's domain: bits 2 to 9 of PM_DOM (R424). -/
def pgDom (n : Nat) : Nat := 2 + n

/-- Cluster n's domain. -/
def ccDom (n : Nat) : Nat := 10 + n

/-- Quad k's domain. -/
def sqDom (k : Nat) : Nat := 18 + k

/-- Main-SRAM domain k. -/
def memDom (k : Nat) : Nat := 22 + k

def domU4PHY : Nat := 26
def domU4RT : Nat := 27
def domMGMT : Nat := 28
def domJNL : Nat := 29

/-! ## Interrupt messages and status registers (R354, R355, R368) -/

/-- The target that cannot be changed (R354): 0 Pommel, 1 Cantle, 18 the reins holder. -/
def fixedTarget (n : Nat) : Option Nat :=
  if 256 ≤ n ∧ n ≤ 287 then some 0
  else if n = 288 ∨ n = 291 ∨ n = 304 then some 1
  else if n = 289 ∨ n = 290 then some 0
  else if n = 305 then some 18
  else none

/-- An interrupt source as reset leaves it (R368). -/
def irqReset (n : Nat) : IrqSrc := { wake := decide (256 ≤ n) && decide (n ≤ 291), target := (fixedTarget n).getD 0 }

/-- A source of the interrupt controller. -/
def State.irqSrc (s : State) (n : Nat) : IrqSrc := SMap.get (irqReset n) s.irqs n

/-- Replace a source. -/
def State.setIrq (s : State) (n : Nat) (x : IrqSrc) : State := { s with irqs := SMap.set (irqReset n) s.irqs n x }

/-- A message sets the source's pending bit, whether or not it is enabled (R355). -/
def State.irq (s : State) (n : Nat) : State := s.setIrq n { s.irqSrc n with pend := true }

/-- The level source of a block's status register (R354). -/
def statusSource (a : Nat) : Option Nat :=
  if a = 0x04400004 then some 306
  else if a = 0x04480004 then some 307
  else if a = 0x04300004 then some 308
  else if a = 0x04208004 then some 309
  else if a = 0x04000004 then some 310
  else if a = 0x04900004 then some 311
  else if a = 0x04780004 then some 312
  else if 0x04700000 ≤ a ∧ a < 0x04780000 ∧ a % 0x10000 = 4 then some (313 + (a - 0x04700000) / 0x10000)
  else if 0x04600000 ≤ a ∧ a < 0x04700000 ∧ a % 0x10000 = 4 then some (321 + (a - 0x04600000) / 0x10000)
  else if a = 0x04A00004 then some 337
  else if a = 0x04B00004 then some 338
  else if a = 0x04B80004 then some 338
  else if a = 0x04500004 then some 305
  else if a = 0x04D00004 then some 436
  else if a = 0x04F00004 then some 468
  else if 0x04C00400 ≤ a ∧ a < 0x04C004C0 ∧ a % 4 = 0 then some (384 + (a - 0x04C00400) / 4)
  else none

/-- The level of a source is high: its status register is not 0, for tempo after masking with TP_IE (R354). -/
def State.statusLevel (s : State) (a : Nat) : Bool :=
  if a = 0x04500004 then (s.reg 0x04500004 &&& s.reg 0x04500008) != 0#32
  else if a = 0x04B00004 ∨ a = 0x04B80004 then s.reg 0x04B00004 != 0#32 || s.reg 0x04B80004 != 0#32
  else s.reg a != 0#32

/-- Send the level message of a status register that has just risen (R354): `was` is its level before. -/
def State.risen (s : State) (a : Nat) (was : Bool) : State :=
  match statusSource a with
  | some n => if !was && s.statusLevel a then s.irq n else s
  | none => s

/-- Hardware sets bits of a status register; a rising level sends its message (R10, R354). -/
def State.setStatus (s : State) (a : Nat) (bits : Word) : State :=
  (s.setReg a (s.reg a ||| bits)).risen a (s.statusLevel a)

/-- CFGERR of the register block at this status address (R13). -/
def State.cfgErr (s : State) (a : Nat) : State := s.setStatus a 1#32

/-! ## Reports to the Fault Collector (R386, R387) -/

/-- A detector reports; DETECTION takes the report up. -/
def State.report (s : State) (g det cls owner unit master : Nat) (detail : Word) (cond : Bool := false) : State :=
  let r : Report :=
    { group := Fin.ofNat 48 g, det := Fin.ofNat 64 det, cls := Fin.ofNat 3 cls, owner := Fin.ofNat 32 owner,
      unit := BitVec.ofNat 16 unit, master := BitVec.ofNat 7 master, detail := detail, cond := cond }
  { s with reports := s.reports ++ [r] }

/-- A reset opens a shadow over its scope (R398); no record has caused it yet. -/
def State.openShadow (s : State) (x : ShadowOf) : State :=
  { s with shadows := s.shadows ++ [{ of_ := x, start := s.live, ended := none, seq := 0, group := 0, det := 0, owner := 31, unit := 0 }] }

/-- The reset that a shadow covers has ended (R398). -/
def State.endShadow (s : State) (x : ShadowOf) : State :=
  { s with shadows := s.shadows.map (fun w => if w.of_ = x ∧ w.ended.isNone then { w with ended := some s.live } else w) }

/-- OWNER code of a requester for a refused access (R382, R387): function, core, debug, or the unit. -/
def ownerOfMaster (m : Nat) : Nat :=
  if 32 ≤ m ∧ m < 48 then m - 32
  else if m = 1 then 17
  else if m = 2 then 16
  else if m = 72 then 16
  else if m = 127 then 19
  else 18

/-- OWNER of an ECC report: the requester's function, or none (R382 groups 34 to 38). -/
def eccOwner (m : Nat) : Nat := if 32 ≤ m ∧ m < 48 then m - 32 else 31

/-- A refused access is counted as a data-class CE against the requester (R22); detectors 0 to 3 of group ACCESS
stand for cores and debug, shaping cores, engines, and the host. -/
def State.refusedAccess (s : State) (m a : Nat) : State :=
  let det := if 16 ≤ m ∧ m < 32 then 1 else if 64 ≤ m ∧ m ≤ 72 then 2 else if 32 ≤ m ∧ m < 48 then 3 else 0
  let unit := if 16 ≤ m ∧ m < 32 then m - 16 else if 64 ≤ m ∧ m < 72 then m - 64 else 0
  s.report 42 det 0 (ownerOfMaster m) unit m (BitVec.ofNat 32 a)

/-! ## Memories (R19 to R25, R320 to R337) -/

/-- The address is memory: main SRAM, Tack Room or Cantle SRAM (R19). -/
def isMain (a : Nat) : Bool := a < 0x01800000
def isTack (a : Nat) : Bool := decide (0x02000000 ≤ a) && decide (a < 0x02010000)
def isCantle (a : Nat) : Bool := decide (0x02100000 ≤ a) && decide (a < 0x02200000)

/-- The domain that powers the memory at `a`: PD_MEM0 to PD_MEM3, or PD_AON_SRAM (R23, R24). -/
def memDomainOf (a : Nat) : Nat := if isMain a then memDom (a / 0x600000) else 1

/-- The ECC word that holds a byte: 8 bytes, or 4 in the Tack Room (R326, R336). -/
def eccWord (a : Nat) : Nat := if isTack a then alignDown a 4 else alignDown a 8

/-- Bytes of an ECC word. -/
def eccSize (a : Nat) : Nat := if isTack a then 4 else 8

/-- The merge buffer of an address: main macro 0 to 23, or 24 for Cantle SRAM (R333). -/
def mergeOf (a : Nat) : Nat := if isMain a then a / 0x100000 else 24

/-- The entry of a merge buffer that holds the word of `a`. -/
def State.mergeEntry (s : State) (a : Nat) : Option MergeEntry :=
  if isTack a then none
  else (SMap.get [] s.merge (mergeOf a)).find? (fun e => e.addr == alignDown a 8)

/-- The byte every master reads at `a`: the merge-buffer byte laid over the memory's byte (R335). -/
def State.byteAt (s : State) (a : Nat) : Byte :=
  match s.mergeEntry a with
  | some e => ((e.bytes[a % 8]?).getD none).getD (SMap.get 0#8 s.mem a)
  | none => SMap.get 0#8 s.mem a

/-- `n` bytes from `a`. -/
def State.bytesAt (s : State) (a n : Nat) : List Byte := (span a n).map s.byteAt

/-- Store one byte in the array. -/
def State.putByte (s : State) (a : Nat) (b : Byte) : State := { s with mem := SMap.set 0#8 s.mem a b }

/-- Store bytes in the array from `a` upwards. -/
def State.putBytes (s : State) : Nat → List Byte → State
  | _, [] => s
  | a, b :: bs => State.putBytes (s.putByte a b) (a + 1) bs

/-- Set the ECC condition of a word. -/
def State.setEcc (s : State) (w : Nat) (m : EccMark) : State := { s with ecc := SMap.set .ok s.ecc w m }

/-- REGION code of MS_ERR_INFO and MS_INJ (R352). -/
def regionCode (a : Nat) : Nat := if isMain a then 0 else if isTack a then 2 else 1

/-- The armed injection of R350 aims at the memory of `a`. -/
def State.injHits (s : State) (a : Nat) : Bool :=
  let v := s.reg 0x04900024
  bit v 31 && bitsOf v 25 24 == regionCode a && (!(isMain a) || bitsOf v 4 0 == mergeOf a)

/-- Inverting bits b and b + 1 of a clean word gives the syndrome 0x03: the two lowest check bits, which stand after the data bits,
do (R326, R328); for other pairs it depends on the code (DEDUCED, notes/assumptions/64.md). -/
def pairIsPoison (tack : Bool) (b : Nat) : Bool := b == (if tack then 32 else 64) || Config.eccPairIsPoison tack b

/-- The condition of a word written with `old` intended and an injection of KIND k at BIT b applied (R326, R350). -/
def injected (tack : Bool) (k b : Nat) (old : EccMark) : EccMark :=
  if k = 3 then .poison
  else if old = .poison then
    if k = 1 then (if Config.eccOddIsColumn tack b then .correctable else .uncorrectable)
    else (if pairIsPoison tack b then .ok else .uncorrectable)
  else if k = 1 then .correctable
  else if pairIsPoison tack b then .poison else .uncorrectable

/-- A write of `a` takes an armed injection (R350): the condition that the word then has, where `old` was intended. -/
def State.injMark (s : State) (a : Nat) (old : EccMark) : EccMark × State :=
  if s.injHits a then
    let v := s.reg 0x04900024
    (injected (isTack a) (bitsOf v 30 29) (bitsOf v 14 8) old,
      (s.setReg 0x04900024 (v &&& 0x7FFFFFFF#32)).setStatus 0x04900004 0x10#32)
  else (old, s)

/-- Apply an armed injection to the array word just written (R350). -/
def State.inject (s : State) (w : Nat) : State :=
  let (m, s) := s.injMark w (SMap.get .ok s.ecc w)
  s.setEcc w m

/-- Write an array word: the given bytes at `a` inside the ECC word, and the condition it then has (R328, R350). -/
def State.arrayWrite (s : State) (a : Nat) (bs : List Byte) (mark : EccMark) : State :=
  ((s.putBytes a bs).setEcc (eccWord a) mark).inject (eccWord a)

/-- Make the number of set bits of an n-bit number odd (`odd`) or even, by its lowest bit. -/
def withParity (odd : Bool) (n v : Nat) : Nat :=
  if (((span 0 n).filter (fun i => v.testBit i)).length % 2 == 1) == odd then v % 2 ^ n else v % 2 ^ n ^^^ 1

/-- A syndrome of `n` bits that fits the condition, from a free number v (R326): of odd weight for a single-bit error; for the
two inverted bits of an uncorrectable word of even weight, and neither 0 nor 0x03. -/
def syndromeOf (mark : EccMark) (n v : Nat) : Nat :=
  match mark with
  | .ok => 0
  | .poison => 3
  | .correctable => withParity true n v
  | .uncorrectable =>
    let k := withParity false n v
    if k = 0 then 5 else if k = 3 then 6 else k

/-- Report an ECC event found at a read of word `w` (R331): MS_STATUS, counters, MS_ERR_ADDR and MS_ERR_INFO, the
filter of CEFILT and the Fault Collector. The syndrome of a correctable or uncorrectable word is a free value of its class (R326), of
8 bits, and of 7 in the Tack Room. -/
def State.eccEvent (s : State) (w : Nat) (mark : EccMark) (master owner : Nat) : State :=
  if mark = .ok then s
  else
    let kind := match mark with | .correctable => 1 | .uncorrectable => 2 | _ => 3
    let syn := syndromeOf mark (if isTack w then 7 else 8) (Config.freeQuad s.freeCtr).toNat
    let s := if kind = 3 then s else { s with freeCtr := s.freeCtr + 1 }
    let held := s.reg 0x04900014
    let rec_ := kind != 1 || !bit held 31 || bitsOf held 30 28 == 1
    let info := BitVec.ofNat 32 (2 ^ 31 + kind * 2 ^ 28 + regionCode w * 2 ^ 26 + master % 128 * 2 ^ 16 + syn * 2 ^ 8)
    let s := if rec_ then (s.setReg 0x04900010 (BitVec.ofNat 32 w)).setReg 0x04900014 info else s
    let s := s.setStatus 0x04900004 (if kind = 1 then 2#32 else if kind = 2 then 4#32 else 8#32)
    let s := if kind = 1 then s.setReg 0x04900018 (satInc (s.reg 0x04900018))
             else if kind = 2 then s.setReg 0x0490001C (satInc (s.reg 0x0490001C)) else s
    let filtered := kind == 1 && bit (s.reg 0x04900008) 1 && s.ceList.contains w
    if kind = 3 || filtered then s
    else
      let g := if isMain w then 34 + w / 0x600000 else 38
      let det := if isMain w then mergeOf w % 6 else if isCantle w then 0 else 1
      let s := s.report g det (if kind = 1 then 0 else 1) owner (if isMain w then mergeOf w else 0) master (BitVec.ofNat 32 w)
      if kind = 1 then { s with ceList := (w :: s.ceList).take 16 } else s

/-- Hardware writes a record of a region that it owns (R23, R101); the condition of the whole record stands at its first word w, and
an armed injection strikes there (R350; DESIGN CHOICE, notes/assumptions/65.md). -/
def State.hwWrite (s : State) (w : Nat) : State := (s.setEcc w .ok).inject w

/-- Hardware reads such a record: an event where it is not clean (R331). -/
def State.hwCheck (s : State) (w master owner : Nat) : State := s.eccEvent w (SMap.get .ok s.ecc w) master owner

/-- The mark is one of a word that is delivered with poison (R328). -/
def EccMark.bad (m : EccMark) : Bool := m == .uncorrectable || m == .poison

/-- Such a record reads uncorrectable, or as stored poison. -/
def State.hwBad (s : State) (w : Nat) : Bool := (SMap.get .ok s.ecc w).bad

/-- An event at an item of a region whose place there the spec does not give (prefetch buffers, park buffer, Spillway): the address
is a free one of the `n` words from `base` (R331). -/
def State.eccEventIn (s : State) (base n : Nat) (mark : EccMark) (owner : Nat) : State :=
  if mark = .ok then s
  else
    let (q, s) := s.draw
    s.eccEvent (base + 8 * (q.toNat % n)) mark 0 owner

/-- The ECC words that `n` bytes from `a` touch. -/
def eccWords (a n : Nat) : List Nat :=
  if n = 0 then [] else
    let z := eccSize a
    (span 0 ((eccWord (a + n - 1) - eccWord a) / z + 1)).map (fun i => eccWord a + i * z)

/-- The bytes carry the poison mark: some word they touch is uncorrectable or stored poison (R328). -/
def State.poisoned (s : State) (a n : Nat) : Bool :=
  (eccWords a n).any (fun w => (SMap.get .ok s.ecc w).bad)

/-- A read of memory: events of its words (R331), its bytes and its poison mark (R328). -/
def State.readMem (s : State) (a n master owner : Nat) : State × List Byte × Bool :=
  ((eccWords a n).foldl (fun t w => t.eccEvent w (SMap.get .ok s.ecc w) master owner) s, s.bytesAt a n, s.poisoned a n)

/-- Remove the merge entry of a word. -/
def State.dropMerge (s : State) (w : Nat) : State :=
  { s with merge := SMap.set [] s.merge (mergeOf w) ((SMap.get [] s.merge (mergeOf w)).filter (fun e => e.addr != w)) }

/-- The bytes of a merge entry laid over the array (R334). -/
def State.overlay (s : State) (e : MergeEntry) : List Byte :=
  (span 0 8).map (fun i => ((e.bytes[i]?).getD none).getD (SMap.get 0#8 s.mem (e.addr + i)))

/-- Drain a merge entry (R334): a plain write when all 8 bytes are present, else a read-modify-write, which stores a
word that reads uncorrectable or poisoned as stored poison (R329). -/
def State.drainEntry (s : State) (e : MergeEntry) : State :=
  let bs := s.overlay e
  if e.bytes.all Option.isSome then (s.dropMerge e.addr).arrayWrite e.addr bs .ok
  else
    let m := SMap.get .ok s.ecc e.addr
    let s := s.eccEvent e.addr m 0 31
    let mark := match m with | .uncorrectable => EccMark.poison | .poison => EccMark.poison | _ => EccMark.ok
    (s.dropMerge e.addr).arrayWrite e.addr bs mark

/-- Drain the entry that holds the word of `a`, if there is one. -/
def State.drainWord (s : State) (a : Nat) : State :=
  match s.mergeEntry a with
  | some e => s.drainEntry e
  | none => s

/-- Lay bytes over the 8 positions of a merge entry. -/
def mergeBytes (old : List (Option Byte)) (off : Nat) (bs : List Byte) : List (Option Byte) :=
  (span 0 8).map (fun i => if off ≤ i ∧ i < off + bs.length then bs[i - off]? else (old[i]?).getD none)

/-- A narrow write enters its merge buffer (R333); with 8 entries in use the oldest drains first. -/
def State.narrowWrite (s : State) (a : Nat) (bs : List Byte) : State :=
  let w := alignDown a 8
  let es := SMap.get [] s.merge (mergeOf a)
  match s.mergeEntry a with
  | some e =>
    let e' := { e with bytes := mergeBytes e.bytes (a % 8) bs }
    let s := { s with merge := SMap.set [] s.merge (mergeOf a) (es.map (fun x => if x.addr == w then e' else x)) }
    if e'.bytes.all Option.isSome then s.drainEntry e' else s
  | none =>
    let s := if 8 ≤ es.length then (match es with | e :: _ => s.drainEntry e | [] => s) else s
    let e' : MergeEntry := { addr := w, bytes := mergeBytes [] (a % 8) bs }
    { s with merge := SMap.set [] s.merge (mergeOf a) (SMap.get [] s.merge (mergeOf a) ++ [e']) }

/-- Write bytes that lie inside one ECC word (R328, R333, R336). -/
def State.writeWord (s : State) (a : Nat) (bs : List Byte) (poison : Bool) : State :=
  if bs.length = eccSize a then
    (if isTack a then s else s.dropMerge (eccWord a)).arrayWrite a bs (if poison then .poison else .ok)
  else if poison then (s.drainWord a).arrayWrite a bs .poison
  else if isTack a then
    let m := SMap.get .ok s.ecc (eccWord a)
    let s := s.eccEvent (eccWord a) m 0 31
    s.arrayWrite a bs (match m with | .uncorrectable => .poison | .poison => .poison | _ => .ok)
  else s.narrowWrite a bs

/-- A write of memory, split into its ECC words; `fuel` bounds the number of words. -/
def State.writeMemAux (s : State) (a : Nat) (bs : List Byte) (poison : Bool) : Nat → State
  | 0 => s
  | k + 1 =>
    if bs.isEmpty then s
    else
      let n := eccSize a - a % eccSize a
      State.writeMemAux (s.writeWord a (bs.take n) poison) (a + n) (bs.drop n) poison k

/-- A write of memory: every word it touches (R328, R333). -/
def State.writeMem (s : State) (a : Nat) (bs : List Byte) (poison : Bool := false) : State :=
  s.writeMemAux a bs poison (bs.length + 1)

/-! ## Slots, rings, functions, stations: accessors -/

/-- Slot key of engine and slot number. -/
def slotKey (e k : Nat) : Nat := e * 128 + k

def State.slot (s : State) (k : Nat) : Slot := SMap.get {} s.slots k
def State.setSlot (s : State) (k : Nat) (x : Slot) : State := { s with slots := SMap.set {} s.slots k x }
def State.ring (s : State) (g : Nat) : Ring := SMap.get {} s.rings g
def State.setRing (s : State) (g : Nat) (x : Ring) : State := { s with rings := SMap.set {} s.rings g x }
def State.fn (s : State) (f : Nat) : Func := SMap.get {} s.fns f
def State.setFn (s : State) (f : Nat) (x : Func) : State := { s with fns := SMap.set {} s.fns f x }
def State.lane (s : State) (l : Nat) : Lane := SMap.get {} s.lanes l
def State.setLane (s : State) (l : Nat) (x : Lane) : State := { s with lanes := SMap.set {} s.lanes l x }
def State.station (s : State) (n : Nat) : Station := SMap.get {} s.stations n
def State.setStation (s : State) (n : Nat) (x : Station) : State := { s with stations := SMap.set {} s.stations n x }
def State.fifo (s : State) (q : Nat) : Fifo := SMap.get {} s.fifos q
def State.setFifo (s : State) (q : Nat) (x : Fifo) : State := { s with fifos := SMap.set {} s.fifos q x }
def State.core (s : State) (c : Nat) : ScCore := SMap.get {} s.cores c
def State.setCore (s : State) (c : Nat) (x : ScCore) : State := { s with cores := SMap.set {} s.cores c x }

/-- Slots that are not IDLE, as (key, slot), in ascending key order. -/
def State.busySlots (s : State) : List (Nat × Slot) := s.slots.filter (fun (_, x) => x.st != .idle)

/-- The engine of a slot key. -/
def keyEngine (k : Nat) : Nat := k / 128

/-- The slot number of a slot key. -/
def keySlot (k : Nat) : Nat := k % 128

/-- The master ID of an engine's accesses (R29). -/
def engineMaster (e : Nat) : Nat := if e = 64 then 72 else 64 + e / 8

/-- First ring and number of rings of function f's share (R161, R183). -/
def State.shareFirst (s : State) (f : Nat) : Nat := bitsOf (s.reg (0x04208100 + 4 * f)) 13 0
def State.shareCount (s : State) (f : Nat) : Nat := bitsOf (s.reg (0x04208100 + 4 * f)) 28 16

/-- The function whose share holds ring g (R161). -/
def State.ringFn (s : State) (g : Nat) : Option Nat :=
  (span 0 16).find? (fun f => decide (s.shareFirst f ≤ g) && decide (g < s.shareFirst f + s.shareCount f))

/-- The code of RECOVERY in PM_MODE (R413). -/
def modeRecovery : Nat := 9

end Sys2Proof.Machine
end

