-- ==== Sys2Proof/Machine/HostOps.lean ====
section
/-! DEFINITION. What the host port does for every family: configuration space, the right to issue requests (R223),
host writes and reads, MSI-X messages, kept firings and PMEs (R203 to R208). The register places inside the PCIe
capabilities are those of the PCI Express Base Specification, which chapter 08 adopts.
The log entries that hold here: DESIGN CHOICE 3, 54, 69, 73; PRESUMED 10, 68, 74. -/

namespace Sys2Proof.Machine

/-! ## Configuration space (R216 to R218) -/

/-- Reset value of a configuration word of function f. -/
def cfgReset (f off : Nat) : Word :=
  if off = 0x00 then BitVec.ofNat 32 ((if f = 0 then 0x1640 else 0x1641) * 65536 + 0x1F3E)
  else if off = 0x04 then 0x00100000#32
  else if off = 0x08 then 0x08800000#32
  else if off = 0x0C then 0x00800000#32
  else if off = 0x10 then 0x00000004#32
  else if off = 0x18 then (if f = 0 then 0x00000004#32 else 0#32)
  else if off = 0x2C then 0x16401F3E#32
  else if off = 0x34 then 0x00000040#32
  else if off = 0x40 then 0x48035001#32
  else if off = 0x44 then 0x00000008#32
  else if off = 0x50 then 0x00FF7011#32
  else if off = 0x54 then 0x00010000#32
  else if off = 0x58 then 0x00014000#32
  else if off = 0x70 then 0x00020010#32
  else if off = 0x74 then 0x10008021#32
  else if off = 0x78 then 0x00002810#32
  else if off = 0x7C then 0x00000041#32
  else if off = 0x80 then 0x00410000#32
  else if off = 0x94 then 0x00030003#32
  else if off = 0x9C then 0x00000002#32
  else if off = 0xA0 then 0x00000001#32
  else if off = 0x100 then 0x14820001#32
  else if off = 0x10C then 0x00462030#32
  else if off = 0x114 then 0x00002000#32
  else if off = 0x148 then 0x1501000E#32
  else if off = 0x14C then BitVec.ofNat 32 ((if f = 15 then 0 else f + 1) * 256)
  else if off = 0x150 then 0x0001001F#32
  else if off = 0x154 then 0x00000001#32
  else 0#32

/-- A configuration word of function f. -/
def State.cfg (s : State) (f off : Nat) : Word := SMap.get (cfgReset f off) (s.fn f).cfg off

/-- Store a configuration word. -/
def State.setCfg (s : State) (f off : Nat) (v : Word) : State :=
  s.setFn f { s.fn f with cfg := SMap.set (cfgReset f off) (s.fn f).cfg off v }

/-- The words of function f's configuration space that fuses and dictionary fix beside its reset values: Revision ID, subsystem IDs and
MSI-X Table Size (R216, R217, R233). -/
def State.cfgFixed (s : State) (f : Nat) : State :=
  let s := s.setCfg f 0x08 (putBits (s.cfg f 0x08) 7 0 s.fuses.dieRev.toNat)
  (s.setCfg f 0x2C s.subsys).setCfg f 0x50 (putBits (s.cfg f 0x50) 26 16 ((s.fn f).vectors - 1))

/-- PowerState: 0 D0, 3 D3hot (PMCSR [1:0]). -/
def State.inD0 (s : State) (f : Nat) : Bool := bitsOf (s.cfg f 0x44) 1 0 == 0

/-- Bus Master Enable. -/
def State.busMaster (s : State) (f : Nat) : Bool := bit (s.cfg f 0x04) 2

/-- Memory Space Enable. -/
def State.memSpace (s : State) (f : Nat) : Bool := bit (s.cfg f 0x04) 1

/-- The tunnel is carried (R230). -/
def State.carried (s : State) : Bool := s.tunnel == .carried

/-- The function can issue requests: D0, Bus Master Enable, tunnel carried (R196, R223). -/
def State.canIssue (s : State) (f : Nat) : Bool := s.inD0 f && s.busMaster f && s.carried

/-- Max Payload Size and Max Read Request Size in bytes (R221). -/
def State.maxPayload (s : State) (f : Nat) : Nat := min 256 (128 * 2 ^ bitsOf (s.cfg f 0x78) 7 5)
def State.maxRead (s : State) (f : Nat) : Nat := 128 * 2 ^ bitsOf (s.cfg f 0x78) 14 12

/-- The completion timeout of a function, in microseconds (R222). -/
def State.cplTimeout (s : State) (f : Nat) : Nat :=
  let v := bitsOf (s.cfg f 0x98) 3 0
  if v = 1 then 100 else if v = 5 then 55000 else if v = 6 then 210000 else 10000

/-! ## Host writes and reads (R88, R221, R223, R230) -/

/-- The pieces into which data is split (R221). -/
def pieces (size : Nat) : Nat → Nat → List Byte → List (Nat × List Byte)
  | 0, _, _ => []
  | k + 1, a, bs => if bs.isEmpty then [] else (a, bs.take size) :: pieces size k (a + size) (bs.drop size)

/-- Bytes already held for a paused tunnel. -/
def State.heldBytes (s : State) : Nat :=
  s.held.foldl (fun n o => match o with | .hostWrite _ _ d _ _ => n + d.length | _ => n) 0

/-- A posted write of function f: sent when it can issue, held while the tunnel is paused, none when it cannot be
sent (R223) or the hold of 64 KiB is full (R230). -/
def State.hostWrite (s : State) (f addr : Nat) (data : List Byte) (ro poisoned : Bool) : Option State :=
  let ro := ro && bit (s.cfg f 0x78) 4
  let ws := (pieces (s.maxPayload f) data.length addr data).map (fun (a, d) => Out.hostWrite f a d ro poisoned)
  if !(s.inD0 f && s.busMaster f) then none
  else match s.tunnel with
    | .carried => some (ws.foldl State.emit s)
    | .paused _ => if s.heldBytes + data.length ≤ 65536 then some { s with held := s.held ++ ws } else none
    | .none => none

/-- How many requests a read of `len` bytes becomes (R221). -/
def State.reqCount (s : State) (f len : Nat) : Nat := (len + s.maxRead f - 1) / s.maxRead f

/-- Send k of those requests, from the i-th on; in REPLAY the journal answers instead (R504). -/
def State.sendReads (s : State) (f addr len i k : Nat) : State :=
  let n := s.maxRead f
  if s.mode == 0xA then s else { s with out := s.out ++ (span i k).map (fun i => Out.hostRead f (addr + i * n) (min n (len - i * n))) }

/-- Outstanding non-posted requests of the functions that `of_` names: reads of operations, line reads and head-word reads (R221). -/
def State.npSum (s : State) (of_ : Nat → Bool) : Nat :=
  s.rings.foldl (fun n (g, r) => if ((s.ringFn g).map of_).getD false then n + (r.reads.filter (fun q => q.sent)).length + (if r.headRead then 1 else 0) else n)
    (s.slots.foldl (fun n (_, x) => if of_ x.owner then n + x.w.reads.foldl (fun k r => k + r.sent) 0 else n) 0)

/-- Requests that function f may still send: 256 are outstanding for a function at most, and 1,024 in all (R221). -/
def State.npRoom (s : State) (f : Nat) : Nat := min (256 - s.npSum (· == f)) (1024 - s.npSum (fun _ => true))

/-! ## MSI-X (R203, R204, R207) -/

/-- Word i of the MSI-X table; after reset every vector is masked with address and data 0 (R228 step 5). -/
def State.msixWord (s : State) (f i : Nat) : Word := SMap.get (if i % 4 = 3 then 1#32 else 0#32) (s.fn f).msix i

/-- Store a word of the MSI-X table. -/
def State.setMsixWord (s : State) (f i : Nat) (v : Word) : State :=
  s.setFn f { s.fn f with msix := SMap.set (if i % 4 = 3 then 1#32 else 0#32) (s.fn f).msix i v }

/-- The vector can be delivered: MSI-X Enable 1, function mask 0, vector mask 0 (R204). -/
def State.deliverable (s : State) (f v : Nat) : Bool :=
  bit (s.cfg f 0x50) 31 && !bit (s.cfg f 0x50) 30 && !bit (s.msixWord f (4 * v + 3)) 0

/-- Insert a vector number into an ascending list, once. -/
def insertVec (v : Nat) : List Nat → List Nat
  | [] => [v]
  | x :: xs => if v < x then v :: x :: xs else if v = x then x :: xs else x :: insertVec v xs

/-- The message of vector v of function f. -/
def State.msixMessage (s : State) (f v : Nat) : Out :=
  .msix f v ((s.msixWord f (4 * v)).toNat + (s.msixWord f (4 * v + 1)).toNat * 2 ^ 32) (s.msixWord f (4 * v + 2))

/-- What has left the part but the message that the vector's earlier firing of this tick gave: the firings of one
vector in one cycle give one message, which follows the entries of them all (R203). -/
def State.outBut (s : State) (f v : Nat) : List Out :=
  if (s.fn f).fired.contains (v, s.time) then
    (s.out.reverse.eraseP (fun o => match o with | .msix g w _ _ => g == f && w == v | _ => false)).reverse
  else s.out

/-- Send the message of a vector, for its pending bit too, or set that (R203, R204). -/
def State.msixIssue (s : State) (f v : Nat) : State :=
  if s.deliverable f v then
    if s.mode == 0xA then s
    else { (s.setFn f { s.fn f with
        fired := (v, s.time) :: (s.fn f).fired.filter (fun p => p.2 == s.time && p.1 != v), pba := (s.fn f).pba.filter (· != v) }) with
      out := s.outBut f v ++ [s.msixMessage f v] }
  else s.setFn f { s.fn f with pba := insertVec v (s.fn f).pba }

/-- Keep a firing that cannot be sent; a kept firing or a pending bit of the vector absorbs it (R204, R207). -/
def State.keepFiring (s : State) (f v : Nat) : State :=
  if (s.fn f).pba.contains v then s else s.setFn f { s.fn f with kept := insertVec v (s.fn f).kept }

/-- The kept vectors go out in ascending order (R207). -/
def State.deliverKept (s : State) (f : Nat) : State :=
  (s.fn f).kept.foldl (fun t v => t.msixIssue f v) (s.setFn f { s.fn f with kept := [] })

/-- A firing that can be sent: the kept vectors go before it, and one of the same vector absorbs it (R207). -/
def State.sendFiring (s : State) (f v : Nat) : State :=
  if (s.fn f).kept.contains v then s.deliverKept f else (s.deliverKept f).msixIssue f v

/-- A firing of a vector: sent, pending, or kept (R203, R204, R207). -/
def State.fireVector (s : State) (f v : Nat) : State :=
  if s.canIssue f then s.sendFiring f v else s.keepFiring f v

/-- The link is in CL2 or router sleep (HP_LINK CLSTATE, R231). -/
def State.linkAsleep (s : State) : Bool :=
  let c := bitsOf (s.reg 0x0400000C) 26 24
  c == 3 || c == 4

/-- Ask the link partner to wake the link from CL2 or router sleep (R207, R225). -/
def State.wakeLink (s : State) : State := if s.linkAsleep then s.emit (.link 0) else s

/-- PME_En of the function. -/
def State.pmeEn (s : State) (f : Nat) : Bool := bit (s.cfg f 0x44) 8

/-- Raise a PME: PME_Status sets and PM_PME is sent, held while the tunnel is not carried; none while PME_Status is
already 1 (R207, R208). -/
def State.raisePme (s : State) (f : Nat) : State :=
  if bit (s.cfg f 0x44) 15 then s
  else
    let s := s.setCfg f 0x44 (s.cfg f 0x44 ||| 0x8000#32)
    let s := s.setFn f { s.fn f with pmeAt := some s.live }
    if s.carried then s.emit (.pme f) else { s with held := s.held ++ [.pme f] }

/-- PM_PME goes out again while PME_Status is still 1 after 100 ms: PCIe's rule, which R207 adopts (PRESUMED,
notes/assumptions/68.md). -/
def State.resendPme (s : State) (f : Nat) : State :=
  match (s.fn f).pmeAt with
  | some t =>
    if !bit (s.cfg f 0x44) 15 then s.setFn f { s.fn f with pmeAt := none }
    else if t + 100000 * 1200 ≤ s.live ∧ s.carried then (s.setFn f { s.fn f with pmeAt := some s.live }).emit (.pme f)
    else s
  | none => s

/-- A moderated ring's firing (R203, R207): a message; or, when none can be sent, a wake of a WAKE_WORTHY ring with
PME_En set, and otherwise a kept firing. R207 names only D0 and the tunnel; a firing while Bus Master Enable alone is 0 is kept in the
same way (DESIGN CHOICE, notes/assumptions/69.md). -/
def State.ringFireVector (s : State) (f v : Nat) (wakeWorthy : Bool) : State :=
  if s.canIssue f then s.sendFiring f v
  else if wakeWorthy && s.pmeEn f then
    if s.inD0 f then (s.wakeLink).keepFiring f v else (s.wakeLink).raisePme f
  else s.keepFiring f v

/-- The function's event message (R205), when QM_FN_EVT enables it. -/
def State.eventMessage (s : State) (f : Nat) : State :=
  let e := s.reg (0x04200008 + 0x10000 * f)
  if bit e 31 then s.fireVector f (bitsOf e 9 0) else s

/-- Set QERR or DBERR in QM_FN_STATUS; the event message goes out when the bit goes from 0 to 1 (R205). -/
def State.qmFnStatus (s : State) (f : Nat) (i : Nat) : State :=
  let a := 0x04200004 + 0x10000 * f
  let was := bit (s.reg a) i
  let s := s.setReg a (s.reg a ||| bitWord i true)
  if was then s else s.eventMessage f

/-- Store words of the configuration space from an offset on. -/
def State.setCfgs (s : State) (f : Nat) : Nat → List Word → State
  | _, [] => s
  | off, v :: l => (s.setCfg f off v).setCfgs f (off + 4) l

/-- Log an Unsupported Request or a Completion Timeout under Advanced Error Reporting (R220, R222): its bit of the uncorrectable error
status and those of Device Status; the First Error Pointer and the header log take it unless it is masked or an earlier error holds
them, which is PCIe's rule (PRESUMED, notes/assumptions/10.md). -/
def State.aerLog (s : State) (f i : Nat) (header : List Word) : State :=
  let unc := s.cfg f 0x104
  let free := !bit (s.cfg f 0x108) i && !bit unc (bitsOf (s.cfg f 0x118) 4 0)
  let s := s.setCfg f 0x104 (unc ||| bitWord i true)
  let s := s.setCfg f 0x78 (s.cfg f 0x78 ||| bitWord (if bit (s.cfg f 0x10C) i then 18 else 17) true ||| bitWord 19 (i == 20))
  if free then (s.setCfg f 0x118 (putBits (s.cfg f 0x118) 4 0 i)).setCfgs f 0x11C header else s

/-- A completion timeout is counted and logged (R222); a replay takes its answers from the journal (R504). -/
def State.timedOut (s : State) (f : Nat) (res : HostResult) : State :=
  if res == .timeout && !(s.mode == 0xA && s.replaying) then
    let s := (s.setReg 0x04000014 (satInc (s.reg 0x04000014))).setStatus 0x04000004 4#32
    (s.aerLog f 14 []).report 41 0 0 f 0 (32 + f) 0#32
  else s

/-! ## Low-power states of the link (R213, R225, R230, R231) -/

/-- What goes to the host over the link. -/
def Out.toHost : Out → Bool
  | .hostWrite _ _ _ _ _ => true
  | .hostRead _ _ _ => true
  | .msix _ _ _ _ => true
  | .pme _ => true
  | .readData m _ => decide (32 ≤ m) && decide (m < 48)
  | .bar2 _ _ => true
  | .cfgDone _ => true
  | .ptmRequest => true
  | _ => false

/-- How much has been sent to the host. -/
def State.hostSent (s : State) : Nat := (s.out.filter Out.toHost).length

/-- CLSTATE of HP_LINK: a carried link in CL0 may have entered CL0s or CL1, which the part leaves when it has something to send
(R230, R231). -/
def State.clState (s : State) : Nat :=
  let c := bitsOf (s.reg 0x0400000C) 26 24
  if c = 0 ∧ s.cl.2 = s.hostSent then s.cl.1 else c

/-- Nothing is being sent on a carried link: it stays in CL0 or enters CL0s or CL1, as the two ends agree, which the spec leaves open (a
free value, notes/assumptions/73.md); while every function is in D3hot the Host Port asks for CL1 (R225). -/
def State.linkIdle (s : State) : State :=
  if s.carried && bitsOf (s.reg 0x0400000C) 26 24 == 0 && s.cl.2 != s.hostSent then
    let (q, s) := s.draw
    let s : State := { s with cl := (q.toNat % 3, s.hostSent) }
    if (span 0 16).all (fun f => bitsOf (s.cfg f 0x44) 1 0 == 3) then s.emit (.link 1) else s
  else s

end Sys2Proof.Machine
end

