-- ==== Sys2Proof/Machine/TempoOps.lean ====
section
/-! DEFINITION. Positions of the tempo sources (R132 to R145): what every WHEN, WAIT, STRIKE, POST, anchor and
timestamp refers to.
The log entries that hold here: DESIGN CHOICE 1; DEDUCED 24. -/

namespace Sys2Proof.Machine

/-- P_est of a source that has not been written yet: NOM, in ticks of the current clock times 256 (R142). NOM counts
5 ns units; it is rounded up, so that the integer part of P_est in 5 ns units is NOM again (R158). -/
def nomPest (aon : Bool) (nom : Nat) : Nat := if aon then ceilDiv (nom * 256 * 6) 25 else nom * 256

/-- TP_SRCn_CFG, TP_SRCn_LIMIT, TP_SRCn_HOLD and TP_SRCn_NOM. -/
def State.srcCfg (s : State) (n : Nat) : Word := s.reg (0x04500100 + 0x20 * n)
def State.srcLimit (s : State) (n : Nat) : Word := s.reg (0x04500104 + 0x20 * n)
def State.srcHold (s : State) (n : Nat) : Nat := bitsOf (s.reg (0x04500108 + 0x20 * n)) 23 0
def State.srcNom (s : State) (n : Nat) : Nat := bitsOf (s.reg (0x0450010C + 0x20 * n)) 30 0

/-- The state of a source before any command has touched it: T7 starts in ACQUIRE, the others in OFF (R136). -/
def srcReset (n : Nat) : Source :=
  if n = 7 then { st := .acquire, pest := nomPest true 0x17D8 }
  else if n = 0 then { st := .locked, pest := 48 * 256 }
  else { pest := nomPest true 0xC8 }

/-- A tempo source. T0 is always LOCKED (R136). -/
def State.src (s : State) (n : Nat) : Source := SMap.get (srcReset n) s.srcs n
def State.setSrc (s : State) (n : Nat) (x : Source) : State := { s with srcs := SMap.set (srcReset n) s.srcs n x }

/-- Ticks that have passed since a source's last boundary at time `t`. -/
def State.srcTicks (s : State) (x : Source) (t : Nat) : Nat := (t - x.e) / s.tickLen

/-- Phase units that P_est predicts for `k` ticks (R139). -/
def phaseUnits (k pest : Nat) : Nat := if pest = 0 then 0 else 4096 * 256 * k / pest

/-- The position of source n at time t (R139, R143): T0 from the time itself; LOCKED interpolated, holding at phase
4095, except T1, which follows host time; HOLDOVER advancing at P_est; otherwise frozen. -/
def State.posAt (s : State) (n t : Nat) : Nat :=
  if n = 0 then t0At t
  else
    let x := s.src n
    if t < x.e then max x.floor (x.base - 1)
    else match x.st with
    | .locked =>
      let d := phaseUnits (s.srcTicks x t) x.pest
      max x.floor (x.base + (if n = 1 then d else min 4095 d))
    | .holdover => max x.floor (x.base + phaseUnits (s.srcTicks x t) x.pest)
    | _ => x.base

/-- The queue is empty: one tempo tick passes (R109, R156); the steps of R146 and the launches of R124 start anew, and nothing
else changes. DESIGN CHOICE (log entry 1). -/
def idleTick (s : State) : State :=
  { s with time := s.time + s.tickLen, prevTime := s.time, tickStep := 0, launched := [] }

/-- The position of source n now. -/
def State.pos (s : State) (n : Nat) : Nat := s.posAt n s.time

/-- The position of source n on the tick before this one (R133), whatever has moved the source on this tick. -/
def State.posBefore (s : State) (n : Nat) : Nat :=
  match (s.src n).prev with
  | some (t, p) => if t = s.time then p else s.posAt n s.prevTime
  | none => s.posAt n s.prevTime

/-- A write to TP_ takes effect after step 6 of R146: what the earlier steps are for comes on the next tick. -/
def State.afterTick (s : State) : State := { s with tickStep := 7 }

/-- An event of this tick changes source n; the position it had on the tick before stays known (R133). -/
def State.moveSrc (s : State) (n : Nat) (x : Source) : State :=
  s.setSrc n { x with prev := some (s.time, s.posBefore n) }

/-- The source is enabled: T0 and T7 always, the others by their state (R136, R137, R141). -/
def State.srcEnabled (s : State) (n : Nat) : Bool := n == 0 || (s.src n).st != .off

/-- The source is tempo-lost: ACQUIRE or LOST, and only then (R141). -/
def State.tempoLost (s : State) (n : Nat) : Bool :=
  n != 0 && ((s.src n).st == .acquire || (s.src n).st == .lost)

/-- Extend a 14-bit period count to the one value N with c - 4096 ≤ N ≤ c + 12287 (R134); below 0 there is no such
count and the value at or above c is taken. -/
def extendCount (c pcount : Nat) : Nat :=
  let d := (pcount + 16384 - c % 16384) % 16384
  if d ≤ 12287 then c + d else if c + d ≥ 16384 then c + d - 16384 else c + d

/-- The T0 time of a target on a tempo-lost source (R145): the loss tick plus the predicted ticks, rounded up; a
target at or before the frozen position falls on the loss tick. -/
def State.localTime (s : State) (n target : Nat) : Nat :=
  let x := s.src n
  x.lossAt + (((target - x.base) * x.pest + (4096 * 256 - 1)) / (4096 * 256)) * s.tickLen

end Sys2Proof.Machine
end

