-- ==== Sys2Proof/Machine/Record.lean ====
section
/-! DEFINITION. The journal recorder as every recorded event uses it (R490 to R492, R496, R499): records enter the
window in the order of their ticks, types and SRCIDs.
The log entries that hold here: DESIGN CHOICE 65; DEDUCED 43, 44, 45. -/

namespace Sys2Proof.Machine

/-- JN_STATE code (R508). -/
def State.jnState (s : State) : Nat := bitsOf (s.reg 0x04F00010) 2 0

/-- Write the state code of JN_STATE, keeping the session number. -/
def State.setJnState (s : State) (c : Nat) : State := s.setReg 0x04F00010 (putBits (s.reg 0x04F00010) 2 0 c)

/-- The session is recording: CKPT, where inputs from the checkpoint tick on are recorded, or REC (R494). -/
def State.recording (s : State) : Bool := s.jnState == 2 || s.jnState == 3

/-- Function f is a recorded function (R490). -/
def State.recFn (s : State) (f : Nat) : Bool := decide (f < 16) && bit (s.reg 0x04F00014) f

/-- The journal holds the work queues of function f (R494). -/
def State.jnHolds (s : State) (f : Nat) : Bool := (s.jnState == 1 || s.jnState == 2) && s.recFn f

/-- Bytes of a record: header and payload words (R491). -/
def JRec.bytes (r : JRec) : Nat := 8 * (1 + r.payload.length)

/-- Bytes held in the window. -/
def State.winUsed (s : State) : Nat := s.jn.recs.foldl (fun n r => n + r.bytes) 0

/-- The window: 2 MiB (R23, R497). -/
def winSize : Nat := 0x200000

/-- The journal window (R23). -/
def windowBase : Nat := 0x01200000

/-- Insert a record among those of its tick, in ascending TYPE and then SRCID; END comes last (R491). -/
def insertRec (r : JRec) : List JRec → List JRec
  | [] => [r]
  | x :: xs =>
    if x.at_ < r.at_ || x.type < r.type || (x.type == r.type && decide (x.srcid ≤ r.srcid)) then x :: insertRec r xs
    else r :: x :: xs

/-- Put a record into the window without a test of room: END and everything from the session's start come in order. -/
def State.jput (s : State) (r : JRec) : State :=
  let b := r.bytes
  let own := s.jn.recs.filter (fun x => x.at_ < r.at_ || x.type < 8)
  let rest := s.jn.recs.filter (fun x => !(x.at_ < r.at_ || x.type < 8))
  let recs := if r.type < 8 then s.jn.recs ++ [r] else own ++ insertRec r rest
  let s := s.setReg 0x04F0002C (satAdd (s.reg 0x04F0002C) b)
  { s with jn := { s.jn with recs := recs, total := s.jn.total + b, annFrom := s.jn.annFrom.or (some s.time) } }

/-- The destination of R497: 0 WINDOW, 1 HOST, 2 DEBUG. -/
def State.jnDest (s : State) : Nat := bitsOf (s.reg 0x04F00008) 3 2

/-- Raise a journal source or status bit: JN_STATUS with its level source (R509, R510). -/
def State.jnStatus (s : State) (bits : Word) : State := s.setStatus 0x04F00004 bits

/-- Records that are not in the array yet are written there, and an armed injection strikes the first of them (R350). -/
def State.placeRecs (s : State) : List JRec → State × List JRec
  | [] => (s, [])
  | r :: rs =>
    let (m, t) := match r.mark with
      | some m => (m, s)
      | none => s.injMark windowBase .ok
    let (t, l) := t.placeRecs rs
    (t, { r with mark := some m } :: l)

/-- The recorder's tick: the window's array takes the new records. -/
def State.winPlace (s : State) : State :=
  if s.jn.recs.all (fun r => r.mark.isSome) then s
  else
    let (t, l) := s.placeRecs s.jn.recs
    { t with jn := { t.jn with recs := l } }

/-- A read of a record in the window (R330, R331, R510): one that carries poison becomes DAMAGED, and group 45 detector 0 tells it. -/
def State.readRec (s : State) (r : JRec) : State × JRec :=
  let m := r.mark.getD .ok
  let s := s.eccEventIn windowBase (winSize / 8) m 31
  if m.bad && !r.damaged then
    let s : State := { s with jn := { s.jn with flags := s.jn.flags ||| 4 } }
    ((s.jnStatus 2#32).report 45 0 0 31 0 0 0#32, { r with damaged := true })
  else (s, r)

/-- Reads of several records. -/
def State.readRecs (s : State) : List JRec → State × List JRec
  | [] => (s, [])
  | r :: rs =>
    let (t, x) := s.readRec r
    let (t, l) := t.readRecs rs
    (t, x :: l)

/-- The first n records of the window are read. -/
def State.readFront (s : State) (n : Nat) : State :=
  let (t, l) := s.readRecs (s.jn.recs.take n)
  { t with jn := { t.jn with recs := l ++ s.jn.recs.drop n } }

/-- Software reads `n` bytes at offset `a` of the window: the records it touches are read, and whether poison is among them (R330). -/
def State.touchRecs (s : State) (a n : Nat) : Nat → List JRec → State × List JRec × Bool
  | _, [] => (s, [], false)
  | o, r :: rs =>
    let hit := decide (o < a + n) && decide (a < o + r.bytes)
    let (t, x) := if hit then s.readRec r else (s, r)
    let (t, l, p) := t.touchRecs a n (o + r.bytes) rs
    (t, x :: l, p || (hit && (r.mark.getD .ok).bad))

/-- A read of the window at address `a`, where its bytes stand in the window (WINDOW mode). -/
def State.winTouch (s : State) (a n : Nat) : State × Bool :=
  if s.jnDest = 0 ∧ windowBase ≤ a ∧ a < windowBase + winSize then
    let (t, l, p) := s.touchRecs (a - windowBase) n 0 s.jn.recs
    ({ t with jn := { t.jn with recs := l } }, p)
  else (s, false)

/-- A GAP record gives the bytes lost (R499). -/
def State.jgap (s : State) : State :=
  let n := s.jn.lost
  let s : State := { s with jn := { s.jn with dropping := false, lost := 0 } }
  s.jput { at_ := s.time, type := 4, srcid := 0, payload := [n], damaged := false }

/-- The session ends with an END record (R496, R500); a hold ends without one. -/
def State.jend (s : State) (reason : Nat) : State :=
  if s.jnState = 1 then s.setJnState 0
  else if !s.recording then s
  else
    let s := if s.jn.dropping then s.jgap else s
    let flags := if s.jnState = 2 then s.jn.flags ||| 8 else s.jn.flags
    let s := s.jput { at_ := s.time, type := 5, srcid := reason, payload := [flags, s.jn.total + 24], damaged := false }
    ((s.setJnState 6).jnStatus 4#32).irq 464

/-- Room for a record of `b` bytes; in WINDOW mode END must still fit (R496). -/
def State.jroom (s : State) (b : Nat) : Bool :=
  decide (s.winUsed + b + (if s.jnDest = 0 then 24 else 0) ≤ winSize)

/-- Record an event of this tick (R490 to R492, R499): a TIME record first where DELTA would exceed 2^31; a session in
WINDOW mode that is full ends; in the other modes records are dropped until a quarter of the window is free. -/
def State.jrec (s : State) (type srcid : Nat) (payload : List Nat) : State :=
  if !s.recording then s
  else
    let last := match s.jn.recs.getLast? with | some r => r.at_ | none => s.jn.base
    let s := if (s.time - last) / s.tickLen > 2 ^ 31 then
        s.jput { at_ := s.time, type := 3, srcid := 0, payload := [s.t0], damaged := false } else s
    let r : JRec := { at_ := s.time, type := type, srcid := srcid, payload := payload, damaged := false }
    if s.jn.dropping && decide (4 * (winSize - s.winUsed) < winSize) then
      ({ s with jn := { s.jn with lost := s.jn.lost + r.bytes } }).setReg 0x04F00030 (satAdd (s.reg 0x04F00030) r.bytes)
    else
      let s := if s.jn.dropping then s.jgap else s
      if s.jroom r.bytes then s.jput r
      else if s.jnDest = 0 then s.jend 4
      else
        let s : State := { s with jn := { s.jn with dropping := true, lost := r.bytes, flags := s.jn.flags ||| 2 } }
        (((s.setReg 0x04F00030 (satAdd (s.reg 0x04F00030) r.bytes)).jnStatus 16#32).irq 465).report 45 1 0 31 0 0 0#32

/-- The 64-bit words of data, rounded up to 8 bytes. -/
def wordsOf : Nat → List Byte → List Nat
  | 0, _ => []
  | k + 1, bs => if bs.isEmpty then [] else leNat (bs.take 8) :: wordsOf k (bs.drop 8)

/-- HOSTRD of a recorded function (R490): result code 0 OK, 1 UR, 2 CA, 3 poisoned, 4 timeout. -/
def State.jHostRead (s : State) (f addr : Nat) (res : HostResult) : State :=
  if !s.recFn f then s
  else
    let (c, d) : Nat × List Byte := match res with
      | .ok d => (0, d) | .ur => (1, []) | .ca => (2, []) | .poisoned => (3, []) | .timeout => (4, []) | .noTunnel => (1, [])
    s.jrec 0x09 (f * 4096 + c * 256) (addr :: wordsOf (d.length + 1) d)

/-- HOSTEV (R490): an event's code, which the spec does not give (Config.hostEventCode), and its new value. -/
def State.jHostEvent (s : State) (f code value : Nat) : State := 
  s.jrec 0x0A f [value * 256 + (Config.hostEventCode code).toNat]

/-- REGWR (R490): a write to a register of the datapath's blocks, with the local address of the Pommel view. -/
def State.jRegWrite (s : State) (m a : Nat) (v : Word) : State :=
  let b := a / 0x100000
  let dp := b == 0x41 || b == 0x42 || b == 0x43 || (b == 0x44 && decide (a % 0x100000 < 0x80000)) || b == 0x45 || b == 0x46 ||
    b == 0x47 || b == 0x48 || b == 0x49 || (decide (0x04A00600 ≤ a) && decide (a < 0x04A00700))
  if dp then s.jrec 0x18 m [a, v.toNat] else s

/-! ## Digests and divergences (R493, R506) -/

/-- A divergence of replay (R506): counted, raised, and the first one latched. -/
def State.diverge (s : State) (kind : Nat) (srcid word0 : Nat) : State :=
  let s := (s.setReg 0x04F00034 (satInc (s.reg 0x04F00034))).irq 466
  let s :=
    if bit (s.reg 0x04F00038) 31 then s
    else
      let info := 2 ^ 31 + kind * 2 ^ 28 + word0 / 4096 % 16 * 2 ^ 24 + srcid / 128 % 128 * 2 ^ 17 + srcid % 128 * 2 ^ 10
      let s := (s.setReg 0x04F00038 (BitVec.ofNat 32 info)).setReg 0x04F0003C (BitVec.ofNat 32 (word0 / 2 ^ 32))
      (s.setReg 0x04F00040 (BitVec.ofNat 32 (s.t0 % 2 ^ 32))).setReg 0x04F00044 (BitVec.ofNat 32 (s.t0 / 2 ^ 32))
  let s := s.jnStatus 0x40#32
  if kind = 5 ∨ bit (s.reg 0x04F00008) 5 then { s with jn := { s.jn with stopReq := true } } else s

/-- Recorded digests whose tick has passed without a counterpart are missing (EXACT, R506). -/
def State.missing (s : State) : State :=
  if !s.jn.exact then s
  else
    let gone := s.jn.expect.filter (fun d => decide (d.at_ < s.time))
    let s : State := { s with jn := { s.jn with expect := s.jn.expect.filter (fun d => !decide (d.at_ < s.time)) } }
    gone.foldl (fun t d => t.diverge 3 d.srcid d.word0) s

/-- The identity by which DATA level matches a digest: owner, TAG and RING_INDEX. -/
def digestId (w : Nat) : Nat := w / 4096

/-- A digest of the running part: a DIGEST record while recording, a comparison in replay (R490, R506). -/
def State.digest (s : State) (srcid word0 word1 : Nat) : State :=
  if s.recording then s.jrec 0x22 srcid [word0, word1]
  else if s.jnState != 5 then s
  else
    let s := s.missing
    let drop := fun (d : Digest) => ({ s with jn := { s.jn with expect := s.jn.expect.erase d } } : State)
    if s.jn.exact then
      match s.jn.expect.find? (fun d => d.srcid == srcid && d.at_ == s.time) with
      | some d => if d.word0 = word0 ∧ d.word1 = word1 then drop d else (drop d).diverge 1 srcid word0
      | none =>
        match s.jn.expect.find? (fun d => d.srcid == srcid && d.word0 == word0 && d.word1 == word1) with
        | some d => (drop d).diverge 2 srcid word0
        | none => s.diverge 4 srcid word0
    else
      match s.jn.expect.find? (fun d => digestId d.word0 == digestId word0) with
      | some d => if d.word0 % 4096 = word0 % 4096 ∧ d.word1 = word1 then drop d else (drop d).diverge 1 srcid word0
      | none => s.diverge 4 srcid word0

/-- Time stamps of the tempo unit and the lanes that count from `old` count from `new` (R504). -/
def State.rebase (s : State) (old new : Nat) : State :=
  let m := fun (t : Nat) => t + new - old
  { s with
    prevTime := m s.prevTime
    srcs := s.srcs.map (fun (n, x) => (n, { x with
      prev := x.prev.map (fun (t, p) => (m t, p)), cand := x.cand.map (fun (t, u, b) => (m t, m u, b)), e := m x.e, holdFrom := m x.holdFrom, lossAt := m x.lossAt, lastEdge := x.lastEdge.map m, lastBound := x.lastBound.map m }))
    lanes := s.lanes.map (fun (l, x) => (l, { x with
      pulse := x.pulse.map (fun (t, b) => (m t, b)), pwmFrom := m x.pwmFrom, lastItem := m x.lastItem, drivenAt := m x.drivenAt }))
    rings := s.rings.map (fun (g, r) => (g, { r with modFrom := r.modFrom.map m })) }

/-- A function as a replay starts it: in D0 with Bus Master and Memory Space Enable; HOSTEV records change that (R504). -/
def replayFn : Func := { cfg := [(4, 0x00100006#32)] }

/-- Replay starts at the SESSION's T0 position; the live T0 goes on beside it, with the live functions and tunnel (R503, R504). -/
def State.replayStart (s : State) : State :=
  let s := (s.setJnState 5).rebase s.time s.jn.start
  { s with
    time := s.jn.start, tunnel := .carried, fns := (span 0 16).map (fun f => (f, { replayFn with vectors := (SMap.get {} s.fns f).vectors }))
    jn := { s.jn with live := s.time, liveTun := s.tunnel, liveFns := s.fns } }

/-- What lies outside the datapath of a replay acts on the live functions and tunnel, and never on what is replayed (R504). -/
def State.onLive (s : State) (f : State → State) : State :=
  if s.jnState ≠ 5 then f s
  else
    let t := f { s with fns := s.jn.liveFns, tunnel := s.jn.liveTun }
    { t with
      fns := s.fns, tunnel := s.tunnel, rings := s.rings, slots := s.slots, weir := s.weir
      jn := { t.jn with liveFns := t.fns, liveTun := t.tunnel } }

/-- The same, with messages that leave the part as in any other mode. -/
def State.onLiveOut (s : State) (f : State → State) : State :=
  if s.jnState ≠ 5 then f s else { s.onLive (fun t => { f { t with mode := 8 } with mode := t.mode }) with mode := s.mode }

/-- An input from outside the part that the records of a replay stand for: in REPLAY it has no effect (R504). -/
def State.fromOutside (s : State) (f : State → State) : State := if s.mode == 0xA then s else f s

end Sys2Proof.Machine
end

