-- ==== Sys2Proof/Machine/Completion.lean ====
section
/-! DEFINITION. Completion rings (chapter 07): entries, room, the park buffer and POST-HELD, moderation, head words,
and the commands that act on them.
The log entries that hold here: DESIGN CHOICE 2, 66, 67; DEDUCED 26, 63. -/

namespace Sys2Proof.Machine

/-! ## Entries (R186 to R191) -/

/-- URGENT of an entry (R190). -/
def Entry.urgent (e : Entry) : Bool :=
  (e.cstat &&& 0x7F#32) != 0#32 || bit e.ustat 1 || bit e.ustat 3

/-- The 32 bytes of an entry with its lap mark (R186). -/
def Entry.bytes (e : Entry) (lap : Bool) : List Byte :=
  let w0 := e.ringIndex % 65536 * 65536 + e.kind % 4 * 1024 + (if e.urgent then 512 else 0)
    + (if lap then 256 else 0) + e.engine % 128
  leBytes 4 w0 ++ leBytes 4 e.tag.toNat ++ leBytes 4 e.cstat.toNat ++ leBytes 4 e.ustat.toNat
    ++ leBytes 4 (e.residual % 65536 * 65536 + e.slot % 128) ++ leBytes 8 e.lastCcw.toNat ++ leBytes 4 (e.ts % 2 ^ 32)

/-- A refusal (R187): the reason of R113 at decision time. -/
def refusalEntry (ringIndex : Nat) (tag : Word) (reason : Nat) (t : Nat) : Entry :=
  { ringIndex := ringIndex, kind := 0, engine := 127, tag := tag, cstat := BitVec.ofNat 32 (reason * 65536 + 256),
    ustat := 0#32, residual := 0, slot := 127, lastCcw := 0#64, ts := t0At t }

/-- A NOTIFY marker (R187). -/
def markerEntry (ringIndex : Nat) (tag : Word) (t : Nat) : Entry :=
  { ringIndex := ringIndex, kind := 2, engine := 127, tag := tag, cstat := 0#32, ustat := 0#32, residual := 0,
    slot := 127, lastCcw := 0#64, ts := t0At t }

/-! ## Room and the park share (R196, R197) -/

/-- Entries a completion ring holds (R191). -/
def Ring.cap (r : Ring) : Nat := 2 ^ r.size / 32

/-- The room of a completion ring (R196). -/
def Ring.room (r : Ring) : Nat := (r.qhead + r.cap - r.tail % r.cap - 1) % r.cap - r.resRing

/-- The ring is blocked: no room and a backlog (R199). -/
def Ring.blocked (r : Ring) : Bool := r.room == 0 && !r.backlog.isEmpty

/-- Parked entries of a ring. -/
def Ring.parked (r : Ring) : Nat :=
  (r.backlog.filter (fun b => match b with | .parked _ _ => true | _ => false)).length

/-- Slots in POST-HELD for a ring. -/
def Ring.heldCount (r : Ring) : Nat :=
  (r.backlog.filter (fun b => match b with | .held _ _ => true | _ => false)).length

/-- Entries of function f's park share in use, reservations among them (R196, R197). -/
def State.parkUsed (s : State) (f : Nat) : Nat :=
  s.rings.foldl (fun n (g, r) => if s.ringFn g == some f then n + r.parked + r.resPark else n) 0

/-- The completion ring bound to work queue g (R162), as a global number. -/
def State.cqOf (s : State) (f : Nat) (r : Ring) : Nat := s.shareFirst f + r.cq

/-! ## Prefetch buffers (R173, R174) -/

/-- Units of a work queue. -/
def Ring.units16 (r : Ring) : Nat := 2 ^ r.size / 16

/-- Prefetch buffers held (R173). -/
def State.pfUsed (s : State) : Nat := (s.rings.filter (fun (_, r) => r.buf)).length

/-- Prefetch depth in units (R174). -/
def Ring.depth (r : Ring) : Nat := 4 * 2 ^ r.pfdepth

/-- Issue the read of the 64-byte line that holds a unit (R174). -/
def State.lineRead (s : State) (g f u : Nat) : State :=
  let r := s.ring g
  let line := alignDown u 4
  let k := min 1 (s.npRoom f)
  let s := s.setRing g { r with ev := r.ev + 1, reads := r.reads ++ [{ unit := line, tag := r.dbseq, issue := r.ev + 1, sent := k == 1, at_ := s.time }] }
  s.sendReads f (r.base.toNat + 16 * line) 64 0 k

/-- A line is in the buffer or being read. -/
def Ring.haveLine (r : Ring) (u : Nat) : Bool :=
  r.reads.any (fun q => q.unit == alignDown u 4) || r.units.any (fun q => q.idx == u)

/-- Keep the D units from HEAD onwards read or being read (R174). -/
def State.prefetch (s : State) (g f : Nat) : State :=
  let r := s.ring g
  if !s.canIssue f || r.st != 2 || !r.buf then s
  else
    (span 0 r.depth).foldl (fun t i =>
      let u := (r.head + i) % r.units16
      if (t.ring g).haveLine u then t else t.lineRead g f u) s

/-- Give a free buffer to the queue that has waited longest (R173). -/
def State.grantBuffer (s : State) : State :=
  if s.pfUsed ≥ 1024 then s
  else
    match s.rings.foldl (fun (b : Option (Nat × Nat)) (g, r) =>
        if r.typ == 1 && r.st == 2 && !r.buf then
          match b with
          | none => some (g, r.scanOrder)
          | some (h, o) => if r.scanOrder < o then some (g, r.scanOrder) else some (h, o)
        else b) none with
    | none => s
    | some (g, _) =>
      let s := s.setRing g { s.ring g with buf := true }
      match s.ringFn g with
      | some f => s.prefetch g f
      | none => s

/-- Give the free buffers to the queues that wait for one, in the order in which they entered SCAN (R173). -/
def State.grantBuffers (s : State) : State := s.rings.foldl (fun t _ => t.grantBuffer) s

/-- A queue leaves SCAN for another state and gives up its buffer (R173). -/
def State.leaveScan (s : State) (g st : Nat) : State :=
  (s.setRing g { s.ring g with st := st, buf := false, units := [], reads := [], need := none }).grantBuffer

/-! ## Blocked rings (R199, R200) -/

/-- The work queues bound to a blocked ring are HELD and read nothing until its backlog is empty (R199). A queue whose START is inside
Weir follows when it has been decided. -/
def State.holdQueues (s : State) (g : Nat) : State :=
  match s.ringFn g with
  | none => s
  | some f =>
    let s' : State := { s with rings := s.rings.map (fun (k, r) =>
        if r.typ == 1 && (r.st == 1 || r.st == 2 || r.st == 3) && !r.inWeir && s.ringFn k == some f && s.cqOf f r == g then
          (k, { r with st := 3, buf := false, units := [], reads := [], need := none, heldBlock := true })
        else (k, r)) }
    s'.grantBuffers

/-- The stall timer of a ring runs: the ring is blocked, its function in D0 and the tunnel carried (R200). -/
def State.stallRuns (s : State) (g f : Nat) : Bool := (s.ring g).blocked && s.inD0 f && s.carried && !(s.ring g).stallDone

/-- Start or stop the stall timer as R200 asks. -/
def State.stallUpdate (s : State) (g : Nat) : State :=
  let r := s.ring g
  match s.ringFn g with
  | none => s
  | some f =>
    match s.stallRuns g f, r.stallFrom with
    | true, none => s.setRing g { r with stallFrom := some s.time }
    | false, some t => s.setRing g { r with stallFrom := none, stallUsed := r.stallUsed + (s.time - t) }
    | _, _ => s

/-- The room or the backlog of a ring has changed: a ring that is now blocked holds its queues, and its stall timer follows (R199,
R200). -/
def State.roomUpdate (s : State) (g : Nat) : State :=
  (if (s.ring g).blocked then s.holdQueues g else s).stallUpdate g

/-- Every stall timer, after a change of a power state or of the tunnel; a function that can write again may raise a wake anew
(R208). -/
def State.stallUpdateAll (s : State) : State :=
  s.rings.foldl (fun t (g, r) =>
    match t.ringFn g with
    | some f => (if r.woke && t.canIssue f then t.setRing g { t.ring g with woke := false } else t).stallUpdate g
    | none => t) s

/-! ## Firing and writing (R191, R202, R203) -/

/-- The ring fires: its count and timer are reset and its vector is raised (R202, R203, R207). -/
def State.ringFire (s : State) (g : Nat) : State :=
  let r := s.ring g
  match s.ringFn g with
  | none => s
  | some f => (s.setRing g { r with modCount := 0, modFrom := none }).ringFireVector f r.vector r.wake

/-- Moderation after an entry has been written: the thresholds as they now stand come into force (R202). -/
def State.moderate (s : State) (g : Nat) (urgent : Bool) : State :=
  let s := s.setRing g { s.ring g with timeIn := (s.ring g).time }
  let r := s.ring g
  if r.mod = 1 then s.ringFire g
  else if r.mod = 2 then
    let n := r.modCount + 1
    let s := s.setRing g { r with modCount := n, modFrom := if r.modCount = 0 then some s.time else r.modFrom }
    if n ≥ r.cnt + 1 ∨ urgent then s.ringFire g else s
  else s

/-- The digest of an operation as its final entry, refusal or marker is written (R490, R493); a PMK entry counts as an
item of its slot. -/
def State.entryDigest (s : State) (f addr : Nat) (e : Entry) (lap : Bool) : State :=
  if !(s.jnState = 3 ∨ s.jnState = 5) || !s.recFn f then s
  else
    let item := crc32c (leBytes 8 addr ++ (e.bytes lap).take 28)
    if e.kind = 1 then
      let k := e.engine * 128 + e.slot
      let x := SMap.get ({} : Slot) s.slots k
      { s with slots := SMap.set {} s.slots k { x with w := { x.w with mdig := (x.w.mdig + item) % 2 ^ 32 } } }
    else
      s.digest (e.engine * 128 + e.slot) (e.tag.toNat * 2 ^ 32 + e.ringIndex % 65536 * 65536 + f * 4096 + min e.nlaunch 4095)
        ((e.mdig + item) % 2 ^ 32 * 2 ^ 32 + (e.sdig ^^^ 0xFFFFFFFF))

/-- Write an entry at TAIL with LAP = LAPW and advance TAIL (R191); the function can write to the host. -/
def State.cqWrite (s : State) (g : Nat) (e : Entry) : State :=
  let r := s.ring g
  match s.ringFn g with
  | none => s
  | some f =>
    let s := s.emit (.hostWrite f (r.base.toNat + 32 * r.tail) (e.bytes r.lapw) false false)
    let s := s.entryDigest f (r.base.toNat + 32 * r.tail) e r.lapw
    let wrap := r.tail + 1 ≥ r.cap
    let s := s.setRing g { r with
      tail := (if wrap then 0 else r.tail + 1), lapw := (if wrap then !r.lapw else r.lapw), posted := r.posted + 1#32 }
    s.moderate g e.urgent

/-- The first entry of a WAKE_WORTHY ring that joins the backlog while its function cannot write raises a wake (R208). -/
def State.joinWake (s : State) (g f : Nat) : State :=
  if s.canIssue f || !(s.ring g).wake || (s.ring g).woke || !s.pmeEn f then s
  else
    let s := s.setRing g { s.ring g with woke := true }
    if s.inD0 f then s.wakeLink else (s.wakeLink).raisePme f

/-- Append an item to a ring's backlog, hold the queues of a ring that is now blocked, and start its stall timer
(R196, R199, R200, R208). -/
def State.joinBacklog (s : State) (g f : Nat) (b : Backlog) : State :=
  let r := s.ring g
  ((s.setRing g { r with backlog := r.backlog ++ [b] }).joinWake g f).roomUpdate g

/-- The park buffer (R23). -/
def parkBase : Nat := 0x00800000

/-- The Queue Manager writes both copies of an entry to the park buffer: their condition (R197, R350). -/
def State.parkCopies (s : State) : (EccMark × EccMark) × State :=
  let (a, s) := s.injMark parkBase .ok
  let (b, s) := s.injMark parkBase .ok
  ((a, b), s)

/-- Park an entry at the tail of a ring's backlog (R196, R197). -/
def State.park (s : State) (g f : Nat) (e : Entry) : State :=
  let (c, s) := s.parkCopies
  s.joinBacklog g f (.parked e c)

/-- The Queue Manager reads both copies of a parked entry; none where both fail. DETAIL gives how many fail (R197; the code is a DESIGN
CHOICE, notes/assumptions/66.md). -/
def State.parkRead (s : State) (f : Nat) (c : EccMark × EccMark) : State × Bool :=
  let s := (s.eccEventIn parkBase 8192 c.1 31).eccEventIn parkBase 8192 c.2 31
  match c.1.bad, c.2.bad with
  | true, true => (s.report 39 8 1 f 0 (32 + f) 2#32, false)
  | false, false => (s, true)
  | _, _ => (s.report 39 8 0 f 0 (32 + f) 1#32, true)

/-! ## Slots that post (R78, R88, R196) -/

/-- The slot returns to IDLE; its link charge and its function slot leave (R117). -/
def State.freeSlot (s : State) (k : Nat) : State := s.setSlot k {}

/-- A slot's oldest mark has been written or parked. When none is left and its CCW has ended, the slot goes on to FETCHING, from
RUNNING only where it was not the last one; an operation that has ended goes on in POSTING (R44, R78). -/
def State.markPosted (s : State) (k : Nat) : State :=
  let x := s.slot k
  let w := { x.w with marks := x.w.marks.drop 1, markHeld := false }
  if x.w.final.isSome then s.setSlot k { x with st := (if x.st = .postHeld then .posting else x.st), w := w }
  else if w.marks.isEmpty && x.w.ccwDone && ((x.st == .running && x.w.lastDone.isNone) || x.st == .postHeld) then
    s.setSlot k { x with st := .fetching, w := { w with ccwDone := false } }
  else s.setSlot k { x with w := w }

/-- The slot holds an entry for which there was no room: in POST-HELD, or as the mark of a chain that runs on (R44, R196). -/
def Slot.holdsEntry (x : Slot) : Bool := x.w.markHeld || (x.st == .postHeld && x.w.final.isSome)

/-- The entry that a slot holds has been written or has moved into the park share (R198). -/
def State.heldPosted (s : State) (k : Nat) : State :=
  let x := s.slot k
  if x.w.markHeld then s.markPosted k else s.freeSlot k

/-- The slot that began to hold its entry first, among those that satisfy `p` (R198, R201). -/
def State.oldestHeld (s : State) (p : Nat → Slot → Bool) : Option (Nat × Slot) :=
  s.slots.foldl (fun best (k, x) =>
    if x.holdsEntry && p k x then
      match best with
      | none => some (k, x)
      | some (j, y) => if x.w.heldOrder < y.w.heldOrder then some (k, x) else some (j, y)
    else best) none

/-- The entry that slot k holds becomes a parked entry at its place in the backlog. -/
def Ring.parkHeld (r : Ring) (k : Nat) (c : EccMark × EccMark) : Ring :=
  { r with backlog := r.backlog.map (fun b => match b with
      | .held j e => if j == k then .parked e c else .held j e
      | b => b) }

/-- An entry of function f's park share has been freed: the oldest POST-HELD slot of the function moves its entry
into the share, keeping its place in its backlog (R198, R201). -/
def State.shareFreed (s : State) (f : Nat) : State :=
  if s.parkUsed f ≥ 64 then s
  else
    match s.oldestHeld (fun k x => keyEngine k != 64 && x.owner == f) with
    | none => s
    | some (k, _) =>
      let (c, s) := s.parkCopies
      let s : State := { s with rings := s.rings.map (fun p => (p.1, p.2.parkHeld k c)) }
      s.heldPosted k

/-- Release a reservation of completion ring g that is not used (R118); a freed park-share entry goes to a slot (R198). -/
def State.unreserve (s : State) (g f : Nat) (inRing : Bool) : State :=
  let r := s.ring g
  let s := s.setRing g (if inRing then { r with resRing := r.resRing - 1 } else { r with resPark := r.resPark - 1 })
  (if inRing then s else s.shareFreed f).roomUpdate g

/-- A slot holds an entry for which there is no room: in POST-HELD, but a chain that still runs goes on (R44, R78). -/
def State.holdEntry (s : State) (k : Nat) (isMark : Bool) : State :=
  let x := s.slot k
  let s := { s with seq := s.seq + 1 }
  let st := if isMark && !x.w.ccwDone && x.w.final.isNone then x.st else SlotSt.postHeld
  s.setSlot k { x with st := st, w := { x.w with heldOrder := s.seq, markHeld := isMark } }

/-- The request of a slot to post entry `e` into ring g (R196): written, parked, or held by the slot. -/
def State.postSlotEntry (s : State) (g f k : Nat) (e : Entry) (isMark : Bool) : State :=
  let r := s.ring g
  if r.backlog.isEmpty && decide (1 ≤ r.room) && s.canIssue f then
    let s := (s.cqWrite g e).roomUpdate g
    if isMark then s.markPosted k else s.freeSlot k
  else if s.parkUsed f < 64 then
    let s := s.park g f e
    if isMark then s.markPosted k else s.freeSlot k
  else (s.holdEntry k isMark).joinBacklog g f (.held k e)

/-- Post a redeemed reservation (refusal or marker): parked in its park-share reservation, or written or queued in its
ring reservation (R196). -/
def State.postRedeemed (s : State) (g f : Nat) (e : Entry) (inRing : Bool) : State :=
  let r := s.ring g
  if inRing then
    if r.backlog.isEmpty && decide (1 ≤ r.room + 1) && s.canIssue f then
      ((s.setRing g { r with resRing := r.resRing - 1 }).cqWrite g e).roomUpdate g
    else s.joinBacklog g f (.reserved e)
  else (s.setRing g { r with resPark := r.resPark - 1 }).park g f e

/-! ## CE-A's completion ring (R105, R212) -/

/-- Entries that CE-A's ring can take: none when TAIL + 1 equals HEAD modulo its size (R105). -/
def State.ceaFree (s : State) : Nat :=
  let n := 2 ^ s.cea.cqSize
  ((s.reg 0x04480024).toNat + n - (s.reg 0x04480020).toNat % n - 1) % n

/-- Those that no reservation holds (R118). -/
def State.ceaRoom (s : State) : Nat := s.ceaFree - s.cea.res

/-- Write an entry into CE-A's completion ring and raise source 304 (R105, R212). -/
def State.ceaWrite (s : State) (e : Entry) : State :=
  let tail := (s.reg 0x04480020).toNat
  let s := s.writeMem (s.cea.cqBase + 32 * tail) (e.bytes s.cea.lapw)
  let wrap := tail + 1 ≥ 2 ^ s.cea.cqSize
  let s := s.setReg 0x04480020 (BitVec.ofNat 32 (if wrap then 0 else tail + 1))
  ({ s with cea := { s.cea with lapw := if wrap then !s.cea.lapw else s.cea.lapw } }).irq 304

/-- The CE-A stall timer runs while the ring is full and a CE-A slot is in POST-HELD (R212). -/
def State.ceaStallUpdate (s : State) : State :=
  let run := s.ceaFree == 0 && s.slots.any (fun (k, x) => keyEngine k == 64 && x.st == .postHeld) && !s.cea.stallDone
  if run then (if s.cea.stallFrom.isNone then { s with cea := { s.cea with stallFrom := some s.time } } else s)
  else { s with cea := { s.cea with stallFrom := none } }

/-- Write the entries that CE-A's slots hold, oldest first, while the ring has room (R105, R198). -/
def State.ceaDrain (s : State) : Nat → State
  | 0 => s
  | n + 1 =>
    if s.ceaRoom = 0 then s
    else
      match s.oldestHeld (fun k _ => keyEngine k == 64) with
      | none => s
      | some (k, x) =>
        match (if x.w.markHeld then x.w.marks.head? else x.w.final) with
        | none => s
        | some e => State.ceaDrain ((s.ceaWrite e).heldPosted k) n

/-- The room of CE-A's ring has changed: held entries go out and the stall timer follows (R212). -/
def State.ceaRoomed (s : State) : State := (s.ceaDrain 65).ceaStallUpdate

/-- A CE-A slot posts an entry: written, or held at once (R105). -/
def State.ceaPost (s : State) (k : Nat) (e : Entry) (isMark : Bool) : State :=
  (if 1 ≤ s.ceaRoom then
    let s := s.ceaWrite e
    if isMark then s.markPosted k else s.freeSlot k
  else s.holdEntry k isMark).ceaStallUpdate

/-! ## Commands -/

/-- POSTING_REQUEST (R196): an entry whose data writes are visible is written, parked or held. -/
def postingRequest (s : State) : PostSource → State
  | .slot e k =>
    let key := slotKey e.val k.val
    let x := s.slot key
    match x.w.marks with
    | m :: _ =>
      if x.w.markHeld then s
      else if e.val = 64 then s.ceaPost key m true
      else s.postSlotEntry x.cq x.owner key m true
    | [] =>
      match x.st, x.w.final with
      | .posting, some f => if e.val = 64 then s.ceaPost key f false else s.postSlotEntry x.cq x.owner key f false
      | _, _ => s
  | .redeemed g =>
    let r := s.ring g.val
    match r.redeemed, s.ringFn g.val with
    | (e, inRing) :: rest, some f => (s.setRing g.val { r with redeemed := rest }).postRedeemed g.val f e inRing
    | _, _ => s
  | .redeemedCeA =>
    match s.cea.redeemed with
    | e :: rest => (({ s with cea := { s.cea with redeemed := rest, res := s.cea.res - 1 } }).ceaWrite e).ceaStallUpdate
    | [] => s

def execPostingRequest (src : PostSource) (s : State) : Result := .next (postingRequest s src)

/-- BACKLOG_DRAIN (R198): the oldest item of a ring's backlog is written while there is room. -/
def backlogDrain (s : State) (g : Nat) : State :=
  let r := s.ring g
  match r.backlog, s.ringFn g with
  | b :: rest, some f =>
    if !s.canIssue f || (s.fn f).resetAt.isSome then s
    else
      match b with
      | .reserved e =>
        ((s.setRing g { r with backlog := rest, resRing := r.resRing - 1 }).cqWrite g e).roomUpdate g
      | .parked e c =>
        if r.room = 0 then s
        else
          let (s, ok) := (s.setRing g { r with backlog := rest }).parkRead f c
          ((if ok then s.cqWrite g e else s).shareFreed f).roomUpdate g
      | .held k e =>
        if r.room = 0 then s
        else (((s.setRing g { r with backlog := rest }).cqWrite g e).heldPosted k).roomUpdate g
  | _, _ => s

def execBacklogDrain (g : RingId) (s : State) : Result := .next (backlogDrain s g.val)

/-- Issue one read of a ring's head word (R192); it waits where R221 leaves no room. A read due while the function cannot issue requests is dropped and not made later;
the spec does not say what becomes of it (DESIGN CHOICE, notes/assumptions/67.md). -/
def State.headRead (s : State) (g f : Nat) : State :=
  let r := s.ring g
  if !s.canIssue f then s
  else if s.npRoom f = 0 then s.setRing g { r with headAgain := true }
  else (s.setRing g { r with headRead := true, headAgain := false, headLast := s.time }).sendReads f r.haddr.toNat 8 0 1

/-- A doorbell to an enabled completion ring (R192). -/
def State.cqDoorbell (s : State) (g f : Nat) : State :=
  let r := s.ring g
  if r.st = 1 then
    let s := s.setRing g { r with dbseq := r.dbseq + 1#32 }
    if r.headRead then s.setRing g { s.ring g with headAgain := true } else s.headRead g f
  else s

/-- A rejected head value or read: HEADERR and a data-class CE against the function (R193). -/
def State.headErr (s : State) (g f : Nat) (code : Nat) : State :=
  let r := s.ring g
  (s.setRing g { r with cqStatus := r.cqStatus ||| 1#32 }).report 39 7 0 f 0 (32 + f) (BitVec.ofNat 32 code)

/-- HEAD_WORD_RETURN (R193): the head value is taken when it claims no entry that has not been written. -/
def headWordReturn (s : State) (g : Nat) (res : HostResult) : State :=
  let r := s.ring g
  match s.ringFn g with
  | none => s
  | some f =>
    if !r.headRead then s
    else
      let again := r.headAgain
      let s := (s.jHostRead f r.haddr.toNat res).timedOut f res
      let s := s.setRing g { r with headRead := false, headAgain := false }
      if r.typ != 2 || r.st != 1 then s
      else
        let r := s.ring g
        let s := match res with
          | .ok d =>
            let h := leNat (d.take 2)
            let n := r.cap
            if h < n ∧ (h + n - r.qhead) % n ≤ (r.tail + n - r.qhead) % n then
              let moved := h != r.qhead
              let s := s.setRing g { r with
                qhead := h, stallFrom := (if moved then none else r.stallFrom),
                stallUsed := (if moved then 0 else r.stallUsed), stallDone := (if moved then false else r.stallDone) }
              s.roomUpdate g
            else s.headErr g f h
          | _ => s.headErr g f 0
        if again then s.headRead g f else s

/-- HEAD_REREAD (R192): a blocked ring's head word is read every 20 microseconds. -/
def headReread (s : State) (g : Nat) : State :=
  let r := s.ring g
  match s.ringFn g with
  | none => s
  | some f => if r.typ == 2 && r.st == 1 && r.blocked && !r.headRead && decide (s.time ≥ r.headLast + 20 * 1200) then s.headRead g f else s

def execHeadReread (g : RingId) (s : State) : Result := .next (headReread s g.val)

/-- COMPLETION_STALL (R200): the stall timer, which runs only while the ring is blocked, reaches the ring's limit. -/
def completionStall (s : State) (g : Nat) : State :=
  let s := s.stallUpdate g
  let r := s.ring g
  match r.stallFrom, s.ringFn g with
  | some t, some f =>
    if r.stallUsed + (s.time - t) ≥ r.stall * 1000 * 1200 then
      let s := s.setRing g { r with stallFrom := none, stallDone := true, cqStatus := r.cqStatus ||| 2#32 }
      (s.eventMessage f).report 39 9 1 f 0 0 (BitVec.ofNat 32 g)
    else s
  | _, _ => s

def execCompletionStall (g : RingId) (s : State) : Result := .next (completionStall s g.val)

/-- MODERATION_TIMER (R202): the timer of a moderated ring reaches its threshold. -/
def moderationTimer (s : State) (g : Nat) : State :=
  let r := s.ring g
  match r.modFrom with
  | some t => if r.mod == 2 && decide (s.time ≥ t + r.timeIn * 1200) then s.ringFire g else s
  | none => s

def execModerationTimer (g : RingId) (s : State) : Result := .next (moderationTimer s g.val)

/-- MSIX_UNMASK (R204): a pending vector that has become deliverable is sent once; none while a function reset runs (R209). -/
def msixUnmask (s : State) (f v : Nat) : State :=
  let x := s.fn f
  if x.pba.contains v && s.deliverable f v && s.canIssue f && x.resetAt.isNone then
    (s.deliverKept f).msixIssue f v
  else s

def execMsixUnmask (f : Fn) (v : Fin 1024) (s : State) : Result := .next (msixUnmask s f.val v.val)

/-- KEPT_FIRING_DELIVERY (R207): the kept vectors go out in ascending order once the function can send again. -/
def keptFiringDelivery (s : State) (f : Nat) : State :=
  if s.canIssue f then s.deliverKept f else s

def execKeptFiringDelivery (f : Fn) (s : State) : Result := .next (keptFiringDelivery s f.val)

/-- The functions that a sleep request concerns (R206). -/
def sleepFns : SleepRequest → List Nat
  | .d3hot f => [f.val]
  | _ => span 0 16

/-- The flush of R206: every moderated ring of those functions whose count is not 0 fires. -/
def State.flushRings (s : State) (fs : List Nat) : State :=
  s.rings.foldl (fun t (g, r) =>
    match s.ringFn g with
    | some f => if fs.contains f && r.typ == 2 && r.mod == 2 && decide (r.modCount > 0) then t.ringFire g else t
    | none => t) s

end Sys2Proof.Machine
end

