-- ==== Sys2Proof/Machine/Weir.lean ====
section
/-! DEFINITION. Admission (chapter 04): the tests of R113, the charges of R112 and R114, engine choice and the
binding of a slot, for Weir and for CE-A.
The log entries that hold here: DESIGN CHOICE 7; DEDUCED 53. -/

namespace Sys2Proof.Machine

/-! ## Stations as admission sees them (R288, R290) -/

/-- Word 0 of a descriptor. -/
def State.staVALID (s : State) (n : Nat) : Bool := bit (s.station n).w0 31
def State.staOwner (s : State) (n : Nat) : Nat := bitsOf (s.station n).w0 28 24
def State.staProfile (s : State) (n : Nat) : Nat := bitsOf (s.station n).w0 21 16
def State.staLane (s : State) (n : Nat) : Nat := bitsOf (s.station n).w0 6 0

/-- FUNC of a lane (R280). -/
def laneFnAddr (l : Nat) : Nat := 0x04700000 + 0x10000 * (l / 12) + 0x100 + 0x20 * (l % 12)
def State.laneFunc (s : State) (l : Nat) : Nat := bitsOf (s.reg (laneFnAddr l)) 3 0

/-- The two stations are one for R73: the same, or of one bus set (R290). -/
def State.sameSet (s : State) (a b : Nat) : Bool :=
  a == b || (s.staVALID a && s.staVALID b && s.staLane a == s.staLane b &&
    (s.laneFunc (s.staLane a) == 4 || s.laneFunc (s.staLane a) == 6))

/-- Slots that hold the station (or a station of its bus set). -/
def State.holders (s : State) (st : Nat) : List (Nat × Slot) :=
  s.busySlots.filter (fun (_, x) => x.w.holding && s.sameSet x.station st)

/-- Slots that wait for the station in ADMITTED. -/
def State.waiters (s : State) (st : Nat) : List (Nat × Slot) :=
  s.busySlots.filter (fun (_, x) => x.st == .admitted && s.sameSet x.station st)

/-- BUSY of a station's descriptor: an operation holds it or waits for it (R288). -/
def State.staBusy (s : State) (st : Nat) : Bool := !(s.holders st).isEmpty || !(s.waiters st).isEmpty

/-- The station wait W_s at time t, in time units (R114). -/
def State.stationWait (s : State) (st t : Nat) : Nat :=
  let held := (s.holders st).foldl (fun m (_, x) => max m ((x.busyFrom.getD t + 1200 * (x.claimBusy + 10)) - t)) 0
  (s.waiters st).foldl (fun m (_, x) => m + 1200 * (x.claimBusy + 11)) held

/-! ## Sums (R112, R117) -/

/-- POST-HELD for an intermediate completion: the operation goes on afterwards (R78). -/
def Slot.midHeld (x : Slot) : Bool := x.st == .postHeld && x.w.final.isNone

/-- The slot can no longer be ended: free, or its status is captured (R76, R78). -/
def Slot.over (x : Slot) : Bool := x.st == .idle || x.st == .posting || (x.st == .postHeld && !x.midHeld)

/-- A slot's port-group and engine densities count until it enters POSTING (R117); POST-HELD for an intermediate completion comes
before that. -/
def Slot.counts (x : Slot) : Bool := !x.over && !x.be

/-- Σ ρ_PG of a port group over the slots of Weir, or of CE-A (R112, R128). -/
def State.pgUsed (s : State) (pg : Nat) (cea : Bool) : Nat :=
  s.slots.foldl (fun n (k, x) =>
    if x.counts && (keyEngine k == 64) == cea && s.staLane x.station / 12 == pg then n + x.w.densPg else n) 0

/-- Σ ρ_E of an engine. -/
def State.engUsed (s : State) (e : Nat) : Nat :=
  s.slots.foldl (fun n (k, x) => if x.counts && keyEngine k == e then n + x.w.densE else n) 0

/-- Σ ρ_L of a function: until the slot returns to IDLE (R117). -/
def State.linkUsed (s : State) (f : Nat) : Nat :=
  s.slots.foldl (fun n (k, x) => if x.st != .idle && !x.be && keyEngine k != 64 && x.owner == f then n + x.w.densL else n) 0

/-- Σ ρ_L of all functions. -/
def State.linkUsedAll (s : State) : Nat := (span 0 16).foldl (fun n f => n + s.linkUsed f) 0

/-- Slots that function f holds, not IDLE. -/
def State.fnSlots (s : State) (f : Nat) : Nat :=
  (s.busySlots.filter (fun (k, x) => keyEngine k != 64 && x.owner == f)).length

/-- Slots of engine e that are not IDLE. -/
def State.engBusy (s : State) (e : Nat) : Nat := (s.busySlots.filter (fun (k, _) => keyEngine k == e)).length

/-- The lowest-numbered IDLE slot of an engine (R74). -/
def State.idleSlot (s : State) (e : Nat) : Option Nat :=
  (span 0 (if e = 64 then 64 else 128)).find? (fun k => (s.slot (slotKey e k)).st == .idle)

/-- Engine e may be chosen: bind-enabled, in a powered cluster, with an IDLE slot (R74, R113 step 9). -/
def State.engEligible (s : State) (e : Nat) : Bool :=
  (if e < 32 then bit (s.reg 0x04400010) e else bit (s.reg 0x04400014) (e - 32)) && s.domOn (ccDom (e / 8))
    && decide (s.engBusy e < 128)

/-! ## The tests (R107 to R114) -/

/-- The acceptance deadline D in time units, or none when ANCHOR breaks R110. -/
def State.deadlineOf (s : State) (st : Start) : Option Nat :=
  match st.anchor with
  | none => some (s.time + 1200 * st.deadline)
  | some (n, p) =>
    if !s.srcEnabled n || s.tempoLost n then none
    else
      let pos := s.pos n
      if p < pos then none
      else
        let pest := if n = 0 then s.tpu * 256 else (s.src n).pest
        let a := (p - pos) * pest / (4096 * 256) * s.tickLen
        if a ≤ 10000000 * 1200 then some (s.time + a + 1200 * st.deadline) else none

/-- A density in Q16.16, rounded up (R111). -/
def density (n w : Nat) : Nat := ceilDiv (n * 65536) w

/-- The charges of a START over a window of `w` microseconds (R112): port group, engine, link. -/
def chargesOf (st : Start) (w : Nat) : Nat × Nat × Nat :=
  (density st.bytes w, density (6 * st.ccws + 8) w,
    density (st.bytes + 32 + (if st.prog.getLsbD 63 then 0 else 16 * st.ccws)) w)

/-- What admission decides. -/
inductive Verdict where
  | refuse (code : Nat)
  | accept (engine : Nat) (bestEffort : Bool) (reason : Nat)
deriving DecidableEq, Repr

/-- The engine with the lowest resulting density sum, or the most IDLE slots (R116): first of the best. -/
def bestOf (score : Nat → Nat) : List Nat → Option Nat
  | [] => none
  | e :: es => match bestOf score es with
    | none => some e
    | some b => if score b < score e then some b else some e

/-- Weir's tests for a START, in the order of R113. -/
def State.weirVerdict (s : State) (st : Start) : Verdict :=
  let f := st.fn
  let fnCtl := s.reg (0x04300200 + 16 * f)
  let ctl := s.reg 0x04300008
  let pg := s.staLane st.station / 12
  let engs := (span 0 64).filter s.engEligible
  if !bit ctl 0 || !bit fnCtl 0 then .refuse 1
  else if !s.staVALID st.station then .refuse 2
  else if s.staOwner st.station != f then .refuse 3
  else if !s.domOn (pgDom pg) || SMap.get 0 s.downReq (pgDom pg) != 0 then .refuse 4
  else if st.busy < 1 ∨ 10000000 < st.busy ∨ st.ccws < 1 then .refuse 5
  else if st.be then
    if s.fnSlots f + 1 > bitsOf fnCtl 29 16 then .refuse 8
    else match bestOf s.engBusy engs with
      | none => .refuse 9
      | some e => .accept e true 0
  else if st.deadline < 100 ∨ 10000000 < st.deadline then .refuse 6
  else match s.deadlineOf st with
    | none => .refuse 7
    | some d =>
      if s.fnSlots f + 1 > bitsOf fnCtl 29 16 then .refuse 8
      else match bestOf s.engBusy engs with
        | none => .refuse 9
        | some be =>
          let w := (d - s.time) / 1200
          let (rp, re, rl) := chargesOf st w
          let q := 1200 * (st.busy + 11)
          let late : Option Nat :=
            if s.time + s.stationWait st.station s.time + q > d then some 10
            else if (s.pgUsed pg false + rp) * 100 > (if pg < 2 then 50 else 100) * bitsOf ctl 23 16 * 65536 then some 11
            else if (engs.filter (fun e => decide ((s.engUsed e + re) * 100 ≤ 800 * bitsOf ctl 15 8 * 65536))).isEmpty then some 12
            else if s.linkUsed f + rl > (s.reg (0x04300204 + 16 * f)).toNat ∨
                (s.linkUsedAll + rl) * 100 > bitsOf (s.reg 0x0430000C) 15 0 * bitsOf ctl 31 24 * 65536 then some 13
            else none
          match late with
          | some c => if bit fnCtl 1 then .accept be true c else .refuse c
          | none =>
            match bestOf s.engUsed (engs.filter (fun e => decide ((s.engUsed e + re) * 100 ≤ 800 * bitsOf ctl 15 8 * 65536))) with
            | some e => .accept e false 0
            | none => .refuse 12

/-- CE-A's tests (R128): its own enable, the Cantle core as owner, PG0 and PG1 only, fixed capacities, no function and
link tests, no demotion. -/
def State.ceaVerdict (s : State) (st : Start) : Verdict :=
  let pg := s.staLane st.station / 12
  if !bit (s.reg 0x04480000) 0 then .refuse 1
  else if !s.staVALID st.station || decide (2 ≤ pg) then .refuse 2
  else if s.staOwner st.station != 16 then .refuse 3
  else if !s.domOn (pgDom pg) then .refuse 4
  else if st.busy < 1 ∨ 10000000 < st.busy ∨ st.ccws < 1 then .refuse 5
  else if st.be then (if (s.idleSlot 64).isNone then .refuse 9 else .accept 64 true 0)
  else if st.deadline < 100 ∨ 10000000 < st.deadline then .refuse 6
  else match s.deadlineOf st with
    | none => .refuse 7
    | some d =>
      if (s.idleSlot 64).isNone then .refuse 9
      else
        let w := (d - s.time) / 1200
        let (rp, re, _) := chargesOf st w
        if s.time + s.stationWait st.station s.time + 1200 * (st.busy + 11) > d then .refuse 10
        else if s.pgUsed pg true + rp > 40 * 65536 then .refuse 11
        else if s.engUsed 64 + re > 36 * 65536 then .refuse 12
        else .accept 64 false 0

/-- The START waits for a domain that a transition is powering up (R421), or for the journal's checkpoint (R494). -/
def State.startHeld (s : State) (st : Start) (cea : Bool) : Bool :=
  let up := fun (d : Nat) => let v := SMap.get 0 s.doms d; v != 0 && v != 3 && v != 4
  (!cea && s.jnHolds st.fn) || s.staVALID st.station &&
    (up (pgDom (s.staLane st.station / 12)) ||
      (!cea && ((span 0 64).filter s.engEligible).isEmpty && (span 0 8).any (fun c => up (ccDom c))))

/-- A staging share in force: i = 0 to 3 for the base and size of A, then of B (R478 gives the defaults). -/
def stagingReset (j : Nat) : Nat :=
  match j % 4 with
  | 0 => 0x00810000 + 0x3E000 * (j / 4)
  | 1 => 0x3E000
  | 2 => 0x01400000 + 0x40000 * (j / 4)
  | _ => 0x40000

def State.stage (s : State) (f i : Nat) : Nat := SMap.get (stagingReset (4 * f + i)) s.staging (4 * f + i)

/-- Address of a slot's record (R23, R24). -/
def slotAddr (key : Nat) : Nat :=
  if keyEngine key = 64 then 0x02180000 + 256 * keySlot key else 0x00600000 + 256 * key

/-- Bind an accepted START to a slot, which enters ADMITTED (R74, R78, R80, R110). -/
def State.bind (s : State) (st : Start) (e k : Nat) (be : Bool) (reason : Nat) (gcq : Nat) : State :=
  let d := (s.deadlineOf st).getD s.time
  let (rp, re, rl) := if be then (0, 0, 0) else chargesOf st ((d - s.time) / 1200)
  let s := { s with seq := s.seq + 1 }
  let s : State := if s.recording && (e == 64 || !s.recFn st.fn) then { s with jn := { s.jn with flags := s.jn.flags ||| 1 } } else s
  (s.setSlot (slotKey e k)
    { st := .admitted, be := be, owner := (if e = 64 then 16 else st.fn), wq := (if e = 64 then 0 else st.ring),
      cq := gcq, station := st.station, tag := st.tag, prog := st.prog,
      deadline := (if be then BitVec.ofNat 64 (2 ^ 64 - 1) else BitVec.ofNat 64 (t0At d)), accept := s.time,
      claimBusy := st.busy, claimBytes := st.bytes, claimCcws := st.ccws,
      cstat := BitVec.ofNat 32 (reason % 256 * 65536 + (if be then 512 else 0)),
      w := { ringIndex := st.ringIndex, order := s.seq, densPg := rp, densE := re, densL := rl,
             deadlineAt := d,
             stageA := (s.stage st.fn 0, s.stage st.fn 1), stageB := (s.stage st.fn 2, s.stage st.fn 3) } }).hwWrite (slotAddr (slotKey e k))

end Sys2Proof.Machine
end

