-- ==== Sys2Proof/Machine/LaneOps.lean ====
section
/-! DEFINITION. Lanes, FIFOs and stations as the engines, the strike bus and the safe state use them (chapter 10).
The log entries that hold here: DESIGN CHOICE 20; PRESUMED 79; DEDUCED 19, 22, 25, 78, 80. -/

namespace Sys2Proof.Machine

/-! ## CCW fields (R31) -/

abbrev Ccw := BitVec 128

def ccwField (c : Ccw) (hi lo : Nat) : Nat := (c.toNat >>> lo) % 2 ^ (hi + 1 - lo)
def ccwOp (c : Ccw) : Nat := ccwField c 31 24
def ccwFlags (c : Ccw) : Nat := ccwField c 23 16
def ccwOrd (c : Ccw) : Bool := c.getLsbD 23
def ccwNext (c : Ccw) : Bool := c.getLsbD 22
def ccwPmk (c : Ccw) : Bool := c.getLsbD 21
def ccwSus (c : Ccw) : Bool := c.getLsbD 20
def ccwSpan (c : Ccw) : Bool := c.getLsbD 19
def ccwVoid (c : Ccw) : Bool := c.getLsbD 18
def ccwLenok (c : Ccw) : Bool := c.getLsbD 17
def ccwPgl (c : Ccw) : Bool := c.getLsbD 16
def ccwCount (c : Ccw) : Nat := ccwField c 15 0
def ccwSrc (c : Ccw) : Nat := ccwField c 63 60
def ccwMode (c : Ccw) : Nat := ccwField c 59 58
def ccwPcount (c : Ccw) : Nat := ccwField c 57 44
def ccwPhase (c : Ccw) : Nat := ccwField c 43 32
def ccwWhen (c : Ccw) : Nat := ccwField c 63 32
def ccwAddr (c : Ccw) : Quad := BitVec.ofNat 64 (ccwField c 127 64)

/-- The CCW that 16 little-endian bytes spell. -/
def ccwOf (bs : List Byte) : Ccw := BitVec.ofNat 128 (leNat (bs.take 16))

/-! ## Lane registers (R280, R282, R304, R313) -/

def State.laneFn (s : State) (l : Nat) : Word := s.reg (laneFnAddr l)
def State.laneCfg (s : State) (l : Nat) : Word := s.reg (laneFnAddr l + 4)
def State.laneTim (s : State) (l : Nat) : Word := s.reg (laneFnAddr l + 8)
def State.laneSafe (s : State) (l : Nat) : Nat := bitsOf (s.reg (laneFnAddr l + 12)) 2 0

/-- PG_STATUS of a lane's port group. -/
def pgStatus (pg : Nat) : Nat := 0x04700004 + 0x10000 * pg

/-- Lanes that a function occupies, from its primary onwards (R280). -/
def lanesOf (fn : Nat) (cfg : Word) : Nat :=
  if 4 ≤ fn ∧ fn ≤ 7 then 2
  else if fn = 8 then (if bitsOf cfg 25 24 = 2 then 6 else 4)
  else if fn = 9 then (if bit cfg 28 then 4 else 2)
  else if fn = 10 then 3
  else 1

/-- The lanes of a station: its engine's lanes and those of XMASK (R288). -/
def State.stationLanes (s : State) (st : Nat) : List Nat :=
  let l := s.staLane st
  let x := bitsOf (s.station st).w4 11 0
  span l (lanesOf (s.laneFunc l) (s.laneCfg l)) ++
    ((span 0 12).filter (fun k => x.testBit k)).map (fun k => l / 12 * 12 + k)

/-- The drive that SAFE selects; hold keeps the last (R304). -/
def State.safeDrive (s : State) (l : Nat) : Drive :=
  match s.laneSafe l with
  | 0 => .hiZ
  | 1 => .low
  | 2 => .high
  | 3 => .pullDown
  | 4 => .pullUp
  | _ => (s.lane l).drive

/-- A ball's level when the part drives it; an undriven ball keeps the level last seen, as does an open-drain output that is
high. -/
def ballOf (d : Drive) (old : Bool) : Bool :=
  match d with
  | .low => false
  | .high => true
  | _ => old

/-- VMISMATCH holds the lanes of the group at high impedance, and they ignore their functions (R277). -/
def State.laneDark (s : State) (l : Nat) : Bool := bit (s.reg (pgStatus (l / 12))) 2

/-- Drive a lane; in REPLAY every ball holds its SAFE level (R504), and VMISMATCH leaves a lane undriven (R277). -/
def State.driveLane (s : State) (l : Nat) (d : Drive) : State :=
  let x := s.lane l
  let d := if s.laneDark l then .hiZ else d
  if s.mode == 0xA then s
  else s.setLane l { x with drive := d, ball := ballOf (if d = .high ∧ bit (s.laneCfg l) 15 then .hiZ else d) x.ball, drivenAt := (if x.drive = d then x.drivenAt else s.time), idleDue := false }

/-- Remove launches whose actions are all complete (R153). -/
def State.endLaunches (s : State) : State :=
  { s with launches := s.launches.filter (fun x => !(x.done && x.open_.isEmpty)) }

/-- Lane l's action of an earlier launch is complete. -/
def State.actionDone (s : State) (l : Nat) : State :=
  State.endLaunches { s with launches := s.launches.map (fun x => { x with open_ := x.open_.filter (· != l) }) }

/-- Lane l's actions are complete once neither a pulse nor a closing gate is left there. -/
def State.actionFree (s : State) (l : Nat) : State :=
  if (s.lane l).pulse.isNone && !(s.lane l).closing then s.actionDone l else s

/-- Drive a lane to its SAFE level; a pulse there ends (R94, R302). -/
def State.laneToSafe (s : State) (l : Nat) : State :=
  let s := s.driveLane l (s.safeDrive l)
  (s.setLane l { s.lane l with pulse := none, duty := none, dutyNext := none }).actionFree l

/-- Forced safe state is in force (R301); in REPLAY, where it stays in force at the balls, the lane engines run (R504). -/
def State.forcedSafe (s : State) : Bool := bit (s.reg 0x04780004) 31 && s.mode != 0xA

/-! ## Stream FIFOs (R305 to R312) -/

def fifoAddr (q : Nat) : Nat := 0x04800000 + 0x10000 * (q / 24) + 0x40 * (q % 24)
def State.fifoEn (s : State) (q : Nat) : Bool := bit (s.reg (fifoAddr q)) 0

/-- SPILL chunks that a FIFO has reserved: SPILL while EN is 1 (R309). -/
def State.fifoChunks (s : State) (q : Nat) : Nat := if s.fifoEn q then bitsOf (s.reg (fifoAddr q)) 23 16 else 0

/-- Capacity in words (R305, R310). -/
def State.fifoCap (s : State) (q : Nat) : Nat := 16 + (if (s.fifo q).spillOn then 256 * s.fifoChunks q else 0)

/-- CUT_eff and LEVEL_eff (R308). -/
def State.cutEff (s : State) (q : Nat) : Nat :=
  let c := bitsOf (s.reg (fifoAddr q + 4)) 30 16
  if c = 0 ∨ c > s.fifoCap q then s.fifoCap q else c
def State.levelEff (s : State) (q : Nat) : Nat := min (bitsOf (s.reg (fifoAddr q + 4)) 14 0) (s.fifoCap q)

/-- Set bits of SF_STATUS. -/
def State.sfStatus (s : State) (q : Nat) (bits : Word) : State :=
  s.setReg (fifoAddr q + 12) (s.reg (fifoAddr q + 12) ||| bits)

/-- The fill rose from below LEVEL_eff to it: LVL and the level source (R308, R312). -/
def State.levelCross (s : State) (q was now : Nat) : State :=
  let lv := s.levelEff q
  if lv != 0 && decide (was < lv) && decide (lv ≤ now) then (s.sfStatus q 2#32).irq q else s

/-- The Spillway pool in main SRAM: its first address and its 8-byte words (R23). -/
def spillBase : Nat := 0x00C00000
def spillWords : Nat := 0xC0000

/-- The place in the pool that an armed injection strikes when a word goes there: in the macro it aims at, where that is one of the
pool's; the spec does not say where a FIFO's chunks lie (DESIGN CHOICE, notes/assumptions/65.md). -/
def State.spillAddr (s : State) : Nat :=
  let m := bitsOf (s.reg 0x04900024) 4 0
  if 12 ≤ m ∧ m ≤ 17 then 0x100000 * m else spillBase

/-- Append a word to a FIFO; one that finds head and tail full goes through the middle, which is main SRAM (R305, R311, R350). -/
def State.pushWord (s : State) (q : Nat) (w : FWord) : State :=
  let x := s.fifo q
  let (m, s) := if 16 ≤ x.words.length then s.injMark s.spillAddr .ok else (w.mark, s)
  (s.setFifo q { x with words := x.words ++ [{ w with mark := m }] }).levelCross q x.words.length (x.words.length + 1)

/-- Append bytes at the producer's end: full words of 16 bytes are closed as DATA (R306). -/
def State.pushBytesAux (s : State) (q : Nat) (poison : Bool) : Nat → List Byte → State
  | 0, _ => s
  | k + 1, bs =>
    if bs.isEmpty then s
    else
      let x := s.fifo q
      let need := 16 - x.part.length
      let p := x.part ++ bs.take need
      let bad := x.partBad || poison
      if p.length = 16 then
        State.pushBytesAux ((s.setFifo q { x with part := [], partBad := false }).pushWord q
          { data := p, eop := false, poison := bad }) q poison k (bs.drop need)
      else s.setFifo q { x with part := p, partBad := bad }

def State.pushBytes (s : State) (q : Nat) (bs : List Byte) (poison : Bool) : State :=
  s.pushBytesAux q poison (bs.length + 1) bs

/-- Close the packet: the partial word becomes an EOP word; with none, the last full word is the EOP (R306, R307), and a packet whose
words have all been taken is over. -/
def State.closePacket (s : State) (q : Nat) : State :=
  let x := s.fifo q
  if !x.part.isEmpty then
    (s.setFifo q { x with part := [], partBad := false }).pushWord q { data := x.part, eop := true, poison := x.partBad }
  else
    match x.words.getLast? with
    | some w => s.setFifo q { x with words := x.words.dropLast ++ [{ w with eop := true }] }
    | none => s.setFifo q { x with begun := false }

/-- Bytes that still fit (R307: a producer stalls on a full FIFO); a FIFO with EN 0 carries no data (R305). -/
def State.fifoRoom (s : State) (q : Nat) : Nat :=
  if s.fifoEn q then (s.fifoCap q - (s.fifo q).words.length) * 16 - (s.fifo q).part.length else 0

/-- Is the FIFO full for a new item of `n` bytes? -/
def State.fifoFull (s : State) (q n : Nat) : Bool := decide (s.fifoRoom q < n)

/-- A consumer may take from the packet at the head: it has begun it, or CUT_eff words or the EOP word are there
(R308, R312). -/
def State.mayTake (s : State) (q : Nat) : Bool :=
  let x := s.fifo q
  x.begun || decide (s.cutEff q ≤ x.words.length) || x.words.any (fun w => w.eop)

/-- RTS of a UART with flow control is low while the inbound FIFO has room for a character, and high, deasserted, while it is full
(R286; PRESUMED polarity, notes/assumptions/79.md). -/
def State.rtsDrive (s : State) (p : Nat) : Drive := if s.fifoFull (2 * p) 1 then .high else .low

/-- Lane l is the primary of a UART with flow control (R280, R314). -/
def State.uartFlow (s : State) (l : Nat) : Bool := s.laneFunc l == 9 && bit (s.laneCfg l) 28

/-- RTS follows the fill of the inbound FIFO. -/
def State.rts (s : State) (l : Nat) : State :=
  if s.uartFlow l && s.domOn (pgDom (l / 12)) && !s.forcedSafe && !(s.lane (l + 2)).idleDue then s.driveLane (l + 2) (s.rtsDrive l) else s

/-- An empty FIFO of PG0 or PG1 gains its Spillway capacity when PD_MEM2 is on (R18, R310). -/
def State.spillBack (s : State) (q : Nat) : State :=
  let x := s.fifo q
  if x.words.isEmpty && x.part.isEmpty && !x.spillOn && decide (s.fifoChunks q > 0) && s.domOn (memDom 2) then
    s.setFifo q { x with spillOn := true } else s

/-- Take up to `n` bytes from the head, as far as its packet may be taken (R308), stopping before a word that fails, or with it where
it comes first: bytes, and whether they are poisoned (R311). A word that comes back from the middle passes main SRAM's ECC (R331). A
FIFO that has drained gains its middle again (R18). -/
def State.takeBytesAux (s : State) (q : Nat) : Nat → Nat → List Byte → State × List Byte × Bool
  | 0, _, acc => (s, acc, false)
  | k + 1, n, acc =>
    let x := s.fifo q
    match x.words with
    | [] => (s, acc, false)
    | w :: ws =>
      let bad := w.poison || w.mark.bad
      if n = 0 || !s.mayTake q || (bad && !acc.isEmpty) then (s, acc, false)
      else
        let s := s.eccEventIn spillBase spillWords w.mark 31
        let got := w.data.take n
        let rest := w.data.drop n
        let s := if rest.isEmpty then (s.setFifo q { x with words := ws, begun := !w.eop }).spillBack q
                 else s.setFifo q { x with words := { w with data := rest, poison := bad, mark := .ok } :: ws, begun := true }
        if bad then (s, acc ++ got, true)
        else State.takeBytesAux s q k (n - got.length) (acc ++ got)

def State.takeBytes (s : State) (q n : Nat) : State × List Byte × Bool := s.takeBytesAux q (n + 1) n []

/-- Discard every word (R312); an empty FIFO gains its middle again where PD_MEM2 is on (R18). -/
def State.flushFifo (s : State) (q : Nat) : State :=
  let s := s.setFifo q { words := [], part := [], partBad := false, begun := false,
                         spillOn := decide (s.fifoChunks q > 0) && s.domOn (memDom 2) }
  if q % 2 = 0 then s.rts (q / 2) else s

/-! ## Levels of lanes (R279, R297, R304, R313) -/

/-- The primary of a lane: OWNER_LANE of a MEMBER, else the lane itself. -/
def State.primaryOf (s : State) (l : Nat) : Nat :=
  if s.laneFunc l = 0xD then bitsOf (s.laneFn l) 14 8 else l

/-- What a lane drives by its PG_LANEk_ registers when no transfer uses it (R297, R304, R313, R314): SAFE for OFF; the
PG_OUT level for a GPIO output; the released level of the other functions' outputs. -/
def State.idleDrive (s : State) (l : Nat) : Drive :=
  let p := s.primaryOf l
  let fn := s.laneFunc p
  let cfg := s.laneCfg p
  let input := match bitsOf (s.laneCfg l) 17 16 with | 1 => Drive.pullUp | 2 => Drive.pullDown | _ => Drive.hiZ
  let od := bit (s.laneCfg l) 15
  if s.forcedSafe || fn == 0 then s.safeDrive l
  else if fn = 1 then
    if bit cfg 24 then
      let lvl := (bit (s.reg (0x04700014 + 0x10000 * (l / 12))) (l % 12)) != bit cfg 25
      if lvl then (if od then input else .high) else .low
    else input
  else if fn = 2 then (if bit cfg 24 then .high else .low)
  else if fn = 8 then (if l = p then (if bitsOf cfg 27 26 ≥ 2 then .high else .low) else if l = p + 1 then .high else input)
  else if fn = 9 then (if l = p then .high else if l = p + 2 then s.rtsDrive p else input)
  else input

/-- Bring a lane to its idle drive. -/
def State.laneIdle (s : State) (l : Nat) : State := s.driveLane l (s.idleDrive l)

/-- The lane takes its configuration again on the next tick (R297); one whose FUNC has not been written since its domain came up keeps
its level (R279). -/
def State.idleLater (s : State) (l : Nat) : State :=
  if (s.lane l).live then s.setLane l { s.lane l with idleDue := true } else s

/-! ## Station and lane engine (R292 to R299) -/

/-- The lane engine of a station's primary lane carries a transfer of this slot. -/
def State.xferOf (s : State) (st key : Nat) : Option Xfer :=
  match (s.lane (s.staLane st)).xfer with
  | some x => if x.key = key then some x else none
  | none => none

def State.setXfer (s : State) (l : Nat) (x : Option Xfer) : State := s.setLane l { s.lane l with xfer := x }

/-- FLAGS of a station: SAFE is set by every forced safe state that has started since they were last cleared (R292, R302). -/
def State.staFlags (s : State) (st : Nat) : Nat :=
  let x := s.station st
  x.flags ||| (if x.safeAck < s.safeMark then 64 else 0)

/-- Set sense flags of a station (R293). -/
def State.senseFlag (s : State) (st : Nat) (i : Nat) : State :=
  let x := s.station st
  s.setStation st { x with flags := x.flags ||| 2 ^ i }

/-- End a bus transfer that the lane engine has kept: STOP, or release of chip select (R299). -/
def State.busStop (s : State) (l : Nat) : State :=
  if (s.lane l).busKept then (s.setLane l { s.lane l with busKept := false }).emit (.busEnd l 0) else s

/-- The function honours GATE (R285). -/
def gateFn (fn : Nat) : Bool := fn == 8 || fn == 9 || fn == 10

/-- The transfer is held at a closed gate (R285). -/
def State.atGate (s : State) (l : Nat) : Bool :=
  gateFn (s.laneFunc l) && bit (s.laneCfg l) 23 && !(s.lane l).gateOpen

/-- The station waits on the engine or is held at a gate: its timer is paused (R98, R285). It waits while its outbound FIFO is empty
with bytes still to come, those of a member that is being fetched among them, or its inbound FIFO is full. A SENSE has no FIFO; its
timer runs until STATION_END. -/
def State.timerPaused (s : State) (x : Slot) : Bool :=
  let l := s.staLane x.station
  match (s.lane l).xfer with
  | none => ccwOp x.ccw != 4 || x.w.xferEnd.isSome
  | some t =>
    (t.out && (s.fifo (2 * l + 1)).words.isEmpty && (s.fifo (2 * l + 1)).part.isEmpty && t.lead.isEmpty && (decide (t.owe > 0) || x.w.succ)) ||
      (t.inn && s.fifoFull (2 * l) 1) || s.atGate l

/-- Start or stop the counting of a slot's response timer as its pause condition asks. -/
def State.timerUpdate (s : State) (key : Nat) : State :=
  let x := s.slot key
  if !x.w.loaded then s
  else
    match s.timerPaused x, x.w.timerFrom with
    | true, some t => s.setSlot key { x with w := { x.w with timerFrom := none, timerUsed := x.w.timerUsed + (s.time - t) } }
    | false, none => s.setSlot key { x with w := { x.w with timerFrom := some s.time } }
    | _, _ => s

/-- The response timer of the transfer on lane l counts or pauses as the gate now stands (R285). -/
def State.gateTimer (s : State) (l : Nat) : State :=
  match (s.lane l).xfer with
  | some t => s.timerUpdate t.key
  | none => s

/-- The gate of lane l closes at once. -/
def State.shutGate (s : State) (l : Nat) : State :=
  ((s.setLane l { s.lane l with gateOpen := false, closing := false }).actionFree l).gateTimer l

/-- Cut the launches that a slot counts as its own (R153): pulses end at once, gates that they closed or opened close,
and actions that have not reached their balls are not performed. -/
def State.cutLaunches (s : State) (key : Nat) : State :=
  let mine := s.launches.filter (fun x => x.owners.contains key)
  let s : State := { s with launches := s.launches.filter (fun x => !x.owners.contains key) }
  let s := (mine.foldl (fun ls x => ls ++ x.open_) []).foldl (fun t l =>
    let x := t.lane l
    match x.pulse with
    | some (_, after) => ((t.setLane l { x with pulse := none }).driveLane l (if after then .high else .low)).actionFree l
    | none => t.shutGate l) s
  (mine.foldl (fun ls x => ls ++ (if x.done then (x.entries.filter (fun e => e.2.1 == 7)).map (fun e => e.1) else [])) []).foldl
    (fun t l => if t.atGate l then t else t.shutGate l) s

/-- The sense data that a return to the initial state leaves (R292). -/
def Station.initial (x : Station) : Station := { x with ibiData := [], levels := 0, attnT0 := 0, lastLen := 0, latch := false }

/-- Return a station to its initial state (R297): its lanes take the configuration of their registers on the next tick
(notes/assumptions/19.md), its FIFOs are empty, its latch is clear, no transfer is held; a return
clears every sense byte except IBI_COUNT, FLAGS and LAST_UREASON (R292). -/
def State.stationInitial (s : State) (st : Nat) : State :=
  let l := s.staLane st
  let s := (s.stationLanes st).foldl (fun t k => t.idleLater k) s
  let s := (s.flushFifo (2 * l)).flushFifo (2 * l + 1)
  let s := (s.setLane l { s.lane l with
    xfer := none, gateOpen := false, closing := false, streamOn := false, frame := 0, dropFrame := false }).actionFree l
  s.setStation st (s.station st).initial

/-- A CLEAR's handling of a station (R94): lanes to SAFE, launches cut, FIFOs flushed, initial state. -/
def State.stationClear (s : State) (st key : Nat) : State :=
  let s := (s.cutLaunches key).busStop (s.staLane st)
  let s := (s.stationLanes st).foldl (fun t l => t.laneToSafe l) s
  s.stationInitial st

/-- The data width of an SPI lane as a power of two: that of the transfer's LANEOP, else the lane's (R298, R314). -/
def State.spiWidth (s : State) (l : Nat) : Nat :=
  match (s.lane l).xfer with
  | some t => if t.laneop % 4 = 0 then bitsOf (s.laneCfg l) 25 24 else t.laneop % 4 - 1
  | none => bitsOf (s.laneCfg l) 25 24

/-- The options of a lane as its transfer uses them: an SPI lane with the transfer's data width. -/
def State.laneCfgNow (s : State) (l : Nat) : Word :=
  if s.laneFunc l = 8 then putBits (s.laneCfg l) 25 24 (s.spiWidth l) else s.laneCfg l

/-- The address that a controller sends (R288): the dynamic one on I3C, where it has one, else the static one (DEDUCED,
notes/assumptions/80.md); 0x7E for a broadcast CCC, which goes to every target. -/
def State.remoteAddr (s : State) (l : Nat) (t : Xfer) : Nat :=
  let w := (s.station t.station).w3
  if t.laneop.testBit 5 && t.laneop.testBit 4 then 0x7E
  else if s.laneFunc l = 4 ∧ bitsOf w 14 8 ≠ 0 then bitsOf w 14 8
  else bitsOf w 6 0

/-- The transfer of a controller lane goes out on its bus: address and direction, CCC, HDR, DUMMY cycles and data width (R298). -/
def State.sendHead (s : State) (l : Nat) : State :=
  match (s.lane l).xfer with
  | none => s
  | some t =>
    let fn := s.laneFunc l
    let op := t.laneop
    if fn = 8 then s.emit (.xferHead l { read := t.inn, dummy := if op.testBit 7 then op / 8 % 16 else 0, width := 2 ^ s.spiWidth l })
    else if fn = 4 ∨ fn = 6 then
      s.emit (.xferHead l { addr := s.remoteAddr l t, read := t.inn, ccc := op.testBit 5, bcast := op.testBit 4, hdr := op.testBit 3 })
    else s

/-- A transfer of an I3C or I2C target serves one direction: LANEOP [0] is 1 for reads by the remote controller (R298). -/
def serves (fn : Nat) (t : Xfer) (inbound : Bool) : Bool := (fn != 5 && fn != 7) || t.laneop.testBit 0 != inbound

/-- A lane's function moves its transfer in the way of a stream: UART, I2S/TDM, GPIO, CAPTURE (R307, R540). -/
def streamFn (fn : Nat) : Bool := fn == 1 || fn == 3 || fn == 9 || fn == 10

/-- Bytes of one lane item (R280). -/
def itemBytes (fn : Nat) : Nat := if fn = 2 then 2 else if fn = 3 ∨ fn = 10 then 4 else 1

end Sys2Proof.Machine
end

