-- ==== Sys2Proof/Machine/EngineOps.lean ====
section
/-! DEFINITION. The life of an operation slot (chapter 03): busy time, the response timer, R76, endings, status
capture and marks; the engine's accesses to memory.
The log entries that hold here: DESIGN CHOICE 7; DEDUCED 17, 43, 63. -/

namespace Sys2Proof.Machine

/-! ## Checks as status bits (R71, R188, R189) -/

/-- What ends an operation: CSTAT bits [6:0] with PCODE, USTAT bits with UREASON. -/
structure Check where
  cstat : Word
  ustat : Word
deriving DecidableEq, Repr

/-- PROGRAM_CHECK with its code (R71). -/
def chkProg (code : Nat) : Check := { cstat := BitVec.ofNat 32 (code * 2 ^ 24 + 1), ustat := 0#32 }
def chkProtection : Check := { cstat := 0x2#32, ustat := 0#32 }
def chkChaining : Check := { cstat := 0x4#32, ustat := 0#32 }
def chkData : Check := { cstat := 0x8#32, ustat := 0#32 }
def chkInterface : Check := { cstat := 0x10#32, ustat := 0#32 }
def chkOverrun : Check := { cstat := 0x20#32, ustat := 0#32 }
def chkTempoLost : Check := { cstat := 0x40#32, ustat := 0#32 }
/-- UNIT_CHECK with its reason byte (R294). -/
def chkUnit (reason : Nat) : Check := { cstat := 0#32, ustat := BitVec.ofNat 32 (reason * 65536 + 2) }
/-- UNIT_EXCEPTION of a HALT or CLEAR (R86, R87). -/
def chkException : Check := { cstat := 0#32, ustat := 4#32 }
def chkNone : Check := { cstat := 0#32, ustat := 0#32 }

/-! ## Busy time and the response timer (R98, R108, R114, R121) -/

/-- USED_BUSY in ticks (R80, R121, R122). -/
def State.usedBusy (s : State) (x : Slot) : Nat :=
  match x.busyFrom with
  | some _ => x.busyBase + (s.time - x.w.busyMark) / s.tickLen
  | none => x.busyBase

/-- Limit of the station's response timer in microseconds: TMO (R98, R288). -/
def State.staTmo (s : State) (st : Nat) : Nat := bitsOf (s.station st).w1 19 0

/-- An arrival restarts the timer; one on the tick on which the limit is reached wins and sets ZERO_MARGIN (R98, R99). -/
def State.arrival (s : State) (key : Nat) : State :=
  let x := s.slot key
  let used := x.w.timerUsed + (match x.w.timerFrom with | some t => s.time - t | none => 0)
  let tie := decide (used ≥ s.staTmo x.station * 1200) && x.w.loaded
  s.setSlot key { x with
    cstat := x.cstat ||| bitWord 7 tie, w := { x.w with timerUsed := 0, timerFrom := x.w.timerFrom.map (fun _ => s.time) } }

/-! ## R76, status capture and POSTING (R76, R78, R86) -/

/-- The engine's sequencer dispatches (R102): it is not stopped by a mismatch. -/
def State.engineRuns (s : State) (e : Nat) : Bool := SMap.get 0 s.stopped e == 0

/-- A shaping core still runs a kernel of the slot (R273). -/
def State.kernelRuns (s : State) (key : Nat) : Bool :=
  s.cores.any (fun (_, c) => match c.req with | some r => r.key == key | none => false)

/-- The station has no activity of the operation: no transfer, no outbound bytes, no launch in progress (R76). -/
def State.stationQuiet (s : State) (key : Nat) : Bool :=
  let x := s.slot key
  let q := 2 * s.staLane x.station + 1
  (s.xferOf x.station key).isNone && (s.fifo q).words.isEmpty && (s.fifo q).part.isEmpty &&
    !(s.launches.any (fun l => l.owners.contains key))

/-- Nothing of the operation is still in progress: neither a memory command that a request lets run to its end, nor station activity,
nor a kernel (R76, R93, R273). -/
def State.r76 (s : State) (key : Nat) : Bool :=
  !(s.slot key).w.haltRuns && (!(s.slot key).w.holding || !s.kernelRuns key && s.stationQuiet key)

/-- The final entry of a slot, captured now (R86, R187). -/
def State.finalEntry (s : State) (key : Nat) (x : Slot) : Entry :=
  let en := x.w.ending.getD { lastCcw := 0#64, residual := 0, normal := true }
  { ringIndex := x.w.ringIndex, kind := 0, engine := keyEngine key, tag := x.tag, cstat := x.cstat,
    sdig := x.w.sdig, mdig := x.w.mdig, nlaunch := x.w.nlaunch, owner := x.owner,
    ustat := x.ustat ||| bitWord 3 (s.station x.station).latch, residual := en.residual, slot := keySlot key, lastCcw := en.lastCcw, ts := t0At s.time }

/-- R76 holds: the station is released and the slot enters POSTING with its status captured; under a function reset it
goes to IDLE without an entry (R76, R78, R79, R86). -/
def State.toPosting (s : State) (key : Nat) : State :=
  let x := s.slot key
  let s := if x.w.holding then s.busStop (s.staLane x.station) else s
  if x.w.fnReset then s.freeSlot key
  else
    let e := s.finalEntry key x
    s.setSlot key { x with
      st := .posting, susreq := false, haltreq := false, clearreq := false, busyBase := s.usedBusy x, busyFrom := none,
      cstat := e.cstat, ustat := e.ustat,
      w := { x.w with
        final := some e, holding := false, lines := [], reads := [], inbox := [], data := [], deliv := [], loaded := false,
        timerFrom := none, target := none, winEnd := none, localAt := none, localEnd := none, op10 := false, succ := false,
        chainOp := none, met := false, ccwDone := false, lastDone := none, haltRuns := false } }

/-- Pass on to POSTING when R76 holds, else wait in HALTING (R78); nothing while a mismatch stops the engine (R102). -/
def State.settle (s : State) (key : Nat) : State :=
  if !s.engineRuns (keyEngine key) then s
  else if s.r76 key then s.toPosting key
  else
    let x := s.slot key
    s.setSlot key { x with st := .halting, w := { x.w with ccwDone := false, lastDone := none, met := false } }

/-- End an operation with a check or request: its status is fixed once (R121), its station is handled as under R94 where
`clear` says so, and the slot goes to POSTING or HALTING. A slot in POST-HELD for an intermediate completion goes there from
FETCHING, once that entry has left it (R78, notes/assumptions/63.md); under a function reset it goes at once. While a mismatch stops
its engine nothing ends the slot but that (R102). -/
def State.endOp (s : State) (key : Nat) (c : Check) (last : Quad) (residual : Nat) (clear : Bool) : State :=
  let x := s.slot key
  if x.over || !s.engineRuns (keyEngine key) then s
  else
    let waits := x.midHeld && !x.w.fnReset
    let fixed := x.w.ending.isSome
    let base := if bit c.ustat 2 && c.cstat == 0#32 then x.ustat &&& 0xFFFFFFFE#32 else x.ustat
    let x := if fixed then x else { x with
      cstat := x.cstat ||| c.cstat
      ustat := (if bit c.cstat 5 then base &&& 0xFFFFFFFB#32 else base) ||| c.ustat
      w := { x.w with ending := some { lastCcw := last, residual := residual, normal := c == chkNone } } }
    let x := { x with w := { x.w with cleared := x.w.cleared || clear, haltRuns := false } }
    let s := s.setSlot key x
    let s := if bit c.ustat 1 && x.w.holding then
        s.setStation x.station { s.station x.station with ureason := bitsOf c.ustat 23 16 } else s
    let s := if clear && x.w.holding then s.stationClear x.station key else s
    if waits then s else s.settle key

/-- Bytes of the current CCW not transferred, for a HALT, a CLEAR, a timeout or an overrun: of a data CCW or a station
command with data whose snapshot has been taken (R86). -/
def Slot.haltResidue (x : Slot) : Nat := if x.w.snapped then x.remain else 0

/-- Bytes of the current CCW not transferred, for a check (R86); a MOVE counts the bytes it has not copied. -/
def Slot.residue (x : Slot) : Nat :=
  if !x.w.snapped then 0 else if ccwOp x.ccw = 0x11 then ccwCount x.ccw - x.w.moved else x.remain

/-- USED_BUSY at which the busy claim is used up (R121). -/
def State.busyLimit (s : State) (x : Slot) : Nat := x.claimBusy * s.tpu

/-- Address of a station's descriptor (R287). -/
def descAddr (st : Nat) : Nat := 0x00500000 + 128 * st

/-- The descriptor of the slot's station is read: where it is uncorrectable, the operation ends with INTERFACE_CHECK, the station is
handled as under R94, and VALID is cleared (R330). -/
def State.readDescriptor (s : State) (key : Nat) : State :=
  let x := s.slot key
  let a := descAddr x.station
  let bad := s.hwBad a
  let s := s.hwCheck a 0 31
  if bad then
    let y := s.station x.station
    ((s.setStation x.station { y with w0 := y.w0 &&& 0x7FFFFFFF#32 }).hwWrite a).endOp key chkInterface x.cur x.haltResidue true
  else s

/-- End with a check found at steps 10 to 12 of R70, or by the station: reported at the current CCW with the bytes not
transferred (R86). A station with activity in progress is handled as under R94. -/
def State.checkNow (s : State) (key : Nat) (c : Check) : State :=
  let x := s.slot key
  s.endOp key c x.cur x.residue ((s.xferOf x.station key).isSome)

/-- A mark: the intermediate completion of the CCW that has just ended, with the station's attention latch as it now stands (R44, R88,
R189). -/
def State.addMark (s : State) (key : Nat) (residual : Nat) : State :=
  let x := s.slot key
  if x.w.fnReset then s
  else
  let e : Entry := { ringIndex := x.w.ringIndex, kind := 1, engine := keyEngine key, tag := x.tag, cstat := x.cstat,
                     ustat := x.ustat ||| bitWord 3 (s.station x.station).latch, residual := residual, slot := keySlot key, lastCcw := x.cur, ts := t0At s.time }
  s.setSlot key { x with w := { x.w with marks := x.w.marks ++ [e], marked := true } }

/-- Clear what belongs to the CCW that has ended, before the next is fetched. -/
def Work.nextCcw (w : Work) : Work :=
  { w with snapped := false, block := [], moved := 0, target := none, winEnd := none, localAt := none, localEnd := none,
           met := false, op10 := false, data := [], shapeAt := none, shapeEnd := none, xferEnd := none, loaded := false,
           timerFrom := none, timerUsed := 0, chainOp := none, chainPos := 0, succ := false, marked := false,
           reads := w.reads.filter (fun r => r.spec), inbox := w.inbox.filter (fun r => r.1.spec) }

/-- The current CCW has ended (R43, R44): its mark is due, and the program goes on at `next`, or the operation ends normally when
NEXT is clear; the slot stays in RUNNING until its marks have been written or parked (R78). A HALT that has let the CCW run to its
end ends the operation here (R93). -/
def State.endCcw (s : State) (key : Nat) (residual : Nat) (goOn : Bool) (next : Quad) (branch : Option Quad) : State :=
  let x := s.slot key
  let s := if ccwPmk x.ccw && !x.w.marked && ccwOp x.ccw != 8 && ccwOp x.ccw != 9 && ccwOp x.ccw != 10 then s.addMark key residual else s
  let x := s.slot key
  if !s.engineRuns (keyEngine key) then s
  else if x.w.haltRuns then s.endOp key chkException x.cur 0 false
  else if goOn then
    let w := x.w.nextCcw
    let wait := !w.marks.isEmpty
    s.setSlot key { x with
      st := (if !wait then .fetching else if w.markHeld then .postHeld else .running), cur := next, remain := 0,
      w := { w with branchFrom := branch, ccwDone := wait } }
  else
    let tie := decide (s.busyLimit x ≤ s.usedBusy x) && x.busyFrom.isSome
    let x := { x with cstat := x.cstat ||| bitWord 7 tie }
    if x.w.marks.isEmpty then (s.setSlot key x).endOp key chkNone x.cur residual false
    else s.setSlot key { x with
      st := (if x.w.markHeld then .postHeld else .running), w := { x.w with ccwDone := true, lastDone := some residual } }

/-- The CCW after the current one in address order. -/
def nextAddr (a : Quad) : Quad := a + 16#64

/-- A CCW that is no flow CCW has ended: the run of flow CCWs is broken (R56), and NEXT decides (R43). -/
def State.ccwEnded (s : State) (key : Nat) (residual : Nat) : State :=
  let x := s.slot key
  let s := s.setSlot key { x with flow := 0 }
  s.endCcw key residual (ccwNext x.ccw) (nextAddr x.cur) none

/-! ## The engine's memory (R23, R25, R33, R68, R85) -/

/-- An address under R33: device-local or a host bus address. -/
def isLocal (a : Quad) : Bool := a.getLsbD 63
def localOf (a : Quad) : Nat := a.toNat % 2 ^ 32
/-- Bits [62:32] of a device-local address must be 0 (R33). -/
def localBad (a : Quad) : Bool := isLocal a && (a.toNat / 2 ^ 32) % 2 ^ 31 != 0

/-- The engine may reach `n` bytes at local address a: staging of the owner's share, or always-on staging for CE-A
(R23 to R25), in a powered memory (R28). -/
def State.engMay (s : State) (key : Nat) (x : Slot) (a n : Nat) : Bool :=
  s.domOn (memDomainOf a) && s.domOn (memDomainOf (a + n - 1)) &&
  (if keyEngine key = 64 then decide (0x02188000 ≤ a) && decide (a + n ≤ 0x02200000)
   else
     (decide (0x00810000 ≤ a) && decide (a + n ≤ 0x00C00000) && decide (x.w.stageA.1 ≤ a) && decide (a + n ≤ x.w.stageA.1 + x.w.stageA.2)) ||
     (decide (0x01400000 ≤ a) && decide (a + n ≤ 0x01800000) && decide (x.w.stageB.1 ≤ a) && decide (a + n ≤ x.w.stageB.1 + x.w.stageB.2)))

/-- The owner code of ECC events met for an operation. -/
def slotOwner (x : Slot) : Nat := if x.owner < 16 then x.owner else 31

/-- A read the engine makes of local memory: bytes and poison mark (R328, R331). -/
def State.engRead (s : State) (key : Nat) (x : Slot) (a n : Nat) : State × List Byte × Bool :=
  s.readMem a n (engineMaster (keyEngine key)) (slotOwner x)

/-- Issue a host read for an operation (R85, R223): as many of its requests as R221 has room for; the others wait. -/
def State.engHostRead (s : State) (key : Nat) (addr len : Nat) (spec : Bool) : State :=
  let x := s.slot key
  let n := s.reqCount x.owner len
  let k := min n (s.npRoom x.owner)
  (s.setSlot key { x with w := { x.w with reads := x.w.reads ++ [{ addr := addr, len := len, spec := spec, sent := k, left := n - k, at_ := s.time }] } }).sendReads
    x.owner addr len 0 k

/-- What a data or operand read at an address gives now. -/
inductive Got where
  /-- the bytes, with their poison mark -/
  | bytes (s : State) (d : List Byte) (poison : Bool)
  /-- a host read is outstanding -/
  | wait (s : State)
  /-- the operation ends with this check -/
  | fail (s : State) (c : Check)

/-- The check that a failed host read gives (R85). -/
def hostCheck : HostResult → Check
  | .ok _ => chkNone
  | .ur => chkProtection
  | .ca => chkProtection
  | .poisoned => chkData
  | .timeout => chkInterface
  | .noTunnel => chkInterface

/-- Read `n` bytes under R33 for an operation: local memory at once, host memory through an outstanding read whose
completion stands in the slot's inbox (R85, R223). Access rights are checked by the caller. -/
def State.fetchBytes (s : State) (key : Nat) (a : Quad) (n : Nat) : Got :=
  let x := s.slot key
  if isLocal a then
    if s.engMay key x (localOf a) n then
      let (s, d, p) := s.engRead key x (localOf a) n
      .bytes s d p
    else .fail (s.refusedAccess (engineMaster (keyEngine key)) (localOf a)) chkProtection
  else if keyEngine key = 64 then .fail s chkProtection
  else
    match x.w.inbox.find? (fun r => r.1.addr == a.toNat && r.1.len == n && !r.1.spec) with
    | some (r, res) =>
      let s := s.setSlot key { x with w := { x.w with inbox := x.w.inbox.erase (r, res) } }
      (match res with
       | .ok d => .bytes s (padTo n d) false
       | bad => .fail s (hostCheck bad))
    | none =>
      if x.w.reads.any (fun r => r.addr == a.toNat && r.len == n && !r.spec) then .wait s
      else if s.canIssue x.owner then .wait (s.engHostRead key a.toNat n false)
      else .fail s chkInterface

/-- CRC-32C of a memory write item: its 8-byte address and its data (R493). -/
def writeItem (a : Nat) (d : List Byte) : Nat := crc32c (leBytes 8 a ++ d)

/-- Add a memory write item to the digest of a slot (R493). -/
def State.addItem (s : State) (key : Nat) (a : Nat) (d : List Byte) : State :=
  let x := s.slot key
  if s.jnState = 3 ∨ s.jnState = 5 then s.setSlot key { x with w := { x.w with mdig := (x.w.mdig + writeItem a d) % 2 ^ 32 } } else s

/-- Bytes that an operation passes to its station enter its digest (R493). -/
def State.passDigest (s : State) (key : Nat) (d : List Byte) : State :=
  let x := s.slot key
  if s.jnState = 3 ∨ s.jnState = 5 then s.setSlot key { x with w := { x.w with sdig := crcBytes 0x82F63B78 x.w.sdig d } } else s

/-- Write bytes under R33 for an operation; none where a host write cannot be sent (R223, R230). -/
def State.storeBytes (s : State) (key : Nat) (a : Quad) (d : List Byte) (poison : Bool) : Option State :=
  let x := s.slot key
  if d.isEmpty then some s
  else if isLocal a then some ((s.addItem key a.toNat d).writeMem (localOf a) d poison)
  else (s.addItem key a.toNat d).hostWrite x.owner a.toNat d true poison

/-! ## Data addresses: plain and page lists (R41) -/

/-- Number of entries of a page list (R41). -/
def pageCount (first : Quad) (count : Nat) : Nat := (first.toNat % 4096 + count + 4095) / 4096

/-- Entry i of a page list that was read into the block. -/
def pageEntry (block : List Byte) (i : Nat) : Quad := leQuad (block.drop (8 * i))

/-- The contiguous run of data at offset `off` of a CCW: its address and how many bytes it holds (R41). -/
def dataRun (c : Ccw) (block : List Byte) (off : Nat) : Quad × Nat :=
  let count := ccwCount c
  if ccwPgl c then
    let a0 := pageEntry block 0
    let first := 4096 - a0.toNat % 4096
    if off < first then (a0 + BitVec.ofNat 64 off, min (first - off) (count - off))
    else
      let i := (off - first) / 4096 + 1
      let r := (off - first) % 4096
      (pageEntry block i + BitVec.ofNat 64 r, min (4096 - r) (count - off))
  else (ccwAddr c + BitVec.ofNat 64 off, count - off)

/-- OPERATION_END (R76): a slot in HALTING whose device-side work has ended enters POSTING; so does one whose last CCW has ended and
whose marks have all been written or parked, and one that was ended while it was in POST-HELD for a mark (R78). -/
def operationEnd (s : State) (key : Nat) : State :=
  let x := s.slot key
  if !s.engineRuns (keyEngine key) then s
  else if x.st == .halting then (if s.r76 key then s.toPosting key else s)
  else if x.st == .fetching && x.w.ending.isSome then s.settle key
  else match x.w.lastDone with
    | some n => if x.w.marks.isEmpty && (x.st == .running || x.st == .fetching) then s.endOp key chkNone x.cur n false else s
    | none => s

def execOperationEnd (e : EngineId) (k : SlotId) (s : State) : Result := .next (operationEnd s (slotKey e.val k.val))

end Sys2Proof.Machine
end

