-- ==== Sys2Proof/Machine/Ccw.lean ====
section
/-! DEFINITION. Fetching and checking CCWs: lines and snapshots (R81 to R84), the twelve steps of R70, WHEN waits
(R49 to R54), and the commands that bring a slot from ADMITTED to the execution of a CCW.
The log entries that hold here: DESIGN CHOICE 16, 56, 58, 59; DEDUCED 14, 17, 53. -/

namespace Sys2Proof.Machine

/-! ## Classes and profile entries (R35, R37, R66, R296, R297) -/

/-- The class of a CCW. `undef` is a station code that the profile does not define. -/
inductive CcwClass where
  | out | inn | exch | control | flow | mem | other | undef
deriving DecidableEq, Repr

/-- A command entry of a profile (R297). -/
structure CmdEntry where
  dfn    : Bool
  cls    : Nat
  ause   : Bool
  cmax   : Nat
  cmin   : Nat
  laneop : Nat
deriving DecidableEq, Repr

/-- Address of profile p (R296, R315). -/
def profileAddr (p : Nat) : Nat := 0x04790000 + 0x400 * p

/-- The entry at a byte offset of profile p. -/
def State.cmdEntry (s : State) (p off : Nat) : CmdEntry :=
  let a := s.reg (profileAddr p + off)
  let b := s.reg (profileAddr p + off + 4)
  { dfn := bit a 31, cls := bitsOf a 30 29, ause := bit a 28, cmax := bitsOf a 15 0, cmin := bitsOf b 31 16, laneop := bitsOf b 15 0 }

/-- Offset of the entry of an opcode: the generic entries, then the command table (R296). -/
def entryOff (op : Nat) : Nat :=
  if op = 1 then 0x08 else if op = 2 then 0x10 else if op = 3 then 0x18 else if op = 5 then 0x20
  else if op = 4 then 0x28 else 0x100 + 8 * (op - 0x20)

/-- A station command code (R66). -/
def isStationOp (op : Nat) : Bool := decide (0x20 ≤ op) && decide (op ≤ 0x7F)

/-- The entry of a CCW's opcode in the profile bound to a station. -/
def State.entryOf (s : State) (st op : Nat) : CmdEntry := s.cmdEntry (s.staProfile st) (entryOff op)

/-- The class of an opcode for a station. -/
def State.classOf (s : State) (st op : Nat) : CcwClass :=
  if op = 1 then .out
  else if op = 2 ∨ op = 4 then .inn
  else if op = 3 then .control
  else if op = 5 then .exch
  else if op = 8 ∨ op = 9 ∨ op = 10 then .flow
  else if op = 0x10 ∨ op = 0x11 ∨ op = 0x12 ∨ op = 0x18 then .mem
  else if isStationOp op then
    let en := s.entryOf st op
    if !en.dfn then .undef
    else if en.cls = 1 then .out else if en.cls = 2 then .inn else if en.cls = 3 then .exch else .other
  else .other

/-- Opcodes that R35 or R66 defines (R36). -/
def opDefined (op : Nat) : Bool :=
  [1, 2, 3, 4, 5, 8, 9, 10, 0xC, 0xD, 0x10, 0x11, 0x12, 0x18, 0x19, 0x1A, 0x1F].contains op || isStationOp op

/-- A data class (R37), with bytes to move. -/
def CcwClass.data : CcwClass → Bool
  | .out => true | .inn => true | .exch => true | .control => true | _ => false

/-- The command's entry gives no memory operand: AUSE 0 of a station command (R66). -/
def State.noAuse (s : State) (st op : Nat) : Bool := isStationOp op && !(s.entryOf st op).ause

/-- The CCW moves bytes without memory: VOID on in or out (R40), or AUSE 0 (R66). -/
def State.noMemory (s : State) (st : Nat) (c : Ccw) : Bool :=
  let cls := s.classOf st (ccwOp c)
  (ccwVoid c && (cls == .out || cls == .inn)) || (cls.data && s.noAuse st (ccwOp c))

/-- Bytes of a CCW to be moved, for REMAIN and the residual of R86. -/
def State.byteCount (s : State) (st : Nat) (c : Ccw) : Nat :=
  if (s.classOf st (ccwOp c)).data then ccwCount c else 0

/-- The flags permitted for a class (R47), as a FLAGS mask. -/
def flagMask : CcwClass → Nat
  | .out => 0xFF | .inn => 0xFF | .exch => 0xFB | .control => 0xFB | .flow => 0 | .mem => 0xF0 | .other => 0xF0 | .undef => 0xFF

/-! ## Steps 3 to 9 of R70 -/

/-- Step 5 for the WHEN field (R34, R35): reserved in flow CCWs; with MODE 0, SRC (but in POST), PCOUNT and PHASE are. -/
def whenReserved (c : Ccw) : Bool :=
  let op := ccwOp c
  if op = 8 ∨ op = 9 ∨ op = 10 then ccwWhen c != 0
  else ccwMode c == 0 && (ccwPcount c != 0 || ccwPhase c != 0 || (op != 0x18 && ccwSrc c != 0))

/-- Step 5: a reserved field is not 0, or a field holds a reserved value (R33, R34, R51, R55, R58, R64). -/
def State.reservedField (s : State) (st : Nat) (c : Ccw) : Bool :=
  let op := ccwOp c
  let a := ccwAddr c
  let p := a.toNat
  let cls := s.classOf st op
  whenReserved c ||
  (if cls = .undef then false
   else if op = 9 then
     decide (16 ≤ ccwCount c) || ccwCount c % 16 == 0 || decide (13 ≤ ccwCount c % 16) || localBad a
   else if op = 8 then ccwCount c != 0 || localBad a
   else if op = 10 then localBad a
   else if op = 0xC then
     ccwCount c != 0 || decide (2 ^ 32 ≤ p) || (p / 2 ^ 24) % 8 != 0 || decide (3 ≤ (p / 2 ^ 28) % 8)
       || (ccwMode c == 0 && (a.getLsbD 31 || a.getLsbD 27)) || (ccwMode c != 3 && p % 2 ^ 24 != 0)
   else if op = 0xD then
     ccwCount c != 0 || decide (2 ^ 32 ≤ p) || (p / 2 ^ 8) % 2 ^ 23 != 0 || (ccwMode c == 0 && a.getLsbD 31)
   else if op = 0x19 then ccwCount c != 0 || decide (64 ≤ p)
   else if op = 0x1A ∨ op = 0x1F then ccwCount c != 0 || p != 0
   else if cls = .other then p != 0
   else if cls = .control ∧ ccwCount c = 0 then p != 0
   else if s.noMemory st c then p != 0
   else localBad a)

/-- Step 6: cases 1 to 5 of R48. -/
def State.flagsBad (s : State) (st : Nat) (c : Ccw) : Bool :=
  let op := ccwOp c
  let cls := s.classOf st op
  cls != .undef &&
  ((ccwFlags c &&& (255 - flagMask cls)) != 0 || (ccwSpan c && ccwNext c) || (ccwVoid c && ccwPgl c)
    || (cls == .control && ccwCount c == 0 && (ccwFlags c &&& 0x0F) != 0)
    || (cls.data && s.noAuse st op && ccwPgl c))

/-- Step 6 for a successor of a SPAN CCW: cases 6 to 8 of R48; `first` is the OP of the chain's first CCW. -/
def succBad (first : Nat) (c : Ccw) : Bool := ccwOp c != first || ccwMode c != 0 || ccwSus c || ccwOrd c

/-- The WAIT or STRIKE takes a target relative to the mark (R50). -/
def ccwRel (c : Ccw) : Bool :=
  (ccwOp c == 0xC && (ccwAddr c).getLsbD 27) || (ccwOp c == 0xD && (ccwAddr c).getLsbD 31)

/-- EVENT and WIDTH of a WAIT (R51). -/
def ccwEvent (c : Ccw) : Nat := if ccwOp c = 0xC then ((ccwAddr c).toNat / 2 ^ 28) % 8 else 0
def ccwWidth (c : Ccw) : Nat := (ccwAddr c).toNat % 2 ^ 24
def ccwFb (c : Ccw) : Bool := ccwOp c == 0xC && (ccwAddr c).getLsbD 31

/-- Step 7: INVALID_WHEN (R35, R49 to R52). It includes a POST with MODE not 0 on a source that is not enabled: R49 gives the
check for every CCW, while R63 lets a POST of such a source run; the model takes R49 for a POST that waits on the source (DESIGN
CHOICE, notes/assumptions/58.md). -/
def State.whenBad (s : State) (x : Slot) (c : Ccw) : Bool :=
  let op := ccwOp c
  let m := ccwMode c
  if op = 8 ∨ op = 9 ∨ op = 10 ∨ m = 0 then false
  else (m == 3 && op != 0xC) || !s.srcEnabled (ccwSrc c)
    || (ccwRel c && (!x.markset || x.markSrc != ccwSrc c))
    || (op == 0xC && ((m == 1 && ccwEvent c != 0) || (m == 3 && ccwWidth c == 0)))

/-- Step 8: COUNT outside the range that R35 lists; station commands follow R67. -/
def State.countBad (s : State) (st : Nat) (c : Ccw) : Bool :=
  let op := ccwOp c
  let n := ccwCount c
  if isStationOp op then false
  else if op = 0x12 then !(n == 1 || n == 2 || n == 4 || n == 8)
  else if op = 0x10 then n != 32
  else if op = 0x18 then n != 16
  else if op = 10 ∨ op = 0x11 then n == 0
  else (s.classOf st op).data && op != 3 && n == 0

/-- Step 9: a code or COUNT outside the profile, or a generic command without a handler (R38, R67). -/
def State.profileBad (s : State) (st : Nat) (c : Ccw) : Bool :=
  let op := ccwOp c
  let en := s.entryOf st op
  if isStationOp op then !en.dfn || decide (ccwCount c < en.cmin) || decide (en.cmax < ccwCount c)
  else (op == 1 || op == 2 || op == 3 || op == 5) && !en.dfn

/-- Steps 3 to 9 of R70: the first check found. -/
def State.check39 (s : State) (key : Nat) (x : Slot) (c : Ccw) (succ : Bool) : Option Check :=
  let st := x.station
  if !opDefined (ccwOp c) then some (chkProg 0x01)
  else if ccwOp c = 0x10 ∧ keyEngine key = 64 then some (chkProg 0x10)
  else if s.reservedField st c then some (chkProg 0x02)
  else if s.flagsBad st c || (succ && ccwOp c != 8 && succBad (x.w.chainOp.getD 0) c) then some chkChaining
  else if s.whenBad x c then some (chkProg 0x09)
  else if s.countBad st c then some (chkProg 0x03)
  else if s.profileBad st c then some (chkUnit 0x01)
  else none

/-- Residual of a check at steps 3 to 9 (R86): COUNT for data classes, station commands with data, and commands that
the profile rejects. -/
def State.residual39 (s : State) (x : Slot) (c : Ccw) : Nat :=
  let cls := s.classOf x.station (ccwOp c)
  if cls.data || cls == .undef then ccwCount c else 0

/-! ## Lines and snapshots (R81 to R85) -/

/-- PREFETCH of the engine (R81, R104). -/
def State.prefetchMode (s : State) (key : Nat) : Nat :=
  if keyEngine key = 64 then bitsOf (s.reg 0x04480000) 2 1 else bitsOf (s.reg 0x04400008) 1 0

/-- Hold a further line; a slot holds at most two (R81). -/
def Work.addLine (w : Work) (l : Line) : Work := { w with lines := w.lines.drop (w.lines.length - 1) ++ [l] }

/-- Discard the lines of a slot (R83); a speculative read under way is dropped when it returns. -/
def Work.dropLines (w : Work) : Work :=
  { w with lines := [], reads := (w.reads.filter (fun r => !r.spec || r.sent != 0)).map (fun r => if r.spec then { r with len := 0, left := 0 } else r),
           inbox := w.inbox.filter (fun r => !r.1.spec) }

/-- The 16 bytes at an address, where a held line has them. -/
def Work.held (w : Work) (a : Nat) : Option Ccw :=
  match w.lines.find? (fun l => decide (l.addr ≤ a) && decide (a + 16 ≤ l.addr + l.data.length)) with
  | some l => some (ccwOf (l.data.drop (a - l.addr)))
  | none => none

/-- What the read of a CCW gives now. -/
inductive Fetched where
  | got (s : State) (c : Ccw)
  | wait (s : State)
  | fail (s : State) (c : Check)

/-- Read one CCW alone, 16 bytes (R81, R84, R85). -/
def State.fetchAlone (s : State) (key : Nat) (a : Quad) : Fetched :=
  match s.fetchBytes key a 16 with
  | .bytes s d poison => if poison then .fail s chkData else .got s (ccwOf d)
  | .wait s => .wait s
  | .fail s c => .fail s c

/-- Read the line of a CCW, or the CCW alone where the line fails (R81, R84). -/
def State.fetchCcw (s : State) (key : Nat) (a : Quad) : Fetched :=
  let x := s.slot key
  let n := a.toNat
  let line := alignDown n 64
  match x.w.held n with
  | some c => .got s c
  | none =>
    if s.prefetchMode key = 0 then s.fetchAlone key a
    else if isLocal a then
      let la := alignDown (localOf a) 64
      if s.engMay key x la 64 && !s.poisoned la 64 then
        let (s, d, _) := s.engRead key x la 64
        .got (s.setSlot key { x with w := x.w.addLine { addr := line, data := d, poison := false } }) (ccwOf (d.drop (n - line)))
      else s.fetchAlone key a
    else if x.w.reads.any (fun r => r.addr == n && r.len == 16 && !r.spec) || x.w.inbox.any (fun r => r.1.addr == n && r.1.len == 16) then
      s.fetchAlone key a
    else
      match x.w.inbox.find? (fun r => r.1.addr == line && r.1.len == 64) with
      | some (r, res) =>
        let x := { x with w := { x.w with inbox := x.w.inbox.erase (r, res) } }
        (match res with
         | .ok d =>
           let d := padTo 64 d
           .got (s.setSlot key { x with w := x.w.addLine { addr := line, data := d, poison := false } }) (ccwOf (d.drop (n - line)))
         | _ => (s.setSlot key x).fetchAlone key a)
      | none =>
        if x.w.reads.any (fun r => r.addr == line && r.len == 64) then .wait s
        else if keyEngine key = 64 then .fail s chkProtection
        else if s.canIssue x.owner then .wait (s.engHostRead key line 64 false)
        else .fail s chkInterface

/-- The speculative read of the next line (R81, R84): dropped without effect where it fails. -/
def State.speculate (s : State) (key : Nat) : State :=
  let x := s.slot key
  let n := x.cur.toNat
  let next := alignDown n 64 + 64
  let op := ccwOp x.ccw
  if s.prefetchMode key != 2 || n % 64 != 48 || next % 4096 == 0 || !(ccwNext x.ccw || ccwSpan x.ccw || op == 9 || op == 10) then s
  else if x.w.lines.any (fun l => l.addr == next) || x.w.reads.any (fun r => r.addr == next) then s
  else if isLocal x.cur then
    let la := next % 2 ^ 32
    if s.engMay key x la 64 && !s.poisoned la 64 then
      let (s, d, _) := s.engRead key x la 64
      s.setSlot key { x with w := x.w.addLine { addr := next, data := d, poison := false } }
    else s
  else if keyEngine key != 64 && s.canIssue x.owner then s.engHostRead key next 64 true
  else s

/-- LANEOP of a CCW (R298). -/
def State.laneopOf (s : State) (st : Nat) (c : Ccw) : Nat := (s.entryOf st (ccwOp c)).laneop

/-- A CONTROL of COUNT 0, or a station command without data: the lane operation alone (R37, R66). -/
def State.bareCommand (s : State) (st : Nat) (c : Ccw) : Bool :=
  (ccwOp c == 3 && ccwCount c == 0) || (isStationOp (ccwOp c) && s.classOf st (ccwOp c) == .other)

/-- That lane operation moves nothing on the lanes (R37). -/
def State.noLaneOp (s : State) (st : Nat) (c : Ccw) : Bool :=
  let fn := s.laneFunc (s.staLane st)
  fn == 1 || fn == 2 || fn == 3 || fn == 10 || s.laneopOf st c == 0

/-- The CCW performs a transfer on the station's lanes (R299). -/
def State.laneTransfer (s : State) (st : Nat) (c : Ccw) : Bool :=
  if s.bareCommand st c then !s.noLaneOp st c else (s.classOf st (ccwOp c)).data && ccwOp c != 4

/-! ## Step 10: operands -/

/-- The CCW has a page list (R41). -/
def State.usesPgl (s : State) (st : Nat) (c : Ccw) : Bool := ccwPgl c && (s.classOf st (ccwOp c)).data && !s.noMemory st c && ccwCount c != 0

/-- Read a page list, block or descriptor of `n` bytes into the slot, in at most two reads (R70 step 10 b). -/
def State.readBlock (s : State) (key : Nat) (a : Quad) (n : Nat) : Got :=
  let x := s.slot key
  let h := x.w.block.length
  if n ≤ h then .bytes s [] false
  else
    match s.fetchBytes key (a + BitVec.ofNat 64 h) (n - h) with
    | .bytes s d poison =>
      if poison then .fail s chkData
      else
        let x := s.slot key
        .bytes (s.setSlot key { x with w := { x.w with block := x.w.block ++ d } }) [] false
    | .wait s => .wait s
    | .fail s c => .fail s c

/-- Step 10 e: the engine may reach `n` data bytes at `a` (R23, R25, R68). -/
def State.reach (s : State) (key : Nat) (x : Slot) (a : Quad) (n : Nat) : Bool :=
  n == 0 || (if isLocal a then s.engMay key x (localOf a) n else keyEngine key != 64)

/-- Check the data addresses of step 10 c to e in the order of R70; `al` says whether they are aligned. -/
def State.addrChecks (s : State) (key : Nat) (x : Slot) (rsv : Bool) (al : Bool) (rs : List (Quad × Nat)) : Got :=
  if rsv || rs.any (fun r => localBad r.1) then .fail s (chkProg 0x02)
  else if !al then .fail s (chkProg 0x05)
  else
    match rs.find? (fun r => !s.reach key x r.1 r.2) with
    | some r => .fail (if isLocal r.1 then s.refusedAccess (engineMaster (keyEngine key)) (localOf r.1) else s) chkProtection
    | none => .bytes s [] false

/-- The runs of a page list (R41). -/
def pageRuns (c : Ccw) (block : List Byte) : List (Quad × Nat) :=
  let k := pageCount (pageEntry block 0) (ccwCount c)
  let first := min (4096 - (pageEntry block 0).toNat % 4096) (ccwCount c)
  (span 0 k).map (fun i =>
    if i = 0 then (pageEntry block 0, first) else (pageEntry block i, min 4096 (ccwCount c - first - 4096 * (i - 1))))

/-- Step 10 of R70 for the current snapshot. -/
def State.step10 (s : State) (key : Nat) : Got :=
  let x := s.slot key
  let c := x.ccw
  let op := ccwOp c
  let a := ccwAddr c
  let st := x.station
  if s.usesPgl st c then
    if a.toNat % 8 != 0 then .fail s (chkProg 0x05)
    else
      match s.readBlock key a 8 with
      | .bytes s _ _ =>
        (match s.readBlock key a (8 * pageCount (pageEntry (s.slot key).w.block 0) (ccwCount c)) with
         | .bytes s _ _ =>
           let x := s.slot key
           let rs := pageRuns c x.w.block
           s.addrChecks key x false ((rs.drop 1).all (fun r => r.1.toNat % 4096 == 0)) rs
         | r => r)
      | r => r
  else if op = 0x11 then
    if a.toNat % 16 != 0 then .fail s (chkProg 0x05)
    else
      match s.readBlock key a 16 with
      | .bytes s _ _ =>
        let x := s.slot key
        s.addrChecks key x false true [(leQuad x.w.block, ccwCount c), (leQuad (x.w.block.drop 8), ccwCount c)]
      | r => r
  else if op = 0x12 then
    if a.toNat % 8 != 0 then .fail s (chkProg 0x05)
    else
      match s.readBlock key a 24 with
      | .bytes s _ _ =>
        let x := s.slot key
        let n := ccwCount c
        let opnd := leQuad x.w.block
        let high := (leQuad (x.w.block.drop 8)).toNat / 2 ^ (8 * n) != 0 || (leQuad (x.w.block.drop 16)).toNat / 2 ^ (8 * n) != 0
        s.addrChecks key x high (opnd.toNat % n == 0) [(opnd, n)]
      | r => r
  else if op = 0x10 then
    if a.toNat % 32 != 0 then .fail s (chkProg 0x05)
    else if !isLocal a then .fail s (chkProg 0x0C)
    else
      match s.readBlock key a 32 with
      | .bytes s _ _ =>
        let b := (s.slot key).w.block
        if leNat ((b.drop 0).take 2) / 2 ^ 13 != 0 || leNat ((b.drop 2).take 2) == 0 || leNat ((b.drop 6).take 2) != 0 then .fail s (chkProg 0x02)
        else .bytes s [] false
      | r => r
  else if op = 0x18 then s.addrChecks key x false (a.toNat % 16 == 0) [(a, 16)]
  else if (s.classOf st op).data && !s.noMemory st c then s.addrChecks key x false true [(a, ccwCount c)]
  else .bytes s [] false

/-! ## Claims, step 11 and the WHEN wait -/

/-- The CCW has passed steps 1 to 10: it is counted, or it overruns its claim (R69, R121). -/
def Slot.ccwsOver (x : Slot) : Bool := decide (x.claimCcws < x.usedCcws + 1)

/-- A flow CCW. -/
def isFlow (c : Ccw) : Bool := ccwOp c == 8 || ccwOp c == 9 || ccwOp c == 10

/-- Step 11 of R70: the check, and the CCW that reports it (R56, R59, R86). -/
def step11 (x : Slot) : Option (Check × Quad) :=
  match ccwOp x.ccw == 8, x.w.branchFrom with
  | true, some f => some (chkProg 0x06, f)
  | _, _ =>
    if isFlow x.ccw && decide (8 ≤ x.flow) then some (chkProg 0x07, x.cur)
    else if ccwOp x.ccw == 10 && decide (1 < ccwCount x.ccw) && !(x.loops.any (fun l => l.1 == x.cur)) && decide (4 ≤ x.loops.length) then
      some (chkProg 0x08, x.cur)
    else none

/-- The position of source n had reached a target before this tick (R133). -/
def State.passed (s : State) (n target : Nat) : Bool := decide (target ≤ s.posBefore n)

/-- A tick converted to local time came before this one (R133, R145). -/
def State.agoAt (s : State) (t : Nat) : Bool := decide (t ≤ s.prevTime) && decide (t < s.time)

/-- The target of a CCW with MODE not 0, fixed on the tick of step 7 (R50, R134). -/
def State.whenTarget (s : State) (x : Slot) (c : Ccw) : Nat :=
  if ccwRel c then x.markPos + ccwPcount c * 4096 + ccwPhase c
  else extendCount (s.pos (ccwSrc c) / 4096) (ccwPcount c) * 4096 + ccwPhase c

/-- Convert a WAIT's targets to local time; FALLBACK sets (R54, R145). -/
def State.toLocalTime (s : State) (key : Nat) : State :=
  let x := s.slot key
  let n := ccwSrc x.ccw
  s.setSlot key { x with
    fallback := true
    w := { x.w with localAt := x.w.target.map (s.localTime n), localEnd := x.w.winEnd.map (s.localTime n) } }

/-- A WAIT reaches a source that is already tempo-lost: it converts on arrival (R54, R145). A window whose end has passed is
TEMPO_MISSED, as R52 has it on those ticks; an at target that has passed ends the WAIT with FALLBACK at once, since R145 lets it
follow R52 "including when a converted tick has already passed": the model's choice over R49 (DESIGN CHOICE,
notes/assumptions/59.md). -/
def State.enterLocal (s : State) (key : Nat) : State :=
  let s := s.toLocalTime key
  let x := s.slot key
  if ccwMode x.ccw == 3 && x.w.localEnd.any s.agoAt then s.checkNow key (chkProg 0x0A)
  else s.setSlot key { x with st := .waiting }

/-- A CCW reaches its WHEN wait, after step 11 (R49, R52, R54). -/
def State.enterWhen (s : State) (key : Nat) : State :=
  let x := s.slot key
  let c := x.ccw
  let n := ccwSrc c
  let t := x.w.target.getD 0
  let s1 := s.setSlot key { x with st := .waiting }
  if ccwMode c = 0 then s1
  else if s.tempoLost n then
    if ccwFb c then s.enterLocal key else s.checkNow key chkTempoLost
  else if ccwMode c = 1 ∧ s.passed n t then s.checkNow key (chkProg 0x0A)
  else if ccwMode c = 3 ∧ s.passed n (x.w.winEnd.getD 0) then s.checkNow key (chkProg 0x0A)
  else s1

/-- A CCW that has passed steps 1 to 9 goes through steps 10 and 11 and the claim test, and then executes or waits.
A CCW with a WHEN condition or event stays in FETCHING until step 11 has passed. -/
def State.afterChecks (s : State) (key : Nat) : State :=
  match s.step10 key with
  | .wait s =>
    let x := s.slot key
    s.setSlot key { x with w := { x.w with op10 := true } }
  | .fail s c => s.checkNow key c
  | .bytes s _ _ =>
    let x := s.slot key
    let x := { x with w := { x.w with op10 := false } }
    let s := s.setSlot key x
    if x.ccwsOver then s.checkNow key chkOverrun
    else
      match step11 x with
      | some (c, a) => s.endOp key c a x.residue (s.xferOf x.station key).isSome
      | none =>
        let x := { x with usedCcws := x.usedCcws + 1, flow := (if isFlow x.ccw then x.flow + 1 else 0) }
        let s := (s.setSlot key { x with w := { x.w with branchFrom := none } }).speculate key
        let s := if isFlow x.ccw || s.laneTransfer x.station x.ccw then s else s.busStop (s.staLane x.station)
        if ccwMode x.ccw = 0 ∧ ccwEvent x.ccw = 0 then s.setSlot key { s.slot key with st := .running }
        else if isFlow x.ccw then s.setSlot key { s.slot key with st := .running }
        else s.enterWhen key

/-- Take the snapshot, which the slot's record keeps, act on a suspend request at a SUS point (R45), and check steps 3 to 9 (R70, R82). -/
def State.takeSnapshot (s : State) (key : Nat) (c : Ccw) : State :=
  let s := s.hwWrite (slotAddr key)
  let x := s.slot key
  let x := { x with ccw := c, remain := s.byteCount x.station c, w := { x.w with snapped := true, block := [] } }
  if ccwSus c && x.susreq then s.setSlot key { x with st := .suspended, susreq := false }
  else
    match s.check39 key x c false with
    | some chk => (s.setSlot key x).endOp key chk x.cur (s.residual39 x c) false
    | none =>
      let tgt := if ccwMode c = 0 ∨ isFlow c then none else some (s.whenTarget x c)
      let st := if (ccwMode c = 0 ∧ ccwEvent c = 0) ∨ isFlow c then SlotSt.running else SlotSt.fetching
      (s.setSlot key { x with
        st := st
        w := { x.w with
          chainOp := some (ccwOp c), target := tgt
          winEnd := (if ccwMode c = 3 then tgt.map (· + ccwWidth c) else none) } }).afterChecks key

/-! ## Successors of a SPAN CCW (R42) -/

/-- A later member fails a check: reported at that member with its full COUNT; the station is handled as under R94. -/
def State.memberFails (s : State) (key : Nat) (c : Check) (count : Nat) : State :=
  let x := s.slot key
  s.endOp key c x.w.succAddr count true

/-- Move on to the member just fetched: CUR and the snapshot advance. -/
def State.nextMember (s : State) (key : Nat) (c : Ccw) : State :=
  let x := s.slot key
  s.setSlot key { x with
    cur := x.w.succAddr, ccw := c, remain := s.byteCount x.station c
    w := { x.w with snapped := true, block := [], moved := 0, marked := false, chainPos := x.w.chainPos + ccwCount x.ccw } }

/-- Claim test and advance of a member that has passed steps 1 to 10, or of the one JUMP between members (R42, R121). -/
def State.memberPasses (s : State) (key : Nat) : State :=
  let x := s.slot key
  let x := { x with w := { x.w with op10 := false } }
  let s := s.setSlot key x
  if x.ccwsOver then s.endOp key chkOverrun x.cur x.remain true
  else
    let s := (s.setSlot key { x with usedCcws := x.usedCcws + 1, flow := 0, w := { x.w with succ := false } }).speculate key
    match s.xferOf x.station key with
    | some t =>
      let n := ccwCount x.ccw
      (s.setXfer (s.staLane x.station) (some { t with
        want := (if t.inn then t.want + n else t.want), owe := (if t.out then t.owe + n else t.owe) })).timerUpdate key
    | none => s

/-- Step 10 of a later member. -/
def State.memberStep10 (s : State) (key : Nat) : State :=
  match s.step10 key with
  | .wait s =>
    let x := s.slot key
    s.setSlot key { x with w := { x.w with op10 := true } }
  | .fail s c => s.endOp key c (s.slot key).cur (s.slot key).remain true
  | .bytes s _ _ => s.memberPasses key

/-- Check a fetched successor: a JUMP leads on to its target; any other CCW is the next member (R42, R48, R56). -/
def State.checkMember (s : State) (key : Nat) (c : Ccw) : State :=
  let x := s.slot key
  match s.check39 key x c true with
  | some chk => s.memberFails key chk (s.residual39 x c)
  | none =>
    if ccwOp c = 8 then
      if x.ccwsOver then s.memberFails key chkOverrun 0
      else if x.w.branchFrom.isSome then s.endOp key (chkProg 0x06) (x.w.branchFrom.getD 0#64) 0 true
      else s.setSlot key { x with
        usedCcws := x.usedCcws + 1
        w := { x.w.dropLines with branchFrom := some x.w.succAddr, succAddr := ccwAddr c } }
    else (((s.setSlot key { x with w := { x.w with branchFrom := none } }).nextMember key c).memberStep10 key)

/-! ## Commands -/

/-- The engine reads the slot's own record: where it is uncorrectable, the slot ends with INTERFACE_CHECK, last-CCW address 0 and
residual 0 (R101, R330); true where the slot goes on. -/
def State.readRecord (s : State) (key : Nat) : State × Bool :=
  let a := slotAddr key
  let bad := s.hwBad a
  let s := s.hwCheck a (engineMaster (keyEngine key)) (slotOwner (s.slot key))
  if bad then (s.endOp key chkInterface 0#64 0 false, false) else (s, true)

/-- STATION_ACQUIRE (R73): the station is free and the slot is the first accepted of those that wait for it; the slot
enters FETCHING and its busy time starts. A station whose descriptor reads uncorrectable ends it (R330). -/
def stationAcquire (s : State) (key : Nat) : State :=
  let x := s.slot key
  if x.st != .admitted || !s.engineRuns (keyEngine key) || !(s.holders x.station).isEmpty
      || (s.waiters x.station).any (fun (_, y) => decide (y.w.order < x.w.order)) then s
  else
    match s.readRecord key with
    | (s, false) => s
    | (s, true) =>
      (s.setSlot key { x with
        st := .fetching, busyBase := 0, busyFrom := some s.time
        w := { x.w with holding := true, busyMark := s.time } }).readDescriptor key

def execStationAcquire (e : EngineId) (k : SlotId) (s : State) : Result := .next (stationAcquire s (slotKey e.val k.val))

/-- CCW_FETCH (R82): the read of a CCW or line returns; the snapshot is taken and checked. -/
def ccwFetch (s : State) (key : Nat) : State :=
  let x := s.slot key
  if !s.engineRuns (keyEngine key) || x.w.ending.isSome || x.w.lastDone.isSome then s
  else if x.st = .running ∧ x.w.succ ∧ !x.w.op10 then
    let a := x.w.succAddr
    if a.toNat % 16 != 0 then s.memberFails key (chkProg 0x04) 0
    else if localBad a then s.memberFails key (chkProg 0x02) 0
    else match s.fetchCcw key a with
      | .got s c => s.checkMember key c
      | .wait s => s
      | .fail s c => s.memberFails key c 0
  else if x.w.op10 ∧ (x.st = .running ∨ x.st = .fetching) then
    if x.w.succ then s.memberStep10 key else s.afterChecks key
  else if x.st = .fetching then
    let a := if x.usedCcws = 0 ∧ x.cur = 0#64 then x.prog else x.cur
    match s.readRecord key with
    | (s, false) => s
    | (s, true) =>
    let s := s.setSlot key { x with cur := a }
    if a.toNat % 16 != 0 then s.endOp key (chkProg 0x04) a 0 false
    else if localBad a then s.endOp key (chkProg 0x02) a 0 false
    else match s.fetchCcw key a with
      | .got s c => s.takeSnapshot key c
      | .wait s => s
      | .fail s c => s.endOp key c a 0 false
  else s

def execCcwFetch (e : EngineId) (k : SlotId) (s : State) : Result := .next (ccwFetch s (slotKey e.val k.val))

/-- The event of a WAIT holds (R51, R52): 1 ATTN, 2 INBOUND. INBOUND counts a partial word that no consumer sees yet (log entry
22): whether R51's "not empty" does is open (DESIGN CHOICE, notes/assumptions/56.md). -/
def State.eventHolds (s : State) (x : Slot) : Bool :=
  match ccwEvent x.ccw with
  | 1 => (s.station x.station).latch
  | 2 =>
    let f := s.fifo (2 * s.staLane x.station)
    !f.words.isEmpty || !f.part.isEmpty
  | _ => true

/-- A target has fallen due (R133), on local time where the WAIT has fallen back (R145). -/
def State.targetDue (s : State) (x : Slot) : Bool :=
  match x.w.localAt with
  | some t => decide (t ≤ s.time)
  | none => decide (x.w.target.getD 0 ≤ s.pos (ccwSrc x.ccw))

/-- The target fell due on an earlier tick. -/
def State.targetPassed (s : State) (x : Slot) : Bool :=
  match x.w.localAt with
  | some t => s.agoAt t
  | none => s.passed (ccwSrc x.ccw) (x.w.target.getD 0)

/-- The window's end has been reached, or has passed. -/
def State.endDue (s : State) (x : Slot) : Bool :=
  match x.w.localEnd with
  | some t => decide (t ≤ s.time)
  | none => decide (x.w.winEnd.getD 0 ≤ s.pos (ccwSrc x.ccw))

def State.endPassed (s : State) (x : Slot) : Bool :=
  match x.w.localEnd with
  | some t => s.agoAt t
  | none => s.passed (ccwSrc x.ccw) (x.w.winEnd.getD 0)

/-- The condition of a WAITING slot is met now (R49, R52, R53), or was met on an earlier tick on which its engine had no launch
left (R124). -/
def State.whenHolds (s : State) (x : Slot) : Bool :=
  x.w.met || match ccwMode x.ccw with
  | 0 => s.eventHolds x
  | 1 => s.targetDue x
  | 2 => s.targetDue x && s.eventHolds x
  | _ => s.targetDue x && s.eventHolds x && (ccwEvent x.ccw == 0 || !s.endPassed x)

/-- The tempo mark that a met condition sets (R50). -/
def State.setMark (s : State) (x : Slot) : Slot :=
  let n := ccwSrc x.ccw
  let p := match ccwMode x.ccw with
    | 1 => x.w.target.getD 0
    | 2 => if s.targetPassed x then s.pos n else x.w.target.getD 0
    | _ => s.pos n
  if ccwMode x.ccw = 0 then x else { x with markset := true, markSrc := n, markPos := p }

/-- Launches that an engine makes on one tick: 4, and 1 on CE-A (R124). -/
def launchLimit (e : Nat) : Nat := if e = 64 then 1 else 4

/-- Slot x comes before slot y where launches are short (R124): by deadline, then in acceptance order. -/
def Slot.sooner (x y : Slot) : Bool :=
  decide (x.deadline.toNat < y.deadline.toNat) || (x.deadline == y.deadline && decide (x.w.order < y.w.order))

/-- The engine makes the launch of this slot on this tick: its launches so far and the met slots that come before leave one
(R124). -/
def State.mayLaunch (s : State) (key : Nat) : Bool :=
  let x := s.slot key
  let e := keyEngine key
  let before := (s.busySlots.filter (fun (k, y) =>
    keyEngine k == e && k != key && y.st == .waiting && y.sooner x && s.whenHolds y)).length
  decide (SMap.get 0 s.launched e + before < launchLimit e)

/-- The condition of a WAITING slot is met on this tick (R50, R53, R57): mark, ZERO_MARGIN and condition state, set once. -/
def State.meet (s : State) (x : Slot) : Slot :=
  if x.w.met then x
  else
    let tie := ccwOp x.ccw == 0xC && ccwMode x.ccw == 3 && ccwEvent x.ccw != 0 && s.endDue x
    let y := s.setMark x
    let wait := ccwOp x.ccw == 0xC
    { y with
      cstat := y.cstat ||| bitWord 7 tie
      timeout := (if wait then false else y.timeout), fallback := (if wait then y.w.localAt.isSome else y.fallback)
      w := { y.w with met := true } }

/-- WHEN_MET (R49, R124): a WAITING CCW's condition or event is met and its action starts, now or on one of the following ticks,
on which WHEN_MET comes again. -/
def whenMet (s : State) (key : Nat) : State :=
  let x := s.slot key
  if x.st != .waiting || !s.engineRuns (keyEngine key) || !s.whenHolds x then s
  else
    let y := s.meet x
    if s.mayLaunch key then
      let e := keyEngine key
      { s.setSlot key { y with st := .running } with launched := SMap.set 0 s.launched e (SMap.get 0 s.launched e + 1) }
    else s.setSlot key y

/-- WINDOW_END (R52): a WAIT's window ends without its event; TIMEOUT is set. -/
def windowEnd (s : State) (key : Nat) : State :=
  let x := s.slot key
  if x.st != .waiting || x.w.met || !s.engineRuns (keyEngine key) || ccwOp x.ccw != 0xC || ccwMode x.ccw != 3 || ccwEvent x.ccw == 0
      || !s.endDue x || (s.eventHolds x && !s.endPassed x) then s
  else
    let y := s.setMark x
    s.setSlot key { y with st := .running, timeout := true, fallback := y.w.localAt.isSome, w := { y.w with met := true } }

/-- A read of which no request has gone out yet has no answer (R221). -/
def HostRead.unsent (r : HostRead) : Bool := r.sent == 0 && r.left != 0

/-- HOST_READ_COMPLETION (R85): the oldest host read of an operation is answered. A speculative line is held, or
dropped without effect (R84). The answer is that of the whole read: the requests that waited for room under R221 went out as the earlier
ones were answered. -/
def hostReadCompletion (s : State) (key : Nat) (res : HostResult) : State :=
  let x := s.slot key
  match x.w.reads with
  | [] => s
  | r :: rest =>
    if r.unsent && res != .noTunnel then s
    else
    let w := { x.w with reads := rest }
    let s := match res with | .ok _ => s.sendReads x.owner r.addr r.len r.sent r.left | _ => s
    let s := (s.jHostRead x.owner r.addr res).timedOut x.owner res
    if r.spec then
      match res with
      | .ok d =>
        if r.len = 0 then s.setSlot key { x with w := w }
        else s.setSlot key { x with w := w.addLine { addr := r.addr, data := padTo 64 d, poison := false } }
      | _ => s.setSlot key { x with w := w }
    else s.setSlot key { x with w := { w with inbox := w.inbox ++ [(r, res)] } }

end Sys2Proof.Machine
end

