-- ==== Sys2Proof/Machine/StrikeOps.lean ====
section
/-! DEFINITION. Strike groups (R149 to R155): launches, their actions at the balls, and their ends.
The log entries that hold here: DESIGN CHOICE 71, 72; PRESUMED 79; DEDUCED 25, 80. -/

namespace Sys2Proof.Machine

/-- TP_SGg_CTRL and TP_ACTi (R158, R159). -/
def sgCtrl (g : Nat) : Nat := 0x04501000 + 8 * g
def sgLast (g : Nat) : Nat := 0x04501004 + 8 * g
def actAddr (i : Nat) : Nat := 0x04502000 + 4 * i

def State.sgArmed (s : State) (g : Nat) : Bool := bit (s.reg (sgCtrl g)) 31
def State.sgOwner (s : State) (g : Nat) : Nat := bitsOf (s.reg (sgCtrl g)) 28 24

/-- The entries of a group whose CTRL holds v: lane, action code, parameter. -/
def State.sgEntries (s : State) (v : Word) : List (Nat × Nat × Nat) :=
  (span (bitsOf v 10 0) (bitsOf v 17 11)).map (fun i =>
    let a := s.reg (actAddr i)
    (bitsOf a 6 0, bitsOf a 11 8, bitsOf a 31 16))

/-- The action suits the lane's function (R151). -/
def actSuits (act fn : Nat) : Bool :=
  if 1 ≤ act ∧ act ≤ 5 then fn == 1
  else if act = 6 then fn == 1 || fn == 3
  else if act = 7 ∨ act = 8 then fn == 8 || fn == 9 || fn == 10
  else if act = 9 then fn == 2
  else false

/-- An output action of R154: one that drives a lane's level, or starts a PWM period; GATE_OPEN, GATE_CLOSE and CAPTURE are none (the
rule does not list them: DESIGN CHOICE, notes/assumptions/71.md). -/
def actOutput (act : Nat) : Bool := decide (1 ≤ act) && decide (act ≤ 5) || act == 9

/-- PARAM is in range for the action (R150, R151). -/
def actParamOk (act param : Nat) : Bool := if act = 4 ∨ act = 5 then param != 0 else param == 0

/-- The group that CTRL value v describes may be armed (R150). -/
def State.armOk (s : State) (v : Word) : Bool :=
  let es := s.sgEntries v
  decide (1 ≤ bitsOf v 17 11) && decide (bitsOf v 17 11 ≤ 96) && decide (bitsOf v 10 0 + bitsOf v 17 11 ≤ 2048) &&
    decide (bitsOf v 28 24 ≤ 16) &&
    es.all (fun (l, act, p) => decide (l ≤ 95) && decide (1 ≤ act) && decide (act ≤ 9) && actParamOk act p && actSuits act (s.laneFunc l)) &&
    decide ((es.map (fun e => e.1)).Nodup)

/-- A pulse on lane l ends now: the lane goes to its other level, and the action that began it is complete (R151). -/
def State.endPulse (s : State) (l : Nat) : State :=
  let x := s.lane l
  match x.pulse with
  | some (_, after) => (((s.setLane l { x with pulse := none }).driveLane l (if after then .high else .low)).actionDone l)
  | none => s

/-- A launch of group g on this tick for a slot (R152 to R154): one launch per tick; TP_SGg_LAST records the tick; a
ONESHOT group disarms. A pulse of an earlier launch on a lane of one of its output actions ends on this tick, at the pulse's other level
(DESIGN CHOICE for the level until the new action reaches the ball, notes/assumptions/72.md). -/
def State.launch (s : State) (key g : Nat) : State :=
  if s.launches.any (fun x => x.group == g && x.at_ == s.time) then
    { s with launches := s.launches.map (fun x =>
        if x.group == g && x.at_ == s.time then { x with owners := x.owners ++ [key] } else x) }
  else
    let v := s.reg (sgCtrl g)
    let s := s.setReg (sgLast g) (t0Word s.time)
    let s := if bit v 30 then s.setReg (sgCtrl g) (v &&& 0x7FFFFFFF#32) else s
    let s := (s.sgEntries v).foldl (fun t e => if actOutput e.2.1 then t.endPulse e.1 else t) s
    { s with launches := s.launches ++ [{ group := g, at_ := s.time, owners := [key], done := false, open_ := [], entries := s.sgEntries v }] }

/-- Count a launch in the digest of its operation (R493). -/
def State.countLaunch (s : State) (key : Nat) : State :=
  let x := s.slot key
  s.setSlot key { x with w := { x.w with nlaunch := x.w.nlaunch + 1 } }

/-- STRIKE may launch the group: armed, or launched and disarmed on this tick, by the operation's owner (R55, R154). -/
def State.mayStrike (s : State) (x : Slot) (g : Nat) : Bool :=
  (s.sgArmed g || s.launches.any (fun y => y.group == g && y.at_ == s.time)) && s.sgOwner g == x.owner

/-- Bytes after which a transfer may stop (R284). -/
def State.stopUnit (s : State) (l st : Nat) : Nat :=
  let fn := s.laneFunc l
  if fn = 8 then 2 ^ bitsOf (s.reg (profileAddr (s.staProfile st))) 5 4
  else if fn = 10 then 4 * (bitsOf (s.laneCfg l) 31 28 + 1)
  else itemBytes fn

/-- A lane engine cannot move an item now: nothing to send, no room, or held at the gate (R286). -/
def State.laneStalled (s : State) (l : Nat) (t : Xfer) : Bool :=
  !t.started || s.atGate l ||
    (t.out && t.lead.isEmpty && (s.fifo (2 * l + 1)).words.isEmpty && (s.fifo (2 * l + 1)).part.isEmpty) ||
    (t.inn && !t.out && (t.want == 0 || s.fifoFull (2 * l) (itemBytes (s.laneFunc l))))

/-- The record of a CAPTURE at tick t with level b (R299). -/
def captureRecord (t : Nat) (b : Bool) : Word :=
  putBits (BitVec.ofNat 32 (t0At t % 2 ^ 31)) 31 31 (if b then 1 else 0)

/-- One action of a launch of tick k reaches its ball; true where it stays open (R151, R155). A lane that ignores its function for
VMISMATCH (R277) suits no action. TOGGLE inverts the driven level; an
open-drain output that is released drives high. -/
def State.strikeAction (s : State) (k l act param : Nat) : State × Bool :=
  if s.forcedSafe || !actSuits act (s.laneFunc l) || !s.domOn (pgDom (l / 12)) || s.laneDark l then (s.setStatus 0x04500004 0x10#32, false)
  else
    let x := s.lane l
    let s := if actOutput act && x.pulse.isSome then (s.setLane l { x with pulse := none }).actionDone l else s
    match act with
    | 1 => (s.driveLane l .low, false)
    | 2 => (s.driveLane l .high, false)
    | 3 => (s.driveLane l (if x.drive = .high ∨ (bit (s.laneCfg l) 15 ∧ x.drive ≠ .low) then .low else .high), false)
    | 4 =>
      let s := s.driveLane l .high
      (s.setLane l { s.lane l with pulse := some (s.time + param * s.tickLen, false) }, true)
    | 5 =>
      let s := s.driveLane l .low
      (s.setLane l { s.lane l with pulse := some (s.time + param * s.tickLen, true) }, true)
    | 6 => (s.setReg (laneFnAddr l + 0x10) (captureRecord k x.ball), false)
    | 7 =>
      (match x.xfer with
       | some t =>
         let u := ((s.setLane l { s.lane l with gateOpen := true, closing := false, xfer := some { t with started := true } }).actionFree l).gateTimer l
         (if t.started then u else u.sendHead l, false)
       | none => (s, false))
    | 8 =>
      (match x.xfer with
       | some t =>
         if !x.gateOpen then (s, false)
         else if s.laneStalled l t && t.count % s.stopUnit l t.station == 0 then (s.shutGate l, false)
         else (s.setLane l { s.lane l with closing := true }, true)
       | none => (s, false))
    | _ => (s.setLane l { x with pwmFrom := s.time, duty := x.dutyNext.or x.duty, dutyNext := none }, false)

/-- The latency from launch to ball (R152). -/
def State.strikeLatency (s : State) : Nat := (if s.tickAon then 1 else 4) * s.tickLen

/-- Output actions of other launches of the same tick meet one of these lanes (R154). -/
def State.collides (s : State) (g k : Nat) (es : List (Nat × Nat × Nat)) : Bool :=
  s.launches.any (fun x => x.group != g && x.at_ == k && !x.done &&
    x.entries.any (fun (l, act, _) =>
      actOutput act && es.any (fun (m, b, _) => m == l && actOutput b)))

/-- STRIKE_ACTION_EFFECT (R152): the actions of a launch take effect at their balls; launches of one tick take effect
in ascending group number (R154). -/
def strikeActionEffect (s : State) (g : Nat) : State :=
  match s.launches.find? (fun x => x.group == g && !x.done && decide (x.at_ + s.strikeLatency ≤ s.time)) with
  | none => s
  | some x =>
    if s.launches.any (fun y => !y.done && y.at_ == x.at_ && decide (y.group < g)) then s
    else
      let es := x.entries
      let s := if s.collides g x.at_ es then s.setStatus 0x04500004 0x20#32 else s
      let (s, op) := es.foldl (fun (p : State × List Nat) (l, act, param) =>
        let (t, o) := p.1.strikeAction x.at_ l act param
        (t, if o then p.2 ++ [l] else p.2)) (s, [])
      State.endLaunches { s with launches := s.launches.map (fun y =>
        if y.group == g && y.at_ == x.at_ then { y with done := true, open_ := op } else y) }

def execStrikeActionEffect (g : GroupId) (s : State) : Result := .next (strikeActionEffect s g.val)

/-- PULSE_END (R151): a pulse's width has passed; the lane goes to its other level and the action is complete. -/
def pulseEnd (s : State) (l : Nat) : State :=
  let x := s.lane l
  match x.pulse with
  | some (t, _) => if t ≤ s.time then s.endPulse l else s
  | none => s

def execPulseEnd (l : LaneId) (s : State) : Result := .next (pulseEnd s l.val)

end Sys2Proof.Machine
end

