-- ==== Sys2Proof/Machine/CcwExec.lean ====
section
/-! DEFINITION. What each CCW does once it executes (chapter 02): one command per opcode class. A data CCW's command
may be given again while its transfer goes on; it moves what can be moved now.
The log entries that hold here: DESIGN CHOICE 2, 16, 57; DEDUCED 8, 15, 18. -/

namespace Sys2Proof.Machine

/-! ## Starting -/

/-- Everything that ORD waits for is complete: no data write of the owner is still held (R46, R230). -/
def State.ordReady (s : State) (x : Slot) : Bool :=
  !(s.held.any (fun o => match o with | .hostWrite f _ _ _ _ => f == x.owner | _ => false))

/-- The slot executes a CCW whose opcode satisfies `p`: RUNNING, or running to its end under a function reset (R79, R93); checked, its
WHEN condition met, ORD satisfied. -/
def State.executes (s : State) (key : Nat) (p : Nat → Bool) : Bool :=
  let x := s.slot key
  (x.st == .running || x.w.haltRuns) && x.w.snapped && !x.w.op10 && !x.w.ccwDone && s.engineRuns (keyEngine key) && p (ccwOp x.ccw) &&
    (isFlow x.ccw || (ccwMode x.ccw == 0 && ccwEvent x.ccw == 0) || x.w.met || x.w.loaded || x.w.chainPos != 0) &&
    (!ccwOrd x.ccw || x.w.loaded || s.ordReady x)

/-! ## Transfers (R37, R285, R294, R298, R299) -/

/-- Bytes that go out before the data (R298). -/
def leadBytes (fn laneop : Nat) : List Byte :=
  let b := [BitVec.ofNat 8 (laneop / 256)]
  if fn = 8 ∨ fn = 4 ∨ fn = 6 ∨ fn = 9 then (if laneop.testBit 7 then b else []) else []

/-- What forbids a transfer at its start: SAFE_STATE, DOMAIN_OFF, LANE_CONFIG (R294, R302). -/
def State.transferBar (s : State) (st : Nat) (out inn : Bool) : Option Nat :=
  let l := s.staLane st
  if s.forcedSafe then some 8
  else if !s.domOn (pgDom (l / 12)) then some 0x0B
  else if (out && !s.fifoEn (2 * l + 1)) || (inn && !s.fifoEn (2 * l)) then some 0x0A
  else none

/-- Issue the transfer of the current CCW to the lane engine; the response timer starts (R98). What the station reported for an
earlier command, STATION_END and a unit exception, leaves the status (R86, R87). -/
def State.loadXfer (s : State) (key : Nat) : State :=
  let x := s.slot key
  let c := x.ccw
  let st := x.station
  let l := s.staLane st
  let cls := s.classOf st (ccwOp c)
  let data := cls.data && ccwCount c != 0
  let out := data && (cls == .out || cls == .exch || cls == .control)
  let inn := data && (cls == .inn || cls == .exch)
  match s.transferBar st out inn with
  | some r =>
    let s := if r = 8 then s.senseFlag st 6 else s
    s.endOp key (chkUnit r) x.cur x.residue true
  | none =>
    if s.hwBad (descAddr st) then s.readDescriptor key
    else
    let s := s.readDescriptor key
    let lo := s.laneopOf st c
    let fn := s.laneFunc l
    let s := if (s.lane l).busKept then (s.setLane l { s.lane l with busKept := false }).emit (.busEnd l 1) else s
    let s := if fn = 9 ∧ lo.testBit 6 then s.emit (.busEnd l 2) else s
    let gated := gateFn fn && bit (s.laneCfg l) 23
    let t : Xfer := {
      station := st, key := key, out := out, inn := inn, laneop := lo, started := !gated,
      lead := leadBytes fn lo, want := (if inn then ccwCount c else 0), owe := (if out then ccwCount c else 0),
      count := 0, stopping := false }
    let s := s.setLane l { s.lane l with
      xfer := some t, gateOpen := false, closing := false, streamOn := (s.lane l).streamOn || (fn == 10 && lo.testBit 0),
      frame := if (s.lane l).streamOn then (s.lane l).frame else 0 }
    let s := if gated then s else s.sendHead l
    let x := s.slot key
    (s.setSlot key { x with
      ustat := x.ustat &&& 0xFFFFFFFA#32
      w := { x.w with loaded := true, timerFrom := some s.time, timerUsed := 0 } }).timerUpdate key

/-- The bytes left of the byte claim (R121). -/
def Slot.claimLeft (x : Slot) : Nat := x.claimBytes - x.usedBytes

/-- The count of a chain member is exhausted: its mark is due (R44), and its successor is fetched (R42). -/
def State.memberDone (s : State) (key : Nat) : State :=
  let s := if ccwPmk (s.slot key).ccw && !(s.slot key).w.marked then s.addMark key 0 else s
  let x := s.slot key
  s.setSlot key { x with w := { x.w with succ := true, succAddr := nextAddr x.cur } }

/-- A data chain has ended (R39, R43, R57). -/
def State.finishData (s : State) (key : Nat) (how : XferEnd) : State :=
  let x := s.slot key
  let c := x.ccw
  if x.remain ≠ 0 then
    if ccwLenok c then
      (s.setSlot key { x with short := true, flow := 0 }).endCcw key x.remain (ccwNext c && !ccwSpan c) (nextAddr x.cur) none
    else s.checkNow key (chkProg 0x0B)
  else if ccwSpan c then s.memberDone key
  else if how = .remoteMore ∧ !ccwLenok c then s.checkNow key (chkProg 0x0B)
  else
    let s := if how = .remoteMore then s.flushFifo (2 * s.staLane x.station) else s
    (s.setSlot key { x with short := false }).ccwEnded key 0

/-- The inbound FIFO of a station holds nothing. -/
def State.inboundEmpty (s : State) (st : Nat) : Bool :=
  let f := s.fifo (2 * s.staLane st)
  f.words.isEmpty && f.part.isEmpty

/-- After bytes have moved: a SPAN member that is exhausted asks for its successor (R42); a transfer that the station
has ended finishes the chain once what it delivered has been taken. -/
def State.dataProgress (s : State) (key : Nat) : State :=
  let x := s.slot key
  if x.st != .running || !x.w.snapped || x.w.succ || x.w.op10 || x.w.ccwDone || !s.engineRuns (keyEngine key) then s
  else
    let inn := match s.classOf x.station (ccwOp x.ccw) with | .inn => true | .exch => true | _ => false
    match x.w.xferEnd with
    | some how => if x.remain = 0 ∨ !inn ∨ ccwOp x.ccw = 4 ∨ s.inboundEmpty x.station then s.finishData key how else s
    | none =>
      if x.remain = 0 ∧ ccwSpan x.ccw ∧ ccwCount x.ccw ≠ 0 then (s.memberDone key).timerUpdate key else s

/-- The length of a host read already made for the data at an address, else the length asked for now. -/
def Work.readLen (w : Work) (a : Quad) (n : Nat) : Nat :=
  match (w.inbox.map (fun r => r.1) ++ w.reads).find? (fun r => r.addr == a.toNat && !r.spec) with
  | some r => r.len
  | none => n

/-- Pass bytes of an out, exchange or CONTROL CCW to the outbound FIFO while there is room (R37, R40); `fuel` bounds
the runs of its page list. The last word of each member is closed, so that the station runs through it before the next (R42). -/
def State.dataOut (s : State) (key : Nat) : Nat → State
  | 0 => s
  | k + 1 =>
    let x := s.slot key
    let c := x.ccw
    let l := s.staLane x.station
    let q := 2 * l + 1
    if x.st != .running || ccwCount c ≤ x.w.moved then s
    else
      let (a, run) := dataRun c x.w.block x.w.moved
      let left := ccwCount c - x.w.moved
      let n := min left (s.fifoRoom q)
      if n = 0 then s
      else if s.noMemory x.station c then
        let s := (s.pushBytes q (rep n 0#8) false).passDigest key (rep n 0#8)
        let x := s.slot key
        let s := s.setSlot key { x with w := { x.w with moved := x.w.moved + n } }
        let s := if x.w.moved + n = ccwCount c then s.closePacket q else s
        State.dataOut s key k
      else
        let n := x.w.readLen a (min n run)
        match s.fetchBytes key a n with
        | .wait s => s
        | .fail s chk => s.checkNow key chk
        | .bytes s d poison =>
          if poison then s.checkNow key chkData
          else
            let s := (s.pushBytes q d false).passDigest key d
            let x := s.slot key
            let s := s.setSlot key { x with w := { x.w with moved := x.w.moved + n } }
            let s := if x.w.moved + n = ccwCount c then s.closePacket q else s
            State.dataOut s key k

/-- The lanes have delivered every byte of an inbound member that another member follows: the station pauses until the engine
has taken them and checked that member (R42). -/
def State.memberDelivered (s : State) (key : Nat) : Bool :=
  let x := s.slot key
  ccwSpan x.ccw && (match s.xferOf x.station key with | some t => t.inn && t.want == 0 | none => false)

/-- Take bytes of an in or exchange CCW from the inbound FIFO and store them (R37, R40, R121, R311). -/
def State.dataIn (s : State) (key : Nat) : Nat → State
  | 0 => s
  | k + 1 =>
    let x := s.slot key
    let c := x.ccw
    let q := 2 * s.staLane x.station
    if (x.st != .running && x.st != .halting) || x.remain = 0 then s
    else
      let asks := streamFn (s.laneFunc (s.staLane x.station)) && (s.fifo q).words.isEmpty && !(s.fifo q).part.isEmpty
      let s := if asks || s.memberDelivered key then s.closePacket q else s
      if (s.fifo q).words.isEmpty || !s.mayTake q then s
      else if x.claimLeft = 0 then s.endOp key chkOverrun x.cur x.haltResidue true
      else
        let off := ccwCount c - x.remain
        let void := s.noMemory x.station c
        let (a, run) := if void then (0#64, x.remain) else dataRun c x.w.block off
        let (s, d, bad) := s.takeBytes q (min (min x.remain run) x.claimLeft)
        let stored := if void then some s else s.storeBytes key a d bad
        match stored with
        | none => s.endOp key chkInterface x.cur x.haltResidue true
        | some s =>
          let x := s.slot key
          let s := ((s.setSlot key { x with
            remain := x.remain - d.length, usedBytes := x.usedBytes + d.length }).timerUpdate key).rts (q / 2)
          if bad && !void then s.checkNow key chkData
          else if d.isEmpty then s
          else State.dataIn s key k

/-- One command of a data CCW that uses the lanes: issue it, then move what can be moved; a member that the station's transfer did not
reach passes nothing (R39). -/
def State.dataCommand (s : State) (key : Nat) : State :=
  let x := s.slot key
  let s := if x.w.loaded || x.w.xferEnd.isSome || x.w.chainPos != 0 then s else s.loadXfer key
  let x := s.slot key
  if x.st != .running then s
  else
    let out := if x.w.xferEnd.isSome then s else s.dataOut key 40
    let s := match s.classOf x.station (ccwOp x.ccw) with
      | .out => out
      | .control => out
      | .exch => out.dataIn key 4200
      | .inn => s.dataIn key 4200
      | _ => s
    (s.timerUpdate key).dataProgress key

/-- A lane operation without data (R37, R66): one that moves nothing ends at once with STATION_END. A CONTROL of COUNT 0 leaves
SHORT as it was: whether it is a data chain with zero residual in the sense of R57 is open (DESIGN CHOICE, notes/assumptions/57.md). -/
def State.bareRun (s : State) (key : Nat) : State :=
  let x := s.slot key
  let l := s.staLane x.station
  if s.noLaneOp x.station x.ccw then
    match s.transferBar x.station false false with
    | some r =>
      let s := if r = 8 then s.senseFlag x.station 6 else s
      s.endOp key (chkUnit r) x.cur 0 true
    | none =>
      let s := if s.laneFunc l = 10 then s.setLane l { s.lane l with streamOn := (s.laneopOf x.station x.ccw).testBit 0 } else s
      (s.setSlot key { x with ustat := x.ustat ||| 1#32 }).ccwEnded key 0
  else
    let s := if x.w.loaded then s else s.loadXfer key
    let x := s.slot key
    if x.st == .running && x.w.xferEnd.isSome then s.ccwEnded key 0 else s

/-- A data CCW or a station command executes. -/
def State.stationRun (s : State) (key : Nat) : State :=
  let x := s.slot key
  if s.bareCommand x.station x.ccw then s.bareRun key else s.dataCommand key

/-- WRITE (R37). -/
def writeCcw (s : State) (key : Nat) : State := if s.executes key (· == 1) then s.stationRun key else s
def execWrite (e : EngineId) (k : SlotId) (s : State) : Result := .next (writeCcw s (slotKey e.val k.val))

/-- READ (R37). -/
def readCcw (s : State) (key : Nat) : State := if s.executes key (· == 2) then s.stationRun key else s
def execRead (e : EngineId) (k : SlotId) (s : State) : Result := .next (readCcw s (slotKey e.val k.val))

/-- CONTROL (R37). -/
def controlCcw (s : State) (key : Nat) : State := if s.executes key (· == 3) then s.stationRun key else s
def execControl (e : EngineId) (k : SlotId) (s : State) : Result := .next (controlCcw s (slotKey e.val k.val))

/-- WRITE_READ (R37). -/
def writeReadCcw (s : State) (key : Nat) : State := if s.executes key (· == 5) then s.stationRun key else s
def execWriteRead (e : EngineId) (k : SlotId) (s : State) : Result := .next (writeReadCcw s (slotKey e.val k.val))

/-- STATION_COMMAND (R66). -/
def stationCommand (s : State) (key : Nat) : State := if s.executes key isStationOp then s.stationRun key else s
def execStationCommand (e : EngineId) (k : SlotId) (s : State) : Result := .next (stationCommand s (slotKey e.val k.val))

/-! ## SENSE (R38, R292, R293) -/

/-- Ball levels of a port group, by local index. -/
def State.pgLevels (s : State) (pg : Nat) : Nat :=
  (span 0 12).foldl (fun n i => if (s.lane (12 * pg + i)).ball then n + 2 ^ i else n) 0

/-- The 32 bytes of a station's sense data with these FLAGS (R293). -/
def Station.senseBytes (x : Station) (flags : Nat) : List Byte :=
  leBytes 1 flags ++ leBytes 1 x.ureason ++ leBytes 1 x.ibiCount ++ leBytes 1 x.ibiData.length ++ padTo 8 x.ibiData
    ++ leBytes 2 x.levels ++ rep 2 0#8 ++ leBytes 8 x.attnT0 ++ leBytes 4 x.lastLen ++ rep 4 0#8

/-- Store sense data from the position that the chain has reached. -/
def State.senseStore (s : State) (key : Nat) : Nat → State
  | 0 => s
  | k + 1 =>
    let x := s.slot key
    let c := x.ccw
    let off := ccwCount c - x.remain
    let pos := x.w.chainPos + off
    if x.st != .running || x.remain = 0 || 32 ≤ pos then s
    else if x.claimLeft = 0 then s.endOp key chkOverrun x.cur x.haltResidue true
    else
      let void := s.noMemory x.station c
      let (a, run) := if void then (0#64, x.remain) else dataRun c x.w.block off
      let d := (x.w.data.drop pos).take (min (min x.remain run) x.claimLeft)
      let stored := if void then some s else s.storeBytes key a d false
      match stored with
      | none => s.endOp key chkInterface x.cur x.haltResidue true
      | some s =>
        let x := s.slot key
        State.senseStore (s.setSlot key { x with remain := x.remain - d.length, usedBytes := x.usedBytes + d.length }) key k

/-- The transfer of a SENSE is complete: STATION_END, and bytes 0 and 1 clear (R292). -/
def State.senseEnd (s : State) (key : Nat) (how : XferEnd) : State :=
  let x := s.slot key
  let s := (s.setStation x.station { s.station x.station with flags := 0, ureason := 0, safeAck := s.safeMark }).arrival key
  let x := s.slot key
  s.setSlot key { x with ustat := x.ustat ||| 1#32, w := { x.w with xferEnd := some how, timerFrom := none } }

/-- SENSE (R292), under the station's response timer (R98). -/
def senseCcw (s : State) (key : Nat) : State :=
  if !s.executes key (· == 4) then s
  else
    let x := s.slot key
    let st := x.station
    let s := if x.w.loaded || x.w.chainPos != 0 then s
      else
        let lv := s.pgLevels (s.staLane st / 12)
        let s := s.setStation st { s.station st with levels := lv }
        s.setSlot key { x with
          ustat := x.ustat &&& 0xFFFFFFFA#32
          w := { x.w with loaded := true, timerFrom := some s.time, timerUsed := 0, data := (s.station st).senseBytes (s.staFlags st) } }
    let s := s.senseStore key 40
    let x := s.slot key
    if x.st != .running then s
    else
      let pos := x.w.chainPos + (ccwCount x.ccw - x.remain)
      let s := if x.w.xferEnd.isSome then s
        else if x.remain = 0 ∧ !ccwSpan x.ccw then s.senseEnd key .counted
        else if 32 ≤ pos then s.senseEnd key .remote
        else s
      s.dataProgress key

def execSense (e : EngineId) (k : SlotId) (s : State) : Result := .next (senseCcw s (slotKey e.val k.val))

/-! ## Flow (R56 to R59) -/

/-- Branch to the target: the lines held are discarded (R83). -/
def State.branchTo (s : State) (key : Nat) (a : Quad) : State :=
  let x := s.slot key
  (s.setSlot key { x with w := x.w.dropLines }).endCcw key 0 true a (some x.cur)

/-- JUMP (R56). -/
def jumpCcw (s : State) (key : Nat) : State :=
  if s.executes key (· == 8) then s.branchTo key (ccwAddr (s.slot key).ccw) else s
def execJump (e : EngineId) (k : SlotId) (s : State) : Result := .next (jumpCcw s (slotKey e.val k.val))

/-- The condition of a JUMP-IF (R58). -/
def State.condHolds (s : State) (x : Slot) (code : Nat) : Bool :=
  match code with
  | 1 => x.cmp == .eq
  | 2 => x.cmp != .eq
  | 3 => x.cmp == .lt
  | 4 => x.cmp != .lt
  | 5 => x.timeout
  | 6 => !x.timeout
  | 7 => (s.station x.station).latch
  | 8 => !(s.station x.station).latch
  | 9 => x.short
  | 10 => !x.short
  | 11 => x.fallback
  | _ => !x.fallback

/-- JUMP_IF (R58). -/
def jumpIfCcw (s : State) (key : Nat) : State :=
  if s.executes key (· == 9) then
    let x := s.slot key
    if s.condHolds x (ccwCount x.ccw) then s.branchTo key (ccwAddr x.ccw)
    else s.endCcw key 0 true (nextAddr x.cur) none
  else s
def execJumpIf (e : EngineId) (k : SlotId) (s : State) : Result := .next (jumpIfCcw s (slotKey e.val k.val))

/-- LOOP (R59). -/
def loopCcw (s : State) (key : Nat) : State :=
  if s.executes key (· == 10) then
    let x := s.slot key
    match x.loops.find? (fun l => l.1 == x.cur) with
    | none =>
      if ccwCount x.ccw = 1 then s.endCcw key 0 true (nextAddr x.cur) none
      else (s.setSlot key { x with loops := x.loops ++ [(x.cur, ccwCount x.ccw - 1)] }).branchTo key (ccwAddr x.ccw)
    | some (_, n) =>
      if n ≤ 1 then
        (s.setSlot key { x with loops := x.loops.filter (fun l => l.1 != x.cur) }).endCcw key 0 true (nextAddr x.cur) none
      else
        (s.setSlot key { x with loops := x.loops.map (fun l => if l.1 == x.cur then (l.1, n - 1) else l) }).branchTo key (ccwAddr x.ccw)
  else s
def execLoop (e : EngineId) (k : SlotId) (s : State) : Result := .next (loopCcw s (slotKey e.val k.val))

/-! ## Timing -/

/-- WAIT (R52): a WAIT that ends on ATTN clears the station's latch; one that ends without a window's end clears
TIMEOUT, and one that has not fallen back clears FALLBACK (R57). -/
def waitCcw (s : State) (key : Nat) : State :=
  if s.executes key (· == 0xC) then
    let x := s.slot key
    let onAttn := ccwEvent x.ccw == 1 && !(x.timeout && x.w.met && ccwMode x.ccw == 3)
    let s := if onAttn then s.setStation x.station { s.station x.station with latch := false } else s
    let plain := ccwMode x.ccw == 0 && ccwEvent x.ccw == 0
    (s.setSlot key (if plain then { x with timeout := false, fallback := false } else x)).ccwEnded key 0
  else s
def execWait (e : EngineId) (k : SlotId) (s : State) : Result := .next (waitCcw s (slotKey e.val k.val))

/-- STRIKE (R55). -/
def strikeCcw (s : State) (key : Nat) : State :=
  if s.executes key (· == 0xD) then
    let x := s.slot key
    let g := (ccwAddr x.ccw).toNat % 256
    if s.mayStrike x g then ((s.launch key g).countLaunch key).ccwEnded key 0 else s.checkNow key (chkProg 0x0D)
  else s

/-! ## Memory commands (R60 to R63) -/

/-- What a byte-by-byte copy in ascending order leaves where the destination overlaps the source from above (R60). -/
def moveBytes (src dst : Quad) (d : List Byte) : List Byte :=
  let k := dst.toNat - src.toNat
  if src.toNat < dst.toNat ∧ k < d.length then (span 0 d.length).map (fun i => (d[i % k]?).getD 0#8) else d

/-- Bytes of a local run up to and with the first poisoned word, if there is one (R330). -/
def State.firstPoison (s : State) (a n : Nat) : Option (Nat × Nat) :=
  match (eccWords a n).find? (fun w => match SMap.get .ok s.ecc w with | .uncorrectable => true | .poison => true | _ => false) with
  | some w => some (w - a, min n (w + eccSize a - a))
  | none => none

/-- Count a MOVE's bytes. -/
def State.moveCount (s : State) (key n : Nat) : State :=
  let x := s.slot key
  s.setSlot key { x with usedBytes := x.usedBytes + n, w := { x.w with moved := n } }

/-- n free bytes, eight to a draw, and the state with the counter advanced. -/
def State.drawBytes (s : State) (n : Nat) : List Byte × State :=
  ((span 0 n).map (fun i => BitVec.ofNat 8 ((Config.freeQuad (s.freeCtr + i / 8)).toNat / 256 ^ (i % 8))), { s with freeCtr := s.freeCtr + (n + 7) / 8 })

/-- A poisoned completion of a MOVE's source: what it carried is stored at the destination with the mark, and the
operation ends (R330). -/
def State.movePoisoned (s : State) (key : Nat) (dst : Quad) (n : Nat) : State :=
  let (d, s) := s.drawBytes n
  match s.storeBytes key dst d true with
  | none => s.endOp key chkInterface (s.slot key).cur (ccwCount (s.slot key).ccw) true
  | some s => (s.moveCount key n).checkNow key chkData

/-- MOVE (R60, R121, R330). -/
def moveCcw (s : State) (key : Nat) : State :=
  if s.executes key (· == 0x11) then
    let x := s.slot key
    let src := leQuad x.w.block
    let dst := leQuad (x.w.block.drop 8)
    let n := min (ccwCount x.ccw) x.claimLeft
    if n = 0 then s.endOp key chkOverrun x.cur (ccwCount x.ccw) true
    else
      let bad := if isLocal src then s.firstPoison (localOf src) n else none
      match s.fetchBytes key src n with
      | .wait s => s
      | .fail s c => if c = chkData then s.movePoisoned key dst n else s.checkNow key c
      | .bytes s d _ =>
        let d := moveBytes src dst d
        match bad with
        | some (i, j) =>
          (match s.storeBytes key dst (d.take i) false with
           | none => s.endOp key chkInterface x.cur (ccwCount x.ccw) true
           | some s =>
             match s.storeBytes key (dst + BitVec.ofNat 64 i) ((d.take j).drop i) true with
             | none => s.endOp key chkInterface x.cur (ccwCount x.ccw - i) true
             | some s => (s.moveCount key j).checkNow key chkData)
        | none =>
          match s.storeBytes key dst d false with
          | none => s.endOp key chkInterface x.cur (ccwCount x.ccw) true
          | some s =>
            let s := s.moveCount key n
            if n < ccwCount x.ccw then s.endOp key chkOverrun x.cur (ccwCount x.ccw - n) true else s.ccwEnded key 0
  else s
def execMove (e : EngineId) (k : SlotId) (s : State) : Result := .next (moveCcw s (slotKey e.val k.val))

/-- COMPARE (R61). -/
def compareCcw (s : State) (key : Nat) : State :=
  if s.executes key (· == 0x12) then
    let x := s.slot key
    let n := ccwCount x.ccw
    match s.fetchBytes key (leQuad x.w.block) n with
    | .wait s => s
    | .fail s c => s.checkNow key c
    | .bytes s d poison =>
      if poison then s.checkNow key chkData
      else
        let x := s.slot key
        let mask := leNat ((x.w.block.drop 8).take n)
        let a := leNat d &&& mask
        let b := leNat ((x.w.block.drop 16).take n) &&& mask
        (s.setSlot key { x with cmp := if a < b then .lt else if a = b then .eq else .gt }).ccwEnded key 0
  else s
def execCompare (e : EngineId) (k : SlotId) (s : State) : Result := .next (compareCcw s (slotKey e.val k.val))

/-- The 16-byte record of a POST for source n (R63). -/
def State.postRecord (s : State) (n : Nat) : List Byte :=
  let hold := n != 0 && (s.src n).st == .holdover
  let flags := (if s.tempoLost n then 1 else 0) + (if hold then 2 else 0) + (if s.srcEnabled n then 0 else 4)
  leBytes 8 (s.pos n) ++ leBytes 7 s.t0 ++ leBytes 1 flags

/-- POST (R63). -/
def postCcw (s : State) (key : Nat) : State :=
  if s.executes key (· == 0x18) then
    let x := s.slot key
    match s.storeBytes key (ccwAddr x.ccw) (s.postRecord (ccwSrc x.ccw)) false with
    | none => s.endOp key chkInterface x.cur 0 true
    | some s => s.ccwEnded key 0
  else s
def execPost (e : EngineId) (k : SlotId) (s : State) : Result := .next (postCcw s (slotKey e.val k.val))

/-- Cores that a CORESET names, enabled in a powered quad (R271). -/
def State.shapeCores (s : State) (coreset : Nat) : List Nat :=
  if !s.domOn (sqDom 0) then []
  else (span 0 16).filter (fun c => coreset.testBit c && s.domOn (sqDom (c / 4)) && SMap.get 0 s.downReq (sqDom (c / 4)) == 0 && bit (s.reg (0x04600008 + 0x10000 * c)) 0)

/-- CORESET of a descriptor. -/
def descCores (d : List Byte) : Nat := leNat ((d.drop 2).take 2)

/-- SHAPE (R62, R271): the request goes to the dispatcher; the CCW ends when the kernel has ended. -/
def shapeCcw (s : State) (key : Nat) : State :=
  if s.executes key (· == 0x10) then
    let x := s.slot key
    match x.w.shapeEnd with
    | some .returned => s.ccwEnded key 0
    | some .poison => s.checkNow key chkData
    | some _ => s.checkNow key (chkProg 0x0E)
    | none =>
      if x.w.shapeAt.isSome then s
      else if (s.shapeCores (descCores x.w.block)).isEmpty then
        (s.setSlot key { x with w := { x.w with shapeAt := some s.time, shapeEnd := some .noCore } }).checkNow key (chkProg 0x0E)
      else
        let s := s.setSlot key { x with w := { x.w with shapeAt := some s.time, shapeLate := false } }
        { s with shapeQ := s.shapeQ ++ [{ key := key, owner := x.owner, desc := x.w.block, at_ := s.time }] }
  else s
def execShape (e : EngineId) (k : SlotId) (s : State) : Result := .next (shapeCcw s (slotKey e.val k.val))

/-! ## SIGNAL, FENCE, NOP (R64, R65) -/

/-- SIGNAL (R64). -/
def signalCcw (s : State) (key : Nat) : State :=
  if s.executes key (· == 0x19) then
    let x := s.slot key
    let n := (ccwAddr x.ccw).toNat % 64
    if bitsOf (s.reg (0x04A00600 + 4 * n)) 4 0 = x.owner then (s.irq (192 + n)).ccwEnded key 0
    else s.checkNow key (chkProg 0x0F)
  else s
def execSignal (e : EngineId) (k : SlotId) (s : State) : Result := .next (signalCcw s (slotKey e.val k.val))

/-- FENCE (R65): ends once the writes are visible, the outbound FIFO has drained and the launches are complete; the
lines held are discarded (R83). -/
def fenceCcw (s : State) (key : Nat) : State :=
  if s.executes key (· == 0x1A) then
    let x := s.slot key
    if s.ordReady x && s.r76 key then (s.setSlot key { x with w := x.w.dropLines }).ccwEnded key 0 else s
  else s
def execFence (e : EngineId) (k : SlotId) (s : State) : Result := .next (fenceCcw s (slotKey e.val k.val))

/-- NOP (R65). -/
def nopCcw (s : State) (key : Nat) : State := if s.executes key (· == 0x1F) then s.ccwEnded key 0 else s
def execNop (e : EngineId) (k : SlotId) (s : State) : Result := .next (nopCcw s (slotKey e.val k.val))

end Sys2Proof.Machine
end

