-- ==== Sys2Proof/Machine/Rings.lean ====
section
/-! DEFINITION. Work queues (chapter 06): doorbells, the scan, entries, malformed entries, ring commands and shares,
CE-A's work ring, and the admission commands that consume a START.
The log entries that hold here: DESIGN CHOICE 60, 65, 70; DEDUCED 53. -/

namespace Sys2Proof.Machine

/-! ## Entries (R164 to R168, R177) -/

/-- Word w of a unit's 16 bytes. -/
def unitWord (d : List Byte) (w : Nat) : Word := leWord (d.drop (4 * w))

/-- The unit is owned by the device: bit 8 of word 0 equals the expected lap mark (R169). -/
def unitOwned (d : List Byte) (lap : Bool) : Bool := bit (unitWord d 0) 8 == lap

def unitType (d : List Byte) : Nat := bitsOf (unitWord d 0) 3 0
def unitLen (d : List Byte) : Nat := bitsOf (unitWord d 0) 7 4

/-- TYPE is listed in R165. -/
def typeOk (t : Nat) : Bool := (decide (1 ≤ t) && decide (t ≤ 7)) || t == 15

/-- LEN is permitted for the TYPE (R165). -/
def lenOk (t n : Nat) : Bool :=
  if t = 1 then n == 2 || n == 3 else if t = 7 ∨ t = 15 then true else n == 0

/-- A reserved bit is set or a reserved value appears (R166 to R168); `us` are the entry's units. -/
def reservedSet (us : List (List Byte)) : Bool :=
  let w := fun (u i : Nat) => unitWord ((us[u]?).getD []) i
  let t := unitType ((us[0]?).getD [])
  if t = 1 then
    (w 0 0 &&& 0xF000FC00#32) != 0#32 || (w 1 0 &&& 0xFFFFFEFF#32) != 0#32 || (w 1 1 &&& 0xFF000000#32) != 0#32
      || (w 1 2 &&& 0xFF000000#32) != 0#32 || (w 2 0 &&& 0xFFFFFEFF#32) != 0#32 || w 2 2 != 0#32 || w 2 3 != 0#32
      || (us.length == 4 && ((w 3 0 &&& 0x0FFFFEFF#32) != 0#32 || w 3 1 != 0#32))
  else if t = 2 ∨ t = 3 ∨ t = 4 ∨ t = 5 then
    (w 0 0 &&& 0x8080FC00#32) != 0#32 || w 0 2 != 0#32 || w 0 3 != 0#32
      || (if bit (w 0 0) 9 then decide (64 < bitsOf (w 0 0) 22 16) || (bitsOf (w 0 0) 22 16 == 64 && decide (63 < bitsOf (w 0 0) 30 24))
          else (w 0 0 &&& 0x7F7F0000#32) != 0#32)
  else if t = 6 then
    (w 0 0 &&& 0xFFFFFC00#32) != 0#32 || (!bit (w 0 0) 9 && w 0 1 != 0#32) || w 0 2 != 0#32 || w 0 3 != 0#32
  else if t = 7 then (w 0 0 &&& 0x0000FC00#32) != 0#32
  else (w 0 0 &&& 0x0000FE00#32) != 0#32

/-- The START that an entry's units spell (R166). -/
def startOf (us : List (List Byte)) (g f idx : Nat) (inRing : Bool) (cq : Nat := 0) : Start :=
  let w := fun (u i : Nat) => unitWord ((us[u]?).getD []) i
  { ring := g, fn := f, ringIndex := idx, len := us.length, station := bitsOf (w 0 0) 27 16, be := bit (w 0 0) 9,
    tag := w 0 1, prog := BitVec.ofNat 64 ((w 0 2).toNat + (w 0 3).toNat * 2 ^ 32),
    deadline := bitsOf (w 1 1) 23 0, busy := bitsOf (w 1 2) 23 0, ccws := (w 1 3).toNat, bytes := (w 2 1).toNat,
    anchor := (if us.length = 4 then some (bitsOf (w 3 0) 31 28, (w 3 2).toNat + (w 3 3).toNat * 2 ^ 32) else none),
    inRing := inRing, cq := cq }

/-- Deliver a HALT, CLEAR, SUSPEND or RESUME to its targets (R92, R167): owner 16 stands for CE-A. A slot in POSTING or
POST-HELD counts as not bound. -/
def State.deliver (s : State) (owner : Nat) (u : List Byte) : State :=
  let t := unitType u
  let w0 := unitWord u 0
  let tag := unitWord u 1
  { s with slots := s.slots.map (fun (k, x) =>
      let sel := if bit w0 9 then k == slotKey (bitsOf w0 22 16) (bitsOf w0 30 24) else true
      if x.st != .idle && x.st != .posting && x.st != .postHeld && x.owner == owner && x.tag == tag && sel then
        (k, { x with haltreq := x.haltreq || t == 2, clearreq := x.clearreq || t == 3,
                     w := { x.w with deliv := x.w.deliv ++ [t] } })
      else (k, x)) }

/-! ## Scanning (R172 to R176) -/

/-- Address of a ring context (R23). -/
def ctxAddr (g : Nat) : Nat := 0x00400000 + 64 * g

/-- A queue enters SCAN: it takes a buffer, or waits for one in the order of entering (R173). While the journal holds the
function's queues, or its completion ring is blocked, it is HELD (R199, R494). -/
def State.enterScan (s : State) (g f : Nat) : State :=
  let r := { s.ring g with st := 3, buf := false, units := [], reads := [], need := none, fence := none, heldBlock := false, heldStart := none }
  if s.jnHolds f then s.setRing g { r with jnHold := true }
  else if (s.ring (s.cqOf f r)).blocked then s.setRing g { r with heldBlock := true }
  else
  let s := { s with seq := s.seq + 1 }
  let free := decide (s.pfUsed < 1024)
  let s := s.setRing g { r with st := 2, scanOrder := s.seq, buf := free }
  if free then s.prefetch g f else s

/-- A queue enters ERROR (R178). -/
def State.queueError (s : State) (g f code : Nat) : State :=
  let s := s.leaveScan g 4
  let r := s.ring g
  let s := (s.setRing g { r with errIndex := r.head, errcode := code }).hwWrite (ctxAddr g)
  let s := s.qmFnStatus f 1
  let det := if code ≤ 5 then code - 1 else if code ≤ 8 then 5 else 6
  s.report 39 det (if code = 9 then 1 else 0) f 0 (32 + f) (BitVec.ofNat 32 code)

/-- Consume `n` units at HEAD: HEAD, LAPX and CONSUMED advance on one tick, in the ring context (R169, R175). -/
def State.consume (s : State) (g n : Nat) : State :=
  let r := s.ring g
  let h := r.head + n
  let wrap := h ≥ r.units16
  (s.setRing g { r with
    head := (if wrap then h - r.units16 else h), lapx := (if wrap then !r.lapx else r.lapx),
    consumed := r.consumed + 1#32,
    units := r.units.filter (fun u => !(decide (r.head ≤ u.idx) && decide (u.idx < h))), need := none }).hwWrite (ctxAddr g)

/-- Every operation started by the queue has left its slot (R91). -/
def State.fenceClear (s : State) (g : Nat) : Bool := !(s.busySlots.any (fun (k, x) => keyEngine k != 64 && x.wq == g))

/-- Reserve room for one entry in the completion ring, else in the park share (R118, R165, R196): where it lies. -/
def State.reserve (s : State) (cq f : Nat) : Option (Bool × State) :=
  let r := s.ring cq
  if 1 ≤ r.room then some (true, s.setRing cq { r with resRing := r.resRing + 1 })
  else if s.parkUsed f < 64 then some (false, s.setRing cq { r with resPark := r.resPark + 1 })
  else none

/-- Redeem a reservation of a completion ring with its entry (R196). -/
def State.redeem (s : State) (cq : Nat) (e : Entry) (inRing : Bool) : State :=
  s.setRing cq { s.ring cq with redeemed := (s.ring cq).redeemed ++ [(e, inRing)] }

/-- The journal holds the queue of a START, or else a domain that the START needs is being powered up: the queue is HELD, and the
START is dropped with a DISABLE and read again afterwards (R175, R179, R421, R494). -/
def State.holdStart (s : State) (g f : Nat) (st : Start) : State :=
  let s := s.leaveScan g 3
  s.setRing g (if s.jnHolds f then { s.ring g with jnHold := true } else { s.ring g with heldStart := some st })

/-- A NOTIFY of the entry at HEAD: its marker's room is reserved and redeemed, and the entry of `n` units is consumed; without room the
queue is HELD (R165, R175). -/
def State.notify (s : State) (g f n : Nat) (tag : Word) : State :=
  let r := s.ring g
  let cq := s.cqOf f r
  match s.reserve cq f with
  | none => s.leaveScan g 3
  | some (inRing, s) => (((s.redeem cq (markerEntry r.head tag s.time) inRing).consume g n).prefetch g f).roomUpdate cq

/-- Act on the owned and checked entry at HEAD (R175). -/
def State.actOn (s : State) (g f : Nat) (us : List (List Byte)) : State :=
  let r := s.ring g
  let u := (us[0]?).getD []
  let t := unitType u
  let cq := s.cqOf f r
  if t = 1 then
    if s.startHeld (startOf us g f r.head true cq) false then s.holdStart g f (startOf us g f r.head true cq)
    else match s.reserve cq f with
    | none => s.leaveScan g 3
    | some (inRing, s) =>
      let s := s.setRing g { s.ring g with inWeir := true }
      State.roomUpdate { s with weir := s.weir ++ [startOf us g f r.head inRing cq] } cq
  else if t = 2 ∨ t = 3 ∨ t = 4 ∨ t = 5 then ((s.deliver f u).consume g 1).prefetch g f
  else if t = 6 then
    let notify := bit (unitWord u 0) 9
    if !s.fenceClear g then
      let s := s.leaveScan g 3
      s.setRing g { s.ring g with fence := some (notify, unitWord u 1) }
    else if notify then s.notify g f 1 (unitWord u 1)
    else (s.consume g 1).prefetch g f
  else if t = 7 ∧ bit (unitWord u 0) 9 then s.notify g f us.length (unitWord u 1)
  else (s.consume g us.length).prefetch g f

/-- Look for the units after the first: all owned, one to be read (again), or one that is still not owned although
its read was issued after the first unit had returned (R174). -/
inductive ContCheck where
  | owned
  | read (u : Nat)
  | lapMismatch
deriving DecidableEq, Repr

def contCheck (r : Ring) (first : RUnit) : Nat → ContCheck
  | 0 => .owned
  | k + 1 =>
    match contCheck r first k with
    | .owned =>
      match r.units.find? (fun u => u.idx == r.head + (k + 1)) with
      | none => .read (r.head + (k + 1))
      | some c =>
        if unitOwned c.data r.lapx then .owned
        else if c.issue ≤ first.ret then .read (r.head + (k + 1))
        else .lapMismatch
    | other => other

/-- Read a unit again: its line's buffered units are dropped and a new read is issued (R174). -/
def State.reread (s : State) (g f u : Nat) : State :=
  let r := s.ring g
  let line := alignDown u 4
  if r.reads.any (fun q => q.unit == line) then s.setRing g { r with need := some u }
  else
    (s.setRing g { r with units := r.units.filter (fun x => x.idx != u), need := some u }).lineRead g f u

/-- Units of the prefetch buffer that read uncorrectable are dropped, to be read again (R180, R330). -/
def State.dropBadUnits (s : State) (g : Nat) : State :=
  let r := s.ring g
  let s := (r.units.filter (fun u => u.mark != .ok)).foldl (fun t u => t.eccEventIn 0x00580000 65536 u.mark 31) s
  s.setRing g { r with units := r.units.filter (fun u => !u.mark.bad) }

/-- The queue has an owned entry at HEAD that waits for no read: it asks for its turn. -/
def Ring.ready (r : Ring) : Bool :=
  r.typ == 1 && r.st == 2 && r.buf && !r.inWeir && r.need.isNone &&
    r.units.any (fun u => u.idx == r.head && unitOwned u.data r.lapx && !u.mark.bad)

/-- Places from the ring whose turn is next up to ring g, in the order of R175. -/
def State.turnsTo (s : State) (g : Nat) : Nat := (g + 16384 - s.scanNext % 16384) % 16384

/-- It is queue g's turn: no other queue that asks for one comes before it in the round robin of R175. -/
def State.isTurn (s : State) (g : Nat) : Bool :=
  s.rings.all (fun (k, r) => !r.ready || decide (s.turnsTo g ≤ s.turnsTo k) || !(match s.ringFn k with | some f => s.canIssue f | none => false))

/-- The queue's turn: act on the unit at HEAD (R174, R175, R177). -/
def State.scanTurn (s : State) (g f : Nat) : State :=
  let r := s.ring g
  if r.typ != 1 || r.st != 2 || !r.buf || r.inWeir || !s.canIssue f then s
  else if r.ready && !s.isTurn g then s
  else if s.hwBad (ctxAddr g) then (s.hwCheck (ctxAddr g) 0 31).queueError g f 9
  else
  let s := (s.hwCheck (ctxAddr g) 0 31).dropBadUnits g
  let s : State := if r.ready then { s with scanNext := (g + 1) % 16384 } else s
  let r := s.ring g
  if (s.ring (s.cqOf f r)).blocked then
    let s := s.leaveScan g 3
    s.setRing g { s.ring g with heldBlock := true }
  else
    match r.units.find? (fun u => u.idx == r.head) with
    | none => if r.reads.any (fun q => q.unit == alignDown r.head 4) then s else s.lineRead g f r.head
    | some u =>
      if !unitOwned u.data r.lapx then
        if u.tag != r.dbseq then s.reread g f r.head else s.leaveScan g 1
      else if !typeOk (unitType u.data) then s.queueError g f 1
      else if !lenOk (unitType u.data) (unitLen u.data) then s.queueError g f 2
      else if r.head + unitLen u.data ≥ r.units16 then s.queueError g f 3
      else
        match contCheck r u (unitLen u.data) with
        | .read v => s.reread g f v
        | .lapMismatch => s.queueError g f 4
        | .owned =>
          let us := (span r.head (unitLen u.data + 1)).map (fun i =>
            match r.units.find? (fun x => x.idx == i) with | some x => x.data | none => [])
          if reservedSet us then s.queueError g f 5 else s.actOn g f us

/-- The four units that a returned 64-byte line brings; m is the condition of the first, which is written to the buffer first. -/
def lineUnits (q : ScanRead) (ret : Nat) (d : List Byte) (m : EccMark := .ok) : List RUnit :=
  (span 0 4).map (fun i => { idx := q.unit + i, tag := q.tag, issue := q.issue, ret := ret, data := padTo 16 (d.drop (16 * i)),
                             mark := (if i = 0 then m else .ok) })

/-- The buffer holds an owned copy of a unit, by the lap mark of the lap in which the scan reaches it: it is used as read, and its
return time is what a continuation unit's read is held against (R169, R171, R174). -/
def Ring.keeps (r : Ring) (u : RUnit) : Bool := unitOwned u.data (if u.idx < r.head then !r.lapx else r.lapx) && !u.mark.bad

/-- A prefetch read returns (R174, R176): its units replace older copies that are not owned; a failed read that the scan needs is a queue
error, a failed speculative read is dropped, and so is any while the tunnel is not carried. -/
def State.scanReturn (s : State) (g f i : Nat) (res : HostResult) : State :=
  let r := s.ring g
  match r.reads[i]? with
  | none => s
  | some q =>
    if !q.sent && res != .noTunnel then s
    else
    let r' := { r with reads := r.reads.eraseIdx i, ev := r.ev + 1 }
    let s := (s.jHostRead f (r.base.toNat + 16 * q.unit) res).timedOut f (if s.carried then res else .noTunnel)
    match res with
    | .ok d =>
      let (m, s) := s.injMark 0x00580000 .ok
      let new := (lineUnits q (r.ev + 1) d m).filter (fun v => !(r.units.any (fun u => r.keeps u && u.idx == v.idx)))
      s.setRing g { r' with units := r.units.filter (fun u => !(new.any (fun v => v.idx == u.idx))) ++ new, need := none }
    | .noTunnel => s.setRing g r'
    | bad =>
      let needed := q.unit == alignDown r.head 4 || (match r.need with | some u => alignDown u 4 == q.unit | none => false)
      let code := match bad with | .poisoned => 7 | .timeout => 8 | _ => 6
      if needed && s.carried then (s.setRing g r').queueError g f code else s.setRing g r'

/-- SCAN_READ_RETURN (R174): a read returns, or the queue's turn comes, and the scan acts on the unit at HEAD. A queue with an entry to act
on waits while the round robin of R175 serves another first. -/
def scanReadReturn (s : State) (g : Nat) (ret : Option (Nat × HostResult)) : State :=
  match s.ringFn g with
  | none => s
  | some f =>
    let r := s.ring g
    if r.typ != 1 || r.st != 2 || !r.buf then s
    else
      match ret with
      | none => s.scanTurn g f
      | some (i, res) => (s.scanReturn g f i res).scanTurn g f

/-! ## Doorbells (R171, R192) -/

/-- The host can reach function f's BAR0: D0, Memory Space Enable, tunnel carried, no reset in progress (R224, R228). -/
def State.bar0Open (s : State) (f : Nat) : Bool :=
  s.inD0 f && s.memSpace f && s.carried && (s.fn f).resetAt.isNone

/-- A doorbell of function-local ring i reaches the Queue Manager, whatever the ring's type (R171, R192). -/
def State.ringRung (s : State) (f i : Nat) : State :=
  if i ≥ s.shareCount f then s.qmFnStatus f 2
  else
    let g := s.shareFirst f + i
    let r := s.ring g
    if r.typ = 2 then s.cqDoorbell g f
    else if r.typ = 1 ∧ r.st ≠ 0 then
      let s := s.setRing g { r with dbseq := r.dbseq + 1#32 }
      if r.st = 1 then s.enterScan g f else s
    else s

/-- A host write to the doorbell of function-local ring i. -/
def State.ringDoorbell (s : State) (f i : Nat) : State := if !s.bar0Open f then s else s.ringRung f i

/-- QUEUE_RESUME (R175): the condition that held a queue clears, and the queue enters SCAN again. -/
def queueResume (s : State) (g : Nat) : State :=
  let r := s.ring g
  match s.ringFn g with
  | none => s
  | some f =>
    let cq := s.cqOf f r
    let c := s.ring cq
    if r.typ == 1 && r.st == 3 && r.fence.isNone && !c.blocked &&
        !(match r.heldStart with | some st => s.startHeld st false | none => false) &&
        (if r.heldBlock then c.backlog.isEmpty else decide (1 ≤ c.room) || decide (s.parkUsed f < 64)) then s.enterScan g f else s

def execQueueResume (g : RingId) (s : State) : Result := .next (queueResume s g.val)

/-- WQ_FENCE (R91): every earlier operation of the queue has posted; the FENCE is consumed, its marker's room is
reserved if NOTIFY is set, and the queue scans on. -/
def wqFence (s : State) (g : Nat) : State :=
  let r := s.ring g
  match r.fence, s.ringFn g with
  | some (notify, tag), some f =>
    if r.st != 3 || !s.fenceClear g || (s.ring (s.cqOf f r)).blocked || (r.heldBlock && !(s.ring (s.cqOf f r)).backlog.isEmpty) then s
    else if notify then
      match s.reserve (s.cqOf f r) f with
      | none => s
      | some (inRing, s) =>
        (((s.redeem (s.cqOf f r) (markerEntry r.head tag s.time) inRing).consume g 1).enterScan g f).roomUpdate (s.cqOf f r)
    else (s.consume g 1).enterScan g f
  | _, _ => s

def execWqFence (g : RingId) (s : State) : Result := .next (wqFence s g.val)

/-! ## Weir decides (R109, R113, R118 to R120) -/

/-- The START of a queue leaves Weir: the entry is consumed, also on a queue disabled meanwhile (R180); a queue whose completion ring has
become blocked is then HELD (R199). What a decision does to a queue that has been DISABLED and enabled anew in the meantime is open:
here too HEAD and CONSUMED advance (DESIGN CHOICE, notes/assumptions/70.md). -/
def State.decided (s : State) (g len : Nat) : State :=
  let r := s.ring g
  let s := (s.setRing g { r with inWeir := false }).consume g len
  match s.ringFn g with
  | some f => (s.prefetch g f).roomUpdate (s.cqOf f (s.ring g))
  | none => s

/-- Count a verdict (R130). -/
def State.countVerdict (s : State) : Verdict → State
  | .refuse _ => s.setReg 0x0430002C (satInc (s.reg 0x0430002C))
  | .accept _ false _ => s.setReg 0x04300020 (satInc (s.reg 0x04300020))
  | .accept _ true 0 => s.setReg 0x04300024 (satInc (s.reg 0x04300024))
  | .accept _ true _ => s.setReg 0x04300028 (satInc (s.reg 0x04300028))

/-- STARTs that reach Weir together are decided in ascending queue number, within a queue in ring order (R120). For STARTs that reached
it in different CK_FN cycles R120 gives no order; here too the lowest queue number goes first (DESIGN CHOICE,
notes/assumptions/60.md). -/
def nextStart (ws : List Start) : Option Start :=
  ws.foldl (fun b x => match b with | none => some x | some y => if x.ring < y.ring then some x else some y) none

/-- A START inside Weir that must wait goes back to the head of its queue, which is HELD, and its reservation is released (R421, R494);
on a queue disabled meanwhile it is dropped (R179). -/
def State.sendBack (s : State) (st : Start) : State :=
  let s := State.unreserve { s with weir := s.weir.erase st } st.cq st.fn st.inRing
  let r := s.ring st.ring
  let s := s.setRing st.ring { r with inWeir := false }
  if r.typ = 1 ∧ r.st = 2 ∧ r.inWeir then s.holdStart st.ring st.fn st else s

/-- ADMISSION_DECISION (R113): Weir tests a START, admits it, runs it best-effort, or refuses it; one that must wait goes back to its
queue and holds no other. -/
def admissionDecision (s : State) : State :=
  match nextStart s.weir with
  | none => s
  | some st =>
    if !s.domOn domU4RT then s
    else if s.startHeld st false then s.sendBack st
    else
      let s1 : State := { s with weir := s.weir.erase st }
      let v := s.weirVerdict st
      let s2 := s1.countVerdict v
      match v with
      | .refuse code => (s2.redeem st.cq (refusalEntry st.ringIndex st.tag code s.time) st.inRing).decided st.ring st.len
      | .accept e be reason =>
        let s3 := s2.unreserve st.cq st.fn st.inRing
        match s.idleSlot e with
        | none => s3.decided st.ring st.len
        | some k => (s3.bind st e k be reason st.cq).decided st.ring st.len

def execAdmissionDecision (s : State) : Result := .next (admissionDecision s)

/-! ## CE-A's work ring (R105, R106, R185) -/

/-- The unit of CE-A's work ring at an index: its bytes, or none when it reads uncorrectable (R185). -/
def State.ceaUnit (s : State) (i : Nat) : List Byte := s.bytesAt (s.cea.wqBase + 16 * i) 16

/-- A malformed entry, or an uncorrectable unit, stops CE-A's work ring (R106, R185). -/
def State.ceaStop (s : State) : State :=
  ({ s with cea := { s.cea with scanning := false, stopped := true } }).setStatus 0x04480004 4#32

/-- Consume `n` units of CE-A's work ring. -/
def State.ceaConsume (s : State) (n : Nat) : State :=
  let h := (s.reg 0x0448001C).toNat + n
  let sz := 2 ^ s.cea.wqSize
  let s := s.setReg 0x0448001C (BitVec.ofNat 32 (if h ≥ sz then h - sz else h))
  { s with cea := { s.cea with lapx := if h ≥ sz then !s.cea.lapx else s.cea.lapx } }

/-- No CE-A operation is bound (R91). -/
def State.ceaFenceClear (s : State) : Bool := !(s.busySlots.any (fun (k, _) => keyEngine k == 64))

/-- Scan CE-A's work ring from CE_A_WQ_HEAD until a unit that is not owned, a malformed entry, a START that CE-A must
decide, or an entry that has to wait (R165, R175, R185); `fuel` bounds the entries. -/
def State.ceaScan (s : State) : Nat → State
  | 0 => s
  | n + 1 =>
    if !s.cea.scanning || s.cea.stopped || !bit (s.reg 0x04480000) 0 || !s.ceaWeir.isEmpty then s
    else
      let h := (s.reg 0x0448001C).toNat
      let u := s.ceaUnit h
      let len := unitLen u
      if s.poisoned (s.cea.wqBase + 16 * h) 16 then
        ((s.readMem (s.cea.wqBase + 16 * h) 16 72 31).1).ceaStop
      else if !unitOwned u s.cea.lapx then { s with cea := { s.cea with scanning := false } }
      else if !typeOk (unitType u) || !lenOk (unitType u) len || decide (h + len ≥ 2 ^ s.cea.wqSize) then s.ceaStop
      else
        let us := (span h (len + 1)).map s.ceaUnit
        if s.poisoned (s.cea.wqBase + 16 * h) (16 * (len + 1)) then s.ceaStop
        else if !(us.all (fun d => unitOwned d s.cea.lapx)) || reservedSet us then s.ceaStop
        else
          let t := unitType u
          let notify := (t == 6 || t == 7) && bit (unitWord u 0) 9
          if t = 1 then
            if s.ceaRoom = 0 then s
            else
              let s : State := { s with cea := { s.cea with res := s.cea.res + 1 } }
              { s with ceaWeir := [startOf us 0 16 h true] }
          else if t = 2 ∨ t = 3 ∨ t = 4 ∨ t = 5 then State.ceaScan ((s.deliver 16 u).ceaConsume 1) n
          else if t = 6 ∧ !s.ceaFenceClear then s
          else if notify then
            if s.ceaRoom = 0 then s
            else
              let e := markerEntry h (unitWord u 1) s.time
              let s : State := { s with cea := { s.cea with res := s.cea.res + 1, redeemed := s.cea.redeemed ++ [e] } }
              State.ceaScan (s.ceaConsume (len + 1)) n
          else State.ceaScan (s.ceaConsume (len + 1)) n

/-- Scan on while CE-A has entries to act on. -/
def State.ceaScanOn (s : State) : State := s.ceaScan 4097

/-- CE_A_ADMISSION (R128): CE-A tests a START of its work ring, and binds a slot or posts a refusal. -/
def ceAAdmission (s : State) : State :=
  match s.ceaWeir with
  | [] => s
  | st :: _ =>
    if s.startHeld st true then s
    else
      let s1 : State := { s with ceaWeir := [] }
      let s2 := match s.ceaVerdict st with
        | .refuse code =>
          { s1 with cea := { s1.cea with redeemed := s1.cea.redeemed ++ [refusalEntry st.ringIndex st.tag code s.time] } }
        | .accept e be reason =>
          let s3 := State.ceaRoomed { s1 with cea := { s1.cea with res := s1.cea.res - 1 } }
          match s.idleSlot e with
          | none => s3
          | some k => s3.bind st e k be reason 0
      (s2.ceaConsume st.len).ceaScanOn

def execCeAAdmission (s : State) : Result := .next (ceAAdmission s)

/-- CE_A_DOORBELL (R185): a write starts a forward scan of CE-A's work ring; reins-governed (R27). -/
def State.ceaDoorbell (s : State) : State :=
  if bit (s.reg 0x04480000) 0 && !s.cea.stopped then
    ({ s with cea := { s.cea with scanning := true } }).ceaScanOn
  else s

/-- The placement of CE-A's rings meets R105. -/
def State.ceaRingsOk (s : State) : Bool :=
  let wb := (s.reg 0x04480008).toNat
  let ws := 16 * 2 ^ bitsOf (s.reg 0x0448000C) 3 0
  let cb := (s.reg 0x04480010).toNat
  let cs := 32 * 2 ^ bitsOf (s.reg 0x04480014) 3 0
  wb % ws == 0 && cb % cs == 0 && decide (0x02188000 ≤ wb) && decide (wb + ws ≤ 0x02200000) &&
    decide (0x02188000 ≤ cb) && decide (cb + cs ≤ 0x02200000) && (decide (wb + ws ≤ cb) || decide (cb + cs ≤ wb))

/-- A write of CE_A_CTRL (R104, R105, R185, R212): PREFETCH; EN with its placement check; ring registers take effect
when EN goes from 0 to 1. -/
def State.ceaCtrl (s : State) (v : Word) : State :=
  let old := s.reg 0x04480000
  let pf := if bitsOf v 2 1 = 3 then bitsOf old 2 1 else bitsOf v 2 1
  let s := if bitsOf v 2 1 = 3 then s.cfgErr 0x04480004 else s
  let want := bit v 0
  if want && !bit old 0 then
    if s.ceaRingsOk then
      let wb := (s.reg 0x04480008).toNat
      let ws := bitsOf (s.reg 0x0448000C) 3 0
      let cb := (s.reg 0x04480010).toNat
      let cs := bitsOf (s.reg 0x04480014) 3 0
      let wqNew := wb != s.cea.wqBase || ws != s.cea.wqSize
      let cqNew := cb != s.cea.cqBase || cs != s.cea.cqSize
      let s := s.setReg 0x04480000 (BitVec.ofNat 32 (pf * 2 + 1))
      let s := if wqNew then s.setReg 0x0448001C 0#32 else s
      let s := if cqNew then (s.setReg 0x04480020 0#32).setReg 0x04480024 0#32 else s
      { s with cea := { s.cea with
          wqBase := wb, wqSize := ws, cqBase := cb, cqSize := cs, scanning := false, stopped := false,
          lapx := (if wqNew then true else s.cea.lapx), lapw := (if cqNew then true else s.cea.lapw) } }
    else (s.setReg 0x04480000 (BitVec.ofNat 32 (pf * 2))).cfgErr 0x04480004
  else
    let s := s.setReg 0x04480000 (BitVec.ofNat 32 (pf * 2 + (if want then 1 else 0)))
    if want then s else { s with cea := { s.cea with scanning := false } }

/-- A write of CE_A_CQ_HEAD (R193, R212): taken when it claims no entry that has not been written; POST-HELD slots
then write, and the scan goes on. -/
def State.ceaCqHead (s : State) (v : Word) : State :=
  let h := bitsOf v 9 0
  let n := 2 ^ s.cea.cqSize
  let tail := (s.reg 0x04480020).toNat
  let head := (s.reg 0x04480024).toNat
  if h < n ∧ (h + n - head) % n ≤ (tail + n - head) % n then
    let s := s.setReg 0x04480024 (BitVec.ofNat 32 h)
    let s : State := if h != head then { s with cea := { s.cea with stallFrom := none, stallDone := false } } else s
    s.ceaRoomed.ceaScanOn
  else s.cfgErr 0x04480004

/-- CE_A_STALL (R212): the fixed limit of 100 ms. -/
def ceAStall (s : State) : State :=
  let s := s.ceaStallUpdate
  match s.cea.stallFrom with
  | some t =>
    if s.time ≥ t + 100000 * 1200 then
      ({ s with cea := { s.cea with stallFrom := none, stallDone := true } }).report 39 9 1 16 64 0 0#32
    else s
  | none => s

def execCeAStall (s : State) : Result := .next (ceAStall s)

/-! ## Ring commands and shares (R179, R183, R195) -/

/-- The base of a ring meets R162. -/
def baseOk (r : Ring) : Bool :=
  decide (10 ≤ r.size) && decide (r.size ≤ 20) && r.base.toNat % min (2 ^ r.size) 4096 == 0 && !r.base.getLsbD 63

/-- CFGERR of function f's QM_ view. -/
def State.qmCfgErr (s : State) (f : Nat) : State :=
  s.setReg (0x04200004 + 0x10000 * f) (s.reg (0x04200004 + 0x10000 * f) ||| 1#32)

/-- ENABLE of ring g (R179, R195). A START of the queue's former enabling may still be inside Weir: it stays there, and no longer marks the
queue as waiting for it; the spec does not say what becomes of it (DESIGN CHOICE, notes/assumptions/70.md). -/
def State.ringEnable (s : State) (f g : Nat) : State :=
  let r := s.ring g
  if r.st != 0 then s
  else if r.typ = 1 then
    let c := s.ring (s.shareFirst f + r.cq)
    if baseOk r && decide (r.cq < s.shareCount f) && c.typ == 2 && c.st == 1 then
      (s.setRing g { r with
        st := 1, head := 0, lapx := true, dbseq := 0#32, consumed := 0#32, errcode := 0, inWeir := false, fence := none,
        heldBlock := false, heldStart := none, units := [], reads := [], buf := false, need := none, ev := 0 }).hwWrite (ctxAddr g)
    else s.qmCfgErr f
  else if r.typ = 2 then
    if baseOk r && r.haddr.toNat % 8 == 0 && !r.haddr.getLsbD 63 && (r.mod == 0 || decide (r.vector < (s.fn f).vectors)) then
      s.setRing g { r with
        st := 1, tail := 0, qhead := 0, posted := 0#32, lapw := true, backlog := [], resRing := 0, resPark := 0,
        redeemed := [], modCount := 0, modFrom := none, headRead := false, headAgain := false, stallFrom := none,
        stallDone := false, stallUsed := 0, dbseq := 0#32, timeIn := r.time, woke := false }
    else s.qmCfgErr f
  else s.qmCfgErr f

/-- The slots of function f whose completions are bound for ring g. -/
def State.boundFor (s : State) (f g : Nat) : Bool :=
  s.busySlots.any (fun (k, x) => keyEngine k != 64 && x.owner == f && x.cq == g)

/-- DISABLE of ring g (R179, R180, R195). -/
def State.ringDisable (s : State) (f g : Nat) : State :=
  let r := s.ring g
  if r.st = 0 then s
  else if r.typ = 1 then
    let s := s.leaveScan g 0
    s.setRing g { s.ring g with fence := none, errcode := 0, heldBlock := false, heldStart := none }
  else if r.typ = 2 then
    let bound := s.rings.any (fun (k, q) => q.typ == 1 && q.st != 0 && s.ringFn k == some f && s.cqOf f q == g)
    if bound || !r.backlog.isEmpty || s.boundFor f g || r.resRing != 0 || r.resPark != 0 || !r.redeemed.isEmpty then s.qmCfgErr f
    else s.setRing g { r with st := 0, headRead := false, headAgain := false, stallFrom := none, modCount := 0, modFrom := none }
  else s

/-- RESTART of ring g (R179). -/
def State.ringRestart (s : State) (f g : Nat) : State :=
  let r := s.ring g
  if r.typ = 1 ∧ r.st = 4 then (s.setRing g { r with errcode := 0 }).enterScan g f else s

/-- A write of QM_SHAREf (R183). -/
def State.shareWrite (s : State) (f : Nat) (v : Word) : State :=
  let first := bitsOf v 13 0
  let count := if bitsOf v 28 16 ≤ 4096 then bitsOf v 28 16 else s.shareCount f
  let s' := if bitsOf v 28 16 ≤ 4096 then s else s.cfgErr 0x04208004
  let busy := s.rings.any (fun (g, r) => s.ringFn g == some f && r.st != 0)
  let overlap := (span 0 16).any (fun h => h != f && decide (0 < count) && decide (0 < s.shareCount h)
    && decide (first < s.shareFirst h + s.shareCount h) && decide (s.shareFirst h < first + count))
  if busy || decide (first + count > 16384) || overlap then s'.cfgErr 0x04208004
  else s'.setReg (0x04208100 + 4 * f) (BitVec.ofNat 32 (count * 65536 + first))

end Sys2Proof.Machine
end

