-- ==== Sys2Proof/Machine/Halt.lean ====
section
/-! DEFINITION. HALT, CLEAR, SUSPEND and RESUME (R92 to R97), the timers and claims that end an operation (R93, R99,
R121, R127), lockstep mismatches (R102), completion timeouts (R222) and the sleep handshakes (R206).
The log entries that hold here: DESIGN CHOICE 2, 50, 76; DEDUCED 15, 17, 18, 63. -/

namespace Sys2Proof.Machine

/-! ## Stop boundaries (R93, R284, R285) -/

/-- The function's transfer ends with STOP or the release of chip select (R284). -/
def busFn (fn : Nat) : Bool := fn == 4 || fn == 6 || fn == 8

/-- A packet of this function is closed when its transfer ends (R307). -/
def closingFn (fn : Nat) : Bool := decide (4 ≤ fn) && decide (fn ≤ 8)

/-- Take the transfer off its lane engine; LASTLEN records its bytes (R293), and a packet of a transfer function is
closed (R307). -/
def State.dropXfer (s : State) (l : Nat) (t : Xfer) : State :=
  let s := s.setStation t.station { s.station t.station with lastLen := t.count }
  let s := if t.inn && closingFn (s.laneFunc l) then s.closePacket (2 * l) else s
  (s.setLane l { s.lane l with xfer := none, gateOpen := false, closing := false }).actionFree l

/-- A halted transfer has reached its stop boundary (R93): inbound bytes that have arrived are stored up to the remaining
count, the rest and the outbound bytes not yet sent are discarded, and the slot goes on. -/
def State.reachBoundary (s : State) (l : Nat) (t : Xfer) : State :=
  let s := s.dropXfer l t
  let s := if busFn (s.laneFunc l) && t.started then s.emit (.busEnd l 0) else s
  let s := s.flushFifo (2 * l + 1)
  let s := if t.inn && s.engineRuns (keyEngine t.key) then (s.dataIn t.key 4200).flushFifo (2 * l) else s
  let x := s.slot t.key
  if x.st == .halting then
    (s.setSlot t.key { x with w := { x.w with
      timerFrom := none, ending := x.w.ending.map (fun e => { e with residual := x.haltResidue }) } }).settle t.key
  else s

/-- A waiting SHAPE request is removed; a running kernel is stopped by KERNEL_STOP (R273). -/
def State.stopKernel (s : State) (key : Nat) : State := { s with shapeQ := s.shapeQ.filter (fun r => r.key != key) }

/-- Remove the first delivered entry of a type from a slot. -/
def Slot.undeliver (x : Slot) (t : Nat) : Slot := { x with w := { x.w with deliv := x.w.deliv.erase t } }

/-- End an operation on request: UNIT_EXCEPTION at the current CCW (R86, R93). -/
def State.endOnRequest (s : State) (key : Nat) (clear : Bool) : State :=
  let x := s.slot key
  (s.stopKernel key).endOp key chkException (if x.st = .admitted then 0#64 else x.cur) x.haltResidue clear

/-- An I3C or I2C target: the remote controller alone ends its transfers, a halted one too (R284). -/
def targetFn (fn : Nat) : Bool := fn == 5 || fn == 7

/-- A halt of a RUNNING data CCW or station command (R93, R284). -/
def State.haltTransfer (s : State) (key : Nat) : State :=
  let x := s.slot key
  let l := s.staLane x.station
  match s.xferOf x.station key with
  | none =>
    let s := if x.w.xferEnd.isSome && ccwOp x.ccw != 4 then s.dataIn key 4200 else s
    if (s.slot key).st == .running then s.endOnRequest key false else s
  | some t =>
    let s := s.endOnRequest key false
    let y := s.slot key
    let s := s.setSlot key { y with w := { y.w with loaded := false, succ := false, op10 := false, timerFrom := some s.time } }
    if targetFn (s.laneFunc l) then s.setXfer l (some { t with stopping := true })
    else if s.laneStalled l t && (!t.started || t.count % s.stopUnit l x.station == 0) then s.reachBoundary l t
    else if (let fn := s.laneFunc l; fn == 1 || fn == 2 || fn == 3) then s.reachBoundary l t
    else s.setXfer l (some { t with stopping := true })

/-- A CCW that the engine runs to its end under a HALT: MOVE, COMPARE or POST (R93). -/
def runsOn (op : Nat) : Bool := op == 0x11 || op == 0x12 || op == 0x18

/-- A step of such a CCW. -/
def State.memoryStep (s : State) (key : Nat) : State := postCcw (compareCcw (moveCcw s key) key) key

/-- MOVE, COMPARE and POST run to their end (R93). One that still waits for memory ends its operation when it has ended; one that has
ended on this tick as the last CCW has ended it normally (R95). -/
def State.haltMemory (s : State) (key : Nat) : State :=
  let x := s.slot key
  let s := s.memoryStep key
  let y := s.slot key
  if y.st == .running && !y.w.ccwDone then s.setSlot key { y with w := { y.w with haltRuns := true } }
  else if (y.st == .fetching || y.st == .running) && y.w.lastDone.isNone then s.endOp key chkException x.cur 0 false
  else s

/-- HALT (R93). In SUSPENDED it waits for the strike actions and outbound bytes still in progress, for the slot goes to POSTING alone
from there (R78; DESIGN CHOICE, notes/assumptions/63.md). An operation whose last CCW has ended has ended normally (R95). -/
def haltSlot (s : State) (key : Nat) : State :=
  let x := s.slot key
  if !x.w.deliv.contains 2 || !s.engineRuns (keyEngine key) then s
  else
    let s' := s.setSlot key (x.undeliver 2)
    match x.st with
    | .admitted => s'.endOnRequest key false
    | .fetching => if x.w.lastDone.isSome then s' else s'.endOnRequest key false
    | .waiting => s'.endOnRequest key false
    | .suspended => if s.r76 key then s'.endOnRequest key false else s
    | .running =>
      let op := ccwOp x.ccw
      if x.w.lastDone.isSome then s'
      else if x.w.ccwDone then s'.endOnRequest key false
      else if runsOn op then s'.haltMemory key
      else if (s.classOf x.station op).data || isStationOp op then s'.haltTransfer key
      else s'.endOnRequest key false
    | _ => s'

def execHalt (e : EngineId) (k : SlotId) (s : State) : Result := .next (haltSlot s (slotKey e.val k.val))

/-- A CLEAR that finds the slot in HALTING: it cuts what remains; a normal ending becomes UNIT_EXCEPTION (R95). -/
def State.clearHalting (s : State) (key : Nat) : State :=
  let x := s.slot key
  let req := bit x.ustat 2 && x.cstat &&& 0x7F#32 == 0#32
  let normal := match x.w.ending with | some e => e.normal | none => false
  let x := if normal || req then { x with
      ustat := (x.ustat &&& 0xFFFFFFFE#32) ||| 4#32
      w := { x.w with ending := x.w.ending.map (fun e => { e with residual := x.haltResidue, normal := false }) } } else x
  let s := s.setSlot key { x with w := { x.w with cleared := true } }
  (if x.w.holding then s.stationClear x.station key else s).settle key

/-- CLEAR (R94, R95). -/
def clearSlot (s : State) (key : Nat) : State :=
  let x := s.slot key
  if !x.w.deliv.contains 3 || !s.engineRuns (keyEngine key) then s
  else
    let s' := s.setSlot key (x.undeliver 3)
    match x.st with
    | .admitted => s'.endOnRequest key false
    | .suspended => if s.r76 key then s'.endOnRequest key false else s
    | .fetching => s'.endOnRequest key true
    | .waiting => s'.endOnRequest key true
    | .running => s'.endOnRequest key true
    | .halting => s'.clearHalting key
    | _ => s'

def execClear (e : EngineId) (k : SlotId) (s : State) : Result := .next (clearSlot s (slotKey e.val k.val))

/-- SUSPEND (R96). -/
def suspendSlot (s : State) (key : Nat) : State :=
  let x := s.slot key
  if !x.w.deliv.contains 4 || !s.engineRuns (keyEngine key) then s
  else
    let x := x.undeliver 4
    s.setSlot key (if x.st = .suspended ∨ x.st = .posting ∨ x.st = .postHeld ∨ x.st = .halting then x else { x with susreq := true })

def execSuspend (e : EngineId) (k : SlotId) (s : State) : Result := .next (suspendSlot s (slotKey e.val k.val))

/-- RESUME (R97). -/
def resumeSlot (s : State) (key : Nat) : State :=
  let x := s.slot key
  if !x.w.deliv.contains 5 || !s.engineRuns (keyEngine key) then s
  else
    let x := x.undeliver 5
    s.setSlot key (if x.st = .suspended then { x with st := .fetching, remain := 0, w := { x.w.dropLines with snapped := false } }
      else { x with susreq := false })

def execResume (e : EngineId) (k : SlotId) (s : State) : Result := .next (resumeSlot s (slotKey e.val k.val))

/-! ## Timers and claims -/

/-- STOP_BOUNDARY_TIMEOUT (R93): 200 microseconds have passed without the stop boundary; as under R94. -/
def stopBoundaryTimeout (s : State) (key : Nat) : State :=
  let x := s.slot key
  match x.w.timerFrom with
  | some t =>
    if x.st == .halting && s.engineRuns (keyEngine key) && (s.xferOf x.station key).isSome && decide (t + 200 * 1200 ≤ s.time) then
      (s.setSlot key { x with w := { x.w with
        timerFrom := none, ending := x.w.ending.map (fun e => { e with residual := x.haltResidue }) } }).endOp key chkNone x.cur 0 true
    else s
  | none => s

def execStopBoundaryTimeout (e : EngineId) (k : SlotId) (s : State) : Result :=
  .next (stopBoundaryTimeout s (slotKey e.val k.val))

/-- Time counted by the response timer. -/
def State.timerValue (s : State) (x : Slot) : Nat :=
  x.w.timerUsed + (match x.w.timerFrom with | some t => s.time - t | none => 0)

/-- RESPONSE_TIMEOUT (R99): the timer reaches its limit without an arrival. -/
def responseTimeout (s : State) (key : Nat) : State :=
  let x := s.slot key
  if x.st == .running && s.engineRuns (keyEngine key) && x.w.loaded && x.w.timerFrom.isSome && decide (s.staTmo x.station * 1200 ≤ s.timerValue x) then
    (s.senseFlag x.station 7).endOp key chkInterface x.cur x.haltResidue true
  else s

def execResponseTimeout (e : EngineId) (k : SlotId) (s : State) : Result := .next (responseTimeout s (slotKey e.val k.val))

/-- BUSY_CLAIM_EXHAUSTED (R121): the slot is ended as by a CLEAR, with CLAIM_OVERRUN, in whatever state it holds its station, POST-HELD
for an intermediate completion among them; a status fixed by a check, a request or a timeout is kept. -/
def busyClaimExhausted (s : State) (key : Nat) : State :=
  let x := s.slot key
  if !x.over && s.engineRuns (keyEngine key) && x.w.holding && x.busyFrom.isSome && decide (s.busyLimit x ≤ s.usedBusy x) then
    let normal := match x.w.ending with | some e => e.normal | none => false
    let s := s.stopKernel key
    let s := if normal then s.setSlot key { x with
        cstat := x.cstat ||| 0x20#32, ustat := x.ustat &&& 0xFFFFFFFB#32
        w := { x.w with ending := x.w.ending.map (fun e => { e with residual := x.haltResidue, normal := false }) } } else s
    s.endOp key chkOverrun x.cur x.haltResidue true
  else s

def execBusyClaimExhausted (e : EngineId) (k : SlotId) (s : State) : Result :=
  .next (busyClaimExhausted s (slotKey e.val k.val))

/-- DEADLINE_MISS (R127, R128): the deadline of an admitted operation passes before R76 holds. -/
def deadlineMiss (s : State) (key : Nat) : State :=
  let x := s.slot key
  if x.over || x.be || x.w.missed || decide (s.time ≤ x.w.deadlineAt) then s
  else
    let s := s.setSlot key { x with w := { x.w with missed := true } }
    if keyEngine key = 64 then s.report 40 1 0 16 64 0 (BitVec.ofNat 32 (keySlot key))
    else
      let v := BitVec.ofNat 32 (2 ^ 31 + keyEngine key * 2 ^ 16 + keySlot key)
      (((s.setReg 0x04300014 v).setReg 0x04300030 (satInc (s.reg 0x04300030))).setStatus 0x04300004 2#32).report 40 0 0 x.owner 0 0 v

def execDeadlineMiss (e : EngineId) (k : SlotId) (s : State) : Result := .next (deadlineMiss s (slotKey e.val k.val))

/-- SHAPE_LATE (R127): a SHAPE of an admitted operation has waited longer than 2 microseconds for a core. -/
def shapeLate (s : State) (key : Nat) : State :=
  let x := s.slot key
  match s.shapeQ.find? (fun r => r.key == key) with
  | some r =>
    if x.be || x.w.shapeLate || decide (s.time ≤ r.at_ + 2 * 1200) then s
    else
      let s := s.setSlot key { x with w := { x.w with shapeLate := true } }
      (s.setReg 0x04300034 (satInc (s.reg 0x04300034))).setStatus 0x04300004 4#32
  | none => s

def execShapeLate (e : EngineId) (k : SlotId) (s : State) : Result := .next (shapeLate s (slotKey e.val k.val))

/-! ## Lockstep (R102) -/

/-- LOCKSTEP_MISMATCH (R102): steps 1 to 4 and the start of step 5. The engine's waiting SHAPE requests are removed (R273). -/
def lockstepMismatch (s : State) (e : Nat) : State :=
  if !s.engineRuns e then s
  else
    let s := { s with stopped := SMap.set 0 s.stopped e (s.time + 1), shapeQ := s.shapeQ.filter (fun r => keyEngine r.key != e) }
    if e = 64 then
      let s := s.setReg 0x04480000 (s.reg 0x04480000 &&& 0xFFFFFFFE#32)
      let s : State := { s with cea := { s.cea with scanning := false } }
      (s.setStatus 0x04480004 2#32).report 18 0 1 16 64 0 0#32
    else
      let a := if e < 32 then 0x04400010 else 0x04400014
      let s := s.setReg a (s.reg a &&& ~~~ bitWord (e % 32) true)
      let s := s.setReg 0x04400020 (BitVec.ofNat 32 (2 ^ 31 + e))
      (s.setStatus 0x04400004 2#32).report (10 + e / 8) (e % 8) 1 18 e 0 0#32

def execLockstepMismatch (e : EngineId) (s : State) : Result := .next (lockstepMismatch s e.val)

/-- One slot of an engine whose sequencers have been reset ends with INTERFACE_CHECK (R86, R102). -/
def State.lockstepEnd (s : State) (key : Nat) : State :=
  let x := s.slot key
  if x.over then s
  else
    let active := x.w.holding && !s.stationQuiet key
    ((s.stopKernel key).setSlot key { x with w := { x.w with ending := none } }).endOp key chkInterface x.cur x.remain active

/-- SEQUENCER_RESET_DONE (R102): 5 microseconds later both copies run again, and the engine's slots end. -/
def sequencerResetDone (s : State) (e : Nat) : State :=
  let t := SMap.get 0 s.stopped e
  if t = 0 ∨ s.time < t - 1 + 5 * 1200 then s
  else
    let s : State := State.endShadow { s with stopped := SMap.set 0 s.stopped e 0 } (.engine e)
    (s.slots.map (fun p => p.1)).foldl (fun t k => if keyEngine k = e then t.lockstepEnd k else t) s

def execSequencerResetDone (e : EngineId) (s : State) : Result := .next (sequencerResetDone s e.val)

/-! ## Completion timeouts (R222) -/

/-- A request of function f that went out at time `t` has met its completion timeout. -/
def State.late (s : State) (f t : Nat) : Bool := decide (t + s.cplTimeout f * 1200 ≤ s.time)

/-- The oldest host read of a slot, a line read of a ring and its head-word read can time out now. -/
def State.slotLate (s : State) (key : Nat) : Bool :=
  match (s.slot key).w.reads with
  | r :: _ => !r.unsent && s.late (s.slot key).owner r.at_
  | [] => false
def State.scanLate (s : State) (g i : Nat) : Bool :=
  match s.ringFn g, (s.ring g).reads[i]? with
  | some f, some q => q.sent && s.late f q.at_
  | _, _ => false
def State.headLate (s : State) (g : Nat) : Bool :=
  match s.ringFn g with
  | some f => (s.ring g).headRead && s.late f (s.ring g).headLast
  | none => false

/-- HOST_READ_COMPLETION, SCAN_READ_RETURN and HEAD_WORD_RETURN as their commands bring them: a timeout only when its time has passed
(R222). -/
def execHostReadCompletion (e : EngineId) (k : SlotId) (r : HostResult) (s : State) : Result :=
  .next (s.fromOutside (fun s => if r == .timeout && !s.slotLate (slotKey e.val k.val) then s else hostReadCompletion s (slotKey e.val k.val) r))

def execScanReadReturn (g : RingId) (ret : Option (Nat × HostResult)) (s : State) : Result :=
  .next (match ret with
    | none => scanReadReturn s g.val none
    | some (i, r) => s.fromOutside (fun s => if r == .timeout && !s.scanLate g.val i then s else scanReadReturn s g.val (some (i, r))))

def execHeadWordReturn (g : RingId) (r : HostResult) (s : State) : Result :=
  .next (s.fromOutside (fun s => if r == .timeout && !s.headLate g.val then s else headWordReturn s g.val r))

/-- COMPLETION_TIMEOUT (R222): a non-posted request meets its timeout; its issuer handles it (R85, R177, R193). -/
def completionTimeout (s : State) (f : Nat) (who : ReadOwner) : State :=
  match who with
  | .slot e k =>
    let key := slotKey e.val k.val
    if (s.slot key).owner == f && s.slotLate key then hostReadCompletion s key .timeout else s
  | .scan g i =>
    if s.ringFn g.val == some f && s.scanLate g.val i then scanReadReturn s g.val (some (i, .timeout)) else s
  | .head g =>
    if s.ringFn g.val == some f && s.headLate g.val then headWordReturn s g.val .timeout else s

def execCompletionTimeout (f : Fn) (who : ReadOwner) (s : State) : Result := .next (s.fromOutside (fun s => completionTimeout s f.val who))

/-! ## Requests that wait for room (R221) -/

/-- Read i of a slot sends what there is room for now. -/
def State.sendOn (s : State) (key i : Nat) : State :=
  let x := s.slot key
  match x.w.reads[i]? with
  | none => s
  | some r =>
    let k := min r.left (s.npRoom x.owner)
    if k = 0 then s
    else (s.setSlot key { x with w := { x.w with
        reads := x.w.reads.set i { r with sent := r.sent + k, left := r.left - k, at_ := if r.sent = 0 then s.time else r.at_ } } }).sendReads
      x.owner r.addr r.len r.sent k

/-- The waiting reads of a slot go on, in the order in which it made them; where its function can issue requests no longer, the oldest
ends as R85 has it for a link without a tunnel (R223). -/
def State.slotSendOn (s : State) (key : Nat) : State :=
  let x := s.slot key
  if s.canIssue x.owner then (span 0 x.w.reads.length).foldl (fun t i => t.sendOn key i) s
  else if (x.w.reads.head?.map (fun r => r.unsent)).getD false then hostReadCompletion s key .noTunnel
  else s

/-- The waiting line reads and head-word read of a ring go on. -/
def State.ringSendOn (s : State) (g : Nat) : State :=
  match s.ringFn g with
  | none => s
  | some f =>
    if !s.canIssue f then s
    else
      let s := (span 0 (s.ring g).reads.length).foldl (fun t i =>
        let r := t.ring g
        match r.reads[i]? with
        | some q =>
          if q.sent || t.npRoom f = 0 then t
          else (t.setRing g { r with reads := r.reads.set i { q with sent := true, at_ := t.time } }).sendReads f (r.base.toNat + 16 * q.unit) 64 0 1
        | none => t) s
      let r := s.ring g
      if r.headAgain && !r.headRead && r.typ == 2 && r.st == 1 then s.headRead g f else s

/-- What waits for room under R221 is sent where there is room now: slots by number, then rings. The spec gives no order among them
(DESIGN CHOICE, notes/assumptions/76.md). -/
def State.sendWaiting (s : State) : State :=
  let s := (s.slots.map (fun p => p.1)).foldl (fun t k => if (t.slot k).w.reads.any (fun r => r.left != 0) then t.slotSendOn k else t) s
  (s.rings.map (fun p => p.1)).foldl (fun t g => if (t.ring g).reads.any (fun q => !q.sent) || ((t.ring g).headAgain && !(t.ring g).headRead) then t.ringSendOn g else t) s

/-! ## Sleep handshakes (R206) -/

/-- Answer a sleep request: D3hot by completing the configuration write, the others to the link partner. -/
def State.ackSleep (s : State) (q : SleepRequest) : State :=
  let s := { s with sleepReqs := s.sleepReqs.filter (fun r => r.1 != q) }
  match q with
  | .d3hot f =>
    (((s.setCfg f.val 0x44 (s.cfg f.val 0x44 ||| 3#32)).jHostEvent f.val 1 3).stallUpdateAll).emit (.cfgDone f.val)
  | _ => s.emit (.sleepAck q)

/-- SLEEP_FLUSH (R206): the moderated rings fire, and the request is acknowledged. -/
def sleepFlush (s : State) (q : SleepRequest) : State :=
  if s.sleepReqs.any (fun r => r.1 == q) then (s.flushRings (sleepFns q)).ackSleep q else s

def execSleepFlush (q : SleepRequest) (s : State) : Result := .next (sleepFlush s q)

/-- FLUSH_ACK_TIMEOUT (R206): 50 microseconds have passed; the request is acknowledged, and messages not yet issued are
handled under R207. -/
def flushAckTimeout (s : State) (q : SleepRequest) : State :=
  if s.sleepReqs.any (fun r => r.1 == q && decide (r.2 + 50 * 1200 ≤ s.live)) then (s.ackSleep q).flushRings (sleepFns q) else s

def execFlushAckTimeout (q : SleepRequest) (s : State) : Result := .next (flushAckTimeout s q)

end Sys2Proof.Machine
end

