-- ==== Sys2Proof/Machine/Samples.lean ====
section
/-! DEFINITION. What the journal records of the lanes (R490): EDGE, SAMPLES and TEMPO records, and the bits that an item
puts into a SAMPLES record.
The log entries that hold here: DEDUCED 23, 43. -/

namespace Sys2Proof.Machine

/-- Lane l is a recorded lane (R490): of a valid station of a recorded function, or the input lane of an enabled source among
T2 to T5 and T8 to T15. -/
def State.recLane (s : State) (l : Nat) : Bool :=
  s.stations.any (fun (n, _) => s.staVALID n && s.recFn (s.staOwner n) && (s.stationLanes n).contains l) ||
    [2, 3, 4, 5, 8, 9, 10, 11, 12, 13, 14, 15].any (fun n => s.srcEnabled n && bitsOf (s.srcCfg n) 6 0 == l)

/-- EDGE (R490): a recorded input changes to `level`. -/
def State.jEdge (s : State) (l : Nat) (level : Bool) : State :=
  if s.recording && s.recLane l then s.jrec 0x10 ((if level then 128 else 0) + l) [] else s

/-- TEMPO (R490): a T1 host-time update with its position, or a T6 boundary with 0. -/
def State.jTempo (s : State) (n pos : Nat) : State := s.jrec 0x12 n [pos]

/-- Samples of w bits packed from bit 0. -/
def packSamples (w : Nat) (l : List Nat) : Nat := l.foldr (fun v n => v + 2 ^ w * n) 0

/-- Close an open SAMPLES record: its tick is the tick of its last sample (R490). -/
def State.jSamplesOut (s : State) (e : Nat × Nat × Nat × Nat × List Nat) : State :=
  let (l, _, last, w, vs) := e
  let n := packSamples w vs
  let words := (span 0 (ceilDiv (w * vs.length) 64)).map (fun i => n / 2 ^ (64 * i) % 2 ^ 64)
  if !s.recording then s
  else s.jput { at_ := last, type := 0x11, srcid := (vs.length - 1) * 256 + l, payload := words, damaged := false }

/-- Close the open SAMPLES record of lane l. -/
def State.jSamplesEnd (s : State) (l : Nat) : State :=
  match s.jn.samples.find? (fun e => e.1 == l) with
  | some e => State.jSamplesOut { s with jn := { s.jn with samples := s.jn.samples.filter (fun x => x.1 != l) } } e
  | none => s

/-- One sample of w bits: a record closes at 256 bits or 100 microseconds after its first sample. -/
def State.jSample (s : State) (l w v : Nat) : State :=
  let s := match s.jn.samples.find? (fun e => e.1 == l) with
    | some (_, first, _, _, vs) => if first + 100 * 1200 ≤ s.time ∨ 256 < w * (vs.length + 1) then s.jSamplesEnd l else s
    | none => s
  let old := s.jn.samples.find? (fun e => e.1 == l)
  let e := match old with
    | some (_, first, _, _, vs) => (l, first, s.time, w, vs ++ [v])
    | none => (l, s.time, s.time, w, [v])
  { s with jn := { s.jn with samples := s.jn.samples.filter (fun x => x.1 != l) ++ [e] } }

/-- Every open SAMPLES record whose 100 microseconds have passed closes (R490). -/
def State.jSamplesDue (s : State) : State :=
  (s.jn.samples.filter (fun (_, first, _) => decide (first + 100 * 1200 ≤ s.time))).foldl (fun t (l, _) => t.jSamplesEnd l) s

/-- `n` bits of v, most significant first, in groups of w. -/
def msbGroups (v w : Nat) : Nat → List Nat
  | 0 => []
  | k + 1 => v / 2 ^ (w * k) % 2 ^ w :: msbGroups v w k

/-- Parity bit of a UART item under the lane's options (R314). -/
def uartParity (cfg : Word) (v : Nat) : List Nat :=
  let ones := ((span 0 8).filter (fun i => v.testBit i)).length
  if bitsOf cfg 25 24 = 1 then [ones % 2] else if bitsOf cfg 25 24 = 2 then [(ones + 1) % 2] else []

/-- The sample width of a lane function (R490): SPI by its width, one bit otherwise. -/
def sampleWidth (fn : Nat) (cfg : Word) : Nat := if fn = 8 then 2 ^ bitsOf cfg 25 24 else 1

/-- The samples that an inbound item brings (R490): SPI and I2S most significant bit first, I2C and I3C the byte (I3C with its
T bit, 1 while the target goes on), UART the data bits from the least significant, parity and stop. -/
def itemSamples (fn : Nat) (cfg : Word) (v : Nat) : List Nat :=
  let w := sampleWidth fn cfg
  if fn = 8 then msbGroups v w (8 / w)
  else if fn = 4 then msbGroups v 1 8 ++ [1]
  else if fn = 5 ∨ fn = 6 ∨ fn = 7 then msbGroups v 1 8
  else if fn = 9 then ((span 0 (if bit cfg 27 then 7 else 8)).map (fun i => if v.testBit i then 1 else 0)) ++ uartParity cfg v ++ [1]
  else if fn = 10 then msbGroups v 1 32
  else []

/-- SAMPLES of one item on lane l (R490): the bits of an inbound item, or the acknowledge bit of an outbound byte of an I2C or
I3C controller lane. -/
def State.jItem (s : State) (l : Nat) (inbound : Bool) (r : ItemResult) : State :=
  if !(s.recording && s.recLane l) then s
  else
    let fn := s.laneFunc l
    let cfg := s.laneCfgNow l
    let w := sampleWidth fn cfg
    let put := fun (vs : List Nat) => vs.foldl (fun t v => t.jSample l w v) s
    match r with
    | .moved v => if inbound then put (itemSamples fn cfg v.toNat) else if fn = 4 ∨ fn = 6 then put [0] else s
    | .noResponse => if fn = 4 ∨ fn = 6 then put [1] else s
    | .dataNack => if fn = 4 ∨ fn = 6 then put [1] else s
    | _ => s

/-- A remote's end of an I3C read: its last T bit was 0. -/
def State.jLastT (s : State) (l : Nat) : State :=
  { s with jn := { s.jn with samples := s.jn.samples.map (fun (k, a, b, w, vs) => if k = l then (k, a, b, w, vs.dropLast ++ [0]) else (k, a, b, w, vs)) } }

/-! ## Samples of a replay (R504) -/

/-- The next n samples of w bits of a lane's records, and what is left of them. -/
def takeSamples (w : Nat) : Nat → List (Nat × Nat) → Option (List Nat × List (Nat × Nat))
  | 0, l => some ([], l)
  | _ + 1, [] => none
  | n + 1, (k, v) :: l =>
    match takeSamples w n (if k ≤ 1 then l else (k - 1, v / 2 ^ w) :: l) with
    | some (vs, rest) => some (v % 2 ^ w :: vs, rest)
    | none => none

/-- The number that samples spell, most significant first. -/
def fromMsb (w : Nat) (vs : List Nat) : Nat := vs.foldl (fun n v => n * 2 ^ w + v) 0

/-- The item that its samples bring, as itemSamples orders them; whether a T bit of 0 ends the transfer. -/
def itemFrom (fn : Nat) (cfg : Word) (vs : List Nat) : ItemResult × Bool :=
  if fn = 4 then (.moved (BitVec.ofNat 32 (fromMsb 1 (vs.take 8))), vs.drop 8 == [0])
  else if fn = 9 then
    let n := if bit cfg 27 then 7 else 8
    let v := packSamples 1 (vs.take n)
    (if vs.drop n = uartParity cfg v ++ [1] then .moved (BitVec.ofNat 32 v) else .protocol, false)
  else (.moved (BitVec.ofNat 32 (fromMsb (sampleWidth fn cfg) vs)), false)

/-- The end of a transfer closes the lane's record (R490). -/
def State.jXferEnd (s : State) (l : Nat) (how : XferEnd) : State :=
  let s := if s.laneFunc l = 4 ∧ how = .remote then s.jLastT l else s
  s.jSamplesEnd l

end Sys2Proof.Machine
end

