-- ==== Sys2Proof/Machine/Lanes.lean ====
section
/-! DEFINITION. What happens on the lanes (chapter 10): items, transfer ends, breaks, interrupts and attention of the
stations, readback faults, the forced safe state, and the stream FIFOs at the lane side.
The log entries that hold here: DESIGN CHOICE 50, 51; PRESUMED 79; DEDUCED 14, 19, 23, 44, 80. -/

namespace Sys2Proof.Machine

/-! ## Stations of a lane -/

/-- The valid stations to which a lane belongs (R288), ascending; the one that an operation holds comes first. -/
def State.stationsOf (s : State) (l : Nat) : List Nat :=
  let all := (s.stations.map (fun p => p.1)).filter (fun n => s.staVALID n && (s.stationLanes n).contains l)
  let held := all.filter (fun n => s.busySlots.any (fun (_, x) => x.w.holding && x.station == n))
  held ++ all.filter (fun n => !held.contains n)

/-- The slot that holds a station itself. -/
def State.holderOf (s : State) (st : Nat) : Option Nat :=
  (s.busySlots.find? (fun (_, x) => x.w.holding && x.station == st)).map (fun p => p.1)

/-- The station ends its operation with UNIT_CHECK: as under R94 (R294). -/
def State.unitCheck (s : State) (key reason : Nat) : State :=
  let x := s.slot key
  s.endOp key (chkUnit reason) x.cur x.haltResidue true

/-- OVERRUN (flag 2, reason 6) or UNDERRUN (flag 3, reason 7) of a lane (R286): SF_STATUS, sense data, and a UNIT_CHECK
where the profile asks for one. -/
def State.flowFault (s : State) (l : Nat) (under : Bool) : State :=
  let s := if under then s.sfStatus (2 * l + 1) 0x10#32 else s.sfStatus (2 * l) 8#32
  match (s.stationsOf l).head? with
  | none => s
  | some st =>
    let s := s.senseFlag st (if under then 3 else 2)
    let hdr := s.reg (profileAddr (s.staProfile st))
    match s.holderOf st with
    | some key => if bit hdr (if under then 2 else 1) then s.unitCheck key (if under then 7 else 6) else s
    | none => s

/-! ## The end of a transfer (R295, R299, R540) -/

/-- The station ends its transfer: STATION_END, with a unit exception where `ux` says so; the bus is kept or released,
and the data chain goes on or ends, unless a mismatch stops the engine (R102). -/
def State.transferEnd (s : State) (l : Nat) (t : Xfer) (how : XferEnd) (ux : Bool) : State :=
  let fn := s.laneFunc l
  let key := t.key
  let x := s.slot key
  let keep := t.laneop.testBit 6 && (fn == 4 || fn == 6) && ccwNext x.ccw && x.st == .running
  let s := (s.arrival key).dropXfer l t
  let s := if busFn fn then (if keep then s.setLane l { s.lane l with busKept := true } else s.emit (.busEnd l 0)) else s
  let s := if fn = 10 then s.setLane l { s.lane l with streamOn := t.laneop.testBit 0, frame := if how = .remote then 0 else (s.lane l).frame } else s
  let s := if t.out then s.flushFifo (2 * l + 1) else s
  let x := s.slot key
  let s := s.setSlot key { x with
    ustat := x.ustat ||| 1#32 ||| bitWord 2 ux, w := { x.w with xferEnd := some how, timerFrom := none } }
  let x := s.slot key
  if !s.engineRuns (keyEngine key) then s
  else if x.st == .halting then
    let s := if t.inn then (s.dataIn key 4200).flushFifo (2 * l) else s
    let x := s.slot key
    (s.setSlot key { x with w := { x.w with ending := x.w.ending.map (fun e => { e with residual := x.haltResidue }) } }).settle key
  else if s.bareCommand x.station x.ccw then s.ccwEnded key 0
  else s.dataProgress key

/-- STATION_TRANSFER_END (R540): the end that the lane function allows. -/
def stationTransferEnd (s : State) (st : Nat) (how : XferEnd) : State :=
  let l := s.staLane st
  match (s.lane l).xfer with
  | none => s
  | some t =>
    let x := s.slot t.key
    let fn := s.laneFunc l
    let hdr := s.reg (profileAddr (s.staProfile st))
    let last := !ccwSpan x.ccw || s.bareCommand st x.ccw
    let sent := (s.fifo (2 * l + 1)).words.isEmpty && (s.fifo (2 * l + 1)).part.isEmpty && t.lead.isEmpty
    let counted := last && sent &&
      (if t.inn then (if streamFn fn then x.remain == 0 else t.want == 0) else !t.out || x.remain == 0)
    if t.station != st || !t.started then s
    else match how with
      | .counted => if counted then s.transferEnd l t how false else s
      | .remote =>
        if fn = 5 ∨ fn = 7 then s.transferEnd l t how false
        else if fn = 4 ∧ t.inn ∧ 0 < t.want then s.transferEnd l t how (bit hdr 17)
        else if fn = 10 ∧ bit hdr 18 then s.transferEnd l t how true
        else s
      | .remoteMore => if (fn = 5 ∨ fn = 7) ∧ t.inn then s.transferEnd l t how false else s

def execStationTransferEnd (st : StationId) (how : XferEnd) (s : State) : Result :=
  .next (if s.mode == 0xA && s.laneFunc (s.staLane st.val) == 4 && how == .remote then s
    else stationTransferEnd (s.jXferEnd (s.staLane st.val) how) st.val how)

/-- UART_BREAK (R295, R540): a received break ends an in transfer where UX [16] is set; else it is not stored. -/
def uartBreak (s : State) (l : Nat) : State :=
  match (s.lane l).xfer with
  | some t =>
    if s.laneFunc l = 9 ∧ t.inn ∧ bit (s.reg (profileAddr (s.staProfile t.station))) 16 then s.transferEnd l t .remote true else s
  | none => s

def execUartBreak (l : LaneId) (s : State) : Result := .next (s.fromOutside (fun s => if s.laneDark l.val then s else uartBreak s l.val))

/-! ## Items (R284 to R286, R299) -/

/-- After an item: a halted transfer at its stop boundary stops (R93), a closing gate closes (R285). -/
def State.itemDone (s : State) (l : Nat) : State :=
  match (s.lane l).xfer with
  | none => s
  | some t =>
    if !t.lead.isEmpty || t.count % s.stopUnit l t.station != 0 then s
    else if t.stopping then (if targetFn (s.laneFunc l) then s else s.reachBoundary l t)
    else if (s.lane l).closing then s.shutGate l
    else s

/-- The inbound FIFO takes the item that comes now: there is room for it, and for I2S/TDM for the rest of its frame (R286). -/
def State.itemFits (s : State) (l : Nat) : Bool :=
  let x := s.lane l
  if s.laneFunc l = 10 then
    !s.fifoFull (2 * l) (if x.frame = 0 then 4 * (bitsOf (s.laneCfg l) 31 28 + 1) else 4) && (x.frame == 0 || !x.dropFrame)
  else !s.fifoFull (2 * l) (itemBytes (s.laneFunc l))

/-- One slot of an inbound I2S/TDM frame has come: the frame of which a slot finds no room is dropped, with OVERRUN once (R286). -/
def State.countSlot (s : State) (l : Nat) : State :=
  let x := s.lane l
  let drop := !s.itemFits l
  let new := drop && (x.frame == 0 || !x.dropFrame)
  let s := s.setLane l { x with frame := (x.frame + 1) % (bitsOf (s.laneCfg l) 31 28 + 1), dropFrame := drop }
  if new then s.flowFault l false else s

/-- Store an inbound item in the lane's FIFO (R286): a full FIFO drops it, with OVERRUN; an I2S/TDM frame goes whole; a UART with flow
control has deasserted RTS, and the character stays with the sender. -/
def State.pushItem (s : State) (l : Nat) (v : Word) : State :=
  let n := itemBytes (s.laneFunc l)
  let fits := s.itemFits l
  let s := s.setLane l { s.lane l with lastItem := s.time }
  let s := if s.laneFunc l = 10 then s.countSlot l else if fits || s.uartFlow l then s else s.flowFault l false
  if fits then (s.pushBytes (2 * l) (leBytes n v.toNat) false).rts l else s

/-- What an outbound item does at the lane (R299): GPIO sets the level, PWM the duty from the next period start, and the first
duty starts the periods; every other item is sent. -/
def State.sendItem (s : State) (l : Nat) (d : List Byte) : State :=
  let fn := s.laneFunc l
  let s := s.setLane l { s.lane l with lastItem := s.time }
  let x := s.lane l
  if fn = 1 then s.driveLane l (if (leNat d % 2 == 1) != bit (s.laneCfg l) 25 then .high else .low)
  else if fn = 2 then
    s.setLane l (if x.duty.isNone then { x with duty := some (leNat d), pwmFrom := s.time } else { x with dutyNext := some (leNat d) })
  else s.emit (.lane l d)

/-- Count `n` bytes moved outbound for a slot, and the arrival that restarts its timer (R98, R121). -/
def State.outMoved (s : State) (l key n : Nat) (t : Xfer) : State :=
  let x := s.slot key
  let s := s.setSlot key { x with remain := x.remain - n, usedBytes := x.usedBytes + n }
  let s := s.setXfer l (some { t with count := t.count + n, owe := t.owe - n })
  (((s.arrival key).timerUpdate key).itemDone l).dataProgress key

/-- An outbound item of an out or CONTROL transfer. -/
def State.itemOut (s : State) (l : Nat) (t : Xfer) (nack : Bool) : State :=
  let q := 2 * l + 1
  let x := s.slot t.key
  let fn := s.laneFunc l
  let n := itemBytes fn
  let empty := (s.fifo q).words.isEmpty
  if empty && fn == 10 && decide (0 < t.owe) then (s.emit (.lane l (rep 4 0#8))).flowFault l true
  else if empty && fn == 5 && decide (0 < t.owe) then
    let s := s.flowFault l true
    match (s.lane l).xfer with
    | some t => s.transferEnd l t .remote false
    | none => s
  else if empty || !s.mayTake q then s
  else
    let (s, d, bad) := s.takeBytes q n
    if bad then s.endOp t.key chkData x.cur x.haltResidue true
    else if x.claimLeft < d.length then s.endOp t.key chkOverrun x.cur x.haltResidue true
    else if nack && !(x.remain == d.length && !ccwSpan x.ccw) then
      let s := s.setSlot t.key { x with usedBytes := x.usedBytes + d.length }
      ((s.sendItem l d).senseFlag t.station 0).unitCheck t.key 3
    else (s.sendItem l d).outMoved l t.key d.length t

/-- Bytes that a FIFO holds. -/
def State.fifoBytes (s : State) (q : Nat) : Nat := (s.fifo q).words.foldl (fun n w => n + w.data.length) (s.fifo q).part.length

/-- An inbound item of an in or exchange transfer; an exchange sends the byte of the same position. A byte above the byte claim
is not stored: what came before it is, and the operation ends (R121). An item that its FIFO does not take has not moved (R286). -/
def State.itemIn (s : State) (l : Nat) (t : Xfer) (v : Word) : State :=
  let fn := s.laneFunc l
  let n := itemBytes fn
  let pauses := fn == 4 || fn == 6 || fn == 7 || fn == 8
  if t.want = 0 ∧ (streamFn fn ∨ fn = 5 ∨ fn = 7) then s.pushItem l v
  else if t.want = 0 then s
  else if s.fifoFull (2 * l) n && pauses then s
  else if !streamFn fn && s.itemFits l && decide ((s.slot t.key).claimLeft < s.fifoBytes (2 * l) + n) then
    let s := (s.closePacket (2 * l)).dataIn t.key 4200
    let x := s.slot t.key
    s.endOp t.key chkOverrun x.cur x.haltResidue true
  else
    let x := s.slot t.key
    if t.out && ((s.fifo (2 * l + 1)).words.isEmpty || !s.mayTake (2 * l + 1)) then s
    else
      let (s, d, bad) := if t.out then s.takeBytes (2 * l + 1) 1 else (s, [], false)
      if bad then s.endOp t.key chkData x.cur x.haltResidue true
      else
        let s := if t.out then s.sendItem l d else s
        let fits := s.itemFits l
        let s := s.pushItem l v
        if !fits then s
        else match (s.lane l).xfer with
        | none => s
        | some t =>
          let s := s.setXfer l (some { t with count := t.count + n, want := t.want - n, owe := t.owe - d.length })
          (((s.arrival t.key).timerUpdate t.key).itemDone l)

/-- Items come in without a transfer: a stream function with its FIFO enabled, an I2S/TDM stream while it is held open (R286, R298). -/
def State.streams (s : State) (l : Nat) : Bool :=
  streamFn (s.laneFunc l) && s.fifoEn (2 * l) && (s.laneFunc l != 10 || (s.lane l).streamOn)

/-- An outbound I2S/TDM stream is held open without a transfer: it sends zero samples (R286, R298). -/
def State.silent (s : State) (l : Nat) : Bool := s.laneFunc l == 10 && (s.lane l).streamOn && !bit (s.laneCfg l) 25

/-- A framing or parity error of a character that comes in without a transfer: PROTOCOL in the station's sense data,
and the operation that holds the station ends (R286, R293, R294). -/
def State.strayFault (s : State) (l : Nat) : State :=
  match (s.stationsOf l).head? with
  | none => s
  | some st =>
    let s := s.senseFlag st 1
    match s.holderOf st with
    | some key => s.unitCheck key 4
    | none => s

/-- The item that the lane engine makes of an inbound item's word (R282, R299): bit 0 on GPIO, the capture record of this tick with the
level after the edge in [31], 7 data bits with DATA7. -/
def State.itemValue (s : State) (l : Nat) (v : Word) : Word :=
  let fn := s.laneFunc l
  if fn = 1 then v &&& 1#32
  else if fn = 3 then captureRecord s.time (bit v 31)
  else if fn = 9 ∧ bit (s.laneCfg l) 27 then v &&& 0x7F#32
  else v

/-- A CAPTURE lane records the edges that its options select (R282, R314). -/
def State.edgeKept (s : State) (l : Nat) (v : Word) : Bool :=
  s.laneFunc l != 3 || (match bitsOf (s.laneCfg l) 25 24 with | 0 => bit v 31 | 1 => !bit v 31 | _ => true)

/-- LANE_ITEM (R299): one item on a lane, in the direction given, with what became of it. -/
def laneItem (s : State) (l : Nat) (inbound : Bool) (r : ItemResult) : State :=
  let fn := s.laneFunc l
  if !s.domOn (pgDom (l / 12)) || s.forcedSafe || fn == 0 || decide (11 ≤ fn) || s.laneDark l then s
  else
    match (s.lane l).xfer, r with
    | none, .moved v =>
      if inbound && s.streams l then (if s.edgeKept l v then s.pushItem l (s.itemValue l v) else s)
      else if !inbound && s.silent l then (s.emit (.lane l (rep 4 0#8))).flowFault l true
      else s
    | none, .protocol => if inbound && fn == 9 && s.streams l then s.strayFault l else s
    | none, _ => s
    | some t, r =>
      if !t.started || s.atGate l then s
      else
        let running := (s.slot t.key).st == .running
        match r with
        | .moved v =>
          let v := if inbound then s.itemValue l v else v
          if !serves fn t inbound || (inbound && !s.edgeKept l v) then s
          else if inbound then (if t.inn && t.lead.isEmpty then s.itemIn l t v else if streamFn fn && !t.inn && s.fifoEn (2 * l) then s.pushItem l v else s)
          else
            match t.lead with
            | b :: bs =>
              let s := (s.emit (.lane l [b])).setXfer l (some { t with lead := bs })
              (((s.arrival t.key).timerUpdate t.key).itemDone l)
            | [] => if t.out && !t.inn then s.itemOut l t false else s
        | .noResponse => if (fn == 4 || fn == 6) && running then (s.senseFlag t.station 0).unitCheck t.key 2 else s
        | .dataNack => if (fn == 4 || fn == 6) && running && !inbound && t.out && t.lead.isEmpty then s.itemOut l t true else s
        | .protocol => if (fn == 4 || fn == 5 || fn == 9) && running then (s.senseFlag t.station 1).unitCheck t.key 4 else s
        | .arbLost => if fn == 6 && running then (s.senseFlag t.station 5).unitCheck t.key 9 else s

/-- An item of a replayed lane engine (R504): its input comes from SAMPLES records in order, from the ball of a GPIO lane, or
from the capture of an edge. A T bit of 0 ends an I3C read. Where records beyond its time hold no sample, the input diverges
(R506); until they are read, the item waits. -/
def replayLaneItem (s : State) (l : Nat) (inbound : Bool) : State :=
  let fn := s.laneFunc l
  let cfg := s.laneCfgNow l
  let w := sampleWidth fn cfg
  let n := if inbound then (itemSamples fn cfg 0).length else if fn = 4 ∨ fn = 6 then 1 else 0
  let started := match (s.lane l).xfer with | some t => t.started && !s.atGate l | none => inbound && s.streams l
  if !started then s
  else if n = 0 then
    laneItem s l inbound (.moved (if !inbound then 0#32 else if fn = 3 then captureRecord s.time (s.lane l).ball
      else if (s.lane l).ball != bit cfg 25 then 1#32 else 0#32))
  else match takeSamples w n (SMap.get [] s.jn.samplesIn l) with
  | none =>
    if s.jn.recs.any (fun r => r.type == 4 || r.type == 5) || decide (s.time + 120000 ≤ s.jn.lastAt) then s.diverge 5 0x3FFF 0 else s
  | some (vs, rest) =>
    let s : State := { s with jn := { s.jn with samplesIn := SMap.set [] s.jn.samplesIn l rest } }
    if inbound then
      let (r, last) := itemFrom fn cfg vs
      let t := laneItem s l true r
      if last then
        match (t.lane l).xfer with
        | some x => stationTransferEnd t x.station .remote
        | none => t
      else t
    else
      let lead := match (s.lane l).xfer with | some t => !t.lead.isEmpty | none => false
      laneItem s l false (if vs = [0] then .moved 0#32 else if lead then .noResponse else .dataNack)

def execLaneItem (l : LaneId) (inbound : Bool) (r : ItemResult) (s : State) : Result :=
  .next (if s.mode == 0xA then replayLaneItem s l.val inbound else laneItem (s.jItem l.val inbound r) l.val inbound r)

/-- STREAM_IDLE_CLOSE (R307): a partial inbound word of a stream function is closed as EOP. -/
def streamIdleClose (s : State) (l : Nat) : State :=
  if streamFn (s.laneFunc l) && !(s.fifo (2 * l)).part.isEmpty && s.domOn (pgDom (l / 12)) then s.closePacket (2 * l) else s

def execStreamIdleClose (l : LaneId) (s : State) : Result := .next (streamIdleClose s l.val)

/-! ## Lanes that return to their configuration (R94, R228, R297) -/

/-- A lane due to return does so on this tick, once no function reset of a station that it belongs to is in progress (R228 step 3). -/
def State.laneReturn (s : State) (l : Nat) : State :=
  if !(s.lane l).idleDue || s.forcedSafe || !s.domOn (pgDom (l / 12)) ||
      (s.stationsOf l).any (fun n => (s.fn (s.staOwner n)).resetAt.isSome) then s
  else s.laneIdle l

/-- The lanes that are due. -/
def State.laneReturns (s : State) : State := (s.lanes.map (fun p => p.1)).foldl (fun t l => t.laneReturn l) s

/-! ## PWM outputs (R282, R299, R314) -/

/-- The level of a PWM output in cycle k of a period of p cycles with duty d: high for floor(p d / 65,536) cycles from its start, or
around its middle with CENTRE; 0xFFFF holds it high; INV inverts it. -/
def pwmLevel (cfg : Word) (p d k : Nat) : Bool :=
  let high := if d = 0xFFFF then p else p * d / 65536
  let from_ := if bit cfg 25 then (p - high) / 2 else 0
  (decide (from_ ≤ k) && decide (k < from_ + high)) != bit cfg 24

/-- Length of a cycle of the clock of a port group (R278). -/
def State.pgCycle (s : State) : Nat := if s.tickAon then 25 else 3

/-- The PWM output of a lane now: at a period start the next duty comes into force. -/
def State.pwmTick (s : State) (l : Nat) : State :=
  let x := s.lane l
  let p := bitsOf (s.laneTim l) 23 0
  match x.duty with
  | none => s
  | some d =>
    if s.laneFunc l != 2 || !s.domOn (pgDom (l / 12)) || s.forcedSafe || p == 0 then s
    else
      let n := (s.time - x.pwmFrom) / s.pgCycle
      let x := if p ≤ n then { x with pwmFrom := x.pwmFrom + n / p * p * s.pgCycle, duty := x.dutyNext.or x.duty, dutyNext := none } else x
      (s.setLane l x).driveLane l (if pwmLevel (s.laneCfg l) p (x.duty.getD d) (n % p) then .high else .low)

/-- The PWM outputs now. -/
def State.pwmTicks (s : State) : State := (s.lanes.map (fun p => p.1)).foldl (fun t l => t.pwmTick l) s

/-! ## Attention (R291, R293) -/

/-- The attention latch sets, where it is not set already; ATTN_T0 records the tick. -/
def State.attend (s : State) (st : Nat) : State :=
  let x := s.station st
  if x.latch then s else s.setStation st { x with latch := true, attnT0 := s.t0 }

/-- An attention event of a kind reaches a station (R291). -/
def attentionEvent (s : State) (st : Nat) (k : AttnKind) : State :=
  let w := (s.station st).w2
  let fn := s.laneFunc (s.staLane st)
  if !s.staVALID st || !s.domOn (pgDom (s.staLane st / 12)) || s.laneDark (s.staLane st) then s
  else
    match k with
    | .edge rising =>
      let l := bitsOf w 6 0
      let s := (s.setLane l { s.lane l with ball := rising }).jEdge l rising
      let e := bitsOf w 28 27
      if bit w 31 && (bitsOf w 30 29 == 0 || bitsOf w 30 29 == 2) && (e == 2 || (e == 0 && rising) || (e == 1 && !rising)) then s.attend st else s
    | .protocol =>
      if bit w 31 && (bitsOf w 30 29 == 1 || bitsOf w 30 29 == 2) && (fn == 5 || fn == 7) then s.attend st else s

def execAttentionEvent (st : StationId) (k : AttnKind) (s : State) : Result := .next (s.fromOutside (fun s => attentionEvent s st.val k))

/-- IBI (R291, R293): an in-band interrupt from a station's DYNADDR. -/
def ibi (s : State) (st : Nat) (payload : List Byte) : State :=
  let l := s.staLane st
  if !s.staVALID st || s.laneFunc l != 4 || !bit (s.laneCfg l) 25 || !s.domOn (pgDom (l / 12)) || s.laneDark l then s
  else
    let x := s.station st
    let s := s.setStation st { x with ibiCount := (x.ibiCount + 1) % 256, ibiData := payload.take 8 }
    if bit x.w2 31 && (bitsOf x.w2 30 29 == 1 || bitsOf x.w2 30 29 == 2) then s.attend st else s

def execIbi (st : StationId) (payload : List Byte) (s : State) : Result := .next (s.fromOutside (fun s => ibi s st.val payload))

/-! ## Readback (R300) -/

/-- Lane l takes part in the traffic of its engine (R300): SCL and SDA of a bus, SPI's clock, select and outbound data lanes, and the
clocks and outbound data of an I2S/TDM controller are driven in some cycles of a transfer, and SCL of a bus that is kept. -/
def State.busDriven (s : State) (l : Nat) : Bool :=
  let p := s.primaryOf l
  let fn := s.laneFunc p
  let cfg := s.laneCfg p
  let k := l - p
  let i2s := fn == 10 && ((!bit cfg 24 && decide (k < 2)) || (!bit cfg 25 && k == 2))
  match (s.lane p).xfer with
  | some t =>
    t.started && ((decide (4 ≤ fn) && decide (fn ≤ 7)) || i2s ||
      (fn == 8 && (decide (k < 3) || (t.out && decide (k < 2 + 2 ^ s.spiWidth p)))))
  | none => ((fn == 4 || fn == 6) && (s.lane p).busKept && k == 0) || (i2s && (s.lane p).streamOn)

/-- The part actively drives lane l, now or in some cycles of a transfer in progress; an open-drain output only while it is low (R300). -/
def State.laneDriven (s : State) (l : Nat) : Bool :=
  let d := (s.lane l).drive
  !s.laneDark l && (d == .low || (d == .high && !bit (s.laneCfg l) 15) || s.busDriven l)

/-- The readback fault of lane l stands in PG_STATUS and PG_RB_LAST (R300, R313). -/
def State.rbErr (s : State) (l : Nat) : State :=
  (s.setReg (0x0470000C + 0x10000 * (l / 12)) (BitVec.ofNat 32 (2 ^ 31 + l))).setStatus (pgStatus (l / 12)) 2#32

/-- READBACK_FAULT (R300): four mismatches in a row on a driven lane, an open-drain one while it drives low; readback is off in REPLAY (R504). -/
def readbackFault (s : State) (l : Nat) : State :=
  let pg := l / 12
  if s.mode == 0xA || !s.domOn (pgDom pg) || !s.laneDriven l then s
  else
    let s := s.rbErr l
    match (s.stationsOf l).head? with
    | none => s.report (21 + pg) (l % 12) 1 18 pg 0 (BitVec.ofNat 32 l) true
    | some st =>
      let s := (s.senseFlag st 4).report (21 + pg) (l % 12) 1 (s.staOwner st) l 0 (BitVec.ofNat 32 l) true
      match s.holderOf st with
      | some key => s.unitCheck key 5
      | none => s

def execReadbackFault (l : LaneId) (s : State) : Result := .next (readbackFault s l.val)

/-! ## Forced safe state (R301 to R303, R451) -/

/-- Forced safe state starts (R301, R302): SAFE sets in every station's sense data. -/
def State.forceSafe (s : State) : State :=
  if bit (s.reg 0x04780004) 31 then s
  else
    let s := s.setStatus 0x04780004 0x80000000#32
    let s : State := { s with safeMark := s.safeMark + 1 }
    let s := (span 0 96).foldl (fun t l => if t.domOn (pgDom (l / 12)) then t.laneToSafe l else t) s
    let s := (s.busySlots.map (fun p => p.1)).foldl (fun t key =>
      if (t.slot key).w.holding then t.unitCheck key 8 else t) s
    State.endLaunches { s with
      lanes := SMap.mapAll {} (fun x => { x with xfer := none, gateOpen := false, closing := false, idleDue := false }) s.lanes,
      launches := s.launches.map (fun x => { x with open_ := [] }) }

/-- An FT reaction is in progress: FTACT (R394). -/
def State.ftActive (s : State) : Bool := s.ftReact.isSome

/-- Forced safe state is released: FORCED clears, every station returns to its initial state, and the lanes take their configuration
again (R297, R303). -/
def State.releaseSafe (s : State) : State :=
  let s := s.setReg 0x04780004 (s.reg 0x04780004 &&& 0x7FFFFFFF#32)
  let s := (s.stations.map (fun p => p.1)).foldl (fun t n =>
    if t.staVALID n then t.stationInitial n else t.setStation n (t.station n).initial) s
  (span 0 96).foldl (fun t l => if t.domOn (pgDom (l / 12)) then t.idleLater l else t) s

/-- A write of PG_CM_CTRL (R301, R303, R458). -/
def State.pgCmCtrl (s : State) (v : Word) : State :=
  if bit v 0 then
    let s := if bit v 1 then s.cfgErr 0x04780004 else s
    s.forceSafe
  else if bit v 1 && s.forcedSafe && s.safen && !s.ftActive && s.mode != modeRecovery then s.releaseSafe
  else s

/-- SAFEN_LOW (R301): SAFEN has been low for 50 ns. SAFENSEEN sets where that starts forced safe state (R315). -/
def safenLow (s : State) : State :=
  let t : State := { s with safen := false }
  if bit (s.reg 0x04780004) 31 then t else t.forceSafe.setStatus 0x04780004 2#32

def execSafenLow (s : State) : Result := .next (safenLow s)

/-- SAFEN_HIGH (R303, R451): in FILL, SELFTEST and the boot-loader stages a forced safe state that SAFEN caused ends by
itself. -/
def safenHigh (s : State) : State :=
  let s : State := { s with safen := true }
  let stage := bitsOf (s.reg 0x04E00008) 31 28
  if s.forcedSafe && decide (stage < 6) && !s.ftActive && bit (s.reg 0x04780004) 1 then s.releaseSafe else s

def execSafenHigh (s : State) : Result := .next (safenHigh s)

end Sys2Proof.Machine
end

