-- ==== Sys2Proof/Machine/Tempo.lean ====
section
/-! DEFINITION. The tempo sources (R136 to R148, R157): edges, host time, holdover, loss, the duplicated counters and
the change of tempo clock.
The log entries that hold here: DESIGN CHOICE 61; DEDUCED 24. -/

namespace Sys2Proof.Machine

/-- TP_STATUS bits. -/
def tpStatus : Nat := 0x04500004

/-- Whole ticks between two times. -/
def State.ticksFrom (s : State) (t : Nat) : Nat := (s.time - t) / s.tickLen

/-- Edges per period of source n (R136): T7 counts every cycle. -/
def State.srcDiv (s : State) (n : Nat) : Nat := if n = 7 then 1 else bitsOf (s.srcCfg n) 23 12 + 1

/-- T6 takes CK_AUD (R136). -/
def State.audclk (s : State) (n : Nat) : Bool := n == 6 && bit (s.srcCfg 6) 26

/-- Source n has a lane as its input. -/
def State.srcHasLane (s : State) (n : Nat) : Bool := decide (2 ≤ n) && n != 7 && !s.audclk n

def State.srcLane (s : State) (n : Nat) : Nat := bitsOf (s.srcCfg n) 6 0

/-- The lane function that R136 lists for source n. -/
def srcFunc (n : Nat) : Nat := if n = 4 ∨ n = 5 then 3 else 0xB

/-- PM_CLK (R429): the ball of AUDLANE gives CK_AUD, and not the audio PLL. -/
def State.audExternal (s : State) : Bool := bit (s.reg 0x04D0003C) 1

/-- The lane whose ball is the input of source n: LANE of its CFG, or AUDLANE of PM_CLK for an external CK_AUD (R136, R429). -/
def State.srcBall (s : State) (n : Nat) : Option Nat :=
  if s.srcHasLane n then some (s.srcLane n)
  else if s.audclk n && s.audExternal then some (bitsOf (s.reg 0x04D0003C) 14 8)
  else none

/-- The input of source n is powered, its lane's input is not ignored (R277), and it counts in this mode (R144, R156, R429). -/
def State.srcPowered (s : State) (n : Nat) : Bool :=
  match s.srcBall n with
  | some l => s.domOn (pgDom (l / 12)) && !s.laneDark l
  | none => if n = 1 then s.domOn domU4RT else if n = 6 then !s.tickAon else true

/-- Selected by EDGE (R138). -/
def edgeSelected (cfg : Word) (rising : Bool) : Bool :=
  match bitsOf cfg 30 29 with
  | 0 => rising
  | 1 => !rising
  | _ => true

/-- Sum of a list. -/
def listSum (l : List Nat) : Nat := l.foldl (· + ·) 0

/-- The intervals each lie within TOL percent of their mean (R142). -/
def intervalsAgree (l : List Nat) (tol : Nat) : Bool :=
  let sum := listSum l
  let k := l.length
  l.all (fun i => decide ((max (i * k) sum - min (i * k) sum) * 100 ≤ tol * sum))

/-! ## Loss (R54, R137, R144, R145) -/

/-- A slot WAITING on a source that has just become tempo-lost (R54): not one whose condition is met on this tick
(R147). -/
def State.slotLoses (s : State) (key n : Nat) : State :=
  let x := s.slot key
  if x.st != .waiting || ccwMode x.ccw == 0 || ccwSrc x.ccw != n || x.w.localAt.isSome || s.whenHolds x then s
  else if ccwFb x.ccw then s.toLocalTime key
  else s.checkNow key chkTempoLost

/-- Every slot that waits on source n meets its loss. -/
def State.lossSlots (s : State) (n : Nat) : State :=
  (s.busySlots.map (fun p => p.1)).foldl (fun t k => t.slotLoses k n) s

/-- Source n becomes LOST at this tick, frozen at position `p` (R142, R144, R148); one that is tempo-lost already stays in the
same stretch (R145). -/
def State.srcLose (s : State) (n p : Nat) : State :=
  let x := s.src n
  let s := s.moveSrc n { x with
    st := .lost, base := p, e := s.time, floor := p, lossAt := (if s.tempoLost n then x.lossAt else s.time), hist := [], edges := 0
    lastBound := none }
  (s.setStatus tpStatus 2#32).lossSlots n

/-- Source n stops being enabled at this tick (R137): every CCW that waits on it meets a tempo loss, then it is OFF. -/
def State.srcOff (s : State) (n : Nat) : State :=
  let x := s.src n
  let p := s.pos n
  let s := s.moveSrc n { x with
    st := .lost, base := p, e := s.time, floor := p, lossAt := s.time, hist := [], edges := 0, lastBound := none, cand := none }
  let s := s.lossSlots n
  s.setSrc n { s.src n with st := .off }

/-- The input domain of source n turns off: the source becomes LOST at once, and LOST sets (R144, R159); one in ACQUIRE keeps
its tempo-lost stretch (R145). -/
def State.srcInputOff (s : State) (n : Nat) : State :=
  let x := s.src n
  if x.st = .off ∨ x.st = .lost then s
  else if x.st = .acquire then (s.setSrc n { x with st := .lost, cand := none }).setStatus tpStatus 2#32
  else (s.setSrc n { x with cand := none }).srcLose n (s.pos n)

/-- Source n becomes enabled (R142, R144). -/
def State.srcOn (s : State) (n : Nat) : State :=
  let x := s.src n
  s.setSrc n { x with
    st := .acquire, pest := nomPest s.tickAon (s.srcNom n), hist := [], edges := 0, lastBound := none, lastEdge := none,
    fromLost := false, lossAt := s.time, e := s.time, cand := none }

/-! ## Edges (R138 to R144) -/

/-- P_est after a boundary in LOCKED: the mean of the last 1, 2, 4 or 8 complete periods (R139). While fewer are known, the
mean of those there are, the intervals measured in ACQUIRE among them: DESIGN CHOICE (notes/assumptions/61.md). -/
def meanOf (avg : Nat) (hist : List Nat) : Nat :=
  let l := hist.take (2 ^ avg)
  listSum l / l.length

/-- Whole ticks from `t` to a later time `u`. -/
def State.ticksTo (s : State) (t u : Nat) : Nat := (u - t) / s.tickLen

/-- A period boundary of source n whose edge the ball had at time `at_`, which is now or up to FILT ticks ago (R138, R139, R142
to R144). The position counts from `at_`, and never falls back behind what it has been. -/
def State.boundary (s : State) (n at_ : Nat) : State :=
  let x := s.src n
  let iv := x.lastBound.map (fun t => s.ticksTo t at_ * 256)
  let hist := match iv with | some i => (i :: x.hist).take 15 | none => x.hist
  let lockn := bitsOf (s.srcLimit n) 7 4
  let tol := bitsOf (s.srcLimit n) 23 16
  let count := x.base / 4096
  match x.st with
  | .acquire =>
    let x := { x with hist := hist, lastBound := some at_ }
    let win := hist.take lockn
    if decide (lockn ≤ hist.length) && intervalsAgree win tol && (n != 7 || s.aonArmed) then
      let b := (count + 1) * 4096
      let s := s.moveSrc n { x with
        st := .locked, pest := listSum win / lockn, base := b, e := at_, floor := b
        relock := (if x.fromLost then (x.relock + 1) % 256 else x.relock), fromLost := false }
      if x.fromLost then s.setStatus tpStatus 4#32 else s
    else s.setSrc n x
  | .locked =>
    let b := (count + 1) * 4096
    let b := if b ≤ x.floor then (x.floor / 4096 + 1) * 4096 else b
    s.moveSrc n { x with
      hist := hist, lastBound := some at_, base := b, e := at_, floor := b
      pest := (if iv.isSome then meanOf (bitsOf (s.srcCfg n) 28 27) hist else x.pest) }
  | .holdover =>
    let p := s.posAt n at_
    if p % 4096 ≥ 2048 then
      let b := (p / 4096 + 1) * 4096
      s.moveSrc n { x with st := .locked, base := b, e := at_, floor := max b (s.pos n), lastBound := some at_ }
    else s.moveSrc n { x with st := .locked, base := p / 4096 * 4096, e := at_, floor := s.pos n, lastBound := some at_ }
  | _ => s

/-- A counted edge of source n: LOST leads to ACQUIRE, and every DIV-th edge is a boundary (R138, R142). -/
def State.countedEdge (s : State) (n at_ : Nat) : State :=
  let x := s.src n
  let x := if x.st = .lost then { x with st := .acquire, fromLost := true, hist := [], edges := 0, lastBound := none } else x
  let k := x.edges + 1
  let s := s.setSrc n { x with lastEdge := some at_, edges := (if s.srcDiv n ≤ k then 0 else k) }
  if s.srcDiv n ≤ k then (if s.audclk n then s.jTempo n 0 else s).boundary n at_ else s

/-- A level of source n has been stable for FILT ticks since the edge at time `at_`: edge selection, plausibility and division
(R138, steps 2 to 4). -/
def State.stableEdge (s : State) (n at_ : Nat) (rising : Bool) : State :=
  let x := s.src n
  if s.srcHasLane n ∧ !edgeSelected (s.srcCfg n) rising then s
  else
    let glitch := s.setSrc n { x with glitch := (x.glitch + 1) % 65536 }
    match x.lastEdge with
    | none => s.countedEdge n at_
    | some t =>
      let k := s.ticksTo t at_
      if k < 4 then glitch
      else if (x.st = .locked ∨ x.st = .holdover) ∧ k * 256 * 100 * s.srcDiv n < bitsOf (s.srcLimit n) 15 8 * x.pest then glitch
      else s.countedEdge n at_

/-- FILT of source n as a length of time in the present tick (R138, R157); only a lane input is filtered. -/
def State.filtTime (s : State) (n : Nat) : Nat := if s.srcHasLane n then bitsOf (s.srcLimit n) 3 0 * s.tickLen else 0

/-- INPUT_EDGE (R138): the level at the input of source n changes. It counts once it has been stable for FILT ticks, with the
tick of the ball as its timestamp; a level that goes back sooner leaves no edge. -/
def inputEdge (s : State) (n : Nat) (rising : Bool) : State :=
  let x := s.src n
  if n = 0 ∨ n = 1 ∨ x.st = .off ∨ !s.srcPowered n then s
  else if s.filtTime n = 0 then s.stableEdge n s.time rising
  else match x.cand with
    | some (_, _, r) =>
      s.setSrc n { x with cand := if r = rising then some (s.time, s.time + s.filtTime n, rising) else none }
    | none => s.setSrc n { x with cand := some (s.time, s.time + s.filtTime n, rising) }

/-- The edge of source n that has been stable for FILT ticks by now counts (R138). -/
def State.settleEdge (s : State) (n : Nat) : State :=
  match (s.src n).cand with
  | some (at_, due, rising) =>
    if due ≤ s.time then (s.setSrc n { s.src n with cand := none }).stableEdge n at_ rising else s
  | none => s

/-- The edges that become stable on this tick, the first thing on it (R138, R146). -/
def State.settleEdges (s : State) : State := (span 2 14).foldl State.settleEdge s

/-- An edge of source n that the filter still holds may be one that came in time for something due at time `t` (R138, R147). -/
def State.edgeAhead (s : State) (n t : Nat) : Bool := match (s.src n).cand with | some (at_, _, _) => decide (at_ ≤ t) | none => false

/-- The tick on which source n becomes overdue, as a time (R142). -/
def State.overdueAt (s : State) (n : Nat) : Nat :=
  let x := s.src n
  x.e + x.pest * (100 + bitsOf (s.srcLimit n) 23 16) / 100 / 256 * s.tickLen

/-- SOURCE_OVERDUE (R142, R143): no boundary within P_est and TOL; T7 has it from its clock monitor. An edge that the filter
still holds and that came in time is waited for (R147). -/
def sourceOverdue (s : State) (n : Nat) : State :=
  let x := s.src n
  if n = 0 ∨ n = 1 ∨ x.st ≠ .locked then s
  else if n = 7 then s.moveSrc n { x with st := .holdover, holdFrom := s.time }
  else if s.overdueAt n ≤ s.time ∧ !s.edgeAhead n (s.overdueAt n) then
    s.moveSrc n { x with st := .holdover, holdFrom := s.overdueAt n }
  else s

/-- HOLDOVER_EXPIRY (R142, R144): the holdover has lasted HOLD microseconds. -/
def holdoverExpiry (s : State) (n : Nat) : State :=
  let x := s.src n
  let end_ := x.holdFrom + s.srcHold n * 1200
  if x.st = .holdover ∧ end_ ≤ s.time ∧ !s.edgeAhead n end_ then s.srcLose n (s.pos n) else s

/-! ## Host time (R136, R142, R143, R226) -/

/-- TSYNC of HP_LINK. -/
def State.setTsync (s : State) (b : Bool) : State :=
  s.setReg 0x0400000C (putBits (s.reg 0x0400000C) 29 29 (if b then 1 else 0))

/-- HOST_TIME_UPDATE (R142): an in-sync update; `t` is host time as a position (microseconds and phase). -/
def hostTimeUpdate (s : State) (t : Nat) : State :=
  if !s.domOn domU4RT then s
  else
    let s := (s.setTsync true).jTempo 1 t
    let x := s.src 1
    if x.st = .off then s
    else
      let p := s.pos 1
      let k := s.ticksFrom x.e
      let pest := if x.st = .locked ∧ x.base < t ∧ 0 < k then k * 256 * 4096 / (t - x.base) else x.pest
      let relock := x.st = .lost
      let s := s.moveSrc 1 { x with
        st := .locked, base := t, e := s.time, floor := p, pest := pest
        relock := (if relock then (x.relock + 1) % 256 else x.relock) }
      if relock then s.setStatus tpStatus 4#32 else s

/-- HOST_SYNC_LOSS (R226): T1 goes into HOLDOVER. -/
def hostSyncLoss (s : State) : State :=
  let s := s.setTsync false
  let x := s.src 1
  if x.st = .locked then s.moveSrc 1 { x with st := .holdover, holdFrom := s.time } else s

/-! ## Duplicated counters (R148) -/

/-- DUP_COUNTER_MISMATCH (R148): the copies of source n disagree; `other` is the second copy's position. A source in OFF is not
enabled and cannot be LOST (R141); it stays OFF, frozen at the lower position, and the rest happens: DEDUCED (log entry 24). -/
def dupCounterMismatch (s : State) (n other : Nat) : State :=
  if n = 0 then s.report 20 0 2 18 0 0 0#32
  else
    let x := s.src n
    let p := min (s.pos n) other
    let s := if x.st = .off then s.moveSrc n { x with base := p, floor := p } else s.srcLose n p
    let s := s.setReg 0x04500010 (BitVec.ofNat 32 (2 ^ 31 + n))
    (s.setStatus tpStatus 8#32).report 19 (n - 1) 1 18 n 0 0#32

/-! ## Change of the tempo clock (R122, R157) -/

/-- Rescale a number of ticks (or of ticks times 256) to the new tick length. -/
def rescale (old new n : Nat) : Nat := n * old / new

/-- TEMPO_CLOCK_CHANGE (R157): at T0's period boundary the requested clock takes over; estimates are rescaled, no
position steps backwards, and USED_BUSY is rescaled, rounding up (R122). -/
def tempoClockChange (s : State) : State :=
  match s.clkReq with
  | none => s
  | some aon =>
    if s.time % 1200 ≠ 0 then s
    else if aon = s.tickAon then { s with clkReq := none }
    else
      let old := s.tickLen
      let new := if aon then 25 else 6
      let srcs := (span 1 15).map (fun n =>
        let x := s.src n
        (n, { x with pest := rescale old new x.pest, hist := x.hist.map (rescale old new), floor := max x.floor (s.pos n) }))
      let slots := s.slots.map (fun (k, x) =>
        (k, if x.st != .idle then { x with busyBase := ceilDiv (s.usedBusy x * old) new, w := { x.w with busyMark := s.time } } else x))
      let s' : State := { s with tickAon := aon, clkReq := none, slots := slots }
      srcs.foldl (fun t (n, x) => t.setSrc n { x with prev := some (s.time, s.posBefore n) }) s'

def execTempoClockChange (s : State) : Result := .next (tempoClockChange s)

end Sys2Proof.Machine
end

