-- ==== Sys2Proof/Machine/Access.lean ====
section
/-! DEFINITION. Who may touch what (R22, R25 to R28, R486): the test of an addressed access, its refusal, and a
register write as the table's register rows make it.
The log entries that hold here: DESIGN CHOICE 37, 55; DEDUCED 29, 46, 52. -/

namespace Sys2Proof.Machine

/-! ## Right and refusal (R22, R26 to R28) -/

/-- The lifecycle state: 0 BLANK, 1 DEVELOP, 2 FIELD, 3 RETIRED (R485). -/
def State.life (s : State) : Nat := s.fuses.lifecycle.val

/-- HOLDER of PM_REINS: true where the Pommel half holds the reins (R434). -/
def State.holderPommel (s : State) : Bool := bit (s.reg 0x04D00018) 31

/-- The half pair's mailbox registers (R369). -/
def isHalfBox (a : Nat) : Bool := decide (0x04B02000 ≤ a) && decide (a < 0x04B02020)

/-- The power domain in which the register at `a` lies (R16, R103, R274, R315, R316, R351, R369, R378, R460, R508). -/
def regDom (a : Nat) : Nat :=
  let off := a % 0x100000
  match a / 0x100000 with
  | 0x40 => domU4RT
  | 0x41 => domU4RT
  | 0x42 => domU4RT
  | 0x43 => domU4RT
  | 0x44 => if off < 0x80000 then domU4RT else 0
  | 0x46 => sqDom (off / 0x40000)
  | 0x47 => if off < 0x80000 then pgDom (off / 0x10000) else 0
  | 0x48 => if off < 0x80000 then pgDom (off / 0x10000) else 0
  | 0x4B => if isHalfBox a then 0 else domMGMT
  | 0x4F => domJNL
  | _ => 0

/-- The reins-governed registers: all of TP_, PG_ and SF_, and the CE_ registers of CE-A (R27). -/
def reinsGoverned (a : Nat) : Bool :=
  let b := a / 0x100000
  b == 0x45 || b == 0x47 || b == 0x48 || (b == 0x44 && decide (0x80000 ≤ a % 0x100000))

/-- Registers that REGWR records cover: writes by the cores or debug are refused in REPLAY (R490, R504). -/
def replayCovered (a : Nat) : Bool :=
  let b := a / 0x100000
  b == 0x41 || b == 0x42 || b == 0x43 || (b == 0x44 && decide (a % 0x100000 < 0x80000)) || b == 0x45 || b == 0x46 ||
    b == 0x47 || b == 0x48 || b == 0x49 || (decide (0x04A00600 ≤ a) && decide (a < 0x04A00700))

/-- The host-facing blocks FN_, QM_ and HP_ (R26). -/
def hostFacing (a : Nat) : Bool := a / 0x100000 == 0x40 || a / 0x100000 == 0x41 || a / 0x100000 == 0x42

/-- An address inside the register blocks (R19). -/
def isReg (a : Nat) : Bool := decide (0x04000000 ≤ a) && decide (a < 0x05000000)

/-- The lifecycle lets debug access a register (R486). -/
def State.debugRegMay (s : State) (a : Nat) (wr : Bool) : Bool :=
  match s.life with
  | 0 => true
  | 1 => true
  | 2 => !wr && (a / 0x100000 == 0x4E || a == 0x04D00008 || a == 0x04C00004)
  | _ => !wr && a / 0x100000 == 0x4E

/-- The box of the half pair that a core does not own is refused to it (R369). -/
def boxOwned (m : Master) (a : Nat) : Bool :=
  match m with
  | .pommel => !(a == 0x04B02004 || a == 0x04B02008)
  | .cantle => !(a == 0x04B02000 || a == 0x04B0200C)
  | _ => true

/-- Function f's own view of FN_ or QM_ through BAR0 (R26, R181, R232). -/
def ownView (f a : Nat) : Bool :=
  (decide (0x04100000 + 0x10000 * f ≤ a) && decide (a < 0x04108000 + 0x10000 * f)) ||
    (decide (0x04200000 + 0x10000 * f ≤ a) && decide (a < 0x04208000 + 0x10000 * f))

/-- BAR0 of function f answers: D0, Memory Space Enable, tunnel carried; in REPLAY only PF0's FN_ view does
(R224, R504). -/
def State.bar0Answers (s : State) (f a : Nat) : Bool :=
  s.inD0 f && s.memSpace f && s.carried && (s.mode != 0xA || (f == 0 && a / 0x100000 == 0x41))

/-- What becomes of a register access. -/
inductive Right where
  /-- performed -/
  | may
  /-- refused under R22 -/
  | refused
  /-- refused under R27: also logged as a control-class fault -/
  | reins
  /-- a host function's access while a reset of the function runs: a read returns 0, a write is dropped (R228) -/
  | resetting
deriving DecidableEq, Repr

/-- The right of master m to read or write the register at `a` (R26 to R28, R369, R486, R504). -/
def State.regRight (s : State) (m : Master) (a : Nat) (wr : Bool) : Right :=
  match m with
  | .host f =>
    if !ownView f.val a || !s.bar0Answers f.val a then .refused
    else if (s.fn f.val).resetAt.isSome && !(a == 0x04100004 + 0x10000 * f.val && !wr) then .resetting
    else .may
  | .debug => if isReg a && s.debugRegMay a wr && s.domOn (regDom a) && !(wr && s.mode == 0xA && replayCovered a) then .may else .refused
  | .pommel =>
    if !isReg a || !s.domOn (regDom a) || !boxOwned m a || (wr && s.mode == 0xA && replayCovered a) then .refused
    else if wr && reinsGoverned a && !s.holderPommel then .reins else .may
  | .cantle =>
    if !isReg a || hostFacing a || !s.domOn (regDom a) || !boxOwned m a || (wr && s.mode == 0xA && replayCovered a) then .refused
    else if wr && reinsGoverned a && s.holderPommel then .reins else .may

/-- A refused access: never performed; the requester sees its error, and the Fault Collector counts it as a data-class CE (R22,
R437). A debug request is a control-class record of group 46 besides (R382, R486). The sticky error flag of debug holds the address of the
first refused request and is not replaced while it is set: the model's choice, since R22 does not say which (DESIGN CHOICE,
notes/assumptions/55.md). -/
def State.refuse (s : State) (m : Master) (a : Nat) : State :=
  match m with
  | .debug =>
    ((({ s with debugErr := some (s.debugErr.getD a) }).emit (.accessError 127 a)).refusedAccess 127 a).report 46 0 0 19 0 127
      (BitVec.ofNat 32 a)
  | .host f => s.emit (.accessError (32 + f.val) a)
  | _ => (s.emit (.accessError m.id a)).refusedAccess m.id a

/-- A write refused under R27 is also a control-class record of group 8 (R27, R437). -/
def State.refuseReins (s : State) (m : Master) (a : Nat) : State :=
  (s.refuse m a).report 8 (if m = .cantle then 1 else 0) 0 (if m = .cantle then 16 else 17) 0 m.id (BitVec.ofNat 32 a)

/-- A register write by master m that has the effect `f`: performed, refused or dropped; the journal records it
(R490). -/
def State.regRow (s : State) (m : Master) (a : Nat) (v : Word) (f : State → State) : State :=
  match s.regRight m a true with
  | .may => f (s.jRegWrite m.id a v)
  | .refused => s.refuse m a
  | .reins => s.refuseReins m a
  | .resetting => s

/-- A register read by master m that has the effect `f` and returns a word. -/
def State.readRow (s : State) (m : Master) (a : Nat) (f : State → State × Word) : State :=
  match s.regRight m a false with
  | .may => let (s, v) := f s; s.emit (.readData m.id (leBytes 4 v.toNat))
  | .resetting => s.emit (.readData m.id (leBytes 4 0))
  | _ => s.refuse m a

/-- The stored effect of a plain register write: RW bits, RW1C bits and enumerated fields (R9, R11, R13), with CFGERR
in the status register at `cfg`. -/
def State.plainWrite (s : State) (a : Nat) (v : Word) (cfg : Nat) : State :=
  match regDesc a with
  | some d =>
    let s := s.setReg a (d.merged (s.reg a) v)
    if d.illegal v then s.cfgErr cfg else s
  | none => s

end Sys2Proof.Machine
end

