-- ==== Sys2Proof/Machine/QueueRegs.lean ====
section
/-! DEFINITION. The commands that are register writes of the queue manager, CE-A and the tempo unit: doorbells, ring
commands, shares, CE-A's rings, tempo sources, positions and strike groups (R105, R137, R150, R158, R171, R179, R183).
The log entries that hold here: DEDUCED 25, 26. -/

namespace Sys2Proof.Machine

/-! ## Doorbells (R171, R192) -/

/-- A doorbell of function f, with its DOORBELL record (R490) and MIXED bookkeeping left to the bind. -/
def doorbell (s : State) (f i : Nat) : State :=
  if s.mode == 0xA then s
  else
    let s := if s.bar0Open f && decide (i < s.shareCount f) && s.recFn f then s.jrec 8 (s.shareFirst f + i) [] else s
    s.ringDoorbell f i

/-- DOORBELL (R171): a host write to the doorbell of function-local ring i. -/
def execDoorbell (f : Fn) (i : Fin 4096) (s : State) : Result := .next (doorbell s f.val i.val)

/-- CQ_DOORBELL (R192): the doorbell of a completion ring; the same 8 bytes, by ring type. -/
def execCqDoorbell (f : Fn) (i : Fin 4096) (s : State) : Result := .next (doorbell s f.val i.val)

/-! ## Ring commands (R179, R181, R195) -/

/-- Address of a register in function f's QM_ view, in the Pommel core's addresses. -/
def qmView (f off : Nat) : Nat := 0x04200000 + 0x10000 * f + off

/-- The global ring that the requester's own QM_RING_SEL selects in function f's view (R181). -/
def State.selRing (s : State) (m f : Nat) : Option Nat :=
  let i := bitsOf (s.reg (banked m (qmView f 0x10))) 11 0
  if i < s.shareCount f then some (s.shareFirst f + i) else none

/-- A write of QM_RING_CMD: code 1 ENABLE, 2 DISABLE, 3 RESTART, on the selected ring. -/
def State.ringCmd (s : State) (m : Master) (f code : Nat) : State :=
  s.regRow m (qmView f 0x20) (BitVec.ofNat 32 code) (fun s =>
    match s.selRing m.id f with
    | none => s
    | some g => if code = 1 then s.ringEnable f g else if code = 2 then s.ringDisable f g else if code = 3 then s.ringRestart f g else s)

/-- RING_ENABLE (R179, R195). -/
def execRingEnable (m : Master) (f : Fn) (s : State) : Result := .next (s.ringCmd m f.val 1)
/-- RING_DISABLE (R179, R195). -/
def execRingDisable (m : Master) (f : Fn) (s : State) : Result := .next (s.ringCmd m f.val 2)
/-- RING_RESTART (R179). -/
def execRingRestart (m : Master) (f : Fn) (s : State) : Result := .next (s.ringCmd m f.val 3)

/-- SHARE_WRITE (R183). -/
def execShareWrite (m : Master) (f : Fn) (v : Word) (s : State) : Result :=
  .next (s.regRow m (0x04208100 + 4 * f.val) v (fun s => s.shareWrite f.val v))

/-! ## CE-A (R105, R185, R212) -/

/-- CE_A_DOORBELL (R185). -/
def execCeADoorbell (m : Master) (s : State) : Result := .next (s.regRow m 0x04480018 0#32 State.ceaDoorbell)

/-- A write of CE_A_CTRL; in RECOVERY EN stays 0 (R458). -/
def State.ceaCtrlRow (s : State) (v : Word) : State :=
  if s.mode == modeRecovery && bit v 0 then (s.ceaCtrl (v &&& 0xFFFFFFFE#32)).cfgErr 0x04480004 else s.ceaCtrl v

/-- CE_A_ENABLE (R105). -/
def execCeAEnable (m : Master) (v : Word) (s : State) : Result := .next (s.regRow m 0x04480000 v (fun s => s.ceaCtrlRow v))

/-- CE_A_CQ_HEAD_WRITE (R212). -/
def execCeACqHeadWrite (m : Master) (v : Word) (s : State) : Result := .next (s.regRow m 0x04480024 v (fun s => s.ceaCqHead v))

/-! ## Tempo sources (R137, R158) -/

/-- The bits of TP_SRCn_CFG that a write stores (R159): T1 and T7 have no EDGE, AVG, DIV and LANE, only T6 has AUDCLK. -/
def srcCfgMask (n : Nat) : Word :=
  if n = 0 ∨ n = 7 then 0#32
  else if n = 1 then 0x80000000#32
  else if n = 6 then 0xFCFFF07F#32
  else 0xF8FFF07F#32

/-- A write of EN = 1 with configuration v is refused: the source needs a lane and LANE names none, or one whose
function R136 does not list, or one in a port group that is off (R137). -/
def State.srcRefused (s : State) (n : Nat) (v : Word) : Bool :=
  let needs := decide (2 ≤ n) && n != 7 && !(n == 6 && bit v 26)
  let l := bitsOf v 6 0
  bit v 31 && needs && (decide (l > 95) || s.laneFunc l != srcFunc n || !s.domOn (pgDom (l / 12)))

/-- A write of TP_SRCn_CFG (R13, R137, R144). -/
def State.srcCfgWrite (s : State) (n : Nat) (v : Word) : State :=
  let s := s.afterTick
  if n = 0 ∨ n = 7 then s
  else
    let a := 0x04500100 + 0x20 * n
    let old := s.reg a
    let new := v &&& srcCfgMask n
    let badEdge := n != 1 && bitsOf new 30 29 == 3
    let badLane := n != 1 && decide (bitsOf new 6 0 > 95)
    if s.srcRefused n new then s.cfgErr tpStatus
    else
      let new := if badEdge then putBits new 30 29 (bitsOf old 30 29) else new
      let new := if badLane then putBits new 6 0 (bitsOf old 6 0) else new
      let s := if badEdge || badLane then s.cfgErr tpStatus else s
      let was := (s.src n).st != .off
      let s := if was && !bit new 31 then s.srcOff n else s
      let s := s.setReg a new
      if !was && bit new 31 then s.srcOn n else s

/-- SOURCE_CFG_WRITE (R137). -/
def execSourceCfgWrite (m : Master) (n : SrcId) (v : Word) (s : State) : Result :=
  .next (s.regRow m (0x04500100 + 0x20 * n.val) v (fun s => s.srcCfgWrite n.val v))

/-- A read of TP_SRCn_POSLO captures the full position for the reading master (R158). -/
def State.positionRead (s : State) (m n : Nat) : State × Word :=
  let p := s.pos n
  (s.setReg (banked m (0x0450011C + 0x20 * n)) (BitVec.ofNat 32 (p / 2 ^ 32)), BitVec.ofNat 32 (p % 2 ^ 32))

/-- POSITION_READ (R158). -/
def execPositionRead (m : Master) (n : SrcId) (s : State) : Result :=
  .next (s.readRow m (0x04500118 + 0x20 * n.val) (fun s => s.positionRead m.id n.val))

/-! ## Strike groups (R149, R150) -/

/-- Slot `key` waits with a STRIKE of group g whose condition is met now: it launches, with the settings the group has (R147). -/
def State.dueStrike (s : State) (g key : Nat) : State :=
  let x := s.slot key
  if x.st == .waiting && ccwOp x.ccw == 0xD && (ccwAddr x.ccw).toNat % 256 == g && s.whenHolds x then strikeCcw (whenMet s key) key else s

/-- A write of TP_SGg_CTRL (R13, R150, R159); what is due on this tick launches first (R146, R147). -/
def State.sgWrite (s : State) (g : Nat) (v : Word) : State :=
  let s := ((s.busySlots.map (fun p => p.1)).foldl (fun t k => t.dueStrike g k) s).afterTick
  let a := sgCtrl g
  let old := s.reg a
  if bit old 31 && bit v 31 then s.cfgErr tpStatus
  else
    let badOwner := decide (bitsOf v 28 24 > 16)
    let arm := bit v 31 && s.armOk v
    let v' := (v &&& 0xDF03FFFF#32)
    let v' := if badOwner then putBits v' 28 24 (bitsOf old 28 24) else v'
    let v' := putBits v' 31 31 (if arm then 1 else 0)
    let s := s.setReg a v'
    if badOwner || (bit v 31 && !arm) then s.cfgErr tpStatus else s

/-- STRIKE_GROUP_ARM (R150): a write with ARMED 1. -/
def execStrikeGroupArm (m : Master) (g : GroupId) (v : Word) (s : State) : Result :=
  .next (s.regRow m (sgCtrl g.val) (v ||| 0x80000000#32) (fun s => s.sgWrite g.val (v ||| 0x80000000#32)))

/-- STRIKE_GROUP_DISARM (R150): a write with ARMED 0. -/
def execStrikeGroupDisarm (m : Master) (g : GroupId) (v : Word) (s : State) : Result :=
  .next (s.regRow m (sgCtrl g.val) (v &&& 0x7FFFFFFF#32) (fun s => s.sgWrite g.val (v &&& 0x7FFFFFFF#32)))

/-- Action entry i lies inside the range of an armed group (R150). -/
def State.inArmed (s : State) (i : Nat) : Bool :=
  (span 0 256).any (fun g =>
    let v := s.reg (sgCtrl g)
    bit v 31 && decide (bitsOf v 10 0 ≤ i) && decide (i < bitsOf v 10 0 + bitsOf v 17 11))

/-- A write of action entry i (R150, R159). -/
def State.actWrite (s : State) (i : Nat) (v : Word) : State :=
  let s := s.afterTick
  if s.inArmed i then s.cfgErr tpStatus else s.setReg (actAddr i) (v &&& 0xFFFF0F7F#32)

/-- ACTION_ENTRY_WRITE (R150, R159). -/
def execActionEntryWrite (m : Master) (i : Fin 2048) (v : Word) (s : State) : Result :=
  .next (s.regRow m (actAddr i.val) v (fun s => s.actWrite i.val v))

end Sys2Proof.Machine
end

