-- ==== Sys2Proof/Machine/PortRegs.lean ====
section
/-! DEFINITION. The commands that are register writes of the port groups: voltage, lane functions and options, forced
safe state, station descriptors, profiles and stream FIFOs (R276 to R283, R287 to R289, R296 to R298, R301, R303, R309,
R312 to R317, R527).
The log entries that hold here: DESIGN CHOICE 20; DEDUCED 21. -/

namespace Sys2Proof.Machine

/-! ## Placement and limits (R280 to R283, R314, R527) -/

/-- PG0 and PG1 run from CK_AONF in these modes (R278). -/
def slowMode (mode : Nat) : Bool := decide (1 ≤ mode) && decide (mode ≤ 5)

/-- The option bits FOPT [31:24] that a function has on lane l (R314): DICT is an option of an I3C target on LANE00 alone (R283). -/
def foptMask (l fn : Nat) : Nat :=
  match fn with
  | 1 => 0x03 | 2 => 0x03 | 3 => 0x03 | 4 => 0x03 | 5 => if l = 0 then 0x07 else 0x03 | 6 => 0x03 | 7 => 0x03 | 8 => 0x0F | 9 => 0x1F | 10 => 0xFF
  | 12 => 0x0F | _ => 0

/-- A two-bit option of the function holds its reserved code 3 (R314). -/
def foptReserved (fn : Nat) (cfg : Word) : Bool :=
  match fn with
  | 3 => bitsOf cfg 25 24 == 3
  | 6 => bitsOf cfg 25 24 == 3
  | 7 => bitsOf cfg 25 24 == 3
  | 8 => bitsOf cfg 25 24 == 3
  | 9 => bitsOf cfg 25 24 == 3
  | 10 => bitsOf cfg 27 26 == 3
  | _ => false

/-- The smallest DIV of an I2C lane's speed code (R527). -/
def i2cDiv (slow : Bool) (code : Nat) : Nat :=
  match slow, code with
  | false, 0 => 249 | false, 1 => 62 | false, _ => 24
  | true, 0 => 29 | true, 1 => 7 | true, _ => 2

/-- Function, options and timing keep the limits of R282 on lane l; `slow` where the lane runs from CK_AONF. -/
def laneLimits (l fn : Nat) (cfg tim : Word) (slow : Bool) : Bool :=
  let div := bitsOf tim 7 0
  let fopt := bitsOf cfg 31 24
  (fopt &&& foptMask l fn == fopt) && !foptReserved fn cfg && (!bit cfg 23 || gateFn fn) &&
  (match fn with
   | 1 => decide (4 ≤ bitsOf tim 23 0)
   | 2 => decide (4 ≤ bitsOf tim 23 0)
   | 4 => decide ((if slow then 1 else 7) ≤ div) && !(slow && bit cfg 24)
   | 5 => !(slow && bit cfg 24)
   | 6 => decide (i2cDiv slow (bitsOf cfg 25 24) ≤ div)
   | 8 => decide (1 ≤ div)
   | 9 => decide ((if slow then 256 else 534) ≤ bitsOf tim 23 0)
   | 10 => bit cfg 24 || decide ((if slow then 8 else 1) ≤ div)
   | 12 => decide (8 ≤ l) && decide (l ≤ 11)
   | _ => true)

/-- The lane runs from CK_AONF now. -/
def State.laneSlow (s : State) (l : Nat) : Bool := decide (l < 24) && slowMode s.mode

/-- The lanes beyond primary p that a placement would occupy are free: OFF, or already members of p (R281). -/
def State.placeFree (s : State) (p n : Nat) : Bool :=
  decide (p % 12 + n ≤ 12) &&
    (span (p + 1) (n - 1)).all (fun l => s.laneFunc l == 0 || (s.laneFunc l == 0xD && bitsOf (s.laneFn l) 14 8 == p))

/-- The members of primary p. -/
def State.membersOf (s : State) (p : Nat) : List Nat :=
  (span (p / 12 * 12) 12).filter (fun l => s.laneFunc l == 0xD && bitsOf (s.laneFn l) 14 8 == p)

/-- EN of every source whose lane no longer has a suitable function clears (R137). -/
def State.tempoLanes (s : State) (l : Nat) : State :=
  (span 2 14).foldl (fun t n =>
    if t.srcHasLane n && t.srcLane n == l && (t.src n).st != .off && t.laneFunc l != srcFunc n then
      (t.setReg (0x04500100 + 0x20 * n) (t.srcCfg n &&& 0x7FFFFFFF#32)).srcOff n else t) s

/-- Place function fn with its width on primary p: members set or returned to OFF, levels taken (R137, R279, R281). -/
def State.place (s : State) (p fn : Nat) : State :=
  let n := lanesOf fn (s.laneCfg p)
  let gone := (s.membersOf p).filter (fun l => decide (p + n ≤ l))
  let s := s.setReg (laneFnAddr p) (BitVec.ofNat 32 fn)
  let s := gone.foldl (fun t l => t.setReg (laneFnAddr l) 0#32) s
  let s := (span (p + 1) (n - 1)).foldl (fun t l => t.setReg (laneFnAddr l) (BitVec.ofNat 32 (p * 256 + 0xD))) s
  let all := p :: (span (p + 1) (n - 1)) ++ gone
  let s := all.foldl (fun t l => (t.setLane l { t.lane l with live := true, streamOn := false, duty := none, dutyNext := none, frame := 0, dropFrame := false }).laneIdle l) s
  all.foldl (fun t l => t.tempoLanes l) s

/-- The lane is a primary, a member or a further lane of a valid station (R281). -/
def State.inStation (s : State) (l : Nat) : Bool := !(s.stationsOf l).isEmpty

/-- CFGERR of a lane's port group. -/
def State.pgCfgErr (s : State) (l : Nat) : State := s.cfgErr (pgStatus (l / 12))

/-- A write of PG_LANEk_FN (R280 to R283). -/
def State.laneFnWrite (s : State) (l : Nat) (v : Word) : State :=
  let fn := bitsOf v 3 0
  let n := lanesOf fn (s.laneCfg l)
  if s.inStation l || s.laneFunc l == 0xD || decide (0xD ≤ fn) || !s.placeFree l n ||
      (fn != 0 && !laneLimits l fn (s.laneCfg l) (s.laneTim l) (s.laneSlow l)) then s.pgCfgErr l
  else s.place l fn

/-- LANE_FN_WRITE (R281). -/
def execLaneFnWrite (m : Master) (l : LaneId) (v : Word) (s : State) : Result :=
  .next (s.regRow m (laneFnAddr l.val) v (fun s => s.laneFnWrite l.val v))

/-- A write of PG_LANEk_CFG (R13, R281, R282, R314): options that the lane's function does not have are reserved bits; a
width change follows R281; a configuration that breaks a limit is ignored. -/
def State.laneCfgWrite (s : State) (l : Nat) (v : Word) : State :=
  let old := s.laneCfg l
  let fn := s.laneFunc l
  let free := fn == 0 || fn == 0xD
  let new := v &&& 0xFF83FF00#32
  let new := if free then new else putBits new 31 24 (bitsOf new 31 24 &&& foptMask l fn)
  let new := if !free && !gateFn fn then putBits new 23 23 0 else new
  let badPull := bitsOf new 17 16 == 3
  let new := if badPull then putBits new 17 16 (bitsOf old 17 16) else new
  let badOpt := !free && foptReserved fn new
  let new := if badOpt then
      (if fn = 10 then putBits new 27 26 (bitsOf old 27 26) else putBits new 25 24 (bitsOf old 25 24)) else new
  let wider := !free && lanesOf fn new != lanesOf fn old
  if !free && !laneLimits l fn new (s.laneTim l) (s.laneSlow l) then s.pgCfgErr l
  else if wider && (s.inStation l || !s.placeFree l (lanesOf fn new)) then s.pgCfgErr l
  else
    let s := s.setReg (laneFnAddr l + 4) new
    let s := if wider then s.place l fn else if s.inStation l || s.laneFunc l == 0 then s else s.laneIdle l
    if badPull || badOpt then s.pgCfgErr l else s

/-- A write of PG_LANEk_TIM (R282, R314). -/
def State.laneTimWrite (s : State) (l : Nat) (v : Word) : State :=
  let fn := s.laneFunc l
  if fn != 0 && fn != 0xD && !laneLimits l fn (s.laneCfg l) v (s.laneSlow l) then s.pgCfgErr l
  else s.setReg (laneFnAddr l + 8) v

/-- LANE_CFG_WRITE (R282): PG_LANEk_CFG, or PG_LANEk_TIM where `tim` is set. -/
def execLaneCfgWrite (m : Master) (l : LaneId) (tim : Bool) (v : Word) (s : State) : Result :=
  .next (s.regRow m (laneFnAddr l.val + (if tim then 8 else 4)) v
    (fun s => if tim then s.laneTimWrite l.val v else s.laneCfgWrite l.val v))

/-- A write of PG_CTRL: RBDLY, and VSEL while every lane of the group has FUNC OFF; a write at another time keeps VSEL and sets CFGERR,
whatever it holds (R13, R276). -/
def State.pgCtrlWrite (s : State) (n : Nat) (v : Word) : State :=
  let a := 0x04700008 + 0x10000 * n
  let old := s.reg a
  let dly := bitsOf v 13 8
  let sel := bitsOf v 1 0
  let used := (span (12 * n) 12).any (fun l => s.laneFunc l != 0)
  let badSel := sel == 3 || used
  let new := putBits (putBits old 13 8 (if dly < 2 then bitsOf old 13 8 else dly)) 1 0 (if badSel then bitsOf old 1 0 else sel)
  let s := s.setReg a new
  if badSel || decide (dly < 2) then s.cfgErr (pgStatus n) else s

/-- PG_CTRL_WRITE (R276). -/
def execPgCtrlWrite (m : Master) (n : PgId) (v : Word) (s : State) : Result :=
  .next (s.regRow m (0x04700008 + 0x10000 * n.val) v (fun s => s.pgCtrlWrite n.val v))

/-! ## Forced safe state (R301, R303) -/

/-- FORCE (R301, R303): a write of PG_CM_CTRL with FORCE 1; `v` may carry RELEASE too. -/
def execForce (m : Master) (v : Word) (s : State) : Result :=
  .next (s.regRow m 0x04780008 (v ||| 1#32) (fun s => s.pgCmCtrl (v ||| 1#32)))

/-- RELEASE (R303): a write of 1 to RELEASE alone. -/
def execRelease (m : Master) (s : State) : Result := .next (s.regRow m 0x04780008 2#32 (fun s => s.pgCmCtrl 2#32))

/-! ## Station descriptors and profiles (R287 to R289, R296 to R298) -/

/-- The LANEOP bits that a lane function has (R298). -/
def laneopMask (fn : Nat) : Nat :=
  match fn with
  | 4 => 0xFFF8 | 6 => 0xFFC0 | 5 => 1 | 7 => 1 | 8 => 0xFFFB | 9 => 0xFFC0 | 10 => 1 | _ => 0

/-- LANEOP is permitted for the function; an SPI width is not above the lane's width. -/
def laneopOk (fn : Nat) (cfg : Word) (op : Nat) : Bool :=
  (op &&& laneopMask fn == op) && (fn != 8 || op % 4 == 0 || decide (op % 4 - 1 ≤ bitsOf cfg 25 24))

/-- A command-table entry is well formed (R297). -/
def CmdEntry.ok (e : CmdEntry) (fn : Nat) (cfg : Word) : Bool :=
  !e.dfn || (laneopOk fn cfg e.laneop &&
    (if e.cls = 0 then e.cmin == 0 && e.cmax == 0 && !e.ause else decide (1 ≤ e.cmin) && decide (e.cmin ≤ e.cmax)))

/-- Profile p may be named by a station on a lane with function fn and options cfg (R289, R296 to R298). -/
def State.profileOk (s : State) (p fn : Nat) (cfg : Word) : Bool :=
  let h := s.reg (profileAddr p)
  bit h 31 && bitsOf h 27 24 == fn && decide (1 ≤ fn) && decide (fn ≤ 10) && bitsOf h 5 4 != 3 &&
    [8, 0x10, 0x18, 0x20, 0x28].all (fun off =>
      let e := s.cmdEntry p off
      !e.dfn && off != 0x28 || (laneopOk fn cfg e.laneop && (off != 0x20 || fn == 8))) &&
    (span 0 0x60).all (fun i => (s.cmdEntry p (0x100 + 8 * i)).ok fn cfg)

/-- The descriptor of station n with word 0 = v may be VALID (R283, R287, R289). -/
def State.descOk (s : State) (n : Nat) (v : Word) : Bool :=
  let x := s.station n
  let l := bitsOf v 6 0
  let fn := s.laneFunc l
  decide (l ≤ 95) && decide (bitsOf v 28 24 ≤ 16) && s.profileOk (bitsOf v 21 16) fn (s.laneCfg l) &&
    decide (1 ≤ bitsOf x.w1 19 0) && decide (bitsOf x.w1 19 0 ≤ 1000000) &&
    bitsOf x.w2 30 29 != 3 && bitsOf x.w2 28 27 != 3 &&
    (!(bit x.w2 31 && bitsOf x.w2 30 29 != 1) || bitsOf x.w2 6 0 / 12 == l / 12) &&
    (span 0 12).all (fun k => !(x.w4.getLsbD k) || s.laneFunc (l / 12 * 12 + k) == 0 || s.laneFunc (l / 12 * 12 + k) == 1) &&
    (decide (n < 256) == decide (l < 24)) && !(l == 0 && fn == 5 && bit (s.laneCfg 0) 26)

/-- CFGERR in PG_CM_STATUS. -/
def State.cmCfgErr (s : State) : State := s.cfgErr 0x04780004

/-- The bits of descriptor word w that a write stores (R288). -/
def descMask (w : Nat) : Word :=
  match w with
  | 0 => 0x9F3F007F#32 | 1 => 0x000FFFFF#32 | 2 => 0xF800007F#32 | 3 => 0x00007F7F#32 | _ => 0x00000FFF#32

/-- The fields of descriptor word w, by high and low bit, in which v holds a reserved value (R288). -/
def descReserved (w : Nat) (v : Word) : List (Nat × Nat) :=
  match w with
  | 0 => (if 16 < bitsOf v 28 24 then [(28, 24)] else []) ++ (if 95 < bitsOf v 6 0 then [(6, 0)] else [])
  | 1 => if bitsOf v 19 0 = 0 then [(19, 0)] else []
  | 2 => (if bitsOf v 30 29 = 3 then [(30, 29)] else []) ++ (if bitsOf v 28 27 = 3 then [(28, 27)] else [])
  | _ => []

/-- The fields in which v keeps the value of `old` (R13). -/
def keepFields (v old : Word) (fs : List (Nat × Nat)) : Word := fs.foldl (fun v (hi, lo) => putBits v hi lo (bitsOf old hi lo)) v

/-- A descriptor is stored: from 256 on in the station table of main SRAM (R287). -/
def State.storeDesc (s : State) (n : Nat) (x : Station) : State :=
  let s := s.setStation n x
  if n < 256 then s else s.hwWrite (descAddr n)

/-- A write of word w of station n's descriptor (R129, R289): a reserved value leaves its field as it was, with CFGERR, but a write that
would set or keep VALID is refused whole (R13). A station that stops being VALID leaves its GPIO outputs
to PG_OUT (R313). -/
def State.descWrite (s : State) (n w : Nat) (v : Word) : State :=
  let x := s.station n
  let v := v &&& descMask w
  let old := match w with | 0 => x.w0 | 1 => x.w1 | 2 => x.w2 | 3 => x.w3 | _ => x.w4
  let bad := if w = 0 ∧ bit v 31 then [] else descReserved w v
  let v := keepFields v old bad
  let s := if bad.isEmpty then s else s.cmCfgErr
  match w with
  | 0 =>
    if bit x.w0 31 && s.staBusy n then s.cmCfgErr
    else if bit v 31 && !s.descOk n v then s.cmCfgErr
    else
      let was := if bit x.w0 31 then s.stationLanes n else []
      let s := s.storeDesc n { x with w0 := v }
      was.foldl (fun t l => if t.laneFunc l = 1 && !t.inStation l then t.laneIdle l else t) s
  | _ =>
    if bit x.w0 31 then s.cmCfgErr
    else s.storeDesc n
      (match w with
       | 1 => { x with w1 := v }
       | 2 => { x with w2 := v }
       | 3 => { x with w3 := v }
       | _ => { x with w4 := v })

/-- The station that a master's own PG_STA_SEL selects (R315). -/
def State.staSel (s : State) (m : Nat) : Nat := bitsOf (s.reg (banked m 0x04780010)) 11 0

/-- The selected station cannot be reached: 256 or above while PD_MEM0 is off (R287). -/
def State.staDark (s : State) (n : Nat) : Bool := decide (256 ≤ n) && !s.domOn (memDom 0)

/-- STATION_DESCRIPTOR_WRITE (R289): PG_STA_Dw of the selected station. -/
def execStationDescriptorWrite (m : Master) (w : Fin 5) (v : Word) (s : State) : Result :=
  .next (
    let a := 0x04780100 + 4 * w.val
    let n := s.staSel m.id
    if s.regRight m a true == .may && s.staDark n then s.refuse m a
    else s.regRow m a v (fun s => s.descWrite n w.val v))

/-- The bits of word w of a profile that a write stores (R296, R297). -/
def profileMask (w : Nat) : Word :=
  if w = 0 then 0x8F070036#32
  else if 2 ≤ w ∧ w < 12 then (if w % 2 = 0 then 0x80000000#32 else 0x0000FFFF#32)
  else if 64 ≤ w then (if w % 2 = 0 then 0xF000FFFF#32 else 0xFFFFFFFF#32)
  else 0#32

/-- A write of word w of profile p, while no valid station names it (R296). FUNC and ITEM keep their value where the
written one is reserved (R13). -/
def State.profileWrite (s : State) (p w : Nat) (v : Word) : State :=
  if s.stations.any (fun (n, x) => bit x.w0 31 && bitsOf x.w0 21 16 == p && s.staVALID n) then s.cmCfgErr
  else
    let a := profileAddr p + 4 * w
    let v := v &&& profileMask w
    let f := bitsOf v 27 24
    let badF := w == 0 && (f == 0 || decide (11 ≤ f))
    let badI := w == 0 && bitsOf v 5 4 == 3
    let v := if badF then putBits v 27 24 (bitsOf (s.reg a) 27 24) else v
    let v := if badI then putBits v 5 4 (bitsOf (s.reg a) 5 4) else v
    let s := s.setReg a v
    if badF || badI then s.cmCfgErr else s

/-- PROFILE_WRITE (R296). -/
def execProfileWrite (m : Master) (p : Fin 64) (w : Fin 256) (v : Word) (s : State) : Result :=
  .next (s.regRow m (profileAddr p.val + 4 * w.val) v (fun s => s.profileWrite p.val w.val v))

/-! ## Stream FIFOs (R309, R312, R316, R317) -/

/-- Chunks of the pool that are reserved (SF_POOL). -/
def State.poolUsed (s : State) : Nat := (span 0 192).foldl (fun n q => n + s.fifoChunks q) 0

/-- A write of SF_CFG (R13, R309). -/
def State.sfCfgWrite (s : State) (q : Nat) (v : Word) : State :=
  let a := fifoAddr q
  let old := s.reg a
  let spill := bitsOf v 23 16
  let en := bit v 0
  if bit old 0 then
    let s := if spill != bitsOf old 23 16 then s.sfStatus q 1#32 else s
    if en then s else (s.setReg a (old &&& 0xFFFFFFFE#32)).flushFifo q
  else
    let bad := decide (spill > 64)
    let spill := if bad then bitsOf old 23 16 else spill
    let s := if bad then s.sfStatus q 1#32 else s
    let s := s.setReg a (BitVec.ofNat 32 (spill * 65536))
    if !en then s
    else if s.poolUsed + spill > 1536 then s.sfStatus q 1#32
    else
      let s := s.setReg a (BitVec.ofNat 32 (spill * 65536 + 1))
      s.setFifo q { s.fifo q with spillOn := decide (0 < spill) && s.domOn (memDom 2) && (s.fifo q).words.isEmpty }

/-- FIFO_ENABLE (R309): a write of SF_CFG. -/
def execFifoEnable (m : Master) (q : FifoId) (v : Word) (s : State) : Result :=
  .next (s.regRow m (fifoAddr q.val) v (fun s => s.sfCfgWrite q.val v))

/-- FIFO_FLUSH (R312): a write of FLUSH. -/
def execFifoFlush (m : Master) (q : FifoId) (s : State) : Result :=
  .next (s.regRow m (fifoAddr q.val + 0x10) 1#32 (fun s => s.flushFifo q.val))

/-! ## Supplies of the port groups (R279, R517) -/

/-- The lanes of PG0 and PG1 whose configuration breaks an always-on limit go to OFF with CFGERR (R282). -/
def State.alwaysOnLimits (s : State) : State :=
  (span 0 24).foldl (fun t l =>
    let fn := t.laneFunc l
    if fn != 0 && fn != 0xD && !laneLimits l fn (t.laneCfg l) (t.laneTim l) true then (t.place l 0).pgCfgErr l else t) s

/-- VIO_REMOVED (R279, R517): the supply of PG2 to PG7 goes away while its domain is off; latch and SAFE level are lost,
and the balls are unpowered. -/
def vioRemoved (s : State) (n : Nat) : State :=
  if n < 2 ∨ s.domOn (pgDom n) then s
  else (span (12 * n) 12).foldl (fun t l =>
    (t.setReg (laneFnAddr l + 0xC) 0#32).setLane l { t.lane l with drive := .hiZ, ball := false, pulse := none }) s

def execVioRemoved (n : PgId) (s : State) : Result := .next (vioRemoved s n.val)

end Sys2Proof.Machine
end

