-- ==== Sys2Proof/Machine/HostPort.lean ====
section
/-! DEFINITION. The host port (chapter 08): link and tunnel, configuration space, power states, function reset and
PTM.
The log entries that hold here: DESIGN CHOICE 51; PRESUMED 10; DEDUCED 45, 46, 75. -/

namespace Sys2Proof.Machine

/-! ## Link and tunnel (R130, R213, R230, R231) -/

/-- HP_LINK and HP_STATUS. -/
def hpLink : Nat := 0x0400000C
def hpStatus : Nat := 0x04000004

/-- AD_LINK_CAP of a generation and a number of lanes (R130). -/
def linkCap (gen lanes : Nat) : Nat :=
  if gen = 3 then 1600 * lanes else if gen = 2 then 800 * lanes else 0

/-- The trained rate that HP_LINK shows. -/
def State.trainedCap (s : State) : Nat := linkCap (bitsOf (s.reg hpLink) 15 12) (bitsOf (s.reg hpLink) 17 16)

/-- Set AD_LINK_CAP: the trained rate while the tunnel is carried, else 0 (R130, R230). -/
def State.setLinkCap (s : State) : State :=
  s.setReg 0x0430000C (BitVec.ofNat 32 (if s.carried then s.trainedCap else 0))

/-- Set TUNNEL, DLUP and CLSTATE of HP_LINK. -/
def State.setLink (s : State) (tun dl : Bool) (cl : Nat) : State :=
  let v := putBits (s.reg hpLink) 26 24 cl
  s.setReg hpLink (putBits (putBits v 31 31 (if tun then 1 else 0)) 30 30 (if dl then 1 else 0))

/-- The tunnel is carried from now on: held posted writes and messages are sent in order (R230), and WAKEN is released
(R433). -/
def State.carry (s : State) : State :=
  let held := s.held
  let s : State := { s with tunnel := .carried, held := [], waken := none, conn := s.conn.or (some s.live) }
  let s := (s.setLink true true 0).setLinkCap
  ((held.foldl State.emit s).jHostEvent 0 4 1).stallUpdateAll

/-- LINK_TRAINED (R213): training ends with a speed and a width. A first training brings the tunnel up; a retraining
that ends at a lower rate sets RTRN. -/
def linkTrained (s : State) (gen3 two : Bool) : State :=
  if !s.domOn domU4PHY || !s.domOn domU4RT || !bit (s.reg 0x04E00008) 2 then s
  else
    let ctl := s.reg 0x04000008
    let gen := if gen3 && bitsOf ctl 3 2 == 3 then 3 else 2
    let lanes := if two && !bit ctl 4 then 2 else 1
    let was := s.trainedCap
    let s := s.setReg hpLink (putBits (putBits (s.reg hpLink) 15 12 gen) 17 16 lanes)
    let s := if s.trainedCap < was then s.setStatus hpStatus 2#32 else s
    match s.tunnel with
    | .none => s.carry
    | .carried => s.setLinkCap
    | .paused _ => s

def execLinkTrained (gen3 two : Bool) (s : State) : Result := .next (s.onLive (fun s => linkTrained s gen3 two))

/-- TUNNEL_PAUSE (R230): the link enters CL2 or router sleep, or retrains. -/
def tunnelPause (s : State) (why : PauseWhy) : State :=
  if !s.carried then s
  else
    let s : State := { s with tunnel := .paused why, pausedAt := s.live }
    let s := s.setLink false true (match why with | .cl2 => 3 | .routerSleep => 4 | .retrain => 5)
    (s.setLinkCap.jHostEvent 0 4 2).stallUpdateAll

def execTunnelPause (why : PauseWhy) (s : State) : Result := .next (s.onLive (fun s => tunnelPause s why))

/-- The machine with the live tunnel: while a replay runs that is not the one it replays (R504). -/
def State.onLiveTun (s : State) : State := if s.jnState = 5 then { s with tunnel := s.jn.liveTun } else s

/-! ## Function reset (R79, R120, R180, R209, R228, R374) -/

/-- A slot of the function enters HALTING: as under CLEAR with a station command in progress, otherwise as under HALT;
it will go to IDLE without an entry (R79). -/
def State.slotFnReset (s : State) (key : Nat) : State :=
  let x := s.slot key
  let w := { x.w with fnReset := true, marks := [], markHeld := false, deliv := [] }
  let s' := s.setSlot key { x with w := w }
  let inXfer := x.st == .running && ((s.xferOf x.station key).isSome || x.w.loaded)
  if x.over then (if x.st = .idle then s else s.freeSlot key)
  else if x.st = .halting then s'.settle key
  else if x.st = .running ∧ runsOn (ccwOp x.ccw) ∧ !x.w.ccwDone then
    (s.setSlot key { x with st := .halting, w := { w with haltRuns := true } }).memoryStep key
  else s'.endOnRequest key inXfer

/-- The slots of function f that are not IDLE. -/
def State.fnKeys (s : State) (f : Nat) : List Nat :=
  (s.busySlots.filter (fun (k, x) => keyEngine k != 64 && x.owner == f)).map (fun p => p.1)

/-- One ring of a function under reset is DISABLED, as R180 has it. -/
def State.ringDisabled (s : State) (g : Nat) : State :=
  let s := s.leaveScan g 0
  s.setRing g { s.ring g with
    fence := none, errcode := 0, inWeir := false, heldBlock := false, heldStart := none, headRead := false, headAgain := false }

/-- What R209 discards with it: backlog, reservations, moderation and stall timers. -/
def State.ringFnReset (s : State) (g : Nat) : State :=
  s.setRing g { s.ring g with
    woke := false, backlog := [], resRing := 0, resPark := 0, redeemed := [], modCount := 0, modFrom := none, stallFrom := none,
    stallUsed := 0, stallDone := false }

/-- The rings of function f that hold something. -/
def State.fnRings (s : State) (f : Nat) : List Nat := (s.rings.map (fun p => p.1)).filter (fun g => s.ringFn g == some f)

/-- A function reset starts (R228 step 1): RESETTING, admission closed, its rings DISABLED, Weir's STARTs of it discarded. -/
def State.fnResetStart (s : State) (f : Nat) : State :=
  if (s.fn f).resetAt.isSome then s
  else
    let s := (s.setFn f { s.fn f with resetAt := some s.time, stepTwo := true }).openShadow (.fn f)
    let s := s.setReg (0x04100004 + 0x10000 * f) 0#32
    let s := s.setReg (0x04300200 + 16 * f) (s.reg (0x04300200 + 16 * f) &&& 0xFFFFFFFE#32)
    let s : State := { s with weir := s.weir.filter (fun x => x.fn != f) }
    (s.fnRings f).foldl (fun t g => t.ringDisabled g) s

/-- Step 2, on the tick after step 1 (R79, R209, R228, R229): the function's slots that are not IDLE are halted; its backlogs,
reservations, moderation state, unsent firings and PMEs go. -/
def State.fnResetTwo (s : State) (f : Nat) : State :=
  if !(s.fn f).stepTwo then s
  else
    let s := s.setFn f { s.fn f with stepTwo := false, kept := [], pba := [], pmeAt := none }
    let s : State := { s with held := s.held.filter (fun o => match o with | .pme g => g != f | .msix g _ _ _ => g != f | _ => true) }
    let s := (s.fnRings f).foldl (fun t g => t.ringFnReset g) s
    (s.fnKeys f).foldl (fun t k => t.slotFnReset k) s

/-- Step 2 of every function whose reset started on the tick that ends. -/
def State.fnResetsTwo (s : State) : State := (s.fns.map (fun p => p.1)).foldl (fun t f => t.fnResetTwo f) s

/-- The configuration space returns to its reset values (R228). -/
def State.cfgSpaceReset (s : State) (f : Nat) : State := (s.setFn f { s.fn f with cfg := [] }).cfgFixed f

/-- FLR (R228, R229): the configuration space resets on its tick; a reset that runs already runs on. -/
def flrStart (s : State) (f : Nat) : State :=
  if !s.carried then s
  else
    let s := (s.cfgSpaceReset f).jHostEvent f 3 1
    (if s.phReset.isSome then s else s.fnResetStart f).emit (.cfgDone f)

def execFlr (f : Fn) (s : State) : Result := .next (if s.jnState = 5 then s.onLive (fun s => if s.carried then (s.cfgSpaceReset f.val).emit (.cfgDone f.val) else s)
    else flrStart s f.val)

/-- A write of FN_RESET (R228, R232): any other value than 0xA5 sets CFGERR. -/
def State.fnResetWrite (s : State) (f : Nat) (v : Word) : State :=
  if (s.fn f).resetAt.isSome || s.phReset.isSome then s
  else if v = 0xA5#32 then s.fnResetStart f
  else s.setReg (0x04100004 + 0x10000 * f) (s.reg (0x04100004 + 0x10000 * f) ||| 1#32)

/-- FN_RESET (R228, R232). -/
def execFnReset (m : Master) (f : Fn) (v : Word) (s : State) : Result :=
  .next (s.regRow m (0x04100008 + 0x10000 * f.val) v (fun s => s.fnResetWrite f.val v))

/-- The value of a dictionary entry in force, little-endian, with its default. -/
def State.dictNat (s : State) (idx sub dflt : Nat) : Nat :=
  match SMap.get [] s.dict (idx * 256 + sub) with
  | [] => dflt
  | bs => leNat bs

/-- Cut a slot that has not reached its stop boundary (R228 step 3). -/
def State.cutSlot (s : State) (key : Nat) : State :=
  let x := s.slot key
  let s := if x.w.holding then s.stationClear x.station key else s
  (s.stopKernel key).settle key

/-- Disarm the strike groups of function f (R228 step 4). -/
def State.disarmOwned (s : State) (f : Nat) : State :=
  (span 0 256).foldl (fun t g =>
    if t.sgOwner g == f && t.sgArmed g then t.setReg (sgCtrl g) (t.reg (sgCtrl g) &&& 0x7FFFFFFF#32) else t) s

/-- Empty the mailbox pair of function f and return its control register to reset (R374). -/
def State.fnBoxReset (s : State) (f : Nat) : State :=
  let s : State := { s with boxes := SMap.set none (SMap.set none s.boxes f none) (16 + f) none, svc := SMap.set {} s.svc f {} }
  let s := s.setReg (0x04100018 + 0x10000 * f) (s.reg (0x04100018 + 0x10000 * f) &&& 0xFFFFFFEF#32)
  let s := s.setReg (0x04B01008 + 16 * f) (s.reg (0x04B01008 + 16 * f) &&& 0xFFFFFFFB#32)
  s.setReg (0x0410001C + 0x10000 * f) 0#32

/-- The end of a function reset (R228 steps 4 to 6, R297). -/
def State.fnResetFinish (s : State) (f : Nat) : State :=
  let s := s.disarmOwned f
  let s := (s.stations.map (fun p => p.1)).foldl (fun t n =>
    if t.staVALID n && t.staOwner n == f then
      ((t.stationLanes n).foldl (fun u l => if u.domOn (pgDom (l / 12)) then u.laneToSafe l else u) t).stationInitial n else t) s
  let s := (s.setFn f { s.fn f with msix := [], pba := [], kept := [], resetAt := none }).endShadow (.fn f)
  let s := (s.setReg (0x04200008 + 0x10000 * f) 0#32).fnBoxReset f
  let a := 0x04300200 + 16 * f
  let s := s.setReg a (putBits (s.reg a) 0 0 (s.dictNat (0xA010 + f) 1 1))
  s.setReg (0x04100004 + 0x10000 * f) (s.reg (0x04100004 + 0x10000 * f) ||| 4#32)

/-- FUNCTION_RESET_END (R228): every slot of the function is IDLE, or has been cut 210 microseconds after the start. -/
def functionResetEnd (s : State) (f : Nat) : State :=
  match (s.fn f).resetAt with
  | none => s
  | some t =>
    let s := if t + 210 * 1200 ≤ s.time then (s.fnKeys f).foldl (fun u k => u.cutSlot k) s else s
    if (s.fnKeys f).isEmpty && !(s.fn f).stepTwo then s.fnResetFinish f else s

/-- TUNNEL_LOSS (R230): the data link goes down. -/
def tunnelLoss (s : State) : State :=
  if s.tunnel == .none then s
  else
    let s : State := { s with tunnel := .none, held := [], sleepReqs := [], conn := none }
    let s := (s.setReg 0x04000018 (satInc (s.reg 0x04000018))).setStatus hpStatus 8#32
    let s := (s.setLink false false 5).setReg hpLink 0x05000000#32
    let s := (s.setLinkCap.jHostEvent 0 4 0)
    let s := if s.recording && s.jnDest == 1 then s.jend 5 else s
    let s := hostSyncLoss s
    let s := (s.busySlots.map (fun p => p.1)).foldl (fun t k =>
      ((t.slot k).w.reads).foldl (fun u _ => hostReadCompletion u k .noTunnel) t) s
    (span 0 16).foldl (fun t f => (t.cfgSpaceReset f).fnResetStart f) s

/-- A loss of the live tunnel while a replay runs: the link and the configuration spaces, not what is replayed (R504). -/
def liveLoss (s : State) : State :=
  if s.tunnel == .none then s
  else
    let s : State := { s with tunnel := .none, sleepReqs := [], conn := none }
    let s := (span 0 16).foldl (fun t f => (t.setFn f { t.fn f with msix := [], pba := [], kept := [] }).cfgSpaceReset f) s
    let s := (s.setReg 0x04000018 (satInc (s.reg 0x04000018))).setStatus hpStatus 8#32
    (s.setLink false false 5).setReg hpLink 0x05000000#32

/-- The tunnel is lost, the live one while a replay runs. -/
def State.loseTunnel (s : State) : State := if s.jnState = 5 then s.onLive liveLoss else tunnelLoss s

def execTunnelLoss (s : State) : Result := .next s.loseTunnel

/-- The link has been away from CL0 for more than 100 ms otherwise than in CL2 or router sleep (R230). -/
def State.retrainLate (s : State) : Bool := s.tunnel == .paused .retrain && decide (s.pausedAt + 100000 * 1200 < s.live)

/-- TUNNEL_RESUME (R230): a paused tunnel is carried again; one that retrained for too long is lost. -/
def tunnelResume (s : State) : State :=
  match s.tunnel with
  | .paused _ => s.carry
  | _ => s

def execTunnelResume (s : State) : Result :=
  .next (if (s.onLiveTun).retrainLate then s.loseTunnel else s.onLive tunnelResume)

/-- What a tick does to the link (R225, R230): a retraining that takes too long loses the tunnel; an idle link may enter CL0s or CL1. -/
def State.linkTick (s : State) : State :=
  if (s.onLiveTun).retrainLate then s.loseTunnel else s.onLive State.linkIdle

/-! ## Sleep and wake of the link (R206, R225) -/

/-- CL2_REQUEST (R206): a request to enter CL2 or router sleep waits for its flush. -/
def cl2Request (s : State) (router : Bool) : State :=
  let q := if router then SleepRequest.routerSleep else SleepRequest.cl2
  if !s.carried || s.sleepReqs.any (fun r => r.1 == q) then s
  else { s with sleepReqs := s.sleepReqs ++ [(q, s.live)] }

def execCl2Request (router : Bool) (s : State) : Result := .next (cl2Request s router)

/-- LINK_WAKE (R225, R231): a write of HP_CTRL with WAKE. -/
def execLinkWake (m : Master) (v : Word) (s : State) : Result :=
  .next (s.regRow m 0x04000008 (v ||| 0x200#32) (fun s => (s.plainWrite 0x04000008 (v ||| 0x200#32) hpStatus).wakeLink))

/-! ## Configuration space (R216 to R218, R224, R227) -/

/-- Some function has PTM Enable (R227). -/
def State.ptmEnabled (s : State) : Bool := (span 0 16).any (fun f => bit (s.cfg f 0x158) 0)

/-- A PTM dialogue starts: a request message (R227). -/
def State.ptmStart (s : State) : State := ({ s with ptmLast := some s.live, ptmOpen := true }).emit .ptmRequest

/-- PowerState takes a value (R206, R224): D3hot waits for its flush, D1 and D2 are ignored. -/
def State.powerState (s : State) (f ps : Nat) : State :=
  let cur := bitsOf (s.cfg f 0x44) 1 0
  if ps = 0 then
    let s := s.setCfg f 0x44 (s.cfg f 0x44 &&& 0xFFFFFFFC#32)
    ((if cur = 0 then s else s.jHostEvent f 1 0).stallUpdateAll).emit (.cfgDone f)
  else if ps = 3 ∧ cur = 0 then
    if s.sleepReqs.any (fun r => r.1 == .d3hot (Fin.ofNat 16 f)) then s
    else { s with sleepReqs := s.sleepReqs ++ [(.d3hot (Fin.ofNat 16 f), s.live)] }
  else s.emit (.cfgDone f)

/-- POWER_STATE_WRITE (R224). -/
def powerStateWrite (s : State) (f ps : Nat) : State := if s.carried then s.powerState f ps else s

def execPowerStateWrite (f : Fn) (ps : BitVec 2) (s : State) : Result := .next (s.onLive (fun s => powerStateWrite s f.val ps.toNat))

/-- RW and RW1C bits of a configuration word (PCI Express Base Specification, adopted by chapter 08). -/
def cfgMasks (f off : Nat) : Word × Word :=
  if off = 0x04 then (0x00000546#32, 0xF9000000#32)
  else if off = 0x0C then (0x000000FF#32, 0#32)
  else if off = 0x10 then (0xFFFC0000#32, 0#32)
  else if off = 0x14 then (0xFFFFFFFF#32, 0#32)
  else if off = 0x18 then (if f = 0 then 0xF0000000#32 else 0#32, 0#32)
  else if off = 0x1C then (if f = 0 then 0xFFFFFFFF#32 else 0#32, 0#32)
  else if off = 0x3C then (0x000000FF#32, 0#32)
  else if off = 0x44 then (0x00000100#32, 0x00008000#32)
  else if off = 0x50 then (0xC0000000#32, 0#32)
  else if off = 0x78 then (0x00007FFF#32, 0x000F0000#32)
  else if off = 0x98 then (0x0000000F#32, 0#32)
  else if off = 0x104 then (0#32, 0xFFFFFFFF#32)
  else if off = 0x108 ∨ off = 0x10C then (0x03FFF030#32, 0#32)
  else if off = 0x110 then (0#32, 0x0000F1C1#32)
  else if off = 0x114 then (0x0000F1C1#32, 0#32)
  else if off = 0x118 then (0x00000140#32, 0#32)
  else if off = 0x158 then (0x0000FF01#32, 0#32)
  else (0#32, 0#32)

/-- CONFIG_WRITE (R216): one word of a function's configuration space; Initiate FLR and PowerState lead on to their own
effects. -/
def configWrite (s : State) (f off : Nat) (v : Word) : State :=
  let off := alignDown off 4
  if !s.carried then s
  else
    let old := s.cfg f off
    let (rw, w1c) := cfgMasks f off
    let s := s.setCfg f off (mergeMask old v rw &&& ~~~ (v &&& w1c))
    if off = 0x78 ∧ bit v 15 then flrStart s f
    else if off = 0x44 ∧ bitsOf v 1 0 != bitsOf old 1 0 then s.powerState f (bitsOf v 1 0)
    else
      let s := if off = 0x04 ∧ bit v 2 != bit old 2 then (s.jHostEvent f 2 (if bit v 2 then 1 else 0)).stallUpdateAll else s
      let s := if off = 0x158 ∧ bit v 0 && !bit old 0 then s.ptmStart else s
      s.emit (.cfgDone f)

def execConfigWrite (f : Fn) (off : BitVec 12) (v : Word) (s : State) : Result :=
  .next (if s.jnState = 5 ∧ off.toNat / 4 = 30 ∧ bit v 15 then s.onLive (fun s => if s.carried then (s.cfgSpaceReset f.val).emit (.cfgDone f.val) else s)
    else s.onLive (fun s => configWrite s f.val off.toNat v))

/-- PTM_DIALOGUE (R227): every PTM_INTERVAL milliseconds while PTM Enable is 1 in any function. -/
def ptmDialogue (s : State) : State :=
  let due := match s.ptmLast with | some t => decide (t + bitsOf (s.reg 0x04000010) 15 0 * 1200000 ≤ s.live) | none => true
  if s.ptmEnabled && s.carried && due && s.domOn domU4RT then s.ptmStart else s

def execPtmDialogue (s : State) : Result := .next (ptmDialogue s)

/-- Write the pair, or STALE, into one function's FN_PTM words (R227, R232). -/
def State.ptmWrite (s : State) (r : Option Quad) (f : Nat) : State :=
  let b := 0x04100020 + 0x10000 * f
  let st := s.reg (b + 16)
  match r with
  | none => s.setReg (b + 16) (st ||| 0x40000000#32)
  | some ns =>
    let s := (s.setReg b (BitVec.ofNat 32 (s.liveT0 % 2 ^ 32))).setReg (b + 4) (BitVec.ofNat 32 (s.liveT0 / 2 ^ 32))
    let s := (s.setReg (b + 8) (BitVec.ofNat 32 (ns.toNat % 2 ^ 32))).setReg (b + 12) (BitVec.ofNat 32 (ns.toNat / 2 ^ 32))
    s.setReg (b + 16) (BitVec.ofNat 32 (2 ^ 31 + (bitsOf st 15 0 + 1) % 65536))

/-- Half the measured round trip of the open dialogue, in ns: from its request to its Response (R227, notes/assumptions/75.md). -/
def State.ptmHalfTrip (s : State) : Nat := (s.live - s.ptmLast.getD s.live) * 5 / 12

/-- PTM_DIALOGUE_DONE (R227): a dialogue ends with the master time of its Response, which is corrected by half the round trip, or
fails. -/
def ptmDialogueDone (s : State) (r : Option Quad) : State :=
  if !s.ptmOpen then s
  else (span 0 16).foldl (fun t f => t.ptmWrite (r.map (fun ns => ns + BitVec.ofNat 64 s.ptmHalfTrip)) f) { s with ptmOpen := false }

def execPtmDialogueDone (r : Option Quad) (s : State) : Result := .next (ptmDialogueDone s r)

end Sys2Proof.Machine
end

