-- ==== Sys2Proof/Machine/Interrupts.lean ====
section
/-! DEFINITION. The interrupt controller, the mailboxes and the lock registers (chapter 12), and wake events as
every cause raises them (R431).
The log entries that hold here: DEDUCED 27. -/

namespace Sys2Proof.Machine

/-! ## Sources (R354, R368) -/

/-- Reserved source numbers (R354, R442, R510). -/
def irqReserved (n : Nat) : Bool :=
  (decide (292 ≤ n) && decide (n ≤ 303)) || (decide (339 ≤ n) && decide (n ≤ 383)) || (decide (437 ≤ n) && decide (n ≤ 463)) ||
    (decide (469 ≤ n) && decide (n ≤ 511))

/-- Level sources (R354, R442, R510). -/
def irqLevel (n : Nat) : Bool :=
  (decide (256 ≤ n) && decide (n ≤ 271)) || n == 288 || n == 289 || (decide (305 ≤ n) && decide (n ≤ 338)) ||
    (decide (384 ≤ n) && decide (n ≤ 431)) || n == 436 || n == 468

/-- The status registers that drive a level source. -/
def sourceStatus (n : Nat) : List Nat :=
  if n = 305 then [0x04500004]
  else if n = 306 then [0x04400004]
  else if n = 307 then [0x04480004]
  else if n = 308 then [0x04300004]
  else if n = 309 then [0x04208004]
  else if n = 310 then [0x04000004]
  else if n = 311 then [0x04900004]
  else if n = 312 then [0x04780004]
  else if 313 ≤ n ∧ n ≤ 320 then [0x04700004 + 0x10000 * (n - 313)]
  else if 321 ≤ n ∧ n ≤ 336 then [0x04600004 + 0x10000 * (n - 321)]
  else if n = 337 then [0x04A00004]
  else if n = 338 then [0x04B00004]
  else if 384 ≤ n ∧ n ≤ 431 then [0x04C00400 + 4 * (n - 384)]
  else if n = 436 then [0x04D00004]
  else if n = 468 then [0x04F00004]
  else []

/-- A box is full (R369). -/
def State.boxFull (s : State) (b : Nat) : Bool := (SMap.get none s.boxes b).isSome

/-- A condition-type detector of the group is present (R401). -/
def State.condOf (s : State) (g : Nat) : Bool := s.conds.any (fun r => r.group.val == g)

/-- The level of a level source; 0 while its block is off (R354, R402). -/
def State.levelOf (s : State) (n : Nat) : Bool :=
  if 256 ≤ n ∧ n ≤ 271 then s.domOn domMGMT && s.boxFull (n - 256)
  else if n = 288 then s.boxFull 32
  else if n = 289 then s.boxFull 33
  else (sourceStatus n).any (fun a => s.domOn (regDom a) && s.statusLevel a) || (decide (384 ≤ n) && decide (n ≤ 431) && s.condOf (n - 384))

/-! ## Candidates and claims (R356 to R362) -/

/-- IC_CTRL, IC_PRCp_CTRL and IC_PRCp_SPUR. -/
def icStatus : Nat := 0x04A00004
def prcCtrl (p : Nat) : Nat := 0x04A00100 + 16 * p
def State.denOf (s : State) (p : Nat) : Bool := bit (s.reg (prcCtrl p)) 31
def State.threshOf (s : State) (p : Nat) : Nat := bitsOf (s.reg (prcCtrl p)) 3 0

/-- The processor is powered and out of reset (R356). -/
def State.procUp (s : State) (p : Nat) : Bool :=
  if p = 0 then s.domOn domMGMT && s.pommelUp
  else if p = 1 then s.cantleUp
  else s.domOn (sqDom ((p - 2) / 4))

/-- The processor that a source's target names (R356). -/
def State.targetOf (s : State) (x : IrqSrc) : Nat := if x.target = 18 then (if s.holderPommel then 0 else 1) else x.target

/-- RUN_p: the highest priority among the sources active on p (R356, R361). -/
def State.runOf (s : State) (p : Nat) : Nat :=
  s.irqs.foldl (fun r (_, x) => if x.active && x.holder == p then max r x.latched else r) 0

/-- The source is deliverable to p (R356). -/
def State.deliverableTo (s : State) (p : Nat) (x : IrqSrc) : Bool :=
  bit (s.reg 0x04A00008) 0 && x.en && x.pend && !x.active && s.targetOf x == p && decide (s.threshOf p < x.prio) &&
    decide (s.runOf p < x.prio) && s.procUp p

/-- The candidate by R356: highest priority, then lowest number. -/
def State.bestFor (s : State) (p : Nat) : Option (Nat × Nat) :=
  s.irqs.foldl (fun b (n, x) =>
    if s.deliverableTo p x then
      match b with
      | some (_, q) => if q < x.prio then some (n, x.prio) else b
      | none => some (n, x.prio)
    else b) none

/-- The committed candidate of p that no claim has returned yet. -/
def State.commit (s : State) (p : Nat) : Option Commit := SMap.get none s.commits p

/-- What a claim by p returns: source and priority (R357, R361). -/
def State.claimable (s : State) (p : Nat) : Option (Nat × Nat) :=
  match s.commit p, s.bestFor p with
  | some c, some (n, q) => if c.prio < q then some (n, q) else some (c.src, c.prio)
  | some c, none => some (c.src, c.prio)
  | none, b => b

/-- A source that a claim has returned is committed no longer (R361); p's own commit falls back to R356. -/
def State.dropCommits (s : State) (p n : Nat) : State :=
  { s with commits := (SMap.set none s.commits p none).filter (fun (_, c) => (c.map (fun x => x.src)) != some n) }

/-- The claim of source n at priority q by core p (R357, R361, R362). -/
def State.claim (s : State) (p n q : Nat) : State × Word :=
  let x := s.irqSrc n
  let spur := irqLevel n && !s.levelOf n
  let s := (s.setIrq n { x with active := true, holder := p, latched := q, pend := irqLevel n && x.pend }).dropCommits p n
  let s := if spur then s.setReg (prcCtrl p + 8) (satInc (s.reg (prcCtrl p + 8))) else s
  (s, BitVec.ofNat 32 (2 ^ 31 + (if spur then 2 ^ 30 else 0) + q * 2 ^ 16 + n))

/-- WFI claims and completes a source at once (R359); a claim of a level source whose level is low counts in IC_PRCp_SPUR (R362); the
journal records the delivery (R490). -/
def State.wfiClaim (s : State) (p n : Nat) : State :=
  let x := s.irqSrc n
  let s := if irqLevel n && !s.levelOf n then s.setReg (prcCtrl p + 8) (satInc (s.reg (prcCtrl p + 8))) else s
  ((s.setIrq n { x with pend := irqLevel n && s.levelOf n }).dropCommits p n).jrec 0x1A ((p - 2) * 4096 + n) []

/-- The completion of a source (R358). -/
def State.completeIrq (s : State) (n : Nat) : State :=
  let x := s.irqSrc n
  s.setIrq n { x with active := false, latched := 0, holder := 0, pend := if irqLevel n then s.levelOf n else x.pend }

/-- One cycle of the IC clock: CK_MGMT while PD_MGMT is on, CK_AONF otherwise (R360). -/
def State.icCycle (s : State) : Nat := if s.domOn domMGMT then 2 else 25

/-- SOURCE_MESSAGE (R355): a source sends a message; a level source does so only while its level is high. -/
def execSourceMessage (n : IrqId) (s : State) : Result :=
  .next (
    if irqReserved n.val || decide (512 ≤ n.val) then s
    else if irqLevel n.val && !s.levelOf n.val then s
    else s.irq n.val)

/-- A write of IC_RAISE (R355). -/
def State.icRaise (s : State) (v : Word) : State :=
  let n := bitsOf v 9 0
  if 512 ≤ n then s.irq n else s.cfgErr icStatus

/-- IC_RAISE (R355). -/
def execIcRaise (m : Master) (v : Word) (s : State) : Result := .next (s.regRow m 0x04A0000C v (fun s => s.icRaise v))

/-- CANDIDATE_COMMIT (R360, R361): the controller commits p's candidate; one already committed stays unless a higher source has become
deliverable, which inside its 6 cycles does not put the delivery off. A core whose DEN was 0 at the delivery gets its request once DEN
is 1 (R356, R364). -/
def candidateCommit (s : State) (p : Nat) : State :=
  let put := fun (c : Commit) => ({ s with commits := SMap.set none s.commits p (some c) } : State)
  match s.commit p, s.bestFor p with
  | none, none => s
  | none, some (n, q) => put { src := n, prio := q, at_ := s.live, den := s.denOf p, delivered := false }
  | some c, b =>
    match b.filter (fun x => decide (c.prio < x.2)) with
    | some (n, q) => put { src := n, prio := q, at_ := if c.delivered then s.live else c.at_,
                           den := s.denOf p || (!c.delivered && c.den), delivered := false }
    | none => if decide (p < 2) && c.delivered && !c.den && s.denOf p then put { c with at_ := s.live, den := true, delivered := false } else s

def execCandidateCommit (p : ProcId) (s : State) : Result := .next (candidateCommit s p.val)

/-! ## Wake events (R431, R433) -/

/-- PM_STATUS. -/
def pmStatus : Nat := 0x04D00004

/-- Drive WAKEN low, or restart its timeout (R433). -/
def State.wakenSet (s : State) : State := { s with waken := some s.live }

/-- Raise a request field of PM_REQ to a mode (R431): REQ_C at 16, REQ_P at 0. -/
def State.raiseReq (s : State) (lo m : Nat) : State :=
  let v := s.reg 0x04D0000C
  if bitsOf v (lo + 3) lo < m then s.setReg 0x04D0000C (putBits v (lo + 3) lo m) else s

/-- Wake event i (R431): PM_WAKE_SRC, source 433, the request it raises, and WAKEN where HOST says so. The
Cantle-to-Pommel mailbox write wakes whatever its enable holds. -/
def State.wakeEvent (s : State) (i : Nat) (always : Bool := false) : State :=
  let en := s.reg 0x04D00028
  if !bit en i && !always then s
  else
    let s := ((s.setReg 0x04D0002C (s.reg 0x04D0002C ||| bitWord i true))).irq 433
    let s := if i = 6 then s else if i = 9 then s.raiseReq 0 6 else s.raiseReq 16 5
    if bit en (16 + i) then (match s.waken with | some _ => s | none => s.wakenSet) else s

/-- The Cantle core is in its wait state: the always-on modes between patrol passes (R413, R430). -/
def State.cantleWaits (s : State) : Bool := (s.mode == 3 || s.mode == 4) && !s.patrol

/-! ## Completion (R358) -/

/-- A write of IC_COMPLETE by processor p, master m (R358). -/
def State.icComplete (s : State) (m p : Nat) (v : Word) : State :=
  let n := bitsOf v 9 0
  let x := s.irqSrc n
  if x.active && x.holder == p then s.completeIrq n
  else (s.setReg 0x04A00020 (BitVec.ofNat 32 (2 ^ 31 + m * 2 ^ 16 + n))).setStatus icStatus 2#32

/-- The processor of a core master; debug and the host have none. -/
def procOfMaster : Master → Option Nat
  | .pommel => some 0
  | .cantle => some 1
  | _ => none

/-- A read of IC_CLAIM (R357). -/
def State.icClaim (s : State) (m : Master) : State × Word :=
  match procOfMaster m with
  | none => (s, 0#32)
  | some p =>
    match s.claimable p with
    | none => (s, 0#32)
    | some (n, q) => s.claim p n q

/-- IC_CLAIM (R357). -/
def execIcClaim (m : Master) (s : State) : Result := .next (s.readRow m 0x04A00010 (fun s => s.icClaim m))

/-- IC_COMPLETE (R358); a master without a processor of its own has no active source. -/
def execIcComplete (m : Master) (v : Word) (s : State) : Result :=
  .next (s.regRow m 0x04A00014 v (fun s => s.icComplete m.id ((procOfMaster m).getD 18) v))

/-! ## Mailboxes (R369 to R374) -/

/-- A record of the party is open under fault policy: UC or FT, not yet reacted (R397). -/
def State.fenceRecs (s : State) (owner lowest : Nat) : Bool :=
  s.opens.any (fun (_, r) => match r with
    | some x => x.owner == owner && decide (lowest ≤ x.cls) && !x.done
    | none => false) ||
  s.loose.any (fun x => x.owner == owner && decide (lowest ≤ x.cls) && !x.done)

/-- The receiver is fenced off by fault policy (R397): 0 to 15 functions, 16 the Cantle core, 17 the Pommel core. -/
def State.fenced (s : State) (who : Nat) : Bool :=
  if who = 16 then s.fenceRecs 16 2
  else if who = 17 then s.fenceRecs 17 1 || s.ftReact.isSome
  else s.fenceRecs who 1

/-- Addresses of the status registers of a pair's views. -/
def fnMbStat (f : Nat) : Nat := 0x04100018 + 0x10000 * f
def mbFnStat (f : Nat) : Nat := 0x04B01008 + 16 * f

/-- CROSS sets in every view of a pair while both of its boxes are full (R373). -/
def State.crossFn (s : State) (f : Nat) : State :=
  if s.boxFull f && s.boxFull (16 + f) then
    (s.setReg (fnMbStat f) (s.reg (fnMbStat f) ||| 0x10#32)).setReg (mbFnStat f) (s.reg (mbFnStat f) ||| 4#32)
  else s

/-- CROSS of the half pair. -/
def State.crossHalves (s : State) : State :=
  if s.boxFull 32 && s.boxFull 33 then s.setReg 0x04B02010 (s.reg 0x04B02010 ||| 4#32) else s

/-- Put a word into a box. -/
def State.fillBox (s : State) (b : Nat) (v : Word) : State := { s with boxes := SMap.set none s.boxes b (some v) }

/-- An internal write is refused (R370, R376): cause 0 full, 1 receiver in reset, 2 receiver fenced; box code 0 to 17. -/
def State.boxRefused (s : State) (m : Master) (a cause box : Nat) : State :=
  ((s.emit (.accessError m.id a)).setReg 0x04B00008 (BitVec.ofNat 32 (2 ^ 31 + m.id * 2 ^ 16 + cause * 2 ^ 8 + box))).setStatus 0x04B00004 1#32

/-- The host writes FN_MB_TX of function f (R370, R371). -/
def State.hostBoxWrite (s : State) (f : Nat) (v : Word) : State :=
  if !s.procUp 0 || s.fenced 17 then s.setReg (fnMbStat f) (s.reg (fnMbStat f) ||| 8#32)
  else if s.boxFull f then s.setReg (fnMbStat f) (s.reg (fnMbStat f) ||| 4#32)
  else ((s.fillBox f v).irq (256 + f)).crossFn f

/-- MB_FNf_TX is written: the word goes to function f and fires its mailbox vector (R370 to R372). -/
def State.fnBoxWrite (s : State) (m : Master) (f : Nat) (v : Word) : State :=
  let a := 0x04B01004 + 16 * f
  if (s.fn f).resetAt.isSome then s.boxRefused m a 1 f
  else if s.fenced f then s.boxRefused m a 2 f
  else if s.boxFull (16 + f) then s.boxRefused m a 0 f
  else
    let s := (s.fillBox (16 + f) v).crossFn f
    let ctl := s.reg (0x0410001C + 0x10000 * f)
    if bit ctl 31 then s.ringFireVector f (bitsOf ctl 9 0) (bit ctl 30) else s

/-- MB_P2C_TX is written (R370, R371). -/
def State.p2cWrite (s : State) (m : Master) (v : Word) : State :=
  if !s.cantleUp then s.boxRefused m 0x04B02000 1 16
  else if s.fenced 16 then s.boxRefused m 0x04B02000 2 16
  else if s.boxFull 32 then s.boxRefused m 0x04B02000 0 16
  else ((s.fillBox 32 v).irq 288).crossHalves

/-- MB_C2P_TX is written (R370, R371): with PD_MGMT off the word waits and wakes the Pommel half. -/
def State.c2pWrite (s : State) (m : Master) (v : Word) : State :=
  if s.domOn domMGMT && !s.pommelUp then s.boxRefused m 0x04B02008 1 17
  else if s.fenced 17 then s.boxRefused m 0x04B02008 2 17
  else if s.boxFull 33 then s.boxRefused m 0x04B02008 0 17
  else (((s.fillBox 33 v).irq 289).crossHalves).wakeEvent 9 true

/-- Address of a box's TX register. -/
def boxTx (b : Nat) : Nat :=
  if b < 16 then 0x04100010 + 0x10000 * b else if b < 32 then 0x04B01004 + 16 * (b - 16) else if b = 32 then 0x04B02000 else 0x04B02008

/-- Address of a box's RX register. -/
def boxRx (b : Nat) : Nat :=
  if b < 16 then 0x04B01000 + 16 * b else if b < 32 then 0x04100014 + 0x10000 * (b - 16) else if b = 32 then 0x04B02004 else 0x04B0200C

/-- A performed write of a TX register. -/
def State.boxWrite (s : State) (m : Master) (b : Nat) (v : Word) : State :=
  if b < 16 then s.hostBoxWrite b v
  else if b < 32 then s.fnBoxWrite m (b - 16) v
  else if b = 32 then s.p2cWrite m v
  else s.c2pWrite m v

/-- MAILBOX_WRITE (R370). -/
def execMailboxWrite (m : Master) (box : Fin 34) (v : Word) (s : State) : Result :=
  .next (s.regRow m (boxTx box.val) v (fun s => s.boxWrite m box.val v))

/-- A performed read of an RX register: the word, and an empty box; the emptying is a source for the Pommel-to-host and
the half boxes (R354, R370). A level that has fallen stays pending until it is completed (R358). -/
def State.boxRead (s : State) (b : Nat) : State × Word :=
  match SMap.get none s.boxes b with
  | none => (s, 0#32)
  | some v =>
    let s : State := { s with boxes := SMap.set none s.boxes b none }
    let s := if 16 ≤ b ∧ b < 32 then s.irq (272 + (b - 16)) else if b = 32 then s.irq 290 else if b = 33 then s.irq 291 else s
    (s, v)

/-- MAILBOX_READ (R370). -/
def execMailboxRead (m : Master) (box : Fin 34) (s : State) : Result :=
  .next (s.readRow m (boxRx box.val) (fun s => s.boxRead box.val))

/-! ## Locks (R377, R378) -/

/-- LK_n. -/
def lockAddr (n : Nat) : Nat := 0x04B81000 + 4 * n

/-- LK_STATUS. -/
def lkStatus : Nat := 0x04B80004

/-- A read of LK_n: it grants a free lock and returns 0, or returns HELD with the holder (R377). -/
def State.lockRead (s : State) (m n : Nat) : State × Word :=
  let v := s.reg (lockAddr n)
  if v = 0#32 then (s.setReg (lockAddr n) (BitVec.ofNat 32 (2 ^ 31 + m)), 0#32) else (s, v)

/-- LOCK_READ (R377). -/
def execLockRead (m : Master) (n : LockId) (s : State) : Result :=
  .next (s.readRow m (lockAddr n.val) (fun s => s.lockRead m.id n.val))

/-- A write of LK_n (R377). -/
def State.lockWrite (s : State) (m n : Nat) (v : Word) : State :=
  if v != 0#32 then s.cfgErr lkStatus
  else if s.reg (lockAddr n) = BitVec.ofNat 32 (2 ^ 31 + m) then s.setReg (lockAddr n) 0#32
  else (s.setReg 0x04B80008 (BitVec.ofNat 32 (2 ^ 31 + m * 2 ^ 16 + n))).setStatus lkStatus 2#32

/-- LOCK_WRITE (R377). -/
def execLockWrite (m : Master) (n : LockId) (v : Word) (s : State) : Result :=
  .next (s.regRow m (lockAddr n.val) v (fun s => s.lockWrite m.id n.val v))

/-- A reset of a master releases its locks (R378). -/
def State.releaseLocks (s : State) (m : Nat) : State :=
  (span 0 256).foldl (fun t n => if t.reg (lockAddr n) = BitVec.ofNat 32 (2 ^ 31 + m) then t.setReg (lockAddr n) 0#32 else t) s

/-- Every lock is freed (R378). -/
def State.freeLocks (s : State) : State :=
  { s with regs := s.regs.filter (fun (a, _) => !(decide (0x04B81000 ≤ a) && decide (a < 0x04B81400))) }

end Sys2Proof.Machine
end

