-- ==== Sys2Proof/Machine/Operands.lean ====
section
/-! DEFINITION. Operand forms of the shaping cores (R238, R239, R241, R252): register fields and the window, immediates,
special registers, accumulators and address generators. -/

namespace Sys2Proof.Machine

/-- Physical register of window register wk (R238). -/
def ScCore.phys (x : ScCore) (k : Nat) : Nat := (8 * x.wp + k) % 256

/-- The register that a 5-bit field names: g0 to g7, then w0 to w23 (R239). -/
def ScCore.reg (x : ScCore) (f : Nat) : Word := if f < 8 then SMap.get 0#32 x.g f else SMap.get 0#32 x.w (x.phys (f - 8))

/-- Write the register that a 5-bit field names. -/
def ScCore.setReg (x : ScCore) (f : Nat) (v : Word) : ScCore :=
  if f < 8 then { x with g := SMap.set 0#32 x.g f v } else { x with w := SMap.set 0#32 x.w (x.phys (f - 8)) v }

/-- Fields of the R format. -/
def fRd (w : Word) : Nat := bitsOf w 25 21
def fRs1 (w : Word) : Nat := bitsOf w 20 16
def fRs2 (w : Word) : Nat := bitsOf w 15 11
def fFn (w : Word) : Nat := bitsOf w 4 0
def fMajor (w : Word) : Nat := bitsOf w 31 26

/-- The 16-bit immediate, zero-extended and sign-extended (R245). -/
def immZ (w : Word) : Word := (w.extractLsb' 0 16).setWidth 32
def immS (w : Word) : Word := (w.extractLsb' 0 16).signExtend 32

/-- A bit field sign-extended to 32 bits. -/
def sextField (v : Word) (lo n : Nat) : Word := (v.extractLsb' lo n).signExtend 32

/-- An accumulator, and writing one (R248). -/
def ScCore.acc (x : ScCore) (n : Nat) : BitVec 40 := if n = 0 then x.a0 else x.a1
def ScCore.setAcc (x : ScCore) (n : Nat) (v : BitVec 40) : ScCore := if n = 0 then { x with a0 := v } else { x with a1 := v }

/-- The features of FEAT1 (R270). -/
def ScCore.feat1 (x : ScCore) (i : Nat) : Bool := bit (SMap.get 0#32 x.ag 0x21) i
def ScCore.cborrow (x : ScCore) : Bool := x.feat1 3
def ScCore.rpt0max (x : ScCore) : Bool := x.feat1 2
def ScCore.macraw (x : ScCore) : Bool := x.feat1 1
def ScCore.shift6 (x : ScCore) : Bool := x.feat1 0

/-- AGnA, AGnC and AGnP by generator and part 0 to 2 (R252, R259). -/
def ScCore.agReg (x : ScCore) (n part : Nat) : Word := SMap.get 0#32 x.ag (0x10 + 4 * n + part)
def ScCore.setSpr (x : ScCore) (n : Nat) (v : Word) : ScCore := { x with ag := SMap.set 0#32 x.ag n v }

/-- PSR (R259). -/
def ScCore.psr (x : ScCore) : Word :=
  let b := fun (f : Bool) (i : Nat) => if f then 2 ^ i else 0
  BitVec.ofNat 32 (x.depth * 2 ^ 16 + b x.t 15 + x.wp * 2 ^ 8 + b x.n 3 + b x.z 2 + b x.c 1 + b x.v 0)

/-- A step of the condition table of R247; code 0xF is reserved. -/
def ScCore.cond (x : ScCore) (code : Nat) : Bool :=
  match code with
  | 0x0 => true
  | 0x1 => x.z
  | 0x2 => !x.z
  | 0x3 => x.c
  | 0x4 => !x.c
  | 0x5 => x.n
  | 0x6 => !x.n
  | 0x7 => x.v
  | 0x8 => !x.v
  | 0x9 => x.c && !x.z
  | 0xA => !x.c || x.z
  | 0xB => x.n == x.v
  | 0xC => x.n != x.v
  | 0xD => !x.z && x.n == x.v
  | 0xE => x.z || x.n != x.v
  | _ => false

end Sys2Proof.Machine
end

