-- ==== Sys2Proof/Machine/Flags.lean ====
section
/-! DEFINITION. Results and flags of the shaping cores' integer, multiply and accumulator instructions (R244 to R249,
R270).
The log entries that hold here: DEDUCED 12. -/

namespace Sys2Proof.Machine

/-- A result with the flags it sets: N and Z where `nz`, C and V where given; a flag not given keeps its value (R244). -/
structure AluOut where
  val : Word
  nz  : Bool := true
  c   : Option Bool := none
  v   : Option Bool := none
deriving DecidableEq, Repr

/-- Set the flags of a result. -/
def ScCore.flags (x : ScCore) (o : AluOut) : ScCore :=
  { x with
    n := if o.nz then o.val.getLsbD 31 else x.n
    z := if o.nz then o.val == 0#32 else x.z
    c := o.c.getD x.c
    v := o.v.getD x.v }

/-- Signed overflow: the exact result is not a signed 32-bit number. -/
def ovf32 (r : Int) : Bool := decide (r < -2 ^ 31) || decide (2 ^ 31 ≤ r)

/-- Saturation to signed 32 bits. -/
def sat32 (r : Int) : Int := if r < -2 ^ 31 then -2 ^ 31 else if 2 ^ 31 ≤ r then 2 ^ 31 - 1 else r

/-- ADD and ADC: a + b + carry. -/
def outAdd (a b : Word) (cin : Nat) : AluOut :=
  { val := BitVec.ofNat 32 (a.toNat + b.toNat + cin), c := some (decide (2 ^ 32 ≤ a.toNat + b.toNat + cin)),
    v := some (ovf32 (a.toInt + b.toInt + cin)) }

/-- SUB and SBC: a - b - borrow; C is 1 when no borrow occurs, or on borrow with CBORROW (R244, R270). -/
def outSub (cborrow : Bool) (a b : Word) (bin : Nat) : AluOut :=
  let borrow := decide (a.toNat < b.toNat + bin)
  { val := a - b - BitVec.ofNat 32 bin, c := some (if cborrow then borrow else !borrow), v := some (ovf32 (a.toInt - b.toInt - bin)) }

/-- The borrow that SBC subtracts: 1 - C, or C with CBORROW. -/
def ScCore.borrowIn (x : ScCore) : Nat := if x.c == x.cborrow then 1 else 0

/-- A result that sets Z and N only. -/
def outNZ (v : Word) : AluOut := { val := v }

/-- SHL by k: C is the last bit shifted out; 0 leaves it. -/
def outShl (a : Word) (k : Nat) : AluOut :=
  { val := a <<< k, c := if k = 0 then none else some (decide (k ≤ 32) && a.getLsbD (32 - k)) }

/-- SHR by k. -/
def outShr (a : Word) (k : Nat) : AluOut :=
  { val := a >>> k, c := if k = 0 then none else some (a.getLsbD (k - 1)) }

/-- SAR by k. -/
def outSar (a : Word) (k : Nat) : AluOut :=
  { val := a.sshiftRight k, c := if k = 0 then none else some (a.getLsbD (min 31 (k - 1))) }

/-- ROR by k: C is bit 31 of the result; a rotation by 0 leaves it. -/
def outRor (a : Word) (k : Nat) : AluOut :=
  { val := a.rotateRight k, c := if k = 0 then none else some ((a.rotateRight k).getLsbD 31) }

/-- The amount of a register shift: rs2[4:0], or rs2[5:0] with SHIFT6 (R244, R270). -/
def ScCore.amount (x : ScCore) (b : Word) : Nat := if x.shift6 then bitsOf b 5 0 else bitsOf b 4 0

/-- ADDS and SUBS: saturated, V 1 if saturated, else 0. -/
def outSat (r : Int) : AluOut := { val := BitVec.ofInt 32 (sat32 r), v := some (ovf32 r) }

/-- Signed and unsigned minimum and maximum. -/
def sMin (a b : Word) : Word := if a.toInt ≤ b.toInt then a else b
def sMax (a b : Word) : Word := if a.toInt ≤ b.toInt then b else a
def uMin (a b : Word) : Word := if a.toNat ≤ b.toNat then a else b
def uMax (a b : Word) : Word := if a.toNat ≤ b.toNat then b else a

/-- High halves of products. -/
def mulHigh (a b : Word) : Word := BitVec.ofInt 32 (Int.fdiv (a.toInt * b.toInt) (2 ^ 32))
def mulHighU (a b : Word) : Word := BitVec.ofNat 32 (a.toNat * b.toNat / 2 ^ 32)

/-! ## Multiply-accumulate (R248, R249) -/

/-- The signed halves of a register. -/
def loHalf (a : Word) : Int := (a.extractLsb' 0 16).toInt
def hiHalf (a : Word) : Int := (a.extractLsb' 16 16).toInt

/-- The Q15 product: twice the product of the low halves, without the factor under MACRAW. -/
def ScCore.q15 (x : ScCore) (p : Int) : Int := if x.macraw then p else 2 * p

/-- The Q31 product: floor(rs1 * rs2 / 2^31). -/
def q31 (a b : Word) : Int := Int.fdiv (a.toInt * b.toInt) (2 ^ 31)

/-- Put an exact result into an accumulator: V when it does not fit in 40 signed bits, then modulo 2^40. -/
def ScCore.macSet (x : ScCore) (n : Nat) (r : Int) : ScCore :=
  { x.setAcc n (BitVec.ofInt 40 r) with v := decide (r < -2 ^ 39) || decide (2 ^ 39 ≤ r) }

/-- ASAT.H: the accumulator plus 0x8000, saturated; its high half sign-extended. -/
def outAsatH (a : BitVec 40) : AluOut :=
  let r := a.toInt + 0x8000
  { val := BitVec.ofInt 32 (Int.fdiv (sat32 r) 65536), v := some (ovf32 r) }

/-- ASAT.W. -/
def outAsatW (a : BitVec 40) : AluOut := outSat a.toInt

/-! ## Bits (R246) -/

/-- The number of leading zeros. -/
def clz (a : Word) : Nat := if a = 0#32 then 32 else 31 - Nat.log2 a.toNat

/-- The number of one bits. -/
def popc (a : Word) : Nat := (span 0 32).foldl (fun n i => if a.getLsbD i then n + 1 else n) 0

/-- Bit i to bit 31 - i. -/
def brev (a : Word) : Word := a.reverse

/-- The byte order reversed. -/
def bswap (a : Word) : Word := BitVec.ofNat 32 (leNat ((leBytes 4 a.toNat).reverse))

/-- EXT: bits [pos + wm1 : pos], sign-extended where `sx`. -/
def extField (a : Word) (pos wm1 : Nat) (sx : Bool) : Word :=
  if sx then (a.extractLsb' pos (wm1 + 1)).signExtend 32 else (a.extractLsb' pos (wm1 + 1)).setWidth 32

/-- INS: bits [pos + wm1 : pos] of d replaced by the low bits of a. -/
def insField (d a : Word) (pos wm1 : Nat) : Word := putBits d (pos + wm1) pos a.toNat

/-- One reflected CRC step (R267). -/
def crcStep (p : Nat) (a b : Word) : Word :=
  let poly := if p = 0 then 0xEDB88320 else if p = 1 then 0x82F63B78 else 0x8408
  BitVec.ofNat 32 (crcByte poly (if p = 2 then a.toNat % 65536 else a.toNat) (b.setWidth 8))

end Sys2Proof.Machine
end

