-- ==== Sys2Proof/Machine/ShapeOps.lean ====
section
/-! DEFINITION. Shaping cores: their stores and accesses (R234 to R237), one instruction of a kernel (R241 to R243, R254),
exceptions and the end of a kernel (R262 to R264), the dispatcher (R271), stops (R272, R273) and DMA (R251).
The log entries that hold here: DEDUCED 12, 13, 77. -/

namespace Sys2Proof.Machine

/-! ## Registers and stores of a core -/

/-- Address of a register of core c (R274). -/
def scReg (c off : Nat) : Nat := 0x04600000 + 0x10000 * c + off

/-- EN of SC_CTRL. -/
def State.scEn (s : State) (c : Nat) : Bool := bit (s.reg (scReg c 8)) 0

/-- The three stores of a core (R234). -/
inductive ScStore where
  | imem | dmem | ucode
deriving DecidableEq, Repr

/-- Key of the ECC condition of the 64-bit word at an offset of a core's store. -/
def scEccKey (c : Nat) (k : ScStore) (off : Nat) : Nat :=
  2 ^ 40 + c * 2 ^ 20 + (match k with | .imem => 0 | .dmem => 1 | .ucode => 2) * 2 ^ 18 + off / 8

/-- A store's bytes. -/
def ScCore.bytes (x : ScCore) : ScStore → SMap Byte
  | .imem => x.imem
  | .dmem => x.dmem
  | .ucode => x.ucode

/-- `n` bytes of a store; DMEM offsets wrap at 64 KiB. -/
def ScCore.read (x : ScCore) (k : ScStore) (off n : Nat) : List Byte := (span off n).map (fun i => SMap.get 0#8 (x.bytes k) (i % 65536))

/-- A word of a store. -/
def ScCore.word (x : ScCore) (k : ScStore) (off : Nat) : Word := leWord (x.read k off 4)

/-- Put bytes into a table from an offset upwards, wrapping at 64 KiB. -/
def putAll : SMap Byte → Nat → List Byte → SMap Byte
  | m, _, [] => m
  | m, off, b :: bs => putAll (SMap.set 0#8 m (off % 65536) b) (off + 1) bs

/-- Write bytes into a store. -/
def ScCore.write (x : ScCore) (k : ScStore) (off : Nat) (bs : List Byte) : ScCore :=
  match k with
  | .imem => { x with imem := putAll x.imem off bs }
  | .dmem => { x with dmem := putAll x.dmem off bs }
  | .ucode => { x with ucode := putAll x.ucode off bs }

/-- A word read from the store would be poisoned (R328, R330). -/
def State.scPoison (s : State) (c : Nat) (k : ScStore) (off n : Nat) : Bool :=
  (span (off / 8) ((off + n - 1) / 8 + 1 - off / 8)).any (fun w =>
    match SMap.get .ok s.ecc (scEccKey c k (w * 8 % 65536)) with | .uncorrectable => true | .poison => true | _ => false)

/-! ## What a kernel may reach (R235, R236) -/

/-- Where a data address lies for a kernel of the operation in slot key. -/
inductive ScPlace where
  | dmem (off : Nat)
  | staging
  | none
deriving DecidableEq, Repr

/-- The bytes lie in staging area A or B, in the owner's share, and the memory is on (R235). -/
def State.scStaging (s : State) (key a n : Nat) : Bool :=
  let w := (s.slot key).w
  s.domOn (memDomainOf a) && s.domOn (memDomainOf (a + n - 1)) &&
  ((decide (0x00810000 ≤ a) && decide (a + n ≤ 0x00C00000) && decide (w.stageA.1 ≤ a) && decide (a + n ≤ w.stageA.1 + w.stageA.2)) ||
   (decide (0x01400000 ≤ a) && decide (a + n ≤ 0x01800000) && decide (w.stageB.1 ≤ a) && decide (a + n ≤ w.stageB.1 + w.stageB.2)))

/-- The place of an access of n bytes. -/
def State.scPlace (s : State) (key a n : Nat) : ScPlace :=
  if 0x03000000 ≤ a ∧ a < 0x03010000 then .dmem (a - 0x03000000)
  else if s.scStaging key a n then .staging
  else .none

/-- What one instruction does: goes on to the next instruction, goes elsewhere, ends the kernel, waits, or raises an
exception. -/
inductive ScDone where
  | seq (s : State) (x : ScCore)
  | jump (s : State) (x : ScCore)
  | fin (s : State) (x : ScCore)
  | stall (s : State) (x : ScCore)
  | exc (s : State) (e : ScExc)

/-- ILLEGAL with a sub-reason (R262). -/
def illegal (sub : Nat) : ScExc := { cause := 1, sub := sub }

/-- A data load of n bytes at address a (R236, R250): the value, or an exception. -/
def State.scLoad (s : State) (c : Nat) (x : ScCore) (a n : Nat) : State × Except ScExc (List Byte) :=
  if a % n != 0 then (s, .error { cause := 4, addr := a })
  else
    let key := match x.req with | some r => r.key | none => 0
    match s.scPlace key a n with
    | .none => (s, .error { cause := 5, addr := a })
    | .dmem off => if s.scPoison c .dmem off n then (s, .error { cause := 6, sub := 2, addr := a }) else (s, .ok (x.read .dmem off n))
    | .staging =>
      let (s, d, p) := s.readMem a n (16 + c) (match x.req with | some r => r.owner | none => 31)
      if p then (s, .error { cause := 6, sub := 3, addr := a }) else (s, .ok d)

/-- A data store (R236, R250): the machine and the core afterwards, or an exception. -/
def State.scStore (s : State) (x : ScCore) (a : Nat) (bs : List Byte) : Except ScExc (State × ScCore) :=
  if a % bs.length != 0 then .error { cause := 4, addr := a }
  else
    let key := match x.req with | some r => r.key | none => 0
    match s.scPlace key a bs.length with
    | .none => .error { cause := 5, addr := a }
    | .dmem off => .ok (s, x.write .dmem off bs)
    | .staging => .ok (s.writeMem a bs, x)

/-! ## The end of a kernel (R264, R272, R273) -/

/-- The SHAPE of a request ends with a kernel's result, when its slot still waits for it. -/
def State.shapeDone (s : State) (key : Nat) (e : KernelEnd) : State :=
  let x := s.slot key
  if x.st == .running && x.w.shapeAt.isSome && x.w.shapeEnd.isNone then
    s.setSlot key { x with w := { x.w with shapeEnd := some e } }
  else s

/-- The core is free again: IDLE, or DISABLED with EN 0. -/
def State.scFree (s : State) (c : Nat) : State :=
  s.setCore c { s.core c with
    st := if s.scEn c then .idle else .disabled, req := none, exc := none, rep := none, wfi := false, dmas := [] }

/-- The SC_EXC registers take an exception, EXC sets, with HWCHK for a HWCHECK, and SC_XCNT counts (R264). A refused access is counted
(R22). -/
def State.scRecord (s : State) (c : Nat) (e : ScExc) : State :=
  let s := s.setReg (scReg c 0x18) (BitVec.ofNat 32 (e.cause * 2 ^ 24 + e.sub * 2 ^ 16 + e.detail % 65536))
  let s := s.setReg (scReg c 0x1C) (BitVec.ofNat 32 (e.pc % 0x8000))
  let s := s.setReg (scReg c 0x20) (BitVec.ofNat 32 e.addr)
  let s := s.setReg (scReg c 0x24) (match e.rpt with | some n => BitVec.ofNat 32 (2 ^ 31 + n) | none => 0#32)
  let s := (s.setReg (scReg c 0x34) (satInc (s.reg (scReg c 0x34)))).setStatus (scReg c 4) (if e.cause = 0x0C then 6#32 else 2#32)
  if e.cause = 5 then s.refusedAccess (16 + c) e.addr else s

/-- A kernel that has ended and has no DMA outstanding returns the core to IDLE (R264, R272). -/
def State.scFinish (s : State) (c : Nat) : State :=
  let x := s.core c
  if x.st == .ending && x.dmas.isEmpty then
    let key := match x.req with | some r => r.key | none => 0
    match x.exc with
    | none => ((s.setReg (scReg c 0x30) (satInc (s.reg (scReg c 0x30)))).scFree c).shapeDone key .returned
    | some e => ((s.scRecord c e).scFree c).shapeDone key (if e.cause = 6 then .poison else .fault)
  else s

/-- The kernel of core c ends on an exception: what repetition it fell in is recorded (R256, R264). -/
def State.scExcept (s : State) (c : Nat) (e : ScExc) : State :=
  let x := s.core c
  State.scFinish (s.setCore c { x with st := .ending, wfi := false, exc := some { e with pc := x.pc, rpt := x.rep } }) c

/-- A kernel runs on core c and its quad is on. -/
def State.scRuns (s : State) (c : Nat) : Bool := (s.core c).st == .running && s.domOn (sqDom (c / 4))

/-- A register-file parity or residue check of a core (R262 to R264): the kernel that runs there ends on HWCHECK, before the instruction
at PC. DET 0, 5, 10 and 15 of groups 30 to 33 are the HWCHECK detectors of a quad's cores (R382, notes/assumptions/77.md). -/
def State.hwcheck (s : State) (r : Report) : State :=
  let c := 4 * (r.group.val - 30) + r.det.val / 5
  if 30 ≤ r.group.val ∧ r.group.val ≤ 33 ∧ r.det.val % 5 = 0 ∧ s.scRuns c then s.scExcept c { cause := 0x0C } else s

/-- The kernel ends normally. -/
def State.scReturn (s : State) (c : Nat) (x : ScCore) : State :=
  State.scFinish (s.setCore c { x with st := .ending, wfi := false, exc := none }) c

/-! ## One instruction (R241 to R243, R254 to R256) -/

/-- After an instruction: the next one, or the next pass of a repetition (R254). -/
def ScCore.advance (x : ScCore) : ScCore :=
  match x.rep with
  | some (n + 2) => { x with rep := some (n + 1) }
  | _ => { x with rep := none, pc := x.pc + 4 }

/-- The core fetches its next instruction and, where it is one that `want` names, executes it (R241, R263). -/
def State.scExec (s : State) (c : Nat) (want : Word → Bool) (f : State → ScCore → Word → ScDone) : State :=
  let x := s.core c
  if !s.scRuns c then s
  else if 0x8000 ≤ x.pc then s.scExcept c { cause := 3 }
  else if s.scPoison c .imem x.pc 4 then s.scExcept c { cause := 6, sub := 1 }
  else
    let w := x.word .imem x.pc
    if !want w then s
    else match f s x w with
      | .seq t y => t.setCore c y.advance
      | .jump t y => t.setCore c y
      | .fin t y => t.scReturn c y
      | .stall t y => t.setCore c y
      | .exc t e => t.scExcept c e

/-- A word of a major opcode, or of a major opcode and FN. -/
def isMajor (m : Nat) (w : Word) : Bool := fMajor w == m
def isFn (m fn : Nat) (w : Word) : Bool := fMajor w == m && fFn w == fn

/-- FN codes that a major opcode with FN defines (R244, R246, R248, R249, R251, R260). -/
def fnCount (m : Nat) : Option Nat :=
  if m = 0x01 then some 0x18
  else if m = 0x1A then some 7
  else if m = 0x1B then some 7
  else if m = 0x1C then some 6
  else if m = 0x23 then some 7
  else if m = 0x27 then some 3
  else none

/-- Undefined major opcodes (R242). -/
def undefinedMajor (m : Nat) : Bool :=
  m == 0 || (decide (0x0A ≤ m) && decide (m ≤ 0x0F)) || (decide (0x1D ≤ m) && decide (m ≤ 0x1F)) || (decide (0x28 ≤ m) && decide (m ≤ 0x37))

/-- The word is no instruction: an undefined major opcode, or a reserved FN (R243). -/
def isIllegal (w : Word) : Bool :=
  undefinedMajor (fMajor w) || (match fnCount (fMajor w) with | some n => decide (n ≤ fFn w) | none => false)

/-- ILLEGAL_INSTRUCTION (R243). -/
def execIllegalInstruction (c : CoreId) (s : State) : Result :=
  .next (s.scExec c.val isIllegal (fun s _ w => .exc s (illegal (if undefinedMajor (fMajor w) then 1 else 2))))

/-! ## DMA (R251) -/

/-- Copy `n` bytes from staging to DMEM, words keeping their poison mark. -/
def State.dmaIn (s : State) (c : Nat) (d : Dma) : State :=
  let x := s.core c
  let (s, bs, _) := s.readMem d.sys d.len (16 + c) (match x.req with | some r => r.owner | none => 31)
  let s1 := s.setCore c (x.write .dmem d.dmem bs)
  (span (d.dmem / 8) (if d.len = 0 then 0 else (d.dmem + d.len - 1) / 8 + 1 - d.dmem / 8)).foldl (fun t w =>
    let lo := max d.dmem (w * 8)
    let hi := min (d.dmem + d.len) (w * 8 + 8)
    let key := scEccKey c .dmem (w * 8)
    if s.poisoned (d.sys + (lo - d.dmem)) (hi - lo) then t.setEcc key .poison
    else if hi - lo = 8 then t.setEcc key .ok
    else t) s1

/-- Copy `n` bytes from DMEM to staging, word by word; `fuel` bounds the words. -/
def State.dmaOut (s : State) (c : Nat) (sys dmem len : Nat) : Nat → State
  | 0 => s
  | k + 1 =>
    if len = 0 then s
    else
      let n := min len (8 - sys % 8)
      let s := s.writeMem sys ((s.core c).read .dmem dmem n) (s.scPoison c .dmem dmem n)
      State.dmaOut s c (sys + n) (dmem + n) (len - n) k

/-- DMA_COMPLETE (R251): the oldest outstanding DMA of a core completes; the last one of a kernel that has ended returns
the core to IDLE. -/
def dmaComplete (s : State) (c : Nat) : State :=
  match (s.core c).dmas with
  | [] => s
  | d :: ds =>
    let s := if d.write then s.dmaOut c d.sys d.dmem d.len (d.len + 1) else s.dmaIn c d
    (s.setCore c { s.core c with dmas := ds }).scFinish c

def execDmaComplete (c : CoreId) (s : State) : Result := .next (dmaComplete s c.val)

/-! ## Dispatcher and limits (R240, R271 to R273) -/

/-- Fields of a SHAPE descriptor (R271). -/
def descEntry (d : List Byte) : Nat := leNat (d.take 2) % 8192
def descKlimit (d : List Byte) : Nat := leNat ((d.drop 4).take 2)
def descArg (d : List Byte) (i : Nat) : Word := leWord (d.drop (8 + 4 * i))

/-- The state in which a kernel starts (R240). -/
def State.scStart (s : State) (c : Nat) (r : ShapeReq) : State :=
  let x := s.core c
  let ws := s.reg (scReg c 0x14)
  let args : SMap Word := (span 0 6).foldl (fun m i => SMap.set 0#32 m i (descArg r.desc i)) []
  s.setCore c { imem := x.imem, dmem := x.dmem, ucode := x.ucode, failed := x.failed, st := .running, w := args,
                g := [(7, 0x03010000#32)], pc := 4 * descEntry r.desc, wsp := bitsOf ws 15 0, wslim := bitsOf ws 31 16,
                ag := SMap.set 0#32 [] 0x21 (BitVec.ofNat 32 (bitsOf (s.reg (scReg c 8)) 19 16)), req := some r, start := s.time }

/-- SC_QWAIT takes the longest wait, in nanoseconds, while its quad is on. -/
def State.qwait (s : State) (r : ShapeReq) : State :=
  let ns := (s.time - r.at_) * 1000 / 1200
  if s.domOn (sqDom 0) && decide ((s.reg (scReg 0 0x44)).toNat < ns) then s.setReg (scReg 0 0x44) (BitVec.ofNat 32 (min ns (2 ^ 32 - 1))) else s

/-- Request r ranks above q (R271). -/
def State.outranks (s : State) (r q : ShapeReq) : Bool :=
  let x := s.slot r.key
  let y := s.slot q.key
  if x.be then false
  else if y.be then true
  else decide (x.deadline.toNat < y.deadline.toNat) || (x.deadline == y.deadline && decide (r.key < q.key))

/-- Waiting requests in the order of R271; those of equal rank keep their order of arrival. -/
def State.insertReq (s : State) (r : ShapeReq) : List ShapeReq → List ShapeReq
  | [] => [r]
  | q :: qs => if s.outranks r q then r :: q :: qs else q :: s.insertReq r qs

/-- The waiting requests, highest rank first. -/
def State.ranked (s : State) : List ShapeReq := s.shapeQ.foldl (fun l r => s.insertReq r l) []

/-- The lowest-numbered idle core that a request names. -/
def State.idleCore (s : State) (r : ShapeReq) : Option Nat :=
  (s.shapeCores (descCores r.desc)).find? (fun c => (s.core c).st == .idle)

/-- The waiting requests that have lost their last eligible core or quad end at once with NO_CORE (R271). -/
def State.shapeOrphans (s : State) : State :=
  (s.shapeQ.filter (fun r => (s.shapeCores (descCores r.desc)).isEmpty)).foldl (fun t r =>
    (State.qwait { t with shapeQ := t.shapeQ.erase r } r).shapeDone r.key .noCore) s

/-- SHAPE_DISPATCH (R271): a request without an eligible core ends with NO_CORE; otherwise the highest-ranked request that
names an idle core starts. -/
def shapeDispatch (s : State) : State :=
  match s.ranked.find? (fun r => (s.shapeCores (descCores r.desc)).isEmpty) with
  | some r => (State.qwait { s with shapeQ := s.shapeQ.erase r } r).shapeDone r.key .noCore
  | none =>
    match s.ranked.find? (fun r => (s.idleCore r).isSome) with
    | some r =>
      (match s.idleCore r with
       | some c => (State.qwait { s with shapeQ := s.shapeQ.erase r } r).scStart c r
       | none => s)
    | none => s

def execShapeDispatch (s : State) : Result := .next (shapeDispatch s)

/-- KLIMIT (R272): the kernel has run for 1,000 times KLIMIT cycles of 1 ns. -/
def klimitReached (s : State) (c : Nat) : State :=
  match (s.core c).req with
  | some r =>
    let k := descKlimit r.desc
    if s.scRuns c && k != 0 && decide ((s.core c).start + k * 1200 ≤ s.time) then s.scExcept c { cause := 9 } else s
  | none => s

def execKlimit (c : CoreId) (s : State) : Result := .next (klimitReached s c.val)

/-- The operation of a running kernel has been stopped: it has ended, or its engine stands still (R273). -/
def State.scStopDue (s : State) (c : Nat) : Bool :=
  match (s.core c).req with
  | some r =>
    let x := s.slot r.key
    x.st != .running || x.w.shapeAt.isNone || !s.engineRuns (keyEngine r.key)
  | none => false

/-- KERNEL_STOP (R273): a running kernel stops between instructions or repetitions, with STOPPED. -/
def kernelStop (s : State) (c : Nat) : State := if s.scRuns c && s.scStopDue c then s.scExcept c { cause := 0x0D } else s

def execKernelStop (c : CoreId) (s : State) : Result := .next (kernelStop s c.val)

/-! ## Registers and windows of a core (R237, R274, R275, R450) -/

/-- STATE of SC_STATE: 1 DISABLED, 2 IDLE, 3 RUNNING, 4 TRAP, 5 ENDING. -/
def ScCore.code (x : ScCore) : Nat :=
  match x.st with
  | .disabled => 1
  | .idle => 2
  | .running => if x.t then 4 else 3
  | .ending => 5

/-- SC_STATE (R275). -/
def ScCore.stateWord (x : ScCore) : Word :=
  match x.req with
  | some r => BitVec.ofNat 32 (r.owner % 16 * 2 ^ 28 + keyEngine r.key * 2 ^ 20 + keySlot r.key * 2 ^ 13 + x.code)
  | none => BitVec.ofNat 32 x.code

/-- CFGERR of SC_STATUS. -/
def State.scCfgErr (s : State) (c : Nat) : State := s.cfgErr (scReg c 4)

/-- A write of SC_CTRL (R272, R275, R450): clearing EN lets a kernel run to its end and takes the core from the
requests that wait (R271); EN 1 is refused where the quad failed
self-test. -/
def State.scCtrl (s : State) (c : Nat) (v : Word) : State :=
  let x := s.core c
  if bit v 0 && x.failed then (s.setReg (scReg c 8) (v &&& 0xF0000#32 ||| s.reg (scReg c 8) &&& 1#32)).scCfgErr c
  else
    let s := s.setReg (scReg c 8) (v &&& 0xF0001#32)
    let s := match x.st with
      | .disabled => if bit v 0 then s.setCore c { x with st := .idle } else s
      | .idle => if bit v 0 then s else s.setCore c { x with st := .disabled }
      | _ => s
    if bit v 0 then s else s.shapeOrphans

/-- SC_CTRL_WRITE (R275). -/
def execScCtrlWrite (m : Master) (c : CoreId) (v : Word) (s : State) : Result :=
  .next (s.regRow m (scReg c.val 8) v (fun s => s.scCtrl c.val v))

/-- Only the Pommel core and debug write a core's stores (R237). -/
def storeWriter (m : Master) : Bool := m == .pommel || m == .debug

/-- Write a word into a store; a word that is written whole reads clean, one half keeps the mark (R329). -/
def State.scStoreWord (s : State) (c : Nat) (k : ScStore) (off : Nat) (v : Word) : State :=
  s.setCore c ((s.core c).write k off (leBytes 4 v.toNat))

/-- A performed write of SC_DMEM_DATA. -/
def State.dmemStore (s : State) (c : Nat) (v : Word) : State :=
  let adr := bitsOf (s.reg (scReg c 0x28)) 15 0
  if (s.core c).st == .disabled then
    (s.scStoreWord c .dmem adr v).setReg (scReg c 0x28) (BitVec.ofNat 32 ((adr + 4) % 65536))
  else s.scCfgErr c

/-- SC_DMEM_DATA_ACCESS (R237, R274): performed only while SC_STATE reads DISABLED; SC_DMEM_ADDR advances by 4. -/
def dmemData (s : State) (m : Master) (c : Nat) (op : RegOp) : State :=
  let a := scReg c 0x2C
  let adr := bitsOf (s.reg (scReg c 0x28)) 15 0
  let step := fun (t : State) => t.setReg (scReg c 0x28) (BitVec.ofNat 32 ((adr + 4) % 65536))
  let dis := (s.core c).st == .disabled
  match op.word with
  | some v =>
    if s.regRight m a true == .may && !storeWriter m then s.refuse m a
    else s.regRow m a v (fun t => t.dmemStore c v)
  | none => s.readRow m a (fun t => if dis then (step t, (t.core c).word .dmem adr) else (t, 0#32))

def execScDmemDataAccess (m : Master) (c : CoreId) (op : RegOp) (s : State) : Result := .next (dmemData s m c.val op)

/-- The store and offset of a window address (R274). -/
def windowOf (off : Nat) : Option (ScStore × Nat) :=
  if 0x1000 ≤ off ∧ off < 0x2000 then some (.ucode, off - 0x1000)
  else if 0x8000 ≤ off ∧ off < 0x10000 then some (.imem, off - 0x8000)
  else none

/-- A performed write of a word of a window. -/
def State.windowStore (s : State) (c off : Nat) (v : Word) : State :=
  match windowOf off with
  | some (k, o) => if (s.core c).st == .disabled && off % 4 == 0 then s.scStoreWord c k o v else s.scCfgErr c
  | none => s

/-- SC_WINDOW_ACCESS (R237): one of the wrong size sets CFGERR, whether it reads or writes; while the core is not DISABLED a read
returns 0 and a write sets CFGERR. -/
def windowAccess (s : State) (m : Master) (c off size : Nat) (op : RegOp) : State :=
  match windowOf off with
  | none => s
  | some (k, o) =>
    let a := scReg c off
    let whole := size == 4 && off % 4 == 0
    match op.word with
    | some v =>
      if s.regRight m a true == .may && !storeWriter m then s.refuse m a
      else s.regRow m a v (fun t => if size = 4 then t.windowStore c off v else t.scCfgErr c)
    | none =>
      s.readRow m a (fun t =>
        if !whole then (t.scCfgErr c, 0#32) else if (t.core c).st == .disabled then (t, (t.core c).word k o) else (t, 0#32))

def execScWindowAccess (m : Master) (c : CoreId) (off : BitVec 16) (size : Nat) (op : RegOp) (s : State) : Result :=
  .next (windowAccess s m c.val off.toNat size op)

/-! ## Delivery of interrupts (R361, R365) -/

/-- The WFI that waits on core c takes a candidate: rd gets the number and the core goes on. -/
def State.wfiTake (s : State) (c : Nat) : State :=
  let x := s.core c
  match s.claimable (2 + c) with
  | some (n, _) =>
    let w := x.word .imem x.pc
    (s.setCore c { (x.setReg (fRd w) (BitVec.ofNat 32 n)).advance with wfi := false }).wfiClaim (2 + c) n
  | none => s

/-- INTERRUPT_DELIVERY (R361, R365): 6 cycles after the commit the request asserts, or a waiting WFI completes. -/
def interruptDelivery (s : State) (p : Nat) : State :=
  match s.commit p with
  | none => s
  | some c =>
    if (2 ≤ p && s.mode == 0xA) || c.delivered || decide (s.live < c.at_ + 6 * s.icCycle) then s
    else
      let s : State := { s with commits := SMap.set none s.commits p (some { c with delivered := true, den := c.den || (decide (p < 2) && s.denOf p) }) }
      if 2 ≤ p then (if (s.core (p - 2)).wfi && s.scRuns (p - 2) then s.wfiTake (p - 2) else s)
      else
        let s := if c.den || s.denOf p || bit (s.reg (prcCtrl p)) 30 then s.emit (.irq p) else s
        if p = 1 ∧ s.cantleWaits then s.wakeEvent 8 else s

def execInterruptDelivery (p : ProcId) (s : State) : Result := .next (interruptDelivery s p.val)

end Sys2Proof.Machine
end

