-- ==== Sys2Proof/Machine/Shape.lean ====
section
/-! DEFINITION. Instructions of the shaping cores on registers: ALU, immediates, BIT, MAC and ACC (R244 to R249). -/

namespace Sys2Proof.Machine

/-! ## ALU, major 0x01 (R244) -/

/-- An ALU instruction: rd takes the result where `wr`, and the flags of the result; rd and rs2 fields that it does not use
must be 0 (R243). -/
def State.alu (s : State) (c fn : Nat) (wr useRs2 : Bool) (f : ScCore → Word → Word → AluOut) : State :=
  s.scExec c (isFn 0x01 fn) (fun s x w =>
    if bitsOf w 10 5 != 0 || (!wr && fRd w != 0) || (!useRs2 && fRs2 w != 0) then .exc s (illegal 3)
    else
      let o := f x (x.reg (fRs1 w)) (x.reg (fRs2 w))
      .seq s ((if wr then x.setReg (fRd w) o.val else x).flags o))

/-- ADD (R244). -/
def execScAdd (c : CoreId) (s : State) : Result := .next (s.alu c.val 0x00 true true (fun _ a b => outAdd a b 0))
/-- ADC (R244). -/
def execScAdc (c : CoreId) (s : State) : Result := .next (s.alu c.val 0x01 true true (fun x a b => outAdd a b (if x.c then 1 else 0)))
/-- SUB (R244). -/
def execScSub (c : CoreId) (s : State) : Result := .next (s.alu c.val 0x02 true true (fun x a b => outSub x.cborrow a b 0))
/-- SBC (R244). -/
def execScSbc (c : CoreId) (s : State) : Result := .next (s.alu c.val 0x03 true true (fun x a b => outSub x.cborrow a b x.borrowIn))
/-- AND (R244). -/
def execScAnd (c : CoreId) (s : State) : Result := .next (s.alu c.val 0x04 true true (fun _ a b => outNZ (a &&& b)))
/-- OR (R244). -/
def execScOr (c : CoreId) (s : State) : Result := .next (s.alu c.val 0x05 true true (fun _ a b => outNZ (a ||| b)))
/-- XOR (R244). -/
def execScXor (c : CoreId) (s : State) : Result := .next (s.alu c.val 0x06 true true (fun _ a b => outNZ (a ^^^ b)))
/-- ANDN (R244). -/
def execScAndn (c : CoreId) (s : State) : Result := .next (s.alu c.val 0x07 true true (fun _ a b => outNZ (a &&& ~~~ b)))
/-- SHL (R244). -/
def execScShl (c : CoreId) (s : State) : Result := .next (s.alu c.val 0x08 true true (fun x a b => outShl a (x.amount b)))
/-- SHR (R244). -/
def execScShr (c : CoreId) (s : State) : Result := .next (s.alu c.val 0x09 true true (fun x a b => outShr a (x.amount b)))
/-- SAR (R244). -/
def execScSar (c : CoreId) (s : State) : Result := .next (s.alu c.val 0x0A true true (fun x a b => outSar a (x.amount b)))
/-- ROR (R244). -/
def execScRor (c : CoreId) (s : State) : Result := .next (s.alu c.val 0x0B true true (fun _ a b => outRor a (bitsOf b 4 0)))
/-- MIN (R244). -/
def execScMin (c : CoreId) (s : State) : Result := .next (s.alu c.val 0x0C true true (fun _ a b => outNZ (sMin a b)))
/-- MAX (R244). -/
def execScMax (c : CoreId) (s : State) : Result := .next (s.alu c.val 0x0D true true (fun _ a b => outNZ (sMax a b)))
/-- MINU (R244). -/
def execScMinu (c : CoreId) (s : State) : Result := .next (s.alu c.val 0x0E true true (fun _ a b => outNZ (uMin a b)))
/-- MAXU (R244). -/
def execScMaxu (c : CoreId) (s : State) : Result := .next (s.alu c.val 0x0F true true (fun _ a b => outNZ (uMax a b)))
/-- MUL (R244). -/
def execScMul (c : CoreId) (s : State) : Result := .next (s.alu c.val 0x10 true true (fun _ a b => outNZ (a * b)))
/-- MULH (R244). -/
def execScMulh (c : CoreId) (s : State) : Result := .next (s.alu c.val 0x11 true true (fun _ a b => outNZ (mulHigh a b)))
/-- MULHU (R244). -/
def execScMulhu (c : CoreId) (s : State) : Result := .next (s.alu c.val 0x12 true true (fun _ a b => outNZ (mulHighU a b)))
/-- CMP (R244). -/
def execScCmp (c : CoreId) (s : State) : Result := .next (s.alu c.val 0x13 false true (fun x a b => outSub x.cborrow a b 0))
/-- TST (R244). -/
def execScTst (c : CoreId) (s : State) : Result := .next (s.alu c.val 0x14 false true (fun _ a b => outNZ (a &&& b)))
/-- MOV (R244). -/
def execScMov (c : CoreId) (s : State) : Result := .next (s.alu c.val 0x15 true false (fun _ a _ => outNZ a))
/-- ADDS (R244). -/
def execScAdds (c : CoreId) (s : State) : Result := .next (s.alu c.val 0x16 true true (fun _ a b => outSat (a.toInt + b.toInt)))
/-- SUBS (R244). -/
def execScSubs (c : CoreId) (s : State) : Result := .next (s.alu c.val 0x17 true true (fun _ a b => outSat (a.toInt - b.toInt)))

/-! ## Immediates, majors 0x02 to 0x09 (R245) -/

/-- An immediate instruction: fields that it does not use must be 0. -/
def State.aluImm (s : State) (c major : Nat) (wr useRs1 flags : Bool) (f : ScCore → Word → Word → AluOut) : State :=
  s.scExec c (isMajor major) (fun s x w =>
    if (!wr && fRd w != 0) || (!useRs1 && fRs1 w != 0) then .exc s (illegal 3)
    else
      let o := f x (x.reg (fRs1 w)) w
      let y := if wr then x.setReg (fRd w) o.val else x
      .seq s (if flags then y.flags o else y))

/-- ADDI (R245). -/
def execScAddi (c : CoreId) (s : State) : Result := .next (s.aluImm c.val 0x02 true true true (fun _ a w => outAdd a (immS w) 0))
/-- ANDI (R245). -/
def execScAndi (c : CoreId) (s : State) : Result := .next (s.aluImm c.val 0x03 true true true (fun _ a w => outNZ (a &&& immZ w)))
/-- ORI (R245). -/
def execScOri (c : CoreId) (s : State) : Result := .next (s.aluImm c.val 0x04 true true true (fun _ a w => outNZ (a ||| immZ w)))
/-- XORI (R245). -/
def execScXori (c : CoreId) (s : State) : Result := .next (s.aluImm c.val 0x05 true true true (fun _ a w => outNZ (a ^^^ immZ w)))

/-- The shift that KIND selects (R245). -/
def outShift (kind : Nat) (a : Word) (k : Nat) : AluOut :=
  if kind = 0 then outShl a k else if kind = 1 then outShr a k else if kind = 2 then outSar a k else outRor a k

/-- SHI (R245): a KIND of 4 to 7 raises ILLEGAL. -/
def execScShi (c : CoreId) (s : State) : Result :=
  .next (s.scExec c.val (isMajor 0x06) (fun s x w =>
    if bitsOf w 15 8 != 0 then .exc s (illegal 3)
    else if 4 ≤ bitsOf w 7 5 then .exc s (illegal 7)
    else
      let o := outShift (bitsOf w 7 5) (x.reg (fRs1 w)) (bitsOf w 4 0)
      .seq s ((x.setReg (fRd w) o.val).flags o)))

/-- CMPI (R245). -/
def execScCmpi (c : CoreId) (s : State) : Result :=
  .next (s.aluImm c.val 0x07 false true true (fun x a w => outSub x.cborrow a (immS w) 0))
/-- MOVHI (R245). -/
def execScMovhi (c : CoreId) (s : State) : Result := .next (s.aluImm c.val 0x08 true false false (fun _ _ w => outNZ (immZ w <<< 16)))
/-- MOVI (R245). -/
def execScMovi (c : CoreId) (s : State) : Result := .next (s.aluImm c.val 0x09 true false false (fun _ _ w => outNZ (immS w)))

/-! ## BIT, major 0x1C (R246) -/

/-- A BIT instruction on rd and rs1 alone. -/
def State.bitOp (s : State) (c fn : Nat) (f : Word → Word) : State :=
  s.scExec c (isFn 0x1C fn) (fun s x w =>
    if bitsOf w 15 5 != 0 then .exc s (illegal 3)
    else
      let o := outNZ (f (x.reg (fRs1 w)))
      .seq s ((x.setReg (fRd w) o.val).flags o))

/-- CLZ (R246). -/
def execScClz (c : CoreId) (s : State) : Result := .next (s.bitOp c.val 0 (fun a => BitVec.ofNat 32 (clz a)))
/-- POPC (R246). -/
def execScPopc (c : CoreId) (s : State) : Result := .next (s.bitOp c.val 1 (fun a => BitVec.ofNat 32 (popc a)))
/-- BREV (R246). -/
def execScBrev (c : CoreId) (s : State) : Result := .next (s.bitOp c.val 2 brev)
/-- BSWAP (R246). -/
def execScBswap (c : CoreId) (s : State) : Result := .next (s.bitOp c.val 3 bswap)

/-- EXT and INS: a field of rd's result; POS + WM1 above 31 raises ILLEGAL (R246). -/
def State.fieldOp (s : State) (c fn : Nat) (useSx : Bool) (f : Word → Word → Nat → Nat → Bool → Word) : State :=
  s.scExec c (isFn 0x1C fn) (fun s x w =>
    let pos := bitsOf w 15 11
    let wm1 := bitsOf w 10 6
    if !useSx && bit w 5 then .exc s (illegal 3)
    else if 31 < pos + wm1 then .exc s (illegal 7)
    else
      let o := outNZ (f (x.reg (fRd w)) (x.reg (fRs1 w)) pos wm1 (bit w 5))
      .seq s ((x.setReg (fRd w) o.val).flags o))

/-- EXT (R246). -/
def execScExt (c : CoreId) (s : State) : Result := .next (s.fieldOp c.val 4 true (fun _ a pos wm1 sx => extField a pos wm1 sx))
/-- INS (R246). -/
def execScIns (c : CoreId) (s : State) : Result := .next (s.fieldOp c.val 5 false (fun d a pos wm1 _ => insField d a pos wm1))

/-! ## MAC, major 0x1A (R248) -/

/-- A MAC instruction: the accumulator takes the exact result. -/
def State.mac (s : State) (c fn : Nat) (f : ScCore → Int → Word → Word → Int) : State :=
  s.scExec c (isFn 0x1A fn) (fun s x w =>
    if bitsOf w 24 21 != 0 || bitsOf w 10 5 != 0 then .exc s (illegal 3)
    else
      let n := bitsOf w 25 25
      .seq s (x.macSet n (f x (x.acc n).toInt (x.reg (fRs1 w)) (x.reg (fRs2 w)))))

/-- MPYQ15 (R248). -/
def execScMpyQ15 (c : CoreId) (s : State) : Result := .next (s.mac c.val 0 (fun x _ a b => x.q15 (loHalf a * loHalf b)))
/-- MACQ15 (R248). -/
def execScMacQ15 (c : CoreId) (s : State) : Result := .next (s.mac c.val 1 (fun x r a b => r + x.q15 (loHalf a * loHalf b)))
/-- MSUQ15 (R248). -/
def execScMsuQ15 (c : CoreId) (s : State) : Result := .next (s.mac c.val 2 (fun x r a b => r - x.q15 (loHalf a * loHalf b)))
/-- MPYQ31 (R248). -/
def execScMpyQ31 (c : CoreId) (s : State) : Result := .next (s.mac c.val 3 (fun _ _ a b => q31 a b))
/-- MACQ31 (R248). -/
def execScMacQ31 (c : CoreId) (s : State) : Result := .next (s.mac c.val 4 (fun _ r a b => r + q31 a b))
/-- MSUQ31 (R248). -/
def execScMsuQ31 (c : CoreId) (s : State) : Result := .next (s.mac c.val 5 (fun _ r a b => r - q31 a b))
/-- MACDQ15 (R248). -/
def execScMacdQ15 (c : CoreId) (s : State) : Result := .next (s.mac c.val 6 (fun x r a b => r + x.q15 (loHalf a * loHalf b) + x.q15 (hiHalf a * hiHalf b)))

/-! ## ACC, major 0x1B (R249) -/

/-- An ACC instruction; the rd and rs fields that it does not use must be 0. -/
def State.accOp (s : State) (c fn : Nat) (useRd useRs : Bool) (f : ScCore → Nat → Word → ScCore) : State :=
  s.scExec c (isFn 0x1B fn) (fun s x w =>
    if bitsOf w 19 16 != 0 || bitsOf w 10 5 != 0 || (!useRd && fRd w != 0) || (!useRs && fRs2 w != 0) then .exc s (illegal 3)
    else .seq s (f x (bitsOf w 20 20) w))

/-- rd takes a result with its flags. -/
def ScCore.put (x : ScCore) (rd : Nat) (o : AluOut) : ScCore := (x.setReg rd o.val).flags o

/-- ACLR (R249). -/
def execScAclr (c : CoreId) (s : State) : Result := .next (s.accOp c.val 0 false false (fun x n _ => x.setAcc n 0#40))
/-- ASAT.H (R249). -/
def execScAsatH (c : CoreId) (s : State) : Result := .next (s.accOp c.val 1 true false (fun x n w => x.put (fRd w) (outAsatH (x.acc n))))
/-- ASAT.W (R249). -/
def execScAsatW (c : CoreId) (s : State) : Result := .next (s.accOp c.val 2 true false (fun x n w => x.put (fRd w) (outAsatW (x.acc n))))
/-- ARD.L (R249). -/
def execScArdL (c : CoreId) (s : State) : Result :=
  .next (s.accOp c.val 3 true false (fun x n w => x.put (fRd w) (outNZ ((x.acc n).setWidth 32))))
/-- ARD.H (R249). -/
def execScArdH (c : CoreId) (s : State) : Result :=
  .next (s.accOp c.val 4 true false (fun x n w => x.put (fRd w) (outNZ (((x.acc n).extractLsb' 32 8).signExtend 32))))
/-- AWR (R249). -/
def execScAwr (c : CoreId) (s : State) : Result :=
  .next (s.accOp c.val 5 false true (fun x n w => x.setAcc n ((x.reg (fRs2 w)).signExtend 40)))
/-- AWRH (R249). -/
def execScAwrh (c : CoreId) (s : State) : Result :=
  .next (s.accOp c.val 6 false true (fun x n w =>
    x.setAcc n (((x.reg (fRs2 w)).setWidth 8 : BitVec 8) ++ ((x.acc n).setWidth 32 : BitVec 32))))

end Sys2Proof.Machine
end

