-- ==== Sys2Proof/Machine/ShapeFlow.lean ====
section
/-! DEFINITION. Instructions of the shaping cores on memory, address generators and DMA, repeat, branches, calls and the
window, special registers and SYS (R247, R250 to R260).
The log entries that hold here: DEDUCED 11, 12. -/

namespace Sys2Proof.Machine

/-! ## Loads and stores, majors 0x10 to 0x17 (R250) -/

/-- A load of n bytes at rs1 + IMM, extended to 32 bits. -/
def State.scLd (s : State) (c major n : Nat) (sx : Bool) : State :=
  s.scExec c (isMajor major) (fun s x w =>
    match s.scLoad c x (x.reg (fRs1 w) + immS w).toNat n with
    | (t, .error e) => .exc t e
    | (t, .ok d) =>
      let v := BitVec.ofNat (8 * n) (leNat d)
      .seq t (x.setReg (fRd w) (if sx then v.signExtend 32 else v.setWidth 32)))

/-- A store of the low n bytes of the register that the rd field names. -/
def State.scSt (s : State) (c major n : Nat) : State :=
  s.scExec c (isMajor major) (fun s x w =>
    match s.scStore x (x.reg (fRs1 w) + immS w).toNat (leBytes n (x.reg (fRd w)).toNat) with
    | .error e => .exc s e
    | .ok (t, y) => .seq t y)

/-- LD.W (R250). -/
def execScLdW (c : CoreId) (s : State) : Result := .next (s.scLd c.val 0x10 4 false)
/-- LD.H (R250). -/
def execScLdH (c : CoreId) (s : State) : Result := .next (s.scLd c.val 0x11 2 true)
/-- LD.HU (R250). -/
def execScLdHu (c : CoreId) (s : State) : Result := .next (s.scLd c.val 0x12 2 false)
/-- LD.B (R250). -/
def execScLdB (c : CoreId) (s : State) : Result := .next (s.scLd c.val 0x13 1 true)
/-- LD.BU (R250). -/
def execScLdBu (c : CoreId) (s : State) : Result := .next (s.scLd c.val 0x14 1 false)
/-- ST.W (R250). -/
def execScStW (c : CoreId) (s : State) : Result := .next (s.scSt c.val 0x15 4)
/-- ST.H (R250). -/
def execScStH (c : CoreId) (s : State) : Result := .next (s.scSt c.val 0x16 2)
/-- ST.B (R250). -/
def execScStB (c : CoreId) (s : State) : Result := .next (s.scSt c.val 0x17 1)

/-! ## Address generators (R252, R253) -/

/-- An address generator's registers. -/
structure Ag where
  base : Nat
  len  : Nat
  step : Int
  mode : Nat
  off  : Nat
deriving DecidableEq, Repr

/-- Address generator n of a core. -/
def ScCore.agOf (x : ScCore) (n : Nat) : Ag :=
  let a := x.agReg n 0
  let c := x.agReg n 1
  { base := bitsOf a 15 0, len := bitsOf a 31 16, step := loHalf c, mode := bitsOf c 17 16, off := bitsOf (x.agReg n 2) 15 0 }

/-- M: elements of the buffer. -/
def Ag.elems (g : Ag) (size : Nat) : Nat := g.len / size

/-- The validity of R253, checked before the access. -/
def Ag.valid (g : Ag) (size : Nat) : Bool :=
  if g.mode = 0 then true
  else if g.mode = 1 then decide (1 ≤ g.len) && decide (g.off < g.len) && decide (g.step.natAbs ≤ g.len)
  else g.len % size == 0 && decide (2 ≤ g.elems size) && decide (g.elems size ≤ 32768) &&
    2 ^ Nat.log2 (g.elems size) == g.elems size && decide (g.off < g.len) && g.off % size == 0

/-- The low k bits of a number in reverse order. -/
def revBits : Nat → Nat → Nat
  | 0, _ => 0
  | k + 1, n => n % 2 * 2 ^ k + revBits k (n / 2)

/-- OFF after an access (R253). -/
def Ag.next (g : Ag) (size : Nat) : Nat :=
  if g.mode = 0 then ((g.off + g.step) % 65536).toNat
  else if g.mode = 1 then
    let r := g.off + g.step
    (if g.len ≤ r then r - g.len else if r < 0 then r + g.len else r).toNat
  else
    let k := Nat.log2 (g.elems size)
    size * revBits k (((revBits k (g.off / size) : Int) + g.step) % 2 ^ k).toNat

/-- The address that a generator gives. -/
def Ag.addr (g : Ag) : Nat := 0x03000000 + (g.base + g.off) % 65536

/-- OFF of a generator advances. -/
def ScCore.agStep (x : ScCore) (n size : Nat) : ScCore := x.setSpr (0x12 + 4 * n) (BitVec.ofNat 32 ((x.agOf n).next size % 65536))

/-- A load through a generator (R253): size 2 ^ esz, checked for AGCFG before anything else. -/
def State.agLoad (s : State) (c : Nat) (x : ScCore) (n esz : Nat) (sx : Bool) : State × Except ScExc (ScCore × Word) :=
  let g := x.agOf n
  let size := 2 ^ esz
  if !g.valid size then (s, .error { cause := 8, detail := n })
  else match s.scLoad c x g.addr size with
    | (t, .error e) => (t, .error e)
    | (t, .ok d) =>
      let v := BitVec.ofNat (8 * size) (leNat d)
      (t, .ok (x.agStep n size, if sx then v.signExtend 32 else v.setWidth 32))

/-- A store through a generator (R253). -/
def State.agStore (s : State) (x : ScCore) (n esz : Nat) (v : Word) : Except ScExc (State × ScCore) :=
  let g := x.agOf n
  let size := 2 ^ esz
  if !g.valid size then .error { cause := 8, detail := n }
  else match s.scStore x g.addr (leBytes size v.toNat) with
    | .error e => .error e
    | .ok (t, y) => .ok (t, y.agStep n size)

/-- LDA (R253). -/
def execScLda (c : CoreId) (s : State) : Result :=
  .next (s.scExec c.val (isMajor 0x18) (fun s x w =>
    let esz := bitsOf w 18 17
    if bitsOf w 15 0 != 0 || (esz == 2 && bit w 16) then .exc s (illegal 3)
    else if esz = 3 then .exc s (illegal 7)
    else match s.agLoad c.val x (bitsOf w 20 19) esz (bit w 16) with
      | (t, .error e) => .exc t e
      | (t, .ok (y, v)) => .seq t (y.setReg (fRd w) v)))

/-- STA (R253). -/
def execScSta (c : CoreId) (s : State) : Result :=
  .next (s.scExec c.val (isMajor 0x19) (fun s x w =>
    let esz := bitsOf w 18 17
    if bitsOf w 15 0 != 0 || bit w 16 then .exc s (illegal 3)
    else if esz = 3 then .exc s (illegal 7)
    else match s.agStore x (bitsOf w 20 19) esz (x.reg (fRd w)) with
      | .error e => .exc s e
      | .ok (t, y) => .seq t y))

/-! ## DMA, major 0x27 (R251) -/

/-- DMAR and DMAW at issue: range checks, then one more outstanding DMA; a fifth one stalls. -/
def State.dmaIssue (s : State) (c fn : Nat) (write : Bool) : State :=
  s.scExec c (isFn 0x27 fn) (fun s x w =>
    let d := bitsOf (x.reg (fRd w)) 15 0
    let a := (x.reg (fRs1 w)).toNat
    let n := bitsOf (x.reg (fRs2 w)) 15 0
    let key := match x.req with | some r => r.key | none => 0
    if bitsOf w 10 5 != 0 then .exc s (illegal 3)
    else if x.t then .exc s (illegal 8)
    else if n = 0 then .seq s x
    else if !s.scStaging key a n then .exc s { cause := 5, addr := a }
    else if 0x10000 < d + n then .exc s { cause := 5, addr := 0x03000000 + d }
    else if 4 ≤ x.dmas.length then .stall s x
    else .seq s { x with dmas := x.dmas ++ [{ write := write, sys := a, dmem := d, len := n }] })

/-- DMAR (R251). -/
def execScDmar (c : CoreId) (s : State) : Result := .next (s.dmaIssue c.val 0 false)
/-- DMAW (R251). -/
def execScDmaw (c : CoreId) (s : State) : Result := .next (s.dmaIssue c.val 1 true)

/-- DMAWAIT (R251): stalls until every DMA of the core has completed. -/
def execScDmawait (c : CoreId) (s : State) : Result :=
  .next (s.scExec c.val (isFn 0x27 2) (fun s x w =>
    if bitsOf w 25 5 != 0 then .exc s (illegal 3)
    else if x.t then .exc s (illegal 8)
    else if x.dmas.isEmpty then .seq s x else .stall s x))

/-! ## Branches, calls and the window (R247, R257, R258) -/

/-- A target of PC + 4 * OFF, modulo 2^32. -/
def ScCore.target (x : ScCore) (off : Word) : Nat := (BitVec.ofNat 32 x.pc + (off <<< 2)).toNat

/-- B.cc (R247). -/
def execScBCc (c : CoreId) (s : State) : Result :=
  .next (s.scExec c.val (isMajor 0x20) (fun s x w =>
    let cc := bitsOf w 25 22
    let t := x.target (sextField w 0 22)
    if cc = 15 then .exc s (illegal 4)
    else if !x.cond cc then .seq s x
    else if 0x8000 ≤ t then .exc s { cause := 3 }
    else .jump s { x with pc := t, rep := none }))

/-- A window trap: T, TPC and the vector (R258). -/
def ScCore.trap (x : ScCore) (vec : Nat) : ScCore := { x with t := true, tpc := x.pc, pc := vec, rep := none }

/-- SPILLVEC and FILLVEC as byte addresses (R275). -/
def State.spillVec (s : State) (c : Nat) : Nat := bitsOf (s.reg (scReg c 0x10)) 14 2 * 4
def State.fillVec (s : State) (c : Nat) : Nat := bitsOf (s.reg (scReg c 0x10)) 30 18 * 4

/-- CALL and CALLR to a target (R257). -/
def State.callTo (s : State) (c : Nat) (x : ScCore) (t : Nat) : ScDone :=
  if x.t then .exc s (illegal 8)
  else if x.res = 29 then .jump s (x.trap (s.spillVec c))
  else if 0x8000 ≤ t ∨ t % 4 ≠ 0 then .exc s { cause := 3 }
  else if x.depth = 65535 then .exc s { cause := 7 }
  else .jump s { x with lk := (x.pc + 4) % 0x8000, wp := (x.wp + 1) % 32, res := x.res + 1, depth := x.depth + 1, pc := t, rep := none }

/-- CALL (R257). -/
def execScCall (c : CoreId) (s : State) : Result :=
  .next (s.scExec c.val (isMajor 0x21) (fun s x w => s.callTo c.val x (x.target (sextField w 0 26))))

/-- CALLR (R257). -/
def execScCallr (c : CoreId) (s : State) : Result :=
  .next (s.scExec c.val (isMajor 0x22) (fun s x w =>
    if fRd w != 0 || bitsOf w 15 0 != 0 then .exc s (illegal 3) else s.callTo c.val x (x.reg (fRs1 w)).toNat))

/-- A SYS instruction without operands. -/
def State.sysOp (s : State) (c fn : Nat) (f : State → ScCore → ScDone) : State :=
  s.scExec c (isFn 0x23 fn) (fun s x w => if bitsOf w 25 5 != 0 then .exc s (illegal 3) else f s x)

/-- SYS NOP (R260). -/
def execScSysNop (c : CoreId) (s : State) : Result := .next (s.sysOp c.val 0 (fun s x => .seq s x))

/-- RET (R257). -/
def execScRet (c : CoreId) (s : State) : Result :=
  .next (s.sysOp c.val 1 (fun s x =>
    if x.t then .exc s (illegal 8)
    else if x.depth = 0 then .fin s x
    else if x.res = 0 then .jump s (x.trap (s.fillVec c.val))
    else .jump s { x with pc := x.lk, wp := (x.wp + 31) % 32, res := x.res - 1, depth := x.depth - 1, rep := none }))

/-- END (R260): IMM 0 ends the kernel normally, any other raises USER. -/
def execScEnd (c : CoreId) (s : State) : Result :=
  .next (s.scExec c.val (isFn 0x23 2) (fun s x w =>
    let imm := bitsOf w 20 5
    if fRd w != 0 then .exc s (illegal 3)
    else if x.t then .exc s (illegal 8)
    else if imm = 0 then .fin s x
    else .exc s { cause := 0x0A, detail := imm }))

/-- The eight registers of a frame, in order, as bytes. -/
def ScCore.frame (x : ScCore) (n : Nat) : List Byte :=
  (span (8 * n) 8).flatMap (fun k => leBytes 4 (SMap.get 0#32 x.w k).toNat)

/-- Load a frame from bytes. -/
def ScCore.setFrame (x : ScCore) (n : Nat) (bs : List Byte) : ScCore :=
  { x with w := (span 0 8).foldl (fun m i => SMap.set 0#32 m (8 * n + i) (leWord (bs.drop (4 * i)))) x.w }

/-- SPILL (R258): the oldest resident frame goes to DMEM below WSP. -/
def execScSpill (c : CoreId) (s : State) : Result :=
  .next (s.sysOp c.val 3 (fun s x =>
    if !x.t then .exc s (illegal 8)
    else if x.wsp < x.wslim + 32 then .exc s { cause := 7 }
    else
      let y := x.write .dmem (x.wsp - 32) (x.frame ((x.wp + 32 - x.res) % 32))
      .seq s { y with wsp := x.wsp - 32, res := (x.res + 31) % 32 }))

/-- FILL (R258): the caller's frame comes back from DMEM at WSP. -/
def execScFill (c : CoreId) (s : State) : Result :=
  .next (s.sysOp c.val 4 (fun s x =>
    if !x.t then .exc s (illegal 8)
    else if s.scPoison c.val .dmem x.wsp 32 then .exc s { cause := 6, sub := 2, addr := 0x03000000 + x.wsp }
    else .seq s { x.setFrame ((x.wp + 31) % 32) (x.read .dmem x.wsp 32) with wsp := (x.wsp + 32) % 65536, res := 1 }))

/-- RETT (R258): clears T and goes back to the instruction at TPC. -/
def execScRett (c : CoreId) (s : State) : Result :=
  .next (s.sysOp c.val 5 (fun s x => if !x.t then .exc s (illegal 8) else .jump s { x with t := false, pc := x.tpc, rep := none }))

/-- WFI (R260, R359): claims and completes a candidate at once, or waits for one. -/
def execScWfi (c : CoreId) (s : State) : Result :=
  .next (s.scExec c.val (isFn 0x23 6) (fun s x w =>
    if bitsOf w 20 5 != 0 then .exc s (illegal 3)
    else match s.claimable (2 + c.val) with
      | some (n, _) => .seq (s.wfiClaim (2 + c.val) n) { x.setReg (fRd w) (BitVec.ofNat 32 n) with wfi := false }
      | none => .stall s { x with wfi := true }))

/-! ## Repeat (R254 to R256) -/

/-- The instruction may follow RPT (R254); a Vangest entry by RPTOK of its header. -/
def ScCore.repeatable (x : ScCore) (w : Word) : Bool :=
  let m := fMajor w
  (decide (1 ≤ m) && decide (m ≤ 9)) || (decide (0x10 ≤ m) && decide (m ≤ 0x19)) || m == 0x1A || m == 0x1B || m == 0x1C || m == 0x25 ||
    m == 0x26 || (m == 0x23 && fFn w == 0) || (decide (0x38 ≤ m) && bit (x.word .ucode (4 * (32 * (m - 0x38) + fRd w))) 30)

/-- RPT (R254): latches the count; a count of 0 skips the repeated instruction, or means 65,536 with RPT0MAX. -/
def execScRpt (c : CoreId) (s : State) : Result :=
  .next (s.scExec c.val (isMajor 0x24) (fun s x w =>
    let form := bit w 25
    let n := if form then x.rpt else bitsOf w 15 0
    let next := x.pc + 4
    if bitsOf w 24 16 != 0 || (form && bitsOf w 15 0 != 0) then .exc s (illegal 3)
    else if x.t then .exc s (illegal 8)
    else if next < 0x8000 ∧ !s.scPoison c.val .imem next 4 ∧ !x.repeatable (x.word .imem next) then .exc s (illegal 5)
    else if n = 0 ∧ !x.rpt0max then .jump s { x with pc := x.pc + 8 }
    else .jump s { x with pc := next, rep := some (if n = 0 then 65536 else n) }))

/-! ## Special registers, majors 0x25 and 0x26 (R252, R259, R270) -/

/-- Cycles since the kernel started, saturating. -/
def State.scCycle (s : State) (x : ScCore) : Word := BitVec.ofNat 32 (min ((s.time - x.start) * 1000 / 1200) (2 ^ 32 - 1))

/-- CALLER (R259). -/
def ScCore.callerWord (x : ScCore) : Word :=
  match x.req with
  | some r => BitVec.ofNat 32 (r.owner % 16 * 2 ^ 28 + keyEngine r.key * 2 ^ 20 + keySlot r.key * 2 ^ 13)
  | none => 0#32

/-- The value of a special register; none for an undefined number. -/
def State.sprRead (s : State) (c : Nat) (x : ScCore) (n : Nat) : Option Word :=
  if n = 0 then some x.psr
  else if n = 1 then some (BitVec.ofNat 32 x.lk)
  else if n = 2 then some (BitVec.ofNat 32 x.rpt)
  else if n = 3 then some (BitVec.ofNat 32 x.wsp)
  else if n = 4 then some (BitVec.ofNat 32 x.wslim)
  else if n = 5 then some (BitVec.ofNat 32 x.res)
  else if n = 6 then some (BitVec.ofNat 32 x.tpc)
  else if 0x10 ≤ n ∧ n < 0x20 ∧ n % 4 ≠ 3 then some (SMap.get 0#32 x.ag n)
  else if n = 0x20 then some 0x020000FF#32
  else if n = 0x21 ∨ n = 0x23 then some (SMap.get 0#32 x.ag n)
  else if n = 0x22 then some 0x03000100#32
  else if n = 0x30 then some (s.scCycle x)
  else if n = 0x31 then some (BitVec.ofNat 32 c)
  else if n = 0x32 then some x.callerWord
  else none

/-- A write of a special register: the core afterwards, or the sub-reason of ILLEGAL. -/
def ScCore.sprWrite (x : ScCore) (n : Nat) (v : Word) : Except Nat ScCore :=
  if n = 0 then .ok { x with n := bit v 3, z := bit v 2, c := bit v 1, v := bit v 0 }
  else if n = 1 then .ok { x with lk := bitsOf v 14 2 * 4 }
  else if n = 2 then .ok { x with rpt := bitsOf v 15 0 }
  else if n = 3 then .ok { x with wsp := bitsOf v 15 2 * 4 }
  else if n = 4 then .ok { x with wslim := bitsOf v 15 2 * 4 }
  else if 0x10 ≤ n ∧ n < 0x20 ∧ n % 4 ≠ 3 then
    if n % 4 = 0 then .ok (x.setSpr n v)
    else if n % 4 = 1 then (if bitsOf v 17 16 = 3 then .error 7 else .ok (x.setSpr n (v &&& 0x3FFFF#32)))
    else .ok (x.setSpr n (v &&& 0xFFFF#32))
  else if n = 0x21 then .ok (x.setSpr n (v &&& 0xF#32))
  else if n = 0x23 then .ok (x.setSpr n v)
  else .error 6

/-- MFS (R259). -/
def execScMfs (c : CoreId) (s : State) : Result :=
  .next (s.scExec c.val (isMajor 0x25) (fun s x w =>
    if bitsOf w 20 16 != 0 || bitsOf w 7 0 != 0 then .exc s (illegal 3)
    else match s.sprRead c.val x (bitsOf w 15 8) with
      | some v => .seq s (x.setReg (fRd w) v)
      | none => .exc s (illegal 6)))

/-- MTS (R259). -/
def execScMts (c : CoreId) (s : State) : Result :=
  .next (s.scExec c.val (isMajor 0x26) (fun s x w =>
    if bitsOf w 20 16 != 0 || bitsOf w 7 0 != 0 then .exc s (illegal 3)
    else match x.sprWrite (bitsOf w 15 8) (x.reg (fRd w)) with
      | .ok y => .seq s y
      | .error e => .exc s (illegal e)))

end Sys2Proof.Machine
end

