-- ==== Sys2Proof/Machine/Vangest.lean ====
section
/-! DEFINITION. Vangest decode-table entries (R265 to R269): headers, micro-operations, their check at decode, and the
execution of an entry as one instruction.
The log entries that hold here: DEDUCED 13. -/

namespace Sys2Proof.Machine

/-- Fields of a micro-operation (R266). -/
def uOp (u : Word) : Nat := bitsOf u 31 27
def uDst (u : Word) : Nat := bitsOf u 26 24
def uSa (u : Word) : Nat := bitsOf u 23 21
def uSb (u : Word) : Nat := bitsOf u 20 18
def uFl (u : Word) : Bool := bit u 17
def uParam (u : Word) : Nat := bitsOf u 15 0
def uParamS (u : Word) : Word := (u.extractLsb' 0 16).signExtend 32

/-- Header fields (R265). -/
def hLen (h : Word) : Nat := bitsOf h 21 18 + 1
def hStart (h : Word) : Nat := bitsOf h 9 0

/-- The entry that a V-format word selects. -/
def entryOf (w : Word) : Nat := 32 * (fMajor w - 0x38) + fRd w

/-- Fields that a micro-operation uses: DST, SA, SB, and the bits of PARAM (R267). -/
def uUses (op : Nat) : Option (Bool × Bool × Bool × Nat) :=
  if 0x01 ≤ op ∧ op ≤ 0x0C then some (true, true, true, 0)
  else match op with
    | 0x0D => some (true, false, false, 0xFFFF)
    | 0x0E => some (true, false, false, 0xFFFF)
    | 0x0F => some (true, true, true, 0xF)
    | 0x10 => some (true, true, false, 0xFFFF)
    | 0x11 => some (true, true, false, 0xFFFF)
    | 0x12 => some (false, true, true, 0xFFFF)
    | 0x13 => some (false, true, true, 0xFFFF)
    | 0x14 => some (true, false, false, 0x1F)
    | 0x15 => some (false, false, true, 0xF)
    | 0x16 => some (false, true, true, 1)
    | 0x17 => some (true, false, false, 1)
    | 0x18 => some (true, true, true, 3)
    | 0x19 => some (true, true, false, 0)
    | 0x1A => some (false, false, false, 0xFFFF)
    | 0x1B => some (true, true, false, 0x3FF)
    | _ => none

/-- A micro-operation is well formed by itself (R269). -/
def uOk (u : Word) : Bool :=
  match uUses (uOp u) with
  | none => false
  | some (d, a, b, pm) =>
    (if d then uDst u != 7 else uDst u == 0) && (a || uSa u == 0) && (b || uSb u == 0) && (uParam u &&& pm == uParam u) &&
      !bit u 16 && (!uFl u || (decide (1 ≤ uOp u) && decide (uOp u ≤ 0x0C))) &&
      (uOp u != 0x1B || decide (uParam u % 32 + uParam u / 32 % 32 ≤ 31)) && (uOp u != 0x18 || uParam u != 3) &&
      (!(uOp u == 0x0F || uOp u == 0x1A) || uParam u % 16 != 15)

/-- The sub-reason of ILLEGAL that an LDAG or STAG raises at decode (R253, R263). -/
def uIllegal (u : Word) : Option Nat :=
  let esz := uParam u / 4 % 4
  if (uOp u == 0x14 || uOp u == 0x15) && esz == 3 then some 7
  else if uOp u == 0x14 && esz == 2 && decide (16 ≤ uParam u) then some 3
  else none

/-- The header defines an entry within the pool (R265, R269). -/
def headerOk (h : Word) : Bool := bit h 31 && bitsOf h 29 22 == 0 && bitsOf h 17 10 == 0 && decide (hStart h + hLen h ≤ 768)

/-- A store micro-operation. -/
def uStores (u : Word) : Bool := uOp u == 0x12 || uOp u == 0x13 || uOp u == 0x15

/-- The whole entry is valid (R269). -/
def entryOk (h : Word) (us : List Word) : Bool :=
  headerOk h && us.all uOk &&
    decide ((us.filter uStores).length ≤ 4) && (us.dropLast).all (fun u => uOp u != 0x1A) &&
    !(bit h 30 && us.any (fun u => uOp u == 0x1A))

/-- What an entry has computed so far: the machine and core with everything it holds, its temporaries, and a branch taken. -/
structure VState where
  s   : State
  x   : ScCore
  tmp : List Word
  br  : Option Nat

/-- The register that a selector names, if it names one (R266). -/
def selReg (w : Word) (sel : Nat) : Option Nat :=
  if sel = 0 then some (bitsOf w 20 16) else if sel = 1 then some (bitsOf w 15 11) else if sel = 2 then some (bitsOf w 10 6) else none

/-- A source operand (R266). -/
def VState.src (v : VState) (w : Word) (sel : Nat) : Word :=
  match selReg w sel with
  | some r => v.x.reg r
  | none => if sel = 7 then sextField w 0 6 else (v.tmp[sel - 3]?).getD 0#32

/-- Write a destination operand. -/
def VState.put (v : VState) (w : Word) (sel : Nat) (a : Word) : VState :=
  match selReg w sel with
  | some r => { v with x := v.x.setReg r a }
  | none => { v with tmp := v.tmp.set (sel - 3) a }

/-- The ALU micro-operations 0x01 to 0x0C. -/
def uAlu (x : ScCore) (op : Nat) (a b : Word) : AluOut :=
  match op with
  | 0x01 => outAdd a b 0
  | 0x02 => outSub x.cborrow a b 0
  | 0x03 => outNZ (a &&& b)
  | 0x04 => outNZ (a ||| b)
  | 0x05 => outNZ (a ^^^ b)
  | 0x06 => outShl a (bitsOf b 4 0)
  | 0x07 => outShr a (bitsOf b 4 0)
  | 0x08 => outSar a (bitsOf b 4 0)
  | 0x09 => outRor a (bitsOf b 4 0)
  | 0x0A => outNZ (a * b)
  | 0x0B => outNZ (sMin a b)
  | _ => outNZ (sMax a b)

/-- One micro-operation of the instruction word w on core c (R267). -/
def VState.step (v : VState) (c : Nat) (w u : Word) : Except ScExc VState :=
  let a := v.src w (uSa u)
  let b := v.src w (uSb u)
  let p := uParam u
  let op := uOp u
  if 0x01 ≤ op ∧ op ≤ 0x0C then
    let o := uAlu v.x op a b
    let y := v.put w (uDst u) o.val
    .ok (if uFl u then { y with x := y.x.flags o } else y)
  else match op with
  | 0x0D => .ok (v.put w (uDst u) (uParamS u))
  | 0x0E => .ok (v.put w (uDst u) (putBits (v.src w (uDst u)) 31 16 p))
  | 0x0F => .ok (v.put w (uDst u) (if v.x.cond (p % 16) then a else b))
  | 0x10 =>
    (match v.s.scLoad c v.x (a + uParamS u).toNat 4 with
     | (_, .error e) => .error e
     | (t, .ok d) => .ok ({ v with s := t }.put w (uDst u) (leWord d)))
  | 0x11 =>
    (match v.s.scLoad c v.x (a + uParamS u).toNat 1 with
     | (_, .error e) => .error e
     | (t, .ok d) => .ok ({ v with s := t }.put w (uDst u) (BitVec.ofNat 32 (leNat d))))
  | 0x12 =>
    (match v.s.scStore v.x (a + uParamS u).toNat (leBytes 4 b.toNat) with
     | .error e => .error e
     | .ok (t, y) => .ok { v with s := t, x := y })
  | 0x13 =>
    (match v.s.scStore v.x (a + uParamS u).toNat (leBytes 1 b.toNat) with
     | .error e => .error e
     | .ok (t, y) => .ok { v with s := t, x := y })
  | 0x14 =>
    (match v.s.agLoad c v.x (p % 4) (p / 4 % 4) (decide (16 ≤ p)) with
     | (_, .error e) => .error e
     | (t, .ok (y, r)) => .ok ({ v with s := t, x := y }.put w (uDst u) r))
  | 0x15 =>
    (match v.s.agStore v.x (p % 4) (p / 4 % 4) b with
     | .error e => .error e
     | .ok (t, y) => .ok { v with s := t, x := y })
  | 0x16 => .ok { v with x := v.x.macSet (p % 2) ((v.x.acc (p % 2)).toInt + v.x.q15 (loHalf a * loHalf b)) }
  | 0x17 =>
    (let o := outAsatH (v.x.acc (p % 2))
     let y := v.put w (uDst u) o.val
     .ok { y with x := y.x.flags o })
  | 0x18 => .ok (v.put w (uDst u) (crcStep (p % 4) a b))
  | 0x19 => .ok (v.put w (uDst u) (brev a))
  | 0x1A =>
    (let t := v.x.target (sextField u 4 12)
     if !v.x.cond (p % 16) then .ok v
     else if 0x8000 ≤ t then .error { cause := 3 }
     else .ok { v with br := some t })
  | 0x1B => .ok (v.put w (uDst u) (extField a (p % 32) (p / 32 % 32) false))
  | _ => .ok v

/-- Micro-operations in pool order (R268). -/
def VState.run (c : Nat) (w : Word) : VState → List Word → Except ScExc VState
  | v, [] => .ok v
  | v, u :: us => match v.step c w u with
    | .error e => .error e
    | .ok y => VState.run c w y us

/-- The ECC events of a staging read that a discarded entry has made (R331). -/
def State.poisonSeen (s : State) (c owner : Nat) (e : ScExc) : State :=
  if e.cause = 6 ∧ e.sub = 3 then (s.readMem e.addr 1 (16 + c) owner).1 else s

/-- VANGEST_ENTRY (R263, R268, R269): the header and micro-operations are checked, then run; everything is committed together or
discarded. -/
def execScVangestEntry (c : CoreId) (s : State) : Result :=
  .next (s.scExec c.val (fun w => decide (0x38 ≤ fMajor w)) (fun s x w =>
    let k := entryOf w
    if s.scPoison c.val .ucode (4 * k) 4 then .exc s { cause := 6, sub := 4 }
    else
      let h := x.word .ucode (4 * k)
      let us := (span (hStart h) (hLen h)).map (fun j => x.word .ucode ((0x400 + 4 * j) % 4096))
      if headerOk h ∧ us.findSome? uIllegal ≠ none then .exc s (illegal ((us.findSome? uIllegal).getD 0))
      else if !entryOk h us then .exc s { cause := 2, detail := k }
      else if s.scPoison c.val .ucode (0x400 + 4 * hStart h) (4 * hLen h) then .exc s { cause := 6, sub := 4 }
      else match VState.run c.val w { s := s, x := x, tmp := [0#32, 0#32, 0#32, 0#32], br := none } us with
        | .error e => .exc (s.poisonSeen c.val (match x.req with | some r => r.owner | none => 31) e) e
        | .ok v =>
          match v.br with
          | some t => .jump v.s { v.x with pc := t, rep := none }
          | none => .seq v.s v.x))

end Sys2Proof.Machine
end

