-- ==== Sys2Proof/Machine/Render.lean ====
section
/-! DEFINITION. The hardware-owned regions of main and Cantle SRAM as software reads them (R23, R24, R80, R163, R194, R287,
R288, R293, R491): slot records, ring contexts, descriptors and the journal window are bytes of the machine's own state. The
layouts that the spec does not give read as free values.
The log entries that hold here: DEDUCED 43, 47. -/

namespace Sys2Proof.Machine

/-- The bytes of a list of numbers, each with its width. -/
def pack (l : List (Nat × Nat)) : List Byte := l.flatMap (fun (n, v) => leBytes n v)

/-- Bits as a number. -/
def bitsNat (l : List Bool) : Nat := l.foldr (fun b n => (if b then 1 else 0) + 2 * n) 0

/-- Bytes 0 to 183 of the slot record (R80). -/
def State.slotBytes (s : State) (key : Nat) : List Byte :=
  let x := s.slot key
  let lp := fun (i : Nat) => (x.loops[i]?).getD (0#64, 0)
  pack [(1, x.st.code), (1, bitsNat [x.be, x.susreq, x.haltreq, x.clearreq, x.markset]), (1, x.owner), (1, x.loops.length),
    (2, x.wq), (2, x.cq), (2, x.station), (2, x.flow), (4, x.tag.toNat), (8, x.prog.toNat), (8, x.cur.toNat), (16, x.ccw.toNat),
    (8, x.deadline.toNat), (8, t0At x.accept), (4, x.claimBusy), (4, x.claimBytes), (4, x.claimCcws), (4, s.usedBusy x),
    (4, x.usedBytes), (4, x.usedCcws), (4, x.remain), (4, x.cmp.code + 4 * bitsNat [x.timeout, x.fallback, x.short]),
    (8, x.markSrc * 2 ^ 60 + x.markPos % 2 ^ 60), (8, 0),
    (8, (lp 0).1.toNat), (2, (lp 0).2), (6, 0), (8, (lp 1).1.toNat), (2, (lp 1).2), (6, 0),
    (8, (lp 2).1.toNat), (2, (lp 2).2), (6, 0), (8, (lp 3).1.toNat), (2, (lp 3).2), (6, 0),
    (4, x.cstat.toNat), (4, x.ustat.toNat)]

/-- Items parked, and slots held, of a backlog. -/
def parkedOf (b : List Backlog) : Nat := (b.filter (fun e => match e with | .parked _ _ => true | _ => false)).length
def heldOf (b : List Backlog) : Nat := (b.filter (fun e => match e with | .held _ _ => true | _ => false)).length

/-- The ring context (R163, R194); none where its working state lies. -/
def State.ringBytes (s : State) (g : Nat) : List (Option Byte) :=
  let r := s.ring g
  if r = ({} : Ring) then rep 64 (some 0#8)
  else
    let f := s.ringFn g
    let head : List Byte := pack [(8, r.base.toNat), (1, r.typ), (1, r.size), (1, f.getD 0), (1, r.st), (2, if r.typ = 1 then r.head else 0),
      (2, r.errIndex), (1, if r.lapx then 1 else 0), (1, r.errcode), (1, r.pfdepth + 4 * r.mod), (1, 0),
      (2, if r.typ = 1 then (match f with | some f => s.shareFirst f + r.cq | none => 0) else 0), (2, 0),
      (4, r.dbseq.toNat), (4, r.consumed.toNat)]
    let tail : List (Option Byte) :=
      if r.typ = 1 then rep 32 none
      else (pack [(8, r.haddr.toNat), (2, r.tail), (2, r.qhead), (1, bitsNat [r.lapw, r.wake]), (1, r.cnt), (2, r.time), (2, r.vector),
        (2, r.stall), (2, parkedOf r.backlog), (2, heldOf r.backlog), (4, r.posted.toNat), (4, 0)]).map some
    head.map some ++ tail

/-- The descriptor of a station in the table (R287, R288, R293); entries 0 to 255 read 0. -/
def State.stationBytes (s : State) (n : Nat) : List (Option Byte) :=
  if n < 256 then rep 128 (some 0#8)
  else
    let x := s.station n
    let w0 := if s.staBusy n then x.w0 ||| 0x40000000#32 else x.w0
    (pack [(4, w0.toNat), (4, x.w1.toNat), (4, x.w2.toNat), (4, x.w3.toNat), (4, x.w4.toNat), (12, 0)] ++ x.senseBytes (s.staFlags n)).map some ++
      rep 64 none

/-- The header of a journal record after a record of the tick `prev` (R491). -/
def State.recHeader (s : State) (prev : Nat) (r : JRec) : Nat :=
  r.type % 64 * 2 ^ 58 + (if r.damaged then 2 ^ 57 else 0) + r.payload.length % 256 * 2 ^ 48 + r.srcid % 65536 * 2 ^ 32 +
    (r.at_ - prev) / s.tickLen % 2 ^ 32

/-- The bytes of the records in the window. -/
def State.recBytes (s : State) : Nat → List JRec → List Byte
  | _, [] => []
  | prev, r :: rs => leBytes 8 (s.recHeader prev r) ++ r.payload.flatMap (fun p => leBytes 8 p) ++ s.recBytes r.at_ rs

/-- The byte of a hardware-owned region; none where the spec gives no layout. -/
def State.hwByte (s : State) (a : Nat) : Option Byte :=
  if 0x00600000 ≤ a ∧ a < 0x00800000 then (s.slotBytes ((a - 0x00600000) / 256))[a % 256]?
  else if 0x02180000 ≤ a ∧ a < 0x02184000 then (s.slotBytes (64 * 128 + (a - 0x02180000) / 256))[a % 256]?
  else if 0x00400000 ≤ a ∧ a < 0x00500000 then ((s.ringBytes ((a - 0x00400000) / 64))[a % 64]?).getD none
  else if 0x00500000 ≤ a ∧ a < 0x00580000 then ((s.stationBytes ((a - 0x00500000) / 128))[a % 128]?).getD none
  else if 0x01200000 ≤ a ∧ a < 0x01400000 then
    (if s.jnDest = 0 then some (((s.recBytes s.jn.base s.jn.recs)[a - 0x01200000]?).getD 0#8) else none)
  else none

/-- Bytes of a hardware-owned region inside one aligned 8-byte word; unknown ones come from one fresh free value. -/
def State.hwRead (s : State) (a n : Nat) : State × List Byte :=
  let l := (span a n).map s.hwByte
  if l.all Option.isSome then (s, l.map (fun b => b.getD 0#8))
  else
    let (q, s) := s.draw
    (s, (List.zip (leBytes n q.toNat) l).map (fun (d, b) => b.getD d))

/-- The address lies in a region whose bytes stand in State, or are free; the fault log is memory. -/
def isHw (a : Nat) : Bool :=
  (decide (0x00400000 ≤ a) && decide (a < 0x00810000)) || (decide (0x00C00000 ≤ a) && decide (a < 0x01400000)) ||
    (decide (0x02180000 ≤ a) && decide (a < 0x02184000))

end Sys2Proof.Machine
end

