-- ==== Sys2Proof/Machine/Memory.lean ====
section
/-! DEFINITION. The memory system (chapter 11): core, debug and BAR2 accesses and their rights (R25, R220), the aliases (R324,
R325), merge-buffer drains (R334), the scrubber (R332), remapping (R347 to R349) and error injection (R350).
The log entries that hold here: DESIGN CHOICE 4, 5; DEDUCED 8, 29, 30, 52. -/

namespace Sys2Proof.Machine

/-- Memory in its canonical form: addresses rise strictly, and no listed byte equals 0, which an unlisted byte reads as. -/
def Memory.wf (m : SMap Byte) : Bool := SMap.wf (fun _ => 0#8) m

/-! ## Regions and rights (R19, R25, R336, R486) -/

/-- The regions of R23 to R25. -/
inductive MemReg where
  | pommelFw | hwMain | staging | tack | cantleFw | hwCantle | aonStaging | none
deriving DecidableEq, Repr

/-- The region of an address. -/
def memReg (a : Nat) : MemReg :=
  if a < 0x00400000 then .pommelFw
  else if a < 0x00810000 then .hwMain
  else if a < 0x00C00000 then .staging
  else if a < 0x01400000 then .hwMain
  else if a < 0x01800000 then .staging
  else if isTack a then .tack
  else if 0x02100000 ≤ a ∧ a < 0x02180000 then .cantleFw
  else if 0x02180000 ≤ a ∧ a < 0x02188000 then .hwCantle
  else if 0x02188000 ≤ a ∧ a < 0x02200000 then .aonStaging
  else .none

/-- The kinds of access of R25. -/
inductive Acc where
  | r | w | x
deriving DecidableEq, Repr

/-- R25's table. BAR2 stands as the master host 0. -/
def memMay (m : Master) (g : MemReg) (k : Acc) : Bool :=
  match m, g with
  | .pommel, .pommelFw => k != .w
  | .pommel, .hwMain => k == .r
  | .pommel, .staging => k != .x
  | .pommel, .tack => k != .x
  | .pommel, .cantleFw => k == .r
  | .pommel, .hwCantle => k == .r
  | .pommel, .aonStaging => k != .x
  | .cantle, .tack => k != .x
  | .cantle, .cantleFw => true
  | .cantle, .hwCantle => k == .r
  | .cantle, .aonStaging => k != .x
  | .debug, .pommelFw => k == .r
  | .debug, .hwMain => k == .r
  | .debug, .hwCantle => k == .r
  | .debug, .none => false
  | .debug, _ => k != .x
  | .host _, .pommelFw => k == .r
  | .host _, .hwMain => k == .r
  | .host _, .staging => k != .x
  | .host _, .tack => k != .x
  | _, _ => false

/-- The master's lifecycle right to memory: the cores always, debug and BAR2 in BLANK and DEVELOP (R486). -/
def State.lifeMay (s : State) (m : Master) : Bool :=
  match m with
  | .pommel => true
  | .cantle => true
  | _ => decide (s.life ≤ 1)

/-- The memory and the port of the access are powered (R28, R336, R343). -/
def State.memOn (s : State) (m : Master) (a : Nat) : Bool :=
  s.domOn (memDomainOf a) && !(isTack a && (m == .pommel || (match m with | .host _ => true | _ => false)) && !s.domOn domMGMT)

/-- The master may access `a` in this way, now. -/
def State.memRight (s : State) (m : Master) (a : Nat) (k : Acc) : Bool := memMay m (memReg a) k && s.lifeMay m && s.memOn m a

/-- The access is through port B of the Tack Room (R336). -/
def State.portB (s : State) (m : Master) : Bool := m == .cantle || (m == .debug && !s.domOn domMGMT)

/-! ## Core and debug accesses (R25, R330, R337) -/

/-- The record of an access to main SRAM at `a` by the Pommel core, BAR2 or debug, which named it by the address `full` (R490). -/
def State.coreacc (s : State) (m full a n : Nat) (w : Option (List Byte)) : State :=
  if isMain a && m != 2 then
    s.jrec 0x19 m [Nat.log2 n * 2 ^ 40 + (if w.isSome then 2 ^ 43 else 0) + full, leNat (w.getD [])]
  else s

/-- A collision in the Tack Room: the later port is told (R337). -/
def State.trBusy (s : State) (m : Master) (a : Nat) (meet : Option TrMeet) (write : Bool) : State :=
  match meet with
  | some t =>
    if isTack a && t.later && (write || t.otherWrites) then
      s.setReg 0x04900020 (putBits (s.reg 0x04900020 ||| (if s.portB m then 0x40000000#32 else 0x80000000#32)) 13 0 ((a - 0x02000000) / 4))
    else s
  | none => s

/-- A performed read: its bytes and poison mark. A Tack Room read that collides with a write returns a free value (R337). -/
def State.memFetch (s : State) (m : Master) (a n : Nat) (meet : Option TrMeet) : State × List Byte × Bool :=
  if isHw a then
    let t := (eccWords a n).foldl (fun t w => t.eccEvent w (SMap.get .ok s.ecc w) m.id (eccOwner m.id)) s
    let (t, p) := t.winTouch a n
    let (t, d) := t.hwRead a n
    (t, d, p || s.poisoned a n)
  else
    let hit := match meet with | some t => isTack a && t.otherWrites | none => false
    if hit then ({ s with freeCtr := s.freeCtr + 1 }, leBytes n (Config.tackRoomUndefined s.freeCtr).toNat, false)
    else s.readMem a n m.id (eccOwner m.id)

/-- An addressed read of memory at `a` by a core or debug, which named it by the address `full`: `a` itself or an alias of it (R20);
a poisoned load sees a bus error (R330). -/
def State.memLoad (s : State) (m : Master) (full a n : Nat) (k : Acc) (meet : Option TrMeet) : State :=
  if !s.memRight m a k then s.refuse m full
  else
    let s := (s.coreacc m.id full a n none).trBusy m a meet false
    let (s, d, p) := s.memFetch m a n meet
    if p then s.emit (.accessError m.id full) else s.emit (.readData m.id d)

/-- An addressed write of memory by a core or debug. A sub-word write of the Tack Room locks its word and meets no
collision (R338). -/
def State.memStore (s : State) (m : Master) (a : Nat) (d : List Byte) (meet : Option TrMeet) : State :=
  if !s.memRight m a .w then s.refuse m a
  else
    let s := s.coreacc m.id a a d.length (some d)
    let s := if isTack a && d.length % 4 != 0 then s else s.trBusy m a meet true
    s.writeMem a d

/-! ## Aliases (R324, R325) -/

/-- The aliased address and whether the alias sets bits. -/
def aliasOf (a : Nat) : Option (Nat × Bool) :=
  if 0x10000000 ≤ a ∧ a < 0x14000000 then some (a - 0x10000000, true)
  else if 0x20000000 ≤ a ∧ a < 0x24000000 then some (a - 0x20000000, false)
  else none

/-- Only the cores and debug use the aliases; the access is 1, 2, 4 or 8 bytes, aligned, and at most 4 in the Tack Room. -/
def aliasShape (m : Master) (a n : Nat) : Bool :=
  (m == .pommel || m == .cantle || m == .debug) && (n == 1 || n == 2 || n == 4 || n == 8) && a % n == 0 && !(isTack a && n == 8)

/-- An atomic read-modify-write through an alias (R325). -/
def State.aliasStore (s : State) (m : Master) (full a : Nat) (set : Bool) (d : List Byte) : State :=
  if !aliasShape m a d.length || !s.memRight m a .w then s.refuse m full
  else
    let s := (s.coreacc m.id full a d.length (some d)).drainWord a
    let w := eccWord a
    let mark := SMap.get .ok s.ecc w
    let s := s.eccEvent w mark m.id (eccOwner m.id)
    match mark with
    | .uncorrectable => s.emit (.accessError m.id full)
    | .poison => s.emit (.accessError m.id full)
    | _ =>
      let old := s.bytesAt a d.length
      let new := (List.zip old d).map (fun (o, v) => if set then o ||| v else o &&& ~~~ v)
      let whole := (span w (eccSize a)).map (fun i => if a ≤ i ∧ i < a + d.length then (new[i - a]?).getD 0#8 else SMap.get 0#8 s.mem i)
      s.arrayWrite w whole .ok

/-- ALIAS_WRITE (R325). -/
def aliasWrite (s : State) (m : Master) (a : Nat) (d : List Byte) : State :=
  match aliasOf a with
  | some (t, set) => s.aliasStore m a t set d
  | none => s

def execAliasWrite (m : Master) (addr : Word) (data : List Byte) (s : State) : Result := .next (aliasWrite s m addr.toNat data)

/-- CORE_MEMORY_ACCESS (R25): an addressed access to memory, plain or through an alias; register blocks are no memory. -/
def coreMemoryAccess (s : State) (m : Master) (a n : Nat) (op : MemOp) (meet : Option TrMeet) : State :=
  if isReg a then s
  else match m with
  | .host _ => s.refuse m a
  | _ =>
    match aliasOf a, op with
    | some (t, set), .write d => s.aliasStore m a t set d
    | some (t, _), .read => if aliasShape m t n then s.memLoad m a t n .r meet else s.refuse m a
    | some _, .fetch => s.refuse m a
    | none, .write d => s.memStore m a d meet
    | none, .read => s.memLoad m a a n .r meet
    | none, .fetch => s.memLoad m a a n .x meet

def execCoreMemoryAccess (m : Master) (addr : Word) (size : Nat) (op : MemOp) (meet : Option TrMeet) (s : State) : Result :=
  .next (coreMemoryAccess s m addr.toNat size op meet)

/-! ## BAR2 (R21, R220) -/

/-- PF0 answers memory requests through BAR2: D0, Memory Space Enable, tunnel carried (R224, R230). A function reset closes BAR0 alone
(R228): after an FN_RESET BAR2 answers as before, and an FLR clears Memory Space Enable. -/
def State.bar2Open (s : State) : Bool := s.inD0 0 && s.memSpace 0 && s.carried

/-- The header of the host's write request of n bytes at offset a, as PCIe lays it out: format and length, requester ID, tag and byte
enables, and the address in BAR2 (PRESUMED, notes/assumptions/10.md); what the host alone chose in it is a free value. -/
def State.bar2Header (s : State) (a n : Nat) : List Word × State :=
  let (q, s) := s.draw
  let h := (s.cfg 0 0x18).toNat / 16 * 16 + (s.cfg 0 0x1C).toNat * 2 ^ 32 + a
  let wide := decide (2 ^ 32 ≤ h)
  let words := (a % 4 + n + 3) / 4
  let first := bitsNat ((span 0 4).map (fun i => decide (a % 4 ≤ i) && decide (i < a % 4 + n)))
  let last := if words ≤ 1 then 0 else bitsNat ((span 0 4).map (fun i => decide (i + 4 * (words - 1) < a % 4 + n)))
  ([BitVec.ofNat 32 ((if wide then 0x60000000 else 0x40000000) + q.toNat / 2 ^ 24 % 8 * 2 ^ 20 + q.toNat / 2 ^ 27 % 4 * 2 ^ 12 + words % 1024),
    BitVec.ofNat 32 (q.toNat % 2 ^ 24 * 256 + last * 16 + first),
    BitVec.ofNat 32 (if wide then h / 2 ^ 32 else h / 4 * 4), BitVec.ofNat 32 (if wide then h % 2 ^ 32 / 4 * 4 else 0)], s)

/-- A refused BAR2 access at `a`, of the request that starts at r with n bytes (R22, R220): Unsupported Request, or BAR2ERR with the
error and the request's header logged; the Fault Collector counts it. -/
def State.bar2Refuse (s : State) (a r n : Nat) (write : Bool) : State :=
  let s := s.refusedAccess 32 a
  if write then
    let (h, s) := s.bar2Header r n
    (s.setReg 0x04100004 (s.reg 0x04100004 ||| 2#32)).aerLog 0 20 h
  else s.emit (.bar2 none false)

/-- One word of a BAR2 request that starts at r with `len` bytes: 1 to 8 bytes within an aligned 8-byte word, checked on their own
(R220). -/
def bar2Word (s : State) (a n : Nat) (op : MemOp) (r len : Nat) : State :=
  let m : Master := .host 0
  match op with
  | .fetch => s
  | .read =>
    if !s.memRight m a .r then s.bar2Refuse a r len false
    else
      let (s, d, p) := (s.coreacc 32 a a n none).memFetch m a n none
      s.emit (.bar2 (some d) p)
  | .write d => if !s.memRight m a .w then s.bar2Refuse a r len true else (s.coreacc 32 a a d.length (some d)).writeMem a d

/-- The part of an operation that falls into the n bytes from the i-th on. -/
def opPart (op : MemOp) (i n : Nat) : MemOp :=
  match op with
  | .write d => .write ((d.drop i).take n)
  | op => op

/-- The words of n bytes from a on, as first byte and length. -/
def bar2Words (a n : Nat) : List (Nat × Nat) :=
  (span (a / 8) ((a + n + 7) / 8 - a / 8)).map (fun w => (max a (8 * w), min (a + n) (8 * w + 8) - max a (8 * w)))

/-- BAR2_ACCESS (R220): 1 to 8 bytes within an aligned 8-byte word; a longer request is split into words. -/
def bar2Access (s : State) (a n : Nat) (op : MemOp) : State :=
  if !s.bar2Open then (match op with | .write _ => s | _ => s.emit (.bar2 none false))
  else if a % 8 + n ≤ 8 then bar2Word s a n op a n
  else (bar2Words a n).foldl (fun t (p, k) => bar2Word t p k (opPart op (p - a) k) a n) s

def execBar2Access (off : BitVec 28) (size : Nat) (op : MemOp) (s : State) : Result := .next (s.onLive (fun s => bar2Access s off.toNat size op))

/-! ## Merge buffers and the scrubber (R332, R334) -/

/-- MERGE_DRAIN (R334): the oldest entry of a merge buffer drains after its idle time. -/
def mergeDrain (s : State) (k : Nat) : State :=
  match SMap.get [] s.merge k with
  | [] => s
  | e :: _ => s.drainEntry e

def execMergeDrain (k : Fin 25) (s : State) : Result := .next (mergeDrain s k.val)

/-- The scrubber reads one word: a correctable word is rewritten; an uncorrectable one is reported once and left (R332). -/
def State.scrubWord (s : State) (w : Nat) : State :=
  let s := s.drainWord w
  let m := SMap.get .ok s.ecc w
  let s : State := if m = .uncorrectable then s else { s with scrubSeen := s.scrubSeen.filter (· != w) }
  match m with
  | .ok => s
  | .correctable =>
    let s := s.eccEvent w .correctable 0 31
    s.arrayWrite w ((span w 8).map (fun i => SMap.get 0#8 s.mem i)) .ok
  | .uncorrectable => if s.scrubSeen.contains w then s else (State.eccEvent { s with scrubSeen := s.scrubSeen ++ [w] } w .uncorrectable 0 31)
  | .poison => s.eccEvent w .poison 0 31

/-- SCRUB_LINE (R332): the scrubber reaches one aligned 64-byte line of main SRAM or Cantle SRAM. -/
def scrubLine (s : State) (a : Nat) : State :=
  let l := alignDown a 64
  if bit (s.reg 0x04900008) 0 && (isMain l || isCantle l) && s.domOn (memDomainOf l) then
    (span 0 8).foldl (fun t i => t.scrubWord (l + 8 * i)) s
  else s

def execScrubLine (addr : Word) (s : State) : Result := .next (scrubLine s addr.toNat)

/-! ## Remapping (R347 to R349) -/

/-- First entry and number of entries of a macro: 0 to 23 main SRAM, 24 Cantle SRAM, 25 the Tack Room. -/
def remapRange (mac : Nat) : Nat × Nat := if mac < 24 then (8 * mac, 8) else if mac = 24 then (192, 8) else (200, 4)

/-- The macro of an entry. -/
def remapMacro (e : Nat) : Nat := if e < 192 then e / 8 else if e < 200 then 24 else 25

/-- The address that WORD names in a macro, and the size of the word. -/
def remapAddr (mac w : Nat) : Nat :=
  if mac < 24 then 0x100000 * mac + 8 * w else if mac = 24 then 0x02100000 + 8 * w else 0x02000000 + 4 * w

/-- A remap entry. -/
def State.remapEnt (s : State) (e : Nat) : Word := SMap.get 0#32 s.remap e

/-- Another VALID entry of the macro holds the word. -/
def State.remapTaken (s : State) (e w : Nat) : Bool :=
  let (b, n) := remapRange (remapMacro e)
  (span b n).any (fun k => k != e && bit (s.remapEnt k) 31 && bitsOf (s.remapEnt k) 16 0 == w)

/-- The word is copied between array and spare as a read delivers it: corrected, or as stored poison (R349). -/
def State.remapCopy (s : State) (a : Nat) : State :=
  let s := s.drainWord a
  let m := SMap.get .ok s.ecc a
  let s := s.eccEvent a m 0 31
  s.setEcc a (match m with | .uncorrectable => .poison | .poison => .poison | _ => .ok)

/-- A write of MS_REMAP_ENT for entry e (R349). -/
def State.remapWrite (s : State) (e : Nat) (v : Word) : State :=
  let old := s.remapEnt e
  let w := bitsOf v 16 0
  let mac := remapMacro e
  let bad := bit old 30 || bit old 29 || (bit old 31 && w != bitsOf old 16 0) || (bit v 31 && s.remapTaken e w) ||
    (mac == 25 && decide (16384 ≤ w))
  if bad || decide (204 ≤ e) then s.cfgErr 0x04900004
  else
    let a := remapAddr mac w
    let s : State := { s with remap := SMap.set 0#32 s.remap e (v &&& 0x8001FFFF#32) }
    if bit v 31 != bit old 31 && s.domOn (memDomainOf a) then s.remapCopy a else s

/-- REMAP_WRITE (R349): the entry that the master's own MS_REMAP_SEL selects. -/
def execRemapWrite (m : Master) (v : Word) (s : State) : Result :=
  .next (s.regRow m 0x04900034 v (fun s => s.remapWrite (bitsOf (s.reg (banked m.id 0x04900030)) 7 0) v))

/-! ## Error injection (R350, R352) -/

/-- Injection is permitted: DEVELOP, or SERVICE mode (R350, R411). -/
def State.mayInject (s : State) : Bool := s.life == 1 || s.mode == 0xB

/-- A write of MS_INJ: fields with reserved values keep theirs (R13); ARM only where injection is permitted. -/
def State.msInjWrite (s : State) (v : Word) : State :=
  if bit v 31 && !s.mayInject then s.cfgErr 0x04900004
  else
    let old := s.reg 0x04900024
    let new := v &&& 0xE3007F1F#32
    let badK := bitsOf v 30 29 == 0
    let badR := bitsOf v 25 24 == 3
    let new := if badK then putBits new 30 29 (bitsOf old 30 29) else new
    let new := if badR then putBits new 25 24 (bitsOf old 25 24) else new
    let badB := decide ((if bitsOf new 25 24 = 2 then 38 else 71) < bitsOf v 14 8)
    let badM := bitsOf new 25 24 == 0 && decide (24 ≤ bitsOf v 4 0)
    let new := if badB then putBits new 14 8 (bitsOf old 14 8) else new
    let new := if badM then putBits new 4 0 (bitsOf old 4 0) else new
    let s := s.setReg 0x04900024 new
    if badK || badR || badB || badM then s.cfgErr 0x04900004 else s

/-- INJECTION_ARM (R350): a write of MS_INJ with ARM set. -/
def execInjectionArm (m : Master) (v : Word) (s : State) : Result :=
  .next (s.regRow m 0x04900024 (v ||| 0x80000000#32) (fun s => s.msInjWrite (v ||| 0x80000000#32)))

end Sys2Proof.Machine
end

