-- ==== Sys2Proof/Machine/PowerOps.lean ====
section
/-! DEFINITION. The power controller (chapters 01 and 14): which domains a mode wants, the order in which they switch
(R17, R417, R420, R424), what a domain loses and gains, the floors (R414), the reins (R434, R436) and the entry into
RECOVERY (R415, R458).
The log entries that hold here: DEDUCED 18, 24, 33, 34, 36, 78. -/

namespace Sys2Proof.Machine

/-! ## Domains and what they require (R17) -/

/-- The state of a domain: 0 off, 1 ramping, 2 filling, 3 on, 4 in RETAIN, 5 leaving RETAIN, 6 in self-test, 7 ramped and
8 out of RETAIN, both waiting for CK_REF's PLLs. -/
def State.dom (s : State) (d : Nat) : Nat := SMap.get 0 s.doms d
def State.setDom (s : State) (d v : Nat) : State := { s with doms := SMap.set 0 s.doms d v }

/-- The domains that a domain requires (R17). -/
def requires (d : Nat) : List Nat :=
  if d = 0 then []
  else if d ≤ 3 ∨ (22 ≤ d ∧ d ≤ 25) then [0]
  else if d ≤ 9 then [28, 24]
  else if d ≤ 17 then [27, 22, 23]
  else if d ≤ 21 then [28, 23, 25]
  else if d = 26 then [27]
  else if d = 27 then [28, 22, 23]
  else if d = 28 then [1, 22]
  else [28, 25]

/-- The domains that require a domain. -/
def dependents (d : Nat) : List Nat := (span 0 30).filter (fun x => (requires x).contains d)

/-- The domain is off or in RETAIN. -/
def State.domDown (s : State) (d : Nat) : Bool := s.dom d == 0 || s.dom d == 4

/-- Memory domains and quads are filled after their ramp (R342). -/
def filledDom (d : Nat) : Bool := d == 1 || (decide (18 ≤ d) && decide (d ≤ 25))

/-- The modes in which CK_REF runs and the tempo clock is CK_TB (R156, R427). -/
def perfMode (m : Nat) : Bool := decide (6 ≤ m)

/-- PM_DOMREQ asks for the domain, or a domain that requires it is on (R424, `req`). -/
def State.domReq (s : State) (d : Nat) : Bool := bit (s.reg 0x04D00024) d || (dependents d).any (fun x => !s.domDown x)

/-- Some slot of cluster k's engines is not IDLE (R79). -/
def State.clusterBusy (s : State) (k : Nat) : Bool := s.busySlots.any (fun (key, _) => keyEngine key / 8 == k)

/-- A cluster or quad is held on in DETACHED (R424, `hold`). -/
def State.domHeld (s : State) (d : Nat) : Bool :=
  !s.domDown d &&
    (if d ≤ 17 then s.clusterBusy (d - 10)
     else bit (s.reg 0x04D00024) d && (span 0 8).any (fun k => !s.domDown (ccDom k) && s.clusterBusy k))

/-- Mode m wants the domain on (R424); RETAIN counts as not wanted. -/
def State.wants (s : State) (m d : Nat) : Bool :=
  if d ≤ 1 then true
  else if d ≤ 3 then m != 3
  else if m ≤ 5 then false
  else if d = 22 ∨ d = 23 ∨ d = 26 ∨ d = 27 ∨ d = 28 then true
  else if 10 ≤ d ∧ d ≤ 21 then (if m = 6 then s.domHeld d else if m = 7 then false else s.domReq d)
  else s.domReq d

/-- The domain is to be switched on now. -/
def State.canUp (s : State) (m d : Nat) : Bool := s.domDown d && s.wants m d && (requires d).all (fun x => s.dom x == 3)

/-- The domain is on, not wanted, and nothing that is on requires it. -/
def State.mustDown (s : State) (m d : Nat) : Bool :=
  decide (2 ≤ d) && s.dom d == 3 && !s.wants m d && (dependents d).all s.domDown

/-- What holds a domain up while it is asked to go down (R79, R310, R420, R423, R455). -/
def State.downHeld (s : State) (d : Nat) : Bool :=
  if 4 ≤ d ∧ d ≤ 9 then s.busySlots.any (fun (_, x) => x.w.holding && s.staLane x.station / 12 == d - 2)
  else if 10 ≤ d ∧ d ≤ 17 then s.clusterBusy (d - 10)
  else if 18 ≤ d ∧ d ≤ 21 then (span (4 * (d - 18)) 4).any (fun c => (s.core c).st == .running || (s.core c).st == .ending)
  else if d = 24 then (span 0 48).any (fun q => decide (16 < (s.fifo q).words.length))
  else if d = 28 then s.crReset.isSome || s.phReset.isSome
  else false

/-! ## The reins (R434, R436, R439) -/

/-- HOLDER changes (R439). -/
def State.setHolder (s : State) (p : Bool) : State :=
  if s.holderPommel = p then s else (s.setReg 0x04D00018 (bitWord 31 p)).irq 435

/-- A hardware hand-off, or GIVE: the reins pass to the Cantle half (R436). -/
def State.handOff (s : State) : State := s.setHolder false

/-! ## What a domain loses when it goes down -/

/-- The registers of a domain return to their reset values. -/
def State.dropRegs (s : State) (p : Nat → Bool) : State := { s with regs := s.regs.filter (fun (a, _) => !p (a % 2 ^ 32)) }

/-- PG_LANEk_SAFE: kept by the pad ring's latch (R279). -/
def isSafeReg (a : Nat) : Bool :=
  decide (0x04700000 ≤ a) && decide (a < 0x04780000) && decide (0x100 ≤ a % 0x10000) && decide (a % 0x10000 < 0x280) && a % 0x20 == 0xC

/-- A port group's registers, without its SAFE levels. -/
def pgReg (n a : Nat) : Bool :=
  (a / 0x100000 == 0x47 || a / 0x100000 == 0x48) && decide (a % 0x100000 < 0x80000) && a % 0x100000 / 0x10000 == n && !isSafeReg a

/-- A port group goes down (R144, R279, R294, R422): operations that hold its stations end with DOMAIN_OFF, its lanes take and keep
their SAFE level, after a VMISMATCH too, its FIFOs empty and its tempo inputs turn off; PG0 and PG1 save their registers on the way to DEEP. -/
def State.pgDown (s : State) (n : Nat) : State :=
  let s := (s.busySlots.map (fun p => p.1)).foldl (fun t k =>
    let x := t.slot k
    if x.w.holding && t.staLane x.station / 12 == n then t.unitCheck k 0x0B else t) s
  let s := (span 2 14).foldl (fun t i => if (t.srcBall i).any (fun l => l / 12 == n) then t.srcInputOff i else t) s
  let s := s.setReg (pgStatus n) (s.reg (pgStatus n) &&& 0xFFFFFFFB#32)
  let s := (span (12 * n) 12).foldl (fun t l =>
    let t := t.laneToSafe l
    (t.setLane l { t.lane l with live := false, idleDue := false, frame := 0, dropFrame := false, xfer := none, gateOpen := false, closing := false, streamOn := false, busKept := false }).actionFree l) s
  let s := (span (24 * n) 24).foldl (fun t q => t.setFifo q {}) s
  let s : State := if n < 2 then { s with saved := s.saved ++ s.regs.filter (fun (a, _) => pgReg n a) } else s
  s.dropRegs (pgReg n)

/-- A quad goes down: its cores lose everything but the result of their self-test (R450). -/
def State.quadDown (s : State) (k : Nat) : State :=
  (span (4 * k) 4).foldl (fun t c => t.setCore c { failed := (t.core c).failed }) s

/-- The merge buffers of a memory domain drain before it goes down (R334, R418). -/
def State.drainMem (s : State) (k : Nat) : State :=
  (span (6 * k) 6).foldl (fun t m => (SMap.get [] t.merge m).foldl (fun u e => u.drainEntry e) t) s

/-- The router and PCIe adapter go down: connection, tunnel, functions, Weir's queue and host time are gone (R144, R230). -/
def State.routerDown (s : State) : State :=
  let b := s
  let s := (tunnelLoss s).fnResetsTwo
  let s : State := { s with conn := none, fns := [], weir := [], ptmLast := none, ptmOpen := false }
  let s := (span 0 16).foldl (fun t f => (t.setFn f { vectors := (b.fn f).vectors }).cfgFixed f) s
  s.srcInputOff 1

/-- PD_MGMT goes down (R369, R378, R414, R436). -/
def State.mgmtDown (s : State) : State :=
  let s := s.handOff
  let s := s.setReg 0x04D0000C (putBits (s.reg 0x04D0000C) 3 0 0)
  { s with pommelUp := false, kickP := none, warmRun := false, loader := none, boxes := s.boxes.filter (fun (b, _) => decide (32 ≤ b)), svc := [] }

/-- A domain goes down (R17, R343, R418, R420). -/
def State.domOff (s : State) (d : Nat) : State :=
  let s :=
    if 2 ≤ d ∧ d ≤ 9 then s.pgDown (d - 2)
    else if 18 ≤ d ∧ d ≤ 21 then s.quadDown (d - 18)
    else if 22 ≤ d ∧ d ≤ 25 then
      let s := s.drainMem (d - 22)
      if d = 24 then { s with fifos := SMap.mapAll {} (fun x => { x with spillOn := false }) s.fifos } else s
    else if d = 26 then { tunnelLoss s with conn := none }
    else if d = 27 then s.routerDown
    else if d = 28 then s.mgmtDown
    else if d = 29 then { s.jend 1 with jn := {} }
    else s
  let s := if 2 ≤ d ∧ d ≤ 9 then s else s.dropRegs (fun a => isReg a && regDom a == d)
  let s : State := { s.setDom d (if d = 22 then 4 else 0) with downReq := SMap.set 0 s.downReq d 0 }
  if 18 ≤ d ∧ d ≤ 21 then s.shapeOrphans else s

/-! ## What a domain gains when it is up -/

/-- The registers of PG0 or PG1 that DEEP saved are written back (R422); a status register that comes back set raises its level
(R354). -/
def State.restorePg (s : State) (n : Nat) : State :=
  let mine := s.saved.filter (fun (a, _) => pgReg n a)
  let s := mine.foldl (fun t (a, v) => if a = pgStatus n then t.setStatus a v else t.setReg a v)
    { s with saved := s.saved.filter (fun (a, _) => !pgReg n a) }
  (span (12 * n) 12).foldl (fun t l => if t.laneFunc l != 0 then (t.setLane l { t.lane l with live := true }).laneIdle l else t) s

/-- STAGE of SU_BOOT (R461). -/
def suBoot : Nat := 0x04E00008
def State.stageNow (s : State) : Nat := bitsOf (s.reg suBoot) 31 28
def State.setStage (s : State) (n : Nat) : State := s.setReg suBoot (putBits (s.reg suBoot) 31 28 n)

/-- VMISMATCH of port group n stands: its report waits, or its condition has been taken up and has not gone (R277, R381). -/
def State.vioWrong (s : State) (n : Nat) : Bool := (s.conds ++ s.reports).any (fun c => c.group.val == 21 + n && c.det.val == 36)

/-- VMISMATCH sets, and the lanes of the group are at high impedance (R277). -/
def State.vioDark (s : State) (n : Nat) : State :=
  (span (12 * n) 12).foldl (fun t l => t.driveLane l .hiZ) (s.setStatus (pgStatus n) 4#32)

/-- A port group that powers up compares VIO with VSEL: a mismatch that stands is an event of its own (R277). The first one comes as
DETECTION (notes/assumptions/78.md). -/
def State.vioCheck (s : State) (n : Nat) : State :=
  if s.vioWrong n then (s.vioDark n).report (21 + n) 36 1 18 n 0 0#32 else s

/-- A domain is on (R18, R343, R378, R452): the Spillway returns to empty FIFOs; PD_MGMT starts with every lock free and its
boot loader checks a retained Pommel image. -/
def State.domArrive (s : State) (d : Nat) : State :=
  let s : State := { s.setDom d 3 with fwDue := if (2 ≤ d ∧ d ≤ 9) ∨ d = 27 ∨ d = 29 then s.fwDue ++ [d] else s.fwDue }
  if d = 2 ∨ d = 3 then (s.restorePg (d - 2)).vioCheck (d - 2)
  else if 4 ≤ d ∧ d ≤ 9 then s.vioCheck (d - 2)
  else if d = 24 then (span 0 192).foldl (fun t q => if t.fifoEn q then t.spillBack q else t) s
  else if d = 27 then s.setLinkCap
  else if d = 28 then
    let s := s.freeLocks
    if bit (s.reg suBoot) 1 then { s with warmRun := true } else s
  else s

/-- A domain's ramp has ended (R342, R344, R417, R418): memories are filled, quads tested first, once their clock runs. -/
def State.rampEnd (s : State) (d : Nat) : State :=
  if s.dom d = 5 ∨ s.dom d = 8 then (if s.pll then s.domArrive d else s.setDom d 8)
  else if !filledDom d then s.domArrive d
  else if d != 1 && !s.pll then s.setDom d 7
  else if 18 ≤ d ∧ d ≤ 21 ∧ s.bistRun.contains (26 + (d - 18)) then s.setDom d 6
  else s.setDom d 2

/-! ## One step of the power controller (R17, R417, R420) -/

/-- The mode whose domains the power controller works towards: that of a transition once its handshake is over. -/
def State.aim (s : State) : Nat :=
  match s.trans with
  | some (t, _) => if s.prep.isSome then s.mode else t
  | none => s.mode

/-- Switch a domain on. -/
def State.switchOn (s : State) (d : Nat) : State :=
  (s.setDom d (if s.dom d = 4 then 5 else 1))

/-- Take a domain down, or record the request to go down while something holds it up (R420); new spills stop (R310). -/
def State.switchOff (s : State) (d : Nat) : State :=
  let s : State := if d = 24 then { s with fifos := SMap.mapAll {} (fun x => { x with spillOn := false }) s.fifos } else s
  if s.downHeld d then
    let s : State := { s with downReq := SMap.set 0 s.downReq d (if SMap.get 0 s.downReq d = 0 then s.live + 1 else SMap.get 0 s.downReq d) }
    if 18 ≤ d ∧ d ≤ 21 then s.shapeOrphans else s
  else s.domOff d

/-- The order in which domains go down: reverse to R17, PD_MEM0 last (R419). -/
def downOrder : List Nat := [29, 9, 8, 7, 6, 5, 4, 21, 20, 19, 18, 17, 16, 15, 14, 13, 12, 11, 10, 26, 27, 28, 25, 24, 23, 3, 2, 22]

/-- Every domain that takes its clock from CK_REF's PLLs is off. -/
def State.perfOff (s : State) : Bool := (span 4 26).all (fun d => s.domDown d)

/-- The tempo clock follows the mode (R156, R428): to CK_TB once the PLLs are locked; to CK_AONF before CK_REF stops. -/
def State.clockStep (s : State) (m : Nat) : State :=
  if perfMode m then (if s.pll && s.tickAon then { s with clkReq := some false } else s)
  else if !s.perfOff || !s.pll then s
  else if !s.tickAon then { s with clkReq := some true }
  else
    let s : State := { s with pll := false, clkReq := none }
    if s.audclk 6 && !s.audExternal then s.srcInputOff 6 else s

/-- What the power controller does now towards mode m: requests to go down that are no longer due are dropped, domains that
may go down do so, wanted ones are switched on. -/
def State.powerTo (s : State) (m : Nat) : State :=
  let s : State := { s with downReq := s.downReq.filter (fun (d, _) => s.mustDown m d) }
  let s := downOrder.foldl (fun t d => if t.mustDown m d then t.switchOff d else t) s
  let s := (span 1 29).foldl (fun t d => if t.canUp m d then t.switchOn d else t) s
  s.clockStep m

/-! ## The floors (R225, R414) -/

/-- The mode of R225 while the tunnel is carried or paused. -/
def State.hostFloor (s : State) : Nat :=
  if s.conn.isNone then 0
  else match s.tunnel with
    | .none => 8
    | .paused .cl2 => 7
    | .paused .routerSleep => 7
    | _ => if (span 0 16).all (fun f => !s.inD0 f) then 7 else 8

/-- A request of LINKED-IDLE or ACTIVE counts as DETACHED while the connection is absent. -/
def State.cutReq (s : State) (r : Nat) : Nat := if s.conn.isNone then min r 6 else r

/-- The highest floor: the ladder mode that the power controller keeps (R414). -/
def State.floor (s : State) : Nat :=
  let req := s.reg 0x04D0000C
  let eng := s.busySlots.any (fun (k, _) => keyEngine k < 64)
  let cea := s.busySlots.any (fun (k, _) => keyEngine k == 64)
  max (max (max 3 s.hostFloor) (max (s.cutReq (bitsOf req 19 16)) (s.cutReq (bitsOf req 3 0))))
    (max (if eng then s.cutReq 8 else 0) (if cea then 5 else 0))

/-- A floor that rises during a downward transition reverses it; during the handshake it withdraws it (R419, R423). -/
def State.retarget (s : State) : State :=
  match s.trans with
  | none => s
  | some (t, at_) =>
    let f := s.floor
    if 3 ≤ t ∧ t < f ∧ t < min s.mode 8 ∧ (s.mode ≤ 8 ∨ s.mode = 0xB) ∧ 3 ≤ s.mode then
      if s.prep.isSome && decide (6 ≤ f) then { s with prep := none, trans := if f = s.mode then none else some (f, at_) }
      else { s with trans := some (f, at_) }
    else s

/-- A Pommel-half reset during a transition: the transition resumes when the reset ends, but for one into RECOVERY (R423). -/
def State.transPaused (s : State) : Bool :=
  match s.trans with
  | some (t, _) => t != 9 && s.phReset.isSome
  | none => false

/-- One step of the power controller; in OFF, and in start-up before a transition, the start-up sequence decides. -/
def State.powerStep (s : State) : State :=
  let s := s.retarget
  if s.aim ≤ 2 || s.transPaused then s else s.powerTo s.aim

/-! ## RECOVERY (R385, R400, R415, R450, R458) -/

/-- EN of AD_CTRL and of CE_A_CTRL clear. -/
def State.admissionOff (s : State) : State :=
  let s := s.setReg 0x04300008 (s.reg 0x04300008 &&& 0xFFFFFFFE#32)
  let s := s.setReg 0x04480000 (s.reg 0x04480000 &&& 0xFFFFFFFE#32)
  { s with cea := { s.cea with scanning := false } }

/-- The part enters RECOVERY: a transition in progress is abandoned; forced safe state starts, FAULTN is driven low and
admission is off. -/
def State.enterRecovery (s : State) (err : Nat) : State :=
  let s := ({ s.forceSafe with faultN := true }).admissionOff
  if s.mode = 9 then s
  else
    let s := s.setReg suBoot (putBits (putBits (s.reg suBoot) 31 28 7) 27 24 err)
    State.powerStep { s with trans := some (9, s.live), prep := none, loader := none }

end Sys2Proof.Machine
end

