-- ==== Sys2Proof/Machine/FaultOps.lean ====
section
/-! DEFINITION. The Fault Collector's records (chapter 13): the log, the open entries, classification (R384, R385, R389,
R390), shadows (R398 to R400), fences and host reports. The reactions stand in Fault.lean.
The log entries that hold here: DEDUCED 31, 78. -/

namespace Sys2Proof.Machine

/-! ## Groups and registers (R382, R410) -/

def fcStatus : Nat := 0x04C00004
def fcCtrl : Nat := 0x04C00008
def fcSeq : Nat := 0x04C00014
def fcHead : Nat := 0x04C00018
def fcTail : Nat := 0x04C0001C
def fcLost : Nat := 0x04C00020
def fcHost : Nat := 0x04C00024
def fcInj : Nat := 0x04C00030
def grpStat (g : Nat) : Nat := 0x04C00400 + 4 * g
def grpCnt (g : Nat) : Nat := 0x04C00500 + 4 * g

/-- A group of the control class (R382, R383). -/
def isControl (g : Nat) : Bool := decide (g < 10) || g == 20 || g == 43 || g == 44 || g == 46

/-- Detectors of a group (R382). -/
def detCount (g : Nat) : Nat :=
  if 10 ≤ g ∧ g ≤ 17 then 10
  else if 21 ≤ g ∧ g ≤ 28 then 37
  else if 30 ≤ g ∧ g ≤ 33 then 20
  else if 34 ≤ g ∧ g ≤ 37 then 12
  else match g with
    | 0 => 24 | 1 => 20 | 2 => 2 | 3 => 2 | 4 => 25 | 5 => 14 | 6 => 12 | 7 => 16 | 8 => 4 | 9 => 6 | 18 => 3 | 19 => 15
    | 20 => 3 | 29 => 4 | 38 => 4 | 39 => 10 | 40 => 4 | 41 => 12 | 42 => 4 | 43 => 3 | 44 => 4 | 45 => 3 | 46 => 3 | _ => 30

/-- The modes in which a detection is a counting event (R385). -/
def countingMode (m : Nat) : Bool := m == 1 || m == 2 || m == 9 || m == 0xB

/-! ## The log (R386, R387) -/

/-- The 32 bytes of a record (R387). -/
def FcRec.bytes (r : FcRec) : List Byte :=
  let flags := (if r.acked then 128 else 0) + (if r.soft then 64 else 0) + (if r.post then 32 else 0) + (if r.echo then 16 else 0) +
    (if r.esc then 8 else 0) + (if r.severe then 4 else 0) + r.cls
  leBytes 4 r.seq ++ leBytes 1 r.group ++ leBytes 1 r.det ++ leBytes 1 flags ++ leBytes 1 r.owner ++ leBytes 2 r.unit ++
    leBytes 1 r.mode ++ leBytes 1 (r.react + (if r.done then 128 else 0)) ++ leBytes 2 r.count ++ leBytes 1 r.master ++ leBytes 1 0 ++
    leBytes 8 r.t0 ++ leBytes 4 r.detail.toNat ++ leBytes 4 r.link

/-- Write a record at its place in the log, while PD_AON_SRAM is on. -/
def State.logPut (s : State) (r : FcRec) : State :=
  if s.domOn 1 then (span 0 4).foldl (fun t i => t.arrayWrite (0x02184000 + 32 * r.idx + 8 * i) ((r.bytes.drop (8 * i)).take 8) .ok) s
  else s

/-- Rewrite a record in place until it has been overwritten (R387). -/
def State.logRewrite (s : State) (r : FcRec) : State :=
  if ((s.reg fcSeq).toNat + 2 ^ 32 - r.seq) % 2 ^ 32 < 512 then s.logPut r else s

/-- The sequence number after the newest, skipping 0 (R386). -/
def State.nextSeq (s : State) : Nat := if (s.reg fcSeq).toNat + 1 = 2 ^ 32 then 1 else (s.reg fcSeq).toNat + 1

/-- Log a new record: its SEQ and place, the head, LOGWRAP and the count of lost records (R386, R387); the class bits of
FC_STATUS and of its group (R401, R411); the journal's record (R490) and FREEZE (R496). -/
def State.logNew (s : State) (r : FcRec) : State × FcRec :=
  let i := bitsOf (s.reg fcHead) 8 0
  let r := { r with seq := s.nextSeq, idx := i }
  let s := (s.setReg fcSeq (BitVec.ofNat 32 r.seq)).setReg fcHead (BitVec.ofNat 32 ((i + 1) % 512))
  let s := if 512 ≤ s.logUnread then (s.setReg fcLost (satInc (s.reg fcLost))).setStatus fcStatus 0x10#32
           else ({ s with logUnread := s.logUnread + 1 } : State)
  let ft := r.cls == 2 || (r.cls == 3 && r.severe)
  let bits := (if r.cls = 0 ∨ r.cls = 3 then 1 else 0) + (if r.cls = 1 then 2 else 0) + (if ft then 4 else 0)
  let s := (s.logPut r).setStatus (grpStat r.group) (BitVec.ofNat 32 bits)
  let s := s.setStatus fcStatus (if r.cls = 0 then 2#32 else if r.cls = 1 then 4#32 else if r.cls = 2 then 8#32 else 0#32)
  let s := s.jrec 0x21 r.group (wordsOf 5 r.bytes)
  let s := if (r.cls = 1 ∨ r.cls = 2) ∧ bit (s.reg 0x04F00008) 4 ∧ s.recording then s.jend 3 else s
  (s, r)

/-- The vector of PF0 that the host report of a record of this class fires (R403); none where it is not reported. -/
def State.reportVec (s : State) (cls : Nat) (severe : Bool) : Option Nat :=
  let h := s.reg fcHost
  let due := cls == 1 || cls == 2 || (cls == 0 && bit (s.reg fcCtrl) 8) || (cls == 3 && severe)
  if bit h 31 && due && decide (bitsOf h 9 0 < (s.fn 0).vectors) then some (bitsOf h 9 0) else none

/-- The host report of a record (R403). -/
def State.fcReport (s : State) (r : FcRec) : State :=
  match r.vec with
  | some v => s.onLiveOut (fun s => s.ringFireVector 0 v (bit (s.reg fcHost) 30))
  | none => s

/-! ## Open entries (R388) -/

/-- The record in open entry k. -/
def State.openAt (s : State) (k : Nat) : Option FcRec := SMap.get none s.opens k
def State.setOpen (s : State) (k : Nat) (r : Option FcRec) : State := { s with opens := SMap.set none s.opens k r }

/-- Change an open record and rewrite it in the log. -/
def State.putOpen (s : State) (k : Nat) (r : FcRec) : State := (s.setOpen k (some r)).logRewrite r

/-- The records that are open: in an entry and not acknowledged. -/
def State.openRecs (s : State) : List (Nat × FcRec) :=
  s.opens.filterMap (fun (k, r) => match r with | some x => if x.acked then none else some (k, x) | none => none)

/-- The oldest of some records, by SEQ. -/
def oldest (l : List (Nat × FcRec)) : Option (Nat × FcRec) :=
  l.foldl (fun b x => match b with | some y => if x.2.seq < y.2.seq then some x else b | none => some x) none

/-- FC_GRACE in time units. -/
def State.graceLen (s : State) : Nat := bitsOf (s.reg 0x04C0000C) 16 0 * 1200

/-- Give a new record an entry (R388): a free one; else that of the oldest open CE record, which counts as acknowledged; else
none, with NOSLOT, and a UC or FT record's reaction is due at once. -/
def State.place_ (s : State) (r : FcRec) : State :=
  match (span 0 64).find? (fun k => (s.openAt k).isNone) with
  | some k => s.setOpen k (some r)
  | none =>
    match oldest (s.openRecs.filter (fun (_, x) => x.cls == 0)) with
    | some (k, x) => ((s.logRewrite { x with acked := true }).setOpen k (some r))
    | none =>
      let s := s.setStatus fcStatus 0x20#32
      if r.cls = 0 then s else { s with loose := s.loose ++ [{ r with grace := some s.live }] }

/-- A new open record (R388, R391, R396, R403, R431): log, status, entry, grace timer, wake event and host report. -/
def State.openNew (s : State) (r : FcRec) : State :=
  let r := { r with grace := if r.cls = 0 then none else some (s.live + s.graceLen), vec := s.reportVec r.cls false }
  let (s, r) := s.logNew r
  let s := s.place_ r
  let s := if r.cls = 0 then s else s.wakeEvent 10
  s.fcReport r

/-! ## Classification (R381 to R390, R404) -/

/-- The record that a report begins, before its class is fixed. -/
def State.recOf (s : State) (r : Report) : FcRec :=
  { seq := 0, idx := 0, group := r.group.val, det := r.det.val, cls := r.cls.val, owner := r.owner.val, unit := r.unit.toNat,
    master := r.master.toNat, detail := r.detail, mode := s.mode, t0 := s.liveT0, created := s.live }

/-- A counting event (R385): the group is severe at the event that makes N events fall within the last W milliseconds. A
severe event stops start-up, or in SERVICE asks for the FT reaction. -/
def State.countEvent (s : State) (r : Report) : State :=
  let g := r.group.val
  let c := s.reg (grpCnt g)
  let old := (SMap.get [] s.counted g).filter (fun t => decide (s.live < t + bitsOf c 29 16 * 1200000))
  let times := old ++ [s.live]
  let severe := decide (bitsOf c 7 0 ≤ times.length)
  let s : State := { s with counted := SMap.set [] s.counted g times }
  let (s, x) := s.logNew { s.recOf r with cls := 3, severe := severe, vec := s.reportVec 3 severe }
  let s := s.fcReport x
  if !severe then s
  else if s.mode = 0xB then { s with loose := s.loose ++ [{ x with grace := some s.live }] }
  else s.enterRecovery 3

/-- Detectors of group 4 whose clocks a Pommel-half reset disturbs (R398), by R427's order of the clocks: 4 CK_U4TX to 13
CK_TB, 16 CK_PG2 to 21 CK_PG7. -/
def halfClock (d : Nat) : Bool := (decide (4 ≤ d) && decide (d ≤ 13)) || (decide (16 ≤ d) && decide (d ≤ 21))

/-- The scope of a shadow (R398). -/
def ShadowOf.covers (x : ShadowOf) (r : Report) : Bool :=
  let g := r.group.val
  let half := g == 0 || g == 3 || g == 9 || (decide (10 ≤ g) && decide (g ≤ 17)) || (decide (21 ≤ g) && decide (g ≤ 37)) ||
    (decide (39 ≤ g) && decide (g ≤ 43)) || g == 45 || g == 46 || (g == 4 && halfClock r.det.val)
  match x with
  | .fn f => r.owner.val == f && ((decide (21 ≤ g) && decide (g ≤ 29)) || (decide (39 ≤ g) && decide (g ≤ 42)))
  | .engine e => g == 39 || (if e = 64 then g == 18 else g == 10 + e / 8 && r.unit.toNat == e)
  | .cantle => g == 1 || g == 8 || g == 18 || g == 19
  | .pommel => half
  | .ft => half || g == 18 || g == 19

/-- When a shadow closes: 20 microseconds after its reset ends, at most 200 after its start (R398). -/
def Shadow.closes (w : Shadow) : Nat :=
  match w.ended with
  | some t => min (w.start + 200 * 1200) (t + 20 * 1200)
  | none => w.start + 200 * 1200

/-- The shadow in which a report falls. -/
def State.shadowFor (s : State) (r : Report) : Option Shadow :=
  s.shadows.find? (fun w => decide (s.live < w.closes) && w.of_.covers r)

/-- An ECHO record (R399). -/
def State.echo (s : State) (r : Report) (w : Shadow) : State :=
  (s.logNew { s.recOf r with echo := true, link := w.seq }).1

/-- The open record that a data-class detection merges into (R389). -/
def State.mergeInto (s : State) (r : Report) : Option (Nat × FcRec) :=
  s.openRecs.find? (fun (_, x) => x.group == r.group.val && x.det == r.det.val && x.owner == r.owner.val && x.unit == r.unit.toNat)

/-- A data-class detection (R389). -/
def State.dataRec (s : State) (r : Report) : State :=
  match s.mergeInto r with
  | some (k, x) =>
    let rise := decide (x.cls < r.cls.val)
    s.putOpen k { x with
      count := min 65535 (x.count + 1), cls := max x.cls r.cls.val,
      grace := if rise && x.cls == 0 then some (s.live + s.graceLen) else x.grace }
  | none => s.openNew (s.recOf r)

/-- A control-class detection (R390): one class above its own while a control-class record of an earlier cycle is open. -/
def State.controlRec (s : State) (r : Report) : State :=
  match oldest (s.openRecs.filter (fun (_, x) => isControl x.group && decide (x.created / 25 < s.live / 25))) with
  | some (_, o) => s.openNew { s.recOf r with cls := min 2 (r.cls.val + 1), esc := true, link := o.seq }
  | none => s.openNew (s.recOf r)

/-- A detection is classified (R384, R385, R399). -/
def State.classify (s : State) (r : Report) : State :=
  if s.mode = 0 then s
  else if countingMode s.mode then s.countEvent r
  else match s.shadowFor r with
    | some w => s.echo r w
    | none => if isControl r.group.val then s.controlRec r else s.dataRec r

/-- The condition of a report is present already. -/
def State.hasCond (s : State) (r : Report) : Bool := s.conds.any (fun c => c.group == r.group && c.det == r.det && c.unit == r.unit)

/-- VMISMATCH leaves the lanes of its group at high impedance (R277). -/
def State.vmismatch (s : State) (r : Report) : State :=
  let n := r.group.val - 21
  if 21 ≤ r.group.val ∧ r.group.val ≤ 28 ∧ r.det.val = 36 ∧ s.domOn (pgDom n) then s.vioDark n else s

/-- A mismatch's sequencer reset opens a shadow when its record has been made (R102, R398). -/
def State.engineShadow (s : State) (r : Report) : State :=
  let g := r.group.val
  let e := if g = 18 then 64 else r.unit.toNat
  if ((10 ≤ g ∧ g ≤ 17 ∧ r.det.val < 8) ∨ (g = 18 ∧ r.det.val = 0)) ∧ SMap.get 0 s.stopped e != 0 then
    let w : Shadow :=
      { of_ := .engine e, start := s.live, ended := none, seq := (s.reg fcSeq).toNat, group := g, det := r.det.val,
        owner := r.owner.val, unit := r.unit.toNat }
    { s with shadows := s.shadows ++ [w] }
  else s

/-- A detector reports (R381, R386): a condition-type detector reports once while its condition lasts. -/
def State.detect (s : State) (r : Report) : State :=
  if r.cond && s.hasCond r then s
  else
    let s : State := if r.cond then { s with conds := s.conds ++ [r] } else s
    ((s.vmismatch r).classify r).engineShadow r

/-- A persisting condition raises a POST_RESET record when its shadow closes (R400): one class above its own where it matches
the record whose reaction opened the shadow; out of an FT reaction's shadow, into RECOVERY. -/
def State.postReset (s : State) (w : Shadow) (r : Report) : State :=
  if countingMode s.mode then s.countEvent r
  else if w.seq != 0 && w.group == r.group.val && w.det == r.det.val && w.owner == r.owner.val && w.unit == r.unit.toNat then
    let c := min 2 (r.cls.val + 1)
    let x : FcRec := { s.recOf r with cls := c, post := true, esc := true, link := w.seq }
    if c = 2 ∧ w.of_ = .ft then
      let (s, x) := s.logNew { x with react := 6, done := true, vec := s.reportVec 2 false }
      (((s.place_ x).wakeEvent 10).fcReport x).enterRecovery 0
    else s.openNew x
  else if isControl r.group.val then
    match oldest (s.openRecs.filter (fun (_, x) => isControl x.group && decide (x.created / 25 < s.live / 25))) with
    | some (_, o) => s.openNew { s.recOf r with cls := min 2 (r.cls.val + 1), post := true, esc := true, link := o.seq }
    | none => s.openNew { s.recOf r with post := true }
  else s.openNew { s.recOf r with post := true }

/-- The first shadow that is due closes (R400). -/
def State.closeShadow (s : State) : State :=
  match s.shadows.find? (fun w => decide (w.closes ≤ s.live)) with
  | none => s
  | some w =>
    let s : State := { s with shadows := s.shadows.erase w }
    (s.conds.filter (fun r => w.of_.covers r)).foldl (fun t r => t.postReset w r) s

/-- FC_OPENk_STATE (R411). -/
def openState (r : Option FcRec) : Word :=
  match r with
  | none => 0#32
  | some x =>
    BitVec.ofNat 32 (2 ^ 31 + (if x.grace.isSome && !x.reacting then 2 ^ 30 else 0) + (if x.acked then 2 ^ 29 else 0) + x.cls * 2 ^ 24 +
      x.group * 2 ^ 16 + x.owner * 2 ^ 8)

end Sys2Proof.Machine
end

