-- ==== Sys2Proof/Machine/ResetOps.lean ====
section
/-! DEFINITION. Resets and start-up (chapter 15): the start-up sequence of R447, the device, Pommel-half and Cantle core
resets (R453 to R457), and the clock tick that carries them and the power controller forward.
The log entries that hold here: DESIGN CHOICE 1, 62; DEDUCED 32, 35, 36. -/

namespace Sys2Proof.Machine

/-! ## SU_RSTCAUSE and SU_CNT_PRST (R457, R461) -/

/-- The widest reset in progress, by scope code, where another meets it (R457). -/
def State.resetRuns (s : State) : Option Nat := if s.phReset.isSome then some 2 else if s.crReset.isSome then some 3 else none

/-- Record a reset: scope, cause and requester; of resets that meet, the widest. -/
def State.setCause (s : State) (scope cause master : Nat) : State :=
  match s.resetRuns with
  | some r => if r < scope then s else s.setReg 0x04E00014 (BitVec.ofNat 32 (scope * 2 ^ 24 + cause * 2 ^ 16 + master))
  | none => s.setReg 0x04E00014 (BitVec.ofNat 32 (scope * 2 ^ 24 + cause * 2 ^ 16 + master))

/-! ## Cores released and held (R447, R452, R455) -/

/-- The Cantle core is released (R447, R455): at an offset into its image, or into its boot ROM. -/
def State.releaseCantle (s : State) (entry : Option Word) : State :=
  { s with cantleUp := true, haltC := false, kickC := none, relC := s.live, startC := entry.map (fun e => 0x02100000 + e.toNat) }

/-- The Pommel core is released, at its warm entry or its entry (R447, R452). -/
def State.releasePommel (s : State) (warm : Bool) : State :=
  let s := s.setReg suBoot (putBits (s.reg suBoot) 3 3 (if warm then 1 else 0))
  { s with
    pommelUp := true, kickP := none, relP := s.live, fwDue := s.fwDue ++ [101], haltP := false,
    startP := s.pImg.map (fun i => (if warm then i.warm else i.entry).toNat) }

/-! ## The start-up sequence (R447) -/

/-- What DEEP has saved of PG0 and PG1 keeps the always-on limits too (R282, R422). -/
def State.savedLimits (s : State) : State :=
  if s.saved.isEmpty then s
  else
    let t := State.alwaysOnLimits { s with regs := s.saved, irqs := [], srcs := [] }
    { s with saved := t.regs.filter (fun (a, _) => (span 0 2).any (fun n => pgReg n a)) }

/-- A mode ends its transition: MODE, MODECHG and source 432 (R417); lanes of PG0 and PG1 that break an always-on limit go
to OFF (R282); a patrol period starts (R430). -/
def State.setMode (s : State) (m : Nat) : State :=
  let was := s.mode
  let s := (({ s with mode := m, trans := none, patrolAt := s.live, patrol := false } : State).setStatus pmStatus 0x40#32).irq 432
  if slowMode m && !slowMode was then s.alwaysOnLimits.savedLimits else s

/-- The domains that start-up powers and tests: PD_AON_SRAM and PD_MEM0 to PD_MEM3. -/
def startDoms : List Nat := [1, 22, 23, 24, 25]

/-- Start-up's domains are switched on: PD_AON_SRAM after fuse load, the main SRAM once the PLLs are locked. -/
def State.startPower (s : State) : State :=
  if s.mode != 1 || s.trans.isSome || s.stageNow != 1 then s
  else
    let s := if s.dom 1 = 0 then s.setDom 1 1 else s
    if s.pll then ([22, 23, 24, 25] : List Nat).foldl (fun t d => if t.dom d = 0 then t.setDom d 1 else t) s else s

/-- Start-up goes on: self-test once every fill has ended (step 5); GLANCE once every test has passed and every memory is
filled again (steps 6 and 7); the boot loader starts once PD_MGMT is up in DETACHED (step 9). -/
def State.startStep (s : State) : State :=
  if s.trans.isSome then s
  else if s.mode = 1 ∧ s.stageNow = 1 ∧ startDoms.all (fun d => s.dom d == 3) then
    let s := (s.setMode 2).setStage 2
    startDoms.foldl (fun t d => t.setDom d 6) { s with bistRun := span 0 30 }
  else if s.mode = 2 ∧ s.stageNow = 2 ∧ (s.bistRun.all (fun u => 26 ≤ u)) ∧ startDoms.all (fun d => s.dom d == 3) then
    let s := s.setReg 0x0490002C (s.reg 0x0490002C ||| 0x80000000#32)
    (State.powerStep { s.setStage 3 with trans := some (5, s.live) })
  else if s.stageNow = 3 ∧ 6 ≤ s.mode ∧ s.mode ≤ 8 ∧ s.domOn domMGMT then
    if s.life = 0 ∨ s.life = 3 then s.enterRecovery 0 else { s.setStage 4 with loader := some true }
  else s

/-! ## The device reset and OFF (R453, R457) -/

/-- What every reset of the whole part leaves: the pins and the levels last seen at the balls, the host's queue, the persistent
parts and what power-on alone clears; everything else is as State.reset has it. -/
def State.bare (s : State) : State :=
  { State.reset with
    pending := s.pending, lanes := SMap.mapAll {} (fun x => { ball := x.ball }) s.lanes, out := s.out, freeCtr := s.freeCtr, seq := s.seq, safen := s.safen, porn := s.porn, badRails := s.badRails,
    debugErr := s.debugErr, flash := s.flash, burn := s.burn }

/-- Forced safe state follows SAFEN when the part leaves reset (R301). -/
def State.safenNow (s : State) : State := if s.safen then s else s.forceSafe.setStatus 0x04780004 2#32

/-- A device reset (R453): the tempo sources other than T0 start again, positions and all, since every register is cleared; R132
and R142 speak of power-on reset only, so that is the model's choice (DESIGN CHOICE, notes/assumptions/62.md). T0, FC_SEQ, FAULTN, SU_RSTCAUSE, the count of SU_CNT_PRST and the lifecycle stay; start-up reruns
from its second step. -/
def State.deviceReset (s : State) (cause master : Nat) : State :=
  let s := s.jend 2
  let t : State := { s.bare with
    time := s.live, prevTime := s.live - s.tickLen, tickAon := s.tickAon, clkReq := if s.tickAon then none else some true, pll := s.pll, aonArmed := s.aonArmed,
    faultN := s.faultN, dbgOn := s.dbgOn, fuses := s.fuses, remap := s.remap.filter (fun (_, v) => bit v 30) }
  let t := t.setReg fcSeq (s.reg fcSeq)
  let t := t.setReg 0x04E00018 (s.reg 0x04E00018)
  (t.setReg 0x04E00014 (BitVec.ofNat 32 (1 * 2 ^ 24 + cause * 2 ^ 16 + master))).safenNow

/-- The part is in OFF (R413, R416, R444): nothing runs and no domain is powered. -/
def State.toOff (s : State) (cause : Nat) : State :=
  ({ s.bare with mode := 0, doms := [] } : State).setReg 0x04E00014 (BitVec.ofNat 32 (cause * 2 ^ 16))

/-- Start-up begins, in FILL with T0 at 0:0 (R447 step 1): PORN is high and every supply in range. -/
def State.startUp (s : State) : State :=
  if s.mode = 0 ∧ s.porn ∧ s.badRails.isEmpty then
    State.safenNow { s.bare with regs := s.regs.filter (fun (a, _) => a == 0x04E00014) }
  else s

/-- A shadow as software's resets open it: no record has caused it (R399). -/
def swShadow (x : ShadowOf) : Shadow := { of_ := x, start := 0, ended := none, seq := 0, group := 0, det := 0, owner := 31, unit := 0 }

/-! ## The Pommel-half reset (R366, R374, R378, R453, R454) -/

/-- Every function mailbox pair is emptied; a word that was waiting for the Pommel core sets DEAD (R374). -/
def State.fnBoxesDead (s : State) : State :=
  let s := (span 0 16).foldl (fun t f => if t.boxFull f then t.setReg (fnMbStat f) (t.reg (fnMbStat f) ||| 8#32) else t) s
  { s with boxes := s.boxes.filter (fun (b, _) => decide (32 ≤ b)), svc := [] }

/-- The interrupt state of the Pommel core at a Pommel-half reset (R366). -/
def State.pommelIcReset (s : State) : State :=
  let s := (s.irqs.map (fun p => p.1)).foldl (fun t n => if (t.irqSrc n).active && (t.irqSrc n).holder == 0 then t.completeIrq n else t) s
  ({ s with commits := SMap.set none s.commits 0 none } : State).setReg (prcCtrl 0) 0x40000000#32

/-- The first cycle of a Pommel-half reset (R454 steps 1 and 2); `sh` is the shadow it opens. While PD_MGMT is off there is
nothing to reset. -/
def State.pommelHalfStart (s : State) (cause master : Nat) (sh : Shadow) : State :=
  if s.phReset.isSome then s
  else
    let s := (s.setCause 2 cause master).setReg 0x04E00018 (satInc (s.reg 0x04E00018))
    let s := s.handOff
    if !s.domOn domMGMT then { s with shadows := s.shadows ++ [{ sh with start := s.live, ended := some s.live }] }
    else
      let s := s.jend 2
      let s : State := { s with
        pommelUp := false, kickP := none, warmRun := false, loader := none, phReset := some s.live, phPhase := 0, stopped := [],
        shadows := s.shadows ++ [{ sh with start := s.live, ended := none }] }
      let s := (s.dropRegs (fun a => a / 0x100000 == 0x43)).setLinkCap
      let s := (((span 0 16).foldl (fun t f => t.fnResetStart f) s).fnBoxesDead.releaseLocks 1).pommelIcReset
      (span 0 16).foldl (fun t c => if (t.core c).st == .running then t.scExcept c { cause := 0x0D } else t) s

/-- A Pommel-half reset ends with the release of the Pommel core (R454 step 5). -/
def State.halfEnd (s : State) : State :=
  if s.phReset.isSome then ((s.endShadow .pommel).endShadow .ft) |> fun t => { t with phReset := none } else s

/-- A Pommel-half reset goes on (R454 steps 3 and 4): fills once every function reset has ended, then the image check;
without a verified image the Pommel core stays in reset (R458). -/
def State.halfStep (s : State) : State :=
  if s.phReset.isNone then s
  else if s.phPhase = 0 ∧ (s.fns.all (fun (_, x) => x.resetAt.isNone)) then
    let s := (span 0 4).foldl (fun t k => if t.dom (sqDom k) = 3 then ((t.quadDown k).dropRegs (fun a => isReg a && regDom a == sqDom k)).setDom (sqDom k) 2 else t) s
    ([23, 25] : List Nat).foldl (fun t d => if t.dom d = 3 then t.setDom d 2 else t) { s with phPhase := 1, shapeQ := [] }
  else if s.phPhase = 1 ∧ ([18, 19, 20, 21, 23, 25] : List Nat).all (fun d => s.dom d != 2) then
    if bit (s.reg suBoot) 1 then { s with phPhase := 2, warmRun := true } else s.halfEnd
  else s

/-! ## The Cantle core reset (R455) -/

/-- The first cycle of a Cantle core reset (R79, R374, R378, R453, R455); `sh` is the shadow it opens. -/
def State.cantleStart (s : State) (cause master : Nat) (sh : Shadow) : State :=
  if s.crReset.isSome then s
  else
    let s := s.setCause 3 cause master
    let s : State := { s with
      crReset := some s.live, cantleUp := false, kickC := none, patrol := false,
      shadows := s.shadows ++ [{ sh with start := s.live, ended := none }] }
    let s := s.setReg 0x04480000 (s.reg 0x04480000 &&& 0xFFFFFFFE#32)
    let s : State := { s with
      cea := { s.cea with scanning := false }, ceaWeir := [], boxes := SMap.set none s.boxes 32 none, commits := SMap.set none s.commits 1 none }
    ((s.busySlots.map (fun p => p.1)).filter (fun k => keyEngine k == 64)).foldl (fun t k => t.slotFnReset k) s

/-- The Cantle image in memory is the image that was loaded, and every word of it reads clean. -/
def State.cimgOk (s : State) (i : Image) : Bool :=
  s.bytesAt 0x02100000 i.payload.length == i.payload && !s.poisoned 0x02100000 i.payload.length && decide (s.fuses.svnMin ≤ i.svn)

/-- The boot ROM's check ends 1,664 microseconds after the start (R455): the core jumps to its warm entry, or the image is
reloaded, or without PD_MGMT the part enters RECOVERY. With no verified image the boot ROM runs its recovery loop (R458). -/
def State.cantleStep (s : State) : State :=
  match s.crReset with
  | some t =>
    if s.live < t + 1664 * 1200 ∨ s.loader.isSome then s
    else
      let done : State := { s with crReset := none }
      match s.cImg with
      | none => (done.releaseCantle none).endShadow .cantle
      | some i =>
        if s.cimgOk i then (done.releaseCantle (some i.warm)).endShadow .cantle
        else if s.domOn domMGMT then { s with loader := some true }
        else
          let s : State := { done with cImg := none }
          let s := s.setReg suBoot (putBits (s.reg suBoot) 0 0 0)
          ((s.releaseCantle none).endShadow .cantle).enterRecovery 5
  | none => s

/-! ## The resets of an FT reaction (R394) -/

/-- The resets of an FT reaction may start: the record's host report has been issued, or the tunnel is not carried, or 1 ms has
passed since the detection (R394 step 3). -/
def State.ftMay (s : State) (x : FcRec) : Bool :=
  !s.carried || decide (x.created + 1000 * 1200 ≤ s.live) ||
    (match x.vec with
     | some v => !(s.fn 0).kept.contains v && !(s.fn 0).pba.contains v
     | none => false)

/-- The shadow that a record's reaction opens. -/
def FcRec.shadow (x : FcRec) (w : ShadowOf) : Shadow :=
  { of_ := w, start := 0, ended := none, seq := x.seq, group := x.group, det := x.det, owner := x.owner, unit := x.unit }

/-- The Pommel half is reset, and for groups 1, 2 and 20 the Cantle core (R394 steps 3 and 4). -/
def State.ftResets (s : State) (x : FcRec) : State :=
  let s := s.pommelHalfStart 3 0 (x.shadow .ft)
  if x.group = 1 ∨ x.group = 2 ∨ x.group = 20 then s.cantleStart 3 0 (x.shadow .cantle) else s

/-- An FT reaction goes on to its resets as soon as it may. -/
def State.ftStep (s : State) : State :=
  match s.ftHeld with
  | some x => if s.ftMay x then State.ftResets { s with ftHeld := none } x else s
  | none => s

/-! ## Progress -/

/-- What the resets, start-up and the power controller do as soon as they can. -/
def State.progress (s : State) : State := ((s.ftStep.halfStep.cantleStep).startStep).powerStep

end Sys2Proof.Machine
end

