-- ==== Sys2Proof/Machine/Fault.lean ====
section
/-! DEFINITION. The commands of the Fault Collector (chapter 13): detections, acknowledgement, grace expiry with its reactions
(R391 to R396), shadows closing (R400), watchdogs (R406), injection (R411) and group status (R401).
The log entries that hold here: DESIGN CHOICE 2; DEDUCED 8, 31, 32, 78. -/

namespace Sys2Proof.Machine

/-! ## Reactions (R382, R390, R393, R394) -/

/-- The UC reaction of a record's group and owner, as a REACT code (R382, R387, R390, R393). -/
def ucReaction (x : FcRec) : Nat :=
  let g := x.group
  if g = 0 ∨ g = 3 ∨ g = 4 ∨ g = 9 ∨ g = 43 then 2
  else if g = 8 then (if x.owner = 16 then 4 else 2)
  else if 21 ≤ g ∧ g ≤ 29 ∨ g = 39 ∨ g = 40 then (if x.owner < 16 then 1 else 7)
  else if 30 ≤ g ∧ g ≤ 33 then (if x.det % 5 = 0 then 5 else 7)
  else if g = 5 ∨ (10 ≤ g ∧ g ≤ 19) ∨ (34 ≤ g ∧ g ≤ 38) then 7
  else if x.owner = 17 then 2 else 0

/-- A function reset that a record causes: its shadow names the record (R399). -/
def State.fnReaction (s : State) (f : Nat) (x : FcRec) : State :=
  if (s.fn f).resetAt.isSome then s
  else
    let s := s.fnResetStart f
    { s with shadows := s.shadows.map (fun w =>
        if w.of_ = .fn f ∧ w.start = s.live ∧ w.seq = 0 then { x.shadow (.fn f) with start := w.start, ended := w.ended } else w) }

/-- The FT reaction (R394): forced safe state, FAULTN, and its resets as soon as they may start; none starts while one is in
progress. -/
def State.ftReaction (s : State) (x : FcRec) : State :=
  if s.ftReact.isSome then s else State.ftStep { s.forceSafe with faultN := true, ftReact := some s.live, ftHeld := some x }

/-- The UC reaction of R393. -/
def State.ucReact (s : State) (x : FcRec) : State :=
  match ucReaction x with
  | 1 => s.fnReaction x.owner x
  | 2 => s.pommelHalfStart 3 0 (x.shadow .pommel)
  | 4 => s.cantleStart 3 0 (x.shadow .cantle)
  | 5 => s.scCtrl (x.unit % 16) (s.reg (scReg (x.unit % 16) 8) &&& 0xFFFFFFFE#32)
  | _ => s

/-- An FT reaction starts in this cycle: UC records that expire with it take its reaction (R404). -/
def State.ftNow (s : State) : Bool :=
  (match s.ftReact with | some t => t / 25 == s.live / 25 | none => false) ||
    s.opens.any (fun (_, r) => match r with
      | some x => x.cls == 2 && (match x.grace with | some t => decide (t ≤ s.live) && t / 25 == s.live / 25 | none => false)
      | none => false)

/-- A record's grace timer has expired (R393, R394, R396): its reaction starts. -/
def State.expire (s : State) (x : FcRec) : State × FcRec :=
  if x.cls = 2 ∨ x.cls = 3 then (s.ftReaction x, { x with grace := none, reacting := true, react := 3 })
  else if s.ftNow then (s, { x with grace := none, reacting := true, react := 3 })
  else (s.ucReact x, { x with grace := none, reacting := true, react := ucReaction x })

/-- Records without an entry react at once (R388). -/
def State.runLoose (s : State) : State :=
  s.loose.foldl (fun t x =>
    if x.reacting then t
    else
      let (t, y) := t.expire x
      { t.logRewrite y with loose := t.loose.map (fun z => if z.seq = x.seq then y else z) }) s

/-! ## The end of a reaction (R394, R396) -/

/-- The reaction of a record has ended. -/
def State.reactDone (s : State) (x : FcRec) : Bool :=
  x.reacting &&
    (match x.react with
     | 1 => (s.fn x.owner).resetAt.isNone
     | 2 => s.phReset.isNone
     | 3 => s.ftReact.isNone
     | 4 => s.crReset.isNone
     | _ => true)

/-- The FT reaction ends when its resets have ended and every FT record is acknowledged (R394). -/
def State.ftSettle (s : State) : State :=
  if s.ftReact.isSome && s.ftHeld.isNone && s.phReset.isNone && s.crReset.isNone && s.openRecs.all (fun (_, x) => x.cls != 2) then { s with ftReact := none }
  else s

/-- Records whose reaction has ended become REACTED; those acknowledged close (R396). -/
def State.fcSettle (s : State) : State :=
  let s := s.ftSettle
  let s := s.opens.foldl (fun t (k, r) =>
    match r with
    | some x =>
      if t.reactDone x then
        let y := { x with done := true, reacting := false }
        if x.acked then (t.setOpen k none).logRewrite y else t.putOpen k y
      else t
    | none => t) s
  let s := s.loose.foldl (fun t x => if t.reactDone x then t.logRewrite { x with done := true, reacting := false } else t) s
  { s with loose := s.loose.filter (fun x => !s.reactDone x) }

/-- What follows every change of a record: reactions due at once, and ends. -/
def State.fcGo (s : State) : State := s.runLoose.fcSettle

/-! ## Detection (R381, R386) -/

/-- A detector of groups 21 to 28, 12 to 35, has found the parity of a FIFO's word failing as it is read: PARERR, and the word goes on with a
poison mark (R311). -/
def State.fifoParity (s : State) (r : Report) : State :=
  let g := r.group.val
  let d := r.det.val
  if 21 ≤ g ∧ g ≤ 28 ∧ 12 ≤ d ∧ d ≤ 35 ∧ s.domOn (pgDom (g - 21)) then
    let q := 24 * (g - 21) + (d - 12)
    let s := s.sfStatus q 4#32
    match (s.fifo q).words with
    | w :: ws => s.setFifo q { s.fifo q with words := { w with poison := true } :: ws }
    | [] => s
  else s

/-- DETECTION (R386): the oldest report that a unit of the part has made, or one that a detector makes now; a HWCHECK ends its core's kernel
too (R264), and a FIFO's parity error marks its word (R311). -/
def detection (s : State) (r : Option Report) : State :=
  match r with
  | some r => if s.mode = 0 || decide (detCount r.group.val ≤ r.det.val) then s else (((s.hwcheck r).fifoParity r).detect r).fcGo
  | none =>
    match s.reports with
    | [] => s
    | x :: xs => (State.detect { s with reports := xs } x).fcGo

def execDetection (r : Option Report) (s : State) : Result := .next (detection s r)

/-- CONDITION_GONE (R381, R401): the cause of a condition is gone. -/
def execConditionGone (g : Fin 48) (det : Fin 64) (s : State) : Result :=
  .next { s with conds := s.conds.filter (fun c => !(c.group == g && c.det == det)) }

/-! ## Acknowledgement (R392, R396, R404) -/

/-- A write of a SEQ to FC_ACK: it acknowledges the record that an entry holds. -/
def State.fcAckSeq (s : State) (v : Nat) : State :=
  match s.opens.find? (fun (_, r) => match r with | some x => x.seq == v && !x.acked | none => false) with
  | some (k, some x) =>
    let y := { x with acked := true }
    if x.reacting then s.putOpen k y
    else if x.cls = 1 ∧ x.grace.isSome then (s.setOpen k none).logRewrite { y with soft := true, grace := none }
    else if x.cls = 2 ∧ x.grace.isSome then s.putOpen k y
    else (s.setOpen k none).logRewrite y
  | _ => s

/-- FC_ACK (R392). -/
def execFcAck (m : Master) (seq : Word) (s : State) : Result :=
  .next (s.regRow m 0x04C00010 seq (fun s => (s.fcAckSeq seq.toNat).fcSettle))

/-! ## Grace expiry and shadows (R393, R400) -/

/-- GRACE_EXPIRY (R393, R394): the grace timer of open entry k has expired. -/
def graceExpiry (s : State) (k : Nat) : State :=
  match s.openAt k with
  | some x =>
    if (match x.grace with | some t => decide (s.live < t) | none => true) then s
    else
      let (s, y) := s.expire x
      (s.putOpen k y).fcSettle
  | none => s

def execGraceExpiry (k : Fin 64) (s : State) : Result := .next (graceExpiry s k.val)

/-- SHADOW_CLOSE (R400). -/
def execShadowClose (s : State) : Result := .next s.closeShadow.fcGo

/-- FUNCTION_RESET_END (R228); records that caused the reset are REACTED, and a Pommel-half reset goes on (R454). -/
def execFunctionResetEnd (f : Fn) (s : State) : Result := .next ((functionResetEnd s f.val).halfStep.fcSettle)

/-! ## FAULTN (R395, R458) -/

/-- An FT record is made in this cycle of CK_AONF (R404). -/
def State.ftMade (s : State) : Bool := s.openRecs.any (fun (_, x) => x.cls == 2 && x.created / 25 == s.live / 25)

/-- A write of FC_CTRL: CEREP, and FTREL, which is ignored with CFGERR during an FT reaction and in the cycle of a new FT
record (R404); in RECOVERY FAULTN stays low. -/
def State.fcCtrlWrite (s : State) (v : Word) : State :=
  let s := s.setReg fcCtrl (v &&& 0x100#32)
  if !bit v 0 then s
  else if s.ftReact.isSome || s.ftMade then s.cfgErr fcStatus
  else if s.mode = modeRecovery then s
  else { s with faultN := false }

/-- FTREL (R395): a write of FC_CTRL with FTREL 1. -/
def execFtrel (m : Master) (v : Word) (s : State) : Result := .next (s.regRow m fcCtrl (v ||| 1#32) (fun s => s.fcCtrlWrite (v ||| 1#32)))

/-! ## Watchdogs (R406, R410, R435) -/

/-- A watchdog's condition is gone. -/
def State.kicked (s : State) (g : Nat) : State := { s with conds := s.conds.filter (fun c => !(c.group.val == g && c.det.val == 0)) }

/-- A write of FC_KICK: it restarts the writing core's watchdog, and the Pommel core's heartbeat. -/
def State.fcKick (s : State) (m : Master) : State :=
  match m with
  | .cantle => ({ s with kickC := some s.live } : State).kicked 2
  | .pommel => ({ s with kickP := some s.live } : State).kicked 3
  | _ => s.cfgErr fcStatus

/-- FC_KICK (R406, R410, R435). -/
def execFcKick (m : Master) (s : State) : Result := .next (s.regRow m 0x04C0002C 0#32 (fun s => s.fcKick m))

/-- The watchdog's condition is present, or its report waits. -/
def State.wdgOut (s : State) (g : Nat) : Bool := (s.conds ++ s.reports).any (fun c => c.group.val == g && c.det.val == 0)

/-- WATCHDOG_EXPIRY (R406): a core that is out of reset has not kicked its watchdog within its bound: 1 ms for the Cantle
core, 45 ms in LISTEN and DEEP, 1.5 ms for the Pommel core. -/
def watchdogExpiry (s : State) (cantle : Bool) : State :=
  if cantle then
    let b := if s.mode = 3 ∨ s.mode = 4 then 45000 else 1000
    if s.cantleUp && !s.wdgOut 2 && decide (max s.relC (s.kickC.getD 0) + b * 1200 ≤ s.live) then s.report 2 0 2 16 0 2 0#32 true else s
  else
    if s.pommelUp && !s.wdgOut 3 && decide (max s.relP (s.kickP.getD 0) + 1500 * 1200 ≤ s.live) then s.report 3 0 1 17 0 1 0#32 true else s

def execWatchdogExpiry (cantle : Bool) (s : State) : Result := .next (watchdogExpiry s cantle)

/-! ## Injection (R382, R411) -/

/-- The class that a detection of this group and detector takes in service (R382); none where the table leaves it to the
event. -/
def serviceClass (g d : Nat) : Option Nat :=
  if g = 0 ∨ g = 3 ∨ g = 43 ∨ g = 19 ∨ g = 29 ∨ (10 ≤ g ∧ g ≤ 18) then some 1
  else if g = 1 ∨ g = 2 ∨ g = 6 ∨ g = 7 ∨ g = 20 ∨ g = 44 then some 2
  else if g = 4 then some (if d < 4 then 2 else 1)
  else if g = 5 then none
  else if 21 ≤ g ∧ g ≤ 28 then some (if 12 ≤ d ∧ d ≤ 35 then 0 else 1)
  else if 30 ≤ g ∧ g ≤ 33 then (if d % 5 = 0 then some 1 else none)
  else if 34 ≤ g ∧ g ≤ 38 then none
  else if g = 39 then (if d = 6 ∨ d = 9 then some 1 else if d = 8 then none else some 0)
  else if g = 40 then (if d < 2 then some 0 else some 1)
  else some 0

/-- The owner that R382 names for every record of a group; none where it depends on the event. -/
def groupOwner (g : Nat) : Option Nat :=
  if g = 0 ∨ g = 3 ∨ g = 9 ∨ g = 43 then some 17
  else if g = 1 ∨ g = 2 ∨ g = 18 then some 16
  else if g = 45 then some 31
  else if g = 46 then some 19
  else if g = 8 ∨ (21 ≤ g ∧ g ≤ 29) ∨ (34 ≤ g ∧ g ≤ 42) then none
  else some 18

/-- The owners that R382 and R387 allow a record of a group that `groupOwner` leaves open. -/
def ownersOf (g : Nat) : List Nat :=
  if g = 8 then [16, 17]
  else if 21 ≤ g ∧ g ≤ 28 then span 0 17 ++ [18]
  else if 34 ≤ g ∧ g ≤ 38 then span 0 16 ++ [31]
  else if g = 40 then span 0 17
  else if g = 42 then span 0 20 ++ [31]
  else span 0 16

/-- An injected detection of a group and detector, with DETAIL 0xFFFF_FFFF; a class or owner that R382 leaves to the event is
a free value. -/
def State.injected (s : State) (g d : Nat) : State :=
  let (q, s) := s.draw
  let free := if g = 5 ∨ g = 8 then 1 + q.toNat % 2 else q.toNat % 2
  let cls := (serviceClass g d).getD free
  let own := (groupOwner g).getD ((ownersOf g).getD (q.toNat / 2 % (ownersOf g).length) 31)
  s.detect { group := Fin.ofNat 48 g, det := Fin.ofNat 64 d, cls := Fin.ofNat 3 cls, owner := Fin.ofNat 32 own, unit := 0#16, master := 0#7,
             detail := 0xFFFFFFFF#32, cond := false }

/-- A write of FC_INJ: the fields are stored; ARM raises the detection at once and clears. Without permission, or with no
such detector, a write of ARM is ignored and sets CFGERR. Without ARM a field that holds a reserved value keeps its own (R13). -/
def State.fcInjWrite (s : State) (v : Word) : State :=
  let g := bitsOf v 21 16
  let d := bitsOf v 5 0
  let valid := decide (g < 48) && decide (d < detCount g)
  if bit v 31 then
    if !s.mayInject || !valid then s.cfgErr fcStatus
    else ((s.setReg fcInj (v &&& 0x3F003F#32)).injected g d).fcGo
  else
    let old := s.reg fcInj
    let g' := if g < 48 then g else bitsOf old 21 16
    let d' := if d < detCount g' then d else bitsOf old 5 0
    let s := s.setReg fcInj (BitVec.ofNat 32 (g' * 2 ^ 16 + d'))
    if g' = g ∧ d' = d then s else s.cfgErr fcStatus

/-- FC_INJ (R411): a write of FC_INJ with ARM 1. -/
def execFcInj (m : Master) (v : Word) (s : State) : Result :=
  .next (s.regRow m fcInj (v ||| 0x80000000#32) (fun s => s.fcInjWrite (v ||| 0x80000000#32)))

/-! ## Group status (R401) -/

/-- A write of FC_GRPg_STAT: bits clear; a condition that is still present sets its bit again and raises a new record. -/
def State.grpClear (s : State) (g : Nat) (v : Word) : State :=
  let s := s.setReg (grpStat g) (s.reg (grpStat g) &&& ~~~ (v &&& 7#32))
  if v &&& 7#32 = 0#32 then s
  else
    ((s.conds.filter (fun r => r.group.val == g)).foldl (fun t r =>
      (t.setStatus (grpStat g) (bitWord (if countingMode t.mode then 0 else r.cls.val) true)).classify r) s).fcGo

/-- GROUP_STATUS_CLEAR (R401). -/
def execGroupStatusClear (m : Master) (g : Fin 48) (v : Word) (s : State) : Result :=
  .next (s.regRow m (grpStat g.val) v (fun s => s.grpClear g.val v))

end Sys2Proof.Machine
end

