-- ==== Sys2Proof/Machine/Power.lean ====
section
/-! DEFINITION. The commands of the power and mode controller (chapter 14): transitions, requests, domains switching, the
reins, wake events, WAKEN and clocks; and the fills and self-tests that domains take (R341 to R346).
The log entries that hold here: DESIGN CHOICE 5; DEDUCED 33, 34. -/

namespace Sys2Proof.Machine

/-! ## Transitions (R414 to R417, R419, R423) -/

/-- A transition to a mode begins (R417, R419): one that takes PD_MGMT down starts with the handshake. -/
def State.startTrans (s : State) (t : Nat) : State :=
  if 6 ≤ s.mode ∧ t ≤ 5 then State.irq { s with trans := some (t, s.live), prep := some s.live } 434
  else State.powerStep { s with trans := some (t, s.live) }

/-- MODE_TRANSITION_START (R414, R416, R445, R455): the floors select another ladder mode. Below GLANCE only once the CK_AON32
monitor is armed; PD_MGMT stays up while a Cantle core reset runs. -/
def modeTransitionStart (s : State) : State :=
  let f := if s.aonArmed then s.floor else max 5 s.floor
  if s.mode < 3 ∨ 8 < s.mode ∨ s.trans.isSome ∨ f = s.mode then s
  else if 6 ≤ s.mode ∧ f ≤ 5 ∧ s.crReset.isSome then s
  else s.startTrans f

def execModeTransitionStart (s : State) : Result := .next (modeTransitionStart s)

/-- Every domain stands as mode t wants it (R424). -/
def State.settled (s : State) (t : Nat) : Bool :=
  (span 0 30).all (fun d => (s.dom d == 0 || s.dom d == 3 || s.dom d == 4) && !s.canUp t d && !s.mustDown t d)

/-- The transition to mode t has reached its end (R156, R416): domains and tempo clock fit, and on the way to ACTIVE the link
has trained; on the way to REPLAY the records for its start have loaded (R503). -/
def State.reached (s : State) (t : Nat) : Bool :=
  t == 9 || (s.phReset.isNone && s.settled t && (perfMode t != s.tickAon) && (t != 8 || s.conn.isNone || s.tunnel != .none) &&
    (t != 0xA || s.jn.ready))

/-- MODE_TRANSITION_END (R417): MODE takes the new code. After start-up the Cantle core is released into its boot ROM, which
requests DETACHED (R447 steps 7 and 8). -/
def modeTransitionEnd (s : State) : State :=
  match s.trans with
  | some (t, _) =>
    if s.prep.isSome || !s.reached t then s
    else
      let s := s.setMode t
      if t = 5 ∧ s.stageNow = 3 ∧ !s.cantleUp then
        let s := s.releaseCantle none
        s.setReg 0x04D0000C (putBits (s.reg 0x04D0000C) 19 16 6)
      else if t = 9 ∧ !s.cantleUp ∧ s.crReset.isNone then s.releaseCantle (s.cImg.map (fun i => i.warm))
      else if t = 0xA then s.replayStart
      else s.startStep
  | none => s

def execModeTransitionEnd (s : State) : Result := .next (modeTransitionEnd s)

/-- PREP_TIMEOUT (R419): PREP_TMO milliseconds pass without GIVE. -/
def prepTimeout (s : State) : State :=
  match s.prep with
  | some t =>
    if s.live < t + bitsOf (s.reg 0x04D00014) 21 12 * 1200000 then s
    else State.powerStep { (s.setStatus pmStatus 8#32).handOff with prep := none }
  | none => s

def execPrepTimeout (s : State) : Result := .next (prepTimeout s)

/-! ## Requests (R414, R420, R441) -/

/-- A value that a request field takes (R414). -/
def reqOk (v : Nat) : Bool := v == 0 || (decide (3 ≤ v) && decide (v ≤ 8))

/-- A write of PM_REQ: each core writes its own field; others write none. -/
def State.pmReq (s : State) (m : Master) (v : Word) : State :=
  let put := fun (hi lo : Nat) =>
    if reqOk (bitsOf v hi lo) then s.setReg 0x04D0000C (putBits (s.reg 0x04D0000C) hi lo (bitsOf v hi lo)) else s.cfgErr pmStatus
  match m with
  | .cantle => put 19 16
  | .pommel => put 3 0
  | _ => s

/-- MODE_REQUEST (R414). -/
def execModeRequest (m : Master) (v : Word) (s : State) : Result := .next (s.regRow m 0x04D0000C v (fun s => s.pmReq m v))

/-- A write of PM_DOMREQ; what the mode permits switches at once (R420). -/
def State.domRequest (s : State) (v : Word) : State := (s.setReg 0x04D00024 (v &&& 0x233FFFF0#32)).powerStep

/-- DOMAIN_REQUEST (R420). -/
def execDomainRequest (m : Master) (v : Word) (s : State) : Result := .next (s.regRow m 0x04D00024 v (fun s => s.domRequest v))

/-- The request to go down is a millisecond old (R420). -/
def State.downLate (s : State) (d : Nat) : Bool :=
  let t := SMap.get 0 s.downReq d
  t != 0 && decide (t - 1 + 1200000 ≤ s.live) && s.mustDown s.aim d

/-- PORT_GROUP_DOWN_TIMEOUT (R420): the group powers down, and operations that hold its stations end with DOMAIN_OFF. -/
def portGroupDownTimeout (s : State) (n : Nat) : State :=
  if 2 ≤ n ∧ s.downLate (pgDom n) then (s.domOff (pgDom n)).powerStep else s

def execPortGroupDownTimeout (n : PgId) (s : State) : Result := .next (portGroupDownTimeout s n.val)

/-- QUAD_DOWN_TIMEOUT (R273, R420): a mode transition needs the quad down; its kernels are stopped. -/
def quadDownTimeout (s : State) (k : Nat) : State :=
  if s.trans.isSome ∧ s.downLate (sqDom k) then
    ((span (4 * k) 4).foldl (fun t c => if (t.core c).st == .running then t.scExcept c { cause := 0x0D } else t) s).powerStep
  else s

def execQuadDownTimeout (k : Fin 4) (s : State) : Result := .next (quadDownTimeout s k.val)

/-! ## The connection (R414, R416, R432, R449) -/

/-- LINKGO has been written (R449). -/
def State.linkGo (s : State) : Bool := bit (s.reg suBoot) 2

/-- LINK_FAIL (R414): 100 ms after its detection a connection has not reached a carried tunnel. -/
def linkFail (s : State) : State :=
  match s.conn with
  | some t => if s.tunnel == .none && decide (t + 100 * 1200000 ≤ s.live) then ({ s with conn := none } : State).setStatus pmStatus 0x10#32 else s
  | none => s

def execLinkFail (s : State) : Result := .next (linkFail s)

/-- CONNECTION_DETECT (R416, R449): the PHY detects a link partner. -/
def connectionDetect (s : State) : State :=
  if s.domOn domU4PHY && s.linkGo && s.conn.isNone then { s with conn := some s.live } else s

def execConnectionDetect (s : State) : Result := .next (connectionDetect s)

/-- SIDEBAND_DETECT (R431, R432): SBRX high for 10 microseconds while PD_U4PHY is off raises LINK; the Host Port floor follows,
where LINKGO lets the Host Port see a connection (R449). -/
def sidebandDetect (s : State) : State :=
  if s.mode = 0 ∨ s.dom domU4PHY ≠ 0 then s
  else
    let seen := bit (s.reg 0x04D00028) 6 && s.linkGo && s.conn.isNone
    let s := s.wakeEvent 6
    if seen then { s with conn := some s.live } else s

def execSidebandDetect (s : State) : Result := .next (sidebandDetect s)

/-! ## The reins (R434 to R438) -/

/-- The Pommel core's heartbeat is alive (R435): 80,000 cycles of CK_WDG are 10 ms. -/
def State.alive (s : State) : Bool := match s.kickP with | some t => decide (s.live < t + 12000000) | none => false

/-- A claim that contradicts R436 is refused (R437). -/
def State.refuseClaim (s : State) (det owner master : Nat) : State := (s.setStatus pmStatus 2#32).report 8 det 0 owner 0 master 0#32

/-- A command of PM_REINS: 1 TAKE, 2 GIVE (R436, R437, R441). -/
def State.reins (s : State) (m : Master) (cmd : Nat) : State :=
  match m with
  | .pommel =>
    if cmd = 1 then
      if s.holderPommel then s
      else if s.domOn domMGMT && s.pommelUp && s.alive && s.prep.isNone then s.setHolder true
      else s.refuseClaim 2 17 1
    else if cmd = 2 then
      let s := s.handOff
      if s.prep.isSome then State.powerStep { s with prep := none } else s
    else if cmd = 3 then s.cfgErr pmStatus
    else s
  | .cantle =>
    if cmd = 1 then (if s.holderPommel then s.refuseClaim 3 16 2 else s)
    else if cmd = 2 then s.refuseClaim 3 16 2
    else if cmd = 3 then s.cfgErr pmStatus
    else s
  | _ => if cmd = 0 then s else s.cfgErr pmStatus

/-- GIVE (R436, R437). -/
def execGive (m : Master) (s : State) : Result := .next (s.regRow m 0x04D00018 2#32 (fun s => s.reins m 2))

/-- TAKE (R436, R437). -/
def execTake (m : Master) (s : State) : Result := .next (s.regRow m 0x04D00018 1#32 (fun s => s.reins m 1))

/-- HEARTBEAT_LAPSE (R435, R436): the heartbeat of the holder lapses. -/
def heartbeatLapse (s : State) : State := if s.holderPommel && !s.alive then s.handOff.setStatus pmStatus 4#32 else s

def execHeartbeatLapse (s : State) : Result := .next (heartbeatLapse s)

/-! ## Wake events (R366, R431, R433, R440) -/

/-- A PG_ register of PG0 as its pad ring sees it: saved while PD_PG0 is off (R422, R430). -/
def State.padReg (s : State) (a : Nat) : Word := if s.dom 2 = 0 then SMap.get (regReset a) s.saved a else s.reg a

/-- A WAKE source with a pending message targets the Pommel core, which cannot take it (R366). -/
def State.pommelWake (s : State) : Bool :=
  !s.procUp 0 && s.irqs.any (fun (_, x) => x.wake && x.pend && !x.active && s.targetOf x == 0)

/-- WAKE_EVENT (R431): the sources whose cause lies outside, COMP0 to COMP3, LANE and DICT, and POMMEL for a pending WAKE
source; the others follow from events of their own. -/
def wakeEventRow (s : State) (i : Nat) : State :=
  if s.mode = 0 then s
  else if i < 4 then (if bitsOf (s.padReg (laneFnAddr (8 + i))) 3 0 = 0xC then s.wakeEvent i else s)
  else if i = 4 then (if bitsOf (s.reg 0x04D00030) 23 0 ≠ 0 then s.wakeEvent 4 else s)
  else if i = 5 then (if s.dom 2 = 0 ∧ bitsOf (s.padReg (laneFnAddr 0)) 3 0 = 5 ∧ bit (s.padReg (laneFnAddr 0 + 4)) 26 then s.wakeEvent 5 else s)
  else if i = 9 then (if s.pommelWake then s.wakeEvent 9 else s)
  else s

def execWakeEvent (i : Fin 11) (s : State) : Result := .next (wakeEventRow s i.val)

/-- The wake timer's target as a T0 position. -/
def State.wakeAt (s : State) : Nat := (s.reg 0x04D00038).toNat * 2 ^ 32 + (s.reg 0x04D00034).toNat

/-- A write of PM_WAKE_AT_HI arms the timer, one of PM_WAKE_AT_LO disarms it (R440). -/
def State.wakeHi (s : State) (v : Word) : State := { s.setReg 0x04D00038 v with timerArm := true }
def State.wakeLo (s : State) (v : Word) : State := { s.setReg 0x04D00034 v with timerArm := false }

/-- WAKE_TIMER_ARM (R440). -/
def execWakeTimerArm (m : Master) (v : Word) (s : State) : Result := .next (s.regRow m 0x04D00038 v (fun s => s.wakeHi v))
/-- WAKE_TIMER_DISARM (R440). -/
def execWakeTimerDisarm (m : Master) (v : Word) (s : State) : Result := .next (s.regRow m 0x04D00034 v (fun s => s.wakeLo v))

/-- WAKE_TIMER_DUE (R431, R440): the target falls due on T0. -/
def wakeTimerDue (s : State) : State := if s.timerArm && decide (s.wakeAt ≤ s.liveT0) then State.wakeEvent { s with timerArm := false } 7 else s

def execWakeTimerDue (s : State) : Result := .next (wakeTimerDue s)

/-- WAKEN is written by the cores alone (R433). -/
def isCore (m : Master) : Bool := m == .pommel || m == .cantle

/-- WAKEN_SET (R433): a write of PM_CTRL with WAKEN_SET. -/
def execWakenSet (m : Master) (s : State) : Result := .next (s.regRow m 0x04D00010 0x10#32 (fun s => if isCore m then s.wakenSet else s))
/-- WAKEN_CLR (R433): a write of PM_CTRL with WAKEN_CLR. -/
def execWakenClr (m : Master) (s : State) : Result :=
  .next (s.regRow m 0x04D00010 0x20#32 (fun s => if isCore m then { s with waken := none } else s))

/-- WAKEN_TIMEOUT (R433): WAKEN_MS milliseconds pass. -/
def wakenTimeout (s : State) : State :=
  match s.waken with
  | some t => if t + bitsOf (s.reg 0x04D00014) 31 22 * 1200000 ≤ s.live then ({ s with waken := none } : State).setStatus pmStatus 0x20#32 else s
  | none => s

def execWakenTimeout (s : State) : Result := .next (wakenTimeout s)

/-- PATROL_PASS (R430): in DEEP and LISTEN the Cantle core is released from its wait state every PATROL milliseconds; the
pass ends when the core waits again, which in this model is when no command is waiting. -/
def patrolPass (s : State) : State :=
  if (s.mode = 3 ∨ s.mode = 4) ∧ !s.patrol ∧ s.cantleUp ∧ s.patrolAt + bitsOf (s.reg 0x04D00014) 4 0 * 1200000 ≤ s.live then
    { s with patrol := true, patrolAt := s.live }
  else s

def execPatrolPass (s : State) : Result := .next (patrolPass s)

/-! ## SERVICE (R415) -/

/-- SVC_ENTER: by the Pommel core, in ACTIVE with no transition in progress. -/
def State.svcEnter (s : State) (m : Master) : State :=
  if m = .pommel ∧ s.mode = 8 ∧ s.trans.isNone then s.startTrans 0xB else s.cfgErr pmStatus

/-- SVC_EXIT: by the Pommel core, in SERVICE; the floors select the ladder mode. -/
def State.svcExit (s : State) (m : Master) : State :=
  if m = .pommel ∧ s.mode = 0xB ∧ s.trans.isNone then s.startTrans (if s.aonArmed then s.floor else max 5 s.floor) else s.cfgErr pmStatus

/-- SVC_ENTER (R415): a write of PM_CTRL with SVC_ENTER. -/
def execSvcEnter (m : Master) (s : State) : Result := .next (s.regRow m 0x04D00010 1#32 (fun s => s.svcEnter m))
/-- SVC_EXIT (R415): a write of PM_CTRL with SVC_EXIT. -/
def execSvcExit (m : Master) (s : State) : Result := .next (s.regRow m 0x04D00010 2#32 (fun s => s.svcExit m))

/-! ## Clocks (R428, R429, R445) -/

/-- CK_AUD is in use: T6 runs from it, or a lane is an I2S/TDM controller (R429). -/
def State.audUsed (s : State) : Bool :=
  (s.audclk 6 && (s.src 6).st != .off) || (span 0 96).any (fun l => s.laneFunc l == 10 && !bit (s.laneCfg l) 24)

/-- A write of PM_CLK (R13, R429). -/
def State.pmClk (s : State) (v : Word) : State :=
  let l := bitsOf v 14 8
  if s.audUsed then s.cfgErr pmStatus
  else
    let bad := decide (95 < l)
    let l' := if bad then bitsOf (s.reg 0x04D0003C) 14 8 else l
    if bit v 1 && s.laneFunc l' != 0xB then s.cfgErr pmStatus
    else
      let s := s.setReg 0x04D0003C (putBits (v &&& 0x3#32) 14 8 l')
      if bad then s.cfgErr pmStatus else s

/-- PM_CLK_WRITE (R429). -/
def execPmClkWrite (m : Master) (v : Word) (s : State) : Result := .next (s.regRow m 0x04D0003C v (fun s => s.pmClk v))

/-- CK_AON32_MONITOR_ARM (R445): CK_AON32 has run for 1,024 cycles within its limits. -/
def ckAon32MonitorArm (s : State) : State :=
  if s.mode = 0 ∨ s.aonArmed then s
  else { s with aonArmed := true, conds := s.conds.filter (fun c => !(c.group.val == 4 && c.det.val == 0)) }

def execCkAon32MonitorArm (s : State) : Result := .next (ckAon32MonitorArm s)

/-- CK_AON32_START_TIMEOUT (R445): 1.5 s after PORN's release the monitor is not armed. -/
def ckAon32StartTimeout (s : State) : State :=
  if s.mode = 0 ∨ s.aonArmed ∨ s.live < 1500000 * 1200 ∨ (s.conds ++ s.reports).any (fun c => c.group.val == 4 && c.det.val == 0) then s
  else s.report 4 0 2 18 0 0 0#32 true

def execCkAon32StartTimeout (s : State) : Result := .next (ckAon32StartTimeout s)

/-- CK_REF runs, or starts: in every mode but OFF and the always-on ones, and on the way out of those (R427). -/
def State.refRuns (s : State) : Bool := s.mode == 1 || s.mode == 2 || perfMode s.aim

/-- PLL_LOCK (R428, R447): CK_REF is stable and the PLLs are locked: fills that waited begin, and the tempo clock change of a
performance mode is requested. -/
def pllLock (s : State) : State :=
  if s.pll || !s.refRuns then s
  else
    let s : State := { s with pll := true }
    let s := (span 1 29).foldl (fun t d => if t.dom d = 7 ∨ t.dom d = 8 then t.rampEnd d else t) s
    s.startPower.progress

def execPllLock (s : State) : Result := .next (pllLock s)

/-! ## Ramps, fills and self-tests (R341 to R346, R417, R450) -/

/-- POWER_UP_RAMP_END (R342, R417). -/
def powerUpRampEnd (s : State) (d : Nat) : State := if s.dom d = 1 ∨ s.dom d = 5 then (s.rampEnd d).progress else s

def execPowerUpRampEnd (d : DomId) (s : State) : Result := .next (powerUpRampEnd s d.val)

/-- The address lies in the memories of a domain (R23, R24, R341). -/
def inMemDom (d a : Nat) : Bool :=
  if d = 1 then isTack a || isCantle a else decide (22 ≤ d) && decide (d ≤ 25) && isMain a && a / 0x600000 == d - 22

/-- The fill writes zero data with zero check bits to every word of the domain, and clears its merge buffers (R341); a quad's
stores are cleared; with PD_MEM3 the journal's window. -/
def State.fill (s : State) (d : Nat) : State :=
  let s : State := { s with
    mem := s.mem.filter (fun (a, _) => !inMemDom d a)
    ecc := s.ecc.filter (fun (a, _) => !inMemDom d a)
    merge := s.merge.filter (fun (k, _) => if d = 1 then k != 24 else !(decide (22 ≤ d) && decide (d ≤ 25) && k / 6 == d - 22))
    scrubSeen := s.scrubSeen.filter (fun a => !inMemDom d a) }
  if 18 ≤ d ∧ d ≤ 21 then
    let s : State := { s with ecc := s.ecc.filter (fun (a, _) => !(decide (2 ^ 40 ≤ a) && (span (4 * (d - 18)) 4).any (fun c =>
      [ScStore.imem, ScStore.dmem, ScStore.ucode].any (fun k => decide (scEccKey c k 0 ≤ a) && decide (a < scEccKey c k 65536))))) }
    (span (4 * (d - 18)) 4).foldl (fun t c => t.setCore c { t.core c with imem := [], dmem := [], ucode := [] }) s
  else if d = 25 then { s with jn := { s.jn with recs := [] } }
  else s

/-- FILL_COMPLETE (R341, R343): the domain is filled and on. -/
def fillComplete (s : State) (d : Nat) : State := if s.dom d = 2 then ((s.fill d).domArrive d).progress else s

def execFillComplete (d : DomId) (s : State) : Result := .next (fillComplete s d.val)

/-- The number of a memory under self-test: macros 0 to 23, Cantle SRAM 24, Tack Room 25, quads 26 to 29 (R345, R382). -/
def unitIdx : MemUnit → Nat
  | .mainMacro m => m.val
  | .cantleSram => 24
  | .tackRoom => 25
  | .quad k => 26 + k.val

/-- The domain of a memory under self-test, and the memories that share it. -/
def unitDom (u : Nat) : Nat := if u < 24 then 22 + u / 6 else if u < 26 then 1 else 18 + (u - 26)

/-- Place a failing word in the lowest free spare entry of its macro, with BIST set (R346); none is left otherwise. -/
def State.placeSpare (s : State) (u w : Nat) : Option State :=
  let (b, n) := remapRange u
  match (span b n).find? (fun e => !bit (s.remapEnt e) 31) with
  | some e => some { s with remap := SMap.set 0#32 s.remap e (BitVec.ofNat 32 (0xA0000000 + w % 2 ^ 17)) }
  | none => none

/-- Place failing words until the spares are used up: the state, and whether all found a place. -/
def State.placeSpares (s : State) (u : Nat) : List Nat → State × Bool
  | [] => (s, true)
  | w :: ws =>
    match s.placeSpare u w with
    | some t => t.placeSpares u ws
    | none => (s, false)

/-- A memory has failed self-test (R346, R382, R450). -/
def State.bistFail (s : State) (u : Nat) : State :=
  let s := s.setStatus 0x04900004 0x20#32
  let s := if u < 24 then s.setReg 0x04900028 (s.reg 0x04900028 ||| bitWord u true)
           else s.setReg 0x0490002C (s.reg 0x0490002C ||| bitWord (if u = 24 then 0 else if u = 25 then 1 else 8 + (u - 26)) true)
  let s := s.report 47 u 0 18 u 0 0#32
  if u < 26 then s.enterRecovery 2
  else (span (4 * (u - 26)) 4).foldl (fun t c => t.setCore c { t.core c with failed := true }) s

/-- SELFTEST_COMPLETE (R344, R346): failing words are remapped, or the memory fails; a fill follows once every test of the
domain has ended. -/
def selftestComplete (s : State) (u : Nat) (failing : List Nat) (checkerOk : Bool) : State :=
  let d := unitDom u
  if s.dom d ≠ 6 ∨ !s.bistRun.contains u then s
  else
    let s : State := { s with bistRun := s.bistRun.erase u }
    let (s, fit) := if 26 ≤ u then (s, failing.isEmpty) else s.placeSpares u failing.dedup
    let s := if s.bistRun.any (fun w => unitDom w == d) then s else s.setDom d 2
    (if fit && checkerOk then s else s.bistFail u).progress

def execSelftestComplete (u : MemUnit) (failing : List Nat) (checkerOk : Bool) (s : State) : Result :=
  .next (selftestComplete s (unitIdx u) failing checkerOk)

end Sys2Proof.Machine
end

