-- ==== Sys2Proof/Machine/Boot.lean ====
section
/-! DEFINITION. The commands of start-up and reset (chapter 15): PORN and the supplies, fuse load, the boot loader, LINKGO,
the warm start, and the resets of SU_RST.
The log entries that hold here: DESIGN CHOICE 37, 50, 51; DEDUCED 36. -/

namespace Sys2Proof.Machine

/-! ## PORN and the supplies (R444, R516) -/

/-- PORN_LOW (R444): the part is in OFF at once. -/
def pornLow (s : State) : State :=
  if !s.porn then s else if s.mode = 0 then { s with porn := false } else { s.toOff 0 with porn := false }

def execPornLow (s : State) : Result := .next (pornLow s)

/-- SUPPLY_OUT_OF_RANGE (R416, R516): one of the four rails with a reset threshold falls below it: VDD_CORE, VDD_AON,
VDD_SRAM, VDD_18. -/
def supplyOutOfRange (s : State) (rail : Nat) : State :=
  let s := if s.mode = 0 then s else s.toOff 1
  { s with badRails := insertVec rail s.badRails }

def execSupplyOutOfRange (rail : Fin 4) (s : State) : Result := .next (supplyOutOfRange s rail.val)

/-- SUPPLY_IN_RANGE (R444, R516): every monitored rail is above its rising threshold; with PORN high start-up begins. -/
def execSupplyInRange (s : State) : Result := .next (State.startUp { s with badRails := [] })

/-- PORN_RELEASE (R444, R447): start-up begins once every supply is in range. -/
def execPornRelease (s : State) : Result := .next (State.startUp { s with porn := true })

/-! ## Fuse load and the boot loader (R446 to R452, R482, R483) -/

/-- What fuse load reads, with what the dictionary has programmed (R484, R485): a new lifecycle state takes effect only at a
power-on reset. -/
def State.fusesNow (s : State) (x : Fuses) : Fuses :=
  { x with
    lifecycle := if bitsOf (s.reg 0x04E00014) 31 24 = 1 then s.fuses.lifecycle
      else match s.burn.life with | some t => Fin.ofNat 4 t | none => x.lifecycle
    keyDigest := s.burn.key.getD x.keyDigest
    svnMin := max x.svnMin (s.burn.svn.getD 0) }

/-- FUSE_LOAD (R348, R446): the fuses are read; a fuse word that fails its check ends start-up in RECOVERY, RETIRED. -/
def fuseLoad (s : State) (r : Option Fuses) : State :=
  if s.mode ≠ 1 ∨ s.stageNow ≠ 0 ∨ s.trans.isSome then s
  else match r with
  | some x =>
    let rm := x.remap.foldl (fun m (e, w) => if e < 204 then SMap.set 0#32 m e (BitVec.ofNat 32 (0xC0000000 + w % 2 ^ 17)) else m) s.remap
    (State.setStage { s with fuses := s.fusesNow x, remap := rm } 1).startPower
  | none => State.enterRecovery { s with fuses := { s.fuses with lifecycle := 3 } } 1

def execFuseLoad (r : Option Fuses) (s : State) : Result := .next (fuseLoad s r)

/-- The checks of R483 on a loaded image. -/
def State.imageOk (s : State) (i : Image) : Bool :=
  let n := i.payload.length
  i.authOk && decide (s.fuses.svnMin ≤ i.svn) && decide (n % 4096 = 0) && decide (n ≤ (if i.cantle then 0x80000 else 0x400000))

/-- The boot loader finishes: LANE02 to LANE07 return to FUNC OFF at their SAFE level (R448). -/
def State.loaderDone (s : State) : State := (span 2 6).foldl (fun t l => (t.place l 0).laneToSafe l) s

/-- The Cantle image is loaded and verified (R447 step 10, R455): the Cantle core jumps to its entry point; in start-up the
Pommel image follows. -/
def State.cantleLoaded (s : State) (i : Image) : State :=
  let start := decide (s.stageNow < 6)
  let s := s.setReg suBoot (putBits (s.reg suBoot) 0 0 1)
  let s : State := { s with
    cImg := some i, crReset := none, loader := if start then some false else none, runC := s.flash.slotC,
    fwDue := if start then s.fwDue ++ [100] else s.fwDue }
  let s := (s.releaseCantle (some i.entry)).endShadow .cantle
  if start then s.setStage 5 else s.loaderDone.setStatus 0x04E00004 2#32

/-- The Pommel image is loaded and verified (R447 step 11, R452): the Pommel core is released at its entry point. -/
def State.pommelLoaded (s : State) (i : Image) : State :=
  let start := decide (s.stageNow < 6)
  let s := s.setReg suBoot (putBits (s.reg suBoot) 1 1 1)
  let s := (State.releasePommel { s with pImg := some { i with payload := [] }, loader := none, runP := s.flash.slotP } false).halfEnd.loaderDone
  if start then s.setStage 6 else s.setStatus 0x04E00004 2#32

/-- No image comes from the flash: a reset that waited for it ends with its core held, or in the boot ROM's loop (R450, R458). -/
def State.noImage (s : State) (cantle : Bool) (err : Nat) : State :=
  let s := s.setReg suBoot (if cantle then putBits (s.reg suBoot) 0 0 0 else putBits (s.reg suBoot) 1 1 0)
  let s := if cantle then (State.releaseCantle { s with cImg := none, crReset := none } none).endShadow .cantle
           else (State.halfEnd { s with pImg := none })
  s.loaderDone.enterRecovery err

/-- BOOT_IMAGE_LOADED (R448, R450): the boot loader has read an image with a valid header; forced safe state holds its lanes
(R451). An image that fails its check ends in RECOVERY. -/
def bootImageLoaded (s : State) (i : Image) : State :=
  if s.loader != some i.cantle || !i.headerOk || s.forcedSafe || !s.domOn domMGMT then s
  else
    let base := if i.cantle then 0x02100000 else 0
    let s := s.writeMem base i.payload
    if s.imageOk i then (if i.cantle then s.cantleLoaded i else s.pommelLoaded i).fcSettle
    else (s.noImage i.cantle (if i.cantle then 5 else 6)).fcSettle

def execBootImageLoaded (img : Image) (s : State) : Result := .next (bootImageLoaded s img)

/-- BOOT_FLASH_TIMEOUT (R450): no valid image header within 10 ms. -/
def bootFlashTimeout (s : State) : State :=
  match s.loader with
  | some c => (s.noImage c 4).fcSettle
  | none => s

def execBootFlashTimeout (s : State) : Result := .next (bootFlashTimeout s)

/-- A write of SU_CTRL (R449, R460). -/
def State.suCtrl (s : State) (m : Master) (v : Word) : State :=
  if m != .pommel then s.cfgErr 0x04E00004
  else if bit v 0 then s.setReg suBoot (s.reg suBoot ||| 4#32) else s

/-- LINKGO (R449): a write of SU_CTRL with LINKGO. -/
def execLinkgo (m : Master) (s : State) : Result := .next (s.regRow m 0x04E0000C 1#32 (fun s => s.suCtrl m 1#32))

/-- WARM_START (R452, R454): the in-place check of the Pommel image ends: the core is released at its warm entry, or the image
is read again from flash. -/
def warmStart (s : State) (ok : Bool) : State :=
  if !s.warmRun then s
  else
    let s : State := { s with warmRun := false }
    if ok then (s.releasePommel true).halfEnd.fcSettle
    else { s with loader := some false }

def execWarmStart (ok : Bool) (s : State) : Result := .next (warmStart s ok)

/-! ## SU_RST (R453 to R457, R486) -/

/-- A reset of a scope that software, debug or the dictionary asks for: 1 device, 2 Pommel half, 3 Cantle core. -/
def State.resetScope (s : State) (scope cause master : Nat) : State :=
  if s.mode = 0 then s
  else if scope = 1 then s.deviceReset cause master
  else if scope = 2 then s.pommelHalfStart cause master (swShadow .pommel)
  else if scope = 3 then s.cantleStart cause master (swShadow .cantle)
  else s

/-- A write of SU_RST (R456): performed with KEY 0xC3 and a defined scope. -/
def State.suRst (s : State) (m : Nat) (v : Word) : State :=
  let scope := bitsOf v 7 0
  if bitsOf v 15 8 = 0xC3 ∧ 1 ≤ scope ∧ scope ≤ 3 then s.resetScope scope (if m = 127 then 4 else 2) m else s.cfgErr 0x04E00004

/-- A reset of one scope by who asks for it: a write of SU_RST has the effect of the value written; the debug port may reset in
every lifecycle state (R486); a reaction's reset starts with its record's grace expiry, and has no effect of its own here. -/
def State.resetBy (s : State) (scope : Nat) (by_ : ResetBy) : State :=
  match by_ with
  | .suRst m v => s.regRow m 0x04E00010 v (fun s => s.suRst m.id v)
  | .debugPort => s.resetScope scope 4 127
  | .reaction => s

/-- DEVICE_RESET (R453). -/
def execDeviceReset (by_ : ResetBy) (s : State) : Result := .next (s.resetBy 1 by_)
/-- POMMEL_HALF_RESET (R454). -/
def execPommelHalfReset (by_ : ResetBy) (s : State) : Result := .next (s.resetBy 2 by_)
/-- CANTLE_CORE_RESET (R455). -/
def execCantleCoreReset (by_ : ResetBy) (s : State) : Result := .next (s.resetBy 3 by_)

/-- DEBUG_PORT_RESET (R378): every lock held by ID 127 is released, while PD_MGMT is on. -/
def execDebugPortReset (s : State) : Result := .next (if s.domOn domMGMT then s.releaseLocks 127 else s)

end Sys2Proof.Machine
end

