-- ==== Sys2Proof/Machine/RegView.lean ====
section
/-! DEFINITION. What a register reads (R9, R12, R17): the stored value, or for a read-only register of the machine's own
working state the value that state has now. No read effect stands here.
The log entries that hold here: DEDUCED 26, 33. -/

namespace Sys2Proof.Machine

/-! ## Views of the performance half (R103, R130, R181 to R183, R210, R211, R231, R232, R274) -/

/-- CE_ENG_LOADn and CE_A_LOAD (R104): an engine whose cluster is off reads 0. -/
def State.engLoad (s : State) (e : Nat) : Word :=
  if e < 64 && !s.domOn (ccDom (e / 8)) then 0#32
  else
    let held := (s.busySlots.filter (fun (k, x) => keyEngine k == e && x.st == .postHeld)).length
    BitVec.ofNat 32 (held * 256 + s.engBusy e)

/-- The CE_ block. -/
def State.ceView (s : State) (a : Nat) : Word :=
  let off := a % 0x100000
  if 0x100 ≤ off ∧ off < 0x200 ∧ off % 4 = 0 then s.engLoad ((off - 0x100) / 4)
  else if off = 0x80030 then s.engLoad 64
  else s.reg a

/-- The AD_ block: the sums of R112, the slots held and the station wait. -/
def State.adView (s : State) (a : Nat) : Word :=
  let off := a % 0x100000
  if off = 0x10 then BitVec.ofNat 32 s.linkUsedAll
  else if 0x100 ≤ off ∧ off < 0x180 ∧ off % 16 = 0 then BitVec.ofNat 32 (s.pgUsed ((off - 0x100) / 16) false)
  else if 0x200 ≤ off ∧ off < 0x300 ∧ off % 16 = 8 then BitVec.ofNat 32 (s.linkUsed ((off - 0x200) / 16))
  else if 0x200 ≤ off ∧ off < 0x300 ∧ off % 16 = 12 then BitVec.ofNat 32 (s.fnSlots ((off - 0x200) / 16))
  else if 0x400 ≤ off ∧ off < 0x500 ∧ off % 4 = 0 then BitVec.ofNat 32 (s.engUsed ((off - 0x400) / 4))
  else if off = 0x504 then
    let n := bitsOf (s.reg 0x04300500) 11 0
    if s.staOwner n = 16 then 0#32 else BitVec.ofNat 32 (ceilDiv (s.stationWait n s.time) 1200)
  else s.reg a

/-- QM_RING_CFG of a ring (R182); the context holds it as separate fields (R163). -/
def Ring.cfgWord (r : Ring) : Word :=
  BitVec.ofNat 32 (r.cq * 2 ^ 20 + r.mod * 2 ^ 16 + r.pfdepth * 2 ^ 14 + r.size * 2 ^ 8 + r.typ)

/-- QM_RING_STATE of a ring (R182). -/
def Ring.stateWord (r : Ring) : Word :=
  if r.typ = 1 then BitVec.ofNat 32 ((if r.lapx then 2 ^ 31 else 0) + r.st * 2 ^ 24 + r.errcode * 2 ^ 16 + r.head)
  else BitVec.ofNat 32 (r.st * 2 ^ 24)

/-- Word k of QM_ERR_MAP of function f: its local rings 32 k to 32 k + 31 in ERROR. -/
def State.errMap (s : State) (f k : Nat) : Word :=
  BitVec.ofNat 32 (bitsNat ((span 0 32).map (fun b =>
    decide (32 * k + b < s.shareCount f) && (s.ring (s.shareFirst f + 32 * k + b)).typ == 1 && (s.ring (s.shareFirst f + 32 * k + b)).st == 4)))

/-- The registers that act on the selected ring (R181, R210); a completion-ring register of another ring reads 0. -/
def Ring.view (r : Ring) (off : Nat) : Option Word :=
  let cq := fun (w : Word) => if r.typ = 2 then some w else some 0#32
  match off with
  | 0x14 => some (BitVec.ofNat 32 (r.base.toNat % 2 ^ 32))
  | 0x18 => some (BitVec.ofNat 32 (r.base.toNat / 2 ^ 32 % 2 ^ 31))
  | 0x1C => some r.cfgWord
  | 0x24 => some r.stateWord
  | 0x28 => some (BitVec.ofNat 32 r.errIndex)
  | 0x2C => some r.consumed
  | 0x30 => cq (BitVec.ofNat 32 (r.haddr.toNat % 2 ^ 32))
  | 0x34 => cq (BitVec.ofNat 32 (r.haddr.toNat / 2 ^ 32))
  | 0x38 => cq (BitVec.ofNat 32 (r.cnt * 2 ^ 24 + r.time))
  | 0x3C => cq (BitVec.ofNat 32 ((if r.wake then 2 ^ 31 else 0) + r.vector))
  | 0x300 => cq (BitVec.ofNat 32 r.stall)
  | 0x304 => cq (BitVec.ofNat 32 (r.tail * 2 ^ 16 + r.qhead))
  | 0x308 => cq (BitVec.ofNat 32 ((if r.lapw then 2 ^ 31 else 0) + (if r.blocked then 2 ^ 30 else 0) +
      (if r.modCount != 0 then 2 ^ 29 else 0) + r.parked * 2 ^ 14 + r.heldCount))
  | 0x30C => cq r.cqStatus
  | _ => none

/-- An offset that acts on the selected ring. -/
def ringOff (off : Nat) : Bool :=
  [0x14, 0x18, 0x1C, 0x24, 0x28, 0x2C, 0x30, 0x34, 0x38, 0x3C, 0x300, 0x304, 0x308, 0x30C].contains off

/-- Function f's QM_ view as requester m reads it. -/
def State.qmViewRead (s : State) (m f off a : Nat) : Word :=
  if off = 0 then BitVec.ofNat 32 (s.shareCount f * 2 ^ 16 + s.shareFirst f)
  else if off = 0x10 then s.reg (banked m a)
  else if 0x40 ≤ off ∧ off < 0x240 ∧ off % 4 = 0 then s.errMap f ((off - 0x40) / 4)
  else if off = 0x310 then BitVec.ofNat 32 (s.parkUsed f)
  else if ringOff off then
    match s.selRing m f with
    | some g => ((s.ring g).view off).getD 0#32
    | none => 0#32
  else s.reg a

/-- The QM_ block. -/
def State.qmView (s : State) (m a : Nat) : Word :=
  let f := a % 0x100000 / 0x10000
  let off := a % 0x10000
  if a = 0x04208008 then BitVec.ofNat 32 s.pfUsed
  else if off < 0x8000 then s.qmViewRead m f off a
  else s.reg a

/-- The HP_ block (R231): HP_LINK shows the link's low-power state, and the retimers that its training found. -/
def State.hpView (s : State) (a : Nat) : Word :=
  if a = hpLink then
    let v := putBits (s.reg a) 26 24 s.clState
    if bitsOf v 15 12 = 0 then v else putBits v 11 10 Config.retimers.val
  else s.reg a

/-- The FN_ block (R232, R375). -/
def State.fnView (s : State) (a : Nat) : Word :=
  let f := a % 0x100000 / 0x10000
  match a % 0x10000 with
  | 0 => BitVec.ofNat 32 (f * 2 ^ 28 + (s.fn f).vectors * 2 ^ 16)
  | 4 => s.reg a ||| bitWord 31 (s.fn f).resetAt.isSome
  | 0x18 => s.reg a ||| bitWord 0 (s.boxFull f) ||| bitWord 1 (s.boxFull (16 + f))
  | 0x14 => (SMap.get none s.boxes (16 + f)).getD 0#32
  | _ => s.reg a

/-- The SC_ block. -/
def State.scView (s : State) (a : Nat) : Word :=
  let c := a % 0x100000 / 0x10000
  match a % 0x10000 with
  | 0xC => (s.core c).stateWord
  | 0x2C => if (s.core c).st == .disabled then (s.core c).word .dmem (bitsOf (s.reg (scReg c 0x28)) 15 0) else 0#32
  | 0x40 => if c = 0 then BitVec.ofNat 32 s.shapeQ.length else 0#32
  | off =>
    match windowOf off with
    | some (k, o) => if (s.core c).st == .disabled then (s.core c).word k o else 0#32
    | none => s.reg a

/-! ## Views of the platform half (R158, R313 to R317, R351, R352) -/

/-- P_est of a source in 5 ns units: as NOM while it has none (R139, R158). -/
def State.periodOf (s : State) (n : Nat) : Nat :=
  if n = 0 then 200
  else
    let p := (s.src n).pest
    if p = 0 then s.srcNom n else p * s.tickLen / 6 / 256

/-- A source's registers from +0x10 on. -/
def State.srcView (s : State) (m n a : Nat) : Word :=
  let x := s.src n
  match a % 0x20 with
  | 0x10 => BitVec.ofNat 32 (x.glitch * 2 ^ 16 + x.relock * 2 ^ 8 + x.st.code)
  | 0x14 => BitVec.ofNat 32 (s.periodOf n)
  | 0x18 => BitVec.ofNat 32 (s.pos n)
  | 0x1C => s.reg (banked m a)
  | _ => s.reg a

/-- A launch of group g is in progress. -/
def State.sgBusy (s : State) (g : Nat) : Bool := s.launches.any (fun l => l.group == g)

/-- The TP_ block. -/
def State.tpView (s : State) (m a : Nat) : Word :=
  let off := a % 0x100000
  if off = 0xC then bitWord 0 s.tickAon
  else if 0x100 ≤ off ∧ off < 0x300 then s.srcView m ((off - 0x100) / 0x20) a
  else if 0x1000 ≤ off ∧ off < 0x1800 ∧ off % 8 = 0 then s.reg a ||| bitWord 29 (s.sgBusy ((off - 0x1000) / 8))
  else s.reg a

/-- The bytes of the selected station's descriptor and sense data (R288, R293, R315). -/
def State.staView (s : State) (n off : Nat) : Word :=
  let x := s.station n
  match off with
  | 0x100 => x.w0 ||| bitWord 30 (s.staBusy n)
  | 0x104 => x.w1
  | 0x108 => x.w2
  | 0x10C => x.w3
  | 0x110 => x.w4
  | _ => leWord ((x.senseBytes (s.staFlags n)).drop (off - 0x140))

/-- The PG_ block. -/
def State.pgView (s : State) (m a : Nat) : Word :=
  let off := a % 0x10000
  if a < 0x04780000 then
    (if off = 0x10 then
      BitVec.ofNat 32 (bitsNat ((span 0 12).map (fun k => (s.lane (12 * ((a - 0x04700000) / 0x10000) + k)).ball)))
    else s.reg a)
  else if a = 0x04780010 then s.reg (banked m a)
  else if (0x04780100 ≤ a ∧ a < 0x04780114 ∨ 0x04780140 ≤ a ∧ a < 0x04780160) ∧ a % 4 = 0 then s.staView (s.staSel m) off
  else s.reg a

/-- WIDTH of SF_CFG (R280, R317). -/
def widthCode (fn : Nat) : Nat := if itemBytes fn = 2 then 1 else if itemBytes fn = 4 then 2 else 0

/-- The SF_ block; the middle is unavailable to every FIFO while PD_MEM2 is off, and to one that has not drained since (R18, R310, R317). -/
def State.sfView (s : State) (a : Nat) : Word :=
  if a = 0x04880004 then BitVec.ofNat 32 s.poolUsed
  else if 0x04880000 ≤ a then s.reg a
  else
    let q := (a - 0x04800000) / 0x10000 * 24 + a % 0x10000 / 0x40
    if 0x40 * 24 ≤ a % 0x10000 then s.reg a
    else match a % 0x40 with
    | 0 => putBits (s.reg a) 15 14 (widthCode (s.laneFunc (q / 2)))
    | 8 => BitVec.ofNat 32 (s.fifo q).words.length
    | 0xC => s.reg a ||| bitWord 5 (!s.domOn (memDom 2) || (decide (0 < s.fifoChunks q) && !(s.fifo q).spillOn))
    | _ => s.reg a

/-- The MS_ block. -/
def State.msView (s : State) (m a : Nat) : Word :=
  if a = 0x0490000C then
    BitVec.ofNat 32 (bitsNat [s.domOn 22, s.domOn 23, s.domOn 24, s.domOn 25, s.domOn 1, false, false, false,
      s.domOn 18, s.domOn 19, s.domOn 20, s.domOn 21])
  else if a = 0x04900030 then s.reg (banked m a)
  else if a = 0x04900034 then
    let e := bitsOf (s.reg (banked m 0x04900030)) 7 0
    if e < 204 then s.remapEnt e else 0#32
  else s.reg a

/-! ## Views of the management blocks (R367, R368, R376, R379, R410, R411, R440, R441) -/

/-- IC_SRCn (R368). -/
def State.irqWord (s : State) (n : Nat) : Word :=
  let x := s.irqSrc n
  BitVec.ofNat 32 ((if x.en then 2 ^ 31 else 0) + (if x.wake then 2 ^ 30 else 0) + (if irqLevel n then 2 ^ 29 else 0) +
    (if x.pend then 2 ^ 28 else 0) + (if x.active then 2 ^ 27 else 0) + x.target * 2 ^ 16 + x.prio)

/-- IC_PRCp_RUN (R368). -/
def State.runWord (s : State) (p : Nat) : Word :=
  let nact := (s.irqs.filter (fun (_, x) => x.active && x.holder == p)).length
  match s.claimable p with
  | some (n, _) => BitVec.ofNat 32 (2 ^ 31 + s.runOf p * 2 ^ 20 + min nact 15 * 2 ^ 16 + n)
  | none => BitVec.ofNat 32 (s.runOf p * 2 ^ 20 + min nact 15 * 2 ^ 16)

/-- The IC_ block. -/
def State.icView (s : State) (a : Nat) : Word :=
  let off := a % 0x100000
  if 0x100 ≤ off ∧ off < 0x220 ∧ off % 16 = 4 then s.runWord ((off - 0x100) / 16)
  else if 0x400 ≤ off ∧ off < 0x480 ∧ off % 4 = 0 then
    BitVec.ofNat 32 (bitsNat ((span 0 32).map (fun b => (s.irqSrc (32 * ((off - 0x400) / 4) + b)).pend)))
  else if 0x500 ≤ off ∧ off < 0x580 ∧ off % 4 = 0 then
    BitVec.ofNat 32 (bitsNat ((span 0 32).map (fun b => (s.irqSrc (32 * ((off - 0x500) / 4) + b)).active)))
  else if 0x1000 ≤ off ∧ off < 0x2000 ∧ off % 4 = 0 then
    (if irqReserved ((off - 0x1000) / 4) then 0#32 else s.irqWord ((off - 0x1000) / 4))
  else s.reg a

/-- The word in a box, or 0. -/
def State.boxWord (s : State) (b : Nat) : Word := (SMap.get none s.boxes b).getD 0#32

/-- The MB_ and LK_ blocks. -/
def State.mbView (s : State) (a : Nat) : Word :=
  let off := a % 0x100000
  if 0x1000 ≤ off ∧ off < 0x1100 then
    let f := (off - 0x1000) / 16
    match off % 16 with
    | 0 => s.boxWord f
    | 4 => s.boxWord (16 + f)
    | 8 => s.reg a ||| bitWord 0 (s.boxFull f) ||| bitWord 1 (s.boxFull (16 + f))
    | _ => s.reg a
  else if off = 0x2000 ∨ off = 0x2004 then s.boxWord 32
  else if off = 0x2008 ∨ off = 0x200C then s.boxWord 33
  else if off = 0x2010 then s.reg a ||| bitWord 0 (s.boxFull 32) ||| bitWord 1 (s.boxFull 33)
  else if 0x82000 ≤ off ∧ off < 0x82400 ∧ off % 4 = 0 then s.reg (a - 0x1000)
  else s.reg a

/-- The FC_ block. -/
def State.fcView (s : State) (a : Nat) : Word :=
  let off := a % 0x100000
  if a = fcStatus then s.reg a ||| bitWord 31 s.faultN ||| bitWord 30 s.ftReact.isSome
  else if 0x100 ≤ off ∧ off < 0x300 ∧ off % 8 = 0 then
    (match s.openAt ((off - 0x100) / 8) with | some x => BitVec.ofNat 32 x.seq | none => 0#32)
  else if 0x100 ≤ off ∧ off < 0x300 ∧ off % 8 = 4 then openState (s.openAt ((off - 0x100) / 8))
  else if 0x400 ≤ off ∧ off < 0x4C0 ∧ off % 4 = 0 then s.reg a ||| bitWord 3 (s.condOf ((off - 0x400) / 4))
  else s.reg a

/-- PM_MODE (R441). -/
def State.modeWord (s : State) : Word :=
  match s.trans with
  | some (t, _) => BitVec.ofNat 32 (2 ^ 31 + t * 2 ^ 24 + s.mode)
  | none => BitVec.ofNat 32 s.mode

/-- PM_DOM (R441). -/
def State.domWord (s : State) : Word :=
  BitVec.ofNat 32 (bitsNat ((span 0 30).map (fun d => s.domOn d)) + (if s.dom 22 = 4 then 2 ^ 30 else 0))

/-- PM_HB (R435, R441). -/
def State.hbWord (s : State) : Word :=
  let age := match s.kickP with | some t => min ((s.live - t) / 1200) 0xFFFFFF | none => 0xFFFFFF
  BitVec.ofNat 32 ((if s.alive then 2 ^ 31 else 0) + age)

/-- The PM_ block. -/
def State.pmView (s : State) (a : Nat) : Word :=
  match a % 0x100000 with
  | 0x4 => s.reg a ||| bitWord 31 s.waken.isSome ||| bitWord 30 s.timerArm ||| bitWord 29 s.prep.isSome
  | 0x8 => s.modeWord
  | 0x1C => s.hbWord
  | 0x20 => s.domWord
  | _ => s.reg a

/-- The JN_ block (R508): window fill and, in replay, replay time. -/
def State.jnView (s : State) (a : Nat) : Word :=
  match a % 0x100000 with
  | 0x28 => BitVec.ofNat 32 s.winUsed
  | 0x48 => if s.jnState = 5 then BitVec.ofNat 32 (s.t0 % 2 ^ 32) else s.reg a
  | 0x4C => if s.jnState = 5 then BitVec.ofNat 32 (s.t0 / 2 ^ 32) else s.reg a
  | _ => s.reg a

/-- What a 32-bit read of the register at `a` returns to master m, without its read effects; an unlisted offset reads 0. -/
def State.regValue (s : State) (m a : Nat) : Word :=
  match a / 0x100000 with
  | 0x40 => s.hpView a
  | 0x41 => s.fnView a
  | 0x42 => s.qmView m a
  | 0x43 => s.adView a
  | 0x44 => s.ceView a
  | 0x45 => s.tpView m a
  | 0x46 => s.scView a
  | 0x47 => s.pgView m a
  | 0x48 => s.sfView a
  | 0x49 => s.msView m a
  | 0x4A => s.icView a
  | 0x4B => s.mbView a
  | 0x4C => s.fcView a
  | 0x4D => s.pmView a
  | 0x4F => s.jnView a
  | _ => s.reg a

end Sys2Proof.Machine
end

