-- ==== Sys2Proof/Machine/Journal.lean ====
section
/-! DEFINITION. The journal's sessions (chapter 17): hold, quiet, checkpoint, records leaving the window, the journal ring,
and the commands that start and end a session or a replay (R494 to R500, R503, R507). What a replay executes stands in
Replay.lean.
The log entries that hold here: DESIGN CHOICE 82; DEDUCED 43, 44, 45. -/

namespace Sys2Proof.Machine

/-! ## Registers -/

def jnStatusReg : Nat := 0x04F00004
def jnCtrl : Nat := 0x04F00008
def jnStateReg : Nat := 0x04F00010
def State.jnCfgErr (s : State) : State := s.cfgErr jnStatusReg

/-- JN_STATE reads OFF or DONE. -/
def State.jnFree (s : State) : Bool := s.jnState == 0 || s.jnState == 6

/-- Base, size and control block of PF0's journal ring (R498). -/
def State.jnBase (s : State) : Nat := (s.reg 0x04F00018).toNat + 2 ^ 32 * (s.reg 0x04F0001C).toNat
def State.jnSize (s : State) : Nat := 2 ^ bitsOf (s.reg jnCtrl) 23 19
def State.jnCtl (s : State) : Nat := (s.reg 0x04F00020).toNat + 2 ^ 32 * (s.reg 0x04F00024).toNat

/-- The JN_ results of the session or replay before are cleared (R507). -/
def State.jnClear (s : State) : State :=
  let s := [0x34, 0x38, 0x3C, 0x40, 0x44].foldl (fun t o => t.setReg (0x04F00000 + o) 0#32) s
  s.setReg jnStatusReg (s.reg jnStatusReg &&& 0xFFFFFFBF#32)

/-! ## Hold and release (R494, R500) -/

/-- Every work queue of a recorded function enters HELD and gives up its buffer; a START that Weir has not tested goes back to its
queue. -/
def State.jnHoldAll (s : State) : State :=
  let s := (s.weir.filter (fun x => s.jnHolds x.fn)).foldl (fun t x => t.sendBack x) s
  let s := (s.rings.map (fun p => p.1)).foldl (fun t g =>
    let r := t.ring g
    match t.ringFn g with
    | some f =>
      if r.typ == 1 && (r.st == 1 || r.st == 2) && t.jnHolds f then
        t.setRing g { r with st := 3, buf := false, units := [], reads := [], need := none, jnHold := true }
      else t
    | none => t) s
  s.grantBuffers

/-- Queues that the journal held and holds no longer leave HELD and read from HEAD afresh. -/
def State.jnRelease (s : State) : State :=
  if s.jnState = 1 ∨ s.jnState = 2 then s
  else (s.rings.map (fun p => p.1)).foldl (fun t g =>
    let r := t.ring g
    if !r.jnHold then t
    else
      let t := t.setRing g { r with jnHold := false }
      match t.ringFn g with
      | some f => if r.typ == 1 && r.st == 3 then t.enterScan g f else t
      | none => t) s

/-- JN_CMD is written with START (R494, R500). -/
def State.jnStart (s : State) : State :=
  if !s.jnFree then s.jnCfgErr
  else if !(s.domOn domJNL && s.domOn (memDom 3)) then s
  else
    let n := (s.jn.session + 1) % 65536
    let s : State := { s.jnClear with jn := { session := n, holdFrom := s.time } }
    (s.setReg jnStateReg (BitVec.ofNat 32 (n * 65536 + 1))).jnHoldAll

/-- JN_CMD is written with STOP (R496, R500). -/
def State.jnStop (s : State) : State :=
  if s.jnState = 1 then (s.setJnState 6).jnRelease
  else if s.recording then ((s.jn.samples.foldl (fun t (l, _) => t.jSamplesEnd l) s).jend 0).jnRelease
  else s

/-- A write of JN_CMD (R508). -/
def State.jnCmd (s : State) (c : Nat) : State :=
  if c = 1 then s.jnStart else if c = 2 then s.jnStop else if c = 3 then s.jnCfgErr else s

/-- JN_START (R494). -/
def execJnStart (m : Master) (s : State) : Result := .next (s.regRow m 0x04F0000C 1#32 (fun s => s.jnCmd 1))
/-- JN_STOP (R496). -/
def execJnStop (m : Master) (s : State) : Result := .next (s.regRow m 0x04F0000C 2#32 (fun s => s.jnCmd 2))

/-- The recorded functions are quiet (R494): no slot bound, park shares empty, no strike group BUSY. -/
def State.jnQuiet (s : State) : Bool :=
  (span 0 16).all (fun f => !s.recFn f ||
    (!s.busySlots.any (fun (k, x) => keyEngine k != 64 && x.owner == f) && s.parkUsed f == 0)) &&
  s.launches.all (fun l => !s.recFn (s.sgOwner l.group))

/-! ## The checkpoint (R495) -/

/-- A 32-bit word of the checkpoint: the register's value, and for POSHI the position itself. -/
def State.ckptReg (s : State) (a : Nat) : Nat :=
  if 0x04500100 ≤ a ∧ a < 0x04500300 ∧ a % 0x20 = 0x1C then s.pos ((a - 0x04500100) / 0x20) / 2 ^ 32 % 2 ^ 32
  else (s.regValue 1 a).toNat

/-- `n` 64-bit words of registers from `a`. -/
def State.ckptRegs (s : State) (a n : Nat) : Nat × List Nat :=
  (a, (span 0 n).map (fun i => s.ckptReg (a + 8 * i) + 2 ^ 32 * s.ckptReg (a + 8 * i + 4)))

/-- The 64-bit words of bytes; bytes without a stated layout count as 0. -/
def ckptBytes (a : Nat) (bs : List (Option Byte)) : Nat × List Nat :=
  (a, wordsOf (bs.length / 8 + 1) (bs.map (fun b => b.getD 0#8)))

/-- Words of a core's store in pieces of 64. -/
def ckptStore (x : ScCore) (k : ScStore) (a n : Nat) : List (Nat × List Nat) :=
  (span 0 (n / 64)).map (fun p =>
    (a + 512 * p, (span 0 64).map (fun i =>
      (x.word k (512 * p + 8 * i)).toNat + 2 ^ 32 * (x.word k (512 * p + 8 * i + 4)).toNat)))

/-- Memory from `a` in pieces of 64 words. -/
def State.ckptMem (s : State) (a n : Nat) : List (Nat × List Nat) :=
  (span 0 ((n + 511) / 512)).map (fun p => (a + 512 * p, wordsOf 64 (s.bytesAt (a + 512 * p) (Nat.min 512 (n - 512 * p)))))

/-- Where the pieces of state that has no local address name themselves: a core's DMEM, a FIFO, a ring's moderation. -/
def ckptDmem (c : Nat) : Nat := 0x05000000 + 0x10000 * c
def ckptFifo (q : Nat) : Nat := 0x05200000 + 512 * q
def ckptMod (g : Nat) : Nat := 0x05400000 + 32 * g

/-- A FIFO: a piece for the bytes not yet closed into a word, then one piece for each of its words. -/
def State.ckptFifoWords (s : State) (q : Nat) : List (Nat × List Nat) :=
  let x := s.fifo q
  let b := fun (c : Bool) (n : Nat) => if c then n else 0
  if x = {} then []
  else (ckptFifo q, (x.part.length + b x.partBad 256 + b x.spillOn 512 + b x.begun 1024 + 2048) :: wordsOf 63 x.part) ::
    x.words.map (fun w => (ckptFifo q, (w.data.length + b w.poison 256 + b w.eop 512) :: wordsOf 63 w.data))

/-- A completion ring's moderation: its count, its running timer and the threshold in force (R202). -/
def State.ckptModWords (s : State) (g : Nat) : Nat × List Nat :=
  let r := s.ring g
  (ckptMod g, [r.modCount, (match r.modFrom with | some t => s.time - t + 1 | none => 0), r.timeIn])

/-- The pieces of the checkpoint: staging shares, registers, ring contexts and moderation, descriptors, profiles, FIFO words,
action entries and shaping-core stores (R495). -/
def State.checkpoint (s : State) : List (Nat × List Nat) :=
  let fns := (span 0 16).filter s.recFn
  let rings := (s.rings.map (fun p => p.1)).filter (fun g => match s.ringFn g with | some f => s.recFn f | none => false)
  let stas := (s.stations.map (fun p => p.1)).filter (fun n => s.staVALID n && s.recFn (s.staOwner n))
  let groups := (span 0 256).filter (fun g => s.recFn (s.sgOwner g) && s.reg (sgCtrl g) != 0#32)
  let cores := (span 0 16).filter (fun c => bit (s.reg (scReg c 8)) 0)
  [s.ckptRegs 0x04300008 1, s.ckptRegs 0x04400008 2, s.ckptRegs 0x04A00600 32] ++
    fns.flatMap (fun f => s.ckptRegs (0x04300200 + 16 * f) 2 ::
      (s.ckptMem (s.stage f 0) (s.stage f 1) ++ s.ckptMem (s.stage f 2) (s.stage f 3))) ++
    rings.flatMap (fun g => [ckptBytes (0x00400000 + 64 * g) (s.ringBytes g), s.ckptModWords g]) ++
    stas.flatMap (fun n =>
      (ckptBytes (0x00500000 + 128 * n)
        (leBytes 20 ((s.station n).w0.toNat + 2 ^ 32 * ((s.station n).w1.toNat + 2 ^ 32 * ((s.station n).w2.toNat +
          2 ^ 32 * ((s.station n).w3.toNat + 2 ^ 32 * (s.station n).w4.toNat)))) ++ rep 12 0#8 ++ (s.station n).senseBytes (s.staFlags n) |>.map some)) ::
      [s.ckptRegs (profileAddr (s.staProfile n)) 64, s.ckptRegs (profileAddr (s.staProfile n) + 512) 64] ++
      (s.stationLanes n).flatMap (fun l =>
        [s.ckptRegs (laneFnAddr l) 2, s.ckptRegs (fifoAddr (2 * l)) 1, s.ckptRegs (fifoAddr (2 * l + 1)) 1] ++
        s.ckptFifoWords (2 * l) ++ s.ckptFifoWords (2 * l + 1))) ++
    [s.ckptRegs 0x04500000 2, s.ckptRegs 0x04500100 64] ++
    groups.flatMap (fun g =>
      s.ckptRegs (sgCtrl g) 1 ::
      (span (bitsOf (s.reg (sgCtrl g)) 10 0 / 2) (bitsOf (s.reg (sgCtrl g)) 17 11 / 2 + 1)).map (fun i => s.ckptRegs (0x04502000 + 8 * i) 1)) ++
    cores.flatMap (fun c =>
      ckptStore (s.core c) .imem (scReg c 0x8000) 4096 ++ ckptStore (s.core c) .ucode (scReg c 0x1000) 512 ++
      ckptStore (s.core c) .dmem (ckptDmem c) 8192 ++ [s.ckptRegs (scReg c 0) 9])

/-- A CKPT record (R490). -/
def ckptRec (t : Nat) (p : Nat × List Nat) : JRec := { at_ := t, type := 2, srcid := 0, payload := p.1 :: p.2, damaged := false }

/-- The checkpoint tick (R494, R495): SESSION, TIME and, unless WINDOW mode has no room for it, the checkpoint. -/
def State.jnCapture (s : State) : State :=
  let recs := s.checkpoint.map (ckptRec s.time)
  let bytes : Nat := recs.foldl (fun n r => n + r.bytes) 0
  let no := decide (s.jnDest = 0) && decide (0x100000 < bytes)
  let head := s.jn.session * 2 ^ 32 + (s.reg 0x04F00014).toNat % 65536 * 2 ^ 16 + s.fuses.dieRev.toNat * 256 + 16 + (if no then 8 else 0)
  let s := (s.setJnState 2).setReg 0x04F0002C 0#32
  let s : State := { s with jn := { s.jn with base := s.time, recs := [], total := 0, flags := 0 } }
  let s := s.jput { at_ := s.time, type := 1, srcid := 0, payload := [head, s.t0, s.fuses.serial.toNat, if no then 0 else bytes], damaged := false }
  let s := s.jput { at_ := s.time, type := 3, srcid := 0, payload := [s.t0], damaged := false }
  if no then s else recs.foldl (fun t r => t.jput r) s

/-- QUIET_REACHED (R494). -/
def quietReached (s : State) : State := if s.jnState = 1 ∧ s.jnQuiet then s.jnCapture else s

def execQuietReached (s : State) : Result := .next (quietReached s)

/-- QUIET_TIMEOUT (R494): QTMO milliseconds have passed in the hold. -/
def quietTimeout (s : State) : State :=
  if s.jnState = 1 ∧ s.jn.holdFrom + bitsOf (s.reg jnCtrl) 31 24 * 1200000 ≤ s.time then ((s.setJnState 6).jnStatus 8#32).jnRelease else s

def execQuietTimeout (s : State) : Result := .next (quietTimeout s)

/-- CHECKPOINT_DONE (R494): recording goes on, and the queues leave HELD. -/
def checkpointDone (s : State) : State := if s.jnState = 2 then (s.setJnState 3).jnRelease else s

def execCheckpointDone (s : State) : Result := .next (checkpointDone s)

/-! ## The journal ring (R497, R498) -/

/-- A journal host write of PF0, which replay does not discard (R498, R504). -/
def State.jnHostWrite (s : State) (a : Nat) (d : List Byte) : State := { s with out := s.out ++ [.hostWrite 0 a d false false] }

/-- The tunnel carries PF0's journal requests; in replay the live tunnel counts (R504). -/
def State.jnLink (s : State) : Bool :=
  if s.jnState = 5 then s.jn.liveTun == .carried else s.canIssue 0

/-- The records at the head of the window that the ring has room for, with their bytes. -/
def takeRecs (s : State) (room : Nat) : Nat → List JRec → List JRec × List Byte
  | _, [] => ([], [])
  | prev, r :: rs =>
    if r.bytes ≤ room then
      let (l, b) := takeRecs s (room - r.bytes) r.at_ rs
      (r :: l, leBytes 8 (s.recHeader prev r) ++ r.payload.flatMap (fun p => leBytes 8 p) ++ b)
    else ([], [])

/-- The records that the ring has room for are read from the window (R330, R498). -/
def State.jnFetch (s : State) : State :=
  s.readFront (takeRecs s (s.jnSize - (s.jn.prod - s.jn.cons)) s.jn.base s.jn.recs).1.length

/-- Records leave the window. -/
def State.jnTake (s : State) (l : List JRec) : State :=
  match l.getLast? with
  | some r => { s with jn := { s.jn with recs := s.jn.recs.drop l.length, base := r.at_, annFrom := if l.length = s.jn.recs.length then none else s.jn.annFrom } }
  | none => s

/-- A byte stream goes to the ring from byte count p on, wrapping at its end (R498). -/
def State.jnStream (s : State) (p : Nat) (b : List Byte) : State :=
  let o := p % s.jnSize
  let n := s.jnSize - o
  let s := if b.isEmpty then s else s.jnHostWrite (s.jnBase + o) (b.take n)
  if n < b.length then s.jnHostWrite s.jnBase (b.drop n) else s

/-- The read of CONS or PROD in the control block. -/
def State.jnCtlRead (s : State) (off : Nat) : State := { s with out := s.out ++ [.hostRead 0 (s.jnCtl + off) 8] }

/-- 4 KiB wait in the window, or 20 microseconds have passed since the first unannounced byte (R498). -/
def State.jnDue (s : State) : Bool :=
  decide (4096 ≤ s.winUsed) || (match s.jn.annFrom with | some t => decide (t + 20 * 1200 ≤ s.time) | none => false)

/-- PROD_ANNOUNCE (R497, R498): the window drains into PF0's journal ring and PROD is written; without free space CONS is
read. With DEST DEBUG the records leave through the debug port. -/
def prodAnnounce (s : State) : State :=
  if !(s.recording || s.jnState == 6) || s.jn.recs.isEmpty || !s.jnDue then s
  else if s.jnDest = 2 then
    let s := s.readFront s.jn.recs.length
    let (l, b) := takeRecs s s.winUsed s.jn.base s.jn.recs
    (s.jnTake l).emit (.debug true b)
  else if s.jnDest ≠ 1 || !s.jnLink then s
  else
    let s := s.jnFetch
    let (l, b) := takeRecs s (s.jnSize - (s.jn.prod - s.jn.cons)) s.jn.base s.jn.recs
    if l.isEmpty then s.jnCtlRead 8
    else
      let t := (s.jnTake l).jnStream s.jn.prod b
      let p := s.jn.prod + b.length
      State.jnHostWrite { t with jn := { t.jn with prod := p } } s.jnCtl (leBytes 8 p)

def execProdAnnounce (s : State) : Result := .next (prodAnnounce s)

/-- The other party's count is rejected, or its read fails (R498): group 45 detector 2. -/
def State.jnReject (s : State) : State := s.report 45 2 0 31 0 0 0#32

/-- CONS_POLL (R498): CONS, or in a replay PROD, is read from the control block every 100 microseconds. -/
def consPoll (s : State) (r : HostResult) : State :=
  let replay := s.jnState == 4 || s.jnState == 5
  let busy := (s.recording || (s.jnState == 6 && !s.jn.recs.isEmpty)) && s.jnDest == 1
  if !(replay || busy) || !s.jnLink || decide (s.live < s.jn.pollAt) then s
  else
    let s := State.jnCtlRead { s with jn := { s.jn with pollAt := s.live + 100 * 1200 } } (if replay then 0 else 8)
    match r with
    | .ok d =>
      let v := leNat (d.take 8)
      if replay then (if s.jn.cons ≤ v ∧ v ≤ s.jn.cons + s.jnSize then { s with jn := { s.jn with prod := v } } else s.jnReject)
      else if v ≤ s.jn.prod ∧ s.jn.cons ≤ v then { s with jn := { s.jn with cons := v } }
      else s.jnReject
    | _ => s.jnReject

def execConsPoll (r : HostResult) (s : State) : Result := .next (consPoll s r)

/-! ## Replay begins and ends (R503, R507) -/

/-- The conditions of R503 beside the mode. -/
def State.replayOk (s : State) : Bool :=
  (s.life == 1 || s.life == 2) && s.domOn domJNL && s.domOn (memDom 3) && s.jnFree && s.jnDest == 1 && s.forcedSafe &&
    !s.busySlots.any (fun (k, _) => keyEngine k != 64) && s.rings.all (fun (_, r) => r.st == 0) && !bit (s.reg 0x04480000) 0

/-- REPLAY_ENTER (R415, R503): by the Pommel core, in SERVICE; the checkpoint then loads. -/
def State.replayEnter (s : State) (m : Master) : State :=
  if m = .pommel ∧ s.mode = 0xB ∧ s.trans.isNone ∧ s.replayOk then
    let s : State := { s.jnClear with jn := { session := s.jn.session } }
    { s.setJnState 4 with trans := some (0xA, s.time) }
  else s.cfgErr pmStatus

/-- REPLAY_ENTER (R503): a write of PM_CTRL. -/
def execReplayEnter (m : Master) (s : State) : Result := .next (s.regRow m 0x04D00010 4#32 (fun s => s.replayEnter m))

/-- A replay cannot start (R503): back to SERVICE, with STARTFAIL. -/
def State.replayFail (s : State) : State := { ((s.setJnState 6).jnStatus 8#32) with trans := none }

/-- A replay ends (R506, R507): recorded digests without a counterpart are MISSING, bound slots end as under R79, every ring
is DISABLED, the live T0 returns, RDONE sets, and the part returns to SERVICE. -/
def State.replayFinish (s : State) : State :=
  let s := (s.jn.expect.filter (fun d => !s.jn.exact || decide (d.at_ < s.time))).foldl (fun t d => t.diverge 3 d.srcid d.word0) s
  let s := ((s.busySlots.map (fun p => p.1)).filter (fun k => keyEngine k != 64)).foldl (fun t k => t.slotFnReset k) s
  let s := (s.rings.map (fun p => p.1)).foldl (fun t g => t.ringFnReset g) s
  let s := s.setReg 0x04F00048 (BitVec.ofNat 32 (s.t0 % 2 ^ 32))
  let s := s.setReg 0x04F0004C (BitVec.ofNat 32 (s.t0 / 2 ^ 32))
  let s := if s.jnState = 5 then s.rebase s.time s.jn.live else s
  let s : State := if s.jnState = 5 then { s with time := s.jn.live, tunnel := s.jn.liveTun, fns := s.jn.liveFns } else s
  let s : State := { s with
    jn := { s.jn with recs := [], expect := [], bytesIn := [], samplesIn := [], answers := [], stalled := false, stopReq := false } }
  let s := ((s.setJnState 6).jnStatus 0x20#32).irq 467
  State.powerStep { s with trans := some (0xB, s.time) }

/-- REPLAY_EXIT (R415, R507). -/
def State.replayExit (s : State) (m : Master) : State :=
  if m = .pommel ∧ s.mode = 0xA ∧ s.trans.isNone then s.replayFinish else s.cfgErr pmStatus

/-- REPLAY_EXIT (R507): a write of PM_CTRL. -/
def execReplayExit (m : Master) (s : State) : Result := .next (s.regRow m 0x04D00010 8#32 (fun s => s.replayExit m))

/-- REPLAY_STALL (R505): the window holds less than 200 microseconds of records beyond replay time, and no end. -/
def State.replayDry (s : State) : Bool :=
  decide (s.jn.lastAt < s.time + 200 * 1200) && !s.jn.recs.any (fun r => r.type == 4 || r.type == 5)

def replayStall (s : State) : State := if s.jnState = 5 ∧ s.replayDry then { s with jn := { s.jn with stalled := true } } else s

def execReplayStall (s : State) : Result := .next (replayStall s)

/-- REPLAY_END (R507): the end named has been reached. -/
def replayEnd (s : State) (why : ReplayEndWhy) : State :=
  if s.jnState ≠ 5 then s
  else
    let at_ := fun (ty : Nat) => match s.jn.recs with | r :: _ => r.type == ty && decide (r.at_ ≤ s.time) | [] => false
    let due := match why with | .endRecord => at_ 5 | .gap => at_ 4 | .stop => s.jn.stopReq
    if due then s.replayFinish else s

def execReplayEnd (why : ReplayEndWhy) (s : State) : Result := .next (replayEnd s why)

/-! ## JN_CTRL (R497, R508, R509) -/

/-- A write of JN_CTRL: only while JN_STATE is OFF or DONE; DEST DEBUG only in BLANK and DEVELOP. -/
def State.jnCtrlWrite (s : State) (v : Word) : State :=
  if !s.jnFree then s.jnCfgErr
  else if bitsOf v 3 2 = 2 ∧ ¬ s.life ≤ 1 then s.jnCfgErr
  else s.plainWrite jnCtrl v jnStatusReg

/-- What the recorder does by itself as time passes (R490, R494): open SAMPLES close, and held queues are released. -/
def State.jnSettle (s : State) : State := s.jSamplesDue.jnRelease

end Sys2Proof.Machine
end

