-- ==== Sys2Proof/Machine/RegOps.lean ====
section
/-! DEFINITION. REGISTER_WRITE (R9): one access to any register, by address: what each write stores or does, each read's
effect, the host's BAR0 (R219), and the restarts of status bits whose cause is still present (R10).
The log entries that hold here: DESIGN CHOICE 4; DEDUCED 26, 28, 78. -/

namespace Sys2Proof.Machine

/-! ## Status registers (R9, R10) -/

/-- The VALID registers that clear with a bit of a status register: bit and address. -/
def validOf (a : Nat) : List (Nat × Nat) :=
  if a = 0x04400004 then [(1, 0x04400020)]
  else if a = 0x04300004 then [(1, 0x04300014)]
  else if a = 0x04500004 then [(3, 0x04500010)]
  else if 0x04700000 ≤ a ∧ a < 0x04780000 ∧ a % 0x10000 = 4 then [(1, a + 8)]
  else if a = 0x04A00004 then [(1, 0x04A00020)]
  else if a = 0x04B00004 then [(0, 0x04B00008)]
  else if a = 0x04B80004 then [(1, 0x04B80008)]
  else if a = 0x04F00004 then [(6, 0x04F00038)]
  else []

/-- Clear VALID, bit 31, of a register. -/
def State.unvalid (s : State) (a : Nat) : State := s.setReg a (s.reg a &&& 0x7FFFFFFF#32)

/-- An RW1C write of a status register with its VALID registers. -/
def State.statusWrite (s : State) (a : Nat) (v : Word) : State :=
  (validOf a).foldl (fun t (i, r) => if bit v i then t.unvalid r else t) (s.plainWrite a v a)

/-- The readback faults of port group n that stand: reported, and not gone (R300, R381). -/
def State.rbFaults (s : State) (n : Nat) : List Nat :=
  ((s.conds ++ s.reports).filter (fun c => c.group.val == 21 + n && decide (c.det.val < 12) && c.cond)).map (fun c => 12 * n + c.det.val)

/-- A write of PG_STATUS (R10, R277, R300): RBERR sets again while a readback fault stands, and VMISMATCH while the supply does not
match; once it is clear with a matching supply the lanes take their levels. -/
def State.pgStatusWrite (s : State) (n : Nat) (v : Word) : State :=
  let a := pgStatus n
  let was := bit (s.reg a) 2
  let s := s.statusWrite a v
  let s := if bit v 1 then (s.rbFaults n).foldl (fun t l => t.rbErr l) s else s
  if was && bit v 2 then
    if s.vioWrong n then s.setStatus a 4#32
    else (span (12 * n) 12).foldl (fun t l => if (t.lane l).xfer.isNone then t.laneIdle l else t) s
  else s

/-- A write of MS_STATUS: VALID of MS_ERR_INFO clears with the bit of its KIND (R352). -/
def State.msStatusWrite (s : State) (v : Word) : State :=
  let s := s.plainWrite 0x04900004 v 0x04900004
  let k := bitsOf (s.reg 0x04900014) 30 28
  if 1 ≤ k ∧ k ≤ 3 ∧ bit v k then s.unvalid 0x04900014 else s

/-! ## FN_ and QM_ views (R181, R182, R210, R211, R232, R372, R375, R472, R473) -/

/-- FN_STATUS of a function, and its CFGERR. -/
def fnStatus (f : Nat) : Nat := 0x04100004 + 0x10000 * f
def State.fnCfgErr (s : State) (f : Nat) : State := s.setReg (fnStatus f) (s.reg (fnStatus f) ||| 1#32)

/-- FN_DICT_STAT. -/
def dictStat : Nat := 0x04100114

/-- A write of FN_DICT_GO (R473): the request is submitted. -/
def State.dictGo (s : State) (v : Word) : State :=
  if bit (s.reg dictStat) 31 || v != 1#32 then s.fnCfgErr 0
  else s.setReg dictStat (s.reg dictStat ||| 0x80000000#32)

/-- A write of PF0's dictionary channel. -/
def State.fnDictStore (s : State) (a : Nat) (v : Word) : State :=
  if a = 0x04100110 then s.dictGo v
  else if (a = 0x04100100 ∨ a = 0x04100104 ∨ a = 0x04100108 ∨ (0x04100140 ≤ a ∧ a < 0x041001C0)) ∧ bit (s.reg dictStat) 31 then s.fnCfgErr 0
  else s.plainWrite a v (fnStatus 0)

/-- A write of FN_MB_CTRL (R372). -/
def State.fnMbCtrl (s : State) (f : Nat) (v : Word) : State :=
  let a := 0x0410001C + 0x10000 * f
  if bit v 31 && decide ((s.fn f).vectors ≤ bitsOf v 9 0) then s.fnCfgErr f else s.setReg a (v &&& 0xC00003FF#32)

/-- A write of the FN_ block. -/
def State.fnStore (s : State) (m : Master) (a : Nat) (v : Word) : State :=
  let f := a % 0x100000 / 0x10000
  match a % 0x10000 with
  | 0x08 => s.fnResetWrite f v
  | 0x10 => s.boxWrite m f v
  | 0x18 => (s.plainWrite a v a).crossFn f
  | 0x1C => s.fnMbCtrl f v
  | off => if f = 0 ∧ 0x100 ≤ off then s.fnDictStore a v else s.plainWrite a v (fnStatus f)

/-- A write of QM_RING_CFG: fields with reserved values keep theirs (R13, R182). -/
def Ring.cfgWrite (r : Ring) (v : Word) : Ring × Bool :=
  let md := bitsOf v 17 16
  let sz := bitsOf v 12 8
  let ty := bitsOf v 1 0
  let szOk := decide (10 ≤ sz) && decide (sz ≤ 20)
  ({ r with
      cq := bitsOf v 31 20, pfdepth := bitsOf v 15 14
      mod := if md = 3 then r.mod else md
      size := if szOk then sz else r.size
      typ := if ty = 3 then r.typ else ty },
   md == 3 || !szOk || ty == 3)

/-- A write of a register that acts on the selected ring g of function f (R181, R210). -/
def State.ringStore (s : State) (f g off : Nat) (v : Word) : State :=
  let r := s.ring g
  let lo := v.toNat
  if off = 0x14 ∨ off = 0x18 ∨ off = 0x1C then
    if r.st != 0 then s.qmCfgErr f
    else if off = 0x14 then s.setRing g { r with base := BitVec.ofNat 64 (r.base.toNat / 2 ^ 32 * 2 ^ 32 + lo) }
    else if off = 0x18 then s.setRing g { r with base := BitVec.ofNat 64 (r.base.toNat % 2 ^ 32 + lo % 2 ^ 31 * 2 ^ 32) }
    else
      let (q, bad) := r.cfgWrite v
      let s := s.setRing g q
      if bad then s.qmCfgErr f else s
  else if r.typ != 2 then s.qmCfgErr f
  else if off = 0x30 ∨ off = 0x34 then
    if r.st != 0 then s.qmCfgErr f
    else if off = 0x30 then s.setRing g { r with haddr := BitVec.ofNat 64 (r.haddr.toNat / 2 ^ 32 * 2 ^ 32 + lo / 8 * 8) }
    else s.setRing g { r with haddr := BitVec.ofNat 64 (r.haddr.toNat % 2 ^ 32 + lo % 2 ^ 31 * 2 ^ 32) }
  else if off = 0x38 then
    let t := bitsOf v 15 0
    let s := s.setRing g { r with cnt := bitsOf v 31 24, time := if t = 0 then r.time else t }
    if t = 0 then s.qmCfgErr f else s
  else if off = 0x3C then
    if r.mod != 0 && decide ((s.fn f).vectors ≤ bitsOf v 9 0) then s.qmCfgErr f
    else s.setRing g { r with wake := bit v 31, vector := bitsOf v 9 0 }
  else if off = 0x300 then
    if bitsOf v 15 0 = 0 then s.qmCfgErr f else s.setRing g { r with stall := bitsOf v 15 0 }
  else if off = 0x30C then s.setRing g { r with cqStatus := r.cqStatus &&& ~~~ v }
  else s

/-- Offsets of the registers that act on the selected ring and whose writes R181 and R210 speak of. -/
def ringWrites (off : Nat) : Bool := [0x14, 0x18, 0x1C, 0x30, 0x34, 0x38, 0x3C, 0x300, 0x304, 0x308, 0x30C].contains off

/-- A write of QM_RING_CMD (R179, R181). -/
def State.ringCmdWrite (s : State) (m f code : Nat) : State :=
  match s.selRing m f with
  | none => s
  | some g => if code = 1 then s.ringEnable f g else if code = 2 then s.ringDisable f g else if code = 3 then s.ringRestart f g else s

/-- A write of the QM_ block. -/
def State.qmStore (s : State) (m : Master) (a : Nat) (v : Word) : State :=
  let f := a % 0x100000 / 0x10000
  let off := a % 0x10000
  if 0x04208100 ≤ a ∧ a < 0x04208140 ∧ a % 4 = 0 then s.shareWrite ((a - 0x04208100) / 4) v
  else if a = 0x04208004 then s.statusWrite a v
  else if 0x8000 ≤ off then s
  else if off = 0x10 then s.setReg (banked m.id a) (v &&& 0xFFF#32)
  else if off = 0x20 then s.ringCmdWrite m.id f (bitsOf v 1 0)
  else if ringWrites off then
    match s.selRing m.id f with
    | some g => s.ringStore f g off v
    | none => s.qmCfgErr f
  else s.plainWrite a v (0x04200004 + 0x10000 * f)

/-! ## AD_, CE_, TP_, SC_ (R130, R104, R158, R274, R275) -/

/-- A write of the AD_ block: AD_CTRL.EN stays 0 in RECOVERY (R458), AD_FNf_CTRL.EN while the function resets (R228). -/
def State.adStore (s : State) (a : Nat) (v : Word) : State :=
  let off := a % 0x100000
  if off = 4 then s.statusWrite a v
  else if off = 8 ∧ s.mode = modeRecovery ∧ bit v 0 then (s.plainWrite a (v &&& 0xFFFFFFFE#32) 0x04300004).cfgErr 0x04300004
  else if 0x200 ≤ off ∧ off < 0x300 ∧ off % 16 = 0 ∧ (s.fn ((off - 0x200) / 16)).resetAt.isSome then
    s.plainWrite a (v &&& 0xFFFFFFFE#32) 0x04300004
  else s.plainWrite a v 0x04300004

/-- A write of the CE_ block. -/
def State.ceStore (s : State) (a : Nat) (v : Word) : State :=
  if a = 0x04400004 then s.statusWrite a v
  else if a = 0x04480000 then s.ceaCtrlRow v
  else if a = 0x04480018 then s.ceaDoorbell
  else if a = 0x04480024 then s.ceaCqHead v
  else if 0x04480000 ≤ a then s.plainWrite a v 0x04480004
  else s.plainWrite a v 0x04400004

/-- A write of the TP_ block; events that TP_IE newly passes raise the level (R354). -/
def State.tpStore (s : State) (a : Nat) (v : Word) : State :=
  let off := a % 0x100000
  if off = 4 then (s.statusWrite a v).afterTick
  else if off = 8 then ((s.plainWrite a v tpStatus).risen tpStatus (s.statusLevel tpStatus)).afterTick
  else if 0x100 ≤ off ∧ off < 0x300 ∧ off % 0x20 = 0 then s.srcCfgWrite ((off - 0x100) / 0x20) v
  else if 0x1000 ≤ off ∧ off < 0x1800 ∧ off % 8 = 0 then s.sgWrite ((off - 0x1000) / 8) v
  else if 0x2000 ≤ off ∧ off < 0x4000 ∧ off % 4 = 0 then
    s.actWrite ((off - 0x2000) / 4) v
  else (s.plainWrite a v tpStatus).afterTick

/-- A write of the SC_ block: reserved bits of SC_VEC and SC_WSTACK set CFGERR (R275). -/
def State.scStore' (s : State) (a : Nat) (v : Word) : State :=
  let c := a % 0x100000 / 0x10000
  let off := a % 0x10000
  if off = 8 then s.scCtrl c v
  else if off = 0x10 then (let s := s.plainWrite a v (scReg c 4); if v &&& 0x80038003#32 = 0#32 then s else s.scCfgErr c)
  else if off = 0x14 then (let s := s.plainWrite a v (scReg c 4); if v &&& 0x00030003#32 = 0#32 then s else s.scCfgErr c)
  else if off = 0x2C then s.dmemStore c v
  else if (windowOf off).isSome then s.windowStore c off v
  else s.plainWrite a v (scReg c 4)

/-! ## PG_, SF_, MS_ (R304, R313 to R317, R349 to R352) -/

/-- A write of PG_OUT: outputs of GPIO lanes in no valid station follow it (R313). -/
def State.pgOutWrite (s : State) (n : Nat) (v : Word) : State :=
  let s := s.setReg (0x04700014 + 0x10000 * n) (v &&& 0xFFF#32)
  (span (12 * n) 12).foldl (fun t l => if t.laneFunc l = 1 && !t.inStation l then t.laneIdle l else t) s

/-- A write of PG_LANEk_SAFE: a lane that shows its SAFE level follows it (R304); one whose FUNC has not been written since its domain
came up keeps its level (R279). -/
def State.laneSafeWrite (s : State) (l : Nat) (v : Word) : State :=
  let s := s.plainWrite (laneFnAddr l + 12) v (pgStatus (l / 12))
  if s.forcedSafe || (s.laneFunc l == 0 && (s.lane l).live) then s.laneIdle l else s

/-- A write of the PG_ block. -/
def State.pgStore (s : State) (m : Master) (a : Nat) (v : Word) : State :=
  let n := a % 0x100000 / 0x10000
  let off := a % 0x10000
  if 0x04790000 ≤ a then
    (if a < 0x047A0000 then s.profileWrite ((a - 0x04790000) / 0x400) ((a - 0x04790000) % 0x400 / 4) v else s)
  else if 0x04780000 ≤ a then
    (if off = 4 then s.plainWrite a v a
     else if off = 8 then s.pgCmCtrl v
     else if off = 0x10 then s.setReg (banked m.id a) (v &&& 0xFFF#32)
     else if 0x100 ≤ off ∧ off < 0x114 ∧ off % 4 = 0 then s.descWrite (s.staSel m.id) ((off - 0x100) / 4) v
     else s)
  else if off = 4 then s.pgStatusWrite n v
  else if off = 8 then s.pgCtrlWrite n v
  else if off = 0x14 then s.pgOutWrite n v
  else if 0x100 ≤ off ∧ off < 0x280 then
    let l := 12 * n + (off - 0x100) / 0x20
    match off % 0x20 with
    | 0 => s.laneFnWrite l v
    | 4 => s.laneCfgWrite l v
    | 8 => s.laneTimWrite l v
    | 12 => s.laneSafeWrite l v
    | _ => s
  else s

/-- A write of the SF_ block. -/
def State.sfStore (s : State) (a : Nat) (v : Word) : State :=
  let q := (a - 0x04800000) / 0x10000 * 24 + a % 0x10000 / 0x40
  if 0x04880000 ≤ a ∨ 0x40 * 24 ≤ a % 0x10000 then s
  else match a % 0x40 with
  | 0 => s.sfCfgWrite q v
  | 0x10 => if bit v 0 then s.flushFifo q else s
  | _ => s.plainWrite a v (fifoAddr q + 12)

/-- A write of MS_REMAP_SEL (R351). -/
def State.remapSel (s : State) (m : Nat) (v : Word) : State :=
  if 204 ≤ bitsOf v 7 0 then s.cfgErr 0x04900004 else s.setReg (banked m 0x04900030) (v &&& 0xFF#32)

/-- A write of the MS_ block. -/
def State.msStore (s : State) (m : Master) (a : Nat) (v : Word) : State :=
  match a % 0x100000 with
  | 0x04 => s.msStatusWrite v
  | 0x24 => s.msInjWrite v
  | 0x30 => s.remapSel m.id v
  | 0x34 => s.remapWrite (bitsOf (s.reg (banked m.id 0x04900030)) 7 0) v
  | _ => s.plainWrite a v 0x04900004

/-! ## IC_, MB_, LK_, FC_ (R355, R358, R367, R368, R376, R379, R387, R410, R411) -/

/-- A write of IC_SRCn: EN, WAKE, PRIO, and TARGET unless it is fixed; a reserved TARGET keeps the old one. -/
def State.irqSrcWrite (s : State) (n : Nat) (v : Word) : State :=
  if irqReserved n then s
  else
    let x := s.irqSrc n
    let t := bitsOf v 20 16
    let fixed := (fixedTarget n).isSome
    let bad := !fixed && decide (18 < t)
    let s := s.setIrq n { x with en := bit v 31, wake := bit v 30, prio := bitsOf v 3 0, target := if fixed || bad then x.target else t }
    if bad then s.cfgErr icStatus else s

/-- A write of IC_SIGs. -/
def State.irqSigWrite (s : State) (a : Nat) (v : Word) : State :=
  let o := bitsOf v 4 0
  if 17 ≤ o ∧ o ≤ 30 then s.cfgErr icStatus else s.setReg a (BitVec.ofNat 32 o)

/-- A write of the IC_ block. -/
def State.icStore (s : State) (m : Master) (a : Nat) (v : Word) : State :=
  let off := a % 0x100000
  if off = 4 then s.statusWrite a v
  else if off = 0xC then s.icRaise v
  else if off = 0x14 then s.icComplete m.id ((procOfMaster m).getD 18) v
  else if 0x600 ≤ off ∧ off < 0x700 ∧ off % 4 = 0 then s.irqSigWrite a v
  else if 0x1000 ≤ off ∧ off < 0x2000 ∧ off % 4 = 0 then s.irqSrcWrite ((off - 0x1000) / 4) v
  else s.plainWrite a v icStatus

/-- A write of the MB_ and LK_ blocks. -/
def State.mbStore (s : State) (m : Master) (a : Nat) (v : Word) : State :=
  let off := a % 0x100000
  if off = 4 ∨ off = 0x80004 then s.statusWrite a v
  else if 0x1000 ≤ off ∧ off < 0x1100 then
    (if off % 16 = 4 then s.boxWrite m (16 + (off - 0x1000) / 16) v
     else if off % 16 = 8 then (s.plainWrite a v a).crossFn ((off - 0x1000) / 16) else s)
  else if off = 0x2000 then s.boxWrite m 32 v
  else if off = 0x2008 then s.boxWrite m 33 v
  else if off = 0x2010 then (s.plainWrite a v a).crossHalves
  else if 0x81000 ≤ off ∧ off < 0x81400 ∧ off % 4 = 0 then s.lockWrite m.id ((off - 0x81000) / 4) v
  else s

/-- A write of FC_LOG_TAIL: what lies before it has been read (R387). -/
def State.fcTailWrite (s : State) (v : Word) : State :=
  let t := bitsOf v 8 0
  let s := s.setReg fcTail (BitVec.ofNat 32 t)
  { s with logUnread := (bitsOf (s.reg fcHead) 8 0 + 512 - t) % 512 }

/-- A write of FC_HOST (R411). -/
def State.fcHostWrite (s : State) (v : Word) : State :=
  if bit v 31 && decide ((s.fn 0).vectors ≤ bitsOf v 9 0) then s.cfgErr fcStatus else s.setReg fcHost (v &&& 0xC00003FF#32)

/-- A write of the FC_ block. -/
def State.fcStore (s : State) (m : Master) (a : Nat) (v : Word) : State :=
  let off := a % 0x100000
  if off = 8 then s.fcCtrlWrite v
  else if off = 0x10 then (s.fcAckSeq v.toNat).fcSettle
  else if off = 0x1C then s.fcTailWrite v
  else if off = 0x24 then s.fcHostWrite v
  else if off = 0x2C then s.fcKick m
  else if off = 0x30 then s.fcInjWrite v
  else if 0x400 ≤ off ∧ off < 0x4C0 ∧ off % 4 = 0 then s.grpClear ((off - 0x400) / 4) v
  else s.plainWrite a v fcStatus

/-! ## PM_, SU_, JN_, HP_ (R225, R231, R440, R441, R460, R508) -/

/-- A write of PM_CTRL: the commands act in the order of their bits. -/
def State.pmCtrl (s : State) (m : Master) (v : Word) : State :=
  let s := if bit v 0 then s.svcEnter m else s
  let s := if bit v 1 then s.svcExit m else s
  let s := if bit v 2 then s.replayEnter m else s
  let s := if bit v 3 then s.replayExit m else s
  let s := if bit v 4 && isCore m then s.wakenSet else s
  if bit v 5 && isCore m then { s with waken := none } else s

/-- A write of the PM_ block. -/
def State.pmStore (s : State) (m : Master) (a : Nat) (v : Word) : State :=
  match a % 0x100000 with
  | 0x0C => s.pmReq m v
  | 0x10 => s.pmCtrl m v
  | 0x18 => s.reins m (bitsOf v 1 0)
  | 0x24 => s.domRequest v
  | 0x34 => s.wakeLo v
  | 0x38 => s.wakeHi v
  | 0x3C => s.pmClk v
  | _ => s.plainWrite a v pmStatus

/-- A write of the SU_ block. -/
def State.suStore (s : State) (m : Master) (a : Nat) (v : Word) : State :=
  match a % 0x100000 with
  | 0x0C => s.suCtrl m v
  | 0x10 => s.suRst m.id v
  | _ => s.plainWrite a v 0x04E00004

/-- A write of the JN_ block. -/
def State.jnStore (s : State) (a : Nat) (v : Word) : State :=
  match a % 0x100000 with
  | 0x04 => s.statusWrite a v
  | 0x08 => s.jnCtrlWrite v
  | 0x0C => s.jnCmd (bitsOf v 1 0)
  | _ => s.plainWrite a v jnStatusReg

/-- A write of the HP_ block; WAKE asks for an exit from CL2 or router sleep. -/
def State.hpStore (s : State) (a : Nat) (v : Word) : State :=
  let s := s.plainWrite a v hpStatus
  if a = 0x04000008 ∧ bit v 9 then s.wakeLink else s

/-- A performed 32-bit write of the register at `a` by master m: what R9, R13 and the register's own rule give. -/
def State.regStore (s : State) (m : Master) (a : Nat) (v : Word) : State :=
  match a / 0x100000 with
  | 0x40 => s.hpStore a v
  | 0x41 => s.fnStore m a v
  | 0x42 => s.qmStore m a v
  | 0x43 => s.adStore a v
  | 0x44 => s.ceStore a v
  | 0x45 => s.tpStore a v
  | 0x46 => s.scStore' a v
  | 0x47 => s.pgStore m a v
  | 0x48 => s.sfStore a v
  | 0x49 => s.msStore m a v
  | 0x4A => s.icStore m a v
  | 0x4B => s.mbStore m a v
  | 0x4C => s.fcStore m a v
  | 0x4D => s.pmStore m a v
  | 0x4E => s.suStore m a v
  | 0x4F => s.jnStore a v
  | _ => s

/-! ## Reads (R9, R158, R357, R370, R377) -/

/-- The box whose RX register lies at `a`. -/
def rxBox (a : Nat) : Option Nat :=
  if a / 0x100000 = 0x41 ∧ a % 0x10000 = 0x14 then some (16 + a % 0x100000 / 0x10000)
  else if 0x04B01000 ≤ a ∧ a < 0x04B01100 ∧ a % 16 = 0 then some ((a - 0x04B01000) / 16)
  else if a = 0x04B02004 then some 32
  else if a = 0x04B0200C then some 33
  else none

/-- A performed 32-bit read of the register at `a` by master m, with its read effect: RC registers clear, a claim, a mailbox,
a lock, a position. -/
def State.regLoad (s : State) (m : Master) (a : Nat) : State × Word :=
  match rxBox a with
  | some b => s.boxRead b
  | none =>
    if a = 0x04A00010 then s.icClaim m
    else if 0x04B81000 ≤ a ∧ a < 0x04B81400 ∧ a % 4 = 0 then s.lockRead m.id ((a - 0x04B81000) / 4)
    else if 0x04500100 ≤ a ∧ a < 0x04500300 ∧ a % 0x20 = 0x18 then s.positionRead m.id ((a - 0x04500100) / 0x20)
    else
      let v := s.regValue m.id a
      match regDesc a with
      | some d => if d.rc then (s.setReg a 0#32, v) else (s, v)
      | none => (s, v)

/-! ## The host's BAR0 (R171, R219) -/

/-- The Pommel-view address of an offset in a function's register views. -/
def bar0Reg (f off : Nat) : Nat :=
  if off < 0x8000 then 0x04100000 + 0x10000 * f + off else 0x04200000 + 0x10000 * f + (off - 0x8000)

/-- The bits of word i of an MSI-X table entry that a write stores. -/
def msixMask (i : Nat) : Word := if i % 4 = 0 then 0xFFFFFFFC#32 else if i % 4 = 3 then 1#32 else 0xFFFFFFFF#32

/-- A write of one word of the MSI-X table (R216, R219): vectors above the count ignore it. -/
def State.msixWrite (s : State) (f i : Nat) (v : Word) : State :=
  if i / 4 < (s.fn f).vectors then s.setMsixWord f i (v &&& msixMask i) else s

/-- A write of the MSI-X table (R219): 4 bytes, or 8 as two words. -/
def State.msixStore (s : State) (f i size : Nat) (v : Quad) : State :=
  let s := s.msixWrite f i (v.setWidth 32)
  if size = 8 then s.msixWrite f (i + 1) ((v >>> 32).setWidth 32) else s

/-- Word k of the pending-bit array. -/
def State.pbaWord (s : State) (f k : Nat) : Word :=
  BitVec.ofNat 32 (bitsNat ((span 0 32).map (fun b => (s.fn f).pba.contains (32 * k + b))))

/-- The word that a host read returns from BAR0 beside the register views. -/
def State.bar0Word (s : State) (f off : Nat) : Word :=
  if 0x10000 ≤ off ∧ off < 0x14000 then
    (if (off - 0x10000) / 16 < (s.fn f).vectors then s.msixWord f ((off - 0x10000) / 4) else 0#32)
  else if 0x14000 ≤ off ∧ off < 0x14080 then s.pbaWord f ((off - 0x14000) / 4)
  else 0#32

/-- A host write to BAR0 of function f: doorbells, the register views, the MSI-X table (R171, R219). -/
def State.bar0Write (s : State) (f : Fn) (off size : Nat) (v : Quad) : State :=
  if 0x20000 ≤ off ∧ off < 0x28000 then
    (span ((off - 0x20000) / 8) ((off - 0x20000 + max size 1 - 1) / 8 - (off - 0x20000) / 8 + 1)).foldl (fun t i => doorbell t f.val i) s
  else if off < 0x10000 then
    let a := bar0Reg f.val (alignDown off 4)
    if size = 4 ∧ off % 4 = 0 then s.regRow (.host f) a (v.setWidth 32) (fun s => s.regStore (.host f) a (v.setWidth 32))
    else (match s.regRight (.host f) a true with | .may => s.fnCfgErr f.val | .refused => s.refuse (.host f) a | _ => s)
  else if !s.bar0Answers f.val (0x04100000 + 0x10000 * f.val) then s.refuse (.host f) off
  else if (s.fn f.val).resetAt.isSome then s
  else if 0x10000 ≤ off ∧ off < 0x14000 ∧ (size = 4 ∨ size = 8) ∧ off % size = 0 then s.msixStore f.val ((off - 0x10000) / 4) size v
  else s

/-- A host read of BAR0 of function f (R219): within one aligned word it returns those bytes; one that spans words reads no
register, returns 0 and sets CFGERR. -/
def State.bar0Read (s : State) (f : Fn) (off size : Nat) : State :=
  let a := bar0Reg f.val (alignDown off 4)
  let one := decide (1 ≤ size) && decide (off % 4 + size ≤ 4)
  let bytes := fun (v : Word) => leBytes size (v.toNat / 2 ^ (8 * (off % 4)))
  if off < 0x10000 then
    match s.regRight (.host f) a false with
    | .may =>
      if one then (let (t, v) := s.regLoad (.host f) a; t.emit (.readData (32 + f.val) (bytes v)))
      else (s.fnCfgErr f.val).emit (.readData (32 + f.val) (leBytes size 0))
    | .resetting => s.emit (.readData (32 + f.val) (leBytes size 0))
    | _ => s.refuse (.host f) a
  else if !s.bar0Answers f.val (0x04100000 + 0x10000 * f.val) then s.refuse (.host f) off
  else if (s.fn f.val).resetAt.isSome then s.emit (.readData (32 + f.val) (leBytes size 0))
  else
    let w := alignDown off 4
    let v := (s.bar0Word f.val w).toNat + 2 ^ 32 * (s.bar0Word f.val (w + 4)).toNat
    s.emit (.readData (32 + f.val) (leBytes size (v / 2 ^ (8 * (off % 4)))))

/-! ## REGISTER_WRITE (R9) -/

/-- The register at `a` belongs to a selected station that cannot be reached (R287). -/
def State.staRefused (s : State) (m : Master) (a : Nat) : Bool :=
  (decide (0x04780100 ≤ a) && decide (a < 0x04780114) || decide (0x04780140 ≤ a) && decide (a < 0x04780160)) && s.staDark (s.staSel m.id)

/-- A store of a shaping core: an IMEM or microcode word, or SC_DMEM_DATA, whose aligned word an access of another alignment reaches
too. -/
def scStoreAddr (a : Nat) : Bool := a / 0x100000 == 0x46 && (alignDown (a % 0x10000) 4 == 0x2C || (windowOf (a % 0x10000)).isSome)

/-- An access to a register by a core or debug: one 32-bit word; a shaping core's stores go by R237. -/
def State.coreReg (s : State) (m : Master) (a size : Nat) (op : RegOp) : State :=
  if scStoreAddr a then
    (if alignDown (a % 0x10000) 4 = 0x2C then dmemData s m (a % 0x100000 / 0x10000) op
     else windowAccess s m (a % 0x100000 / 0x10000) (a % 0x10000) size op)
  else
    let w := alignDown a 4
    match op.word with
    | some v =>
      if s.regRight m w true == .may && s.staRefused m w then s.refuse m w
      else s.regRow m w v (fun s => s.regStore m w v)
    | none =>
      if s.regRight m w false == .may && s.staRefused m w then s.refuse m w
      else s.readRow m w (fun s => s.regLoad m w)

/-- REGISTER_WRITE (R9): one access to a register: by a local address, or for a host function by its BAR0 offset. -/
def registerWrite (s : State) (m : Master) (a size : Nat) (op : RegOp) : State :=
  match m, op with
  | .host f, .write v => s.onLive (fun s => s.bar0Write f a size (v.setWidth 64))
  | .host f, .writeQuad v => s.onLive (fun s => s.bar0Write f a size v)
  | .host f, .read => s.onLive (fun s => s.bar0Read f a size)
  | _, _ => s.coreReg m a size op

def execRegisterWrite (m : Master) (addr : Word) (size : Nat) (op : RegOp) (s : State) : Result :=
  .next (registerWrite s m addr.toNat size op)

/-- FN_DICT_GO (R473): PF0 submits a request. -/
def execFnDictGo (m : Master) (v : Word) (s : State) : Result := .next (s.regRow m 0x04100110 v (fun s => s.dictGo v))

end Sys2Proof.Machine
end

