-- ==== Sys2Proof/Machine/DictTable.lean ====
section
/-! DEFINITION. The Mbokeven dictionary's entries (R463 to R466, R478 and the entry tables of R131, R160, R184, R233, R318, R353,
R380, R412, R443, R462, R511): types, access codes, defaults, ranges, the register field behind each, and who may use them.
The log entries that hold here: DEDUCED 38. -/

namespace Sys2Proof.Machine

/-- The types of R464; an unsigned number carries its length in bytes. -/
inductive DTy where
  | bool
  | u (n : Nat)
  | i32
  | q16
  | str
  /-- words of an array, lowest and highest count -/
  | arr (lo hi : Nat)
  | dom (len : Option Nat)
deriving DecidableEq, Repr

/-- The access codes of R465; `woIn` is WO in the modes it names. -/
inductive DAcc where
  | const
  | ro
  | rw
  | wo
  | woIn (modes : List Nat)
deriving DecidableEq, Repr

/-- A dictionary entry. `field` is the register field that holds its value less `bias`: address, high and low bit. -/
structure DEntry where
  ty    : DTy
  acc   : DAcc := .rw
  dflt  : List Byte := []
  min   : Nat := 0
  max   : Nat := 0xFFFFFFFF
  field : Option (Nat × Nat × Nat) := none
  bias  : Nat := 0
deriving DecidableEq, Repr

/-- An entry held in a register field: sub-index, bytes, default, range, field. -/
def fld (sub n dflt lo hi a h l : Nat) (bias : Nat := 0) : Nat × Nat × DEntry :=
  (sub, sub, { ty := .u n, dflt := leBytes n dflt, min := lo, max := hi, field := some (a, h, l), bias := bias })

/-- A BOOL entry held in a register bit. -/
def flag (sub dflt a i : Nat) : Nat × Nat × DEntry :=
  (sub, sub, { ty := .bool, dflt := leBytes 1 dflt, max := 1, field := some (a, i, i) })

/-- An entry of a type and access code without a register field. -/
def ent (sub : Nat) (ty : DTy) (acc : DAcc) : Nat × Nat × DEntry := (sub, sub, { ty := ty, acc := acc })

/-- A stored number. -/
def num (sub n dflt lo hi : Nat) : Nat × Nat × DEntry := (sub, sub, { ty := .u n, dflt := leBytes n dflt, min := lo, max := hi })

/-- HOLD, NOM and DIV defaults of the tempo sources (R136). -/
def srcDflt (n : Nat) : Nat × Nat × Nat :=
  if n = 1 then (1000000, 200, 1)
  else if n = 2 then (100, 800, 1)
  else if n = 3 then (50000, 3333333, 1)
  else if n = 4 ∨ n = 5 then (100000, 4000000, 2)
  else if n = 6 then (1000, 4167, 512)
  else if n = 7 then (1000, 6104, 1)
  else if 8 ≤ n then (10000, 200000, 1)
  else (10000, 200, 1)

/-- 0x1000 to 0x1FFF: identity, communication, lifecycle, images, persistence (R233, R478). -/
def dictIdentity (idx : Nat) : List (Nat × Nat × DEntry) :=
  match idx with
  | 0x1000 => [ent 1 .str .const, ent 2 .str .const, ent 3 (.u 1) .const, ent 4 (.u 8) .const, ent 5 (.u 2) .const, ent 6 (.u 1) .ro,
      ent 7 (.dom (some 48)) .ro, ent 8 (.u 1) .ro]
  | 0x1010 => [num 1 1 0x3A 0x08 0x77, num 2 1 0 0 15, (3, 3, { ty := .bool, dflt := [1#8], max := 1 })]
  | 0x1020 => [num 1 2 0x1F3E 0 0xFFFF, num 2 2 0x1640 0 0xFFFF]
  | 0x1E00 => [ent 1 (.u 4) (.woIn [0xB, 9]), ent 2 (.dom (some 48)) (.woIn [9])]
  | 0x1F00 => [ent 1 (.dom none) (.woIn [8, 0xB, 9]), ent 2 (.dom none) (.woIn [8, 0xB, 9]), ent 3 (.u 1) .ro,
      (4, 4, { ty := .bool, acc := .woIn [8, 0xB, 9], max := 1 }), ent 5 (.u 1) .ro,
      (6, 6, { ty := .u 1, acc := .woIn [0xB], max := 64 }), ent 7 (.u 8) .ro, ent 8 (.u 8) .ro]
  | 0x1F10 => [(1, 1, { ty := .bool, acc := .wo, max := 1 }), ent 2 (.u 1) .ro, (3, 3, { ty := .bool, acc := .wo, max := 1 })]
  | _ => []

/-- 0x2000 to 0x5FFF: device configuration and the journal (R184, R233, R353, R380, R478, R511). -/
def dictDevice (idx : Nat) : List (Nat × Nat × DEntry) :=
  let n := idx % 256
  if 0x2100 ≤ idx ∧ idx < 0x2110 then
    [fld 1 2 (1024 * n) 0 16383 (0x04208100 + 4 * n) 13 0, fld 2 2 1024 0 4096 (0x04208100 + 4 * n) 28 16]
  else if 0x2120 ≤ idx ∧ idx < 0x2130 then [num 1 2 256 0 1024]
  else if idx = 0x2130 then
    [fld 1 2 10 1 1000 0x04000010 15 0, flag 2 0 0x04000008 8, fld 3 1 0 0 3 0x04000008 6 5, fld 4 1 3 2 3 0x04000008 3 2,
      flag 5 0 0x04000008 4]
  else if idx = 0x2200 then [flag 1 1 0x04900008 0, fld 2 1 60 1 255 0x04900008 15 8, flag 3 1 0x04900008 1]
  else if idx = 0x2201 then [(1, 1, { ty := .arr 0 64 })]
  else if 0x2300 ≤ idx ∧ idx < 0x2340 then
    [fld 1 1 31 0 31 (0x04A00600 + 4 * n) 4 0, fld 2 1 0 0 31 (0x04A01000 + 4 * (192 + n)) 20 16,
      fld 3 1 0 0 15 (0x04A01000 + 4 * (192 + n)) 3 0, flag 4 0 (0x04A01000 + 4 * (192 + n)) 31]
  else if 0x2400 ≤ idx ∧ idx < 0x2410 then (span 0 4).map (fun i => num (i + 1) 4 (stagingReset (4 * n + i)) 0 0xFFFFFFFF)
  else if idx = 0x2500 then
    [fld 1 1 0 0 3 0x04F00008 3 2, fld 2 2 0xFFFF 0 0xFFFF 0x04F00014 15 0, fld 3 1 100 0 255 0x04F00008 31 24,
      fld 4 1 20 0 31 0x04F00008 23 19, num 5 8 0 0 (2 ^ 64 - 1), num 6 8 0 0 (2 ^ 64 - 1), flag 7 0 0x04F00008 5, flag 8 0 0x04F00008 4]
  else if idx = 0x2501 then
    [(1, 1, { ty := .u 1, acc := .wo, max := 3 }), (2, 2, { ty := .bool, acc := .woIn [0xB, 0xA], max := 1 })]
  else []

/-- 0x6000 to 0x6FFF: profiles, port groups, lanes, stations (R318). -/
def dictPorts (idx : Nat) : List (Nat × Nat × DEntry) :=
  let n := idx % 256
  let sf := fun (d : Nat) => fifoAddr (2 * n + d)
  if 0x6000 ≤ idx ∧ idx < 0x6040 then [(1, 1, { ty := .arr 256 256, dflt := rep 1024 0#8 })]
  else if 0x6100 ≤ idx ∧ idx < 0x6108 then
    [fld 1 1 1 0 3 (0x04700008 + 0x10000 * n) 1 0, fld 2 1 8 0 63 (0x04700008 + 0x10000 * n) 13 8]
  else if 0x6200 ≤ idx ∧ idx < 0x6260 then
    [fld 4 1 0 0 7 (laneFnAddr n + 12) 2 0, fld 2 4 0 0 0xFFFFFFFF (laneFnAddr n + 4) 31 0, fld 3 4 0 0 0xFFFFFFFF (laneFnAddr n + 8) 31 0,
      fld 1 1 0 0 15 (laneFnAddr n) 3 0, fld 7 2 0 0 32767 (sf 0 + 4) 14 0, fld 9 2 0 0 32767 (sf 0 + 4) 30 16,
      fld 8 2 0 0 32767 (sf 1 + 4) 14 0, fld 10 2 0 0 32767 (sf 1 + 4) 30 16, fld 5 1 0 0 255 (sf 0) 23 16, flag 11 0 (sf 0) 0,
      fld 6 1 0 0 255 (sf 1) 23 16, flag 12 0 (sf 1) 0]
  else if 0x6800 ≤ idx ∧ idx < 0x6810 then [(0, 255, { ty := .arr 5 5, dflt := rep 20 0#8 })]
  else []

/-- 0x7000 to 0x71FF: tempo sources and strike groups (R160). -/
def dictTempo (idx : Nat) : List (Nat × Nat × DEntry) :=
  let n := idx % 256
  let c := 0x04500100 + 0x20 * n
  let (hold, nom, div) := srcDflt n
  if 0x7000 ≤ idx ∧ idx < 0x7010 then
    [fld 6 1 25 0 255 (c + 4) 23 16, fld 7 1 50 0 255 (c + 4) 15 8, fld 8 1 4 0 15 (c + 4) 7 4, fld 9 1 2 0 15 (c + 4) 3 0,
      fld 10 4 hold 0 0xFFFFFF (c + 8) 23 0, fld 11 4 nom 0 0x7FFFFFFF (c + 12) 30 0,
      fld 2 1 0 0 127 c 6 0, fld 3 1 0 0 3 c 30 29, fld 4 2 div 1 4096 c 23 12 1, fld 5 1 0 0 3 c 28 27,
      flag 12 (if n = 6 then 1 else 0) c 26, flag 1 (if n = 0 ∨ n = 7 then 1 else 0) c 31]
  else if 0x7100 ≤ idx ∧ idx < 0x7200 then
    [fld 1 1 0 0 31 (0x04501000 + 8 * n) 28 24, flag 2 0 (0x04501000 + 8 * n) 30, (3, 3, { ty := .arr 1 96 }), flag 4 0 (0x04501000 + 8 * n) 31]
  else []

/-- 0x8000 to 0xAFFF: fault policy, power, reset, admission (R131, R412, R443, R462). -/
def dictPolicy (idx : Nat) : List (Nat × Nat × DEntry) :=
  let g := idx - 0x8010
  let f := idx - 0xA010
  let control := decide (g < 10) || g == 20 || g == 43 || g == 44 || g == 46
  if idx = 0x8000 then
    [fld 1 4 1000 0 0x1FFFF 0x04C0000C 16 0, flag 2 0 0x04C00008 8, flag 3 1 0x04C00024 31, flag 4 1 0x04C00024 30, fld 5 2 0 0 1023 0x04C00024 9 0]
  else if 0x8010 ≤ idx ∧ idx < 0x8040 then
    [fld 1 1 (if control then 1 else 8) 0 255 (0x04C00500 + 4 * g) 7 0, fld 2 2 1000 0 16383 (0x04C00500 + 4 * g) 29 16]
  else if idx = 0x8080 then [ent 1 (.u 4) .wo]
  else if idx = 0x9000 then
    [fld 1 1 20 0 31 0x04D00014 4 0, fld 2 2 10 0 1023 0x04D00014 21 12, fld 3 2 100 0 1023 0x04D00014 31 22,
      fld 4 4 0x7FF 0 0xFFFFFFFF 0x04D00028 31 0, fld 5 4 0 0 0xFFFFFFFF 0x04D00030 31 0, fld 6 4 0x233FFFF0 0 0xFFFFFFFF 0x04D00024 31 0,
      fld 7 4 0 0 0xFFFFFFFF 0x04D0003C 31 0]
  else if idx = 0x9010 then
    [ent 1 (.u 1) .ro, ent 2 .bool .ro, ent 3 (.u 4) .ro, (4, 4, { ty := .bool, dflt := [0#8], max := 1 })]
  else if idx = 0x9020 then [ent 1 (.u 4) .ro, ent 2 (.u 4) .ro, (3, 3, { ty := .u 1, acc := .wo, min := 1, max := 3 })]
  else if idx = 0xA000 then
    [fld 1 1 75 0 255 0x04300008 15 8, fld 2 1 80 0 255 0x04300008 23 16, fld 3 1 80 0 255 0x04300008 31 24, flag 4 1 0x04300008 0]
  else if 0xA010 ≤ idx ∧ idx < 0xA020 then
    [flag 1 1 (0x04300200 + 16 * f) 0, flag 2 0 (0x04300200 + 16 * f) 1, fld 3 2 512 0 16383 (0x04300200 + 16 * f) 29 16,
      (4, 4, { ty := .q16, dflt := leBytes 4 0x00C80000, field := some (0x04300204 + 16 * f, 31, 0) })]
  else []

/-- 0xF000 to 0xFFFF: diagnostics (R412, R478, R511). -/
def dictDiag (idx : Nat) : List (Nat × Nat × DEntry) :=
  match idx with
  | 0xF100 => [(0, 255, { ty := .arr 8 8, acc := .ro })]
  | 0xF101 => [(0, 255, { ty := .arr 8 8, acc := .ro })]
  | 0xF110 => [(0, 63, { ty := .arr 2 2, acc := .ro })]
  | 0xF200 => [(0, 63, { ty := .arr 4 4, acc := .ro })]
  | 0xF300 => [ent 1 (.u 4) .ro, ent 2 (.u 4) .ro, ent 3 (.arr 5 5) .ro, ent 4 (.dom none) .ro]
  | _ => []

/-- The entries of an index, with the sub-indices that each covers. The fields of one register stand together, and the registers
of an index in the order in which firmware applies them (R318). -/
def dictEntries (idx : Nat) : List (Nat × Nat × DEntry) :=
  if idx < 0x2000 then dictIdentity idx
  else if idx < 0x6000 then dictDevice idx
  else if idx < 0x7000 then dictPorts idx
  else if idx < 0x8000 then dictTempo idx
  else if idx < 0xB000 then dictPolicy idx
  else dictDiag idx

/-- The entry at an index and sub-index. -/
def dictEntry (idx sub : Nat) : Option DEntry :=
  ((dictEntries idx).find? (fun (lo, hi, _) => decide (lo ≤ sub) && decide (sub ≤ hi))).map (fun p => p.2.2)

/-- Index and sub-index as one key. -/
def dictKey (idx sub : Nat) : Nat := idx * 256 + sub

/-! ## Results (R470) -/

def resOK : Nat := 0
def resNoEntry : Nat := 1
def resNoSub : Nat := 2
def resAccess : Nat := 3
def resMode : Nat := 4
def resRange : Nat := 5
def resLength : Nat := 6
def resSequence : Nat := 7
def resChanged : Nat := 8
def resBusy : Nat := 9
def resFrame : Nat := 0xA
def resLifecycle : Nat := 0xB
def resNoRoom : Nat := 0xC
def resAuth : Nat := 0xD

/-! ## Requesters and rights (R466, R467) -/

/-- Where the server keeps a requester's state: 0 P, 1 to 15 a service function, 32 I, 33 C. -/
def classKey : DictClass → Nat
  | .p => 0 | .s f => f.val | .i => 32 | .c => 33

/-- Class code and master ID of WRITE_LOG (R480); the I3C controller has no master ID. -/
def classCode : DictClass → Nat
  | .p => 0 | .s _ => 1 | .i => 2 | .c => 3
def classMaster : DictClass → Nat
  | .p => 32 | .s f => 32 + f.val | .i => 0 | .c => 2

/-- The station that an index names. -/
def dictStation (idx sub : Nat) : Nat := (idx - 0x6800) * 256 + sub

/-- The index names function f itself. -/
def namesFn (idx f : Nat) : Bool := idx == 0x2100 + f || idx == 0x2120 + f || idx == 0x2400 + f || idx == 0xA010 + f

/-- The rights of a requester class (R466); where two rows cover an index, the narrower decides. -/
def State.dictRight (s : State) (k : DictClass) (idx sub : Nat) (wr : Bool) : Bool :=
  let sta := decide (0x6800 ≤ idx) && decide (idx < 0x6810)
  let n := dictStation idx sub
  if idx < 0x2000 then (match k with | .s _ => idx == 0x1000 && !wr | _ => true)
  else if 0x2500 ≤ idx ∧ idx < 0x2600 then (match k with | .p => true | .c => true | _ => false)
  else if idx < 0x6000 then (match k with | .s f => !wr && namesFn idx f.val | _ => true)
  else if idx < 0x7000 then
    match k with
    | .p => !(sta && n == 255)
    | .i => !(sta && n == 255)
    | .s f => !wr && sta && n != 255 && s.staOwner n == f.val
    | .c => !sta || decide (n < 256)
  else if idx < 0x7100 then (match k with | .s _ => !wr | _ => true)
  else if idx < 0x7200 then
    match k with
    | .p => true
    | .s f => s.sgOwner (idx - 0x7100) == f.val && (!wr || sub != 1)
    | .i => false
    | .c => s.sgOwner (idx - 0x7100) == 16
  else if idx < 0x8000 then false
  else if idx < 0x9000 then (match k with | .p => true | .c => true | .i => !wr || idx == 0x8080 | .s _ => false)
  else if idx < 0xA000 then (match k with | .s _ => !wr | _ => true)
  else if idx < 0xB000 then (match k with | .p => true | .s f => !wr && namesFn idx f.val | _ => false)
  else if 0xF300 ≤ idx ∧ idx < 0xF400 then (match k with | .p => !wr | .c => !wr | _ => false)
  else match k with | .s _ => false | _ => !wr

/-- The entry is served in RECOVERY, and in the RETIRED state (R467). -/
def State.dictServed (s : State) (idx sub : Nat) : Bool :=
  let rec_ := idx == 0x1000 || idx == 0x1E00 || idx == 0x1F00 || idx == 0x1F10 || (idx == 0x8000 && decide (1 ≤ sub) && decide (sub ≤ 5)) ||
    idx == 0x8080 || (decide (0xF100 ≤ idx) && decide (idx ≤ 0xF110)) || idx == 0x9020
  let ret := idx == 0x1000 || (idx == 0x9020 && (sub == 1 || sub == 2))
  (s.mode != modeRecovery || rec_) && (s.life != 3 || ret)

/-- The entry a request names, or the refusal (R465 to R467, R470). -/
def State.dictCheck (s : State) (k : DictClass) (idx sub : Nat) (wr : Bool) : Except Nat DEntry :=
  if !s.dictServed idx sub then .error resMode
  else if (dictEntries idx).isEmpty then .error resNoEntry
  else match dictEntry idx sub with
  | none => .error resNoSub
  | some e =>
    if !s.dictRight k idx sub wr then .error resAccess
    else match e.acc, wr with
    | .const, true => .error resAccess
    | .ro, true => .error resAccess
    | .wo, false => .error resAccess
    | .woIn _, false => .error resAccess
    | .woIn ms, true => if ms.contains s.mode then .ok e else .error resMode
    | _, _ => .ok e

/-! ## Values (R464, R478) -/

/-- The bytes of a text. -/
def strBytes (t : String) : List Byte := t.toList.map (fun c => BitVec.ofNat 8 c.toNat)

/-- Words as bytes. -/
def wordBytes (l : List Word) : List Byte := l.flatMap (fun w => leBytes 4 w.toNat)

/-- Up to n bytes of the journal window from an offset (R511). -/
def State.winBytes (s : State) (off n : Nat) : State × List Byte :=
  (span 0 (min n (winSize - off))).foldl (fun (t, l) i => let (t, b) := t.hwRead (windowBase + off + i) 1; (t, l ++ b))
    ((s.winTouch (windowBase + off) (min n (winSize - off))).1, [])

/-- The value of an entry that reflects state. -/
def State.dictStatus (s : State) (idx sub : Nat) : List Byte :=
  let reg := fun (a : Nat) => leBytes 4 (s.regValue 1 a).toNat
  match idx, sub with
  | 0x1000, 1 => strBytes "Uzornosia Semiconductor"
  | 0x1000, 2 => strBytes (if Config.gradeX then "UZ1640-X" else "UZ1640-C")
  | 0x1000, 3 => [s.fuses.dieRev]
  | 0x1000, 4 => leBytes 8 s.fuses.serial.toNat
  | 0x1000, 5 => leBytes 2 s.fuses.mipiMfr.toNat
  | 0x1000, 6 => leBytes 1 s.life
  | 0x1000, 7 => if s.life = 0 then rep 48 0#8 else padTo 48 s.fuses.keyDigest
  | 0x1000, 8 => leBytes 1 s.fuses.svnMin
  | 0x1F00, 3 => leBytes 1 (bitsNat [s.stagedC, s.stagedP])
  | 0x1F00, 5 => leBytes 1 (bitsNat [s.runC, s.runP])
  | 0x1F00, 7 => leBytes 8 (match s.cImg with | some i => i.build.toNat | none => 0)
  | 0x1F00, 8 => leBytes 8 (match s.pImg with | some i => i.build.toNat | none => 0)
  | 0x1F10, 2 => leBytes 1 s.saveSt
  | 0x9010, 1 => leBytes 1 s.mode
  | 0x9010, 2 => leBytes 1 (if s.holderPommel then 1 else 0)
  | 0x9010, 3 => reg 0x04D00020
  | 0x9020, 1 => reg 0x04E00008
  | 0x9020, 2 => reg 0x04E00014
  | 0xF100, i => s.bytesAt (0x02184000 + 32 * i) 32
  | 0xF101, i => s.bytesAt (0x02184000 + 32 * (256 + i)) 32
  | 0xF110, k => reg (0x04C00100 + 8 * k) ++ reg (0x04C00104 + 8 * k)
  | 0xF200, i => (((s.wlog[i]?).getD [0, 0, 0, 0]).flatMap (fun w => leBytes 4 w))
  | 0xF300, 1 => reg 0x04F00010
  | 0xF300, 2 => reg 0x04F00004
  | 0xF300, 3 => reg 0x04F00034 ++ reg 0x04F00038 ++ reg 0x04F0003C ++ reg 0x04F00040 ++ reg 0x04F00044
  | _, _ => []

/-- The value of an entry: what stands in it, or its default. -/
def State.dictValue (s : State) (idx sub : Nat) (e : DEntry) : List Byte :=
  match e.acc with
  | .rw => (match SMap.get [] s.dict (dictKey idx sub) with | [] => e.dflt | v => v)
  | _ => s.dictStatus idx sub

/-- The length breaks R464. -/
def DTy.badLen (t : DTy) (n : Nat) : Bool :=
  match t with
  | .bool => n != 1
  | .u k => n != k
  | .i32 => n != 4
  | .q16 => n != 4
  | .str => decide (255 < n)
  | .arr lo hi => n % 4 != 0 || decide (n / 4 < lo) || decide (hi < n / 4)
  | .dom (some k) => n != k
  | .dom none => false

/-- A number of 4 bytes or less, as a service function's mailbox carries (R474). -/
def DTy.small (t : DTy) : Bool :=
  match t with
  | .bool => true
  | .u k => decide (k ≤ 4)
  | .i32 => true
  | .q16 => true
  | _ => false

/-- The value lies outside the entry's range. -/
def DEntry.badRange (e : DEntry) (v : List Byte) : Bool :=
  match e.ty with
  | .bool => decide (1 < leNat v)
  | .u _ => decide (leNat v < e.min) || decide (e.max < leNat v)
  | .q16 => decide (leNat v < e.min) || decide (e.max < leNat v)
  | _ => false

end Sys2Proof.Machine
end

