-- ==== Sys2Proof/Machine/DictOps.lean ====
section
/-! DEFINITION. What resident firmware does with dictionary values (R131, R160, R184, R233, R318, R353, R380, R412, R443, R462,
R478, R479, R484, R485, R511): it writes them into registers, keeps them in the boot flash, and starts the actions.
The log entries that hold here: DESIGN CHOICE 9, 41; DEDUCED 39, 40. -/

namespace Sys2Proof.Machine

/-! ## Register writes by firmware -/

/-- The core that serves the dictionary (R471): the Pommel core while it runs, otherwise the Cantle core with its firmware, or with
its boot ROM in RECOVERY (R458, R477). -/
def State.dictServer (s : State) : Option Master :=
  if s.pommelUp && !s.haltP then some .pommel
  else if s.cantleUp && !s.haltC && (s.startC.isSome || s.mode == modeRecovery) then some .cantle
  else none

/-- The core that writes the register at `a` for the server: the holder of the reins for a reins-governed one (R27). -/
def State.fwMaster (s : State) (a : Nat) : Master :=
  if reinsGoverned a then (if s.holderPommel then .pommel else .cantle)
  else if hostFacing a then .pommel
  else (s.dictServer).getD .cantle

/-- The status register whose CFGERR tells that a write of the register at `a` was refused. -/
def cfgStatusOf (a : Nat) : Nat :=
  let blk := a / 0x100000 * 0x100000
  if a / 0x100000 = 0x42 then 0x04208004
  else if 0x04780000 ≤ a ∧ a < 0x04800000 then 0x04780004
  else if a / 0x100000 = 0x47 then pgStatus (a % 0x100000 / 0x10000)
  else if a / 0x100000 = 0x48 then a / 0x40 * 0x40 + 12
  else blk + 4

/-- A value with a field that its register reserves (R13). -/
def reservedValue (a : Nat) (v : Word) : Bool := match regDesc a with | some d => d.illegal v | none => false

/-- One register write of a dictionary write: performed, or RANGE where the register refuses it. A register whose domain is off
takes the value when the domain next starts (R471), and refuses a reserved one even so. -/
def State.fwWrite (s : State) (a : Nat) (v : Word) : Except Nat State :=
  let m := s.fwMaster a
  let c := cfgStatusOf a
  if !s.domOn (regDom a) then (if reservedValue a v then .error resRange else .ok s)
  else if s.regRight m a true != .may then .error resRange
  else if bit (((s.setReg c (s.reg c &&& 0xFFFFFFFE#32)).regStore m a v).reg c) 0 then .error resRange
  else .ok ((s.jRegWrite m.id a v).regStore m a v)

/-- Register writes in order; one that is refused refuses them all. -/
def State.fwWrites (s : State) : List (Nat × Word) → Except Nat State
  | [] => .ok s
  | (a, v) :: l => match s.fwWrite a v with | .ok t => t.fwWrites l | .error r => .error r

/-- The register at `a` with an entry's value in its field. -/
def DEntry.put (e : DEntry) (v : Word) (bs : List Byte) : Word :=
  match e.field with
  | some (_, h, l) => putBits v h l (leNat bs - e.bias)
  | none => v

/-- The fields of an index by register, in the order of the table: each register with the values its fields take. -/
def State.fieldWords (s : State) (idx : Nat) : List (Nat × Word) :=
  (dictEntries idx).foldl (fun acc (sub, _, e) =>
    match e.field with
    | none => acc
    | some (a, _, _) =>
      let v := s.dictValue idx sub e
      if acc.any (fun p => p.1 == a) then acc.map (fun (b, w) => if b = a then (b, e.put w v) else (b, w))
      else acc ++ [(a, e.put (s.regValue 1 a) v)]) []

/-- Firmware applies the registers of an index where they differ from the dictionary. -/
def State.applyIndex (s : State) (idx : Nat) : State :=
  (s.fieldWords idx).foldl (fun t (a, v) =>
    if t.regValue 1 a = v then t else match t.fwWrite a v with | .ok u => u | .error _ => t) s

/-! ## Arrays (R160, R318, R353) -/

/-- The words of an array. -/
def wordsFrom (bs : List Byte) : List Word := (span 0 (bs.length / 4)).map (fun i => leWord (bs.drop (4 * i)))

/-- The words of a profile: the header last. -/
def profileWrites (p : Nat) (bs : List Byte) : List (Nat × Word) :=
  let ws := wordsFrom bs
  ((span 1 255).map (fun i => (profileAddr p + 4 * i, (ws[i]?).getD 0#32))) ++ [(profileAddr p, (ws[0]?).getD 0#32)]

/-- The writes of a station's descriptor (R289): select, words 1 to 4 while VALID is 0, then word 0. -/
def State.stationWrites (s : State) (n : Nat) (bs : List Byte) : List (Nat × Word) :=
  let ws := wordsFrom bs
  let w := fun (i : Nat) => (0x04780100 + 4 * i, (ws[i]?).getD 0#32)
  [(0x04780010, BitVec.ofNat 32 n)] ++ (if bit (s.station n).w0 31 then [(0x04780100, (s.station n).w0 &&& 0x7FFFFFFF#32)] else []) ++
    [w 1, w 2, w 3, w 4, w 0]

/-- The lowest place in the action table for n entries of group g, clear of every other group's entries. -/
def State.actionPlace (s : State) (g n : Nat) : Option Nat :=
  let used := ((span 0 256).filter (fun h => h != g && bitsOf (s.reg (sgCtrl h)) 17 11 != 0)).map
    (fun h => (bitsOf (s.reg (sgCtrl h)) 10 0, bitsOf (s.reg (sgCtrl h)) 17 11))
  let free := (0 :: used.map (fun (a, k) => a + k)).filter (fun st =>
    decide (st + n ≤ 2048) && used.all (fun (a, k) => decide (st + n ≤ a) || decide (a + k ≤ st)))
  free.foldl (fun b st => match b with | some x => some (min x st) | none => some st) none

/-- Firmware places a group's ACTIONS in the action table and sets START and COUNT (R160). -/
def State.actionWrites (s : State) (g : Nat) (bs : List Byte) : Option (List (Nat × Word)) :=
  let ws := wordsFrom bs
  (s.actionPlace g ws.length).map (fun st =>
    (List.zip (span st ws.length) ws).map (fun (i, w) => (actAddr i, w)) ++
      [(sgCtrl g, putBits (putBits (s.reg (sgCtrl g)) 10 0 st) 17 11 ws.length)])

/-- One REMAP element goes to the lowest entry of its macro that is not VALID (R353); one that is in force already stays. -/
def State.remapPlace (s : State) (w : Word) : Except Nat State :=
  let mac := bitsOf w 31 24
  let x := bitsOf w 16 0
  let (b, n) := remapRange mac
  if 25 < mac ∨ bitsOf w 23 17 ≠ 0 then .error resRange
  else if (span b n).any (fun e => bit (s.remapEnt e) 31 && bitsOf (s.remapEnt e) 16 0 == x) then .ok s
  else match (span b n).find? (fun e => !bit (s.remapEnt e) 31) with
  | none => .error resNoRoom
  | some e =>
    let t := State.remapWrite (s.setReg 0x04900004 (s.reg 0x04900004 &&& 0xFFFFFFFE#32)) e (BitVec.ofNat 32 (2 ^ 31 + x))
    if bit (t.reg 0x04900004) 0 then .error resRange else .ok (s.remapWrite e (BitVec.ofNat 32 (2 ^ 31 + x)))

/-- The elements of a REMAP array in order; one without a free entry sets CFGERR (R353). -/
def State.remapAll (s : State) : List Word → Except Nat State
  | [] => .ok s
  | w :: ws => match s.remapPlace w with | .ok t => t.remapAll ws | .error r => .error r

/-! ## Staging shares and vector counts (R233, R478) -/

/-- Two ranges overlap. -/
def rangesMeet (a n b k : Nat) : Bool := n != 0 && k != 0 && decide (a < b + k) && decide (b < a + n)

/-- A share is 4 KiB aligned, lies in its area and meets no other function's share (R478). -/
def State.stagingOk (s : State) (f i v : Nat) : Bool :=
  let b := i / 2 * 2
  let base := if i % 2 = 0 then v else s.stage f b
  let size := if i % 2 = 1 then v else s.stage f (b + 1)
  let (lo, hi) := if i < 2 then (0x00810000, 0x00C00000) else (0x01400000, 0x01800000)
  base % 4096 == 0 && size % 4096 == 0 && decide (lo ≤ base) && decide (base + size ≤ hi) &&
    (span 0 16).all (fun g => g == f || !rangesMeet base size (s.stage g b) (s.stage g (b + 1)))

/-- A staging share takes effect for operations accepted from now on. -/
def State.setStaging (s : State) (f i v : Nat) : State :=
  { s with staging := SMap.set (stagingReset (4 * f + i)) s.staging (4 * f + i) v }

/-- MSIX_VECTORS of every function, with one replaced, sum to at most 4,096 (R233). -/
def State.vectorsOk (s : State) (f v : Nat) : Bool :=
  decide ((span 0 16).foldl (fun n g => n + (if g = f then v else s.dictNat (0x2120 + g) 1 256)) 0 ≤ 4096)

/-- The host port takes the subsystem IDs and vector counts at a Pommel-half start (R233). -/
def State.takeVectors (s : State) : State :=
  (span 0 16).foldl (fun t f => (t.setFn f { t.fn f with vectors := t.dictNat (0x2120 + f) 1 256 }).cfgFixed f)
    { s with subsys := BitVec.ofNat 32 (s.dictNat 0x1020 2 0x1640 * 65536 + s.dictNat 0x1020 1 0x1F3E) }

/-! ## Shares (R183, R184) -/

/-- The ring share of function f that the dictionary holds. -/
def State.dictShare (s : State) (f : Nat) : Nat × Nat := (s.dictNat (0x2100 + f) 1 (1024 * f), s.dictNat (0x2100 + f) 2 1024)

/-- A share that QM_SHAREf would refuse beside the other shares of the dictionary is refused while PD_U4RT is off too (R184). -/
def State.shareOk (s : State) (f sub v : Nat) : Bool :=
  let (a, n) := s.dictShare f
  let (a, n) := if sub = 1 then (v, n) else (a, v)
  decide (a + n ≤ 16384) && (span 0 16).all (fun g => g == f || !rangesMeet a n (s.dictShare g).1 (s.dictShare g).2)

/-! ## The boot flash (R479, R481, R484) -/

/-- Areas of the boot flash: 0 and 1 the directory copies, 2 the persistent store, 3 and 4 the Cantle slots, 5 and 6 the Pommel
slots. -/
def slotArea (cantle slot : Bool) : Nat := (if cantle then 3 else 5) + (if slot then 1 else 0)

/-- The persistent entries: RW in 0x1010 and 0x2000 to 0xAFFF (R479). -/
def persistent (key : Nat) : Bool := key / 256 == 0x1010 || (decide (0x200000 ≤ key) && decide (key < 0xB00000))

/-- SAVE (R479): the current value of every persistent entry is stored. -/
def State.dictSave (s : State) : State :=
  let l := s.dict.filter (fun p => persistent p.1)
  ({ s with saveSt := 2, flash := { s.flash with store := some l } } : State).emit
    (.flash 2 (l.flatMap (fun (k, v) => leBytes 4 k ++ leBytes 4 v.length ++ v)))

/-- DEFAULTS (R479): both copies are erased. -/
def State.dictDefaults (s : State) : State := ({ s with flash := { s.flash with store := none } } : State).emit (.flash 2 [])

/-- A segment of an image is programmed into the slot that the directory does not name (R484). -/
def State.imageSegment (s : State) (cantle : Bool) (d : List Byte) : State :=
  let s : State := if cantle then { s with stagedC := false } else { s with stagedP := false }
  s.emit (.flash (slotArea cantle (!(if cantle then s.flash.slotC else s.flash.slotP))) d)

/-- The FIN segment: the image has been checked under R483, and is staged, or AUTH is answered. -/
def State.imageFin (s : State) (cantle : Bool) (i : Image) : State × Nat :=
  if i.headerOk && i.cantle == cantle && s.imageOk i then
    ((if cantle then { s with stagedC := true } else { s with stagedP := true } : State), resOK)
  else (s, resAuth)

/-- An image as its bytes spell it (R482, R483). -/
def State.imageFrom (s : State) (cantle : Bool) (b : List Byte) : Image :=
  let at_ := fun (o n : Nat) => leNat ((b.drop o).take n)
  { cantle := cantle
    headerOk := decide (at_ 0 4 = 0x57465A55) && decide (at_ 4 2 = 1) && decide (at_ 6 1 = (if cantle then 1 else 2)) &&
      decide (b.length = 4096 + at_ 8 4)
    authOk := Config.imageAuth s.fuses.keyDigest b
    svn := at_ 20 4, build := BitVec.ofNat 64 (at_ 24 8), entry := BitVec.ofNat 32 (at_ 12 4), warm := BitVec.ofNat 32 (at_ 16 4)
    payload := b.drop 4096 }

/-- A directory copy (R481): GEN, the two slots, zeros, and a CRC-32 with initial and final inversion. -/
def Flash.directory (f : Flash) : List Byte :=
  let b := padTo 4092 (leBytes 4 f.gen ++ leBytes 1 (if f.slotC then 1 else 0) ++ leBytes 1 (if f.slotP then 1 else 0))
  b ++ leBytes 4 (crcBytes 0xEDB88320 0xFFFFFFFF b ^^^ 0xFFFFFFFF)

/-- COMMIT (R484): a new directory with GEN + 1 in the older copy, naming every staged slot. -/
def State.dictCommit (s : State) : Except Nat State :=
  if !s.stagedC && !s.stagedP then .error resSequence
  else
    let fl := { s.flash with
      gen := s.flash.gen + 1
      slotC := if s.stagedC then !s.flash.slotC else s.flash.slotC
      slotP := if s.stagedP then !s.flash.slotP else s.flash.slotP }
    .ok (({ s with flash := fl, stagedC := false, stagedP := false } : State).emit
      (.flash (fl.gen % 2) fl.directory))

/-- SVN_RAISE (R484): no higher than the SVN of both running images, no lower than SVN_MIN. -/
def State.svnRaise (s : State) (v : Nat) : Except Nat State :=
  match s.cImg, s.pImg with
  | some c, some p =>
    if s.fuses.svnMin ≤ v ∧ v ≤ c.svn ∧ v ≤ p.svn then
      .ok (({ s with fuses := { s.fuses with svnMin := v }, burn := { s.burn with svn := some v } } : State).emit (.fuse 2 v))
    else .error resRange
  | _, _ => .error resRange

/-- KEY_DIGEST has been fused. -/
def State.keyFused (s : State) : Bool := s.burn.key.isSome || s.life != 0

/-- ADVANCE (R485): the target state in [31:24], the low 24 bits of SERIAL in [23:0]. Before a step to RETIRED the directory and
the persistent store are erased. -/
def State.lifeAdvance (s : State) (v : Word) : Except Nat State :=
  let t := bitsOf v 31 24
  let ok := (t == 1 && s.life == 0 && s.keyFused) || (t == 2 && s.life == 1) || t == 3
  if bitsOf v 23 0 ≠ s.fuses.serial.toNat % 2 ^ 24 ∨ !ok then .error resRange
  else
    let s : State := if t = 3 then ((({ s with flash := {} } : State).emit (.flash 0 [])).emit (.flash 1 [])).emit (.flash 2 []) else s
    .ok (({ s with burn := { s.burn with life := some t } } : State).emit (.fuse 0 t))

/-- KEY_PROG (R485): only in BLANK, and fuses are programmed once. -/
def State.keyProgram (s : State) (d : List Byte) : Except Nat State :=
  if s.life ≠ 0 then .error resLifecycle
  else if s.keyFused then .error resRange
  else .ok (({ s with burn := { s.burn with key := some d } } : State).emit (.fuse 1 (leNat d)))

/-! ## Applying a write -/

/-- The effect of a whole value written to an entry, or the result that refuses it; RESET follows its reply (R459). -/
def State.dictEffect (s : State) (idx sub : Nat) (e : DEntry) (v : List Byte) : Except Nat State :=
  let n := leNat v
  if idx = 0x1E00 then (if sub = 1 then s.lifeAdvance (BitVec.ofNat 32 n) else s.keyProgram v)
  else if idx = 0x1F00 then
    (if sub = 4 then (if n = 1 then s.dictCommit else .ok s) else if sub = 6 then s.svnRaise n else .ok s)
  else if idx = 0x1F10 then .ok (if n = 0 then s else if sub = 1 then s.dictSave else s.dictDefaults)
  else if 0x2100 ≤ idx ∧ idx < 0x2110 ∧ !s.domOn domU4RT then (if s.shareOk (idx - 0x2100) sub n then .ok s else .error resRange)
  else if 0x2120 ≤ idx ∧ idx < 0x2130 then (if s.vectorsOk (idx - 0x2120) n then .ok s else .error resRange)
  else if idx = 0x2201 then
    (match s.remapAll (wordsFrom v) with | .ok t => .ok t | .error r => .error r)
  else if 0x2400 ≤ idx ∧ idx < 0x2410 then
    (if s.stagingOk (idx - 0x2400) (sub - 1) n then .ok (s.setStaging (idx - 0x2400) (sub - 1) n) else .error resRange)
  else if idx = 0x2500 ∧ (sub = 5 ∨ sub = 6) then
    (let a := if sub = 5 then 0x04F00018 else 0x04F00020
     s.fwWrites [(a, BitVec.ofNat 32 n), (a + 4, BitVec.ofNat 32 (n / 2 ^ 32))])
  else if idx = 0x2501 ∧ sub = 1 then s.fwWrites [(0x04F0000C, BitVec.ofNat 32 n)]
  else if idx = 0x2501 then
    (if s.dictServer != some .pommel then .error resRange
     else if n = 1 then (if s.mode = 0xB ∧ s.trans.isNone ∧ s.replayOk then .ok (s.replayEnter .pommel) else .error resRange)
     else if s.mode = 0xA ∧ s.trans.isNone then .ok (s.replayExit .pommel) else .error resRange)
  else if 0x6000 ≤ idx ∧ idx < 0x6040 then s.fwWrites (profileWrites (idx - 0x6000) v)
  else if 0x6800 ≤ idx ∧ idx < 0x6810 then
    (let k := dictStation idx sub
     if s.staDark k then .ok s else s.fwWrites (s.stationWrites k v))
  else if 0x7100 ≤ idx ∧ idx < 0x7200 ∧ sub = 3 then
    (match s.actionWrites (idx - 0x7100) v with | some l => s.fwWrites l | none => .error resRange)
  else if idx = 0x8080 then .ok ((s.fcAckSeq n).fcSettle)
  else if idx = 0x9010 then
    (if n = 0 then .ok s
     else if s.dictServer = some .pommel ∧ s.mode = 8 ∧ s.trans.isNone then .ok (s.svcEnter .pommel) else .error resRange)
  else if idx = 0x9020 then .ok s
  else match e.field with
  | some (a, _, _) => s.fwWrites [(a, e.put (s.regValue 1 a) v)]
  | none => .ok s

/-- A value with its entry's checks of length and range, applied and kept (R464, R470, R478). -/
def State.dictStore (s : State) (idx sub : Nat) (e : DEntry) (v : List Byte) : Except Nat State :=
  if e.ty.badLen v.length then .error resLength
  else if e.badRange v then .error resRange
  else match s.dictEffect idx sub e v with
  | .error r => .error r
  | .ok t =>
    .ok (match e.acc with
      | .rw => { t with dict := SMap.set [] t.dict (dictKey idx sub) (if v = e.dflt then [] else v) }
      | _ => t)

/-! ## What resident firmware applies by itself (R131, R160, R184, R233, R318, R353, R449, R471, R479) -/

/-- Lanes of a port group, its supply and its FIFOs (R318). -/
def State.applyGroup (s : State) (n : Nat) : State :=
  (span 0 12).foldl (fun t k => t.applyIndex (0x6200 + 12 * n + k)) (s.applyIndex (0x6100 + n))

/-- Dictionary keys of an index range whose values differ from the defaults. -/
def State.dictKeys (s : State) (lo hi : Nat) : List Nat := (s.dict.map (fun p => p.1)).filter (fun k => decide (lo ≤ k / 256) && decide (k / 256 < hi))

/-- Apply the array entries of an index range as their values stand. -/
def State.applyArrays (s : State) (lo hi : Nat) : State :=
  (s.dictKeys lo hi).foldl (fun t k =>
    match dictEntry (k / 256) (k % 256) with
    | some e => (match t.dictEffect (k / 256) (k % 256) e (t.dictValue (k / 256) (k % 256) e) with | .ok u => u | .error _ => t)
    | none => t) s

/-- The stations of the dictionary that are not in force, once their profiles and lanes stand (R318). -/
def State.applyStations (s : State) : State :=
  (s.dictKeys 0x6800 0x6810).foldl (fun t k =>
    if bit (t.station (dictStation (k / 256) (k % 256))).w0 31 then t
    else match dictEntry (k / 256) (k % 256) with
    | some e => (match t.dictEffect (k / 256) (k % 256) e (t.dictValue (k / 256) (k % 256) e) with | .ok u => u | .error _ => t)
    | none => t) s

/-- The tempo sources of the dictionary (R160). -/
def State.applySources (s : State) : State := (span 0 16).foldl (fun t n => t.applyIndex (0x7000 + n)) s

/-- The Cantle firmware starts (R160, R318, R479): it loads the persistent store and applies it: the lanes of the port groups that are on,
profiles, stations, then the sources and strike groups that use them, and the always-on blocks. -/
def State.cantleFirmware (s : State) : State :=
  let s : State := { s with dict := (s.flash.store).getD [] }
  let s := (span 0 16).foldl (fun t f => (span 0 4).foldl (fun u i =>
    match SMap.get [] u.dict (dictKey (0x2400 + f) (i + 1)) with
    | [] => u
    | v => u.setStaging f i (leNat v)) t) s
  let s := ((span 0 8).foldl State.applyGroup s).applyArrays 0x6000 0x6040
  let s := s.applyStations.applySources.applyArrays 0x7100 0x7200
  ([0x8000, 0x9000, 0x2200] ++ span 0x8010 48 ++ span 0x2300 64).foldl (fun t i => t.applyIndex i) s

/-- The shares of the dictionary go into QM_SHAREf (R184): those that differ are emptied first, so that no order of writes makes two meet. -/
def State.applyShares (s : State) : State :=
  if !s.domOn domU4RT then s
  else
    let s := (span 0 16).foldl (fun t f => if (t.shareFirst f, t.shareCount f) = t.dictShare f then t else t.shareWrite f 0#32) s
    (span 0x2100 16).foldl (fun t i => t.applyIndex i) s

/-- The Pommel firmware starts (R131, R184, R233, R318, R353): shares, vectors, lane set-up, remapping, lanes and stations, then the AD_
registers, and AD_CTRL.EN last. -/
def State.pommelFirmware (s : State) : State :=
  let s := s.applyShares.takeVectors
  let s := ((s.applyIndex 0x2130).applyIndex 0x2200).applyArrays 0x2201 0x2202
  let s := ((span 0 8).foldl State.applyGroup s).applyStations.applySources
  let s := (span 0xA010 16).foldl (fun t i => t.applyIndex i) s
  s.applyIndex 0xA000

/-- One job of resident firmware: 100 the Cantle firmware's start, 101 the Pommel firmware's, else a domain that has started: for a port
group its lanes, then the stations and sources on them (R318, R471). -/
def State.firmwareJob (s : State) (j : Nat) : State :=
  if j = 100 then s.cantleFirmware
  else if j = 101 then (if s.pommelUp then s.pommelFirmware else s)
  else if 2 ≤ j ∧ j ≤ 9 then (s.applyGroup (j - 2)).applyStations.applySources
  else if j = 27 then (if s.pommelUp then s.pommelFirmware else s)
  else if j = 29 then
    let s := s.applyIndex 0x2500
    s.applyArrays 0x2500 0x2501
  else s

/-- Firmware does what is due, while a core runs it: the start of the Cantle firmware, which loads the dictionary, comes first (R479). -/
def State.firmware (s : State) : State :=
  if s.dictServer.isNone || s.fwDue.isEmpty then s
  else
    let first := s.fwDue.filter (fun j => j == 100)
    let rest := s.fwDue.filter (fun j => j != 100)
    { (first ++ rest).foldl State.firmwareJob s with fwDue := [] }

end Sys2Proof.Machine
end

