-- ==== Sys2Proof/Machine/Dict.lean ====
section
/-! DEFINITION. The dictionary's server and its transports (R463 to R477, R480): requests in segments, PF0's channel, the I3C
port, and the entries that start an action.
The log entries that hold here: PRESUMED 81; DEDUCED 38, 39, 40. -/

namespace Sys2Proof.Machine

/-! ## The server (R468 to R471, R480) -/

/-- What the server keeps for a requester. -/
def State.dictMem (s : State) (c : Nat) : DictMem := SMap.get {} s.dreq c
def State.setDictMem (s : State) (c : Nat) (x : DictMem) : State := { s with dreq := SMap.set {} s.dreq c x }

/-- WRITE_LOG, and the journal's DICT record (R480, R490): the oldest record leaves a full ring. -/
def State.dictLog (s : State) (k : DictClass) (idx sub res : Nat) : State :=
  let t := s.liveT0
  let r := [idx * 256 + sub, classCode k * 2 ^ 24 + classMaster k * 2 ^ 16 + res, t % 2 ^ 32, t / 2 ^ 32 % 2 ^ 32]
  ({ s with wlog := (s.wlog ++ [r]).drop (s.wlog.length - 63) } : State).jrec 0x20 0 r

/-- The entry was written after this requester's READ at OFFSET 0 (R469). -/
def DictMem.changed (x : DictMem) (key : Nat) : Bool := x.reads.contains (key, true)

/-- A READ at OFFSET 0 of the entry: a later one finds whether it was written since. -/
def DictMem.readFrom0 (x : DictMem) (key : Nat) : DictMem := { x with reads := (key, false) :: x.reads.filter (fun p => p.1 != key) }

/-- Every requester that has read the entry finds it changed (R469). -/
def State.dictChanged (s : State) (key : Nat) : State :=
  { s with dreq := s.dreq.map (fun (c, x) => (c, { x with reads := x.reads.map (fun p => (p.1, p.2 || p.1 == key)) })) }

/-- A whole value reaches the server (R469, R471, R480): applied in one step or refused, and logged. -/
def State.dictEnd (s : State) (k : DictClass) (idx sub : Nat) (r : Except Nat State) : State × Nat :=
  match r with
  | .ok t => ((t.dictChanged (dictKey idx sub)).dictLog k idx sub resOK, resOK)
  | .error e =>
    let s := if e = resNoRoom then s.cfgErr 0x04900004 else s
    (s.dictLog k idx sub e, e)

/-- The master ID of the core that serves. -/
def State.serverId (s : State) : Nat := match s.dictServer with | some m => m.id | none => 2

/-- RESET is passed to SU_RST once its reply has been sent (R459, R462). -/
def State.dictReset (s : State) (idx sub res : Nat) (v : List Byte) : State :=
  if idx = 0x9020 ∧ sub = 3 ∧ res = resOK then s.resetScope (leNat v) 5 s.serverId else s

/-- The staged write of a requester, where the request is its next segment; any other request discards it (R469). -/
def DictMem.keepStaged (x : DictMem) (wr : Bool) (key off : Nat) : DictMem :=
  match x.staged with
  | some (k, bs, _) => if wr && k == key && off == bs.length then x else { x with staged := none }
  | none => x

/-- Another requester holds a staged write of the entry (R470). -/
def State.stagedElsewhere (s : State) (c key : Nat) : Bool :=
  s.dreq.any (fun (d, x) => d != c && (match x.staged with | some (k, _, _) => k == key | none => false))

/-- A READ (R469): up to LEN bytes from OFFSET; a value written since the READ at OFFSET 0 ends it with CHANGED. -/
def State.dictRead (s : State) (q : DictReq) : State × Nat × List Byte :=
  let c := classKey q.cls
  let idx := q.index.toNat
  let sub := q.sub.toNat
  let x := s.dictMem c
  if q.fin then (s, resFrame, [])
  else match s.dictCheck q.cls idx sub false with
  | .error r => (s, r, [])
  | .ok e =>
    let mail := match q.cls with | .s _ => true | _ => false
    if mail && !e.ty.small then (s, resLength, [])
    else if q.offset != 0 && x.changed (dictKey idx sub) then (s, resChanged, [])
    else
      let s := if q.offset = 0 then s.setDictMem c (x.readFrom0 (dictKey idx sub)) else s
      if idx = 0xF300 ∧ sub = 4 then (let (s, d) := s.winBytes q.offset q.len; (s, resOK, d))
      else (s, resOK, ((s.dictValue idx sub e).drop q.offset).take q.len)

/-- The image entries, whose segments pass to the flash as they arrive. -/
def imageEntry (idx sub : Nat) : Option Bool := if idx = 0x1F00 ∧ sub = 1 then some true else if idx = 0x1F00 ∧ sub = 2 then some false else none

/-- A segment that is not the last is staged (R469); one of an image is programmed (R484). -/
def State.dictStage (s : State) (c key : Nat) (im : Option Bool) (bs d : List Byte) : State :=
  let s := match im with | some cantle => s.imageSegment cantle d | none => s
  s.setDictMem c { s.dictMem c with staged := some (key, bs ++ d, s.live) }

/-- The whole value of a write: an image is programmed and checked, any other value stored (R469, R484). -/
def State.dictWhole (s : State) (idx sub : Nat) (e : DEntry) (im : Option Bool) (bs d : List Byte) : Except Nat State :=
  match im with
  | none => s.dictStore idx sub e (bs ++ d)
  | some cantle =>
    let (t, r) := (s.imageSegment cantle d).imageFin cantle (s.imageFrom cantle (bs ++ d))
    if r = resOK then .ok t else .error r

/-- A WRITE segment (R469). -/
def State.dictWrite (s : State) (q : DictReq) : State × Nat :=
  let c := classKey q.cls
  let idx := q.index.toNat
  let sub := q.sub.toNat
  let key := dictKey idx sub
  let refuse := fun (r : Nat) => State.dictEnd (s.setDictMem c { s.dictMem c with staged := none }) q.cls idx sub (.error r)
  let bs := match (s.dictMem c).staged with | some (_, b, _) => b | none => []
  match s.dictCheck q.cls idx sub true with
  | .error r => refuse r
  | .ok e =>
    let mail := match q.cls with | .s _ => true | _ => false
    if mail && !e.ty.small then refuse resLength
    else if q.offset != bs.length then refuse resSequence
    else if s.stagedElsewhere c key then refuse resBusy
    else if !q.fin then (s.dictStage c key (imageEntry idx sub) bs q.data, resOK)
    else
      let s := s.setDictMem c { s.dictMem c with staged := none }
      s.dictEnd q.cls idx sub (s.dictWhole idx sub e (imageEntry idx sub) bs q.data)

/-- The header of a request, as a retry repeats it. -/
def reqHeader (q : DictReq) (wr : Bool) : List Nat :=
  [if wr then 2 else 1, if q.fin then 1 else 0, q.seq.val, q.index.toNat, q.sub.toNat, q.offset, q.len]

/-- The server answers one request (R469): a retry gets the earlier result, and nothing is applied a second time. -/
def State.dictServe (s : State) (q : DictReq) (wr : Bool) : State × Nat × List Byte :=
  let c := classKey q.cls
  let x := s.dictMem c
  let h := reqHeader q wr
  if x.hdr = h then (s, x.res, x.reply)
  else
    let s := s.setDictMem c (x.keepStaged wr (dictKey q.index.toNat q.sub.toNat) q.offset)
    let (s, r, d) : State × Nat × List Byte := if wr then (let (s, r) := s.dictWrite q; (s, r, [])) else s.dictRead q
    (s.setDictMem c { s.dictMem c with hdr := h, res := r, reply := d }, r, d)

/-- Function number of a class, for the answer. -/
def classFn : DictClass → Nat
  | .s f => f.val
  | _ => 0

/-- A request of any transport, with its answer; a RESET follows the answer. -/
def State.dictRequest (s : State) (q : DictReq) (wr : Bool) : State :=
  if s.dictServer.isNone then s
  else
    let retry := (s.dictMem (classKey q.cls)).hdr == reqHeader q wr
    let (t, r, d) := s.dictServe q wr
    let t := t.emit (.dict (classCode q.cls) (classFn q.cls) r d)
    if wr && q.fin && !retry then t.dictReset q.index.toNat q.sub.toNat r q.data else t

/-- DICT_READ (R469). -/
def execDictRead (q : DictReq) (s : State) : Result := .next (s.dictRequest q false)
/-- DICT_WRITE (R469). -/
def execDictWrite (q : DictReq) (s : State) : Result := .next (s.dictRequest q true)

/-- STAGED_WRITE_TIMEOUT (R469): 1 s without a segment discards the staged write. -/
def stagedWriteTimeout (s : State) (k : DictClass) : State :=
  let x := s.dictMem (classKey k)
  match x.staged with
  | some (_, _, t) => if t + 1200000000 ≤ s.live then s.setDictMem (classKey k) { x with staged := none } else s
  | none => s

def execStagedWriteTimeout (k : DictClass) (s : State) : Result := .next (stagedWriteTimeout s k)

/-! ## Entries that start an action (R412, R443, R462, R479, R484, R485, R511) -/

/-- A class writes a whole value to an entry, with its answer. -/
def State.dictAction (s : State) (k : DictClass) (idx sub : Nat) (v : List Byte) : State :=
  if s.dictServer.isNone then s
  else
    let mail := match k with | .s _ => true | _ => false
    let r := match s.dictCheck k idx sub true with
      | .error r => .error r
      | .ok e => if mail && !e.ty.small then .error resLength else if s.stagedElsewhere (classKey k) (dictKey idx sub) then .error resBusy
        else s.dictStore idx sub e v
    let (t, r) := s.dictEnd k idx sub r
    (t.emit (.dict (classCode k) (classFn k) r [])).dictReset idx sub r v

/-- A segment of an image write, with its answer; the FIN segment brings the image as it was checked. -/
def State.imageAction (s : State) (k : DictClass) (cantle : Bool) (d : List Byte) (fin : Bool) (i : Image) : State :=
  if s.dictServer.isNone then s
  else
    let idx := 0x1F00
    let sub := if cantle then 1 else 2
    let (t, r) := match s.dictCheck k idx sub true with
      | .error r => s.dictEnd k idx sub (.error r)
      | .ok _ =>
        if classCode k = 1 then s.dictEnd k idx sub (.error resLength)
        else if s.stagedElsewhere (classKey k) (dictKey idx sub) then s.dictEnd k idx sub (.error resBusy)
        else
          let t := s.imageSegment cantle d
          if !fin then (t, resOK)
          else
            let (u, r) := t.imageFin cantle i
            t.dictEnd k idx sub (if r = resOK then .ok u else .error r)
    t.emit (.dict (classCode k) (classFn k) r [])

/-- SAVE (R479). -/
def execSave (k : DictClass) (s : State) : Result := .next (s.dictAction k 0x1F10 1 [1#8])
/-- DEFAULTS (R479). -/
def execDefaults (k : DictClass) (s : State) : Result := .next (s.dictAction k 0x1F10 3 [1#8])
/-- CANTLE_IMAGE (R484). -/
def execCantleImage (k : DictClass) (data : List Byte) (fin : Bool) (img : Image) (s : State) : Result :=
  .next (s.imageAction k true data fin img)
/-- POMMEL_IMAGE (R484). -/
def execPommelImage (k : DictClass) (data : List Byte) (fin : Bool) (img : Image) (s : State) : Result :=
  .next (s.imageAction k false data fin img)
/-- COMMIT (R484). -/
def execCommit (k : DictClass) (s : State) : Result := .next (s.dictAction k 0x1F00 4 [1#8])
/-- SVN_RAISE (R484). -/
def execSvnRaise (k : DictClass) (v : Byte) (s : State) : Result := .next (s.dictAction k 0x1F00 6 [v])
/-- ADVANCE (R485). -/
def execAdvance (k : DictClass) (v : Word) (s : State) : Result := .next (s.dictAction k 0x1E00 1 (leBytes 4 v.toNat))
/-- KEY_PROG (R485). -/
def execKeyProg (k : DictClass) (digest : List Byte) (s : State) : Result := .next (s.dictAction k 0x1E00 2 digest)
/-- DICT_RESET (R462). -/
def execDictReset (k : DictClass) (scope : Byte) (s : State) : Result := .next (s.dictAction k 0x9020 3 [scope])
/-- DICT_ACK (R412). -/
def execDictAck (k : DictClass) (seq : Word) (s : State) : Result := .next (s.dictAction k 0x8080 1 (leBytes 4 seq.toNat))
/-- DICT_SERVICE (R443). -/
def execDictService (k : DictClass) (v : Byte) (s : State) : Result := .next (s.dictAction k 0x9010 4 [v])
/-- DICT_REPLAY (R511). -/
def execDictReplay (k : DictClass) (v : Byte) (s : State) : Result := .next (s.dictAction k 0x2501 2 [v])

/-! ## The PF0 channel (R472, R473) -/

/-- The request in PF0's channel, and whether it writes; none where its OP is reserved. -/
def State.channelReq (s : State) : Option (DictReq × Bool) :=
  let h := s.reg 0x04100100
  let n := bitsOf (s.reg 0x04100108) 7 0
  let op := bitsOf h 3 0
  let data := ((span 0 32).flatMap (fun i => leBytes 4 (s.reg (0x04100140 + 4 * i)).toNat)).take (if op = 2 then n else 0)
  if op = 1 ∨ op = 2 then
    some ({ cls := .p, fin := bit h 7, seq := Fin.ofNat 8 (bitsOf h 6 4), index := BitVec.ofNat 16 (bitsOf h 23 8),
            sub := BitVec.ofNat 8 (bitsOf h 31 24), offset := (s.reg 0x04100104).toNat, len := n, data := data }, op == 2)
  else none

/-- The bytes of a READ in FN_DICT_DATA; what lies behind them stays. -/
def State.channelData (s : State) (d : List Byte) : State :=
  (span 0 ((d.length + 3) / 4)).foldl (fun t i =>
    let a := 0x04100140 + 4 * i
    let old := leBytes 4 (t.reg a).toNat
    let new := (d.drop (4 * i)).take 4
    t.setReg a (leWord (new ++ old.drop new.length))) s

/-- The reply fills FN_DICT_STAT, and the vector of FN_DICT_CTRL fires (R473). -/
def State.channelReply (s : State) (seq r n : Nat) : State :=
  let s := s.setReg dictStat (BitVec.ofNat 32 (r * 65536 + n * 256 + seq * 16 + 1))
  let c := s.reg 0x0410010C
  if bit c 31 then s.onLiveOut (fun s => s.fireVector 0 (bitsOf c 9 0)) else s

/-- DICT_REPLY_READY (R473): the server has answered the request in PF0's channel. -/
def dictReplyReady (s : State) : State :=
  if !bit (s.reg dictStat) 31 || s.dictServer.isNone || !s.domOn domU4RT then s
  else match s.channelReq with
  | none => s.channelReply (bitsOf (s.reg 0x04100100) 6 4) resFrame 0
  | some (q, wr) =>
    let retry := (s.dictMem 0).hdr == reqHeader q wr
    let (t, r, d) := s.dictServe q wr
    let t := (t.channelData d).channelReply q.seq.val r d.length
    if wr && q.fin && !retry then t.dictReset q.index.toNat q.sub.toNat r q.data else t

def execDictReplyReady (s : State) : Result := .next (dictReplyReady s)

/-! ## The I3C port (R283, R431, R475 to R477) -/

/-- LANE00 is the dictionary port: FUNC I3C target with DICT set (R283). -/
def State.dictPort (s : State) : Bool := s.laneFunc 0 == 5 && bit (s.laneCfg 0) 26

/-- The port answers: its port group is on, it has its address and a core serves it. -/
def State.portAnswers (s : State) : Bool := s.domOn (pgDom 0) && s.dictPort && s.dictServer.isSome && s.i3cAddr.isSome

/-- The CRC of R476, low byte first. -/
def i3cCrc (b : List Byte) : List Byte := leBytes 2 (crcBytes 0x8408 0xFFFF b)

/-- A reply of the port: RESULT, SEQ, RLEN, 0, the data and the CRC (R476). -/
def i3cReplyOf (r seq : Nat) (d : List Byte) : List Byte :=
  let b := leBytes 1 r ++ leBytes 1 (seq * 16) ++ leBytes 1 d.length ++ [0#8] ++ d
  b ++ i3cCrc b

/-- A framed request, and whether it writes; none where its header or CRC is bad (R468, R476). -/
def i3cParse (b : List Byte) : Option (DictReq × Bool) :=
  let body := b.take (b.length - 2)
  let at_ := fun (o n : Nat) => leNat ((body.drop o).take n)
  let op := at_ 0 1 % 16
  let n := at_ 8 1
  let data := body.drop 12
  if b.length < 14 ∨ i3cCrc body ≠ b.drop (b.length - 2) ∨ (op ≠ 1 ∧ op ≠ 2) ∨ at_ 9 3 ≠ 0 ∨
      (op = 1 ∧ data ≠ []) ∨ (op = 2 ∧ (data.length ≠ n ∨ 64 < n)) then none
  else some ({ cls := .i, fin := (at_ 0 1).testBit 7, seq := Fin.ofNat 8 (at_ 0 1 / 16 % 8), index := BitVec.ofNat 16 (at_ 1 2),
               sub := BitVec.ofNat 8 (at_ 3 1), offset := at_ 4 4, len := if op = 1 then min n 255 else n, data := data }, op == 2)

/-- A reply is ready: it stays readable until the next request, and IBI_REPLY raises an in-band interrupt (R476). -/
def State.i3cReady (s : State) (b : List Byte) : State :=
  let s : State := { s with i3cReply := some b }
  if s.dictNat 0x1010 3 1 = 1 ∧ bit (s.laneCfg 0) 25 then s.emit (.i3cIbi 0xD1#8) else s

/-- I3C_DICT_REQUEST (R431, R476): while PD_PG0 is off the transfer is not acknowledged, and DICT wakes. -/
def i3cDictRequest (s : State) (b : List Byte) : State :=
  if s.mode = 0 then s
  else if !s.domOn (pgDom 0) then (wakeEventRow s 5).emit .i3cNack
  else if !s.portAnswers then s.emit .i3cNack
  else
    let s : State := { s with i3cReply := none }
    match i3cParse b with
    | none => s.i3cReady (i3cReplyOf resFrame (leNat (b.take 1) / 16 % 8) [])
    | some (q, wr) =>
      let retry := (s.dictMem 32).hdr == reqHeader q wr
      let (t, r, d) := s.dictServe q wr
      let t := t.i3cReady (i3cReplyOf r q.seq.val d)
      if wr && q.fin && !retry then t.dictReset q.index.toNat q.sub.toNat r q.data else t

def execI3cDictRequest (bytes : List Byte) (s : State) : Result := .next (i3cDictRequest s bytes)

/-- I3C_DICT_REPLY_READ (R476): the reply from its first byte, or no acknowledgement while none is ready. -/
def i3cDictReplyRead (s : State) : State :=
  if s.mode = 0 then s
  else match s.i3cReply with
  | some b => if s.portAnswers then s.emit (.i3c b) else s.emit .i3cNack
  | none => s.emit .i3cNack

def execI3cDictReplyRead (s : State) : Result := .next (i3cDictReplyRead s)

/-- What the port presents during ENTDAA (R475): the provisional ID, most significant byte first, then BCR and DCR. -/
def State.i3cIdent (s : State) : List Byte :=
  (leBytes 6 (s.fuses.mipiMfr.toNat % 2 ^ 15 * 2 ^ 33 + 0x1640 * 2 ^ 16 + s.dictNat 0x1010 2 0 * 2 ^ 12)).reverse ++ [0x06#8, 0x00#8]

/-- DYNAMIC_ADDRESS_ASSIGNMENT (R475): ENTDAA, in which the port identifies itself, or SETDASA from the static address. -/
def dynamicAddressAssignment (s : State) (setdasa : Bool) (addr : Nat) : State :=
  if s.domOn (pgDom 0) && s.dictPort && s.dictServer.isSome && !(setdasa && s.i3cAddr.isSome) then
    let s : State := { s with i3cAddr := some addr }
    if setdasa then s else s.emit (.i3c s.i3cIdent)
  else s

def execDynamicAddressAssignment (setdasa : Bool) (addr : BitVec 7) (s : State) : Result :=
  .next (dynamicAddressAssignment s setdasa addr.toNat)

/-! ## The mailboxes of the service functions (R474) -/

/-- What resident firmware keeps of function f's mailbox. -/
def State.svcMem (s : State) (f : Nat) : SvcMem := SMap.get {} s.svc f
def State.setSvc (s : State) (f : Nat) (x : SvcMem) : State := { s with svc := SMap.set {} s.svc f x }

/-- The reply word of a mailbox request, and the value word of a READ that ends OK (R474). -/
def svcReply (v : Word) (rd : Bool) (r : Nat) (d : List Byte) : List Word :=
  BitVec.ofNat 32 (3 * 2 ^ 30 + bitsOf v 29 27 * 2 ^ 27 + r * 2 ^ 16) :: (if rd && r == resOK then [leWord (padTo 4 d)] else [])

/-- The data of a WRITE: the value word without the bytes by which it is zero-extended; a word too large for its entry keeps them all. -/
def svcData (v w : Word) : List Byte :=
  match dictEntry (bitsOf v 23 8) (bitsOf v 7 0) with
  | some e => ((span 1 3).map (fun n => leBytes n w.toNat)).find? (fun d => !e.ty.badLen d.length && leNat d == w.toNat) |>.getD (leBytes 4 w.toNat)
  | none => leBytes 4 w.toNat

/-- A request word of function f as a request of the server. -/
def svcReq (f : Fin 16) (v : Word) (wr : Bool) (d : List Byte) : DictReq :=
  { cls := .s f, fin := wr, seq := Fin.ofNat 8 (bitsOf v 29 27), index := BitVec.ofNat 16 (bitsOf v 23 8), sub := BitVec.ofNat 8 (bitsOf v 7 0),
    offset := 0, len := if wr then d.length else 4, data := d }

/-- A word from function f's box: a READ is served, a WRITE waits for its value word, and a header out of form is answered with FRAME
(R470, R474). -/
def State.svcWord (s : State) (f : Fin 16) (v : Word) : State :=
  let put := fun (t : State) (l : List Word) => t.setSvc f.val { req := none, outq := l }
  match (s.svcMem f.val).req with
  | some h =>
    let (t, r, d) := s.dictServe (svcReq f h true (svcData h v)) true
    put t (svcReply h false r d)
  | none =>
    if bitsOf v 26 24 ≠ 0 ∨ bitsOf v 31 30 = 0 ∨ bitsOf v 31 30 = 3 then put s (svcReply v false resFrame [])
    else if bitsOf v 31 30 = 2 then s.setSvc f.val { req := some v }
    else
      let (t, r, d) := s.dictServe (svcReq f v false []) false
      put t (svcReply v true r d)

/-- Firmware serves one service function's mailbox pair: a word of a reply goes out as soon as the function's box takes one, and then the
next request is taken from the box. -/
def State.serveBox (s : State) (f : Fin 16) : State :=
  match (s.svcMem f.val).outq with
  | w :: ws =>
    if (s.fn f.val).resetAt.isSome || s.fenced f.val || s.boxFull (16 + f.val) then s
    else (s.setSvc f.val { s.svcMem f.val with outq := ws }).fnBoxWrite .pommel f.val w
  | [] =>
    match SMap.get none s.boxes f.val with
    | some _ => (let (t, v) := s.boxRead f.val; t.svcWord f v)
    | none => s

/-- The service functions are PF1 to PF15; the Pommel core serves them while it runs, and in REPLAY nothing comes from outside. -/
def State.serveBoxes (s : State) : State :=
  if s.mode = 0xA || s.dictServer != some .pommel then s else (span 1 15).foldl (fun t f => t.serveBox (Fin.ofNat 16 f)) s

end Sys2Proof.Machine
end

