-- ==== Sys2Proof/WellFormed.lean ====
section
/-! DEFINITION. Which commands are well-formed: the relations between operands that their types do not say. -/

namespace Sys2Proof

/-- A slot that exists: CE-A has 64 slots, the other engines 128 (R72). -/
def slotOk (e : EngineId) (k : SlotId) : Bool := e.val < 64 || k.val < 64

/-- An access of 1, 2, 4 or 8 bytes, aligned to its size, with as many data bytes as it writes (R8, R25). -/
def accessOk (addr size : Nat) (op : MemOp) : Bool :=
  (size == 1 || size == 2 || size == 4 || size == 8) && addr % size == 0 &&
    (match op with | .write d => d.length == size | _ => true)

/-- A width of R324, which an alias access may have at any address: R324 refuses what is not aligned to it. -/
def aliasWidth (n : Nat) : Bool := n == 1 || n == 2 || n == 4 || n == 8

/-- An address of R19's two alias windows. -/
def inAlias (a : Nat) : Bool :=
  (decide (0x10000000 ≤ a) && decide (a < 0x14000000)) || (decide (0x20000000 ≤ a) && decide (a < 0x24000000))

/-- A posting source that exists. -/
def PostSource.ok : PostSource → Bool
  | .slot e k => slotOk e k
  | _ => true

/-- A read of a slot that exists. -/
def ReadOwner.ok : ReadOwner → Bool
  | .slot e k => slotOk e k
  | _ => true

/-- A service function is one of PF1 to PF15; PF0 has the class P (R466). -/
def DictClass.ok : DictClass → Bool
  | .s f => f.val != 0
  | _ => true

/-- A dictionary request carries the data it announces in the one byte of LEN (R468). -/
def DictReq.ok (q : DictReq) : Bool := q.cls.ok && decide (q.data.length ≤ q.len) && decide (q.len < 256)

/-- The relations between operands, per command; commands without an entry have none. -/
def Instr.wf : Instr → Bool
  | .stationAcquire e k | .ccwFetch e k | .whenMet e k | .windowEnd e k | .write e k | .read e k | .control e k
  | .sense e k | .writeRead e k | .jump e k | .jumpIf e k | .loop e k | .wait e k | .strike e k | .shape e k
  | .move e k | .compare e k | .post e k | .signal e k | .fence e k | .nop e k | .stationCommand e k
  | .operationEnd e k | .halt e k | .clear e k | .suspend e k | .resume e k | .stopBoundaryTimeout e k
  | .responseTimeout e k | .busyClaimExhausted e k | .deadlineMiss e k | .shapeLate e k => slotOk e k
  | .hostReadCompletion e k _ => slotOk e k
  | .postingRequest p => p.ok
  | .completionTimeout _ w => w.ok
  | .coreMemoryAccess _ a n op _ =>
    accessOk a.toNat n op || (inAlias a.toNat && aliasWidth n && (match op with | .write d => d.length == n | _ => true))
  | .bar2Access a n op => decide (1 ≤ n) && decide (n ≤ 4096) && decide (a.toNat + n ≤ 2 ^ 28) && (match op with | .write d => d.length == n | _ => true)
  | .aliasWrite _ _ d => aliasWidth d.length
  | .registerWrite _ _ n (.writeQuad _) => n == 8
  | .ibi _ p => decide (p.length ≤ 255)
  | .dictRead q => q.ok && q.data.isEmpty
  | .dictWrite q => q.ok && decide (q.data.length = q.len)
  | .stagedWriteTimeout k | .save k | .defaults k | .cantleImage k _ _ _ | .pommelImage k _ _ _ | .commit k | .svnRaise k _
  | .advance k _ | .dictReset k _ | .dictAck k _ | .dictService k _ | .dictReplay k _ => k.ok
  | .fuseLoad (some x) => decide (x.keyDigest.length = 48) && decide (x.svnMin ≤ 64)
  | .keyProg k d => k.ok && decide (d.length = 48)
  | _ => true

end Sys2Proof
end

