-- ==== Sys2Proof/Machine/Debug.lean ====
section
/-! DEFINITION. The debug port (R22, R486, R487): attach, ZEROIZE, and the requests that the lifecycle state permits.
The log entries that hold here: DEDUCED 29, 42. -/

namespace Sys2Proof.Machine

/-- A refused request: the sticky error flag, and a record in group 46 (R22, R486). -/
def State.debugRefuse (s : State) : State := ({ s with debugErr := some (s.debugErr.getD 0) } : State).report 46 0 0 19 0 127 0#32

/-- A device reset with cause debug; the port stays attached (R453, R487). -/
def State.debugDevice (s : State) : State := { s.deviceReset 4 127 with dbgOn := true }

/-- DEBUG_ATTACH (R487): in FIELD and RETIRED a device reset, which fills every domain; in BLANK and DEVELOP nothing is filled. -/
def debugAttach (s : State) : State := if s.mode = 0 then s else if 2 ≤ s.life then s.debugDevice else { s with dbgOn := true }

def execDebugAttach (s : State) : Result := .next (debugAttach s)

/-- ZEROIZE (R487): in DEVELOP it resets as an attach in FIELD does. -/
def zeroize (s : State) : State := if s.mode = 0 then s else if s.life = 1 then s.debugDevice else s.debugRefuse

def execZeroize (s : State) : Result := .next (zeroize s)

/-- The attached port has control: in FIELD and RETIRED once the fills of its reset have ended (R487). -/
def State.debugControl (s : State) : Bool := s.dbgOn && (decide (s.life ≤ 1) || (s.mode != 1 && s.mode != 2))

/-- A core is halted or goes on (R486): not in RETIRED. -/
def State.debugHalt (s : State) (cantle halted : Bool) : State :=
  if !s.debugControl || s.life == 3 then s.debugRefuse
  else ((if cantle then { s with haltC := halted } else { s with haltP := halted } : State)).emit (.debug true [])

/-- DEBUG_REQUEST (R486). -/
def debugRequest (s : State) (q : DebugReq) : State :=
  if s.mode = 0 then s
  else match q with
  | .reset scope => if 1 ≤ scope.toNat ∧ scope.toNat ≤ 3 then s.resetScope scope.toNat 4 127 else s.debugRefuse
  | .haltCore c => s.debugHalt c true
  | .resumeCore c => s.debugHalt c false
  | .stepCore c => if s.debugControl && decide (s.life ≤ 1) && (if c then s.haltC else s.haltP) then s.emit (.debug true []) else s.debugRefuse
  | .register a op => registerWrite s .debug a.toNat 4 op
  | .memory a n op => if accessOk a.toNat n op then coreMemoryAccess s .debug a.toNat n op none else s.debugRefuse

def execDebugRequest (q : DebugReq) (s : State) : Result := .next (debugRequest s q)

end Sys2Proof.Machine
end

