-- ==== Sys2Proof/Machine/Replay.lean ====
section
/-! DEFINITION. What a replay loads and executes (R491, R492, R495, R498, R501 to R506): the bytes of PF0's journal ring become
records, the checkpoint is applied, and every record takes effect on its tick.
The log entries that hold here: DESIGN CHOICE 1, 49, 82; DEDUCED 44. -/

namespace Sys2Proof.Machine

/-! ## The checkpoint (R495, R503) -/

/-- A tempo source's state from its STAT word. -/
def srcStOf (n : Nat) : SrcSt := match n with | 1 => .acquire | 2 => .locked | 3 => .holdover | 4 => .lost | _ => .off

/-- A word of a tempo source's status and position. -/
def State.restoreSrc (s : State) (n off : Nat) (v : Word) : State :=
  let x := s.src n
  match off with
  | 0x10 => s.setSrc n { x with st := srcStOf (bitsOf v 2 0), relock := bitsOf v 15 8, glitch := bitsOf v 31 16, e := s.time }
  | 0x14 => s.setSrc n { x with pest := v.toNat * 256 }
  | 0x18 => s.setSrc n { x with base := x.base / 2 ^ 32 * 2 ^ 32 + v.toNat, floor := x.floor / 2 ^ 32 * 2 ^ 32 + v.toNat, e := s.time }
  | 0x1C => s.setSrc n { x with base := x.base % 2 ^ 32 + v.toNat * 2 ^ 32, floor := x.floor % 2 ^ 32 + v.toNat * 2 ^ 32, e := s.time }
  | _ => s

/-- A register of the checkpoint takes its value; counters and derived registers do not. -/
def State.restoreReg (s : State) (a : Nat) (v : Word) : State :=
  if 0x04500100 ≤ a ∧ a < 0x04500300 ∧ 0x10 ≤ a % 0x20 then s.restoreSrc ((a - 0x04500100) / 0x20) (a % 0x20) v
  else if a / 0x100000 = 0x46 then
    (if a % 0x10000 = 8 then s.scCtrl (a % 0x100000 / 0x10000) v
     else if (windowOf (a % 0x10000)).isSome then
      (match windowOf (a % 0x10000) with
       | some (k, o) => s.scStoreWord (a % 0x100000 / 0x10000) k o v
       | none => s)
     else match regDesc a with | some d => if d.rw = 0 then s else s.setReg a v | none => s)
  else match regDesc a with
  | some d => if d.rw = 0 then s else s.setReg a v
  | none => s

/-- A 64-bit word of a ring context (R163, R194). -/
def State.restoreRing (s : State) (g i v : Nat) : State :=
  let r := s.ring g
  let f := fun (o n : Nat) => v / 2 ^ (8 * o) % 2 ^ (8 * n)
  s.setRing g (match i with
    | 0 => { r with base := BitVec.ofNat 64 v }
    | 1 =>
      let typ := f 0 1
      { r with
        typ := typ, size := f 1 1, st := f 3 1, errIndex := f 6 2, jnHold := typ == 1 && f 3 1 == 3
        head := if typ = 1 then f 4 2 else r.head }
    | 2 => { r with lapx := f 0 1 == 1, errcode := f 1 1, pfdepth := f 2 1 % 4, mod := f 2 1 / 4 % 4,
                    cq := if r.typ = 1 then (match s.ringFn g with | some h => f 4 2 - s.shareFirst h | none => r.cq) else r.cq }
    | 3 => { r with dbseq := BitVec.ofNat 32 v, consumed := BitVec.ofNat 32 (v / 2 ^ 32) }
    | 4 => if r.typ = 2 then { r with haddr := BitVec.ofNat 64 v } else r
    | 5 => if r.typ = 2 then { r with tail := f 0 2, qhead := f 2 2, lapw := f 4 1 % 2 == 1, wake := f 4 1 / 2 % 2 == 1, cnt := f 5 1, time := f 6 2 } else r
    | 6 => if r.typ = 2 then { r with vector := f 0 2, stall := f 2 2 } else r
    | 7 => if r.typ = 2 then { r with posted := BitVec.ofNat 32 v } else r
    | _ => r)

/-- A 64-bit word of a station's descriptor and sense data (R288, R293). -/
def State.restoreStation (s : State) (n i v : Nat) : State :=
  let x := s.station n
  let lo := BitVec.ofNat 32 v
  let hi := BitVec.ofNat 32 (v / 2 ^ 32)
  let b := fun (o k : Nat) => v / 2 ^ (8 * o) % 2 ^ (8 * k)
  s.setStation n (match i with
    | 0 => { x with w0 := lo &&& 0xBFFFFFFF#32, w1 := hi }
    | 1 => { x with w2 := lo, w3 := hi }
    | 2 => { x with w4 := lo }
    | 4 => { x with flags := b 0 1, ureason := b 1 1, ibiCount := b 2 1, ibiData := (leBytes 4 (v / 2 ^ 32) ++ rep 4 0#8).take (b 3 1) }
    | 5 => { x with ibiData := (x.ibiData.take 4 ++ leBytes 4 v).take x.ibiData.length, levels := b 4 2 }
    | 6 => { x with attnT0 := v }
    | 7 => { x with lastLen := b 0 4 }
    | _ => x)

/-- A piece of a FIFO: the bytes not yet closed, or its next word. -/
def State.restoreFifo (s : State) (q : Nat) (l : List Nat) : State :=
  let h := (l.head?).getD 0
  let d := (l.tail.flatMap (leBytes 8)).take (h % 256)
  let f := fun (i : Nat) => h.testBit i
  if f 11 then s.setFifo q { words := [], part := d, partBad := f 8, spillOn := f 9, begun := f 10 }
  else s.setFifo q { s.fifo q with words := (s.fifo q).words ++ [{ data := d, eop := f 9, poison := f 8 }] }

/-- A piece of a completion ring's moderation. -/
def State.restoreMod (s : State) (g : Nat) (l : List Nat) : State :=
  let e := (l[1]?).getD 0
  s.setRing g { s.ring g with
    modCount := (l.head?).getD 0, modFrom := if e = 0 then none else some (s.time - (e - 1)), timeIn := (l[2]?).getD 100 }

/-- An address of the staging areas (R23). -/
def isStaging (a : Nat) : Bool :=
  (decide (0x00810000 ≤ a) && decide (a < 0x00C00000)) || (decide (0x01400000 ≤ a) && decide (a < 0x01800000))

/-- One 64-bit word of a checkpoint piece. -/
def State.restoreWord (s : State) (a v : Nat) : State :=
  if 0x00400000 ≤ a ∧ a < 0x00500000 then s.restoreRing ((a - 0x00400000) / 64) (a % 64 / 8) v
  else if 0x00500000 ≤ a ∧ a < 0x00580000 then s.restoreStation ((a - 0x00500000) / 128) (a % 128 / 8) v
  else if isStaging a then s.writeMem a (leBytes 8 v)
  else if ckptDmem 0 ≤ a ∧ a < ckptDmem 16 then
    (s.scStoreWord ((a - ckptDmem 0) / 0x10000) .dmem (a % 0x10000) (BitVec.ofNat 32 v)).scStoreWord
      ((a - ckptDmem 0) / 0x10000) .dmem (a % 0x10000 + 4) (BitVec.ofNat 32 (v / 2 ^ 32))
  else if isReg a then (s.restoreReg a (BitVec.ofNat 32 v)).restoreReg (a + 4) (BitVec.ofNat 32 (v / 2 ^ 32))
  else s

/-- Words from an address on. -/
def State.restoreWords (s : State) : Nat → List Nat → State
  | _, [] => s
  | a, v :: l => (s.restoreWord a v).restoreWords (a + 8) l

/-- A CKPT record: its words from the address it names. -/
def State.restorePiece (s : State) (a : Nat) (l : List Nat) : State :=
  if ckptFifo 0 ≤ a ∧ a < ckptFifo 512 then s.restoreFifo ((a - ckptFifo 0) / 512) l
  else if ckptMod 0 ≤ a ∧ a < ckptMod 16384 then s.restoreMod ((a - ckptMod 0) / 32) l
  else s.restoreWords a l

/-! ## Records from the ring (R491, R492, R498, R503, R505) -/

/-- The time of a T0 position: the tick that its phase identifies (R492). -/
def timeOfT0 (p : Nat) : Nat := p / 4096 * 1200 + 6 * ((p % 4096 * 200 + 4095) / 4096)

/-- SESSION (R490, R501, R503): its format, die revision and NOCKPT decide whether the replay may start. -/
def State.loadSession (s : State) (p : List Nat) : State :=
  let w := (p[0]?).getD 0
  let t := timeOfT0 ((p[1]?).getD 0)
  if w / 16 % 16 ≠ 1 ∨ w / 256 % 256 ≠ s.fuses.dieRev.toNat ∨ w / 8 % 2 = 1 then s.replayFail
  else { s with jn := { s.jn with
    seen := true, start := t, lastAt := t, base := t, ckpt := (p[3]?).getD 0, got := 0, exact := w / 2 ^ 16 % 2 ^ 16 == 0xFFFF } }

/-- A record that has been read (R504, R506): the checkpoint is applied, digests and samples are kept for their comparison and
their sampling points, records of what the field part did are passed over, and the inputs wait for their tick. -/
def State.loadRec (s : State) (r : JRec) : State :=
  let keep := fun (j : Jn) => ({ s with jn := { j with lastAt := r.at_ } } : State)
  match r.type with
  | 0x01 => if s.jnState = 4 then s.loadSession r.payload else s
  | 0x02 =>
    let t := if s.jnState = 4 then s.restorePiece ((r.payload.head?).getD 0) r.payload.tail else s
    { t with jn := { t.jn with got := t.jn.got + r.bytes } }
  | 0x03 => let t := timeOfT0 ((r.payload.head?).getD 0); { s with jn := { s.jn with lastAt := t } }
  | 0x05 =>
    let j := { s.jn with recs := s.jn.recs ++ [r] }
    keep (if (r.payload.head?).getD 0 = 0 then j else { j with exact := false })
  | 0x09 => keep (if s.jn.exact then { s.jn with recs := s.jn.recs ++ [r] } else { s.jn with answers := s.jn.answers ++ [r] })
  | 0x11 =>
    let l := r.srcid % 128
    let v := r.payload.foldr (fun w n => w + 2 ^ 64 * n) 0
    keep { s.jn with samplesIn := SMap.set [] s.jn.samplesIn l (SMap.get [] s.jn.samplesIn l ++ [(r.srcid / 256 + 1, v)]) }
  | 0x20 => keep s.jn
  | 0x21 => keep s.jn
  | 0x22 => keep { s.jn with expect := s.jn.expect ++ [{ at_ := r.at_, srcid := r.srcid, word0 := (r.payload[0]?).getD 0, word1 := (r.payload[1]?).getD 0 }] }
  | _ => keep { s.jn with recs := s.jn.recs ++ [r] }

/-- The records that the bytes read so far spell; a header of zeros is no record (R491). `fuel` bounds their number. -/
def State.loadBytes (s : State) : Nat → State
  | 0 => s
  | k + 1 =>
    let b := s.jn.bytesIn
    let h := leNat (b.take 8)
    let n := h / 2 ^ 48 % 2 ^ 8
    if b.length < 8 + 8 * n then s
    else
      let s : State := { s with jn := { s.jn with bytesIn := b.drop (8 + 8 * n) } }
      if h = 0 ∨ s.jnState = 6 then s.loadBytes k
      else
        let r : JRec := {
          at_ := s.jn.lastAt + h % 2 ^ 32 * 6, type := h / 2 ^ 58, srcid := h / 2 ^ 32 % 2 ^ 16
          payload := (span 0 n).map (fun i => leNat (((b.drop (8 + 8 * i)).take 8))), damaged := h / 2 ^ 57 % 2 == 1 }
        (s.loadRec r).loadBytes k

/-- The end of the session, or a GAP, has been read. -/
def State.endKnown (s : State) : Bool := s.jn.recs.any (fun r => r.type == 4 || r.type == 5)

/-- Replay may start (R503): the checkpoint is complete, and the window holds the records of the first millisecond. -/
def State.loadReady (s : State) : State :=
  { s with jn := { s.jn with
    ready := s.jn.seen && decide (s.jn.ckpt ≤ s.jn.got) && (decide (s.jn.start + 1200000 ≤ s.jn.lastAt) || s.endKnown)
    stalled := s.jnState == 5 && s.jn.stalled && s.replayDry } }

/-- JOURNAL_RING_READ (R498, R505): the bytes between CONS and PROD that the window has room for come in, and CONS is written. -/
def journalRingRead (s : State) (r : HostResult) : State :=
  let o := s.jn.cons % s.jnSize
  let room := winSize - (s.winUsed + s.jn.bytesIn.length)
  let n := min (min (s.jn.prod - s.jn.cons) room) (min 4096 (s.jnSize - o))
  if !(s.jnState = 4 ∨ s.jnState = 5) || !s.jnLink || n = 0 then s
  else
    let s : State := { s with out := s.out ++ [.hostRead 0 (s.jnBase + o) n] }
    match r with
    | .timeout => s.onLiveOut (fun s => s.timedOut 0 .timeout)
    | .ok d =>
      let d := d.take n
      let c := s.jn.cons + d.length
      let s := State.jnHostWrite { s with jn := { s.jn with cons := c, bytesIn := s.jn.bytesIn ++ d } } (s.jnCtl + 8) (leBytes 8 c)
      (s.loadBytes (s.jn.bytesIn.length / 8 + 1)).loadReady
    | _ => s

def execJournalRingRead (r : HostResult) (s : State) : Result := .next (journalRingRead s r)

/-! ## Records on their ticks (R146, R504 to R506) -/

/-- The master with an ID (R29). -/
def masterOf (i : Nat) : Master :=
  if i = 2 then .cantle else if 32 ≤ i ∧ i < 48 then .host (Fin.ofNat 16 (i - 32)) else if i = 127 then .debug else .pommel

/-- The result that a HOSTRD record holds, for a read of n bytes; with DAMAGED words it is as recorded. -/
def recResult (r : JRec) (n : Nat) : HostResult :=
  let d := (r.payload.tail.flatMap (fun w => leBytes 8 w)).take n
  match r.srcid / 256 % 16 with
  | 0 => .ok d | 1 => .ur | 2 => .ca | 3 => .poisoned | _ => .timeout

/-- A host read in flight: who waits, its function, address and length. -/
inductive Flight where
  | slot (key : Nat)
  | scan (g i : Nat)
  | head (g : Nat)
deriving DecidableEq, Repr

/-- The host reads in flight of every recorded function. -/
def State.flights (s : State) : List (Flight × Nat × Nat × Nat) :=
  (s.busySlots.filterMap (fun (k, x) => if keyEngine k = 64 then none else (x.w.reads.head?).map (fun r => (Flight.slot k, x.owner, r.addr, r.len)))) ++
    s.rings.flatMap (fun (g, r) =>
      match s.ringFn g with
      | none => []
      | some f =>
        (List.zip (span 0 r.reads.length) r.reads).map (fun (i, q) => (Flight.scan g i, f, r.base.toNat + 16 * q.unit, 64)) ++
          (if r.headRead then [(Flight.head g, f, r.haddr.toNat, 8)] else []))

/-- The record answers the read. -/
def State.answer (s : State) (w : Flight) (n : Nat) (r : JRec) : State :=
  match w with
  | .slot k => hostReadCompletion s k (recResult r n)
  | .scan g i => scanReadReturn s g (some (i, recResult r n))
  | .head g => headWordReturn s g (recResult r n)

/-- A HOSTRD record names the read of function f at address a. -/
def isAnswer (r : JRec) (f a : Nat) : Bool := r.srcid / 4096 == f && r.payload.head? == some a

/-- HOSTRD at EXACT level: the read in flight of its function and address is answered. -/
def State.replayRead (s : State) (r : JRec) : State :=
  match s.flights.find? (fun (_, f, a, _) => isAnswer r f a) with
  | some (w, _, _, n) => s.answer w n r
  | none => s

/-- HOSTRD at DATA level: every read in flight takes the next record of its function and address; where none is left, the
input diverges (R505, R506). -/
def State.replayReads (s : State) : State :=
  if s.jn.exact then s
  else s.flights.foldl (fun t (w, f, a, n) =>
    match t.jn.answers.find? (fun r => isAnswer r f a) with
    | some r => State.answer { t with jn := { t.jn with answers := t.jn.answers.erase r } } w n r
    | none => if t.endKnown then t.diverge 5 0x3FFF (f * 4096) else t) s

/-- HOSTEV (R490, R504): PowerState, Bus Master Enable, FLR and tunnel state of the recorded functions. -/
def State.replayEvent (s : State) (f w : Nat) : State :=
  let c := BitVec.ofNat 8 w
  let v := w / 256 % 256
  if c = Config.hostEventCode 1 then (s.setCfg f 0x44 (putBits (s.cfg f 0x44) 1 0 v)).stallUpdateAll
  else if c = Config.hostEventCode 2 then (s.setCfg f 0x04 (putBits (s.cfg f 0x04) 2 2 v)).stallUpdateAll
  else if c = Config.hostEventCode 3 then s.fnResetStart f
  else if c = Config.hostEventCode 4 then
    ({ s with tunnel := if v = 1 then .carried else if v = 2 then .paused .retrain else .none } : State).stallUpdateAll
  else s

/-- EDGE (R490, R504): the level at a lane's input, for the tempo sources and stations that look at it. -/
def State.replayEdge (s : State) (l : Nat) (level : Bool) : State :=
  let s := s.setLane l { s.lane l with ball := level }
  let s := ((span 2 14).filter (fun n => s.srcEnabled n && s.srcHasLane n && s.srcLane n == l)).foldl (fun t n => inputEdge t n level) s
  ((s.stations.map (fun p => p.1)).filter (fun n => s.staVALID n && bit (s.station n).w2 31 && bitsOf (s.station n).w2 6 0 == l)).foldl
    (fun t n => attentionEvent t n (.edge level)) s

/-- COREACC (R490): a recorded access to main SRAM; a write takes effect. -/
def State.replayAccess (s : State) (m w0 w1 : Nat) : State :=
  let a := w0 % 2 ^ 32
  let d := leBytes (2 ^ (w0 / 2 ^ 40 % 8)) w1
  if w0 / 2 ^ 43 % 2 = 0 then s
  else match aliasOf a with
  | some (t, set) => s.aliasStore (masterOf m) a t set d
  | none => s.writeMem a d

/-- IRQ (R359, R490): a WFI takes the recorded source. -/
def State.replayIrq (s : State) (c n : Nat) : State :=
  let x := s.core c
  if x.wfi then s.setCore c { (x.setReg (fRd (x.word .imem x.pc)) (BitVec.ofNat 32 n)).advance with wfi := false } else s

/-- One record takes effect on its tick. -/
def State.replayRec (s : State) (r : JRec) : State :=
  let w := fun (i : Nat) => (r.payload[i]?).getD 0
  match r.type with
  | 0x08 => (match s.ringFn r.srcid with | some f => s.ringRung f (r.srcid - s.shareFirst f) | none => s)
  | 0x09 => s.replayRead r
  | 0x0A => s.replayEvent (r.srcid % 16) (w 0)
  | 0x10 => s.replayEdge (r.srcid % 128) (r.srcid.testBit 7)
  | 0x12 => if r.srcid = 1 then hostTimeUpdate s (w 0) else s.boundary 6 s.time
  | 0x18 => s.regStore (masterOf (r.srcid % 128)) (w 0) (BitVec.ofNat 32 (w 1))
  | 0x19 => s.replayAccess (r.srcid % 128) (w 0) (w 1)
  | 0x1A => s.replayIrq (r.srcid / 4096) (r.srcid % 1024)
  | _ => s.diverge 5 0x3FFF 0

/-- The records of this tick in their order, up to an END or a GAP; `fuel` bounds their number. -/
def State.replayDue (s : State) : Nat → State
  | 0 => s
  | k + 1 =>
    match s.jn.recs with
    | [] => s
    | r :: rs =>
      if s.time < r.at_ ∨ r.type = 4 ∨ r.type = 5 ∨ s.jn.stopReq then s
      else
        let (t, r) := State.readRec { s with jn := { s.jn with recs := rs, base := r.at_ } } r
        (t.replayRec r).replayDue k

/-- A tick of a replay (R504, R505): the live T0 counts; replay time stands still while the window runs dry; otherwise the
records of the tick take effect. -/
def State.replayTick (s : State) : State :=
  let s : State := { s with jn := { s.jn with live := s.jn.live + s.tickLen } }
  if s.jn.stalled || s.replayDry then { s with jn := { s.jn with stalled := true } }
  else (((idleTick s).settleEdges).replayDue (s.jn.recs.length + 1)).replayReads

/-! ## The clock (R109, R413, R430, R471) -/

/-- A tick while no command is waiting: in OFF time stands still; else one tempo tick passes, edges become stable, the PWM outputs take their levels, a patrol pass ends,
firmware does what is due and serves the service functions' mailboxes, a PM_PME that has not been answered goes out again, function resets take
their second step, requests that waited for room go out, the link's own time runs, new records enter the window's array, and the journal, the power controller, the resets and the Fault Collector go on. -/
def clockTick (s : State) : State :=
  if s.mode = 0 then s
  else
    let s := State.pwmTicks <| State.laneReturns (if s.jnState = 5 then s.replayTick else (idleTick s).settleEdges)
    let s := (((span 0 16).foldl (fun t f => t.resendPme f) s).fnResetsTwo.sendWaiting).linkTick
    ((State.progress { s.firmware.serveBoxes.winPlace with patrol := false }).jnSettle).fcSettle

end Sys2Proof.Machine
end

