-- ==== Sys2Proof/Machine/Tick.lean ====
section
/-! DEFINITION. The order within a tick (R146): the commands in which the tempo unit and the engines act each belong to a step of
the tick, and a step that the tick has left behind comes again only on the next tick.
The log entries that hold here: DESIGN CHOICE 1. -/

namespace Sys2Proof.Machine

/-- The machine at step p of R146: of this tick, or of the next one where this tick has already gone further. Steps: 1 edges and
host-time updates, 2 state changes, 4 duplicated counters, 5 evaluations and launches, 7 writes to TP_ (after step 6).
DESIGN CHOICE (log entry 1). -/
def State.atStep (p : Nat) (s : State) : State := { (if s.tickStep ≤ p then s else clockTick s) with tickStep := p }

def execInputEdge (n : SrcId) (rising : Bool) (s : State) : Result :=
  .next (s.fromOutside (fun s =>
    let s := s.atStep 1
    inputEdge (if s.srcEnabled n.val && s.srcHasLane n.val then s.jEdge (s.srcLane n.val) rising else s) n.val rising))

def execHostTimeUpdate (t : Quad) (s : State) : Result := .next (s.fromOutside (fun s => hostTimeUpdate (s.atStep 1) t.toNat))

def execSourceOverdue (n : SrcId) (s : State) : Result := .next (sourceOverdue (s.atStep 2) n.val)

def execHoldoverExpiry (n : SrcId) (s : State) : Result := .next (holdoverExpiry (s.atStep 2) n.val)

def execHostSyncLoss (s : State) : Result := .next (s.fromOutside (fun s => hostSyncLoss (s.atStep 2)))

def execDupCounterMismatch (n : SrcId) (other : Quad) (s : State) : Result :=
  .next (dupCounterMismatch (s.atStep 4) n.val other.toNat)

def execWhenMet (e : EngineId) (k : SlotId) (s : State) : Result := .next (whenMet (s.atStep 5) (slotKey e.val k.val))

def execWindowEnd (e : EngineId) (k : SlotId) (s : State) : Result := .next (windowEnd (s.atStep 5) (slotKey e.val k.val))

def execStrike (e : EngineId) (k : SlotId) (s : State) : Result := .next (strikeCcw (s.atStep 5) (slotKey e.val k.val))

end Sys2Proof.Machine
end

