-- ==== Sys2Proof/Machine/Dispatch.lean ====
section
/-! DEFINITION. One arm per command: each calls the meaning of its row (R9, R22). -/

namespace Sys2Proof.Machine

def exec (i : Instr) (s : State) : Host.Outcome State Fault Refusal :=
  match i with
  | .doorbell f j => Sys2Proof.Machine.execDoorbell f j s
  | .cqDoorbell f j => Sys2Proof.Machine.execCqDoorbell f j s
  | .scanReadReturn g ret => Sys2Proof.Machine.execScanReadReturn g ret s
  | .wqFence g => Sys2Proof.Machine.execWqFence g s
  | .queueResume g => Sys2Proof.Machine.execQueueResume g s
  | .admissionDecision => Sys2Proof.Machine.execAdmissionDecision s
  | .ceAAdmission => Sys2Proof.Machine.execCeAAdmission s
  | .stationAcquire e k => Sys2Proof.Machine.execStationAcquire e k s
  | .ccwFetch e k => Sys2Proof.Machine.execCcwFetch e k s
  | .whenMet e k => Sys2Proof.Machine.execWhenMet e k s
  | .windowEnd e k => Sys2Proof.Machine.execWindowEnd e k s
  | .write e k => Sys2Proof.Machine.execWrite e k s
  | .read e k => Sys2Proof.Machine.execRead e k s
  | .control e k => Sys2Proof.Machine.execControl e k s
  | .sense e k => Sys2Proof.Machine.execSense e k s
  | .writeRead e k => Sys2Proof.Machine.execWriteRead e k s
  | .jump e k => Sys2Proof.Machine.execJump e k s
  | .jumpIf e k => Sys2Proof.Machine.execJumpIf e k s
  | .loop e k => Sys2Proof.Machine.execLoop e k s
  | .wait e k => Sys2Proof.Machine.execWait e k s
  | .strike e k => Sys2Proof.Machine.execStrike e k s
  | .shape e k => Sys2Proof.Machine.execShape e k s
  | .move e k => Sys2Proof.Machine.execMove e k s
  | .compare e k => Sys2Proof.Machine.execCompare e k s
  | .post e k => Sys2Proof.Machine.execPost e k s
  | .signal e k => Sys2Proof.Machine.execSignal e k s
  | .fence e k => Sys2Proof.Machine.execFence e k s
  | .nop e k => Sys2Proof.Machine.execNop e k s
  | .stationCommand e k => Sys2Proof.Machine.execStationCommand e k s
  | .laneItem l inbound r => Sys2Proof.Machine.execLaneItem l inbound r s
  | .streamIdleClose l => Sys2Proof.Machine.execStreamIdleClose l s
  | .stationTransferEnd st how => Sys2Proof.Machine.execStationTransferEnd st how s
  | .uartBreak l => Sys2Proof.Machine.execUartBreak l s
  | .ibi st payload => Sys2Proof.Machine.execIbi st payload s
  | .attentionEvent st k => Sys2Proof.Machine.execAttentionEvent st k s
  | .operationEnd e k => Sys2Proof.Machine.execOperationEnd e k s
  | .postingRequest src => Sys2Proof.Machine.execPostingRequest src s
  | .backlogDrain g => Sys2Proof.Machine.execBacklogDrain g s
  | .headWordReturn g r => Sys2Proof.Machine.execHeadWordReturn g r s
  | .headReread g => Sys2Proof.Machine.execHeadReread g s
  | .completionStall g => Sys2Proof.Machine.execCompletionStall g s
  | .moderationTimer g => Sys2Proof.Machine.execModerationTimer g s
  | .msixUnmask f v => Sys2Proof.Machine.execMsixUnmask f v s
  | .keptFiringDelivery f => Sys2Proof.Machine.execKeptFiringDelivery f s
  | .sleepFlush q => Sys2Proof.Machine.execSleepFlush q s
  | .flushAckTimeout q => Sys2Proof.Machine.execFlushAckTimeout q s
  | .halt e k => Sys2Proof.Machine.execHalt e k s
  | .clear e k => Sys2Proof.Machine.execClear e k s
  | .suspend e k => Sys2Proof.Machine.execSuspend e k s
  | .resume e k => Sys2Proof.Machine.execResume e k s
  | .stopBoundaryTimeout e k => Sys2Proof.Machine.execStopBoundaryTimeout e k s
  | .responseTimeout e k => Sys2Proof.Machine.execResponseTimeout e k s
  | .busyClaimExhausted e k => Sys2Proof.Machine.execBusyClaimExhausted e k s
  | .lockstepMismatch e => Sys2Proof.Machine.execLockstepMismatch e s
  | .sequencerResetDone e => Sys2Proof.Machine.execSequencerResetDone e s
  | .deadlineMiss e k => Sys2Proof.Machine.execDeadlineMiss e k s
  | .shapeLate e k => Sys2Proof.Machine.execShapeLate e k s
  | .hostReadCompletion e k r => Sys2Proof.Machine.execHostReadCompletion e k r s
  | .completionTimeout f who => Sys2Proof.Machine.execCompletionTimeout f who s
  | .ceADoorbell m => Sys2Proof.Machine.execCeADoorbell m s
  | .ceAEnable m v => Sys2Proof.Machine.execCeAEnable m v s
  | .ceACqHeadWrite m v => Sys2Proof.Machine.execCeACqHeadWrite m v s
  | .ceAStall => Sys2Proof.Machine.execCeAStall s
  | .ringEnable m f => Sys2Proof.Machine.execRingEnable m f s
  | .ringDisable m f => Sys2Proof.Machine.execRingDisable m f s
  | .ringRestart m f => Sys2Proof.Machine.execRingRestart m f s
  | .shareWrite m f v => Sys2Proof.Machine.execShareWrite m f v s
  | .inputEdge n rising => Sys2Proof.Machine.execInputEdge n rising s
  | .hostTimeUpdate t => Sys2Proof.Machine.execHostTimeUpdate t s
  | .hostSyncLoss => Sys2Proof.Machine.execHostSyncLoss s
  | .sourceOverdue n => Sys2Proof.Machine.execSourceOverdue n s
  | .holdoverExpiry n => Sys2Proof.Machine.execHoldoverExpiry n s
  | .dupCounterMismatch n other => Sys2Proof.Machine.execDupCounterMismatch n other s
  | .sourceCfgWrite m n v => Sys2Proof.Machine.execSourceCfgWrite m n v s
  | .tempoClockChange => Sys2Proof.Machine.execTempoClockChange s
  | .positionRead m n => Sys2Proof.Machine.execPositionRead m n s
  | .strikeActionEffect g => Sys2Proof.Machine.execStrikeActionEffect g s
  | .pulseEnd l => Sys2Proof.Machine.execPulseEnd l s
  | .strikeGroupArm m g v => Sys2Proof.Machine.execStrikeGroupArm m g v s
  | .strikeGroupDisarm m g v => Sys2Proof.Machine.execStrikeGroupDisarm m g v s
  | .actionEntryWrite m j v => Sys2Proof.Machine.execActionEntryWrite m j v s
  | .pgCtrlWrite m n v => Sys2Proof.Machine.execPgCtrlWrite m n v s
  | .laneFnWrite m l v => Sys2Proof.Machine.execLaneFnWrite m l v s
  | .laneCfgWrite m l tim v => Sys2Proof.Machine.execLaneCfgWrite m l tim v s
  | .readbackFault l => Sys2Proof.Machine.execReadbackFault l s
  | .safenLow => Sys2Proof.Machine.execSafenLow s
  | .safenHigh => Sys2Proof.Machine.execSafenHigh s
  | .force m v => Sys2Proof.Machine.execForce m v s
  | .release m => Sys2Proof.Machine.execRelease m s
  | .stationDescriptorWrite m w v => Sys2Proof.Machine.execStationDescriptorWrite m w v s
  | .profileWrite m p w v => Sys2Proof.Machine.execProfileWrite m p w v s
  | .fifoEnable m q v => Sys2Proof.Machine.execFifoEnable m q v s
  | .fifoFlush m q => Sys2Proof.Machine.execFifoFlush m q s
  | .aliasWrite m addr data => Sys2Proof.Machine.execAliasWrite m addr data s
  | .coreMemoryAccess m addr size op meet => Sys2Proof.Machine.execCoreMemoryAccess m addr size op meet s
  | .bar2Access off size op => Sys2Proof.Machine.execBar2Access off size op s
  | .mergeDrain k => Sys2Proof.Machine.execMergeDrain k s
  | .scrubLine addr => Sys2Proof.Machine.execScrubLine addr s
  | .fillComplete d => Sys2Proof.Machine.execFillComplete d s
  | .selftestComplete u failing checkerOk => Sys2Proof.Machine.execSelftestComplete u failing checkerOk s
  | .remapWrite m v => Sys2Proof.Machine.execRemapWrite m v s
  | .injectionArm m v => Sys2Proof.Machine.execInjectionArm m v s
  | .sourceMessage n => Sys2Proof.Machine.execSourceMessage n s
  | .icRaise m v => Sys2Proof.Machine.execIcRaise m v s
  | .candidateCommit p => Sys2Proof.Machine.execCandidateCommit p s
  | .interruptDelivery p => Sys2Proof.Machine.execInterruptDelivery p s
  | .icClaim m => Sys2Proof.Machine.execIcClaim m s
  | .icComplete m v => Sys2Proof.Machine.execIcComplete m v s
  | .mailboxWrite m box v => Sys2Proof.Machine.execMailboxWrite m box v s
  | .mailboxRead m box => Sys2Proof.Machine.execMailboxRead m box s
  | .lockRead m n => Sys2Proof.Machine.execLockRead m n s
  | .lockWrite m n v => Sys2Proof.Machine.execLockWrite m n v s
  | .detection r => Sys2Proof.Machine.execDetection r s
  | .fcAck m seq => Sys2Proof.Machine.execFcAck m seq s
  | .graceExpiry k => Sys2Proof.Machine.execGraceExpiry k s
  | .shadowClose => Sys2Proof.Machine.execShadowClose s
  | .ftrel m v => Sys2Proof.Machine.execFtrel m v s
  | .fcKick m => Sys2Proof.Machine.execFcKick m s
  | .watchdogExpiry cantle => Sys2Proof.Machine.execWatchdogExpiry cantle s
  | .fcInj m v => Sys2Proof.Machine.execFcInj m v s
  | .groupStatusClear m g v => Sys2Proof.Machine.execGroupStatusClear m g v s
  | .modeTransitionStart => Sys2Proof.Machine.execModeTransitionStart s
  | .modeTransitionEnd => Sys2Proof.Machine.execModeTransitionEnd s
  | .prepTimeout => Sys2Proof.Machine.execPrepTimeout s
  | .modeRequest m v => Sys2Proof.Machine.execModeRequest m v s
  | .domainRequest m v => Sys2Proof.Machine.execDomainRequest m v s
  | .portGroupDownTimeout n => Sys2Proof.Machine.execPortGroupDownTimeout n s
  | .quadDownTimeout k => Sys2Proof.Machine.execQuadDownTimeout k s
  | .linkFail => Sys2Proof.Machine.execLinkFail s
  | .give m => Sys2Proof.Machine.execGive m s
  | .take m => Sys2Proof.Machine.execTake m s
  | .heartbeatLapse => Sys2Proof.Machine.execHeartbeatLapse s
  | .wakeEvent j => Sys2Proof.Machine.execWakeEvent j s
  | .sidebandDetect => Sys2Proof.Machine.execSidebandDetect s
  | .wakeTimerArm m v => Sys2Proof.Machine.execWakeTimerArm m v s
  | .wakeTimerDisarm m v => Sys2Proof.Machine.execWakeTimerDisarm m v s
  | .wakeTimerDue => Sys2Proof.Machine.execWakeTimerDue s
  | .wakenSet m => Sys2Proof.Machine.execWakenSet m s
  | .wakenClr m => Sys2Proof.Machine.execWakenClr m s
  | .wakenTimeout => Sys2Proof.Machine.execWakenTimeout s
  | .patrolPass => Sys2Proof.Machine.execPatrolPass s
  | .svcEnter m => Sys2Proof.Machine.execSvcEnter m s
  | .svcExit m => Sys2Proof.Machine.execSvcExit m s
  | .replayEnter m => Sys2Proof.Machine.execReplayEnter m s
  | .replayExit m => Sys2Proof.Machine.execReplayExit m s
  | .pmClkWrite m v => Sys2Proof.Machine.execPmClkWrite m v s
  | .ckAon32MonitorArm => Sys2Proof.Machine.execCkAon32MonitorArm s
  | .ckAon32StartTimeout => Sys2Proof.Machine.execCkAon32StartTimeout s
  | .pornLow => Sys2Proof.Machine.execPornLow s
  | .supplyOutOfRange rail => Sys2Proof.Machine.execSupplyOutOfRange rail s
  | .pornRelease => Sys2Proof.Machine.execPornRelease s
  | .fuseLoad r => Sys2Proof.Machine.execFuseLoad r s
  | .bootImageLoaded img => Sys2Proof.Machine.execBootImageLoaded img s
  | .bootFlashTimeout => Sys2Proof.Machine.execBootFlashTimeout s
  | .linkgo m => Sys2Proof.Machine.execLinkgo m s
  | .warmStart ok => Sys2Proof.Machine.execWarmStart ok s
  | .deviceReset by_ => Sys2Proof.Machine.execDeviceReset by_ s
  | .pommelHalfReset by_ => Sys2Proof.Machine.execPommelHalfReset by_ s
  | .cantleCoreReset by_ => Sys2Proof.Machine.execCantleCoreReset by_ s
  | .linkTrained gen3 two => Sys2Proof.Machine.execLinkTrained gen3 two s
  | .tunnelPause why => Sys2Proof.Machine.execTunnelPause why s
  | .tunnelResume => Sys2Proof.Machine.execTunnelResume s
  | .tunnelLoss => Sys2Proof.Machine.execTunnelLoss s
  | .cl2Request router => Sys2Proof.Machine.execCl2Request router s
  | .linkWake m v => Sys2Proof.Machine.execLinkWake m v s
  | .powerStateWrite f ps => Sys2Proof.Machine.execPowerStateWrite f ps s
  | .configWrite f off v => Sys2Proof.Machine.execConfigWrite f off v s
  | .flr f => Sys2Proof.Machine.execFlr f s
  | .fnReset m f v => Sys2Proof.Machine.execFnReset m f v s
  | .functionResetEnd f => Sys2Proof.Machine.execFunctionResetEnd f s
  | .ptmDialogue => Sys2Proof.Machine.execPtmDialogue s
  | .ptmDialogueDone r => Sys2Proof.Machine.execPtmDialogueDone r s
  | .shapeDispatch => Sys2Proof.Machine.execShapeDispatch s
  | .klimit c => Sys2Proof.Machine.execKlimit c s
  | .kernelStop c => Sys2Proof.Machine.execKernelStop c s
  | .dmaComplete c => Sys2Proof.Machine.execDmaComplete c s
  | .scCtrlWrite m c v => Sys2Proof.Machine.execScCtrlWrite m c v s
  | .scDmemDataAccess m c op => Sys2Proof.Machine.execScDmemDataAccess m c op s
  | .scWindowAccess m c off size op => Sys2Proof.Machine.execScWindowAccess m c off size op s
  | .scAdd c => Sys2Proof.Machine.execScAdd c s
  | .scAdc c => Sys2Proof.Machine.execScAdc c s
  | .scSub c => Sys2Proof.Machine.execScSub c s
  | .scSbc c => Sys2Proof.Machine.execScSbc c s
  | .scAnd c => Sys2Proof.Machine.execScAnd c s
  | .scOr c => Sys2Proof.Machine.execScOr c s
  | .scXor c => Sys2Proof.Machine.execScXor c s
  | .scAndn c => Sys2Proof.Machine.execScAndn c s
  | .scShl c => Sys2Proof.Machine.execScShl c s
  | .scShr c => Sys2Proof.Machine.execScShr c s
  | .scSar c => Sys2Proof.Machine.execScSar c s
  | .scRor c => Sys2Proof.Machine.execScRor c s
  | .scMin c => Sys2Proof.Machine.execScMin c s
  | .scMax c => Sys2Proof.Machine.execScMax c s
  | .scMinu c => Sys2Proof.Machine.execScMinu c s
  | .scMaxu c => Sys2Proof.Machine.execScMaxu c s
  | .scMul c => Sys2Proof.Machine.execScMul c s
  | .scMulh c => Sys2Proof.Machine.execScMulh c s
  | .scMulhu c => Sys2Proof.Machine.execScMulhu c s
  | .scCmp c => Sys2Proof.Machine.execScCmp c s
  | .scTst c => Sys2Proof.Machine.execScTst c s
  | .scMov c => Sys2Proof.Machine.execScMov c s
  | .scAdds c => Sys2Proof.Machine.execScAdds c s
  | .scSubs c => Sys2Proof.Machine.execScSubs c s
  | .scAddi c => Sys2Proof.Machine.execScAddi c s
  | .scAndi c => Sys2Proof.Machine.execScAndi c s
  | .scOri c => Sys2Proof.Machine.execScOri c s
  | .scXori c => Sys2Proof.Machine.execScXori c s
  | .scShi c => Sys2Proof.Machine.execScShi c s
  | .scCmpi c => Sys2Proof.Machine.execScCmpi c s
  | .scMovhi c => Sys2Proof.Machine.execScMovhi c s
  | .scMovi c => Sys2Proof.Machine.execScMovi c s
  | .scLdW c => Sys2Proof.Machine.execScLdW c s
  | .scLdH c => Sys2Proof.Machine.execScLdH c s
  | .scLdHu c => Sys2Proof.Machine.execScLdHu c s
  | .scLdB c => Sys2Proof.Machine.execScLdB c s
  | .scLdBu c => Sys2Proof.Machine.execScLdBu c s
  | .scStW c => Sys2Proof.Machine.execScStW c s
  | .scStH c => Sys2Proof.Machine.execScStH c s
  | .scStB c => Sys2Proof.Machine.execScStB c s
  | .scLda c => Sys2Proof.Machine.execScLda c s
  | .scSta c => Sys2Proof.Machine.execScSta c s
  | .scMpyQ15 c => Sys2Proof.Machine.execScMpyQ15 c s
  | .scMacQ15 c => Sys2Proof.Machine.execScMacQ15 c s
  | .scMsuQ15 c => Sys2Proof.Machine.execScMsuQ15 c s
  | .scMpyQ31 c => Sys2Proof.Machine.execScMpyQ31 c s
  | .scMacQ31 c => Sys2Proof.Machine.execScMacQ31 c s
  | .scMsuQ31 c => Sys2Proof.Machine.execScMsuQ31 c s
  | .scMacdQ15 c => Sys2Proof.Machine.execScMacdQ15 c s
  | .scAclr c => Sys2Proof.Machine.execScAclr c s
  | .scAsatH c => Sys2Proof.Machine.execScAsatH c s
  | .scAsatW c => Sys2Proof.Machine.execScAsatW c s
  | .scArdL c => Sys2Proof.Machine.execScArdL c s
  | .scArdH c => Sys2Proof.Machine.execScArdH c s
  | .scAwr c => Sys2Proof.Machine.execScAwr c s
  | .scAwrh c => Sys2Proof.Machine.execScAwrh c s
  | .scClz c => Sys2Proof.Machine.execScClz c s
  | .scPopc c => Sys2Proof.Machine.execScPopc c s
  | .scBrev c => Sys2Proof.Machine.execScBrev c s
  | .scBswap c => Sys2Proof.Machine.execScBswap c s
  | .scExt c => Sys2Proof.Machine.execScExt c s
  | .scIns c => Sys2Proof.Machine.execScIns c s
  | .scBCc c => Sys2Proof.Machine.execScBCc c s
  | .scCall c => Sys2Proof.Machine.execScCall c s
  | .scCallr c => Sys2Proof.Machine.execScCallr c s
  | .scSysNop c => Sys2Proof.Machine.execScSysNop c s
  | .scRet c => Sys2Proof.Machine.execScRet c s
  | .scEnd c => Sys2Proof.Machine.execScEnd c s
  | .scSpill c => Sys2Proof.Machine.execScSpill c s
  | .scFill c => Sys2Proof.Machine.execScFill c s
  | .scRett c => Sys2Proof.Machine.execScRett c s
  | .scWfi c => Sys2Proof.Machine.execScWfi c s
  | .scRpt c => Sys2Proof.Machine.execScRpt c s
  | .scMfs c => Sys2Proof.Machine.execScMfs c s
  | .scMts c => Sys2Proof.Machine.execScMts c s
  | .scDmar c => Sys2Proof.Machine.execScDmar c s
  | .scDmaw c => Sys2Proof.Machine.execScDmaw c s
  | .scDmawait c => Sys2Proof.Machine.execScDmawait c s
  | .scVangestEntry c => Sys2Proof.Machine.execScVangestEntry c s
  | .fnDictGo m v => Sys2Proof.Machine.execFnDictGo m v s
  | .dictReplyReady => Sys2Proof.Machine.execDictReplyReady s
  | .i3cDictRequest bytes => Sys2Proof.Machine.execI3cDictRequest bytes s
  | .i3cDictReplyRead => Sys2Proof.Machine.execI3cDictReplyRead s
  | .dictRead q => Sys2Proof.Machine.execDictRead q s
  | .dictWrite q => Sys2Proof.Machine.execDictWrite q s
  | .stagedWriteTimeout k => Sys2Proof.Machine.execStagedWriteTimeout k s
  | .save k => Sys2Proof.Machine.execSave k s
  | .defaults k => Sys2Proof.Machine.execDefaults k s
  | .cantleImage k data fin img => Sys2Proof.Machine.execCantleImage k data fin img s
  | .pommelImage k data fin img => Sys2Proof.Machine.execPommelImage k data fin img s
  | .commit k => Sys2Proof.Machine.execCommit k s
  | .svnRaise k v => Sys2Proof.Machine.execSvnRaise k v s
  | .advance k v => Sys2Proof.Machine.execAdvance k v s
  | .keyProg k digest => Sys2Proof.Machine.execKeyProg k digest s
  | .dictReset k scope => Sys2Proof.Machine.execDictReset k scope s
  | .dictAck k seq => Sys2Proof.Machine.execDictAck k seq s
  | .dictService k v => Sys2Proof.Machine.execDictService k v s
  | .dictReplay k v => Sys2Proof.Machine.execDictReplay k v s
  | .debugAttach => Sys2Proof.Machine.execDebugAttach s
  | .zeroize => Sys2Proof.Machine.execZeroize s
  | .debugRequest q => Sys2Proof.Machine.execDebugRequest q s
  | .jnStart m => Sys2Proof.Machine.execJnStart m s
  | .jnStop m => Sys2Proof.Machine.execJnStop m s
  | .quietReached => Sys2Proof.Machine.execQuietReached s
  | .quietTimeout => Sys2Proof.Machine.execQuietTimeout s
  | .checkpointDone => Sys2Proof.Machine.execCheckpointDone s
  | .prodAnnounce => Sys2Proof.Machine.execProdAnnounce s
  | .consPoll r => Sys2Proof.Machine.execConsPoll r s
  | .replayStall => Sys2Proof.Machine.execReplayStall s
  | .replayEnd why => Sys2Proof.Machine.execReplayEnd why s
  | .registerWrite m addr size op => Sys2Proof.Machine.execRegisterWrite m addr size op s
  | .illegalInstruction c => Sys2Proof.Machine.execIllegalInstruction c s
  | .supplyInRange => Sys2Proof.Machine.execSupplyInRange s
  | .vioRemoved n => Sys2Proof.Machine.execVioRemoved n s
  | .connectionDetect => Sys2Proof.Machine.execConnectionDetect s
  | .pllLock => Sys2Proof.Machine.execPllLock s
  | .powerUpRampEnd d => Sys2Proof.Machine.execPowerUpRampEnd d s
  | .debugPortReset => Sys2Proof.Machine.execDebugPortReset s
  | .dynamicAddressAssignment setdasa addr => Sys2Proof.Machine.execDynamicAddressAssignment setdasa addr s
  | .conditionGone g det => Sys2Proof.Machine.execConditionGone g det s
  | .journalRingRead r => Sys2Proof.Machine.execJournalRingRead r s

end Sys2Proof.Machine
end

