-- ==== Sys2Proof/Safety.lean ====
section
/-! DEFINITION. What a safe run is, and the words in which claims are stated: a command that runs, the part of the state that
it changes, and the invariants of the tables. -/

namespace Sys2Proof

/-- The step answers a next state. -/
def goesOn (s : Machine.State) : Prop := ∃ t, Machine.step s = .next t

namespace Machine

/-! ## Shaping cores -/

/-- Core c runs a kernel in a powered quad and its next instruction word, fetched clean, is w (R241, R263). -/
def State.fetches (s : State) (c : CoreId) (w : Word) : Prop :=
  s.scRuns c.val = true ∧ (s.core c.val).pc < 0x8000 ∧ s.scPoison c.val .imem (s.core c.val).pc 4 = false ∧
    (s.core c.val).word .imem (s.core c.val).pc = w

/-- From s to t nothing changes but core c. -/
def onlyCore (s t : State) (c : CoreId) : Prop :=
  t = { s with cores := t.cores } ∧ ∀ d, d ≠ c.val → t.core d = s.core d

/-- The command runs, core c becomes y, and nothing else changes. -/
def coreGoes (i : Instr) (s : State) (c : CoreId) (y : ScCore) : Prop :=
  ∃ t, exec i s = .next t ∧ t.core c.val = y ∧ onlyCore s t c

/-- rd takes v with all four flags. -/
def aluNext (x : ScCore) (rd : Nat) (v : Word) (fc fv : Bool) : ScCore :=
  { x.setReg rd v with n := v.getLsbD 31, z := decide (v = 0#32), c := fc, v := fv }.advance

/-- rd takes v with Z and N; C and V keep their values. -/
def nzNext (x : ScCore) (rd : Nat) (v : Word) : ScCore := aluNext x rd v x.c x.v

/-- The flags alone take those of v. -/
def flagsNext (x : ScCore) (v : Word) (fc fv : Bool) : ScCore :=
  { x with n := v.getLsbD 31, z := decide (v = 0#32), c := fc, v := fv }.advance

/-- An accumulator takes an exact result modulo 2^40, with V (R248). -/
def macNext (x : ScCore) (n : Nat) (r : Int) : ScCore :=
  { x.setAcc n (BitVec.ofInt 40 r) with v := decide ((BitVec.ofInt 40 r).toInt ≠ r) }.advance

/-- The key of the slot whose kernel a core runs, and the owner of its accesses. -/
def ScCore.key (x : ScCore) : Nat := match x.req with | some r => r.key | none => 0

/-- A data load of core c from address a gives the bytes bs: aligned, and from clean DMEM or from staging of the owner's share
that is not poisoned (R235, R236, R250). -/
def State.scLoads (s : State) (c : CoreId) (a n : Nat) (bs : List Byte) : Prop :=
  a % n = 0 ∧
    ((0x03000000 ≤ a ∧ a < 0x03010000 ∧ s.scPoison c.val .dmem (a - 0x03000000) n = false ∧
        bs = (s.core c.val).read .dmem (a - 0x03000000) n) ∨
      (s.scStaging (s.core c.val).key a n = true ∧ s.poisoned a n = false ∧ bs = s.bytesAt a n))

/-- The new OFF that R253 gives an address generator whose check of validity passes. -/
def agMoves (size mode len off : Nat) (st : Int) (off' : Nat) : Prop :=
  (mode = 0 ∧ (off' : Int) = (off + st) % 65536) ∨
  (mode = 1 ∧ 1 ≤ len ∧ off < len ∧ st.natAbs ≤ len ∧
    (off' : Int) = if (len : Int) ≤ off + st then off + st - len else if off + st < 0 then off + st + len else off + st) ∨
  (mode = 2 ∧ ∃ k, 1 ≤ k ∧ k ≤ 15 ∧ len = size * 2 ^ k ∧ off < len ∧ off % size = 0 ∧
    off' = size * revBits k (((revBits k (off / size) : Int) + st) % 2 ^ k).toNat)

/-! ## Operations -/

/-- No ending is fixed for the slot's operation: no function reset ends it, no HALT waits for its CCW, and its last CCW has not
ended. -/
def Slot.openEnd (x : Slot) : Prop :=
  x.w.ending = none ∧ x.w.fnReset = false ∧ x.w.haltRuns = false ∧ x.w.lastDone = none

/-- The operation of a slot has ended with a check or request: its status holds that check, its ending the CCW and the residual, and it
goes to POSTING, or to HALTING while something of it is still in progress (R76, R78, R86). -/
def opEnds (s t : State) (key : Nat) (c : Check) (last : Quad) (residual : Nat) : Prop :=
  ((t.slot key).st = .posting ∨ (t.slot key).st = .halting) ∧ (t.slot key).cstat = (s.slot key).cstat ||| c.cstat ∧
    (t.slot key).ustat &&& c.ustat = c.ustat ∧ (t.slot key).w.ending = some { lastCcw := last, residual := residual, normal := false }

/-- The current CCW of a slot has ended: with NEXT the program goes on at the next CCW, without it the operation ends normally; either
at once where no mark is due, and otherwise when the marks have been posted (R43, R44, R78, R86). -/
def ccwPasses (s t : State) (key residual : Nat) : Prop :=
  let x := s.slot key
  let y := t.slot key
  (ccwNext x.ccw = true → y.cur = x.cur + 16#64 ∧ y.flow = 0 ∧ y.w.snapped = false ∧
    (y.st = .fetching ∨ ((y.st = .running ∨ y.st = .postHeld) ∧ y.w.ccwDone = true ∧ y.w.marks ≠ [])) ∧
    (x.w.marks = [] → ccwPmk x.ccw = false → y.st = .fetching)) ∧
  (ccwNext x.ccw = false →
    let ends := (y.st = .posting ∨ y.st = .halting) ∧ y.w.ending = some { lastCcw := x.cur, residual := residual, normal := true }
    (ends ∨ ((y.st = .running ∨ y.st = .postHeld) ∧ y.w.lastDone = some residual ∧ y.cur = x.cur ∧ y.w.marks ≠ [])) ∧
    (x.w.marks = [] → ccwPmk x.ccw = false → ends))

/-- From s to t nothing changes but one slot. -/
def onlySlot (s t : State) (key : Nat) : Prop := t = { s with slots := t.slots } ∧ ∀ k, k ≠ key → t.slot k = s.slot k

/-! ## Registers -/

/-- From s to t only registers, interrupt sources, detector reports and the journal recorder may change; every register but those
listed, and those of the journal's own block, reads as before. -/
def onlyRegs (s t : State) (as : List Nat) : Prop :=
  t = { s with regs := t.regs, irqs := t.irqs, reports := t.reports, jn := t.jn } ∧
    ∀ b, b ∉ as → b / 0x100000 ≠ 0x4F → t.reg b = s.reg b

/-- An access that is refused: it is answered with an error and reported, and nothing else happens (R22). -/
def refusedOnly (s t : State) : Prop :=
  t = { s with out := t.out, reports := t.reports, debugErr := t.debugErr }

/-! ## Memory -/

/-- Memory and merge buffers in their form: memory lists only bytes that differ from 0, in rising order; each of the 25 merge
buffers holds at most 8 entries, one for a word, each of 8 bytes of its own macro (R333, R341). -/
def State.memOk (s : State) : Prop :=
  Memory.wf s.mem = true ∧
  ∀ k, (SMap.get [] s.merge k).length ≤ 8 ∧ ((SMap.get [] s.merge k).map MergeEntry.addr).Nodup ∧
    ∀ e ∈ SMap.get [] s.merge k, mergeOf e.addr = k ∧ isTack e.addr = false ∧ e.addr % 8 = 0 ∧ e.bytes.length = 8

/-- From s to t the bytes bs were stored from address a upwards, and every other byte of memory reads as before. -/
def stored (s t : State) (a : Nat) (bs : List Byte) : Prop :=
  ∀ p, t.byteAt p = if a ≤ p ∧ p < a + bs.length then (bs[p - a]?).getD 0#8 else s.byteAt p

/-- Every byte of memory reads as before. -/
def memKept (s t : State) : Prop := ∀ p, t.byteAt p = s.byteAt p

/-- From s to t nothing changes but memory, its merge buffers and ECC, the memory system's and the journal's registers, interrupt
sources, detector reports and the count of free values. -/
def onlyMem (s t : State) : Prop :=
  t = { s with mem := t.mem, merge := t.merge, ecc := t.ecc, ceList := t.ceList, freeCtr := t.freeCtr, regs := t.regs, irqs := t.irqs,
               reports := t.reports, jn := t.jn } ∧
    ∀ b, b / 0x100000 ≠ 0x49 → b / 0x100000 ≠ 0x4F → t.reg b = s.reg b

/-! ## Fault Collector -/

/-- No reaction is in progress and no record without an entry waits for one (R388, R396). -/
def State.calm (s : State) : Prop :=
  s.ftReact = none ∧ s.loose = [] ∧ ∀ e ∈ s.opens, ∀ x, e.2 = some x → x.reacting = false

end Machine
end Sys2Proof
end

