-- ==== Sys2Proof/Certificates/Slice0/Obligations.lean ====
section
/-! DEFINITION. The statements for the provers: what each family of commands does, what it leaves unchanged, and what every step
keeps. A command answers a next state under the hypotheses of each statement. -/

open Sys2Proof Sys2Proof.Machine

/-- A step runs the command at the front of the queue with the queue's rest; on an empty queue the clock ticks (the model's choice,
notes/assumptions/1.md). -/
def Obligations.StepRunsFrontCommand : Prop :=
  ∀ (s : State) (c : Instr) (rest : List Instr),
    (s.pending = c :: rest → step s = exec c { s with pending := rest }) ∧ (s.pending = [] → step s = .next (clockTick s))

/-- No command stops the machine, none looks at the queue of the commands that wait, and none changes it: every step answers, and
takes exactly the front command from the queue. -/
def Obligations.EveryStepAnswers : Prop :=
  ∀ (s : State), (∀ c : Instr, ∃ t, exec c s = .next t ∧ t.pending = s.pending) ∧ ∃ t, step s = .next t ∧ t.pending = s.pending.tail

/-- At reset the registers of the always-on blocks read the values that their maps give (R440, R441, R460, R508), the part is in FILL
with its always-on logic alone powered (R413), T0 counts from 0 (R157), no queue, box, lock, slot or open record holds anything,
and memory has its form. -/
def Obligations.ResetState : Prop :=
  let r := State.reset
  r.memOk ∧ r.pending = [] ∧ r.out = [] ∧
  (∀ a v, (a, v) ∈ [(0x04D00000, 0x0C1E1900), (0x04D00004, 0), (0x04D00008, 1), (0x04D0000C, 0x50000), (0x04D00014, 0x1900A014),
      (0x04D00018, 0), (0x04D0001C, 0xFFFFFF), (0x04D00020, 1), (0x04D00024, 0x233FFFF0), (0x04D00028, 0x7FF), (0x04D0002C, 0),
      (0x04D00030, 0), (0x04D00034, 0), (0x04D00038, 0), (0x04D0003C, 0), (0x04E00004, 0), (0x04C00020, 0), (0x04F00008, 0x64A00000)] →
    r.regValue 2 a = BitVec.ofNat 32 v) ∧
  r.mode = 1 ∧ (∀ d, d < 30 → r.domOn d = decide (d = 0)) ∧ r.live = 0 ∧
  (∀ k, (r.slot k).st = .idle) ∧ (∀ g, (r.ring g).st = 0) ∧ (∀ b, SMap.get none r.boxes b = none) ∧
  (∀ n, n < 256 → r.reg (0x04B81000 + 4 * n) = 0#32) ∧ (∀ n, (r.irqSrc n).pend = false ∧ (r.irqSrc n).active = false) ∧
  ∀ e, SMap.get none r.opens e = none

/-- Every step keeps memory and the merge buffers in their form: memory lists only bytes that differ from 0, in rising order, and each
merge buffer holds at most 8 entries (R333), of distinct words that lie in its own macro and outside Tack Room. -/
def Obligations.MemoryFormIsKept : Prop :=
  ∀ (s t : State), s.memOk → step s = .next t → t.memOk

/-- R247: B.cc goes to its address plus 4 times its sign-extended offset when its condition is true, and else to the next instruction,
without a delay slot; a taken branch whose target lies at or above 0x8000 raises IFETCH at the branch, and COND 0xF raises ILLEGAL
with sub-reason 0x4. -/
def Obligations.BranchesFollowTheirConditions : Prop :=
  ∀ (c : CoreId) (s : State) (w : Word), s.fetches c w → isMajor 0x20 w →
    let x := s.core c.val
    let b := 0x04600000 + 0x10000 * c.val
    let tgt : Word := BitVec.ofNat 32 x.pc + 4#32 * (w.extractLsb' 0 22).signExtend 32
    let raises := fun (e : Word) => x.dmas = [] → ∃ t, exec (.scBCc c) s = .next t ∧ t.reg (b + 0x18) = e ∧
      t.reg (b + 0x1C) = BitVec.ofNat 32 x.pc ∧ (t.core c.val).st ≠ .running ∧ (∀ d, d ≠ c.val → t.core d = s.core d) ∧ memKept s t
    (∀ cc : Bool,
      ([true, x.z, !x.z, x.c, !x.c, x.n, !x.n, x.v, !x.v, x.c && !x.z, !x.c || x.z, x.n == x.v, x.n != x.v, !x.z && x.n == x.v,
        x.z || x.n != x.v])[bitsOf w 25 22]? = some cc →
      (cc = false → coreGoes (.scBCc c) s c x.advance) ∧
      (cc = true → tgt.toNat < 0x8000 → coreGoes (.scBCc c) s c { x with pc := tgt.toNat, rep := none }) ∧
      (cc = true → 0x8000 ≤ tgt.toNat → raises 0x03000000#32)) ∧
    (bitsOf w 25 22 = 15 → raises 0x01040000#32)

/-- R246: the BIT instructions, each result given bit by bit, set Z and N from it; POS + WM1 above 31 raises ILLEGAL with sub-reason
0x7, and FN 0x06 to 0x1F are no instructions, which raises ILLEGAL with sub-reason 0x2. -/
def Obligations.ShapingCoreBitInstructions : Prop :=
  ∀ (c : CoreId) (s : State) (w : Word), s.fetches c w →
    let x := s.core c.val
    let a := x.reg (fRs1 w)
    let d := x.reg (fRd w)
    let pos := bitsOf w 15 11
    let wm1 := bitsOf w 10 6
    let b := 0x04600000 + 0x10000 * c.val
    let raises := fun (i : Instr) (e : Word) => x.dmas = [] → ∃ t, exec i s = .next t ∧ t.reg (b + 0x18) = e ∧
      t.reg (b + 0x1C) = BitVec.ofNat 32 x.pc ∧ (t.core c.val).st ≠ .running ∧ (∀ d, d ≠ c.val → t.core d = s.core d) ∧ memKept s t
    (bitsOf w 15 5 = 0 →
      (isFn 0x1C 0 w → ∃ v : Word, v.toNat ≤ 32 ∧ (∀ i, i < v.toNat → a.getLsbD (31 - i) = false) ∧
        (v.toNat < 32 → a.getLsbD (31 - v.toNat) = true) ∧ coreGoes (.scClz c) s c (nzNext x (fRd w) v)) ∧
      (isFn 0x1C 1 w → ∃ v : Word, v.toNat = ((List.range 32).filter (fun i => a.getLsbD i)).length ∧
        coreGoes (.scPopc c) s c (nzNext x (fRd w) v)) ∧
      (isFn 0x1C 2 w → ∃ v : Word, (∀ i, i < 32 → v.getLsbD i = a.getLsbD (31 - i)) ∧
        coreGoes (.scBrev c) s c (nzNext x (fRd w) v)) ∧
      (isFn 0x1C 3 w → ∃ v : Word, (∀ i, i < 32 → v.getLsbD i = a.getLsbD (8 * (3 - i / 8) + i % 8)) ∧
        coreGoes (.scBswap c) s c (nzNext x (fRd w) v))) ∧
    (pos + wm1 ≤ 31 →
      (isFn 0x1C 4 w → ∃ v : Word,
        (∀ i, i < 32 → v.getLsbD i = if i ≤ wm1 then a.getLsbD (pos + i) else bit w 5 && a.getLsbD (pos + wm1)) ∧
        coreGoes (.scExt c) s c (nzNext x (fRd w) v)) ∧
      (isFn 0x1C 5 w → bit w 5 = false → ∃ v : Word,
        (∀ i, i < 32 → v.getLsbD i = if pos ≤ i ∧ i ≤ pos + wm1 then a.getLsbD (i - pos) else d.getLsbD i) ∧
        coreGoes (.scIns c) s c (nzNext x (fRd w) v))) ∧
    (31 < pos + wm1 →
      (isFn 0x1C 4 w → raises (.scExt c) 0x01070000#32) ∧ (isFn 0x1C 5 w → bit w 5 = false → raises (.scIns c) 0x01070000#32)) ∧
    (isMajor 0x1C w → 6 ≤ fFn w → raises (.illegalInstruction c) 0x01020000#32)

/-- R377: a read of a free lock grants it and returns 0, a read of a held one returns its holder and changes nothing; a write of 0 by
the holder frees it, by another is a violation, and a write of any other value is a configuration error. Reads of one cycle come
as two commands, the lower master ID first (R30), so that the second finds the lock held; no host function reaches a lock. -/
def Obligations.LocksAreGrantedOnce : Prop :=
  ∀ (s : State) (m : Master) (n : LockId) (v : Word),
    let a := 0x04B81000 + 4 * n.val
    let mine := BitVec.ofNat 32 (0x80000000 + m.id)
    (∀ (f : Fn) (wr : Bool), s.regRight (.host f) a wr = .refused) ∧
    (s.regRight m a false = .may →
      (s.reg a = 0#32 → ∃ t, exec (.lockRead m n) s = .next t ∧ t.reg a = mine ∧ t.out = s.out ++ [.readData m.id (leBytes 4 0)] ∧
        onlyRegs { s with out := t.out } t [a]) ∧
      (s.reg a ≠ 0#32 → exec (.lockRead m n) s = .next { s with out := s.out ++ [.readData m.id (leBytes 4 (s.reg a).toNat)] })) ∧
    (s.regRight m a true = .may →
      (v = 0#32 → s.reg a = mine → ∃ t, exec (.lockWrite m n v) s = .next t ∧ t.reg a = 0#32 ∧ onlyRegs s t [a]) ∧
      (v = 0#32 → s.reg a ≠ mine → ∃ t, exec (.lockWrite m n v) s = .next t ∧ bit (t.reg 0x04B80004) 1 = true ∧
        t.reg 0x04B80008 = BitVec.ofNat 32 (0x80000000 + m.id * 0x10000 + n.val) ∧ onlyRegs s t [0x04B80004, 0x04B80008]) ∧
      (v ≠ 0#32 → ∃ t, exec (.lockWrite m n v) s = .next t ∧ bit (t.reg 0x04B80004) 0 = true ∧ onlyRegs s t [0x04B80004]))

/-- R244, R245, R270: additions and subtractions of registers and immediates: the result, its flags, and nothing else. C of a
subtraction is 1 when no borrow occurs, or on a borrow with CBORROW. R244, R245: logical operations, minimum and maximum, products
and moves: the result with Z and N (MOVHI and MOVI without), C and V as before, and nothing else. R244, R245, R270: shifts by a
register or an immediate: C is the last bit shifted out, a shift by 0 leaves C, and V keeps its value; SHIFT6 takes amounts up to
63 of a register shift except ROR. -/
def Obligations.ShapingCoreArithmetic : Prop :=
  (∀ (c : CoreId) (s : State) (w : Word), s.fetches c w →
     let x := s.core c.val
     let a := x.reg (fRs1 w)
     let b := x.reg (fRs2 w)
     let k := immS w
     let ci : Nat := if x.c then 1 else 0
     let bi : Nat := if x.c = x.cborrow then 1 else 0
     (bitsOf w 10 5 = 0 →
       (isFn 1 0x00 w → coreGoes (.scAdd c) s c
         (aluNext x (fRd w) (a + b) (decide (2 ^ 32 ≤ a.toNat + b.toNat)) (decide (a.toInt + b.toInt ≠ (a + b).toInt)))) ∧
       (isFn 1 0x01 w → coreGoes (.scAdc c) s c
         (aluNext x (fRd w) (a + b + BitVec.ofNat 32 ci) (decide (2 ^ 32 ≤ a.toNat + b.toNat + ci))
           (decide (a.toInt + b.toInt + ci ≠ (a + b + BitVec.ofNat 32 ci).toInt)))) ∧
       (isFn 1 0x02 w → coreGoes (.scSub c) s c
         (aluNext x (fRd w) (a - b) (decide (b.toNat ≤ a.toNat) != x.cborrow) (decide (a.toInt - b.toInt ≠ (a - b).toInt)))) ∧
       (isFn 1 0x03 w → coreGoes (.scSbc c) s c
         (aluNext x (fRd w) (a - b - BitVec.ofNat 32 bi) (decide (b.toNat + bi ≤ a.toNat) != x.cborrow)
           (decide (a.toInt - b.toInt - bi ≠ (a - b - BitVec.ofNat 32 bi).toInt)))) ∧
       (isFn 1 0x13 w → fRd w = 0 → coreGoes (.scCmp c) s c
         (flagsNext x (a - b) (decide (b.toNat ≤ a.toNat) != x.cborrow) (decide (a.toInt - b.toInt ≠ (a - b).toInt)))) ∧
       (isFn 1 0x16 w → coreGoes (.scAdds c) s c
         (let r := a.toInt + b.toInt
          let v : Word := if r < -2 ^ 31 then 0x80000000#32 else if 2 ^ 31 ≤ r then 0x7FFFFFFF#32 else a + b
          aluNext x (fRd w) v x.c (decide (r ≠ (a + b).toInt)))) ∧
       (isFn 1 0x17 w → coreGoes (.scSubs c) s c
         (let r := a.toInt - b.toInt
          let v : Word := if r < -2 ^ 31 then 0x80000000#32 else if 2 ^ 31 ≤ r then 0x7FFFFFFF#32 else a - b
          aluNext x (fRd w) v x.c (decide (r ≠ (a - b).toInt))))) ∧
     (isMajor 0x02 w → coreGoes (.scAddi c) s c
       (aluNext x (fRd w) (a + k) (decide (2 ^ 32 ≤ a.toNat + k.toNat)) (decide (a.toInt + k.toInt ≠ (a + k).toInt)))) ∧
     (isMajor 0x07 w → fRd w = 0 → coreGoes (.scCmpi c) s c
       (flagsNext x (a - k) (decide (k.toNat ≤ a.toNat) != x.cborrow) (decide (a.toInt - k.toInt ≠ (a - k).toInt))))) ∧
  (∀ (c : CoreId) (s : State) (w : Word), s.fetches c w →
     let x := s.core c.val
     let a := x.reg (fRs1 w)
     let b := x.reg (fRs2 w)
     (bitsOf w 10 5 = 0 →
       (isFn 1 0x04 w → coreGoes (.scAnd c) s c (nzNext x (fRd w) (a &&& b))) ∧
       (isFn 1 0x05 w → coreGoes (.scOr c) s c (nzNext x (fRd w) (a ||| b))) ∧
       (isFn 1 0x06 w → coreGoes (.scXor c) s c (nzNext x (fRd w) (a ^^^ b))) ∧
       (isFn 1 0x07 w → coreGoes (.scAndn c) s c (nzNext x (fRd w) (a &&& ~~~ b))) ∧
       (isFn 1 0x0C w → coreGoes (.scMin c) s c (nzNext x (fRd w) (if b.toInt < a.toInt then b else a))) ∧
       (isFn 1 0x0D w → coreGoes (.scMax c) s c (nzNext x (fRd w) (if a.toInt < b.toInt then b else a))) ∧
       (isFn 1 0x0E w → coreGoes (.scMinu c) s c (nzNext x (fRd w) (if b.toNat < a.toNat then b else a))) ∧
       (isFn 1 0x0F w → coreGoes (.scMaxu c) s c (nzNext x (fRd w) (if a.toNat < b.toNat then b else a))) ∧
       (isFn 1 0x10 w → coreGoes (.scMul c) s c (nzNext x (fRd w) (a * b))) ∧
       (isFn 1 0x11 w → coreGoes (.scMulh c) s c (nzNext x (fRd w) ((a.signExtend 64 * b.signExtend 64).extractLsb' 32 32))) ∧
       (isFn 1 0x12 w → coreGoes (.scMulhu c) s c (nzNext x (fRd w) ((a.setWidth 64 * b.setWidth 64).extractLsb' 32 32))) ∧
       (isFn 1 0x14 w → fRd w = 0 → coreGoes (.scTst c) s c (flagsNext x (a &&& b) x.c x.v)) ∧
       (isFn 1 0x15 w → fRs2 w = 0 → coreGoes (.scMov c) s c (nzNext x (fRd w) a))) ∧
     (isMajor 0x03 w → coreGoes (.scAndi c) s c (nzNext x (fRd w) (a &&& immZ w))) ∧
     (isMajor 0x04 w → coreGoes (.scOri c) s c (nzNext x (fRd w) (a ||| immZ w))) ∧
     (isMajor 0x05 w → coreGoes (.scXori c) s c (nzNext x (fRd w) (a ^^^ immZ w))) ∧
     (isMajor 0x08 w → fRs1 w = 0 → coreGoes (.scMovhi c) s c ((x.setReg (fRd w) (immZ w <<< 16)).advance)) ∧
     (isMajor 0x09 w → fRs1 w = 0 → coreGoes (.scMovi c) s c ((x.setReg (fRd w) (immS w)).advance))) ∧
  (∀ (c : CoreId) (s : State) (w : Word), s.fetches c w →
     let x := s.core c.val
     let a := x.reg (fRs1 w)
     let b := x.reg (fRs2 w)
     let m := b.toNat % (if x.shift6 then 64 else 32)
     let shl := fun (k : Nat) => aluNext x (fRd w) (a <<< k) (if k = 0 then x.c else if k ≤ 32 then a.getLsbD (32 - k) else false) x.v
     let shr := fun (k : Nat) => aluNext x (fRd w) (a >>> k) (if k = 0 then x.c else if k ≤ 32 then a.getLsbD (k - 1) else false) x.v
     let sar := fun (k : Nat) =>
       aluNext x (fRd w) (a.sshiftRight k) (if k = 0 then x.c else if k ≤ 32 then a.getLsbD (k - 1) else a.getLsbD 31) x.v
     let ror := fun (k : Nat) => aluNext x (fRd w) (a.rotateRight k) (if k = 0 then x.c else (a.rotateRight k).getLsbD 31) x.v
     (bitsOf w 10 5 = 0 →
       (isFn 1 0x08 w → coreGoes (.scShl c) s c (shl m)) ∧
       (isFn 1 0x09 w → coreGoes (.scShr c) s c (shr m)) ∧
       (isFn 1 0x0A w → coreGoes (.scSar c) s c (sar m)) ∧
       (isFn 1 0x0B w → coreGoes (.scRor c) s c (ror (b.toNat % 32)))) ∧
     (isMajor 0x06 w → bitsOf w 15 8 = 0 →
       let k := bitsOf w 4 0
       (bitsOf w 7 5 = 0 → coreGoes (.scShi c) s c (shl k)) ∧ (bitsOf w 7 5 = 1 → coreGoes (.scShi c) s c (shr k)) ∧
         (bitsOf w 7 5 = 2 → coreGoes (.scShi c) s c (sar k)) ∧ (bitsOf w 7 5 = 3 → coreGoes (.scShi c) s c (ror k))))

/-- R248, R249, R270: the MAC instructions put the exact result into the selected accumulator modulo 2^40, with V, and keep Z, N and
C; the ACC instructions read and write it. -/
def Obligations.ShapingCoreAccumulators : Prop :=
  ∀ (c : CoreId) (s : State) (w : Word), s.fetches c w →
    let x := s.core c.val
    let a := x.reg (fRs1 w)
    let b := x.reg (fRs2 w)
    let f : Int := if x.macraw then 1 else 2
    let lo := f * ((a.extractLsb' 0 16).toInt * (b.extractLsb' 0 16).toInt)
    let hi := f * ((a.extractLsb' 16 16).toInt * (b.extractLsb' 16 16).toInt)
    let q := Int.fdiv (a.toInt * b.toInt) (2 ^ 31)
    let n := bitsOf w 25 25
    let r := (x.acc n).toInt
    (bitsOf w 24 21 = 0 → bitsOf w 10 5 = 0 →
      (isFn 0x1A 0 w → coreGoes (.scMpyQ15 c) s c (macNext x n lo)) ∧
      (isFn 0x1A 1 w → coreGoes (.scMacQ15 c) s c (macNext x n (r + lo))) ∧
      (isFn 0x1A 2 w → coreGoes (.scMsuQ15 c) s c (macNext x n (r - lo))) ∧
      (isFn 0x1A 3 w → coreGoes (.scMpyQ31 c) s c (macNext x n q)) ∧
      (isFn 0x1A 4 w → coreGoes (.scMacQ31 c) s c (macNext x n (r + q))) ∧
      (isFn 0x1A 5 w → coreGoes (.scMsuQ31 c) s c (macNext x n (r - q))) ∧
      (isFn 0x1A 6 w → coreGoes (.scMacdQ15 c) s c (macNext x n (r + lo + hi)))) ∧
    (bitsOf w 19 16 = 0 → bitsOf w 10 5 = 0 →
      let n := bitsOf w 20 20
      let acc := x.acc n
      let sat : Int → Int := fun r => if r < -2 ^ 31 then -2 ^ 31 else if 2 ^ 31 - 1 < r then 2 ^ 31 - 1 else r
      (fRd w = 0 → fRs2 w = 0 → isFn 0x1B 0 w → coreGoes (.scAclr c) s c ((x.setAcc n 0#40).advance)) ∧
      (fRs2 w = 0 →
        (isFn 0x1B 1 w → coreGoes (.scAsatH c) s c
          (let r := acc.toInt + 0x8000
           aluNext x (fRd w) (((BitVec.ofInt 32 (sat r)).extractLsb' 16 16).signExtend 32) x.c (decide (sat r ≠ r)))) ∧
        (isFn 0x1B 2 w → coreGoes (.scAsatW c) s c
          (aluNext x (fRd w) (BitVec.ofInt 32 (sat acc.toInt)) x.c (decide (sat acc.toInt ≠ acc.toInt)))) ∧
        (isFn 0x1B 3 w → coreGoes (.scArdL c) s c (nzNext x (fRd w) (acc.extractLsb' 0 32))) ∧
        (isFn 0x1B 4 w → coreGoes (.scArdH c) s c (nzNext x (fRd w) ((acc.extractLsb' 32 8).signExtend 32)))) ∧
      (fRd w = 0 →
        (isFn 0x1B 5 w → coreGoes (.scAwr c) s c ((x.setAcc n (b.signExtend 40)).advance)) ∧
        (isFn 0x1B 6 w → coreGoes (.scAwrh c) s c
          ((x.setAcc n ((b.extractLsb' 0 8 : BitVec 8) ++ (acc.extractLsb' 0 32 : BitVec 32))).advance))))

/-- R236, R250: a load takes its bytes from DMEM or staging at rs1 + sext(IMM), extended as its mnemonic says; flags, all other
registers and every byte of memory stay. R236, R250: a store writes the low bytes of the register that the rd field names at rs1 +
sext(IMM), to DMEM or to staging of the owner's share, and changes no other byte, register or flag. -/
def Obligations.ShapingCoreLoadsAndStores : Prop :=
  (∀ (c : CoreId) (s : State) (w : Word) (bs : List Byte), s.fetches c w →
     let x := s.core c.val
     let a := (x.reg (fRs1 w) + immS w).toNat
     let v := leNat bs
     let loaded := fun (i : Instr) (r : Word) =>
       ∃ t, exec i s = .next t ∧ t.core c.val = (x.setReg (fRd w) r).advance ∧ (∀ d, d ≠ c.val → t.core d = s.core d) ∧ memKept s t
     (isMajor 0x10 w → s.scLoads c a 4 bs → loaded (.scLdW c) (BitVec.ofNat 32 v)) ∧
     (isMajor 0x11 w → s.scLoads c a 2 bs → loaded (.scLdH c) ((BitVec.ofNat 16 v).signExtend 32)) ∧
     (isMajor 0x12 w → s.scLoads c a 2 bs → loaded (.scLdHu c) (BitVec.ofNat 32 v)) ∧
     (isMajor 0x13 w → s.scLoads c a 1 bs → loaded (.scLdB c) ((BitVec.ofNat 8 v).signExtend 32)) ∧
     (isMajor 0x14 w → s.scLoads c a 1 bs → loaded (.scLdBu c) (BitVec.ofNat 32 v))) ∧
  (∀ (c : CoreId) (s : State) (w : Word), s.fetches c w →
     let x := s.core c.val
     let a := (x.reg (fRs1 w) + immS w).toNat
     let d := x.reg (fRd w)
     let dmem := fun (i : Instr) (n : Nat) => a % n = 0 → 0x03000000 ≤ a → a < 0x03010000 →
       ∃ y : ScCore, coreGoes i s c y.advance ∧ y = { x with dmem := y.dmem } ∧
         ∀ o, o < 65536 → SMap.get 0#8 y.dmem o =
           if a - 0x03000000 ≤ o ∧ o < a - 0x03000000 + n then d.extractLsb' (8 * (o - (a - 0x03000000))) 8 else SMap.get 0#8 x.dmem o
     let staging := fun (i : Instr) (n : Nat) => a % n = 0 → s.scStaging x.key a n = true → s.memOk →
       ∃ t, exec i s = .next t ∧ t.core c.val = x.advance ∧ (∀ e, e ≠ c.val → t.core e = s.core e) ∧
         ∀ p, t.byteAt p = if a ≤ p ∧ p < a + n then d.extractLsb' (8 * (p - a)) 8 else s.byteAt p
     (isMajor 0x15 w → dmem (.scStW c) 4 ∧ staging (.scStW c) 4) ∧
     (isMajor 0x16 w → dmem (.scStH c) 2 ∧ staging (.scStH c) 2) ∧
     (isMajor 0x17 w → dmem (.scStB c) 1 ∧ staging (.scStB c) 1))

/-- R252, R253: LDA and STA access DMEM at BASE + OFF of a generator, and OFF moves by the table of its mode; rev_k reverses the order
of the low k bits. R257, R258: calls and returns move the window by one frame, so that the caller's w8 to w23 are the callee's w0
to w15; with 29 resident frames a call, and with none a return, traps to its vector; SPILL, FILL and RETT act in trap mode. -/
def Obligations.ShapingCoreAddressGeneratorsAndWindow : Prop :=
  ((∀ k n i, i < k → (revBits k n).testBit i = n.testBit (k - 1 - i)) ∧
   ∀ (c : CoreId) (s : State) (w : Word) (off' : Nat), s.fetches c w → bitsOf w 15 0 = 0 → bitsOf w 18 17 ≠ 3 →
     let x := s.core c.val
     let g := bitsOf w 20 19
     let size := 2 ^ bitsOf w 18 17
     let base := (x.agReg g 0).toNat % 65536
     let off := (x.agReg g 2).toNat % 65536
     let p := (base + off) % 65536
     let y := x.setSpr (0x12 + 4 * g) (BitVec.ofNat 32 off')
     agMoves size ((x.agReg g 1).toNat / 65536 % 4) ((x.agReg g 0).toNat / 65536) off ((x.agReg g 1).extractLsb' 0 16).toInt off' →
     p % size = 0 →
     (isMajor 0x18 w → (bitsOf w 18 17 = 2 → bit w 16 = false) → s.scPoison c.val .dmem p size = false →
       let b := BitVec.ofNat (8 * size) (leNat (x.read .dmem p size))
       coreGoes (.scLda c) s c ((y.setReg (fRd w) (if bit w 16 then b.signExtend 32 else b.setWidth 32)).advance)) ∧
     (isMajor 0x19 w → bit w 16 = false → ∃ z : ScCore, coreGoes (.scSta c) s c z.advance ∧ z = { y with dmem := z.dmem } ∧
       ∀ o, o < 65536 → SMap.get 0#8 z.dmem o =
         if p ≤ o ∧ o < p + size then (x.reg (fRd w)).extractLsb' (8 * (o - p)) 8 else SMap.get 0#8 x.dmem o)) ∧
  (∀ (c : CoreId) (s : State) (w : Word), s.fetches c w →
     let x := s.core c.val
     let trap := fun (vec : Nat) => { x with t := true, tpc := x.pc, pc := vec, rep := none }
     let called := fun (i : Instr) (t : Nat) => x.t = false →
       (x.res = 29 → coreGoes i s c (trap (bitsOf (s.reg (0x04600010 + 0x10000 * c.val)) 14 2 * 4))) ∧
       (x.res ≠ 29 → x.depth ≠ 65535 → t < 0x8000 → t % 4 = 0 →
         let y := { x with lk := (x.pc + 4) % 0x8000, wp := (x.wp + 1) % 32, res := x.res + 1, depth := x.depth + 1, pc := t, rep := none }
         coreGoes i s c y ∧ ∀ k, k < 16 → y.reg (8 + k) = x.reg (16 + k))
     (isMajor 0x21 w → ∀ t : Nat, (t : Int) = x.pc + 4 * (w.extractLsb' 0 26).toInt → called (.scCall c) t) ∧
     (isMajor 0x22 w → fRd w = 0 → bitsOf w 15 0 = 0 → called (.scCallr c) (x.reg (fRs1 w)).toNat) ∧
     (bitsOf w 25 5 = 0 →
       (isFn 0x23 1 w → x.t = false → x.depth ≠ 0 →
         (x.res = 0 → coreGoes (.scRet c) s c (trap (bitsOf (s.reg (0x04600010 + 0x10000 * c.val)) 30 18 * 4))) ∧
         (x.res ≠ 0 → coreGoes (.scRet c) s c
           { x with pc := x.lk, wp := (x.wp + 31) % 32, res := x.res - 1, depth := x.depth - 1, rep := none })) ∧
       (isFn 0x23 3 w → x.t = true → x.wslim + 32 ≤ x.wsp → x.wsp ≤ 65536 → 1 ≤ x.res → x.res ≤ 31 →
         ∃ y : ScCore, coreGoes (.scSpill c) s c y.advance ∧ y = { x with dmem := y.dmem, wsp := x.wsp - 32, res := x.res - 1 } ∧
           ∀ o, o < 65536 → SMap.get 0#8 y.dmem o =
             if x.wsp - 32 ≤ o ∧ o < x.wsp then
               (SMap.get 0#32 x.w (8 * ((x.wp + 32 - x.res) % 32) + (o - (x.wsp - 32)) / 4)).extractLsb' (8 * ((o - (x.wsp - 32)) % 4)) 8
             else SMap.get 0#8 x.dmem o) ∧
       (isFn 0x23 4 w → x.t = true → s.scPoison c.val .dmem x.wsp 32 = false →
         ∃ y : ScCore, coreGoes (.scFill c) s c y.advance ∧ y = { x with w := y.w, wsp := (x.wsp + 32) % 65536, res := 1 } ∧
           ∀ j, SMap.get 0#32 y.w j =
             if 8 * ((x.wp + 31) % 32) ≤ j ∧ j < 8 * ((x.wp + 31) % 32) + 8 then
               x.word .dmem (x.wsp + 4 * (j - 8 * ((x.wp + 31) % 32)))
             else SMap.get 0#32 x.w j) ∧
       (isFn 0x23 5 w → x.t = true → coreGoes (.scRett c) s c { x with t := false, pc := x.tpc, rep := none })))

/-- R260, R264, R272: END with IMM 0, and RET at depth 0, end the kernel normally: SC_KCNT counts, the core goes back to IDLE, or to
DISABLED with EN 0, and the SHAPE that waits for it has its kernel's end; END with another IMM raises USER with it. R262, R264: an
exception of a kernel with no DMA outstanding is recorded in the SC_EXC registers, EXC sets and SC_XCNT counts; the core goes back
to IDLE, or to DISABLED with EN 0, with every register, flag, accumulator and store as before; a word that is no instruction
raises ILLEGAL with sub-reason 1 for an undefined major opcode and 2 for a reserved FN. -/
def Obligations.ShapingCoreEndsAndExceptions : Prop :=
  (∀ (c : CoreId) (s : State) (w : Word), s.fetches c w → (s.core c.val).dmas = [] → (s.core c.val).t = false →
     let x := s.core c.val
     let b := 0x04600000 + 0x10000 * c.val
     let back := fun (t : State) =>
       t.core c.val = { x with st := if bit (s.reg (b + 8)) 0 then .idle else .disabled, req := none, exc := none, rep := none, wfi := false } ∧
         memKept s t
     let ends := fun (i : Instr) => ∃ t, exec i s = .next t ∧ back t ∧ t.reg (b + 0x30) = satInc (s.reg (b + 0x30)) ∧
       ((s.slot x.key).st = .running → (s.slot x.key).w.shapeAt.isSome → (s.slot x.key).w.shapeEnd = none →
         (t.slot x.key).w.shapeEnd = some .returned)
     (isFn 0x23 2 w → fRd w = 0 →
       (bitsOf w 20 5 = 0 → ends (.scEnd c)) ∧
       (bitsOf w 20 5 ≠ 0 → ∃ t, exec (.scEnd c) s = .next t ∧ back t ∧
         t.reg (b + 0x18) = BitVec.ofNat 32 (0x0A000000 + bitsOf w 20 5) ∧ t.reg (b + 0x34) = satInc (s.reg (b + 0x34)))) ∧
     (isFn 0x23 1 w → bitsOf w 25 5 = 0 → x.depth = 0 → ends (.scRet c))) ∧
  (∀ (c : CoreId) (s : State) (w : Word), s.fetches c w → isIllegal w → (s.core c.val).dmas = [] →
     let x := s.core c.val
     let b := 0x04600000 + 0x10000 * c.val
     let sub := if fMajor w = 0 ∨ (0x0A ≤ fMajor w ∧ fMajor w ≤ 0x0F) ∨ (0x1D ≤ fMajor w ∧ fMajor w ≤ 0x1F) ∨
       (0x28 ≤ fMajor w ∧ fMajor w ≤ 0x37) then 1 else 2
     ∃ t, exec (.illegalInstruction c) s = .next t ∧
       t.reg (b + 0x18) = BitVec.ofNat 32 (0x01000000 + sub * 0x10000) ∧ t.reg (b + 0x1C) = BitVec.ofNat 32 x.pc ∧
       t.reg (b + 0x20) = 0#32 ∧ bit (t.reg (b + 4)) 1 = true ∧ t.reg (b + 0x34) = satInc (s.reg (b + 0x34)) ∧
       (x.rep = none → t.reg (b + 0x24) = 0#32) ∧
       t.core c.val = { x with st := if bit (s.reg (b + 8)) 0 then .idle else .disabled, req := none, exc := none, rep := none, wfi := false } ∧
       (∀ d, d ≠ c.val → t.core d = s.core d) ∧ memKept s t)

/-- R254, R259, R260, R270: NOP, RPT with its count, and the special registers as MFS reads and MTS writes them. R237, R274, R275,
R450: SC_CTRL, SC_DMEM_DATA and the store windows: EN moves a core without a kernel between DISABLED and IDLE, and takes a waiting
SHAPE that it leaves without a core to its end NO_CORE (R271); the stores are reached in DISABLED alone, by the Pommel core and
debug for writes; any other write raises CFGERR and moves nothing, and a read while the core is not DISABLED gives 0. -/
def Obligations.ShapingCoreRepeatAndRegisters : Prop :=
  (∀ (c : CoreId) (s : State) (w : Word), s.fetches c w →
     let x := s.core c.val
     let n := bitsOf w 15 8
     let d := x.reg (fRd w)
     let reads := fun (v : Word) => coreGoes (.scMfs c) s c ((x.setReg (fRd w) v).advance)
     let writes := fun (y : ScCore) => coreGoes (.scMts c) s c y.advance
     (isFn 0x23 0 w → bitsOf w 25 5 = 0 → coreGoes (.scSysNop c) s c x.advance) ∧
     (isMajor 0x24 w → bitsOf w 24 16 = 0 → (bit w 25 → bitsOf w 15 0 = 0) → x.t = false → x.repeatable (x.word .imem (x.pc + 4)) →
       let k := if bit w 25 then x.rpt else bitsOf w 15 0
       (k ≠ 0 → coreGoes (.scRpt c) s c { x with pc := x.pc + 4, rep := some k }) ∧
       (k = 0 → x.rpt0max = true → coreGoes (.scRpt c) s c { x with pc := x.pc + 4, rep := some 65536 }) ∧
       (k = 0 → x.rpt0max = false → coreGoes (.scRpt c) s c { x with pc := x.pc + 8 })) ∧
     (∀ (y : ScCore) (k : Nat), y.rep = some k → 2 ≤ k → y.advance = { y with rep := some (k - 1) }) ∧
     (∀ y : ScCore, y.rep = none ∨ y.rep = some 1 → y.advance = { y with rep := none, pc := y.pc + 4 }) ∧
     (isMajor 0x25 w → bitsOf w 20 16 = 0 → bitsOf w 7 0 = 0 →
       (n = 0 → x.depth < 65536 → x.wp < 32 → ∃ v : Word, reads v ∧ bitsOf v 31 16 = x.depth ∧ bit v 15 = x.t ∧ bitsOf v 14 13 = 0 ∧
         bitsOf v 12 8 = x.wp ∧ bitsOf v 7 4 = 0 ∧ bit v 3 = x.n ∧ bit v 2 = x.z ∧ bit v 1 = x.c ∧ bit v 0 = x.v) ∧
       (n = 1 → reads (BitVec.ofNat 32 x.lk)) ∧ (n = 2 → reads (BitVec.ofNat 32 x.rpt)) ∧ (n = 3 → reads (BitVec.ofNat 32 x.wsp)) ∧
       (n = 4 → reads (BitVec.ofNat 32 x.wslim)) ∧ (n = 5 → reads (BitVec.ofNat 32 x.res)) ∧ (n = 6 → reads (BitVec.ofNat 32 x.tpc)) ∧
       (∀ k p, k < 4 → p < 3 → n = 0x10 + 4 * k + p → reads (x.agReg k p)) ∧
       (n = 0x20 → reads 0x020000FF#32) ∧ (n = 0x22 → reads 0x03000100#32) ∧ (n = 0x31 → reads (BitVec.ofNat 32 c.val)) ∧
       (n = 0x21 ∨ n = 0x23 → reads (SMap.get 0#32 x.ag n)) ∧
       (n = 0x30 → reads (BitVec.ofNat 32 (min ((s.time - x.start) * 1000 / 1200) 0xFFFFFFFF))) ∧
       (∀ r, n = 0x32 → x.req = some r → r.owner < 16 → r.key < 65 * 128 → ∃ v : Word, reads v ∧ bitsOf v 31 28 = r.owner ∧
         bitsOf v 26 20 = r.key / 128 ∧ bitsOf v 19 13 = r.key % 128)) ∧
     (isMajor 0x26 w → bitsOf w 20 16 = 0 → bitsOf w 7 0 = 0 →
       (n = 0 → writes { x with n := bit d 3, z := bit d 2, c := bit d 1, v := bit d 0 }) ∧
       (n = 1 → writes { x with lk := bitsOf d 14 2 * 4 }) ∧ (n = 2 → writes { x with rpt := d.toNat % 65536 }) ∧
       (n = 3 → writes { x with wsp := bitsOf d 15 2 * 4 }) ∧ (n = 4 → writes { x with wslim := bitsOf d 15 2 * 4 }) ∧
       (∀ k, k < 4 → n = 0x10 + 4 * k → writes (x.setSpr n d)) ∧
       (∀ k, k < 4 → n = 0x11 + 4 * k → bitsOf d 17 16 ≠ 3 → writes (x.setSpr n (d &&& 0x3FFFF#32))) ∧
       (∀ k, k < 4 → n = 0x12 + 4 * k → writes (x.setSpr n (d &&& 0xFFFF#32))) ∧
       (n = 0x21 → writes (x.setSpr n (d &&& 0xF#32))) ∧ (n = 0x23 → writes (x.setSpr n d)))) ∧
  (∀ (m : Master) (c : CoreId) (s : State) (v : Word),
     let x := s.core c.val
     let b := 0x04600000 + 0x10000 * c.val
     let others := fun (t : State) => ∀ d, d ≠ c.val → t.core d = s.core d
     let adr := bitsOf (s.reg (b + 0x28)) 15 0
     (s.regRight m (b + 8) true = .may →
       (x.failed = false ∨ bit v 0 = false → (bit v 0 = false → ∀ r ∈ s.shapeQ, ∃ d ∈ s.shapeCores (descCores r.desc), d ≠ c.val) →
         ∃ t, exec (.scCtrlWrite m c v) s = .next t ∧ t.reg (b + 8) = v &&& 0xF0001#32 ∧
         t.core c.val = { x with st := match x.st with
           | .disabled => if bit v 0 then .idle else .disabled
           | .idle => if bit v 0 then .idle else .disabled
           | k => k } ∧
         others t ∧ onlyRegs { s with cores := t.cores } t [b + 8]) ∧
       (∀ r, bit v 0 = false → s.shapeQ = [r] → s.shapeCores (descCores r.desc) = [c.val] → (s.slot r.key).st = .running →
         (s.slot r.key).w.shapeAt.isSome → (s.slot r.key).w.shapeEnd = none →
         ∃ t, exec (.scCtrlWrite m c v) s = .next t ∧ t.shapeQ = [] ∧ (t.slot r.key).w.shapeEnd = some .noCore) ∧
       (x.failed = true → bit v 0 = true → ∃ t, exec (.scCtrlWrite m c v) s = .next t ∧ t.cores = s.cores ∧ bit (t.reg (b + 4)) 0 = true ∧
         bit (t.reg (b + 8)) 0 = bit (s.reg (b + 8)) 0 ∧ onlyRegs s t [b + 8, b + 4])) ∧
     (s.regRight m (b + 0x2C) true = .may → (m = .pommel ∨ m = .debug) → adr % 4 = 0 →
       (x.st = .disabled → ∃ t, exec (.scDmemDataAccess m c (.write v)) s = .next t ∧ others t ∧
         t.core c.val = { x with dmem := (t.core c.val).dmem } ∧
         (∀ o, o < 65536 → SMap.get 0#8 (t.core c.val).dmem o =
           if adr ≤ o ∧ o < adr + 4 then v.extractLsb' (8 * (o - adr)) 8 else SMap.get 0#8 x.dmem o) ∧
         t.reg (b + 0x28) = BitVec.ofNat 32 ((adr + 4) % 65536) ∧ onlyRegs { s with cores := t.cores } t [b + 0x28]) ∧
       (x.st ≠ .disabled → ∃ t, exec (.scDmemDataAccess m c (.write v)) s = .next t ∧ bit (t.reg (b + 4)) 0 = true ∧ onlyRegs s t [b + 4])) ∧
     (s.regRight m (b + 0x2C) false = .may → x.st = .disabled → ∃ t, exec (.scDmemDataAccess m c .read) s = .next t ∧
       t.out = s.out ++ [.readData m.id (x.read .dmem adr 4)] ∧ t.reg (b + 0x28) = BitVec.ofNat 32 ((adr + 4) % 65536) ∧
       onlyRegs { s with out := t.out } t [b + 0x28]) ∧
     (∀ off : BitVec 16, off.toNat % 4 = 0 → (0x1000 ≤ off.toNat ∧ off.toNat < 0x2000 ∨ 0x8000 ≤ off.toNat) →
       let k := if off.toNat < 0x2000 then ScStore.ucode else ScStore.imem
       let o := if off.toNat < 0x2000 then off.toNat - 0x1000 else off.toNat - 0x8000
       (s.regRight m (b + off.toNat) true = .may → (m = .pommel ∨ m = .debug) →
         (x.st = .disabled → ∃ t, exec (.scWindowAccess m c off 4 (.write v)) s = .next t ∧ others t ∧
           t.core c.val = x.write k o (leBytes 4 v.toNat) ∧ (t.core c.val).word k o = v ∧ onlyRegs { s with cores := t.cores } t []) ∧
         (x.st ≠ .disabled → ∃ t, exec (.scWindowAccess m c off 4 (.write v)) s = .next t ∧ bit (t.reg (b + 4)) 0 = true ∧ onlyRegs s t [b + 4])) ∧
       (s.regRight m (b + off.toNat) false = .may →
         (x.st = .disabled → exec (.scWindowAccess m c off 4 .read) s = .next { s with out := s.out ++ [.readData m.id (x.read k o 4)] }) ∧
         (x.st ≠ .disabled → exec (.scWindowAccess m c off 4 .read) s = .next { s with out := s.out ++ [.readData m.id (leBytes 4 0)] }))))

/-- R251: DMAR and DMAW leave a transfer outstanding, a fifth stalls, and a count of 0 copies nothing; DMAWAIT stalls while one is
outstanding; a completed transfer has copied its bytes and no others. R262, R263, R268, R269: a Vangest entry with a sound header
and an illegal micro-operation raises ILLEGAL before any of them acts; one that passes its check runs its micro-operations in pool
order on the values that earlier ones left, commits everything together and goes on, or to the target of a branch taken; an
exception in any of them discards everything that the entry has held. -/
def Obligations.ShapingCoreDmaAndVangest : Prop :=
  (∀ (c : CoreId) (s : State),
     let x := s.core c.val
     (∀ w : Word, s.fetches c w → x.t = false →
       let d := (x.reg (fRd w)).toNat % 65536
       let a := (x.reg (fRs1 w)).toNat
       let n := (x.reg (fRs2 w)).toNat % 65536
       let issue := fun (i : Instr) (wr : Bool) =>
         (n = 0 → coreGoes i s c x.advance) ∧
         (n ≠ 0 → s.scStaging x.key a n = true → d + n ≤ 65536 →
           (x.dmas.length < 4 → coreGoes i s c
             ({ x with dmas := x.dmas ++ [{ write := wr, sys := a, dmem := d, len := n }] } : ScCore).advance) ∧
           (4 ≤ x.dmas.length → coreGoes i s c x))
       (bitsOf w 10 5 = 0 → (isFn 0x27 0 w → issue (.scDmar c) false) ∧ (isFn 0x27 1 w → issue (.scDmaw c) true)) ∧
       (bitsOf w 25 5 = 0 → isFn 0x27 2 w →
         (x.dmas = [] → coreGoes (.scDmawait c) s c x.advance) ∧ (x.dmas ≠ [] → coreGoes (.scDmawait c) s c x))) ∧
     (∀ d ds, x.dmas = d :: ds → d.dmem + d.len ≤ 65536 → x.st = .running →
       (d.write = false → ∃ t, exec (.dmaComplete c) s = .next t ∧ (t.core c.val).dmas = ds ∧ memKept s t ∧
         ∀ o, o < 65536 → SMap.get 0#8 (t.core c.val).dmem o =
           if d.dmem ≤ o ∧ o < d.dmem + d.len then s.byteAt (d.sys + (o - d.dmem)) else SMap.get 0#8 x.dmem o) ∧
       (d.write = true → s.memOk → ∃ t, exec (.dmaComplete c) s = .next t ∧ t.core c.val = { x with dmas := ds } ∧
         ∀ p, t.byteAt p =
           if d.sys ≤ p ∧ p < d.sys + d.len then SMap.get 0#8 x.dmem (d.dmem + (p - d.sys)) else s.byteAt p))) ∧
  (∀ (c : CoreId) (s : State) (w : Word), s.fetches c w → 0x38 ≤ fMajor w →
     let x := s.core c.val
     let k := 32 * (fMajor w - 0x38) + fRd w
     let h := x.word .ucode (4 * k)
     let us := (span (bitsOf h 9 0) (bitsOf h 21 18 + 1)).map (fun j => x.word .ucode ((0x400 + 4 * j) % 4096))
     let v0 : VState := { s := s, x := x, tmp := [0#32, 0#32, 0#32, 0#32], br := none }
     s.scPoison c.val .ucode (4 * k) 4 = false → s.scPoison c.val .ucode (0x400 + 4 * bitsOf h 9 0) (4 * (bitsOf h 21 18 + 1)) = false →
     (headerOk h = true → ∀ sub, us.findSome? uIllegal = some sub → x.dmas ≠ [] →
       ∃ t, exec (.scVangestEntry c) s = .next t ∧ (t.core c.val).exc = some { illegal sub with pc := x.pc, rpt := x.rep }) ∧
     (entryOk h us = true → us.findSome? uIllegal = none →
     (∀ v, us.foldlM (fun v u => VState.step v c.val w u) v0 = .ok v →
       exec (.scVangestEntry c) s = .next (v.s.setCore c.val (match v.br with | some t => { v.x with pc := t, rep := none } | none => v.x.advance))) ∧
     (∀ e, us.foldlM (fun v u => VState.step v c.val w u) v0 = .error e → x.dmas ≠ [] →
       ∃ t, exec (.scVangestEntry c) s = .next t ∧ memKept s t ∧
         t.core c.val = { x with st := .ending, wfi := false, exc := some { e with pc := x.pc, rpt := x.rep } })))

/-- R240, R271: the waiting requests are served in rank order: one without an eligible core ends with NO_CORE, and otherwise the first
that names an idle core starts there: every register 0 but w0 to w5 (the arguments), g7, WSP, WSLIM, FEAT1 and PC; the stores keep
their contents. R262, R264, R272, R273: a kernel that has run for its KLIMIT ends with KLIMIT, and one whose operation was stopped
ends with STOPPED; the registers and stores of its core stay as they are. -/
def Obligations.KernelsStartAndStop : Prop :=
  (∀ (s : State),
     s.ranked.Perm s.shapeQ ∧ s.ranked.Pairwise (fun r q => s.outranks q r = false) ∧
     (∀ r, s.ranked.find? (fun r => (s.shapeCores (descCores r.desc)).isEmpty) = some r →
       ∃ t, exec .shapeDispatch s = .next t ∧ t.shapeQ = s.shapeQ.erase r ∧ t.cores = s.cores ∧
         ((s.slot r.key).st = .running → (s.slot r.key).w.shapeAt.isSome → (s.slot r.key).w.shapeEnd = none →
           (t.slot r.key).w.shapeEnd = some .noCore)) ∧
     (∀ r c, s.ranked.find? (fun r => (s.shapeCores (descCores r.desc)).isEmpty) = none →
       s.ranked.find? (fun r => (s.idleCore r).isSome) = some r → s.idleCore r = some c →
       ∃ t y, exec .shapeDispatch s = .next t ∧ t.shapeQ = s.shapeQ.erase r ∧ t.slots = s.slots ∧ (∀ d, d ≠ c → t.core d = s.core d) ∧
         t.core c = y ∧ y.st = .running ∧ y.req = some r ∧ y.start = s.time ∧ y.pc = 4 * descEntry r.desc ∧
         y.wp = 0 ∧ y.res = 0 ∧ y.depth = 0 ∧ y.t = false ∧ y.n = false ∧ y.z = false ∧ y.c = false ∧ y.v = false ∧
         y.a0 = 0#40 ∧ y.a1 = 0#40 ∧ y.lk = 0 ∧ y.rpt = 0 ∧ y.tpc = 0 ∧
         (∀ i, i < 6 → y.reg (8 + i) = leWord (r.desc.drop (8 + 4 * i))) ∧ (∀ i, 6 ≤ i → i < 256 → SMap.get 0#32 y.w i = 0#32) ∧
         (∀ i, i < 7 → y.reg i = 0#32) ∧ y.reg 7 = 0x03010000#32 ∧ (∀ g p, g < 4 → p < 3 → y.agReg g p = 0#32) ∧
         (∀ i, i < 4 → y.feat1 i = bit (s.reg (0x04600008 + 0x10000 * c)) (16 + i)) ∧ SMap.get 0#32 y.ag 0x23 = 0#32 ∧
         y.wsp = bitsOf (s.reg (0x04600014 + 0x10000 * c)) 15 0 ∧ y.wslim = bitsOf (s.reg (0x04600014 + 0x10000 * c)) 31 16 ∧
         y.imem = (s.core c).imem ∧ y.dmem = (s.core c).dmem ∧ y.ucode = (s.core c).ucode)) ∧
  (∀ (c : CoreId) (s : State) (r : ShapeReq), s.scRuns c.val = true → (s.core c.val).req = some r →
     let x := s.core c.val
     let b := 0x04600000 + 0x10000 * c.val
     let ended := fun (i : Instr) (cause : Nat) => ∃ t, exec i s = .next t ∧ (∀ d, d ≠ c.val → t.core d = s.core d) ∧
       (x.dmas ≠ [] → t.core c.val = { x with st := .ending, wfi := false, exc := some { cause := cause, pc := x.pc, rpt := x.rep } }) ∧
       (x.dmas = [] → bitsOf (t.reg (b + 0x18)) 31 24 = cause ∧ bit (t.reg (b + 4)) 1 = true ∧
         t.reg (b + 0x34) = satInc (s.reg (b + 0x34)) ∧
         t.core c.val = { x with st := if bit (s.reg (b + 8)) 0 then .idle else .disabled, req := none, exc := none, rep := none, wfi := false })
     (descKlimit r.desc ≠ 0 → x.start + descKlimit r.desc * 1200 ≤ s.time → ended (.klimit c) 9) ∧
     ((s.slot r.key).st ≠ .running ∨ (s.slot r.key).w.shapeAt = none ∨ s.engineRuns (r.key / 128) = false → ended (.kernelStop c) 0x0D))

/-- R354, R355: a message of an edge source, and one of a level source whose level is high, set PEND and nothing else; a level source
whose level is low sends none; IC_RAISE sends a message of a software source and refuses every other number with CFGERR. R356,
R360, R361: the candidate of a processor is a deliverable source of the highest priority, the lowest-numbered on a tie; committing
it latches its priority and the time, and a higher candidate that comes inside another's 6 cycles does not put that delivery off;
the delivery comes 6 cycles of the controller's clock later: the interrupt request of a core whose DEN or WAKE lets it, and none
twice, but that a core whose DEN sets after a delivery without it gets its request (log 27). -/
def Obligations.InterruptMessagesAndCandidates : Prop :=
  (∀ (s : State),
     let sent := fun (t : State) (n : Nat) => t = { s with irqs := t.irqs } ∧ t.irqSrc n = { s.irqSrc n with pend := true } ∧
       ∀ k, k ≠ n → t.irqSrc k = s.irqSrc k
     (∀ n : IrqId, n.val < 512 → irqReserved n.val = false →
       (irqLevel n.val = false ∨ s.levelOf n.val = true → ∃ t, exec (.sourceMessage n) s = .next t ∧ sent t n.val) ∧
       (irqLevel n.val = true → s.levelOf n.val = false → exec (.sourceMessage n) s = .next s)) ∧
     (∀ (m : Master) (v : Word), s.regRight m 0x04A0000C true = .may →
       (512 ≤ bitsOf v 9 0 → ∃ t, exec (.icRaise m v) s = .next t ∧ sent t (bitsOf v 9 0)) ∧
       (bitsOf v 9 0 < 512 → ∃ t, exec (.icRaise m v) s = .next t ∧ bit (t.reg 0x04A00004) 0 = true ∧ onlyRegs s t [0x04A00004]))) ∧
  (∀ (s : State) (p : ProcId),
     (∀ n q, SMap.wf irqReset s.irqs = true → s.bestFor p.val = some (n, q) →
       s.deliverableTo p.val (s.irqSrc n) = true ∧ (s.irqSrc n).prio = q ∧
         ∀ k, s.deliverableTo p.val (s.irqSrc k) = true → (s.irqSrc k).prio < q ∨ (s.irqSrc k).prio = q ∧ n ≤ k) ∧
     (∀ n q, s.bestFor p.val = some (n, q) → (∀ c, s.commit p.val = some c → c.prio < q) →
       ∃ t, exec (.candidateCommit p) s = .next t ∧ t = { s with commits := t.commits } ∧
         t.commit p.val = some {
           src := n, prio := q, delivered := false,
           at_ := (match s.commit p.val with | some c => if c.delivered then s.live else c.at_ | none => s.live),
           den := bit (s.reg (0x04A00100 + 16 * p.val)) 31 || (match s.commit p.val with | some c => !c.delivered && c.den | none => false) } ∧
         ∀ r, r ≠ p.val → t.commit r = s.commit r) ∧
     (∀ c, s.commit p.val = some c → p.val < 2 → (∀ n q, s.bestFor p.val = some (n, q) → q ≤ c.prio) → c.delivered = true → c.den = false →
       bit (s.reg (0x04A00100 + 16 * p.val)) 31 = true → ∃ t, exec (.candidateCommit p) s = .next t ∧ t = { s with commits := t.commits } ∧
         t.commit p.val = some { c with at_ := s.live, den := true, delivered := false }) ∧
     (∀ c, s.commit p.val = some c → c.delivered = false → c.at_ + 6 * (if s.domOn 28 then 2 else 25) ≤ s.live → p.val < 2 →
       ∃ t, exec (.interruptDelivery p) s = .next t ∧ t.commit p.val = some { c with delivered := true, den := c.den || bit (s.reg (0x04A00100 + 16 * p.val)) 31 } ∧
         ((c.den = true ∨ bit (s.reg (0x04A00100 + 16 * p.val)) 31 = true ∨ bit (s.reg (0x04A00100 + 16 * p.val)) 30 = true) →
           .irq p.val ∈ t.out)) ∧
     (∀ c, s.commit p.val = some c → (c.delivered = true ∨ s.live < c.at_ + 6 * (if s.domOn 28 then 2 else 25)) →
       exec (.interruptDelivery p) s = .next s))

/-- R357, R358, R361, R362: a core that claims takes what R361 commits, or else its candidate: ACTIVE sets, RUN is at least its
priority, an edge source loses PEND, a level source whose level is low counts as spurious; without a candidate the read gives 0
and changes nothing, and debug claims nothing. A completion of a source that is active on the writer clears ACTIVE and samples a
level. R260, R359: WFI takes the core's candidate at once, without ACTIVE ever setting, an edge source losing PEND and a level
source keeping its level; without a candidate it waits. -/
def Obligations.InterruptsAreClaimedAndCompleted : Prop :=
  (∀ (s : State) (m : Master) (p : Nat), (m = .pommel ∧ p = 0 ∨ m = .cantle ∧ p = 1) →
     (s.regRight m 0x04A00010 false = .may →
       (s.claimable p = none → exec (.icClaim m) s = .next { s with out := s.out ++ [.readData m.id (leBytes 4 0)] }) ∧
       (∀ n q, s.claimable p = some (n, q) →
         let spur := irqLevel n && !s.levelOf n
         ∃ t, exec (.icClaim m) s = .next t ∧
           t.irqSrc n = { s.irqSrc n with active := true, holder := p, latched := q, pend := irqLevel n && (s.irqSrc n).pend } ∧
           (∀ k, k ≠ n → t.irqSrc k = s.irqSrc k) ∧ t.commit p = none ∧ q ≤ t.runOf p ∧
           t.out = s.out ++ [.readData m.id (leBytes 4 (BitVec.ofNat 32 (2 ^ 31 + (if spur then 2 ^ 30 else 0) + q * 2 ^ 16 + n)).toNat)] ∧
           t.reg (0x04A00108 + 16 * p) =
             (if spur then satInc (s.reg (0x04A00108 + 16 * p)) else s.reg (0x04A00108 + 16 * p)))) ∧
     (s.regRight .debug 0x04A00010 false = .may →
       exec (.icClaim .debug) s = .next { s with out := s.out ++ [.readData 127 (leBytes 4 0)] }) ∧
     (∀ v : Word, s.regRight m 0x04A00014 true = .may →
       let n := bitsOf v 9 0
       ((s.irqSrc n).active = true → (s.irqSrc n).holder = p → ∃ t, exec (.icComplete m v) s = .next t ∧ t = { s with irqs := t.irqs } ∧
         t.irqSrc n = { s.irqSrc n with
           active := false, latched := 0, holder := 0, pend := if irqLevel n then s.levelOf n else (s.irqSrc n).pend } ∧
         ∀ k, k ≠ n → t.irqSrc k = s.irqSrc k) ∧
       ((s.irqSrc n).active = false ∨ (s.irqSrc n).holder ≠ p → ∃ t, exec (.icComplete m v) s = .next t ∧
         bit (t.reg 0x04A00004) 1 = true ∧ t.reg 0x04A00020 = BitVec.ofNat 32 (2 ^ 31 + m.id * 2 ^ 16 + n) ∧
         onlyRegs s t [0x04A00004, 0x04A00020] ∧ ∀ k, (t.irqSrc k).active = (s.irqSrc k).active))) ∧
  (∀ (s : State) (c : CoreId) (w : Word), s.fetches c w → isFn 0x23 6 w → bitsOf w 20 5 = 0 →
     let x := s.core c.val
     (s.claimable (2 + c.val) = none → coreGoes (.scWfi c) s c { x with wfi := true }) ∧
     (∀ n q, s.claimable (2 + c.val) = some (n, q) → ∃ t, exec (.scWfi c) s = .next t ∧
       t.core c.val = ({ x.setReg (fRd w) (BitVec.ofNat 32 n) with wfi := false } : ScCore).advance ∧
       t.commit (2 + c.val) = none ∧ (t.irqSrc n).active = (s.irqSrc n).active ∧
       (irqLevel n = false → s.recording = false → t.irqSrc n = { s.irqSrc n with pend := false }) ∧
       (irqLevel n = true → s.recording = false → t.irqSrc n = { s.irqSrc n with pend := s.levelOf n })))

/-- R369 to R371: a write to an empty box whose receiver is up and not fenced fills it and sends its message; a write to a full box,
or to a receiver in reset or fenced, leaves the box as it is: the host's is dropped with LOST or DEAD, and an internal master gets
an error with the cause; a read of a full box returns its word and empties it, and of an empty one returns 0. -/
def Obligations.MailboxesCarryWords : Prop :=
  ∀ (s : State) (m : Master) (b : Fin 34) (v : Word),
    let up : Bool := if b.val < 16 then s.procUp 0 && !s.fenced 17 else if b.val < 32 then (s.fn (b.val - 16)).resetAt.isNone && !s.fenced (b.val - 16)
      else if b.val = 32 then s.cantleUp && !s.fenced 16 else (!s.domOn 28 || s.pommelUp) && !s.fenced 17
    let boxes := fun (t : State) (w : Option Word) => SMap.get none t.boxes b.val = w ∧ ∀ k, k ≠ b.val → SMap.get none t.boxes k = SMap.get none s.boxes k
    (s.regRight m (boxTx b.val) true = .may →
      (up = true → SMap.get none s.boxes b.val = none → ∃ t, exec (.mailboxWrite m b v) s = .next t ∧ boxes t (some v) ∧
        (b.val < 16 → (t.irqSrc (256 + b.val)).pend = true) ∧ (b.val = 32 → (t.irqSrc 288).pend = true) ∧
        (b.val = 33 → (t.irqSrc 289).pend = true ∧ bit (t.reg 0x04D0002C) 9 = true)) ∧
      (up = false ∨ (SMap.get none s.boxes b.val).isSome → ∃ t, exec (.mailboxWrite m b v) s = .next t ∧ t.boxes = s.boxes ∧
        (b.val < 16 → bit (t.reg (0x04100018 + 0x10000 * b.val)) (if up then 2 else 3) = true ∧ t.out = s.out) ∧
        (16 ≤ b.val → bit (t.reg 0x04B00004) 0 = true ∧ t.out = s.out ++ [.accessError m.id (boxTx b.val)] ∧
          bitsOf (t.reg 0x04B00008) 4 0 = b.val - 16 ∧ bitsOf (t.reg 0x04B00008) 22 16 = m.id))) ∧
    (s.regRight m (boxRx b.val) false = .may →
      (∀ w, SMap.get none s.boxes b.val = some w → ∃ t, exec (.mailboxRead m b) s = .next t ∧ boxes t none ∧
        t.out = s.out ++ [.readData m.id (leBytes 4 w.toNat)] ∧ t = { s with boxes := t.boxes, irqs := t.irqs, out := t.out }) ∧
      (SMap.get none s.boxes b.val = none → exec (.mailboxRead m b) s = .next { s with out := s.out ++ [.readData m.id (leBytes 4 0)] }))

/-- R25, R330, R333, R335, R337: a core or debug that has the right to an address writes exactly the bytes it sends, reads the bytes
as last written, gets an error for a poisoned word, and a free value where the other port of the Tack Room writes the word at the
same time; without the right the access is answered with an error and nothing else happens. R220: a BAR2 access that PF0 answers
writes or reads the part's memory under the same rules, one longer than a word being checked and written word by word; without the
right it is answered with Unsupported Request, a write being dropped with BAR2ERR; while PF0 does not answer, a write is dropped and
a read is refused. -/
def Obligations.MemoryAccesses : Prop :=
  (∀ (s : State) (m : Master) (addr : Word) (n : Nat) (meet : Option TrMeet),
     let a := addr.toNat
     let clash : Bool := isTack a && (match meet with | some x => x.otherWrites | none => false)
     let reads := fun (op : MemOp) (k : Acc) =>
       (s.memRight m a k = true → isHw a = false →
         ∃ t, exec (.coreMemoryAccess m addr n op meet) s = .next t ∧ memKept s t ∧ onlyMem { s with out := t.out } t ∧
           t.out = s.out ++ [if clash then Out.readData m.id (leBytes n (Config.tackRoomUndefined s.freeCtr).toNat)
                             else if s.poisoned a n then .accessError m.id a else .readData m.id (s.bytesAt a n)]) ∧
       (s.memRight m a k = false → ∃ t, exec (.coreMemoryAccess m addr n op meet) s = .next t ∧ refusedOnly s t)
     (m = .pommel ∨ m = .cantle ∨ m = .debug) → a < 0x04000000 →
       reads .read .r ∧ reads .fetch .x ∧
       ∀ d : List Byte,
         (s.memRight m a .w = true → s.memOk →
           ∃ t, exec (.coreMemoryAccess m addr n (.write d) meet) s = .next t ∧ stored s t a d ∧ onlyMem s t) ∧
         (s.memRight m a .w = false → ∃ t, exec (.coreMemoryAccess m addr n (.write d) meet) s = .next t ∧ refusedOnly s t)) ∧
  (∀ (s : State) (off : BitVec 28) (n : Nat) (d : List Byte),
     let a := off.toNat
     let h : Master := .host 0
     s.jnState ≠ 5 →
       (s.bar2Open = true → a % 8 + n ≤ 8 →
         (s.memRight h a .w = true → s.memOk → ∃ t, exec (.bar2Access off n (.write d)) s = .next t ∧ stored s t a d ∧ onlyMem s t) ∧
         (s.memRight h a .r = true → isHw a = false → ∃ t, exec (.bar2Access off n .read) s = .next t ∧ memKept s t ∧
           onlyMem { s with out := t.out } t ∧ t.out = s.out ++ [.bar2 (some (s.bytesAt a n)) (s.poisoned a n)]) ∧
         (s.memRight h a .w = false → ∃ t, exec (.bar2Access off n (.write d)) s = .next t ∧ memKept s t ∧ bit (t.reg 0x04100004) 1 = true) ∧
         (s.memRight h a .r = false → ∃ t, exec (.bar2Access off n .read) s = .next t ∧ memKept s t ∧
           .bar2 none false ∈ t.out)) ∧
       (s.bar2Open = true → 8 < a % 8 + n → d.length = n → (∀ p ∈ bar2Words a n, s.memRight h p.1 .w = true) → s.memOk →
         ∃ t, exec (.bar2Access off n (.write d)) s = .next t ∧ stored s t a d ∧ onlyMem s t) ∧
       (s.bar2Open = false → exec (.bar2Access off n (.write d)) s = .next s ∧
         exec (.bar2Access off n .read) s = .next { s with out := s.out ++ [.bar2 none false] }))

/-- R324, R325: a write through an alias sets or clears exactly the bits that are 1 in its data, whichever bytes of the word stood in
a merge buffer; where the word is uncorrectable or stored poison nothing is written and the requester gets an error. R349, R350: a
legal write of MS_REMAP_ENT stores VALID and WORD of the entry that the master's MS_REMAP_SEL selects; one that a rule refuses
changes nothing and sets CFGERR; MS_INJ arms only in DEVELOP or in SERVICE, and is ignored with CFGERR elsewhere. -/
def Obligations.AliasWritesAndInjection : Prop :=
  (∀ (s : State) (m : Master) (addr : Word) (d : List Byte) (a : Nat) (set : Bool),
     aliasOf addr.toNat = some (a, set) →
       (aliasShape m a d.length = true → s.memRight m a .w = true → s.memOk →
         let mark := SMap.get .ok (s.drainWord a).ecc (eccWord a)
         (mark = .ok ∨ mark = .correctable → ∃ t, exec (.aliasWrite m addr d) s = .next t ∧ onlyMem s t ∧
           (∀ p, a ≤ p → p < a + d.length →
             t.byteAt p = if set then s.byteAt p ||| (d[p - a]?).getD 0#8 else s.byteAt p &&& ~~~ ((d[p - a]?).getD 0#8)) ∧
           ∀ p, (p < a ∨ a + d.length ≤ p) → t.byteAt p = s.byteAt p) ∧
         (mark = .uncorrectable ∨ mark = .poison → ∃ t, exec (.aliasWrite m addr d) s = .next t ∧ onlyMem { s with out := t.out } t ∧
           memKept s t ∧ t.out = s.out ++ [.accessError m.id addr.toNat])) ∧
       (aliasShape m a d.length = false ∨ s.memRight m a .w = false → ∃ t, exec (.aliasWrite m addr d) s = .next t ∧ refusedOnly s t)) ∧
  (∀ (s : State) (m : Master) (v : Word),
     (s.regRight m 0x04900034 true = .may →
       let e := bitsOf (s.reg (banked m.id 0x04900030)) 7 0
       let old := s.remapEnt e
       let bad := bit old 30 = true ∨ bit old 29 = true ∨ (bit old 31 = true ∧ bitsOf v 16 0 ≠ bitsOf old 16 0) ∨
         (bit v 31 = true ∧ s.remapTaken e (bitsOf v 16 0) = true) ∨ (200 ≤ e ∧ 16384 ≤ bitsOf v 16 0)
       (e < 204 → ¬ bad → ∃ t, exec (.remapWrite m v) s = .next t ∧ t.remapEnt e = (v &&& 0x8001FFFF#32) ∧
         (∀ k, k ≠ e → t.remapEnt k = s.remapEnt k) ∧ onlyMem { s with remap := t.remap } t ∧ (s.memOk → memKept s t)) ∧
       (e < 204 → bad → ∃ t, exec (.remapWrite m v) s = .next t ∧ bit (t.reg 0x04900004) 0 = true ∧ onlyRegs s t [0x04900004])) ∧
     (s.regRight m 0x04900024 true = .may →
       (s.life = 1 ∨ s.mode = 0xB → bitsOf v 30 29 ≠ 0 → bitsOf v 25 24 ≠ 3 → bitsOf v 14 8 ≤ 38 → bitsOf v 4 0 < 24 →
         ∃ t, exec (.injectionArm m v) s = .next t ∧ t.reg 0x04900024 = ((v ||| 0x80000000#32) &&& 0xE3007F1F#32) ∧ onlyRegs s t [0x04900024]) ∧
       (s.life ≠ 1 → s.mode ≠ 0xB → ∃ t, exec (.injectionArm m v) s = .next t ∧ bit (t.reg 0x04900004) 0 = true ∧ onlyRegs s t [0x04900004])))

/-- R332, R334, R335: a drain moves the oldest entry of a merge buffer into memory, and the scrubber rewrites the correctable words of
a line and leaves the others; neither changes a byte that anyone reads. R341, R346: a fill writes zero data to every word of its
domain and turns the domain on; a memory whose failing words all find a spare entry passes its self-test, and the fill of its
domain follows the last test. -/
def Obligations.DrainsScrubsAndFills : Prop :=
  (∀ (s : State),
     (∀ (k : Fin 25) (e : MergeEntry) (es : List MergeEntry), s.memOk → SMap.get [] s.merge k.val = e :: es →
       ∃ t, exec (.mergeDrain k) s = .next t ∧ memKept s t ∧ onlyMem s t ∧ SMap.get [] t.merge k.val = es) ∧
     (∀ addr : Word,
       let l := alignDown addr.toNat 64
       let on : Bool := bit (s.reg 0x04900008) 0 && (isMain l || isCantle l) && s.domOn (memDomainOf l)
       (on = true → s.memOk → ∃ t, exec (.scrubLine addr) s = .next t ∧ memKept s t ∧ onlyMem { s with scrubSeen := t.scrubSeen } t ∧
         ∀ i, i < 8 → s.mergeEntry (l + 8 * i) = none → (SMap.get .ok s.ecc (l + 8 * i) = .correctable → bit (s.reg 0x04900024) 31 = false →
             SMap.get .ok t.ecc (l + 8 * i) = .ok ∧ bit (t.reg 0x04900004) 1 = true) ∧
           (SMap.get .ok s.ecc (l + 8 * i) ≠ .correctable → SMap.get .ok t.ecc (l + 8 * i) = SMap.get .ok s.ecc (l + 8 * i))) ∧
       (on = false → exec (.scrubLine addr) s = .next s))) ∧
  (∀ (s : State),
     (∀ d : DomId, s.dom d.val = 2 → exec (.fillComplete d) s = .next ((s.fill d.val).domArrive d.val).progress ∧
       ((s.fill d.val).domArrive d.val).dom d.val = 3 ∧
       (s.memOk → ∀ p, isMain p = true ∨ isTack p = true ∨ isCantle p = true →
         (s.fill d.val).byteAt p = if inMemDom d.val p then 0#8 else s.byteAt p)) ∧
     (∀ d : DomId, s.dom d.val ≠ 2 → exec (.fillComplete d) s = .next s) ∧
     (∀ (u : MemUnit) (w : Nat), unitIdx u < 26 → s.dom (unitDom (unitIdx u)) = 6 → s.bistRun = [unitIdx u] →
       let b := remapRange (unitIdx u)
       (exec (.selftestComplete u [] true) s = .next (State.progress (State.setDom { s with bistRun := [] } (unitDom (unitIdx u)) 2))) ∧
       (∀ e, (span b.1 b.2).find? (fun k => s.remapEnt k == 0#32) = some e → w < 2 ^ 17 →
         exec (.selftestComplete u [w] true) s = .next (State.progress (State.setDom { s with
           bistRun := [], remap := SMap.set 0#32 s.remap e (BitVec.ofNat 32 (0xA0000000 + w)) } (unitDom (unitIdx u)) 2)))) ∧
     (∀ (k : Fin 4) (w : Nat) (ok : Bool), s.dom (18 + k.val) = 6 → s.bistRun = [26 + k.val] →
       ∃ t : State, exec (.selftestComplete (.quad k) [w] ok) s = .next t.progress ∧ t.dom (18 + k.val) = 2 ∧
         ∀ c, c / 4 = k.val → (t.core c).failed = true) ∧
     (∀ (u : MemUnit) (ws : List Nat) (ok : Bool), unitIdx u ∉ s.bistRun → exec (.selftestComplete u ws ok) s = .next s))

/-- R262, R311: before that, the parity or residue check of a core ends its kernel with HWCHECK, and a FIFO's parity error marks its
oldest word (which detectors these are is the model's reading, notes/assumptions/77.md, 78.md). R381, R384, R385, R389, R390, R399:
a detector's report is classified once, and a condition-type detector reports once while its condition lasts. In the counting modes
it makes a COUNT record and opens nothing; inside a shadow, an ECHO record; a control-class one, while an older control-class record
is open, a record one class above its own; a data-class one that matches an open record merges into it; every other opens a record
at its own class, in the lowest free entry, with its grace timer unless it is a CE. R392, R396: the SEQ of a UC record in its grace
period, of a CE record or of a record whose reaction has ended closes it, the first with SOFT and without a reaction; an FT record
in grace stays, acknowledged; the log takes the new flags and no other entry changes. -/
def Obligations.DetectionsAndAcknowledgement : Prop :=
  (∀ (s : State) (r : Report), s.mode ≠ 0 → r.det.val < detCount r.group.val →
     let serve : Bool := !countingMode s.mode
     let seen := fun (t : State) => (((t.vmismatch r).classify r).engineShadow r).fcGo
     let t := s.classify r
     let made := fun (cls : Nat) (esc : Bool) (link : Nat) => ∀ k, (span 0 64).find? (fun k => (s.openAt k).isNone) = some k →
       t.reg fcSeq = BitVec.ofNat 32 s.nextSeq ∧ (∀ j, j ≠ k → t.openAt j = s.openAt j) ∧
       t.openAt k = some { s.recOf r with
         seq := s.nextSeq, idx := bitsOf (s.reg fcHead) 8 0, cls := cls, esc := esc, link := link,
         grace := if cls = 0 then none else some (s.live + s.graceLen), vec := s.reportVec cls false }
     let older := oldest (s.openRecs.filter (fun (_, x) => isControl x.group && decide (x.created / 25 < s.live / 25)))
     (∃ d : State, d.conds = s.conds ∧ (r.group.val < 21 ∨ 33 < r.group.val → d = s) ∧
       (∀ c, c < 16 → r.group.val = 30 + c / 4 → r.det.val = 5 * (c % 4) → s.scRuns c = true → (s.core c).dmas ≠ [] →
         d = s.setCore c { s.core c with
           st := .ending, wfi := false, exc := some { cause := 0x0C, pc := (s.core c).pc, rpt := (s.core c).rep } }) ∧
       (∀ q w ws, q < 192 → r.group.val = 21 + q / 24 → r.det.val = 12 + q % 24 → s.domOn (pgDom (q / 24)) = true → (s.fifo q).words = w :: ws →
         (d.fifo q).words = { w with poison := true } :: ws) ∧
       (r.cond = false → exec (.detection (some r)) s = .next (seen d)) ∧
       (r.cond = true → s.hasCond r = false → exec (.detection (some r)) s = .next (seen { d with conds := s.conds ++ [r] })) ∧
       (r.cond = true → s.hasCond r = true → exec (.detection (some r)) s = .next d.fcGo)) ∧
     (∀ xs, s.reports = r :: xs → exec (.detection none) s = .next (({ s with reports := xs } : State).detect r).fcGo) ∧
     exec (.conditionGone r.group r.det) s = .next { s with conds := s.conds.filter (fun c => !(c.group == r.group && c.det == r.det)) } ∧
     (serve = false →
       let w := s.reg (grpCnt r.group.val)
       let times := ((SMap.get [] s.counted r.group.val).filter (fun u => decide (s.live < u + bitsOf w 29 16 * 1200000))).length + 1
       ∃ u : State, u.openRecs = s.openRecs ∧ u.reg fcSeq = BitVec.ofNat 32 s.nextSeq ∧
         (times < bitsOf w 7 0 → t = u) ∧ (bitsOf w 7 0 ≤ times → s.mode ≠ 0xB → t = u.enterRecovery 3) ∧
         (bitsOf w 7 0 ≤ times → s.mode = 0xB → ∃ x, t = { u with loose := u.loose ++ [x] } ∧ x.severe = true ∧ x.grace = some s.live)) ∧
     (∀ w, serve = true → s.shadowFor r = some w → t.openRecs = s.openRecs ∧ t.reg fcSeq = BitVec.ofNat 32 s.nextSeq) ∧
     (serve = true → s.shadowFor r = none → isControl r.group.val = true →
       (∀ k o, older = some (k, o) → made (min 2 (r.cls.val + 1)) true o.seq) ∧ (older = none → made r.cls.val false 0)) ∧
     (serve = true → s.shadowFor r = none → isControl r.group.val = false →
       (s.mergeInto r = none → made r.cls.val false 0) ∧
       ∀ k x, s.mergeInto r = some (k, x) → t.reg fcSeq = s.reg fcSeq ∧ (∀ j, j ≠ k → t.openAt j = s.openAt j) ∧
         t.openAt k = some { x with
           count := min 65535 (x.count + 1), cls := max x.cls r.cls.val,
           grace := if x.cls = 0 ∧ 0 < r.cls.val then some (s.live + s.graceLen) else x.grace })) ∧
  (∀ (s : State) (m : Master) (v : Word) (k : Nat) (x : FcRec), s.regRight m 0x04C00010 true = .may → s.calm →
     let hit := s.opens.find? (fun (_, r) => match r with | some y => y.seq == v.toNat && !y.acked | none => false)
     let left := fun (t : State) (r : Option FcRec) => t.openAt k = r ∧ (∀ j, j ≠ k → t.openAt j = s.openAt j) ∧
       onlyMem { s with opens := t.opens } t
     (hit = some (k, some x) →
       (x.cls = 2 → x.grace.isSome → ∃ t, exec (.fcAck m v) s = .next t ∧ left t (some { x with acked := true })) ∧
       (x.cls ≠ 2 ∨ x.grace = none → ∃ t, exec (.fcAck m v) s = .next t ∧ left t none)) ∧
     (hit = none → ∃ t, exec (.fcAck m v) s = .next t ∧ onlyRegs s t []))

/-- R393, R394, R396: at the expiry of its grace timer an FT record takes the FT reaction, and a UC record the reaction of its group
and owner, or that of an FT reaction starting in the same cycle; before it nothing happens. The FT reaction starts forced safe
state, asserts FAULTN and resets the Pommel half, once its record's host report is issued, or the tunnel is not carried, or 1 ms has
passed since the detection. When a shadow's time is over it closes and its persisting conditions report
again. R395, R406, R410, R435: FTREL releases FAULTN unless an FT reaction runs or an FT record is made in the same cycle, which makes it a configuration error,
and without
effect in RECOVERY; FC_KICK restarts the watchdog of the core that writes it and is an error from anyone else; a core that is out
of reset and has not kicked within its bound is reported, once. R401, R411: FC_GRPg_STAT clears the bits written 1, which neither
acknowledges nor closes a record; where a condition of the group persists its detector reports again. FC_INJ with ARM raises a
detection where injection is permitted and the group has the detector, and is ignored with CFGERR elsewhere. -/
def Obligations.ReactionsReleaseAndGroups : Prop :=
  (∀ (s : State) (k : Fin 64) (x : FcRec), s.openAt k.val = some x →
     (∀ t0, x.grace = some t0 → s.live < t0 → exec (.graceExpiry k) s = .next s) ∧
     (∀ t0, x.grace = some t0 → t0 ≤ s.live →
       let on := fun (u : State) (c : Nat) => (u.putOpen k.val { x with grace := none, reacting := true, react := c }).fcSettle
       (x.cls = 2 → exec (.graceExpiry k) s = .next (on (s.ftReaction x) 3)) ∧
       (x.cls = 1 → s.ftNow = true → exec (.graceExpiry k) s = .next (on s 3)) ∧
       (x.cls = 1 → s.ftNow = false → exec (.graceExpiry k) s = .next (on (s.ucReact x) (ucReaction x)))) ∧
     (s.ftReact = none →
       let u : State := { s.forceSafe with faultN := true, ftReact := some s.live, ftHeld := some x }
       let v : State := State.pommelHalfStart { u with ftHeld := none } 3 0 (x.shadow .ft)
       s.ftReaction x = if u.ftMay x = false then u
         else if x.group = 1 ∨ x.group = 2 ∨ x.group = 20 then v.cantleStart 3 0 (x.shadow .cantle) else v) ∧
     (s.ftMay x = true ↔ s.carried = false ∨ x.created + 1200000 ≤ s.live ∨ ∃ v, x.vec = some v ∧ v ∉ (s.fn 0).kept ∧ v ∉ (s.fn 0).pba) ∧
     (s.ftReact.isSome → s.ftReaction x = s) ∧
     (∀ w, s.shadows.find? (fun w => decide (w.closes ≤ s.live)) = some w → exec .shadowClose s =
       .next ((s.conds.filter (fun r => w.of_.covers r)).foldl (fun (t : State) r => t.postReset w r) { s with shadows := s.shadows.erase w }).fcGo) ∧
     (s.shadows.find? (fun w => decide (w.closes ≤ s.live)) = none → exec .shadowClose s = .next s.fcGo)) ∧
  (∀ (s : State) (m : Master) (v : Word),
     (s.regRight m fcCtrl true = .may → s.ftReact = none → s.ftMade = false → ∃ t, exec (.ftrel m v) s = .next t ∧
       t.faultN = (if s.mode = 9 then s.faultN else false) ∧ t.reg fcCtrl = (v &&& 0x100#32) ∧ onlyRegs { s with faultN := t.faultN } t [fcCtrl]) ∧
     (s.regRight m fcCtrl true = .may → s.ftReact.isSome ∨ s.ftMade = true → ∃ t, exec (.ftrel m v) s = .next t ∧ bit (t.reg fcStatus) 0 = true ∧
       onlyRegs s t [fcCtrl, fcStatus]) ∧
     (s.regRight m 0x04C0002C true = .may →
       (m = .cantle → ∃ t, exec (.fcKick m) s = .next t ∧ onlyRegs { s with
         kickC := some s.live, conds := s.conds.filter (fun c => !(c.group.val == 2 && c.det.val == 0)) } t []) ∧
       (m = .pommel → ∃ t, exec (.fcKick m) s = .next t ∧ onlyRegs { s with
         kickP := some s.live, conds := s.conds.filter (fun c => !(c.group.val == 3 && c.det.val == 0)) } t []) ∧
       (m = .debug → ∃ t, exec (.fcKick m) s = .next t ∧ bit (t.reg fcStatus) 0 = true ∧ onlyRegs s t [fcStatus])) ∧
     (let due := max s.relC (s.kickC.getD 0) + (if s.mode = 3 ∨ s.mode = 4 then 45000 else 1000) * 1200
      (s.cantleUp = true → s.wdgOut 2 = false → due ≤ s.live → exec (.watchdogExpiry true) s = .next (s.report 2 0 2 16 0 2 0#32 true)) ∧
      (s.cantleUp = false ∨ s.wdgOut 2 = true ∨ s.live < due → exec (.watchdogExpiry true) s = .next s)) ∧
     (let due := max s.relP (s.kickP.getD 0) + 1500 * 1200
      (s.pommelUp = true → s.wdgOut 3 = false → due ≤ s.live → exec (.watchdogExpiry false) s = .next (s.report 3 0 1 17 0 1 0#32 true)) ∧
      (s.pommelUp = false ∨ s.wdgOut 3 = true ∨ s.live < due → exec (.watchdogExpiry false) s = .next s))) ∧
  (∀ (s : State) (m : Master) (g : Fin 48) (v : Word),
     (s.regRight m (grpStat g.val) true = .may →
       (s.conds.filter (fun r => r.group.val == g.val) = [] → s.calm → ∃ t, exec (.groupStatusClear m g v) s = .next t ∧
         t.reg (grpStat g.val) = (s.reg (grpStat g.val) &&& ~~~ (v &&& 7#32)) ∧ onlyRegs s t [grpStat g.val]) ∧
       (∀ r, s.conds.filter (fun r => r.group.val == g.val) = [r] → v &&& 7#32 ≠ 0#32 → ∃ u : State,
         exec (.groupStatusClear m g v) s = .next (u.classify r).fcGo ∧ onlyRegs s u [grpStat g.val] ∧
         bit (u.reg (grpStat g.val)) (if countingMode s.mode then 0 else r.cls.val) = true)) ∧
     (s.regRight m fcInj true = .may →
       let ok := (s.life = 1 ∨ s.mode = 0xB) ∧ bitsOf v 21 16 < 48 ∧ bitsOf v 5 0 < detCount (bitsOf v 21 16)
       (ok → ∃ u : State, exec (.fcInj m v) s = .next (u.injected (bitsOf v 21 16) (bitsOf v 5 0)).fcGo ∧
         u.reg fcInj = (v &&& 0x3F003F#32) ∧ onlyRegs s u [fcInj]) ∧
       (¬ ok → ∃ t, exec (.fcInj m v) s = .next t ∧ bit (t.reg fcStatus) 0 = true ∧ onlyRegs s t [fcStatus])))

/-- R414, R417, R419, R445: a transition starts towards the highest floor, never below GLANCE before the CK_AON32 monitor is armed,
and with the handshake where PD_MGMT goes down; it ends once the power domains stand as the mode wants and no handshake runs, with
MODE, MODECHG and source 432; a handshake ends at its timeout with PREPTMO, the reins passing to the Cantle half. R414, R420: each
core requests modes in its own field of PM_REQ, where a value that is no mode is a configuration error; PM_DOMREQ takes the
requested domains and what the mode permits switches at once; a port group that was to go down a millisecond ago goes, and kernels
that hold a quad up are stopped. -/
def Obligations.PowerModes : Prop :=
  (∀ (s : State),
     let f := if s.aonArmed then s.floor else max 5 s.floor
     let may := 3 ≤ s.mode ∧ s.mode ≤ 8 ∧ s.trans = none ∧ f ≠ s.mode ∧ ¬ (6 ≤ s.mode ∧ f ≤ 5 ∧ s.crReset.isSome)
     (may → 6 ≤ s.mode → f ≤ 5 → ∃ t, exec .modeTransitionStart s = .next t ∧ t.trans = some (f, s.live) ∧ t.prep = some s.live ∧
       t.mode = s.mode ∧ (t.irqSrc 434).pend = true ∧ t = { s with trans := t.trans, prep := t.prep, irqs := t.irqs }) ∧
     (may → s.mode ≤ 5 ∨ 6 ≤ f → exec .modeTransitionStart s = .next (State.powerStep { s with trans := some (f, s.live) })) ∧
     (¬ may → exec .modeTransitionStart s = .next s) ∧
     (∀ t b, s.trans = some (t, b) → s.prep = none → s.reached t = true → slowMode t = false → t ≠ 9 → t ≠ 0xA →
       ∃ u : State, exec .modeTransitionEnd s = .next u.startStep ∧ u.mode = t ∧ u.trans = none ∧ bit (u.reg pmStatus) 6 = true ∧
         (u.irqSrc 432).pend = true ∧ onlyRegs { s with mode := t, trans := none, patrolAt := s.live, patrol := false } u [pmStatus]) ∧
     (∀ t b, s.trans = some (t, b) → s.prep.isSome ∨ s.reached t = false → exec .modeTransitionEnd s = .next s) ∧
     (s.trans = none → exec .modeTransitionEnd s = .next s) ∧
     (∀ p, s.prep = some p →
       let due := p + bitsOf (s.reg 0x04D00014) 21 12 * 1200000
       (due ≤ s.live → ∃ u : State, exec .prepTimeout s = .next u.powerStep ∧ u.prep = none ∧ u.holderPommel = false ∧
         bit (u.reg pmStatus) 3 = true ∧ onlyRegs { s with prep := none } u [pmStatus, 0x04D00018]) ∧
       (s.live < due → exec .prepTimeout s = .next s)) ∧
     (s.prep = none → exec .prepTimeout s = .next s)) ∧
  (∀ (s : State) (m : Master) (v : Word),
     (s.regRight m 0x04D0000C true = .may →
       let hi := if m = .cantle then 19 else 3
       let lo := if m = .cantle then 16 else 0
       let x := bitsOf v hi lo
       (m = .cantle ∨ m = .pommel → x = 0 ∨ 3 ≤ x ∧ x ≤ 8 → ∃ t, exec (.modeRequest m v) s = .next t ∧
         t.reg 0x04D0000C = putBits (s.reg 0x04D0000C) hi lo x ∧ onlyRegs s t [0x04D0000C]) ∧
       (m = .cantle ∨ m = .pommel → ¬ (x = 0 ∨ 3 ≤ x ∧ x ≤ 8) → ∃ t, exec (.modeRequest m v) s = .next t ∧
         bit (t.reg pmStatus) 0 = true ∧ onlyRegs s t [pmStatus]) ∧
       (m = .debug → ∃ t, exec (.modeRequest m v) s = .next t ∧ onlyRegs s t [])) ∧
     (s.regRight m 0x04D00024 true = .may → ∃ u : State, exec (.domainRequest m v) s = .next u.powerStep ∧
       u.reg 0x04D00024 = (v &&& 0x233FFFF0#32) ∧ onlyRegs s u [0x04D00024]) ∧
     (∀ n : PgId,
       (2 ≤ n.val → s.downLate (pgDom n.val) = true → exec (.portGroupDownTimeout n) s = .next (s.domOff (pgDom n.val)).powerStep ∧
         (s.domOff (pgDom n.val)).dom (pgDom n.val) = 0) ∧
       (n.val < 2 ∨ s.downLate (pgDom n.val) = false → exec (.portGroupDownTimeout n) s = .next s)) ∧
     (∀ k : Fin 4,
       (s.trans.isSome → s.downLate (sqDom k.val) = true → exec (.quadDownTimeout k) s = .next (State.powerStep
         ((span (4 * k.val) 4).foldl (fun (t : State) c => if (t.core c).st == .running then t.scExcept c { cause := 0x0D } else t) s))) ∧
       (s.trans = none ∨ s.downLate (sqDom k.val) = false → exec (.quadDownTimeout k) s = .next s)))

/-- R414, R416, R432, R449: a link partner is taken up only after LINKGO and while PD_U4PHY is on; 100 ms after its detection, without
a carried tunnel, the connection is given up with LINKFAIL. While PD_U4PHY is off the sideband raises wake event LINK. R430, R431,
R433, R440: an enabled wake event sets its bit of PM_WAKE_SRC and raises source 433, and a disabled one does nothing; the upper
half of the wake time arms the timer and the lower disarms it; a due timer raises wake event TIMER once; the cores set and clear
WAKEN, and WAKEN_MS after it was set it is cleared with WAKEN_TMO; patrol passes come each PATROL ms in DEEP and LISTEN. -/
def Obligations.ConnectionsAndWakes : Prop :=
  (∀ (s : State),
     (s.domOn 26 = true → s.linkGo = true → s.conn = none → exec .connectionDetect s = .next { s with conn := some s.live }) ∧
     (s.domOn 26 = false ∨ s.linkGo = false ∨ s.conn.isSome → exec .connectionDetect s = .next s) ∧
     (∀ p, s.conn = some p →
       (s.tunnel = .none → p + 120000000 ≤ s.live → ∃ t, exec .linkFail s = .next t ∧ t.conn = none ∧ bit (t.reg pmStatus) 4 = true ∧
         onlyRegs { s with conn := none } t [pmStatus]) ∧
       (s.tunnel ≠ .none ∨ s.live < p + 120000000 → exec .linkFail s = .next s)) ∧
     (s.conn = none → exec .linkFail s = .next s) ∧
     (s.mode = 0 ∨ s.dom 26 ≠ 0 → exec .sidebandDetect s = .next s) ∧
     (s.mode ≠ 0 → s.dom 26 = 0 → bit (s.reg 0x04D00028) 6 = false → exec .sidebandDetect s = .next s) ∧
     (s.mode ≠ 0 → s.dom 26 = 0 → bit (s.reg 0x04D00028) 6 = true → ∃ t, exec .sidebandDetect s = .next t ∧
       bit (t.reg 0x04D0002C) 6 = true ∧ (t.irqSrc 433).pend = true ∧
       t.conn = (if s.linkGo && s.conn.isNone then some s.live else s.conn) ∧
       onlyRegs { s with conn := t.conn, waken := t.waken } t [0x04D0002C, 0x04D0000C])) ∧
  (∀ (s : State),
     (∀ i : Fin 11,
       let cause := (i.val < 4 ∧ bitsOf (s.padReg (laneFnAddr (8 + i.val))) 3 0 = 0xC) ∨ (i.val = 4 ∧ bitsOf (s.reg 0x04D00030) 23 0 ≠ 0) ∨
         (i.val = 5 ∧ s.dom 2 = 0 ∧ bitsOf (s.padReg (laneFnAddr 0)) 3 0 = 5 ∧ bit (s.padReg (laneFnAddr 0 + 4)) 26 = true) ∨
         (i.val = 9 ∧ s.pommelWake = true)
       (s.mode ≠ 0 → cause → bit (s.reg 0x04D00028) i.val = true → ∃ t, exec (.wakeEvent i) s = .next t ∧
         bit (t.reg 0x04D0002C) i.val = true ∧ (t.irqSrc 433).pend = true ∧ onlyRegs { s with waken := t.waken } t [0x04D0002C, 0x04D0000C]) ∧
       (s.mode = 0 ∨ ¬ cause ∨ bit (s.reg 0x04D00028) i.val = false → exec (.wakeEvent i) s = .next s)) ∧
     (∀ (m : Master) (v : Word),
       (s.regRight m 0x04D00038 true = .may → ∃ t, exec (.wakeTimerArm m v) s = .next t ∧ t.timerArm = true ∧ t.reg 0x04D00038 = v ∧
         onlyRegs { s with timerArm := true } t [0x04D00038]) ∧
       (s.regRight m 0x04D00034 true = .may → ∃ t, exec (.wakeTimerDisarm m v) s = .next t ∧ t.timerArm = false ∧ t.reg 0x04D00034 = v ∧
         onlyRegs { s with timerArm := false } t [0x04D00034]) ∧
       (s.regRight m 0x04D00010 true = .may →
         (∃ t, exec (.wakenSet m) s = .next t ∧ onlyRegs { s with waken := if m = .pommel ∨ m = .cantle then some s.live else s.waken } t []) ∧
         (∃ t, exec (.wakenClr m) s = .next t ∧ onlyRegs { s with waken := if m = .pommel ∨ m = .cantle then none else s.waken } t []))) ∧
     (s.timerArm = true → s.wakeAt ≤ s.liveT0 → bit (s.reg 0x04D00028) 7 = true → ∃ t, exec .wakeTimerDue s = .next t ∧ t.timerArm = false ∧
       bit (t.reg 0x04D0002C) 7 = true ∧ onlyRegs { s with timerArm := false, waken := t.waken } t [0x04D0002C, 0x04D0000C]) ∧
     (s.timerArm = true → s.wakeAt ≤ s.liveT0 → bit (s.reg 0x04D00028) 7 = false → exec .wakeTimerDue s = .next { s with timerArm := false }) ∧
     (s.timerArm = false ∨ s.liveT0 < s.wakeAt → exec .wakeTimerDue s = .next s) ∧
     (∀ p, s.waken = some p →
       let due := p + bitsOf (s.reg 0x04D00014) 31 22 * 1200000
       (due ≤ s.live → ∃ t, exec .wakenTimeout s = .next t ∧ t.waken = none ∧ bit (t.reg pmStatus) 5 = true ∧
         onlyRegs { s with waken := none } t [pmStatus]) ∧
       (s.live < due → exec .wakenTimeout s = .next s)) ∧
     (s.waken = none → exec .wakenTimeout s = .next s) ∧
     (let due := (s.mode = 3 ∨ s.mode = 4) ∧ s.patrol = false ∧ s.cantleUp = true ∧
        s.patrolAt + bitsOf (s.reg 0x04D00014) 4 0 * 1200000 ≤ s.live
      (due → exec .patrolPass s = .next { s with patrol := true, patrolAt := s.live }) ∧ (¬ due → exec .patrolPass s = .next s)))

/-- R434 to R437: the Pommel core takes the reins only with PD_MGMT on, out of reset, with a live heartbeat and no handshake running;
it gives them to the Cantle half, which ends a handshake; a claim that contradicts this is refused, with REFUSED and a report of
group REINS; when the holder's heartbeat lapses the reins pass to the Cantle half with HBLAPSE. R415, R429, R503, R507: SERVICE is
entered from ACTIVE and left again, and REPLAY is entered from SERVICE under its conditions and left again, by the Pommel core
alone and with no transition in progress; every other such command is a configuration error. PM_CLK changes only while CK_AUD is
not in use. -/
def Obligations.ReinsServiceAndReplayModes : Prop :=
  (∀ (s : State) (m : Master), s.regRight m 0x04D00018 true = .may →
     let sound := s.domOn 28 = true ∧ s.pommelUp = true ∧ s.alive = true ∧ s.prep = none
     let turned := fun (t : State) (det : Nat) => bit (t.reg pmStatus) 1 = true ∧ onlyRegs s t [pmStatus] ∧
       ∃ r ∈ t.reports, r.group.val = 8 ∧ r.det.val = det
     (m = .pommel → s.holderPommel = false → sound → ∃ t, exec (.take m) s = .next t ∧ t.holderPommel = true ∧ (t.irqSrc 435).pend = true ∧
       onlyRegs s t [0x04D00018]) ∧
     (m = .pommel → s.holderPommel = false → ¬ sound → ∃ t, exec (.take m) s = .next t ∧ turned t 2) ∧
     (m = .pommel → s.holderPommel = true → ∃ t, exec (.take m) s = .next t ∧ onlyRegs s t []) ∧
     (m = .cantle → s.holderPommel = true → ∃ t, exec (.take m) s = .next t ∧ turned t 3) ∧
     (m = .cantle → s.holderPommel = false → ∃ t, exec (.take m) s = .next t ∧ onlyRegs s t []) ∧
     (m = .cantle → ∃ t, exec (.give m) s = .next t ∧ turned t 3) ∧
     (m = .pommel → s.prep = none → ∃ t, exec (.give m) s = .next t ∧ t.holderPommel = false ∧ onlyRegs s t [0x04D00018]) ∧
     (m = .pommel → s.prep.isSome → ∃ u : State, exec (.give m) s = .next u.powerStep ∧ u.holderPommel = false ∧ u.prep = none ∧
       onlyRegs { s with prep := none } u [0x04D00018]) ∧
     (s.holderPommel = true → s.alive = false → ∃ t, exec .heartbeatLapse s = .next t ∧ t.holderPommel = false ∧
       bit (t.reg pmStatus) 2 = true ∧ onlyRegs s t [0x04D00018, pmStatus]) ∧
     (s.holderPommel = false ∨ s.alive = true → exec .heartbeatLapse s = .next s)) ∧
  (∀ (s : State) (m : Master) (v : Word),
     (s.regRight m 0x04D00010 true = .may →
       let no := fun (i : Instr) => ∃ t, exec i s = .next t ∧ bit (t.reg pmStatus) 0 = true ∧ onlyRegs s t [pmStatus]
       let free := m = .pommel ∧ s.trans = none
       (free → s.mode = 8 → ∃ u : State, exec (.svcEnter m) s = .next u.powerStep ∧ u.trans = some (0xB, s.live) ∧ onlyRegs { s with trans := u.trans } u []) ∧
       (¬ free ∨ s.mode ≠ 8 → no (.svcEnter m)) ∧
       (free → s.mode = 0xB → ∃ u : State, onlyRegs s u [] ∧
         exec (.svcExit m) s = .next (u.startTrans (if u.aonArmed then u.floor else max 5 u.floor))) ∧
       (¬ free ∨ s.mode ≠ 0xB → no (.svcExit m)) ∧
       (free → s.mode = 0xB → s.replayOk = true → s.recording = false → ∃ t, exec (.replayEnter m) s = .next t ∧
         t.trans = some (0xA, s.time) ∧ t.jnState = 4 ∧ t.mode = 0xB) ∧
       (¬ free ∨ s.mode ≠ 0xB ∨ s.replayOk = false → s.recording = false → no (.replayEnter m)) ∧
       (free → s.mode = 0xA → ∃ u : State, onlyRegs s u [] ∧ exec (.replayExit m) s = .next u.replayFinish) ∧
       (¬ free ∨ s.mode ≠ 0xA → no (.replayExit m))) ∧
     (s.regRight m 0x04D0003C true = .may →
       let l := bitsOf v 14 8
       (s.audUsed = false → l ≤ 95 → (bit v 1 = true → s.laneFunc l = 0xB) → ∃ t, exec (.pmClkWrite m v) s = .next t ∧
         t.reg 0x04D0003C = (v &&& 0x7F03#32) ∧ onlyRegs s t [0x04D0003C]) ∧
       (s.audUsed = true ∨ (l ≤ 95 ∧ bit v 1 = true ∧ s.laneFunc l ≠ 0xB) → ∃ t, exec (.pmClkWrite m v) s = .next t ∧
         bit (t.reg pmStatus) 0 = true ∧ onlyRegs s t [pmStatus])))

/-- R342, R344, R417, R428, R445: the monitor of CK_AON32 is armed once, and reported when it is not armed 1.5 s after PORN's release;
a ramp leads to the domain's fill or self-test, or turns it on, and waits for the PLLs where they are not locked; a lock lets what
waited go on. R444, R447, R516: PORN low, or one of the four supplies out of range, puts the part into OFF at once, where only the
pins, the queue of commands and the persistent parts are kept; with PORN high and every supply in range start-up begins in FILL at
time 0. -/
def Obligations.ClocksOffAndStartUp : Prop :=
  (∀ (s : State),
     (s.mode ≠ 0 → s.aonArmed = false → exec .ckAon32MonitorArm s =
       .next { s with aonArmed := true, conds := s.conds.filter (fun c => !(c.group.val == 4 && c.det.val == 0)) }) ∧
     (s.mode = 0 ∨ s.aonArmed = true → exec .ckAon32MonitorArm s = .next s) ∧
     (let late := s.mode ≠ 0 ∧ s.aonArmed = false ∧ 1800000000 ≤ s.live ∧
        (s.conds ++ s.reports).any (fun c => c.group.val == 4 && c.det.val == 0) = false
      (late → exec .ckAon32StartTimeout s = .next (s.report 4 0 2 18 0 0 0#32 true)) ∧ (¬ late → exec .ckAon32StartTimeout s = .next s)) ∧
     (s.pll = false → s.refRuns = true → ∃ u : State, exec .pllLock s = .next u.startPower.progress ∧ u.pll = true ∧
       ∀ d, 1 ≤ d → d < 30 →
         (s.dom d = 8 → u.dom d = 3) ∧ (s.dom d ≠ 7 → s.dom d ≠ 8 → u.dom d = s.dom d) ∧
         (s.dom d = 7 → filledDom d = true → u.dom d = if 18 ≤ d ∧ d ≤ 21 ∧ s.bistRun.contains (26 + (d - 18)) then 6 else 2)) ∧
     (s.pll = true ∨ s.refRuns = false → exec .pllLock s = .next s) ∧
     (∀ d : DomId,
       let k := d.val
       (s.dom k = 1 ∨ s.dom k = 5 → ∃ u : State, exec (.powerUpRampEnd d) s = .next u.progress ∧
         u.dom k = (if s.dom k = 5 then (if s.pll then 3 else 8) else if !filledDom k then 3 else if k ≠ 1 ∧ s.pll = false then 7
                    else if 18 ≤ k ∧ k ≤ 21 ∧ s.bistRun.contains (26 + (k - 18)) then 6 else 2)) ∧
       (s.dom k ≠ 1 → s.dom k ≠ 5 → exec (.powerUpRampEnd d) s = .next s))) ∧
  (∀ (s : State),
     (s.porn = true → s.mode ≠ 0 → ∃ t, exec .pornLow s = .next t ∧
       t = { s.bare with mode := 0, doms := [], porn := false, regs := t.regs } ∧ t.reg 0x04E00014 = 0#32) ∧
     (s.mode = 0 → exec .pornLow s = .next { s with porn := false }) ∧ (s.porn = false → exec .pornLow s = .next s) ∧
     (∀ rail : Fin 4,
       (s.mode ≠ 0 → ∃ t, exec (.supplyOutOfRange rail) s = .next t ∧ rail.val ∈ t.badRails ∧
         t = { s.bare with mode := 0, doms := [], badRails := t.badRails, regs := t.regs } ∧ t.reg 0x04E00014 = 0x10000#32) ∧
       (s.mode = 0 → ∃ t, exec (.supplyOutOfRange rail) s = .next t ∧ rail.val ∈ t.badRails ∧ t = { s with badRails := t.badRails })) ∧
     (s.mode = 0 → s.badRails = [] → s.safen = true → ∃ t, exec .pornRelease s = .next t ∧ t.mode = 1 ∧ t.time = 0 ∧
       t.reg 0x04E00014 = s.reg 0x04E00014 ∧ t = { s.bare with porn := true, regs := t.regs }) ∧
     (s.mode ≠ 0 ∨ s.badRails ≠ [] → exec .pornRelease s = .next { s with porn := true }) ∧
     (s.mode = 0 → s.porn = true → s.safen = true → ∃ t, exec .supplyInRange s = .next t ∧ t.mode = 1 ∧ t.time = 0 ∧
       t = { s.bare with badRails := [], regs := t.regs }) ∧
     (s.mode ≠ 0 ∨ s.porn = false → exec .supplyInRange s = .next { s with badRails := [] }))

/-- R446 to R450, R452, R483: fuse load gives the part its fuses and locked remap entries, or ends start-up in RECOVERY; an image that
the boot loader asked for is stored, checked, and started at its entry point, or ends in RECOVERY; a flash that does not answer
ends there too; LINKGO is the Pommel core's; a retained Pommel image that passes its check is entered at its warm entry. -/
def Obligations.FusesAndImages : Prop :=
  ∀ (s : State),
    (∀ x : Fuses, s.mode = 1 → s.stageNow = 0 → s.trans = none →
      (∃ u : State, exec (.fuseLoad (some x)) s = .next u.startPower ∧ u.fuses = s.fusesNow x ∧ u.stageNow = 1 ∧
        ∀ e w, x.remap = [(e, w)] → e < 204 → u.remapEnt e = BitVec.ofNat 32 (0xC0000000 + w % 2 ^ 17)) ∧
      exec (.fuseLoad none) s = .next (State.enterRecovery { s with fuses := { s.fuses with lifecycle := 3 } } 1)) ∧
    (∀ r, s.mode ≠ 1 ∨ s.stageNow ≠ 0 ∨ s.trans.isSome → exec (.fuseLoad r) s = .next s) ∧
    (∀ i : Image,
      let asked := s.loader = some i.cantle ∧ i.headerOk = true ∧ s.forcedSafe = false ∧ s.domOn 28 = true
      let w := s.writeMem (if i.cantle then 0x02100000 else 0) i.payload
      let sound := i.authOk = true ∧ s.fuses.svnMin ≤ i.svn ∧ i.payload.length % 4096 = 0 ∧ i.payload.length ≤ (if i.cantle then 0x80000 else 0x400000)
      (asked → sound → i.cantle = true → exec (.bootImageLoaded i) s = .next (w.cantleLoaded i).fcSettle ∧ (w.cantleLoaded i).cantleUp = true ∧
        (w.cantleLoaded i).startC = some (0x02100000 + i.entry.toNat) ∧ bit ((w.cantleLoaded i).reg suBoot) 0 = true) ∧
      (asked → sound → i.cantle = false → exec (.bootImageLoaded i) s = .next (w.pommelLoaded i).fcSettle ∧ (w.pommelLoaded i).pommelUp = true ∧
        (w.pommelLoaded i).startP = some i.entry.toNat ∧ bit ((w.pommelLoaded i).reg suBoot) 1 = true) ∧
      (asked → ¬ sound → exec (.bootImageLoaded i) s = .next (w.noImage i.cantle (if i.cantle then 5 else 6)).fcSettle) ∧
      (¬ asked → exec (.bootImageLoaded i) s = .next s)) ∧
    (∀ c, s.loader = some c → ∃ u : State, exec .bootFlashTimeout s = .next (u.enterRecovery 4).fcSettle ∧
      (if c then u.cImg else u.pImg) = none ∧ bit (u.reg suBoot) (if c then 0 else 1) = false) ∧
    (s.loader = none → exec .bootFlashTimeout s = .next s) ∧
    (∀ m : Master, s.regRight m 0x04E0000C true = .may →
      (m = .pommel → ∃ t, exec (.linkgo m) s = .next t ∧ t.linkGo = true ∧ onlyRegs s t [suBoot]) ∧
      (m ≠ .pommel → ∃ t, exec (.linkgo m) s = .next t ∧ bit (t.reg 0x04E00004) 0 = true ∧ onlyRegs s t [0x04E00004])) ∧
    (s.warmRun = true → exec (.warmStart false) s = .next { s with warmRun := false, loader := some false } ∧
      (s.phReset = none → s.calm → ∃ t, exec (.warmStart true) s = .next t ∧ t.pommelUp = true ∧ t.warmRun = false ∧
        t.startP = s.pImg.map (fun i => i.warm.toNat))) ∧
    (∀ ok, s.warmRun = false → exec (.warmStart ok) s = .next s)

/-- R453 to R457, R486: SU_RST with its key starts the reset of its scope, and any other value is a configuration error; the debug
port may start each. A device reset restarts start-up and keeps T0, FC_SEQ, FAULTN, the count of Pommel-half resets and the fuses;
a Pommel-half or Cantle core reset that runs already runs on. A reset of the debug port frees its locks. -/
def Obligations.ResetsByScope : Prop :=
  ∀ (s : State), s.mode ≠ 0 →
    (∀ (m : Master) (v : Word), s.regRight m 0x04E00010 true = .may →
      let cause := if m = .debug then 4 else 2
      let key := bitsOf v 15 8 = 0xC3
      ∃ u : State, onlyRegs s u [] ∧
        ∀ i : Instr, (i = .deviceReset (.suRst m v) ∨ i = .pommelHalfReset (.suRst m v) ∨ i = .cantleCoreReset (.suRst m v)) →
          (key → bitsOf v 7 0 = 1 → exec i s = .next (u.deviceReset cause m.id)) ∧
          (key → bitsOf v 7 0 = 2 → exec i s = .next (u.pommelHalfStart cause m.id (swShadow .pommel))) ∧
          (key → bitsOf v 7 0 = 3 → exec i s = .next (u.cantleStart cause m.id (swShadow .cantle))) ∧
          (¬ key ∨ bitsOf v 7 0 = 0 ∨ 3 < bitsOf v 7 0 → ∃ t, exec i s = .next t ∧ bit (t.reg 0x04E00004) 0 = true ∧
            onlyRegs s t [0x04E00004])) ∧
    (s.safen = true → ∃ t, exec (.deviceReset .debugPort) s = .next t ∧ t.mode = 1 ∧ t.time = s.live ∧ t.reg fcSeq = s.reg fcSeq ∧
      t.reg 0x04E00018 = s.reg 0x04E00018 ∧ t.reg 0x04E00014 = 0x0104007F#32 ∧ t.faultN = s.faultN ∧ t.fuses = s.fuses ∧
      t.pending = s.pending ∧ t.mem = [] ∧ t.slots = [] ∧ t.rings = [] ∧ t.fns = [] ∧ t.stations = []) ∧
    (s.phReset.isSome → exec (.pommelHalfReset .debugPort) s = .next s) ∧
    (s.phReset = none → s.crReset = none → s.domOn 28 = false → ∃ t, exec (.pommelHalfReset .debugPort) s = .next t ∧ t.holderPommel = false ∧
      t.reg 0x04E00018 = satInc (s.reg 0x04E00018) ∧ t.reg 0x04E00014 = 0x0204007F#32 ∧
      onlyRegs { s with shadows := t.shadows } t [0x04E00014, 0x04E00018, 0x04D00018]) ∧
    (s.crReset.isSome → exec (.cantleCoreReset .debugPort) s = .next s) ∧
    (s.crReset = none → s.phReset = none → s.busySlots.filter (fun p => keyEngine p.1 == 64) = [] →
      ∃ t, exec (.cantleCoreReset .debugPort) s = .next t ∧ t.crReset = some s.live ∧ t.cantleUp = false ∧ t.ceaWeir = [] ∧
        bit (t.reg 0x04480000) 0 = false ∧ t.reg 0x04E00014 = 0x0304007F#32 ∧ SMap.get none t.boxes 32 = none ∧ t.commit 1 = none) ∧
    (∀ i : Instr, (i = .deviceReset .reaction ∨ i = .pommelHalfReset .reaction ∨ i = .cantleCoreReset .reaction) → exec i s = .next s) ∧
    (s.domOn 28 = true → ∃ t, exec .debugPortReset s = .next t ∧ (∀ n : LockId,
      t.reg (0x04B81000 + 4 * n.val) = if s.reg (0x04B81000 + 4 * n.val) = 0x8000007F#32 then 0#32 else s.reg (0x04B81000 + 4 * n.val))) ∧
    (s.domOn 28 = false → exec .debugPortReset s = .next s)

/-- R130, R213, R230: a training brings the tunnel up at the rate that both ends and HP_CTRL allow, or changes its rate with RTRN
where the rate falls; a pause keeps DLUP and takes the link capacity to 0, a resumption brings it back with what was held, but one
that comes more than 100 ms after a retraining began is a loss; a loss takes everything of the tunnel down, completes every read
without it and resets every function. In REPLAY each acts on the live link alone. -/
def Obligations.TunnelComesAndGoes : Prop :=
  ∀ (s : State),
    (s.jnState ≠ 5 → ∀ gen3 two : Bool,
      let ready := s.domOn 26 = true ∧ s.domOn 27 = true ∧ bit (s.reg 0x04E00008) 2 = true
      let gen := if gen3 = true ∧ bitsOf (s.reg 0x04000008) 3 2 = 3 then 3 else 2
      let lanes := if two = true ∧ bit (s.reg 0x04000008) 4 = false then 2 else 1
      let hp := putBits (putBits (s.reg hpLink) 15 12 gen) 17 16 lanes
      let fell := linkCap gen lanes < s.trainedCap
      (ready → s.tunnel = .none → ∃ t, exec (.linkTrained gen3 two) s = .next t ∧ t.tunnel = .carried ∧ t.held = [] ∧ t.waken = none ∧
        t.conn = s.conn.or (some s.live) ∧ t.reg hpLink = putBits (putBits (putBits hp 26 24 0) 31 31 1) 30 30 1 ∧
        t.reg 0x0430000C = BitVec.ofNat 32 (linkCap gen lanes)) ∧
      (ready → s.tunnel = .carried → ∃ t, exec (.linkTrained gen3 two) s = .next t ∧ t.reg hpLink = hp ∧
        t.reg 0x0430000C = BitVec.ofNat 32 (linkCap gen lanes) ∧ (fell → bit (t.reg hpStatus) 1 = true) ∧
        onlyRegs s t (if fell then [hpLink, 0x0430000C, hpStatus] else [hpLink, 0x0430000C])) ∧
      (ready → ∀ w, s.tunnel = .paused w → ∃ t, exec (.linkTrained gen3 two) s = .next t ∧ t.reg hpLink = hp ∧
        onlyRegs s t (if fell then [hpLink, hpStatus] else [hpLink])) ∧
      (¬ ready → exec (.linkTrained gen3 two) s = .next s)) ∧
    (s.jnState ≠ 5 → ∀ w : PauseWhy,
      let cl := match w with | .cl2 => 3 | .routerSleep => 4 | .retrain => 5
      (s.tunnel = .carried → ∃ t, exec (.tunnelPause w) s = .next t ∧ t.tunnel = .paused w ∧ t.reg 0x0430000C = 0#32 ∧
        t.reg hpLink = putBits (putBits (putBits (s.reg hpLink) 26 24 cl) 31 31 0) 30 30 1 ∧ t.held = s.held ∧ t.fns = s.fns) ∧
      (s.tunnel ≠ .carried → exec (.tunnelPause w) s = .next s) ∧
      (s.tunnel = .paused .retrain → s.pausedAt + 120000000 < s.live → exec .tunnelResume s = exec .tunnelLoss s) ∧
      (s.tunnel = .paused w → w ≠ .retrain ∨ s.live ≤ s.pausedAt + 120000000 → ∃ t, exec .tunnelResume s = .next t ∧ t.tunnel = .carried ∧ t.held = [] ∧
        t.reg hpLink = putBits (putBits (putBits (s.reg hpLink) 26 24 0) 31 31 1) 30 30 1 ∧
        t.reg 0x0430000C = BitVec.ofNat 32 s.trainedCap ∧ (s.mode ≠ 0xA → t.out = s.out ++ s.held))) ∧
    (s.jnState ≠ 5 → (∀ w, s.tunnel ≠ .paused w) → exec .tunnelResume s = .next s) ∧
    (s.jnState ≠ 5 → s.tunnel ≠ .none → ∃ u : State,
      u.tunnel = .none ∧ u.held = [] ∧ u.conn = none ∧ u.sleepReqs = [] ∧ u.reg hpLink = 0x05000000#32 ∧ u.reg 0x0430000C = 0#32 ∧
        bit (u.reg hpStatus) 3 = true ∧ u.reg 0x04000018 = satInc (s.reg 0x04000018) ∧ u.fns = s.fns ∧ u.slots = s.slots ∧
      exec .tunnelLoss s = .next ((span 0 16).foldl (fun (t : State) f => (t.cfgSpaceReset f).fnResetStart f)
        ((u.busySlots.map (fun p => p.1)).foldl (fun (t : State) k =>
          ((t.slot k).w.reads).foldl (fun (v : State) _ => hostReadCompletion v k .noTunnel) t) u))) ∧
    (s.tunnel = .none → s.jnState ≠ 5 → exec .tunnelLoss s = .next s) ∧
    (s.jnState = 5 → ∀ i : Instr, ((∃ a b, i = .linkTrained a b) ∨ (∃ w, i = .tunnelPause w) ∨ i = .tunnelResume ∨ i = .tunnelLoss ∨
        (∃ f p, i = .powerStateWrite f p) ∨ (∃ f o v, i = .configWrite f o v) ∨ (∃ f, i = .flr f) ∨ ∃ o n p, i = .bar2Access o n p) →
      ∃ t, exec i s = .next t ∧ t.fns = s.fns ∧ t.tunnel = s.tunnel ∧ t.rings = s.rings ∧ t.slots = s.slots ∧ t.weir = s.weir)

/-- R206, R224, R225, R227: a request for CL2 or router sleep, and a write of D3hot, wait for their flush, once; D0 takes effect at
once, D1 and D2 are ignored; WAKE of HP_CTRL asks a sleeping link to wake; a PTM dialogue starts when its interval is over, and its
end writes the pair of T0 and the master's time, corrected by half the measured round trip (notes/assumptions/75.md), for every
function, or STALE. R204, R206, R207: a pending vector that has become deliverable is sent once, after the kept firings, and not
while the function is being reset; kept firings go out once the function may send again; a sleep request that waits for its flush is
acknowledged by it, or after 50 microseconds, and D3hot then takes effect. -/
def Obligations.SleepPtmAndMessages : Prop :=
  (∀ (s : State),
     (∀ router : Bool,
       let q := if router then SleepRequest.routerSleep else .cl2
       let may := s.tunnel = .carried ∧ s.sleepReqs.any (fun r => r.1 == q) = false
       (may → exec (.cl2Request router) s = .next { s with sleepReqs := s.sleepReqs ++ [(q, s.live)] }) ∧
       (¬ may → exec (.cl2Request router) s = .next s)) ∧
     (∀ (m : Master) (v : Word), s.regRight m 0x04000008 true = .may → ∃ u : State, onlyRegs s u [0x04000008, hpStatus] ∧
       exec (.linkWake m v) s = .next (if s.linkAsleep then { u with out := s.out ++ [.link 0] } else u)) ∧
     (∀ f : Fn, s.jnState ≠ 5 →
       let asks := s.sleepReqs.any (fun r => r.1 == .d3hot f)
       (s.carried = true → s.inD0 f.val = true → asks = false → exec (.powerStateWrite f 3#2) s =
         .next { s with sleepReqs := s.sleepReqs ++ [(.d3hot f, s.live)] }) ∧
       (s.carried = true → s.inD0 f.val = true → asks = true → exec (.powerStateWrite f 3#2) s = .next s) ∧
       (s.carried = true → ∀ p : BitVec 2, p = 1#2 ∨ p = 2#2 → exec (.powerStateWrite f p) s = .next { s with out := s.out ++ [.cfgDone f.val] }) ∧
       (s.carried = true → ∃ t, exec (.powerStateWrite f 0#2) s = .next t ∧ t.inD0 f.val = true ∧ .cfgDone f.val ∈ t.out ∧
         ∀ g, g ≠ f.val → t.fn g = s.fn g) ∧
       (s.carried = false → ∀ p, exec (.powerStateWrite f p) s = .next s)) ∧
     (let due := s.ptmEnabled = true ∧ s.tunnel = .carried ∧ s.domOn 27 = true ∧
        (∀ t, s.ptmLast = some t → t + bitsOf (s.reg 0x04000010) 15 0 * 1200000 ≤ s.live)
      (due → exec .ptmDialogue s = .next { s with ptmLast := some s.live, ptmOpen := true, out := s.out ++ [.ptmRequest] }) ∧
      (¬ due → exec .ptmDialogue s = .next s)) ∧
     (s.ptmOpen = false → ∀ r, exec (.ptmDialogueDone r) s = .next s) ∧
     (s.ptmOpen = true → let half : Quad := BitVec.ofNat 64 ((s.live - s.ptmLast.getD s.live) * 5 / 12); (∀ ns : Quad, ∃ t, exec (.ptmDialogueDone (some ns)) s = .next t ∧ t.ptmOpen = false ∧ ∀ f : Fn,
         let b := 0x04100020 + 0x10000 * f.val
         t.reg b = BitVec.ofNat 32 (s.liveT0 % 2 ^ 32) ∧ t.reg (b + 4) = BitVec.ofNat 32 (s.liveT0 / 2 ^ 32) ∧
           t.reg (b + 8) = BitVec.ofNat 32 ((ns + half).toNat % 2 ^ 32) ∧ t.reg (b + 12) = BitVec.ofNat 32 ((ns + half).toNat / 2 ^ 32) ∧
           t.reg (b + 16) = BitVec.ofNat 32 (2 ^ 31 + (bitsOf (s.reg (b + 16)) 15 0 + 1) % 65536)) ∧
       ∃ t, exec (.ptmDialogueDone none) s = .next t ∧ t.ptmOpen = false ∧ ∀ f : Fn,
         bit (t.reg (0x04100030 + 0x10000 * f.val)) 30 = true)) ∧
  (∀ (s : State),
     (∀ (f : Fn) (v : Fin 1024),
       let due := v.val ∈ (s.fn f.val).pba ∧ s.deliverable f.val v.val = true ∧ s.canIssue f.val = true ∧ (s.fn f.val).resetAt = none
       (¬ due → exec (.msixUnmask f v) s = .next s) ∧
       (due → exec (.msixUnmask f v) s = .next ((s.deliverKept f.val).msixIssue f.val v.val)) ∧
       (due → s.mode ≠ 0xA → (s.fn f.val).kept = [] → ∃ t, exec (.msixUnmask f v) s = .next t ∧ v.val ∉ (t.fn f.val).pba ∧
         t = { s with fns := t.fns, out := s.outBut f.val v.val ++ [.msix f.val v.val ((s.msixWord f.val (4 * v.val)).toNat +
           (s.msixWord f.val (4 * v.val + 1)).toNat * 2 ^ 32) (s.msixWord f.val (4 * v.val + 2))] } ∧
         (∀ g, g ≠ f.val → t.fn g = s.fn g))) ∧
     (∀ f : Fn,
       (s.canIssue f.val = false → exec (.keptFiringDelivery f) s = .next s) ∧
       (s.canIssue f.val = true → ∃ t, exec (.keptFiringDelivery f) s = .next t ∧ (t.fn f.val).kept = [] ∧
         t = { s with fns := t.fns, out := t.out } ∧ (∀ g, g ≠ f.val → t.fn g = s.fn g) ∧
         ∀ v ∈ (s.fn f.val).kept, s.deliverable f.val v = false → v ∈ (t.fn f.val).pba)) ∧
     (∀ q : SleepRequest,
       let asked := ∃ r ∈ s.sleepReqs, r.1 = q
       let late := ∃ r ∈ s.sleepReqs, r.1 = q ∧ r.2 + 60000 ≤ s.live
       let acked := fun (t : State) => t.sleepReqs = s.sleepReqs.filter (fun r => r.1 != q) ∧
         (match q with | .d3hot f => t.inD0 f.val = false ∧ .cfgDone f.val ∈ t.out | _ => .sleepAck q ∈ t.out)
       (¬ asked → exec (.sleepFlush q) s = .next s) ∧
       (asked → ∃ t, exec (.sleepFlush q) s = .next t ∧ acked t) ∧
       (¬ late → exec (.flushAckTimeout q) s = .next s) ∧
       (late → ∃ t, exec (.flushAckTimeout q) s = .next t ∧ acked t)))

/-- R216, R228, R232: a word of a function's configuration space takes its writable bits and clears the bits written 1 to clear, and
the write is answered, where the tunnel is carried; Initiate FLR and FN_RESET with its key start the function's reset, any other
value of FN_RESET is a configuration error, and a reset that runs already runs on; on the next tick the function's backlogs,
reservations and unsent firings go; the reset ends, with RSTDONE, once that has happened and the function's slots are IDLE. A reset
of the configuration space keeps the revision, the subsystem IDs and the MSI-X table size. -/
def Obligations.ConfigurationAndFunctionReset : Prop :=
  ∀ (s : State) (f : Fn),
    (s.jnState ≠ 5 → ∀ (off : BitVec 12) (v : Word),
      let o := alignDown off.toNat 4
      let old := s.cfg f.val o
      let mk := cfgMasks f.val o
      let new := mergeMask old v mk.1 &&& ~~~ (v &&& mk.2)
      let plain := ¬ (o = 0x78 ∧ bit v 15 = true) ∧ ¬ (o = 0x44 ∧ bitsOf v 1 0 ≠ bitsOf old 1 0) ∧
        ¬ (o = 0x04 ∧ bit v 2 ≠ bit old 2) ∧ ¬ (o = 0x158 ∧ bit v 0 = true ∧ bit old 0 = false)
      (s.carried = true → plain → ∃ t, exec (.configWrite f off v) s = .next t ∧ t.cfg f.val o = new ∧
        (∀ k, k ≠ o → t.cfg f.val k = s.cfg f.val k) ∧ (∀ g, g ≠ f.val → t.fn g = s.fn g) ∧
        t = { s with fns := t.fns, out := s.out ++ [.cfgDone f.val] }) ∧
      (s.carried = true → o = 0x78 → bit v 15 = true → exec (.configWrite f off v) s = .next (flrStart (s.setCfg f.val o new) f.val)) ∧
      (s.carried = false → exec (.configWrite f off v) s = .next s)) ∧
    (s.jnState ≠ 5 → s.carried = false → exec (.flr f) s = .next s) ∧
    (s.jnState ≠ 5 → s.carried = true → ∃ u : State, onlyRegs (s.cfgSpaceReset f.val) u [] ∧
      (∀ o, o ≠ 0x08 → o ≠ 0x2C → o ≠ 0x50 → u.cfg f.val o = cfgReset f.val o) ∧
      exec (.flr f) s = .next ((if s.phReset.isSome then u else u.fnResetStart f.val).emit (.cfgDone f.val))) ∧
    ((s.fn f.val).resetAt.isSome → s.fnResetStart f.val = s) ∧
    ((s.fn f.val).resetAt = none → s.rings = [] → s.slots = [] → let t := s.fnResetStart f.val
      (t.fn f.val).resetAt = some s.time ∧ t.reg (0x04100004 + 0x10000 * f.val) = 0#32 ∧ bit (t.reg (0x04300200 + 16 * f.val)) 0 = false ∧
        (t.fn f.val).stepTwo = true ∧ (∀ x ∈ t.weir, x.fn ≠ f.val) ∧ ∀ g, g ≠ f.val → t.fn g = s.fn g) ∧
    ((s.fn f.val).stepTwo = true → s.slots = [] → let t := s.fnResetTwo f.val
      (t.fn f.val).stepTwo = false ∧ (t.fn f.val).kept = [] ∧ (t.fn f.val).pba = [] ∧ (∀ g, g ≠ f.val → t.fn g = s.fn g) ∧
        (∀ g, g < 1024 → s.ringFn g = some f.val → SMap.wf (fun _ => ({} : Ring)) s.rings = true → (t.ring g).backlog = [] ∧ (t.ring g).resRing = 0)) ∧
    (∀ (m : Master) (v : Word),
      let a := 0x04100008 + 0x10000 * f.val
      let e := 0x04100004 + 0x10000 * f.val
      s.regRight m a true = .may →
        let runs := (s.fn f.val).resetAt.isSome ∨ s.phReset.isSome
        (¬ runs → v = 0xA5#32 → ∃ u : State, exec (.fnReset m f v) s = .next (u.fnResetStart f.val) ∧ onlyRegs s u []) ∧
        (¬ runs → v ≠ 0xA5#32 → ∃ t, exec (.fnReset m f v) s = .next t ∧ bit (t.reg e) 0 = true ∧ onlyRegs s t [e]) ∧
        (runs → ∃ t, exec (.fnReset m f v) s = .next t ∧ onlyRegs s t [])) ∧
    ((s.fn f.val).resetAt = none → exec (.functionResetEnd f) s = .next (s.halfStep.fcSettle)) ∧
    (∀ b, (s.fn f.val).resetAt = some b → s.fnKeys f.val = [] → (s.fn f.val).stepTwo = false → exec (.functionResetEnd f) s = .next ((s.fnResetFinish f.val).halfStep.fcSettle) ∧
      ((s.fnResetFinish f.val).fn f.val).resetAt = none ∧ bit ((s.fnResetFinish f.val).reg (0x04100004 + 0x10000 * f.val)) 2 = true ∧
      ((s.fnResetFinish f.val).fn f.val).msix = []) ∧
    (∀ b, (s.fn f.val).resetAt = some b → s.fnKeys f.val ≠ [] ∨ (s.fn f.val).stepTwo = true → s.time < b + 252000 →
      exec (.functionResetEnd f) s = .next (s.halfStep.fcSettle))

/-- R146: inside a tick the edges come before the changes of a source's state, and these before the duplicated counters; a command
of an earlier step than one that the tick has had falls on the next tick. R138, R139, R142 to R144, R147: with a filter an edge
waits until its level has been stable for FILT ticks, and the opposite edge drops it; edges closer than 4 ticks, or too early for a
source that is locked or in holdover, count as glitches; a boundary sets a locked source to its next period, or one in holdover to
the nearer of this period and the next, without a step back; the first edge after a loss leads to ACQUIRE; an overdue source goes to
HOLDOVER as of the tick on which it became overdue, and at the end of its holdover it is LOST, neither while an earlier edge waits
for its filter. R148, R157: a disagreement of a source's two counters loses that source at the lower position, or leaves it OFF
there (the model's reading, notes/assumptions/24.md), with DUPERR and a report, and one of T0 is reported as fatal; a requested
change of the tempo clock takes effect at T0's period boundary, rescales the estimates and moves no position back. -/
def Obligations.TempoSourcesMove : Prop :=
  (∀ (s : State) (n : SrcId),
     let x := s.src n.val
     let k := match x.lastEdge with | some t => s.ticksFrom t | none => 0
     let counts := x.lastEdge.isSome → 4 ≤ k ∧
       ¬ ((x.st = .locked ∨ x.st = .holdover) ∧ k * 256 * 100 * s.srcDiv n.val < bitsOf (s.srcLimit n.val) 15 8 * x.pest)
     let only := fun (t : State) => onlyRegs { s with srcs := t.srcs } t [] ∧ ∀ j, j ≠ n.val → t.src j = s.src j
     let live := s.mode ≠ 0xA ∧ n.val ≠ 0 ∧ n.val ≠ 1 ∧ x.st ≠ .off ∧ s.srcPowered n.val = true
     let turn := fun (i : Instr) (p : Nat) => exec i s = exec i (s.atStep p)
     (∀ rising : Bool, s.mode ≠ 0xA → (s.atStep 1).mode ≠ 0xA → turn (.inputEdge n rising) 1) ∧
     turn (.sourceOverdue n) 2 ∧ turn (.holdoverExpiry n) 2 ∧ (∀ o, turn (.dupCounterMismatch n o) 4) ∧
     (∀ p, s.tickStep ≤ p → s.atStep p = { s with tickStep := p }) ∧ (∀ p, p < s.tickStep → s.atStep p = { clockTick s with tickStep := p }) ∧
     (∀ rising : Bool, s.tickStep = 1 →
       let filt := if s.srcHasLane n.val then bitsOf (s.srcLimit n.val) 3 0 * s.tickLen else 0
       let taken := live ∧ filt = 0 ∧ (s.srcHasLane n.val = true → edgeSelected (s.srcCfg n.val) rising = true)
       (¬ live ∨ (filt = 0 ∧ ¬ taken) → ∃ t, exec (.inputEdge n rising) s = .next t ∧ onlyRegs s t []) ∧
       (live → filt ≠ 0 → (∀ c, x.cand = some c → c.2.2 = rising) → ∃ t, exec (.inputEdge n rising) s = .next t ∧ only t ∧
         t.src n.val = { x with cand := some (s.time, s.time + filt, rising) }) ∧
       (live → filt ≠ 0 → (∃ c, x.cand = some c ∧ c.2.2 ≠ rising) → ∃ t, exec (.inputEdge n rising) s = .next t ∧ only t ∧
         t.src n.val = { x with cand := none }) ∧
       (taken → ¬ counts → ∃ t, exec (.inputEdge n rising) s = .next t ∧ only t ∧ t.src n.val = { x with glitch := (x.glitch + 1) % 65536 }) ∧
       (taken → counts → x.st ≠ .lost → x.edges + 1 < s.srcDiv n.val → ∃ t, exec (.inputEdge n rising) s = .next t ∧ only t ∧
         t.src n.val = { x with lastEdge := some s.time, edges := x.edges + 1 }) ∧
       (taken → counts → x.st = .lost → 1 < s.srcDiv n.val → ∃ t, exec (.inputEdge n rising) s = .next t ∧ only t ∧
         (t.src n.val).st = .acquire ∧ (t.src n.val).edges = 1 ∧ (t.src n.val).base = x.base) ∧
       (taken → counts → x.st = .locked → s.srcDiv n.val ≤ x.edges + 1 → ∃ t, exec (.inputEdge n rising) s = .next t ∧ only t ∧
         (t.src n.val).st = .locked ∧
         t.pos n.val = (if (x.base / 4096 + 1) * 4096 ≤ x.floor then x.floor / 4096 + 1 else x.base / 4096 + 1) * 4096) ∧
       (taken → counts → x.st = .holdover → s.srcDiv n.val ≤ x.edges + 1 → ∃ t, exec (.inputEdge n rising) s = .next t ∧ only t ∧
         (t.src n.val).st = .locked ∧ (t.src n.val).pest = x.pest ∧
         t.pos n.val = (if 2048 ≤ s.pos n.val % 4096 then (s.pos n.val / 4096 + 1) * 4096 else s.pos n.val))) ∧
     (s.tickStep = 2 →
      let at_ := x.e + x.pest * (100 + bitsOf (s.srcLimit n.val) 23 16) / 100 / 256 * s.tickLen
      let due := n.val ≠ 0 ∧ n.val ≠ 1 ∧ x.st = .locked ∧ (n.val = 7 ∨ (at_ ≤ s.time ∧ ∀ c, x.cand = some c → at_ < c.1))
      (due → ∃ t, exec (.sourceOverdue n) s = .next t ∧ only t ∧
        t.src n.val = { x with st := .holdover, holdFrom := if n.val = 7 then s.time else at_, prev := some (s.time, s.posBefore n.val) }) ∧
      (¬ due → exec (.sourceOverdue n) s = .next s)) ∧
     (s.tickStep = 2 →
      let end_ := x.holdFrom + s.srcHold n.val * 1200
      let due := x.st = .holdover ∧ end_ ≤ s.time ∧ ∀ c, x.cand = some c → end_ < c.1
      (due → ∃ u : State, exec (.holdoverExpiry n) s = .next (u.lossSlots n.val) ∧ (u.src n.val).st = .lost ∧
         (u.src n.val).base = s.pos n.val ∧ bit (u.reg tpStatus) 1 = true ∧ onlyRegs { s with srcs := u.srcs } u [tpStatus]) ∧
      (¬ due → exec (.holdoverExpiry n) s = .next s))) ∧
  (∀ (s : State),
     (∀ (n : SrcId) (o : Quad), s.tickStep = 4 →
       (n.val = 0 → exec (.dupCounterMismatch n o) s = .next (s.report 20 0 2 18 0 0 0#32)) ∧
       (n.val ≠ 0 → ∃ t, exec (.dupCounterMismatch n o) s = .next t ∧
         t.reg 0x04500010 = BitVec.ofNat 32 (2 ^ 31 + n.val) ∧ bit (t.reg tpStatus) 3 = true ∧
         ((s.src n.val).st ≠ .off → onlyRegs (s.srcLose n.val (min (s.pos n.val) o.toNat)) t [0x04500010, tpStatus]) ∧
         ((s.src n.val).st = .off → (t.src n.val).st = .off ∧ t.pos n.val = min (s.pos n.val) o.toNat ∧
           onlyRegs { s with srcs := t.srcs } t [0x04500010, tpStatus] ∧ ∀ j, j ≠ n.val → t.src j = s.src j) ∧
         ∃ r ∈ t.reports, r.group.val = 19 ∧ r.det.val + 1 = n.val ∧ r.cls.val = 1)) ∧
     (∀ aon, s.clkReq = some aon → s.time % 1200 = 0 → aon ≠ s.tickAon → ∃ t, exec .tempoClockChange s = .next t ∧
       t.tickAon = aon ∧ t.clkReq = none ∧ t = { s with tickAon := aon, clkReq := none, slots := t.slots, srcs := t.srcs } ∧
       ∀ n, 1 ≤ n → n < 16 → s.pos n ≤ t.pos n ∧ (t.src n).st = (s.src n).st ∧
         (t.src n).pest = (s.src n).pest * s.tickLen / (if aon then 25 else 6)) ∧
     (∀ aon, s.clkReq = some aon → s.time % 1200 = 0 → aon = s.tickAon → exec .tempoClockChange s = .next { s with clkReq := none }) ∧
     (s.clkReq = none ∨ s.time % 1200 ≠ 0 → exec .tempoClockChange s = .next s))

/-- R142, R143, R226: an update of host time locks T1 at that time, unless its position is ahead, where it holds; from a loss this
counts as a relock; when synchronisation drops out T1 goes into holdover. Neither acts in REPLAY, and each takes its step of the
tick (R146). R137, R142, R158: TP_SRCn_CFG of T0 and T7 does not change; a write with EN for a source whose lane does not suit it is
refused as a whole with CFGERR; EN takes a source from OFF to ACQUIRE at its frozen position, and its clearing back to OFF, past the
loss that waiting CCWs meet; a read of POSLO returns the position's low word and captures the high one for its master. -/
def Obligations.HostTimeAndSourceRegisters : Prop :=
  (∀ (s : State) (h : Quad),
     let x := s.src 1
     (s.mode ≠ 0xA → (s.atStep 1).mode ≠ 0xA → exec (.hostTimeUpdate h) s = exec (.hostTimeUpdate h) (s.atStep 1)) ∧
     (s.mode ≠ 0xA → (s.atStep 2).mode ≠ 0xA → exec .hostSyncLoss s = exec .hostSyncLoss (s.atStep 2)) ∧
     (s.tickStep = 1 → s.mode ≠ 0xA → s.domOn 27 = true → x.st ≠ .off → ∃ t, exec (.hostTimeUpdate h) s = .next t ∧ (t.src 1).st = .locked ∧
       t.pos 1 = max (s.pos 1) h.toNat ∧ (t.src 1).relock = (if x.st = .lost then (x.relock + 1) % 256 else x.relock) ∧
       bit (t.reg hpLink) 29 = true ∧ (x.st = .lost → bit (t.reg tpStatus) 2 = true) ∧
       onlyRegs { s with srcs := t.srcs } t [hpLink, tpStatus] ∧ ∀ j, j ≠ 1 → t.src j = s.src j) ∧
     (s.tickStep = 1 → s.mode ≠ 0xA → s.domOn 27 = true → x.st = .off → ∃ t, exec (.hostTimeUpdate h) s = .next t ∧ bit (t.reg hpLink) 29 = true ∧
       onlyRegs s t [hpLink]) ∧
     (s.mode = 0xA ∨ (s.tickStep = 1 ∧ s.domOn 27 = false) → exec (.hostTimeUpdate h) s = .next s) ∧
     (s.tickStep = 2 → s.mode ≠ 0xA → ∃ t, exec .hostSyncLoss s = .next t ∧ bit (t.reg hpLink) 29 = false ∧
       t.src 1 = (if x.st = .locked then { x with st := .holdover, holdFrom := s.time, prev := some (s.time, s.posBefore 1) } else x) ∧
       onlyRegs { s with srcs := t.srcs } t [hpLink] ∧ ∀ j, j ≠ 1 → t.src j = s.src j) ∧
     (s.mode = 0xA → exec .hostSyncLoss s = .next s)) ∧
  (∀ (s : State) (m : Master) (n : SrcId) (v : Word),
     (s.regRight m (0x04500100 + 0x20 * n.val) true = .may →
       let a := 0x04500100 + 0x20 * n.val
       let new := v &&& srcCfgMask n.val
       let refused := s.srcRefused n.val new = true
       let legal := n.val = 1 ∨ (bitsOf new 30 29 ≠ 3 ∧ bitsOf new 6 0 ≤ 95)
       let off := (s.src n.val).st = .off
       let z : State := { s with tickStep := 7 }
       (n.val = 0 ∨ n.val = 7 → ∃ t, exec (.sourceCfgWrite m n v) s = .next t ∧ onlyRegs z t []) ∧
       (n.val ≠ 0 → n.val ≠ 7 →
         (refused → ∃ t, exec (.sourceCfgWrite m n v) s = .next t ∧ bit (t.reg tpStatus) 0 = true ∧ onlyRegs z t [tpStatus]) ∧
         (¬ refused → legal → off → bit new 31 = true → ∃ t, exec (.sourceCfgWrite m n v) s = .next t ∧ t.reg a = new ∧
           (t.src n.val).st = .acquire ∧ (t.src n.val).base = (s.src n.val).base ∧
           (t.src n.val).pest = nomPest s.tickAon (s.srcNom n.val) ∧ onlyRegs { z with srcs := t.srcs } t [a] ∧
           ∀ j, j ≠ n.val → t.src j = s.src j) ∧
         (¬ refused → legal → (off ↔ bit new 31 = false) → ∃ t, exec (.sourceCfgWrite m n v) s = .next t ∧ t.reg a = new ∧ onlyRegs z t [a]) ∧
         (¬ refused → legal → ¬ off → bit new 31 = false → ∃ u : State, onlyRegs z u [] ∧
           exec (.sourceCfgWrite m n v) s = .next ((u.srcOff n.val).setReg a new) ∧ ((u.srcOff n.val).src n.val).st = .off))) ∧
     (s.regRight m (0x04500118 + 0x20 * n.val) false = .may → ∃ t, exec (.positionRead m n) s = .next t ∧
       t.out = s.out ++ [.readData m.id (leBytes 4 (s.pos n.val % 2 ^ 32))] ∧
       t.reg (banked m.id (0x0450011C + 0x20 * n.val)) = BitVec.ofNat 32 (s.pos n.val / 2 ^ 32) ∧
       onlyRegs { s with out := t.out } t [banked m.id (0x0450011C + 0x20 * n.val)]))

/-- R149, R150, R159: a write with ARMED 1 arms a group whose entries, owner and range satisfy every condition of R150, and arms
nothing with CFGERR otherwise; an armed group refuses another; ARMED 0 disarms and stores the other fields; an action entry inside
the range of an armed group keeps its value with CFGERR. R151 to R155: the actions of a launch take effect once its latency is over,
groups of one tick in ascending order; an action whose lane has no suitable function, no power or no matching supply is dropped,
with DROP; levels and pulses change what the part drives, TOGGLE inverts it, an open-drain output that rests high included, a
capture records the launch tick and the level; a launch is over with its last action, a pulse at the end of its width, when the
other level returns. -/
def Obligations.StrikeGroups : Prop :=
  (∀ (s : State) (m : Master) (g : GroupId) (v : Word),
     let a := sgCtrl g.val
     let v1 := v ||| 0x80000000#32
     let v0 := v &&& 0x7FFFFFFF#32
     let z : State := { s with tickStep := 7 }
     (s.regRight m a true = .may → (∀ p ∈ s.busySlots, p.2.st ≠ .waiting) →
       (s.sgArmed g.val = true → ∃ t, exec (.strikeGroupArm m g v) s = .next t ∧ bit (t.reg tpStatus) 0 = true ∧ onlyRegs z t [tpStatus]) ∧
       (s.sgArmed g.val = false → s.armOk v1 = true → ∃ t, exec (.strikeGroupArm m g v) s = .next t ∧
         t.reg a = (v1 &&& 0xDF03FFFF#32) ∧ t.sgArmed g.val = true ∧ onlyRegs z t [a]) ∧
       (s.sgArmed g.val = false → s.armOk v1 = false → ∃ t, exec (.strikeGroupArm m g v) s = .next t ∧ t.sgArmed g.val = false ∧
         bit (t.reg tpStatus) 0 = true ∧ onlyRegs z t [a, tpStatus]) ∧
       (bitsOf v 28 24 ≤ 16 → ∃ t, exec (.strikeGroupDisarm m g v) s = .next t ∧ t.reg a = (v0 &&& 0xDF03FFFF#32) ∧
         t.sgArmed g.val = false ∧ onlyRegs z t [a]) ∧
       (16 < bitsOf v 28 24 → ∃ t, exec (.strikeGroupDisarm m g v) s = .next t ∧ t.sgArmed g.val = false ∧ t.sgOwner g.val = s.sgOwner g.val ∧
         bit (t.reg tpStatus) 0 = true ∧ onlyRegs z t [a, tpStatus])) ∧
     (∀ i : Fin 2048, s.regRight m (actAddr i.val) true = .may →
       (s.inArmed i.val = false → ∃ t, exec (.actionEntryWrite m i v) s = .next t ∧ t.reg (actAddr i.val) = (v &&& 0xFFFF0F7F#32) ∧
         onlyRegs z t [actAddr i.val]) ∧
       (s.inArmed i.val = true → ∃ t, exec (.actionEntryWrite m i v) s = .next t ∧ bit (t.reg tpStatus) 0 = true ∧ onlyRegs z t [tpStatus]))) ∧
  (∀ (s : State),
     (∀ (g : GroupId) (x : Launch) (l act param : Nat),
       s.launches = [x] → x.group = g.val → x.done = false → x.entries = [(l, act, param)] → x.open_ = [] →
         (s.time < x.at_ + s.strikeLatency → exec (.strikeActionEffect g) s = .next s) ∧
         (x.at_ + s.strikeLatency ≤ s.time →
           let may := s.forcedSafe = false ∧ actSuits act (s.laneFunc l) = true ∧ s.domOn (pgDom (l / 12)) = true ∧ s.laneDark l = false
           let od := bit (s.laneCfg l) 15 = true
           let still := (s.lane l).pulse = none
           let gone := fun (t : State) => t.launches = []
           let drives := fun (t : State) (d : Drive) => t = { s with lanes := t.lanes, launches := t.launches } ∧ (t.lane l).drive = d ∧
             ∀ k, k ≠ l → t.lane k = s.lane k
           (¬ may → ∃ t, exec (.strikeActionEffect g) s = .next t ∧ gone t ∧ bit (t.reg tpStatus) 4 = true ∧
             onlyRegs { s with launches := [] } t [tpStatus]) ∧
           (may → still → s.mode ≠ 0xA →
             (act = 1 → ∃ t, exec (.strikeActionEffect g) s = .next t ∧ gone t ∧ drives t .low) ∧
             (act = 2 → ∃ t, exec (.strikeActionEffect g) s = .next t ∧ gone t ∧ drives t .high) ∧
             (act = 3 → ∃ t, exec (.strikeActionEffect g) s = .next t ∧ gone t ∧ drives t (if (s.lane l).drive = .high ∨ (od ∧ (s.lane l).drive ≠ .low) then .low else .high)) ∧
             (act = 4 → ∃ t, exec (.strikeActionEffect g) s = .next t ∧ t.launches = [{ x with done := true, open_ := [l] }] ∧ drives t .high ∧
               (t.lane l).pulse = some (s.time + param * s.tickLen, false)) ∧
             (act = 5 → ∃ t, exec (.strikeActionEffect g) s = .next t ∧ t.launches = [{ x with done := true, open_ := [l] }] ∧ drives t .low ∧
               (t.lane l).pulse = some (s.time + param * s.tickLen, true))) ∧
           (may → act = 6 → ∃ t, exec (.strikeActionEffect g) s = .next t ∧ gone t ∧
             t.reg (laneFnAddr l + 0x10) = captureRecord x.at_ (s.lane l).ball ∧ onlyRegs { s with launches := [] } t [laneFnAddr l + 0x10]) ∧
           (may → act = 7 → ∀ y, (s.lane l).xfer = some y → ∃ t, exec (.strikeActionEffect g) s = .next t ∧ gone t ∧
             t.lane l = { s.lane l with gateOpen := true, closing := false, xfer := some { y with started := true } }))) ∧
     (∀ g : GroupId, (∀ x ∈ s.launches, x.group ≠ g.val) → exec (.strikeActionEffect g) s = .next s) ∧
     (∀ (l : LaneId) (t0 : Nat) (after : Bool), (s.lane l.val).pulse = some (t0, after) →
       (s.time < t0 → exec (.pulseEnd l) s = .next s) ∧
       (t0 ≤ s.time → s.mode ≠ 0xA → ∃ t, exec (.pulseEnd l) s = .next t ∧ (t.lane l.val).pulse = none ∧
         (t.lane l.val).drive = (if s.laneDark l.val then .hiZ else if after then .high else .low) ∧ (∀ x ∈ t.launches, l.val ∉ x.open_) ∧
         (∀ k, k ≠ l.val → t.lane k = s.lane k) ∧ t = { s with lanes := t.lanes, launches := t.launches })) ∧
     (∀ l : LaneId, (s.lane l.val).pulse = none → exec (.pulseEnd l) s = .next s))

/-- R276, R280 to R283, R314: PG_CTRL takes RBDLY and, while no lane of the group has a function, VSEL; a lane takes a function that
its limits, its room and its stations allow, with its further lanes as members, and options and timing within its limits; a reserved
bit alone is left out of a write; every other write of these is ignored with CFGERR. -/
def Obligations.LaneConfiguration : Prop :=
  ∀ (s : State) (m : Master) (v : Word),
    (∀ n : PgId,
      let a := 0x04700008 + 0x10000 * n.val
      let old := s.reg a
      let dly := bitsOf v 13 8
      let sel := bitsOf v 1 0
      let badSel := sel = 3 ∨ ∃ k, k < 12 ∧ s.laneFunc (12 * n.val + k) ≠ 0
      s.regRight m a true = .may →
        (2 ≤ dly → ¬ badSel → ∃ t, exec (.pgCtrlWrite m n v) s = .next t ∧ t.reg a = putBits (putBits old 13 8 dly) 1 0 sel ∧ onlyRegs s t [a]) ∧
        (dly < 2 ∨ badSel → ∃ t, exec (.pgCtrlWrite m n v) s = .next t ∧ bit (t.reg (pgStatus n.val)) 0 = true ∧
          (badSel → bitsOf (t.reg a) 1 0 = bitsOf old 1 0) ∧ (dly < 2 → bitsOf (t.reg a) 13 8 = bitsOf old 13 8) ∧
          onlyRegs s t [a, pgStatus n.val])) ∧
    (∀ l : LaneId,
      let a := laneFnAddr l.val
      let e := pgStatus (l.val / 12)
      let fn := bitsOf v 3 0
      let n := lanesOf fn (s.laneCfg l.val)
      let may := s.inStation l.val = false ∧ s.laneFunc l.val ≠ 0xD ∧ fn < 0xD ∧ s.placeFree l.val n = true ∧
        (fn ≠ 0 → laneLimits l.val fn (s.laneCfg l.val) (s.laneTim l.val) (s.laneSlow l.val) = true)
      let cur := s.laneFunc l.val
      let free := cur = 0 ∨ cur = 0xD
      let new := v &&& 0xFF83FF00#32
      let no := fun (i : Instr) => ∃ t, exec i s = .next t ∧ bit (t.reg e) 0 = true ∧ onlyRegs s t [e]
      (s.regRight m a true = .may →
        (may → (∃ u : State, onlyRegs s u [] ∧ exec (.laneFnWrite m l v) s = .next (u.place l.val fn)) ∧
          ((∀ k, 2 ≤ k → k < 16 → k ≠ 7 → (s.src k).st = .off) → ∃ t, exec (.laneFnWrite m l v) s = .next t ∧ t.laneFunc l.val = fn ∧
            (∀ j, l.val < j → j < l.val + n → t.laneFn j = BitVec.ofNat 32 (l.val * 256 + 0xD)) ∧ (t.lane l.val).live = true)) ∧
        (¬ may → no (.laneFnWrite m l v))) ∧
      (s.regRight m (a + 4) true = .may →
        (free → bitsOf v 17 16 ≠ 3 → cur = 0 ∨ s.inStation l.val = true → ∃ t, exec (.laneCfgWrite m l false v) s = .next t ∧
          t.reg (a + 4) = new ∧ onlyRegs s t [a + 4]) ∧
        (¬ free → bitsOf v 17 16 ≠ 3 → laneLimits l.val cur new (s.laneTim l.val) (s.laneSlow l.val) = true →
          lanesOf cur new = lanesOf cur (s.laneCfg l.val) → s.inStation l.val = true → ∃ t, exec (.laneCfgWrite m l false v) s = .next t ∧
            t.reg (a + 4) = new ∧ onlyRegs s t [a + 4]) ∧
        (¬ free → bitsOf v 17 16 ≠ 3 → bitsOf new 31 24 &&& foptMask l.val cur = bitsOf new 31 24 → foptReserved cur new = false →
          (bit new 23 = true → gateFn cur = true) → laneLimits l.val cur new (s.laneTim l.val) (s.laneSlow l.val) = false →
            no (.laneCfgWrite m l false v)) ∧
        (cur = 5 → l.val ≠ 0 → bit v 26 = true → bitsOf v 17 16 ≠ 3 → laneLimits l.val 5 (putBits new 26 26 0) (s.laneTim l.val) (s.laneSlow l.val) = true →
          s.inStation l.val = true → ∃ t, exec (.laneCfgWrite m l false v) s = .next t ∧ t.reg (a + 4) = putBits new 26 26 0 ∧ onlyRegs s t [a + 4])) ∧
      (s.regRight m (a + 8) true = .may →
        (free ∨ laneLimits l.val cur (s.laneCfg l.val) v (s.laneSlow l.val) = true → ∃ t, exec (.laneCfgWrite m l true v) s = .next t ∧
          t.reg (a + 8) = v ∧ onlyRegs s t [a + 8]) ∧
        (¬ free → laneLimits l.val cur (s.laneCfg l.val) v (s.laneSlow l.val) = false → no (.laneCfgWrite m l true v))))

/-- R279, R300 to R303, R451: forced safe state drives every powered lane whose supply matches (notes/assumptions/78.md) to its SAFE
level and stops every transfer; it ends by RELEASE alone, only while SAFEN is high, no FT reaction runs and the part is not in
RECOVERY; FORCE wins over RELEASE with CFGERR; SAFEN low forces it where it does not hold already, and in start-up SAFEN high ends
it. A readback mismatch of a lane that the part drives is recorded and reported, and ends the operation that holds the station; the
loss of a group's supply takes its lanes to high impedance. -/
def Obligations.ForcedSafeState : Prop :=
  ∀ (s : State),
    let safe := fun (t : State) => bit (t.reg 0x04780004) 31 = true ∧
      ∀ l : LaneId, (t.lane l.val).xfer = none ∧ (s.domOn (pgDom (l.val / 12)) = true → (t.lane l.val).drive = (if s.laneDark l.val then .hiZ else s.safeDrive l.val) ∧ (t.lane l.val).pulse = none)
    let may := s.forcedSafe = true ∧ s.safen = true ∧ s.ftReact = none ∧ s.mode ≠ 9
    (bit (s.reg 0x04780004) 31 = true → s.forceSafe = s) ∧
    (bit (s.reg 0x04780004) 31 = false → s.busySlots = [] → s.mode ≠ 0xA → safe s.forceSafe) ∧
    s.releaseSafe.forcedSafe = false ∧
    (∀ (m : Master) (v : Word), s.regRight m 0x04780008 true = .may →
      (∃ u : State, exec (.force m v) s = .next u.forceSafe ∧
        (bit v 1 = false → onlyRegs s u []) ∧ (bit v 1 = true → onlyRegs s u [0x04780004] ∧ bit (u.reg 0x04780004) 0 = true)) ∧
      (may → ∃ u : State, exec (.release m) s = .next u.releaseSafe ∧ onlyRegs s u []) ∧
      (¬ may → ∃ t, exec (.release m) s = .next t ∧ onlyRegs s t [])) ∧
    (bit (s.reg 0x04780004) 31 = false →
      exec .safenLow s = .next (({ s with safen := false } : State).forceSafe.setStatus 0x04780004 2#32)) ∧
    (bit (s.reg 0x04780004) 31 = true → exec .safenLow s = .next { s with safen := false }) ∧
    (let ends := s.forcedSafe = true ∧ bitsOf (s.reg 0x04E00008) 31 28 < 6 ∧ s.ftReact = none ∧ bit (s.reg 0x04780004) 1 = true
     (ends → exec .safenHigh s = .next ({ s with safen := true } : State).releaseSafe) ∧ (¬ ends → exec .safenHigh s = .next { s with safen := true })) ∧
    (∀ l : LaneId,
      let pg := l.val / 12
      let seen := s.mode ≠ 0xA ∧ s.domOn (pgDom pg) = true ∧ s.laneDriven l.val = true
      (s.laneDark l.val = true → s.laneDriven l.val = false) ∧
      (s.laneDark l.val = false → (s.lane l.val).drive = .low ∨ ((s.lane l.val).drive = .high ∧ bit (s.laneCfg l.val) 15 = false) →
        s.laneDriven l.val = true) ∧
      (¬ seen → exec (.readbackFault l) s = .next s) ∧
      (seen → ∃ u : State, u.reg (0x0470000C + 0x10000 * pg) = BitVec.ofNat 32 (2 ^ 31 + l.val) ∧ bit (u.reg (pgStatus pg)) 1 = true ∧
        (∃ r ∈ u.reports, r.group.val = 21 + pg ∧ r.det.val = l.val % 12 ∧ r.cls.val = 1 ∧ r.cond = true) ∧
        onlyRegs { s with stations := u.stations } u [0x0470000C + 0x10000 * pg, pgStatus pg] ∧
        ((s.stationsOf l.val).head? = none → u.stations = s.stations ∧ exec (.readbackFault l) s = .next u) ∧
        ∀ st, (s.stationsOf l.val).head? = some st →
          (u.holderOf st = none → exec (.readbackFault l) s = .next u) ∧
          ∀ key, u.holderOf st = some key → exec (.readbackFault l) s = .next (u.unitCheck key 5))) ∧
    (∀ n : PgId,
      (2 ≤ n.val → s.domOn (pgDom n.val) = false → ∃ t, exec (.vioRemoved n) s = .next t ∧ ∀ l, l / 12 = n.val →
        (t.lane l).drive = .hiZ ∧ (t.lane l).pulse = none ∧ t.laneSafe l = 0) ∧
      (n.val < 2 ∨ s.domOn (pgDom n.val) = true → exec (.vioRemoved n) s = .next s))

/-- R287 to R289, R296, R297, R309, R312: a descriptor word is stored while its station is not VALID, a field with a reserved code
keeping its value with CFGERR; word 0 makes a station VALID only when the whole descriptor may be, and changes while VALID only with
no operation on the station; a profile changes only while no valid station names it; a FIFO is enabled within the pool, keeps its
SPILL while enabled, and empties when it is disabled or flushed. -/
def Obligations.StationsProfilesAndFifos : Prop :=
  ∀ (s : State) (m : Master) (v : Word),
    let no := fun (i : Instr) => ∃ t, exec i s = .next t ∧ bit (t.reg 0x04780004) 0 = true ∧ onlyRegs s t [0x04780004]
    (∀ w : Fin 5, s.regRight m (0x04780100 + 4 * w.val) true = .may →
      let n := s.staSel m.id
      let x := s.station n
      let p := v &&& descMask w.val
      let i : Instr := .stationDescriptorWrite m w v
      let valid := bit x.w0 31 = true
      let rsvd := descReserved w.val p
      let q := fun (old : Word) => keepFields p old rsvd
      let stays := fun (t : State) => (rsvd ≠ [] → bit (t.reg 0x04780004) 0 = true) ∧
        (n < 256 → onlyRegs { s with stations := t.stations } t (if rsvd = [] then [] else [0x04780004])) ∧
        (256 ≤ n → onlyMem { s.setReg 0x04780004 (t.reg 0x04780004) with stations := t.stations } t)
      (s.staDark n = true → ∃ t, exec i s = .next t ∧ refusedOnly s t) ∧
      (s.staDark n = false →
        (w.val ≠ 0 → valid → no i) ∧
        (w.val ≠ 0 → ¬ valid → ∃ t, exec i s = .next t ∧ stays t ∧ (∀ k, k ≠ n → t.station k = s.station k) ∧
          t.station n = { x with
            w1 := if w.val = 1 then q x.w1 else x.w1, w2 := if w.val = 2 then q x.w2 else x.w2, w3 := if w.val = 3 then q x.w3 else x.w3,
            w4 := if w.val = 4 then q x.w4 else x.w4 }) ∧
        (w.val = 0 → (valid ∧ s.staBusy n = true) ∨ (bit v 31 = true ∧ s.descOk n p = false) → no i) ∧
        (w.val = 0 → ¬ valid → bit v 31 = true → s.descOk n p = true → ∃ t, exec i s = .next t ∧
          (n < 256 → onlyRegs { s with stations := t.stations } t []) ∧ (256 ≤ n → onlyMem { s with stations := t.stations } t) ∧
          t.station n = { x with w0 := p } ∧ ∀ k, k ≠ n → t.station k = s.station k) ∧
        (w.val = 0 → ¬ valid → bit v 31 = false → ∃ t, exec i s = .next t ∧ stays t ∧ t.station n = { x with w0 := q x.w0 } ∧
          ∀ k, k ≠ n → t.station k = s.station k) ∧
        (w.val = 0 → valid → s.staBusy n = false → bit v 31 = false → ∃ t, exec i s = .next t ∧ t.station n = { x with w0 := q x.w0 } ∧
          (∀ k, k ≠ n → t.station k = s.station k) ∧ (rsvd ≠ [] → bit (t.reg 0x04780004) 0 = true)))) ∧
    (∀ (old new : Word) (fs : List (Nat × Nat)), fs = [] → keepFields new old fs = new) ∧
    (∀ u : Word, descReserved 0 u = (if 16 < bitsOf u 28 24 then [(28, 24)] else []) ++ (if 95 < bitsOf u 6 0 then [(6, 0)] else [])) ∧
    (∀ (p : Fin 64) (w : Fin 256),
      let a := profileAddr p.val + 4 * w.val
      let named := s.stations.any (fun (n, x) => bit x.w0 31 && bitsOf x.w0 21 16 == p.val && s.staVALID n)
      let i : Instr := .profileWrite m p w v
      s.regRight m a true = .may →
        (named = true → no i) ∧
        (named = false → (w.val = 0 → 1 ≤ bitsOf v 27 24 ∧ bitsOf v 27 24 ≤ 10 ∧ bitsOf v 5 4 ≠ 3) → ∃ t, exec i s = .next t ∧
          t.reg a = (v &&& profileMask w.val) ∧ onlyRegs s t [a])) ∧
    (∀ q : FifoId,
      let a := fifoAddr q.val
      let st := a + 12
      let spill := bitsOf v 23 16
      let i : Instr := .fifoEnable m q v
      (s.regRight m a true = .may →
        (s.fifoEn q.val = false → spill ≤ 64 → bit v 0 = true → s.poolUsed + spill ≤ 1536 → ∃ t, exec i s = .next t ∧
          t.reg a = BitVec.ofNat 32 (spill * 65536 + 1) ∧ onlyRegs { s with fifos := t.fifos } t [a] ∧ (t.fifo q.val).words = (s.fifo q.val).words) ∧
        (s.fifoEn q.val = false → spill ≤ 64 → bit v 0 = true → 1536 < s.poolUsed + spill → ∃ t, exec i s = .next t ∧
          t.fifoEn q.val = false ∧ bit (t.reg st) 0 = true ∧ onlyRegs s t [a, st]) ∧
        (s.fifoEn q.val = false → spill ≤ 64 → bit v 0 = false → ∃ t, exec i s = .next t ∧ t.reg a = BitVec.ofNat 32 (spill * 65536) ∧ onlyRegs s t [a]) ∧
        (s.fifoEn q.val = true → bit v 0 = false → ∃ t, exec i s = .next t ∧ t.fifoEn q.val = false ∧ (t.fifo q.val).words = [] ∧
          (t.fifo q.val).part = [] ∧ ∀ k, k ≠ q.val → t.fifo k = s.fifo k) ∧
        (s.fifoEn q.val = true → bit v 0 = true → ∃ t, exec i s = .next t ∧ t.reg a = s.reg a ∧ onlyRegs s t [st] ∧
          (spill ≠ bitsOf (s.reg a) 23 16 → bit (t.reg st) 0 = true))) ∧
      (s.regRight m (a + 0x10) true = .may → ∃ t, exec (.fifoFlush m q) s = .next t ∧ (t.fifo q.val).words = [] ∧ (t.fifo q.val).part = [] ∧
        (∀ k, k ≠ q.val → t.fifo k = s.fifo k) ∧ onlyRegs { s with fifos := t.fifos, lanes := t.lanes } t [] ∧
        (s.uartFlow (q.val / 2) = false → t.lanes = s.lanes)))

/-- R284 to R286, R299, R307: an item moves only on a powered lane with an item function, outside forced safe state and past an open
gate: an inbound one without a transfer is stored as its function makes it (a level, a capture record, notes/assumptions/80.md, a
character of 7 bits) where the function streams and its FIFO is enabled, and is lost where the FIFO is full, an I2S/TDM frame as a
whole, with OVERRUN unless a UART's flow control held it off; an I2S/TDM stream held open without one takes its items, or sends zero
samples with UNDERRUN; one of a transfer is taken or given by its direction, which for a target is the one that its command serves;
a missing acknowledgement, a protocol error or a lost arbitration ends the operation with its UNIT_CHECK, as does a character's
framing or parity error where no transfer runs. A partial word that stays idle is closed as the end of its packet. -/
def Obligations.LaneItemsMoveData : Prop :=
  ∀ (s : State) (l : LaneId) (inb : Bool) (r : ItemResult), s.mode ≠ 0xA →
    let fn := s.laneFunc l.val
    let go := fun (r : ItemResult) => exec (.laneItem l inb r) s
    let w := fun (r : ItemResult) => s.jItem l.val inb r
    let dark := s.laneDark l.val = true
    let works := s.domOn (pgDom (l.val / 12)) = true ∧ s.forcedSafe = false ∧ 1 ≤ fn ∧ fn ≤ 10 ∧ ¬ dark
    let q := 2 * l.val
    let n := itemBytes fn
    let fits := s.itemFits l.val = true
    (¬ works → go r = .next (w r)) ∧
    (fn ≠ 10 → (fits ↔ s.fifoFull q n = false)) ∧
    (works → (s.lane l.val).xfer = none → ∀ v : Word,
      let open_ := (s.lane l.val).streamOn = true
      let streams := inb = true ∧ streamFn fn = true ∧ s.fifoEn q = true ∧ (fn = 10 → open_)
      let silent := inb = false ∧ fn = 10 ∧ open_ ∧ bit (s.laneCfg l.val) 25 = false
      let kept := fn = 3 → bitsOf (s.laneCfg l.val) 25 24 = 0 ∧ bit v 31 = true ∨ bitsOf (s.laneCfg l.val) 25 24 = 1 ∧ bit v 31 = false ∨
        2 ≤ bitsOf (s.laneCfg l.val) 25 24
      let item := if fn = 1 then v &&& 1#32 else if fn = 3 then captureRecord s.time (bit v 31)
        else if fn = 9 ∧ bit (s.laneCfg l.val) 27 = true then v &&& 0x7F#32 else v
      (¬ streams → ¬ silent → go (.moved v) = .next (w (.moved v))) ∧
      (streams → ¬ kept → go (.moved v) = .next (w (.moved v))) ∧
      (silent → go (.moved v) = .next (((w (.moved v)).emit (.lane l.val (rep 4 0#8))).flowFault l.val true)) ∧
      (streams → kept → fn ≠ 10 → ¬ fits → ∃ u : State, u = (w (.moved v)).setLane l.val { s.lane l.val with lastItem := s.time } ∧
        go (.moved v) = .next (if s.uartFlow l.val then u else u.flowFault l.val false)) ∧
      (streams → fn = 10 → (s.lane l.val).frame = 0 → ¬ fits → ∃ u : State, go (.moved v) = .next (u.flowFault l.val false) ∧
        u = (w (.moved v)).setLane l.val { s.lane l.val with
          lastItem := s.time, frame := 1 % (bitsOf (s.laneCfg l.val) 31 28 + 1), dropFrame := true }) ∧
      (streams → kept → fits → (s.fifo q).part.length + n < 16 → ∃ t, go (.moved v) = .next t ∧
        onlyRegs { s with lanes := t.lanes, fifos := t.fifos } t [] ∧ (t.fifo q).part = (s.fifo q).part ++ leBytes n item.toNat ∧
        (t.fifo q).words = (s.fifo q).words ∧ ∀ k, k ≠ q → t.fifo k = s.fifo k)) ∧
    (works → (s.lane l.val).xfer = none → inb = true → fn = 9 → s.fifoEn q = true → go .protocol = .next ((w .protocol).strayFault l.val)) ∧
    (works → ∀ x, (s.lane l.val).xfer = some x →
      let mine := (fn = 5 ∨ fn = 7) → x.laneop.testBit 0 ≠ inb
      (x.started = false ∨ s.atGate l.val = true → go r = .next (w r)) ∧
      (x.started = true → s.atGate l.val = false →
        (∀ v, ¬ mine → go (.moved v) = .next (w (.moved v))) ∧
        (∀ v, mine → inb = true → x.inn = true → x.lead = [] → s.edgeKept l.val v = true →
          go (.moved v) = .next ((w (.moved v)).itemIn l.val x (s.itemValue l.val v))) ∧
        (∀ v, fn = 4 ∨ fn = 6 ∨ fn = 8 → inb = true → x.inn = true → x.out = false → x.lead = [] → x.stopping = false → 1 ≤ x.want → fits →
          (s.lane l.val).closing = false → s.fifoBytes q + 1 ≤ (s.slot x.key).claimLeft → (s.fifo q).part.length < 15 →
          ∃ t y, go (.moved v) = .next t ∧ (t.fifo q).part = (s.fifo q).part ++ leBytes 1 v.toNat ∧ (t.fifo q).words = (s.fifo q).words ∧
            (t.lane l.val).xfer = some y ∧ y = { x with count := x.count + 1, want := x.want - 1 } ∧ t.out = s.out) ∧
        (∀ v, mine → inb = false → x.out = true → x.inn = false → x.lead = [] → go (.moved v) = .next ((w (.moved v)).itemOut l.val x false)) ∧
        (∀ v b bs, mine → inb = false → x.lead = b :: bs → ∃ u : State, u.lane l.val = { s.lane l.val with xfer := some { x with lead := bs } } ∧
          u.out = s.out ++ [.lane l.val [b]] ∧ go (.moved v) = .next (((u.arrival x.key).timerUpdate x.key).itemDone l.val)) ∧
        ((s.slot x.key).st = .running →
          (fn = 4 ∨ fn = 6 → go .noResponse = .next (((w .noResponse).senseFlag x.station 0).unitCheck x.key 2)) ∧
          (fn = 4 ∨ fn = 5 ∨ fn = 9 → go .protocol = .next (((w .protocol).senseFlag x.station 1).unitCheck x.key 4)) ∧
          (fn = 6 → go .arbLost = .next (((w .arbLost).senseFlag x.station 5).unitCheck x.key 9)) ∧
          (fn = 4 ∨ fn = 6 → inb = false → x.out = true → x.lead = [] → go .dataNack = .next ((w .dataNack).itemOut l.val x true))))) ∧
    (let due := streamFn fn = true ∧ (s.fifo q).part ≠ [] ∧ s.domOn (pgDom (l.val / 12)) = true
     (due → ∃ t mk, exec (.streamIdleClose l) s = .next t ∧ (t.fifo q).part = [] ∧
        (t.fifo q).words = (s.fifo q).words ++ [{ data := (s.fifo q).part, eop := true, poison := (s.fifo q).partBad, mark := mk }] ∧
        ((s.fifo q).words.length < 16 → mk = .ok) ∧
        (∀ k, k ≠ q → t.fifo k = s.fifo k) ∧ onlyRegs { s with fifos := t.fifos } t [fifoAddr q + 12, 0x04900024, 0x04900004]) ∧
     (¬ due → exec (.streamIdleClose l) s = .next s))

/-- R295, R299, R540: the end of a station's transfer is taken up only as its lane function allows it: counted once everything has
moved, where the CCW then completes with STATION_END and its length, or by the remote of a target function, of an I3C read, or of a
slot error with its UX bit, inbound or outbound; a break ends a UART in transfer that asks for it. R291, R293: an in-band interrupt
of a valid I3C station that takes them is counted with its first 8 bytes; it, a selected edge of the station's line, or an event of
a target's protocol sets the station's attention latch, once, with the tick. -/
def Obligations.TransfersAndAttention : Prop :=
  (∀ (s : State) (st : StationId), s.mode ≠ 0xA →
     let l := s.staLane st.val
     let fn := s.laneFunc l
     let hdr := s.reg (profileAddr (s.staProfile st.val))
     (∀ x, (s.lane l).xfer = some x → fn = 4 → x.station = st.val → x.started = true → x.inn = true → 0 < x.want →
       ∃ u : State, onlyRegs s u [] ∧ exec (.stationTransferEnd st .remote) s = .next (u.transferEnd l x .remote (bit hdr 17))) ∧
     (∀ x, (s.lane l).xfer = some x →
       let y := s.slot x.key
       let ends := y.st = .running ∧ y.openEnd ∧ s.engineRuns (keyEngine x.key) = true ∧ y.station = x.station ∧ y.remain = 0 ∧
         ccwSpan y.ccw = false ∧ s.bareCommand x.station y.ccw = false ∧ y.w.snapped = true ∧ y.w.succ = false ∧ y.w.op10 = false ∧
         y.w.ccwDone = false
       let ended := fun (t : State) => (t.lane l).xfer = none ∧ (t.station x.station).lastLen = x.count ∧
         bit (t.slot x.key).ustat 0 = true ∧ ccwPasses s t x.key 0
       (ends → x.station = st.val → x.started = true → (s.fifo (2 * l + 1)).words = [] → (s.fifo (2 * l + 1)).part = [] → x.lead = [] →
         (x.inn = true → streamFn fn = false → x.want = 0) →
         ∃ t, exec (.stationTransferEnd st .counted) s = .next t ∧ ended t) ∧
       (ends → fn = 9 → s.laneDark l = false → x.inn = true → bit (s.reg (profileAddr (s.staProfile x.station))) 16 = true →
         ∀ k : LaneId, k.val = l → ∃ t, exec (.uartBreak k) s = .next t ∧ ended t ∧ bit (t.slot x.key).ustat 2 = true)) ∧
     ∃ u : State, onlyRegs s u [] ∧
       ((s.lane l).xfer = none → ∀ how, ∃ t, exec (.stationTransferEnd st how) s = .next t ∧ onlyRegs s t []) ∧
       ∀ x, (s.lane l).xfer = some x → fn ≠ 4 →
         let ready := x.station = st.val ∧ x.started = true
         let y := s.slot x.key
         let sent := (s.fifo (2 * l + 1)).words = [] ∧ (s.fifo (2 * l + 1)).part = [] ∧ x.lead = []
         let all := (ccwSpan y.ccw = false ∨ s.bareCommand st.val y.ccw = true) ∧ sent ∧
           (if x.inn then (if streamFn fn then y.remain = 0 else x.want = 0) else x.out = true → y.remain = 0)
         (¬ ready → ∀ how, exec (.stationTransferEnd st how) s = .next u) ∧
         (ready → all → exec (.stationTransferEnd st .counted) s = .next (u.transferEnd l x .counted false)) ∧
         (ready → ¬ all → exec (.stationTransferEnd st .counted) s = .next u) ∧
         (ready → fn = 5 ∨ fn = 7 → exec (.stationTransferEnd st .remote) s = .next (u.transferEnd l x .remote false)) ∧
         (ready → fn = 5 ∨ fn = 7 → x.inn = true → exec (.stationTransferEnd st .remoteMore) s = .next (u.transferEnd l x .remoteMore false)) ∧
         (ready → fn = 10 → bit hdr 18 = true → exec (.stationTransferEnd st .remote) s = .next (u.transferEnd l x .remote true)) ∧
         (ready → fn ≠ 5 → fn ≠ 7 → ¬ (fn = 10 ∧ bit hdr 18 = true) → exec (.stationTransferEnd st .remote) s = .next u) ∧
         (fn = 9 → s.laneDark l = false → ∀ k : LaneId, k.val = l → x.inn = true → bit (s.reg (profileAddr (s.staProfile x.station))) 16 = true →
           exec (.uartBreak k) s = .next (s.transferEnd l x .remote true)) ∧
         (fn ≠ 9 ∨ x.inn = false ∨ s.laneDark l = true → ∀ k : LaneId, k.val = l → exec (.uartBreak k) s = .next s)) ∧
  (∀ (s : State) (st : StationId), s.mode ≠ 0xA →
     let x := s.station st.val
     let l := s.staLane st.val
     let fn := s.laneFunc l
     let on := s.staVALID st.val = true ∧ s.domOn (pgDom (l / 12)) = true ∧ s.laneDark l = false
     let src := bitsOf x.w2 30 29
     let latched := fun (y : Station) => if y.latch then y else { y with latch := true, attnT0 := s.t0 }
     (∀ p : List Byte,
       let takes := on ∧ fn = 4 ∧ bit (s.laneCfg l) 25 = true
       let y : Station := { x with ibiCount := (x.ibiCount + 1) % 256, ibiData := p.take 8 }
       (takes → ∃ t, exec (.ibi st p) s = .next t ∧ t = { s with stations := t.stations } ∧ (∀ k, k ≠ st.val → t.station k = s.station k) ∧
         t.station st.val = if bit x.w2 31 = true ∧ (src = 1 ∨ src = 2) then latched y else y) ∧
       (¬ takes → exec (.ibi st p) s = .next s)) ∧
     (∀ rising : Bool,
       let e := bitsOf x.w2 28 27
       let hit := bit x.w2 31 = true ∧ (src = 0 ∨ src = 2) ∧ (e = 2 ∨ (e = 0 ∧ rising = true) ∨ (e = 1 ∧ rising = false))
       on → ∃ t, exec (.attentionEvent st (.edge rising)) s = .next t ∧ onlyRegs { s with stations := t.stations, lanes := t.lanes } t [] ∧
         (t.lane (bitsOf x.w2 6 0)).ball = rising ∧ (∀ k, k ≠ st.val → t.station k = s.station k) ∧
         t.station st.val = if hit then latched x else x) ∧
     (on → bit x.w2 31 = true → src = 1 ∨ src = 2 → fn = 5 ∨ fn = 7 → ∃ t, exec (.attentionEvent st .protocol) s = .next t ∧
       t = { s with stations := t.stations } ∧ t.station st.val = latched x ∧ ∀ k, k ≠ st.val → t.station k = s.station k) ∧
     (¬ on → ∀ k, exec (.attentionEvent st k) s = .next s))

/-- R171, R192: a doorbell of a ring outside the share sets a status bit; one of a work queue counts DBSEQ and takes an IDLE queue
to SCAN, with reads of its first units where a prefetch buffer is free, or to HELD while the journal holds the queue or its
completion ring is blocked; one of an enabled completion ring reads its head word, or asks for one more read where one is under way
or R221 leaves no room; a disabled ring ignores it, and so does a function whose BAR0 is closed. Both doorbell rows are one write,
told apart by the ring's type. -/
def Obligations.DoorbellsReachTheirRings : Prop :=
  ∀ (s : State) (f : Fn) (i : Fin 4096),
    let g := s.shareFirst f.val + i.val
    let r := s.ring g
    let go := exec (.doorbell f i) s
    let alone := fun (t : State) => (∀ k, k ≠ g → t.ring k = s.ring k) ∧ onlyRegs { s with rings := t.rings, seq := t.seq, out := t.out } t []
    exec (.cqDoorbell f i) s = go ∧
    (s.mode = 0xA → go = .next s) ∧
    (s.mode ≠ 0xA → s.bar0Open f.val = false → go = .next s) ∧
    (s.mode ≠ 0xA → s.bar0Open f.val = true →
      (s.shareCount f.val ≤ i.val → ∃ t, go = .next t ∧ bit (t.reg (0x04200004 + 0x10000 * f.val)) 2 = true ∧ t.rings = s.rings) ∧
      (i.val < s.shareCount f.val →
        (r.typ ≠ 2 → (r.typ ≠ 1 ∨ r.st = 0) → ∃ t, go = .next t ∧ onlyRegs s t []) ∧
        (r.typ = 1 → r.st ≠ 0 → r.st ≠ 1 → ∃ t, go = .next t ∧ t.ring g = { r with dbseq := r.dbseq + 1#32 } ∧ t.out = s.out ∧ alone t) ∧
        (r.typ = 1 → r.st = 1 → ∃ t, go = .next t ∧ (t.ring g).dbseq = r.dbseq + 1#32 ∧ (t.ring g).head = r.head ∧
          (s.jnState ≠ 2 → (t.ring g).st = (if s.jnHolds f.val = true ∨ (s.ring (s.cqOf f.val r)).blocked = true then 3 else 2)) ∧ alone t ∧
          ((t.ring g).st = 2 → (t.ring g).buf = true → s.canIssue f.val = true → ∀ k, k < r.depth →
            ∃ q ∈ (t.ring g).reads, q.unit = alignDown ((r.head + k) % r.units16) 4 ∧ q.tag = r.dbseq + 1#32)) ∧
        (r.typ = 2 → r.st ≠ 1 → ∃ t, go = .next t ∧ onlyRegs s t []) ∧
        (r.typ = 2 → r.st = 1 → r.headRead = true → ∃ t, go = .next t ∧
          t.ring g = { r with dbseq := r.dbseq + 1#32, headAgain := true } ∧ t.out = s.out ∧ alone t) ∧
        (r.typ = 2 → r.st = 1 → r.headRead = false → s.canIssue f.val = true →
          ((s.setRing g { r with dbseq := r.dbseq + 1#32 }).npRoom f.val ≠ 0 → ∃ t, go = .next t ∧
            t.ring g = { r with dbseq := r.dbseq + 1#32, headRead := true, headAgain := false, headLast := s.time } ∧
            t.out = s.out ++ [.hostRead f.val r.haddr.toNat 8] ∧ alone t) ∧
          ((s.setRing g { r with dbseq := r.dbseq + 1#32 }).npRoom f.val = 0 → ∃ t, go = .next t ∧
            t.ring g = { r with dbseq := r.dbseq + 1#32, headAgain := true } ∧ t.out = s.out ∧ alone t))))

/-- R169, R174 to R178, R421: a queue that has a buffer acts on the owned unit at HEAD when its turn comes: a malformed entry puts the
queue in ERROR with its code, a START takes a reservation and goes to Weir, or holds its queue while a domain powers up, a HALT,
CLEAR, SUSPEND or RESUME is delivered and consumed, a FENCE holds the queue until its earlier operations have posted; a unit that is
not owned is read again where a doorbell came after its read, and otherwise the queue becomes IDLE. A failed read that the scan
needs, and an unreadable ring context, is a queue error; a line that returns is in the buffer. -/
def Obligations.ScansActOnEntries : Prop :=
  ∀ (s : State) (g : RingId),
    let r := s.ring g.val
    let scans := r.typ = 1 ∧ r.st = 2 ∧ r.buf = true
    let turn := exec (.scanReadReturn g none) s
    (s.ringFn g.val = none ∨ ¬ scans → turn = .next s ∧ ∀ ret, exec (.scanReadReturn g ret) s = .next s) ∧
    (∀ f, s.ringFn g.val = some f → scans →
      let cq := s.cqOf f r
      let c := s.ring cq
      let u0 := (s.hwCheck (ctxAddr g.val) 0 31).dropBadUnits g.val
      let v : State := if r.ready then { u0 with scanNext := (g.val + 1) % 16384 } else u0
      let units := r.units.filter (fun u => !u.mark.bad)
      let errs := fun (code : Nat) => ∃ t, turn = .next t ∧ (t.ring g.val).st = 4 ∧ (t.ring g.val).errcode = code ∧
        (t.ring g.val).errIndex = r.head ∧ (t.ring g.val).head = r.head ∧ bit (t.reg (0x04200004 + 0x10000 * f)) 1 = true ∧ t.weir = s.weir
      (r.inWeir = true ∨ s.canIssue f = false ∨ (r.ready = true ∧ s.isTurn g.val = false) → turn = .next s) ∧
      (r.inWeir = false → s.canIssue f = true → (r.ready = true → s.isTurn g.val = true) →
        (s.hwBad (ctxAddr g.val) = true → errs 9) ∧
        (s.hwBad (ctxAddr g.val) = false → c.blocked = true → ∃ t, turn = .next t ∧ (t.ring g.val).st = 3 ∧
          (t.ring g.val).heldBlock = true ∧ t.weir = s.weir) ∧
        (s.hwBad (ctxAddr g.val) = false → c.blocked = false → ∀ u, units.find? (fun u => u.idx == r.head) = some u →
          let d := u.data
          let n := unitLen d
          let us := (span r.head (n + 1)).map (fun i => match units.find? (fun x => x.idx == i) with | some x => x.data | none => [])
          (unitOwned d r.lapx = false → u.tag = r.dbseq → ∃ t, turn = .next t ∧ (t.ring g.val).st = 1 ∧ (t.ring g.val).head = r.head ∧
            t.weir = s.weir) ∧
          (unitOwned d r.lapx = false → u.tag ≠ r.dbseq → ∃ t, turn = .next t ∧ (t.ring g.val).st = 2 ∧ (t.ring g.val).need = some r.head ∧
            ∃ q ∈ (t.ring g.val).reads, q.unit = alignDown r.head 4) ∧
          (unitOwned d r.lapx = true →
            (typeOk (unitType d) = false → errs 1) ∧
            (typeOk (unitType d) = true → lenOk (unitType d) n = false → errs 2) ∧
            (typeOk (unitType d) = true → lenOk (unitType d) n = true →
              (r.units16 ≤ r.head + n → errs 3) ∧
              (r.head + n < r.units16 → contCheck { r with units := units } u n = .lapMismatch → errs 4) ∧
              (r.head + n < r.units16 → contCheck { r with units := units } u n = .owned →
                let st := startOf us g.val f r.head true cq
                (reservedSet us = true → errs 5) ∧
                (reservedSet us = false → unitType d = 1 → s.startHeld st false = true → ∃ t, turn = .next t ∧ (t.ring g.val).st = 3 ∧
                  (t.ring g.val).head = r.head ∧ t.weir = s.weir ∧ (s.jnHolds f = false → (t.ring g.val).heldStart = some st)) ∧
                (reservedSet us = false → unitType d = 1 → s.startHeld st false = false → cq ≠ g.val → 1 ≤ c.room → ∃ t, turn = .next t ∧
                  t.weir = s.weir ++ [st] ∧ t.ring g.val = { r with units := units, inWeir := true } ∧
                  (t.ring cq).resRing = c.resRing + 1) ∧
                (reservedSet us = false → unitType d = 1 → c.room = 0 → 64 ≤ v.parkUsed f → ∃ t, turn = .next t ∧ (t.ring g.val).st = 3 ∧
                  t.weir = s.weir) ∧
                (reservedSet us = false → 2 ≤ unitType d → unitType d ≤ 5 →
                  turn = .next (((v.deliver f ((us[0]?).getD [])).consume g.val 1).prefetch g.val f)) ∧
                (reservedSet us = false → unitType d = 6 → s.fenceClear g.val = false → ∃ t, turn = .next t ∧ (t.ring g.val).st = 3 ∧
                  (t.ring g.val).fence.isSome ∧ (t.ring g.val).head = r.head ∧ t.weir = s.weir))))))) ∧
    (∀ f i q, s.ringFn g.val = some f → scans → s.mode ≠ 0xA → r.reads[i]? = some q → q.sent = true →
      (∀ d, r.inWeir = true → ∃ t, exec (.scanReadReturn g (some (i, .ok d))) s = .next t ∧ (t.ring g.val).reads = r.reads.eraseIdx i ∧
        (t.ring g.val).head = r.head ∧ ∀ k, k < 4 → ∃ x ∈ (t.ring g.val).units, x.idx = q.unit + k) ∧
      (∀ bad : HostResult, let code := match bad with | .poisoned => 7 | .timeout => 8 | _ => 6
        bad ≠ .noTunnel → (∀ d, bad ≠ .ok d) → (bad = .timeout → s.scanLate g.val i = true) → s.carried = true → q.unit = alignDown r.head 4 →
        ∃ t, exec (.scanReadReturn g (some (i, bad))) s = .next t ∧
          (t.ring g.val).st = 4 ∧ (t.ring g.val).errcode = code ∧ (t.ring g.val).errIndex = r.head)) ∧
    (∀ f notify tag, s.ringFn g.val = some f → r.fence = some (notify, tag) → r.st = 3 →
      let c := s.ring (s.cqOf f r)
      (s.fenceClear g.val = false → exec (.wqFence g) s = .next s) ∧
      (s.fenceClear g.val = true → c.blocked = false → (r.heldBlock = true → c.backlog = []) → notify = false →
        ∃ t, exec (.wqFence g) s = .next t ∧ (t.ring g.val).fence = none ∧ (t.ring g.val).consumed = r.consumed + 1#32 ∧
          (t.ring g.val).st = (if s.jnHolds f then 3 else 2) ∧ t.weir = s.weir)) ∧
    (r.fence = none → exec (.wqFence g) s = .next s) ∧
    (∀ f, s.ringFn g.val = some f →
      let c := s.ring (s.cqOf f r)
      let free := r.typ = 1 ∧ r.st = 3 ∧ r.fence = none ∧ c.blocked = false ∧ (∀ st, r.heldStart = some st → s.startHeld st false = false) ∧
        (if r.heldBlock then c.backlog = [] else 1 ≤ c.room ∨ s.parkUsed f < 64)
      (free → ∃ t, exec (.queueResume g) s = .next t ∧ (t.ring g.val).st = (if s.jnHolds f then 3 else 2) ∧ (t.ring g.val).head = r.head ∧
        (t.ring g.val).heldBlock = false ∧ ∀ k, k ≠ g.val → t.ring k = s.ring k) ∧
      (¬ free → exec (.queueResume g) s = .next s))

/-- R73, R74, R113, R117 to R120, R128: Weir decides the START of the lowest-numbered queue first; one that needs a domain that is
powering up goes back to its queue, which is HELD; it binds an accepted one to the lowest IDLE slot of the chosen engine, whose
reservation it releases, and redeems the reservation of a refused one with a refusal that names the reason of R113; either way the
entry is consumed and counted. CE-A decides its own STARTs in the same way. Between STARTs of different cycles the order is the
model's choice (notes/assumptions/60.md). -/
def Obligations.AdmissionBindsOrRefuses : Prop :=
  ∀ (s : State),
    (s.weir = [] → exec .admissionDecision s = .next s) ∧
    (∀ x, nextStart s.weir = some x →
      let q := s.ring x.ring
      x ∈ s.weir ∧ (∀ y ∈ s.weir, x.ring ≤ y.ring) ∧
      (s.domOn 27 = false → exec .admissionDecision s = .next s) ∧
      (s.startHeld x false = true → s.domOn 27 = true → ∃ t, exec .admissionDecision s = .next t ∧ t.weir = s.weir.erase x ∧
        (t.ring x.ring).head = q.head ∧ (t.ring x.ring).inWeir = false ∧
        (t.ring x.cq).resRing = (s.ring x.cq).resRing - (if x.inRing then 1 else 0) ∧
        (q.typ = 1 → q.st = 2 → q.inWeir = true → (t.ring x.ring).st = 3)) ∧
      (s.startHeld x false = false → s.domOn 27 = true → ∃ t, exec .admissionDecision s = .next t ∧ t.weir = s.weir.erase x ∧
        (t.ring x.ring).consumed = q.consumed + 1#32 ∧ (t.ring x.ring).inWeir = false ∧
        (∀ code, s.weirVerdict x = .refuse code → t.slots = s.slots ∧ t.reg 0x0430002C = satInc (s.reg 0x0430002C) ∧
          (t.ring x.cq).redeemed = (s.ring x.cq).redeemed ++ [(refusalEntry x.ringIndex x.tag code s.time, x.inRing)]) ∧
        (∀ e be reason k, s.weirVerdict x = .accept e be reason → s.idleSlot e = some k →
          (t.slot (slotKey e k)).st = .admitted ∧ (t.slot (slotKey e k)).owner = (if e = 64 then 16 else x.fn) ∧
          (t.slot (slotKey e k)).station = x.station ∧ (t.slot (slotKey e k)).tag = x.tag ∧ (t.slot (slotKey e k)).prog = x.prog ∧
          (t.slot (slotKey e k)).be = be ∧ (t.slot (slotKey e k)).cq = x.cq ∧ (t.slot (slotKey e k)).accept = s.time ∧
          (x.inRing = true → ∀ j, j ≠ slotKey e k → t.slot j = s.slot j) ∧
          (t.ring x.cq).resRing = (s.ring x.cq).resRing - (if x.inRing then 1 else 0) ∧
          (t.ring x.cq).resPark = (s.ring x.cq).resPark - (if x.inRing then 0 else 1)))) ∧
    (s.ceaWeir = [] → exec .ceAAdmission s = .next s) ∧
    (∀ x xs, s.ceaWeir = x :: xs →
      (s.startHeld x true = true → exec .ceAAdmission s = .next s) ∧
      (s.startHeld x true = false →
        (∀ code, s.ceaVerdict x = .refuse code → exec .ceAAdmission s = .next ((({ s with ceaWeir := [], cea := { s.cea with redeemed :=
          s.cea.redeemed ++ [refusalEntry x.ringIndex x.tag code s.time] } }).ceaConsume x.len).ceaScanOn)) ∧
        (∀ e be reason k, s.ceaVerdict x = .accept e be reason → s.idleSlot e = some k → exec .ceAAdmission s = .next
          ((((State.ceaRoomed { s with ceaWeir := [], cea := { s.cea with res := s.cea.res - 1 } }).bind x e k be reason 0).ceaConsume
            x.len).ceaScanOn)))) ∧
    (∀ x : Start, let pg := s.staLane x.station / 12
      let on := bit (s.reg 0x04300008) 0 = true ∧ bit (s.reg (0x04300200 + 16 * x.fn)) 0 = true
      (¬ on → s.weirVerdict x = .refuse 1) ∧
      (on → s.staVALID x.station = false → s.weirVerdict x = .refuse 2) ∧
      (on → s.staVALID x.station = true → s.staOwner x.station ≠ x.fn → s.weirVerdict x = .refuse 3) ∧
      (on → s.staVALID x.station = true → s.staOwner x.station = x.fn → s.domOn (pgDom pg) = false → s.weirVerdict x = .refuse 4) ∧
      (on → s.staVALID x.station = true → s.staOwner x.station = x.fn → s.domOn (pgDom pg) = true → SMap.get 0 s.downReq (pgDom pg) = 0 →
        x.busy < 1 ∨ 10000000 < x.busy ∨ x.ccws < 1 → s.weirVerdict x = .refuse 5))

/-- R162, R179, R180, R183, R195: ENABLE starts a disabled ring from index 0 where its base, its bound ring or its vector allow, and
is a configuration error otherwise; DISABLE stops a work queue at once, and a completion ring only where nothing is bound to it or
waits in it; RESTART takes a queue from ERROR back to SCAN. A share is taken where it lies inside the rings, overlaps no other and
none of the function's rings is enabled. -/
def Obligations.RingCommandsAndShares : Prop :=
  ∀ (s : State) (m : Master) (f : Fn),
    let a := 0x04200020 + 0x10000 * f.val
    let e := 0x04200004 + 0x10000 * f.val
    (s.regRight m a true = .may →
      (s.selRing m.id f.val = none → ∀ i : Instr, i = .ringEnable m f ∨ i = .ringDisable m f ∨ i = .ringRestart m f →
        ∃ t, exec i s = .next t ∧ onlyRegs s t []) ∧
      (∀ g, s.selRing m.id f.val = some g →
        let r := s.ring g
        let c := s.ring (s.shareFirst f.val + r.cq)
        let bad := fun (i : Instr) => ∃ t, exec i s = .next t ∧ bit (t.reg e) 0 = true ∧ onlyRegs s t [e]
        let none_ := fun (i : Instr) => ∃ t, exec i s = .next t ∧ onlyRegs s t []
        let others := fun (t : State) => ∀ k, k ≠ g → t.ring k = s.ring k
        let wqOk := baseOk r = true ∧ r.cq < s.shareCount f.val ∧ c.typ = 2 ∧ c.st = 1
        let cqOk := baseOk r = true ∧ r.haddr.toNat % 8 = 0 ∧ r.haddr.getLsbD 63 = false ∧ (r.mod = 0 ∨ r.vector < (s.fn f.val).vectors)
        (r.st ≠ 0 → none_ (.ringEnable m f)) ∧
        (r.st = 0 → r.typ = 1 → wqOk → ∃ t, exec (.ringEnable m f) s = .next t ∧ (t.ring g).st = 1 ∧ (t.ring g).head = 0 ∧ (t.ring g).lapx = true ∧
          (t.ring g).dbseq = 0#32 ∧ (t.ring g).consumed = 0#32 ∧ (t.ring g).base = r.base ∧ others t ∧
          onlyRegs { s with rings := t.rings, ecc := t.ecc } t [0x04900004, 0x04900024]) ∧
        (r.st = 0 → r.typ = 1 → ¬ wqOk → bad (.ringEnable m f)) ∧
        (r.st = 0 → r.typ = 2 → cqOk → ∃ t, exec (.ringEnable m f) s = .next t ∧ (t.ring g).st = 1 ∧ (t.ring g).tail = 0 ∧ (t.ring g).qhead = 0 ∧
          (t.ring g).lapw = true ∧ (t.ring g).posted = 0#32 ∧ others t ∧ onlyRegs { s with rings := t.rings } t []) ∧
        (r.st = 0 → r.typ = 2 → ¬ cqOk → bad (.ringEnable m f)) ∧
        (r.st = 0 → r.typ ≠ 1 → r.typ ≠ 2 → bad (.ringEnable m f)) ∧
        (r.st = 0 → none_ (.ringDisable m f)) ∧
        (r.st ≠ 0 → r.typ = 1 → ∃ t, exec (.ringDisable m f) s = .next t ∧ (t.ring g).st = 0 ∧ (t.ring g).buf = false ∧ (t.ring g).head = r.head ∧
          t.weir = s.weir ∧ t.slots = s.slots) ∧
        (r.st ≠ 0 → r.typ = 2 → r.backlog ≠ [] → bad (.ringDisable m f)) ∧
        (r.st ≠ 0 → r.typ = 2 → r.backlog = [] → r.resRing = 0 → r.resPark = 0 → r.redeemed = [] → s.busySlots = [] →
          (∀ k q, (k, q) ∈ s.rings → q.typ = 1 → q.st = 0) → ∃ t, exec (.ringDisable m f) s = .next t ∧ (t.ring g).st = 0 ∧ others t ∧
            onlyRegs { s with rings := t.rings } t []) ∧
        (¬ (r.typ = 1 ∧ r.st = 4) → none_ (.ringRestart m f)) ∧
        (r.typ = 1 → r.st = 4 → ∃ t, exec (.ringRestart m f) s = .next t ∧ (s.jnState ≠ 2 → (t.ring g).st = (if s.jnHolds f.val = true ∨ c.blocked = true then 3 else 2)) ∧
          (t.ring g).errcode = 0 ∧ (t.ring g).head = r.head ∧ others t))) ∧
    (∀ v : Word,
      let q := 0x04208100 + 4 * f.val
      let first := bitsOf v 13 0
      let count := bitsOf v 28 16
      let busy := ∃ p ∈ s.rings, s.ringFn p.1 = some f.val ∧ p.2.st ≠ 0
      let laps := ∃ h, h < 16 ∧ h ≠ f.val ∧ 0 < count ∧ 0 < s.shareCount h ∧ first < s.shareFirst h + s.shareCount h ∧ s.shareFirst h < first + count
      s.regRight m q true = .may → count ≤ 4096 →
        (¬ busy → first + count ≤ 16384 → ¬ laps → ∃ t, exec (.shareWrite m f v) s = .next t ∧ t.reg q = BitVec.ofNat 32 (count * 65536 + first) ∧
          onlyRegs s t [q]) ∧
        (busy ∨ 16384 < first + count ∨ laps → ∃ t, exec (.shareWrite m f v) s = .next t ∧ bit (t.reg 0x04208004) 0 = true ∧
          onlyRegs s t [0x04208004]))

/-- R104, R105, R185, R193, R212: a write of CE_A_CTRL that sets EN takes the ring registers where they lie aligned and apart in
their memory, and is a configuration error otherwise; a doorbell scans CE-A's work ring while it is enabled and not stopped;
CE_A_CQ_HEAD takes a value that claims no unwritten entry; and 100 ms of a full ring with an entry waiting is reported once, the
timer running only while that lasts. -/
def Obligations.CantleEngineRings : Prop :=
  ∀ (s : State) (m : Master) (v : Word),
    let c := 0x04480000
    let e := 0x04480004
    let moves := s.reg 0x04480008 ≠ BitVec.ofNat 32 s.cea.wqBase ∨ bitsOf (s.reg 0x0448000C) 3 0 ≠ s.cea.wqSize
    (s.regRight m c true = .may → s.mode ≠ 9 → bitsOf v 2 1 ≠ 3 →
      (bit v 0 = true → bit (s.reg c) 0 = false → s.ceaRingsOk = true → ∃ t, exec (.ceAEnable m v) s = .next t ∧
        t.reg c = v &&& 7#32 ∧ t.cea.wqBase = (s.reg 0x04480008).toNat ∧ t.cea.wqSize = bitsOf (s.reg 0x0448000C) 3 0 ∧
        t.cea.cqBase = (s.reg 0x04480010).toNat ∧ t.cea.cqSize = bitsOf (s.reg 0x04480014) 3 0 ∧ t.cea.stopped = false ∧
        (moves → s.cea.wqBase < 2 ^ 32 → t.reg 0x0448001C = 0#32 ∧ t.cea.lapx = true) ∧
        onlyRegs { s with cea := t.cea } t [c, 0x0448001C, 0x04480020, 0x04480024]) ∧
      (bit v 0 = true → bit (s.reg c) 0 = false → s.ceaRingsOk = false → ∃ t, exec (.ceAEnable m v) s = .next t ∧
        bit (t.reg c) 0 = false ∧ bit (t.reg e) 0 = true ∧ onlyRegs s t [c, e]) ∧
      (bit v 0 = false → ∃ t, exec (.ceAEnable m v) s = .next t ∧ t.reg c = v &&& 6#32 ∧ t.cea = { s.cea with scanning := false } ∧
        onlyRegs { s with cea := t.cea } t [c])) ∧
    (s.regRight m 0x04480018 true = .may →
      ∃ u : State, onlyRegs s u [] ∧ exec (.ceADoorbell m) s = .next (if bit (s.reg c) 0 && !s.cea.stopped then
        ({ u with cea := { u.cea with scanning := true } }).ceaScanOn else u)) ∧
    (s.cea.scanning = true → s.cea.stopped = false → bit (s.reg c) 0 = true → s.ceaWeir = [] →
      s.poisoned (s.cea.wqBase + 16 * (s.reg 0x0448001C).toNat) 16 = false →
      unitOwned (s.ceaUnit (s.reg 0x0448001C).toNat) s.cea.lapx = false → s.ceaScanOn = { s with cea := { s.cea with scanning := false } }) ∧
    (s.regRight m 0x04480024 true = .may →
      let h := bitsOf v 9 0
      let n := 2 ^ s.cea.cqSize
      let tail := (s.reg 0x04480020).toNat
      let head := (s.reg 0x04480024).toNat
      let takes := h < n ∧ (h + n - head) % n ≤ (tail + n - head) % n
      (¬ takes → ∃ t, exec (.ceACqHeadWrite m v) s = .next t ∧ bit (t.reg e) 0 = true ∧ onlyRegs s t [e]) ∧
      (takes → s.cea.scanning = false → (∀ p ∈ s.slots, keyEngine p.1 = 64 → p.2.holdsEntry = false ∧ p.2.st ≠ .postHeld) → ∃ t, exec (.ceACqHeadWrite m v) s = .next t ∧
        t.reg 0x04480024 = BitVec.ofNat 32 h ∧ t.cea.stallFrom = none ∧ onlyRegs { s with cea := t.cea } t [0x04480024])) ∧
    (let stalls := s.ceaFree = 0 ∧ s.cea.stallDone = false ∧ ∃ p ∈ s.slots, keyEngine p.1 = 64 ∧ p.2.st = .postHeld
     (¬ stalls → exec .ceAStall s = .next { s with cea := { s.cea with stallFrom := none } }) ∧
     (stalls → s.cea.stallFrom = none → exec .ceAStall s = .next { s with cea := { s.cea with stallFrom := some s.time } }) ∧
     (∀ b, stalls → s.cea.stallFrom = some b →
      (s.time < b + 120000000 → exec .ceAStall s = .next s) ∧
      (b + 120000000 ≤ s.time → ∃ t, exec .ceAStall s = .next t ∧ t.cea = { s.cea with stallFrom := none, stallDone := true } ∧
        t = { s with cea := t.cea, reports := t.reports } ∧ t.reports.length = s.reports.length + 1)))

/-- R105, R191, R196, R198: an entry whose writes are visible is written at TAIL with the ring's lap mark where its ring has room,
no backlog and a function that may send; otherwise it is parked in the function's share, and its slot is free; with the share full
the slot holds it in POST-HELD. A redeemed reservation is written in its place in the ring, or parked. The oldest item of a backlog
is written first, once there is room, a parked entry from either of its two copies; it is dropped where both are unreadable. CE-A
writes its entries into always-on memory and raises its interrupt. -/
def Obligations.PostsAreWrittenParkedOrHeld : Prop :=
  ∀ s : State, (∀ (g f : Nat), s.ringFn g = some f → s.mode ≠ 0xA →
    let r := s.ring g
    let wrote := fun (t : State) (y : Entry) =>
      .hostWrite f (r.base.toNat + 32 * r.tail) (y.bytes r.lapw) false false ∈ t.out ∧
      (t.ring g).tail = (if r.cap ≤ r.tail + 1 then 0 else r.tail + 1) ∧
      (t.ring g).lapw = (if r.cap ≤ r.tail + 1 then !r.lapw else r.lapw) ∧ (t.ring g).posted = r.posted + 1#32
    let open_ := r.backlog = [] ∧ 1 ≤ r.room ∧ s.canIssue f = true
    let parks := fun (t : State) (y : Entry) => ∃ c, (bit (s.reg 0x04900024) 31 = false → c = (EccMark.ok, EccMark.ok)) ∧
      (t.ring g).backlog = r.backlog ++ [.parked y c]
    (∀ (e : EngineId) (k : SlotId), e.val ≠ 64 →
      let key := slotKey e.val k.val
      let x := s.slot key
      let go := exec (.postingRequest (.slot e k)) s
      (x.w.marks = [] → x.st ≠ .posting ∨ x.w.final = none → go = .next s) ∧
      (∀ y, x.w.marks = [] → x.st = .posting → x.w.final = some y → x.cq = g → x.owner = f →
        (open_ → ∃ t, go = .next t ∧ t.slot key = {} ∧ wrote t y) ∧
        (¬ open_ → s.parkUsed f < 64 → ∃ t, go = .next t ∧ t.slot key = {} ∧ parks t y ∧ (t.ring g).tail = r.tail) ∧
        (¬ open_ → 64 ≤ s.parkUsed f → ∃ t, go = .next t ∧ (t.slot key).st = .postHeld ∧
          (t.ring g).backlog = r.backlog ++ [.held key y] ∧ (t.ring g).tail = r.tail)) ∧
      (x.w.marks ≠ [] → x.w.markHeld = true → go = .next s) ∧
      (∀ y ys, x.w.marks = y :: ys → ys ≠ [] → x.w.markHeld = false → y.kind ≠ 1 ∨ s.recFn f = false ∨ (s.jnState ≠ 3 ∧ s.jnState ≠ 5) → x.st ≠ .postHeld → x.cq = g → x.owner = f → open_ →
        ∃ t, go = .next t ∧ t.slot key = { x with w := { x.w with marks := ys } } ∧ wrote t y)) ∧
    (∀ gi : RingId, gi.val = g →
      let go := exec (.postingRequest (.redeemed gi)) s
      (r.redeemed = [] → go = .next s) ∧
      (∀ y rest, r.redeemed = (y, true) :: rest → r.backlog = [] → s.canIssue f = true → ∃ t, go = .next t ∧ wrote t y ∧
        (t.ring g).redeemed = rest ∧ (t.ring g).resRing = r.resRing - 1) ∧
      (∀ y rest, r.redeemed = (y, false) :: rest → ∃ t, go = .next t ∧ parks t y ∧
        (t.ring g).redeemed = rest ∧ (t.ring g).resPark = r.resPark - 1) ∧
      let drain := exec (.backlogDrain gi) s
      let may := s.canIssue f = true ∧ (s.fn f).resetAt = none
      (r.backlog = [] ∨ ¬ may → drain = .next s) ∧
      (∀ y c rest, r.backlog = .parked y c :: rest → (r.room = 0 → drain = .next s) ∧
        (1 ≤ r.room → may → c.1.bad = false ∨ c.2.bad = false → ∃ t, drain = .next t ∧ wrote t y ∧ (t.ring g).backlog.length = rest.length) ∧
        (1 ≤ r.room → may → c.1.bad = true → c.2.bad = true → ∃ t, drain = .next t ∧ (t.ring g).tail = r.tail ∧
          (t.ring g).posted = r.posted ∧ (t.ring g).backlog.length = rest.length)) ∧
      (∀ y rest, r.backlog = .reserved y :: rest → may → ∃ t, drain = .next t ∧ wrote t y ∧ (t.ring g).backlog = rest ∧
        (t.ring g).resRing = r.resRing - 1) ∧
      (∀ k y rest, r.backlog = .held k y :: rest → (r.room = 0 → drain = .next s) ∧
        (1 ≤ r.room → may → (s.slot k).w.markHeld = false → y.kind ≠ 1 → ∃ t, drain = .next t ∧ wrote t y ∧
          (t.ring g).backlog = rest ∧ t.slot k = {})))) ∧
    (∀ k : SlotId, s.memOk →
      let key := slotKey 64 k.val
      let x := s.slot key
      let tail := (s.reg 0x04480020).toNat
      let wrote := fun (t : State) (y : Entry) => stored s t (s.cea.cqBase + 32 * tail) (y.bytes s.cea.lapw) ∧ (t.irqSrc 304).pend = true ∧
        t.reg 0x04480020 = BitVec.ofNat 32 (if 2 ^ s.cea.cqSize ≤ tail + 1 then 0 else tail + 1)
      (∀ y, x.w.marks = [] → x.st = .posting → x.w.final = some y →
        (1 ≤ s.ceaRoom → ∃ t, exec (.postingRequest (.slot 64 k)) s = .next t ∧ t.slot key = {} ∧ wrote t y) ∧
        (s.ceaRoom = 0 → ∃ t, exec (.postingRequest (.slot 64 k)) s = .next t ∧ (t.slot key).st = .postHeld ∧ memKept s t)) ∧
      (∀ y rest, s.cea.redeemed = y :: rest → ∃ t, exec (.postingRequest .redeemedCeA) s = .next t ∧ wrote t y ∧ t.cea.redeemed = rest ∧
        t.cea.res = s.cea.res - 1) ∧
      (s.cea.redeemed = [] → exec (.postingRequest .redeemedCeA) s = .next s))

/-- R192, R193, R200, R202, R203, R207: a head word that comes back is taken where it claims no entry that has not been written, and
otherwise sets HEADERR with HEAD unchanged; a ring rung meanwhile is read once more; a blocked ring is read again after 20
microseconds, later where no request may go out; a ring whose stall timer reaches its limit sets STALLED once, a timer that runs
only while the ring is blocked and could be drained; a moderated ring whose timer has run fires. What becomes of a head read and of
a firing while only Bus Master Enable is 0 is the model's choice (notes/assumptions/67.md, 69.md). -/
def Obligations.HeadWordsStallsAndModeration : Prop :=
  ∀ (s : State) (g : RingId) (f : Nat), s.ringFn g.val = some f →
    let r := s.ring g.val
    let n := r.cap
    let again := fun (t : State) => (r.headAgain = false ∨ s.canIssue f = false → (t.ring g.val).headRead = false) ∧
      (r.headAgain = true → s.canIssue f = true → (t.ring g.val).headRead = true ∨ (t.ring g.val).headAgain = true)
    (s.mode = 0xA ∨ r.headRead = false → ∀ res, exec (.headWordReturn g res) s = .next s) ∧
    (s.mode ≠ 0xA → r.headRead = true → r.typ = 2 → r.st = 1 →
      (∀ d, let h := leNat (d.take 2)
        let takes := h < n ∧ (h + n - r.qhead) % n ≤ (r.tail + n - r.qhead) % n
        ∃ t, exec (.headWordReturn g (.ok d)) s = .next t ∧ (t.ring g.val).qhead = (if takes then h else r.qhead) ∧
          (¬ takes → bit (t.ring g.val).cqStatus 0 = true) ∧ (t.ring g.val).tail = r.tail ∧ again t ∧
          (r.backlog = [] → ∀ k, k ≠ g.val → t.ring k = s.ring k)) ∧
      (∀ res, (∀ d, res ≠ .ok d) → (res = .timeout → s.headLate g.val = true) → ∃ t, exec (.headWordReturn g res) s = .next t ∧
        (t.ring g.val).qhead = r.qhead ∧ bit (t.ring g.val).cqStatus 0 = true ∧ again t)) ∧
    (let due := r.typ = 2 ∧ r.st = 1 ∧ r.blocked = true ∧ r.headRead = false ∧ r.headLast + 24000 ≤ s.time
     (¬ due → exec (.headReread g) s = .next s) ∧
     (due → s.canIssue f = true → s.mode ≠ 0xA →
       (s.npRoom f ≠ 0 → ∃ t, exec (.headReread g) s = .next t ∧
         t.ring g.val = { r with headRead := true, headAgain := false, headLast := s.time } ∧ t.out = s.out ++ [.hostRead f r.haddr.toNat 8]) ∧
       (s.npRoom f = 0 → exec (.headReread g) s = .next (s.setRing g.val { r with headAgain := true })))) ∧
    (let runs := r.blocked = true ∧ s.inD0 f = true ∧ s.carried = true ∧ r.stallDone = false
     (¬ runs → r.stallFrom = none → exec (.completionStall g) s = .next s) ∧
     (∀ b, ¬ runs → r.stallFrom = some b →
       exec (.completionStall g) s = .next (s.setRing g.val { r with stallFrom := none, stallUsed := r.stallUsed + (s.time - b) })) ∧
     (runs → r.stallFrom = none → r.stallUsed < r.stall * 1200000 →
       exec (.completionStall g) s = .next (s.setRing g.val { r with stallFrom := some s.time })) ∧
     (∀ b, runs → r.stallFrom = some b →
       (r.stallUsed + (s.time - b) < r.stall * 1200000 → exec (.completionStall g) s = .next s) ∧
       (r.stall * 1200000 ≤ r.stallUsed + (s.time - b) → ∃ t, exec (.completionStall g) s = .next t ∧
         t.ring g.val = { r with stallFrom := none, stallDone := true, cqStatus := r.cqStatus ||| 2#32 } ∧
         t.reports.length = s.reports.length + 1 ∧ ∀ k, k ≠ g.val → t.ring k = s.ring k))) ∧
    (r.modFrom = none → exec (.moderationTimer g) s = .next s) ∧
    (∀ b, r.modFrom = some b →
      (r.mod ≠ 2 ∨ s.time < b + r.timeIn * 1200 → exec (.moderationTimer g) s = .next s) ∧
      (r.mod = 2 → b + r.timeIn * 1200 ≤ s.time → ∃ t, exec (.moderationTimer g) s = .next t ∧
        t.ring g.val = { r with modCount := 0, modFrom := none } ∧
        (s.canIssue f = true → s.deliverable f r.vector = true → s.mode ≠ 0xA → (s.fn f).kept = [] →
          t.out = s.outBut f r.vector ++ [.msix f r.vector
          ((s.msixWord f (4 * r.vector)).toNat + (s.msixWord f (4 * r.vector + 1)).toNat * 2 ^ 32) (s.msixWord f (4 * r.vector + 2))]) ∧
        (((s.fn f).fired.contains (r.vector, s.time)) = false → s.outBut f r.vector = s.out) ∧
        (s.canIssue f = true → s.deliverable f r.vector = false → (s.fn f).kept = [] → r.vector ∈ (t.fn f).pba ∧ t.out = s.out) ∧
        (s.canIssue f = false → r.wake = false → (r.vector ∈ (t.fn f).kept ∨ r.vector ∈ (s.fn f).pba) ∧ t.out = s.out)))

/-- R70: steps 3 to 9 are made in their order and the first that fails is reported: an undefined opcode, a SHAPE on CE-A, a reserved
field, the flags, WHEN, COUNT, the profile. R45, R49, R52, R70, R73, R76, R82, R85: a slot that is first in line takes a free
station and starts its busy time; a fetch that finds its CCW takes the snapshot, suspends at a SUS point that was asked for, ends
the operation on a failed check or an exhausted claim, and otherwise executes; a met condition, up to the engine's launches of one
tick, or the end of a window starts a waiting CCW; a host read's answer goes to the slot that asked; HALTING ends once nothing of
the operation is in progress, and a last CCW ends its operation once its marks are posted. R101, R330: a slot whose record or whose
station's descriptor is unreadable ends with INTERFACE_CHECK (at which commands it is read: notes/assumptions/65.md). -/
def Obligations.OperationsAdvance : Prop :=
  (∀ (s : State) (key : Nat) (x : Slot) (c : Ccw),
     let st := x.station
     let c3 := opDefined (ccwOp c) = true
     let c4 := c3 ∧ ¬ (ccwOp c = 0x10 ∧ keyEngine key = 64)
     let c5 := c4 ∧ s.reservedField st c = false
     let c6 := c5 ∧ s.flagsBad st c = false
     let c7 := c6 ∧ s.whenBad x c = false
     let c8 := c7 ∧ s.countBad st c = false
     let c9 := c8 ∧ s.profileBad st c = false
     (¬ c3 → s.check39 key x c false = some (chkProg 0x01)) ∧
     (c3 → ¬ c4 → s.check39 key x c false = some (chkProg 0x10)) ∧
     (c4 → ¬ c5 → s.check39 key x c false = some (chkProg 0x02)) ∧
     (c5 → ¬ c6 → s.check39 key x c false = some chkChaining) ∧
     (c6 → ¬ c7 → s.check39 key x c false = some (chkProg 0x09)) ∧
     (c7 → ¬ c8 → s.check39 key x c false = some (chkProg 0x03)) ∧
     (c8 → ¬ c9 → s.check39 key x c false = some (chkUnit 0x01)) ∧
     (c9 → s.check39 key x c false = none) ∧
     (∀ v : Ccw, let lone := ccwOf (leBytes 16 v.toNat)
       lone = v ∧ ccwOp v = bitsOf (v.extractLsb' 0 32) 31 24 ∧ ccwCount v = bitsOf (v.extractLsb' 0 32) 15 0 ∧
         ccwAddr v = v.extractLsb' 64 64 ∧ ccwSrc v = bitsOf (v.extractLsb' 32 32) 31 28 ∧ ccwMode v = bitsOf (v.extractLsb' 32 32) 27 26 ∧
         ccwPcount v = bitsOf (v.extractLsb' 32 32) 25 12 ∧ ccwPhase v = bitsOf (v.extractLsb' 32 32) 11 0)) ∧
  (∀ (s : State) (e : EngineId) (k : SlotId),
     let key := slotKey e.val k.val
     let x := s.slot key
     let clean := fun (a : Nat) => SMap.get .ok s.ecc a = .ok
     (let first := x.st = .admitted ∧ s.engineRuns (keyEngine key) = true ∧ s.holders x.station = [] ∧
        ∀ p ∈ s.waiters x.station, x.w.order ≤ p.2.w.order
      (first → clean (slotAddr key) → clean (descAddr x.station) → exec (.stationAcquire e k) s = .next (s.setSlot key { x with
        st := .fetching, busyBase := 0, busyFrom := some s.time, w := { x.w with holding := true, busyMark := s.time } })) ∧
      (first → x.openEnd → s.hwBad (slotAddr key) = true → ∃ t, exec (.stationAcquire e k) s = .next t ∧ opEnds s t key chkInterface 0#64 0) ∧
      (first → x.openEnd → s.hwBad (slotAddr key) = false → s.hwBad (descAddr x.station) = true →
        ∃ t, exec (.stationAcquire e k) s = .next t ∧ opEnds s t key chkInterface x.cur x.haltResidue ∧ t.staVALID x.station = false) ∧
      (¬ first → exec (.stationAcquire e k) s = .next s)) ∧
     (s.engineRuns (keyEngine key) = false → exec (.ccwFetch e k) s = .next s) ∧
     (s.engineRuns (keyEngine key) = true → x.st = .fetching → x.w.op10 = false → x.openEnd → s.hwBad (slotAddr key) = true →
       ∃ t, exec (.ccwFetch e k) s = .next t ∧ opEnds s t key chkInterface 0#64 0) ∧
     (s.engineRuns (keyEngine key) = true → x.st = .fetching → x.w.op10 = false → x.openEnd → clean (slotAddr key) →
       let a := if x.usedCcws = 0 ∧ x.cur = 0#64 then x.prog else x.cur
       (a.toNat % 16 ≠ 0 → ∃ t, exec (.ccwFetch e k) s = .next t ∧ opEnds s t key (chkProg 0x04) a 0) ∧
       (a.toNat % 16 = 0 → localBad a = true → ∃ t, exec (.ccwFetch e k) s = .next t ∧ opEnds s t key (chkProg 0x02) a 0) ∧
       (a.toNat % 16 = 0 → localBad a = false →
         (x.w.held a.toNat = none → s.prefetchMode key = 0 → isLocal a = true →
           (s.engMay key x (localOf a) 16 = false → ∃ t, exec (.ccwFetch e k) s = .next t ∧ opEnds s t key chkProtection a 0) ∧
           (s.engMay key x (localOf a) 16 = true → s.poisoned (localOf a) 16 = true →
             ∃ t, exec (.ccwFetch e k) s = .next t ∧ opEnds s t key chkData a 0)) ∧
         (∀ c, x.w.held a.toNat = some c →
           let y := { x with cur := a }
           let w := { y.w with snapped := true, block := [] }
           let z := { y with ccw := c, remain := s.byteCount x.station c, w := w }
           let go := exec (.ccwFetch e k) s
           (ccwSus c = true → x.susreq = true → ∃ t, go = .next t ∧ (t.slot key).st = .suspended ∧ (t.slot key).susreq = false ∧
             (t.slot key).ccw = c ∧ (t.slot key).cur = a ∧ memKept s t ∧ ∀ j, j ≠ key → t.slot j = s.slot j) ∧
           (ccwSus c = false ∨ x.susreq = false → ∀ chk, (s.setSlot key y).check39 key z c false = some chk →
             ∃ t, go = .next t ∧ opEnds s t key chk a (s.residual39 x c)) ∧
           (ccwSus c = false ∨ x.susreq = false → (s.setSlot key y).check39 key z c false = none → ccwOp c = 0x1F → ccwMode c = 0 →
             (x.claimCcws ≤ x.usedCcws → ∃ t, go = .next t ∧ opEnds s t key chkOverrun a 0) ∧
             (x.usedCcws < x.claimCcws → ∃ t, go = .next t ∧ (t.slot key).st = .running ∧ (t.slot key).ccw = c ∧ (t.slot key).cur = a ∧
               (t.slot key).usedCcws = x.usedCcws + 1 ∧ (t.slot key).w.snapped = true ∧ (t.slot key).flow = 0))))) ∧
     (let u := s.atStep 5
      let x := u.slot key
      let e_ := keyEngine key
      let met := x.st = .waiting ∧ u.engineRuns e_ = true ∧ u.whenHolds x = true
      (¬ met → exec (.whenMet e k) s = .next u) ∧
      (met → ∃ t, exec (.whenMet e k) s = .next t ∧ onlySlot { u with launched := t.launched } t key ∧ (t.slot key).w.met = true ∧
        (u.mayLaunch key = true → (t.slot key).st = .running ∧ SMap.get 0 t.launched e_ = SMap.get 0 u.launched e_ + 1) ∧
        (u.mayLaunch key = false → (t.slot key).st = .waiting ∧ t.launched = u.launched) ∧
        (x.w.met = false →
          (ccwOp x.ccw = 0xC → (t.slot key).timeout = false) ∧ (ccwMode x.ccw = 0 → (t.slot key).markset = x.markset ∧ (t.slot key).markPos = x.markPos) ∧
          (ccwMode x.ccw ≠ 0 → (t.slot key).markset = true ∧ (t.slot key).markSrc = ccwSrc x.ccw) ∧
          (ccwMode x.ccw = 1 → (t.slot key).markPos = x.w.target.getD 0) ∧ (ccwMode x.ccw = 3 → (t.slot key).markPos = u.pos (ccwSrc x.ccw)))) ∧
      (let over_ := x.st = .waiting ∧ x.w.met = false ∧ u.engineRuns e_ = true ∧ ccwOp x.ccw = 0xC ∧ ccwMode x.ccw = 3 ∧ ccwEvent x.ccw ≠ 0 ∧
         u.endDue x = true ∧ (u.eventHolds x = false ∨ u.endPassed x = true)
       (¬ over_ → exec (.windowEnd e k) s = .next u) ∧
       (over_ → ∃ t, exec (.windowEnd e k) s = .next t ∧ onlySlot u t key ∧ (t.slot key).st = .running ∧ (t.slot key).timeout = true ∧
         (t.slot key).w.met = true ∧ (t.slot key).markset = true ∧ (t.slot key).markPos = u.pos (ccwSrc x.ccw)))) ∧
     (∀ res, s.mode = 0xA ∨ x.w.reads = [] → exec (.hostReadCompletion e k res) s = .next s) ∧
     (∀ r rest res, x.w.reads = r :: rest → r.unsent = true → res ≠ .noTunnel → exec (.hostReadCompletion e k res) s = .next s) ∧
     (∀ r rest res, s.mode ≠ 0xA → x.w.reads = r :: rest → r.unsent = false → (res = .timeout → s.slotLate key = true) →
       (r.spec = false → ∃ t, exec (.hostReadCompletion e k res) s = .next t ∧ (t.slot key).w.reads = rest ∧
         (t.slot key).w.inbox = x.w.inbox ++ [(r, res)] ∧ (t.slot key).st = x.st) ∧
       (r.spec = true → (∀ d, res ≠ .ok d) → ∃ t, exec (.hostReadCompletion e k res) s = .next t ∧
         t.slot key = { x with w := { x.w with reads := rest } })) ∧
     (let runs := s.engineRuns (keyEngine key) = true
      let done := x.st = .halting ∧ s.r76 key = true
      let go := exec (.operationEnd e k) s
      (¬ runs → go = .next s) ∧ (x.st = .halting → s.r76 key = false → go = .next s) ∧
      (x.st ≠ .halting → x.w.ending = none → x.w.lastDone = none ∨ x.w.marks ≠ [] → go = .next s) ∧
      (runs → x.st = .fetching → x.w.ending.isSome → x.w.fnReset = false → ∃ t, go = .next t ∧ ((t.slot key).st = .posting ∨ (t.slot key).st = .halting) ∧
        (t.slot key).w.ending = x.w.ending) ∧
      (∀ n, runs → x.st = .running ∨ x.st = .fetching → x.w.lastDone = some n → x.w.marks = [] → x.w.ending = none → x.w.fnReset = false →
        ∃ t, go = .next t ∧ ((t.slot key).st = .posting ∨ (t.slot key).st = .halting) ∧
          (t.slot key).w.ending = some { lastCcw := x.cur, residual := n, normal := true }) ∧
      (runs → done → x.w.fnReset = true → ∃ t, go = .next t ∧ t.slot key = {}) ∧
      (runs → done → x.w.fnReset = false → ∃ t, go = .next t ∧ (t.slot key).st = .posting ∧
        (∃ y : Entry, (t.slot key).w.final = some y ∧ y.tag = x.tag ∧ y.cstat = x.cstat ∧ y.kind = 0 ∧ y.engine = keyEngine key ∧ y.slot = keySlot key) ∧
        (t.slot key).w.holding = false ∧ (∀ j, j ≠ key → t.slot j = s.slot j))))

/-- R43, R56 to R59, R64, R65: JUMP goes to its target and drops the lines held; JUMP_IF does so where its condition holds, and
otherwise goes on; LOOP counts its passes; NOP ends at once, FENCE once the operation's writes, outbound bytes and launches are
done; SIGNAL raises its source where the owner may; WAIT clears the latch on which it ended; a CCW that does not execute changes
nothing. -/
def Obligations.FlowAndSystemCcws : Prop :=
  ∀ (s : State) (e : EngineId) (k : SlotId),
    let key := slotKey e.val k.val
    let x := s.slot key
    let to_ := ccwAddr x.ccw
    let branches := fun (t : State) => onlySlot s t key ∧ (t.slot key).st = .fetching ∧ (t.slot key).cur = to_ ∧ (t.slot key).w.lines = [] ∧
      (t.slot key).w.branchFrom = some x.cur ∧ (t.slot key).flow = x.flow ∧ (t.slot key).w.snapped = false
    let falls := fun (t : State) => onlySlot s t key ∧ (t.slot key).st = .fetching ∧ (t.slot key).cur = x.cur + 16#64 ∧
      (t.slot key).w.lines = x.w.lines ∧ (t.slot key).w.branchFrom = none ∧ (t.slot key).flow = x.flow
    let ready := s.ordReady x = true ∧ s.r76 key = true
    (s.executes key (· == 8) = false → exec (.jump e k) s = .next s) ∧ (s.executes key (· == 9) = false → exec (.jumpIf e k) s = .next s) ∧
    (s.executes key (· == 10) = false → exec (.loop e k) s = .next s) ∧ (s.executes key (· == 0xC) = false → exec (.wait e k) s = .next s) ∧
    (s.executes key (· == 0x19) = false → exec (.signal e k) s = .next s) ∧ (s.executes key (· == 0x1A) = false → exec (.fence e k) s = .next s) ∧
    (s.executes key (· == 0x1F) = false → exec (.nop e k) s = .next s) ∧
    (s.executes key (· == 8) = true → x.openEnd → x.w.marks = [] → ∃ t, exec (.jump e k) s = .next t ∧ branches t) ∧
    (s.executes key (· == 9) = true → x.openEnd → x.w.marks = [] →
      (s.condHolds x (ccwCount x.ccw) = true → ∃ t, exec (.jumpIf e k) s = .next t ∧ branches t) ∧
      (s.condHolds x (ccwCount x.ccw) = false → ∃ t, exec (.jumpIf e k) s = .next t ∧ falls t)) ∧
    (s.executes key (· == 10) = true → x.openEnd → x.w.marks = [] →
      (x.loops.find? (fun l => l.1 == x.cur) = none →
        (ccwCount x.ccw = 1 → ∃ t, exec (.loop e k) s = .next t ∧ falls t ∧ (t.slot key).loops = x.loops) ∧
        (ccwCount x.ccw ≠ 1 → ∃ t, exec (.loop e k) s = .next t ∧ branches t ∧ (t.slot key).loops = x.loops ++ [(x.cur, ccwCount x.ccw - 1)])) ∧
      (∀ n, x.loops.find? (fun l => l.1 == x.cur) = some (x.cur, n) →
        (n ≤ 1 → ∃ t, exec (.loop e k) s = .next t ∧ falls t ∧ (t.slot key).loops = x.loops.filter (fun l => l.1 != x.cur)) ∧
        (1 < n → ∃ t, exec (.loop e k) s = .next t ∧ branches t ∧
          (t.slot key).loops = x.loops.map (fun l => if l.1 == x.cur then (l.1, n - 1) else l)))) ∧
    (x.openEnd →
      (s.executes key (· == 0x1F) = true → ∃ t, exec (.nop e k) s = .next t ∧ ccwPasses s t key 0) ∧
      (s.executes key (· == 0x1A) = true → ¬ ready → exec (.fence e k) s = .next s) ∧
      (s.executes key (· == 0x1A) = true → ready → ∃ t, exec (.fence e k) s = .next t ∧ ccwPasses s t key 0) ∧
      (s.executes key (· == 0x19) = true →
        let n := to_.toNat % 64
        (bitsOf (s.reg (0x04A00600 + 4 * n)) 4 0 = x.owner → ∃ t, exec (.signal e k) s = .next t ∧ ccwPasses s t key 0 ∧
          (t.irqSrc (192 + n)).pend = true ∧ ∀ j, j ≠ 192 + n → t.irqSrc j = s.irqSrc j) ∧
        (bitsOf (s.reg (0x04A00600 + 4 * n)) 4 0 ≠ x.owner → ∃ t, exec (.signal e k) s = .next t ∧ opEnds s t key (chkProg 0x0F) x.cur x.residue ∧
          t.irqs = s.irqs)) ∧
      (s.executes key (· == 0xC) = true → ∃ t, exec (.wait e k) s = .next t ∧ ccwPasses s t key 0 ∧
        (ccwEvent x.ccw = 1 → x.timeout = false → (t.station x.station).latch = false) ∧
        (ccwEvent x.ccw ≠ 1 → t.station x.station = s.station x.station) ∧
        (ccwMode x.ccw = 0 → ccwEvent x.ccw = 0 → (t.slot key).timeout = false ∧ (t.slot key).fallback = false)))

/-- R55, R60 to R63, R93, R121, R271, R292: MOVE copies COUNT bytes as one byte after the other would, also where a HALT waits for it,
which then ends the operation; COMPARE compares under its mask,
POST stores the source's position and T0, each within the rights of the owner; STRIKE launches a group that its owner has armed,
SHAPE hands its descriptor to the dispatcher and ends as its kernel did, SENSE stores the station's sense bytes and clears its
flags. -/
def Obligations.MemoryAndDispatchCcws : Prop :=
  ∀ (s : State) (e : EngineId) (k : SlotId),
    let key := slotKey e.val k.val
    let x := s.slot key
    let src := leQuad x.w.block
    let dst := leQuad (x.w.block.drop 8)
    let n := ccwCount x.ccw
    (s.executes key (· == 0x11) = false → exec (.move e k) s = .next s) ∧ (s.executes key (· == 0x12) = false → exec (.compare e k) s = .next s) ∧
    (s.executes key (· == 0x18) = false → exec (.post e k) s = .next s) ∧
    (s.executes key (· == 0x10) = false → exec (.shape e k) s = .next s) ∧ (s.executes key (· == 4) = false → exec (.sense e k) s = .next s) ∧
    (let u := s.atStep 5
     let x := u.slot key
     let g := (ccwAddr x.ccw).toNat % 256
     (u.executes key (· == 0xD) = false → exec (.strike e k) s = .next u) ∧
     (u.executes key (· == 0xD) = true → x.openEnd →
        (u.mayStrike x g = false → ∃ t, exec (.strike e k) s = .next t ∧ opEnds u t key (chkProg 0x0D) x.cur x.residue) ∧
        (u.mayStrike x g = true → ∃ t, exec (.strike e k) s = .next t ∧ ccwPasses u t key 0 ∧ (t.slot key).w.nlaunch = x.w.nlaunch + 1 ∧
          ∃ y ∈ t.launches, y.group = g ∧ y.at_ = u.time ∧ key ∈ y.owners))) ∧
    (s.executes key (· == 0x11) = true → x.st = .running → x.w.ending = none → x.w.fnReset = false → x.w.haltRuns = true →
      n ≠ 0 → n ≤ x.claimLeft → isLocal src = true → isLocal dst = true → s.memOk → s.engMay key x (localOf src) n = true →
      s.poisoned (localOf src) n = false → ∃ t, exec (.move e k) s = .next t ∧
        stored s t (localOf dst) (moveBytes src dst (s.bytesAt (localOf src) n)) ∧ opEnds s t key chkException x.cur 0) ∧
    (x.openEnd →
      (s.executes key (· == 0x11) = true →
        (n ≠ 0 → x.claimLeft = 0 → ∃ t, exec (.move e k) s = .next t ∧ opEnds s t key chkOverrun x.cur n) ∧
        (n ≠ 0 → n ≤ x.claimLeft → isLocal src = true → isLocal dst = true → s.memOk →
          (s.engMay key x (localOf src) n = false → ∃ t, exec (.move e k) s = .next t ∧ memKept s t ∧ opEnds s t key chkProtection x.cur x.residue) ∧
          (s.engMay key x (localOf src) n = true → s.poisoned (localOf src) n = false → ∃ t, exec (.move e k) s = .next t ∧
            stored s t (localOf dst) (moveBytes src dst (s.bytesAt (localOf src) n)) ∧ ccwPasses s t key 0 ∧
            (t.slot key).usedBytes = x.usedBytes + n))) ∧
      (s.executes key (· == 0x12) = true → isLocal src = true →
        (s.engMay key x (localOf src) n = false → ∃ t, exec (.compare e k) s = .next t ∧ memKept s t ∧ opEnds s t key chkProtection x.cur x.residue) ∧
        (s.engMay key x (localOf src) n = true → s.poisoned (localOf src) n = true → ∃ t, exec (.compare e k) s = .next t ∧ memKept s t ∧
          opEnds s t key chkData x.cur x.residue) ∧
        (s.engMay key x (localOf src) n = true → s.poisoned (localOf src) n = false → ∃ t, exec (.compare e k) s = .next t ∧ memKept s t ∧
          ccwPasses s t key 0 ∧
          let mask := leNat ((x.w.block.drop 8).take n)
          let a := leNat (s.bytesAt (localOf src) n) &&& mask
          let b := leNat ((x.w.block.drop 16).take n) &&& mask
          (t.slot key).cmp = if a < b then .lt else if a = b then .eq else .gt)) ∧
      (s.executes key (· == 0x18) = true → isLocal (ccwAddr x.ccw) = true → s.memOk → ∃ t, exec (.post e k) s = .next t ∧
        stored s t (localOf (ccwAddr x.ccw)) (s.postRecord (ccwSrc x.ccw)) ∧ ccwPasses s t key 0) ∧
      (s.executes key (· == 0x10) = true →
        (x.w.shapeEnd = some .returned → ∃ t, exec (.shape e k) s = .next t ∧ ccwPasses s t key 0) ∧
        (x.w.shapeEnd = some .poison → ∃ t, exec (.shape e k) s = .next t ∧ opEnds s t key chkData x.cur x.residue) ∧
        (x.w.shapeEnd = some .fault ∨ x.w.shapeEnd = some .noCore → ∃ t, exec (.shape e k) s = .next t ∧ opEnds s t key (chkProg 0x0E) x.cur x.residue) ∧
        (x.w.shapeEnd = none → x.w.shapeAt.isSome → exec (.shape e k) s = .next s) ∧
        (x.w.shapeEnd = none → x.w.shapeAt = none → s.shapeCores (descCores x.w.block) = [] → ∃ t, exec (.shape e k) s = .next t ∧
          opEnds s t key (chkProg 0x0E) x.cur x.residue) ∧
        (x.w.shapeEnd = none → x.w.shapeAt = none → s.shapeCores (descCores x.w.block) ≠ [] → ∃ t, exec (.shape e k) s = .next t ∧
          t.shapeQ = s.shapeQ ++ [{ key := key, owner := x.owner, desc := x.w.block, at_ := s.time }] ∧ (t.slot key).w.shapeAt = some s.time ∧
          (t.slot key).st = .running)) ∧
      (s.executes key (· == 4) = true → x.w.loaded = false → x.w.chainPos = 0 → x.w.succ = false → x.w.xferEnd = none →
        ccwVoid x.ccw = false → ccwPgl x.ccw = false → ccwSpan x.ccw = false → isLocal (ccwAddr x.ccw) = true → x.remain = n → 1 ≤ n → n ≤ 32 →
        n ≤ x.claimLeft → s.memOk → let st := x.station
          ∃ t, exec (.sense e k) s = .next t ∧ ccwPasses s t key 0 ∧ (t.station st).flags = 0 ∧ (t.station st).ureason = 0 ∧
            stored s t (localOf (ccwAddr x.ccw)) (({ s.station st with levels := s.pgLevels (s.staLane st / 12) }.senseBytes (s.staFlags st)).take n)))

/-- R37, R98, R285, R294, R298, R302: a data CCW or station command that executes with its lanes barred ends with UNIT_CHECK and the
reason; otherwise its transfer is loaded into the lane engine with its direction and bytes, both of them for an exchange, and an
outbound one passes what its FIFO takes; a station whose descriptor is unreadable ends it with INTERFACE_CHECK; a lane operation
that moves nothing ends at once with STATION_END. -/
def Obligations.DataCcwsUseTheirLanes : Prop :=
  ∀ (s : State) (e : EngineId) (k : SlotId) (i : Instr) (p : Nat → Bool),
    (i = .write e k ∧ p = (· == 1)) ∨ (i = .read e k ∧ p = (· == 2)) ∨ (i = .control e k ∧ p = (· == 3)) ∨
      (i = .writeRead e k ∧ p = (· == 5)) ∨ (i = .stationCommand e k ∧ p = isStationOp) →
    let key := slotKey e.val k.val
    let x := s.slot key
    let st := x.station
    let l := s.staLane st
    let n := ccwCount x.ccw
    let cls := s.classOf st (ccwOp x.ccw)
    let out := cls = .out ∨ cls = .exch ∨ cls = .control
    let inn := cls = .inn ∨ cls = .exch
    let clean := SMap.get .ok s.ecc (descAddr st) = .ok
    let fresh := x.w.loaded = false ∧ x.w.xferEnd = none ∧ x.w.chainPos = 0 ∧ x.w.succ = false ∧ x.w.moved = 0 ∧ x.remain = n ∧ n ≠ 0
    (s.executes key p = false → exec i s = .next s) ∧
    (s.executes key p = true → x.openEnd →
      (s.bareCommand st x.ccw = true → s.noLaneOp st x.ccw = true →
        (∀ r, s.transferBar st false false = some r → ∃ t, exec i s = .next t ∧ opEnds s t key (chkUnit r) x.cur 0) ∧
        (s.transferBar st false false = none → ∃ t, exec i s = .next t ∧ ccwPasses s t key 0 ∧ bit (t.slot key).ustat 0 = true)) ∧
      (s.bareCommand st x.ccw = true → s.noLaneOp st x.ccw = false → x.w.loaded = false → x.w.xferEnd = none →
        (∀ r, s.transferBar st false false = some r → ∃ t, exec i s = .next t ∧ opEnds s t key (chkUnit r) x.cur x.residue) ∧
        (s.transferBar st false false = none → clean → ∃ t, exec i s = .next t ∧ (t.slot key).st = .running ∧ (t.slot key).w.loaded = true ∧
          bit (t.slot key).ustat 0 = false ∧
          ∃ y, (t.lane l).xfer = some y ∧ y.key = key ∧ y.station = st ∧ y.inn = false ∧ y.out = false ∧ y.count = 0)) ∧
      (s.bareCommand st x.ccw = false → cls.data = true → fresh →
        (∀ r, s.transferBar st (decide out) (decide inn) = some r → ∃ t, exec i s = .next t ∧ opEnds s t key (chkUnit r) x.cur x.residue) ∧
        (s.transferBar st (decide out) (decide inn) = none → s.hwBad (descAddr st) = true → ∃ t, exec i s = .next t ∧
          opEnds s t key chkInterface x.cur x.haltResidue) ∧
        (s.transferBar st (decide out) (decide inn) = none → clean → cls = .inn → (s.fifo (2 * l)).words = [] → (s.fifo (2 * l)).part = [] →
          ∃ t, exec i s = .next t ∧ (t.slot key).st = .running ∧ (t.slot key).w.loaded = true ∧ bit (t.slot key).ustat 0 = false ∧
            ∃ y, (t.lane l).xfer = some y ∧ y.key = key ∧ y.station = st ∧ y.inn = true ∧ y.out = false ∧ y.want = n ∧ y.count = 0) ∧
        (s.transferBar st (decide out) (decide inn) = none → clean → out → ccwPgl x.ccw = false → s.noMemory st x.ccw = false →
          isLocal (ccwAddr x.ccw) = true → s.engMay key x (localOf (ccwAddr x.ccw)) n = true → s.poisoned (localOf (ccwAddr x.ccw)) n = false →
          n ≤ s.fifoRoom (2 * l + 1) → (cls = .exch → (s.fifo (2 * l)).words = [] ∧ (s.fifo (2 * l)).part = []) → x.w.inbox = [] → x.w.reads = [] →
          ∃ t, exec i s = .next t ∧ memKept s t ∧ (t.slot key).st = .running ∧ (t.slot key).w.loaded = true ∧ (t.slot key).w.moved = n ∧
            ∃ y, (t.lane l).xfer = some y ∧ y.key = key ∧ y.out = true ∧ y.inn = decide (cls = .exch) ∧ y.owe = n ∧
              y.want = (if cls = .exch then n else 0) ∧ y.count = 0)))

/-- R92 to R97: a request takes effect once, on a slot to which it was delivered and whose engine runs. HALT and CLEAR end an
operation that has not reached a transfer with UNIT_EXCEPTION and no bytes; a SUSPENDED slot ends only once R76 lets it; CLEAR cuts
a transfer at once and turns the ending of a HALTING slot; SUSPEND is kept until a SUS point and RESUME takes it back, or starts a
suspended slot again at its CCW with nothing held of what was fetched. -/
def Obligations.RequestsStopAndStartOperations : Prop :=
  ∀ (s : State) (e : EngineId) (k : SlotId),
    let key := slotKey e.val k.val
    let x := s.slot key
    let early := x.st = .admitted ∨ x.st = .fetching ∨ x.st = .waiting ∨ (x.st = .suspended ∧ s.r76 key = true)
    let last := if x.st = .admitted then 0#64 else x.cur
    let got := fun (n : Nat) => n ∈ x.w.deliv ∧ s.engineRuns (keyEngine key) = true
    (¬ got 2 → exec (.halt e k) s = .next s) ∧ (¬ got 3 → exec (.clear e k) s = .next s) ∧
    (¬ got 4 → exec (.suspend e k) s = .next s) ∧ (¬ got 5 → exec (.resume e k) s = .next s) ∧
    (x.st = .suspended → s.r76 key = false → exec (.halt e k) s = .next s ∧ exec (.clear e k) s = .next s) ∧
    (got 2 → x.openEnd → early → ∃ t, exec (.halt e k) s = .next t ∧ opEnds s t key chkException last x.haltResidue) ∧
    (got 2 → x.openEnd → x.st = .running → x.w.ccwDone = true ∨ ccwOp x.ccw ∈ [8, 9, 10, 0xC, 0xD, 0x10, 0x19, 0x1A, 0x1F] →
      ∃ t, exec (.halt e k) s = .next t ∧ opEnds s t key chkException x.cur x.haltResidue ∧ ∀ r ∈ t.shapeQ, r.key ≠ key) ∧
    (got 3 → x.openEnd → early ∨ x.st = .running → ∃ t, exec (.clear e k) s = .next t ∧ opEnds s t key chkException last x.haltResidue ∧
      (x.w.holding = true → x.st = .fetching ∨ x.st = .waiting ∨ x.st = .running →
        (t.lane (t.staLane x.station)).xfer = none ∧ (t.fifo (2 * s.staLane x.station)).words = [] ∧
        (t.fifo (2 * s.staLane x.station + 1)).words = [] ∧ (t.station x.station).latch = false)) ∧
    (∀ y, got 3 → x.st = .halting → x.w.fnReset = false → x.w.ending = some y → y.normal = true → ∃ t, exec (.clear e k) s = .next t ∧
      ((t.slot key).st = .posting ∨ (t.slot key).st = .halting) ∧ bit (t.slot key).ustat 2 = true ∧ bit (t.slot key).ustat 0 = false ∧
      (t.slot key).w.ending = some { lastCcw := y.lastCcw, residual := x.haltResidue, normal := false }) ∧
    (got 4 → x.st = .suspended ∨ x.st = .posting ∨ x.st = .postHeld ∨ x.st = .halting → exec (.suspend e k) s = .next (s.setSlot key (x.undeliver 4))) ∧
    (got 4 → x.st ≠ .suspended → x.st ≠ .posting → x.st ≠ .postHeld → x.st ≠ .halting →
      exec (.suspend e k) s = .next (s.setSlot key { x.undeliver 4 with susreq := true })) ∧
    (got 5 → x.st ≠ .suspended → exec (.resume e k) s = .next (s.setSlot key { x.undeliver 5 with susreq := false })) ∧
    (got 5 → x.st = .suspended → ∃ t, exec (.resume e k) s = .next t ∧ onlySlot s t key ∧ (t.slot key).st = .fetching ∧ (t.slot key).cur = x.cur ∧
      (t.slot key).w.lines = [] ∧ (t.slot key).w.snapped = false ∧ (t.slot key).loops = x.loops ∧ (t.slot key).usedCcws = x.usedCcws)

/-- R93, R98, R99, R121, R127, R222: while its engine runs, a stop boundary that does not come in 200 microseconds, a response timer
at its limit and an exhausted busy claim end the operation and return its station to its initial state; a deadline that passes and a
SHAPE that waits longer than 2 microseconds are each counted once; a host read that is as old as its timeout is counted and logged,
and its issuer gets the error. R102: a mismatch of an engine's two copies stops it once, takes its bind enable and its waiting
SHAPEs away, names it and reports it; five microseconds later both copies run again, and its operations have ended with
INTERFACE_CHECK. -/
def Obligations.TimersClaimsAndLockstep : Prop :=
  (∀ (s : State) (e : EngineId) (k : SlotId),
     let key := slotKey e.val k.val
     let x := s.slot key
     let cleared := fun (t : State) => x.w.holding = true → (t.lane (t.staLane x.station)).xfer = none ∧
       (t.fifo (2 * s.staLane x.station)).words = [] ∧ (t.fifo (2 * s.staLane x.station + 1)).words = []
     (let due := x.st = .halting ∧ s.engineRuns (keyEngine key) = true ∧ (s.xferOf x.station key).isSome ∧ ∃ b, x.w.timerFrom = some b ∧ b + 240000 ≤ s.time
      (¬ due → exec (.stopBoundaryTimeout e k) s = .next s) ∧
      (due → x.w.fnReset = false → ∀ y, x.w.ending = some y → ∃ t, exec (.stopBoundaryTimeout e k) s = .next t ∧ cleared t ∧
        ((t.slot key).st = .posting ∨ (t.slot key).st = .halting) ∧ (t.slot key).cstat = x.cstat ∧
        (t.slot key).w.ending = some { y with residual := x.haltResidue })) ∧
     (let due := x.st = .running ∧ s.engineRuns (keyEngine key) = true ∧ x.w.loaded = true ∧ x.w.timerFrom.isSome ∧ s.staTmo x.station * 1200 ≤ s.timerValue x
      (¬ due → exec (.responseTimeout e k) s = .next s) ∧
      (due → x.openEnd → ∃ t, exec (.responseTimeout e k) s = .next t ∧ opEnds s t key chkInterface x.cur x.haltResidue ∧ cleared t)) ∧
     (let due := x.over = false ∧ s.engineRuns (keyEngine key) = true ∧ x.w.holding = true ∧ x.busyFrom.isSome ∧ s.busyLimit x ≤ s.usedBusy x
      (¬ due → exec (.busyClaimExhausted e k) s = .next s) ∧
      (due → x.openEnd → x.midHeld = false → ∃ t, exec (.busyClaimExhausted e k) s = .next t ∧
        opEnds s t key chkOverrun x.cur x.haltResidue ∧ cleared t) ∧
      (due → x.openEnd → x.midHeld = true → ∃ t, exec (.busyClaimExhausted e k) s = .next t ∧ (t.slot key).st = .postHeld ∧
        (t.slot key).cstat = x.cstat ||| chkOverrun.cstat ∧ cleared t ∧
        (t.slot key).w.ending = some { lastCcw := x.cur, residual := x.haltResidue, normal := false })) ∧
     (let missed := x.over = false ∧ x.be = false ∧ x.w.missed = false ∧ x.w.deadlineAt < s.time
      (¬ missed → exec (.deadlineMiss e k) s = .next s) ∧
      (missed → keyEngine key ≠ 64 → ∃ t, exec (.deadlineMiss e k) s = .next t ∧ t.slot key = { x with w := { x.w with missed := true } } ∧
        t.reg 0x04300014 = BitVec.ofNat 32 (2 ^ 31 + keyEngine key * 2 ^ 16 + keySlot key) ∧ t.reg 0x04300030 = satInc (s.reg 0x04300030) ∧
        bit (t.reg 0x04300004) 1 = true ∧ onlyRegs { s with slots := t.slots } t [0x04300014, 0x04300030, 0x04300004]) ∧
      (missed → keyEngine key = 64 → ∃ t, exec (.deadlineMiss e k) s = .next t ∧ t.slot key = { x with w := { x.w with missed := true } } ∧
        t = { s with slots := t.slots, reports := t.reports } ∧ t.reports.length = s.reports.length + 1)) ∧
     (s.shapeQ.find? (fun r => r.key == key) = none → exec (.shapeLate e k) s = .next s) ∧
     (∀ r, s.shapeQ.find? (fun r => r.key == key) = some r →
       let late := x.be = false ∧ x.w.shapeLate = false ∧ r.at_ + 2400 < s.time
       (¬ late → exec (.shapeLate e k) s = .next s) ∧
       (late → ∃ t, exec (.shapeLate e k) s = .next t ∧ t.slot key = { x with w := { x.w with shapeLate := true } } ∧
         t.reg 0x04300034 = satInc (s.reg 0x04300034) ∧ bit (t.reg 0x04300004) 2 = true ∧
         onlyRegs { s with slots := t.slots } t [0x04300034, 0x04300004])) ∧
     (∀ (f : Fn) (who : ReadOwner), s.mode = 0xA → exec (.completionTimeout f who) s = .next s) ∧
     (∀ f : Fn, s.mode ≠ 0xA →
       let counted := fun (t : State) => t.reg 0x04000014 = satInc (s.reg 0x04000014) ∧ bit (t.reg 0x04000004) 2 = true
       (x.owner ≠ f.val ∨ s.slotLate key = false → exec (.completionTimeout f (.slot e k)) s = .next s) ∧
       (∀ r rest, x.owner = f.val → x.w.reads = r :: rest → s.slotLate key = true → r.spec = false → ∃ t, exec (.completionTimeout f (.slot e k)) s = .next t ∧ counted t ∧
         (t.slot key).w.reads = rest ∧ (t.slot key).w.inbox = x.w.inbox ++ [(r, .timeout)]) ∧
       (∀ g : RingId, s.ringFn g.val ≠ some f.val ∨ s.headLate g.val = false → exec (.completionTimeout f (.head g)) s = .next s) ∧
       (∀ (g : RingId) i, s.ringFn g.val ≠ some f.val ∨ s.scanLate g.val i = false → exec (.completionTimeout f (.scan g i)) s = .next s) ∧
       (∀ (g : RingId) i, let r := s.ring g.val
         s.ringFn g.val = some f.val → s.scanLate g.val i = true → r.typ = 1 → r.st = 2 → r.buf = true → r.inWeir = true → s.carried = true →
         (∀ q, r.reads[i]? = some q → q.unit ≠ alignDown r.head 4 ∧ ∀ u, r.need = some u → alignDown u 4 ≠ q.unit) →
         ∃ t, exec (.completionTimeout f (.scan g i)) s = .next t ∧ counted t ∧ (t.ring g.val).reads = r.reads.eraseIdx i ∧ (t.ring g.val).st = 2) ∧
       (∀ g : RingId, s.ringFn g.val = some f.val → s.headLate g.val = true → (s.ring g.val).typ = 2 → (s.ring g.val).st = 1 →
         ∃ t, exec (.completionTimeout f (.head g)) s = .next t ∧ counted t ∧ bit (t.ring g.val).cqStatus 0 = true ∧
           (t.ring g.val).qhead = (s.ring g.val).qhead))) ∧
  (∀ (s : State) (e : EngineId),
     (s.engineRuns e.val = false → exec (.lockstepMismatch e) s = .next s) ∧
     (s.engineRuns e.val = true → e.val ≠ 64 →
       let a := if e.val < 32 then 0x04400010 else 0x04400014
       ∃ t, exec (.lockstepMismatch e) s = .next t ∧ t.engineRuns e.val = false ∧ bit (t.reg a) (e.val % 32) = false ∧
         t.reg 0x04400020 = BitVec.ofNat 32 (2 ^ 31 + e.val) ∧ bit (t.reg 0x04400004) 1 = true ∧ t.slots = s.slots ∧
         (∀ d, d ≠ e.val → t.engineRuns d = s.engineRuns d) ∧ t.shapeQ = s.shapeQ.filter (fun r => keyEngine r.key != e.val) ∧
         onlyRegs { s with stopped := t.stopped, shapeQ := t.shapeQ } t [a, 0x04400020, 0x04400004]) ∧
     (s.engineRuns 64 = true → ∃ t, exec (.lockstepMismatch 64) s = .next t ∧ t.engineRuns 64 = false ∧ bit (t.reg 0x04480000) 0 = false ∧
       t.cea.scanning = false ∧ bit (t.reg 0x04480004) 1 = true ∧
       onlyRegs { s with stopped := t.stopped, shapeQ := t.shapeQ, cea := t.cea } t [0x04480000, 0x04480004]) ∧
     (s.engineRuns e.val = true → exec (.sequencerResetDone e) s = .next s) ∧
     (s.time < SMap.get 0 s.stopped e.val - 1 + 6000 → exec (.sequencerResetDone e) s = .next s) ∧
     (∀ b, SMap.get 0 s.stopped e.val = b + 1 → b + 6000 ≤ s.time →
       (∃ t, exec (.sequencerResetDone e) s = .next t ∧ t.engineRuns e.val = true ∧
         ∀ k, keyEngine k ≠ e.val → (t.slot k).st = (s.slot k).st ∧ (t.slot k).cur = (s.slot k).cur ∧ (t.slot k).cstat = (s.slot k).cstat) ∧
       ∀ (key : Nat) (x : Slot), s.slots = [(key, x)] → keyEngine key = e.val → x.w.fnReset = false → x.st ≠ .idle → x.st ≠ .posting → x.st ≠ .postHeld →
         ∃ t, exec (.sequencerResetDone e) s = .next t ∧ opEnds s t key chkInterface x.cur x.remain))

/-- R464 to R470, R480: the server answers every request once; a retry gets the earlier answer and applies nothing. A READ returns the
bytes of the value from its offset, or the first refusal that holds; a WRITE gathers its segments in order, and the last one
stores the value, or is refused with its result and changes no entry; whole values and refusals are logged. A second without a
segment drops a staged write. -/
def Obligations.DictionaryAnswersRequests : Prop :=
  ∀ (s : State) (q : DictReq),
    let c := classKey q.cls
    let idx := q.index.toNat
    let sub := q.sub.toNat
    let key := dictKey idx sub
    let x := s.dictMem c
    let mail := ∃ f, q.cls = .s f
    let tells := fun (t : State) (r : Nat) (d : List Byte) => t.out = s.out ++ [.dict (classCode q.cls) (classFn q.cls) r d] ∧ t.dict = s.dict
    let logs := fun (t : State) (r : Nat) => t.wlog = (s.wlog ++ [[idx * 256 + sub, classCode q.cls * 2 ^ 24 + classMaster q.cls * 2 ^ 16 + r,
      s.liveT0 % 2 ^ 32, s.liveT0 / 2 ^ 32 % 2 ^ 32]]).drop (s.wlog.length - 63)
    (s.dictServer = none → exec (.dictRead q) s = .next s ∧ exec (.dictWrite q) s = .next s) ∧
    (s.dictServer.isSome → x.hdr = reqHeader q false → ∃ t, exec (.dictRead q) s = .next t ∧ tells t x.res x.reply ∧ t = { s with out := t.out }) ∧
    (s.dictServer.isSome → x.hdr = reqHeader q true → ∃ t, exec (.dictWrite q) s = .next t ∧ tells t x.res x.reply ∧ t = { s with out := t.out }) ∧
    (s.dictServer.isSome → x.hdr ≠ reqHeader q false →
      let go := fun (r : Nat) (d : List Byte) => ∃ t, exec (.dictRead q) s = .next t ∧ tells t r d ∧ t = { s with out := t.out, dreq := t.dreq } ∧
        (t.dictMem c).hdr = reqHeader q false ∧ (t.dictMem c).res = r ∧ (t.dictMem c).reply = d
      (q.fin = true → go resFrame []) ∧
      (∀ r, q.fin = false → s.dictCheck q.cls idx sub false = .error r → go r []) ∧
      (∀ e, q.fin = false → s.dictCheck q.cls idx sub false = .ok e →
        (mail → e.ty.small = false → go resLength []) ∧
        (¬ mail ∨ e.ty.small = true →
          (q.offset ≠ 0 → (key, true) ∈ x.reads → go resChanged []) ∧
          (q.offset = 0 ∨ (key, true) ∉ x.reads → ¬ (idx = 0xF300 ∧ sub = 4) →
            go resOK (((s.dictValue idx sub e).drop q.offset).take q.len))))) ∧
    (s.dictServer.isSome → x.hdr ≠ reqHeader q true →
      let bs := match x.staged with | some (k, b, _) => if k = key ∧ q.offset = b.length then b else [] | none => []
      let refused := fun (r : Nat) => ∃ t, exec (.dictWrite q) s = .next t ∧ tells t r [] ∧ logs t r ∧ (t.dictMem c).staged = none ∧ t.flash = s.flash
      (∀ r, s.dictCheck q.cls idx sub true = .error r → refused r) ∧
      (∀ e, s.dictCheck q.cls idx sub true = .ok e →
        (mail → e.ty.small = false → refused resLength) ∧
        (¬ mail ∨ e.ty.small = true →
          (q.offset ≠ bs.length → refused resSequence) ∧
          (q.offset = bs.length → s.stagedElsewhere c key = true → refused resBusy) ∧
          (q.offset = bs.length → s.stagedElsewhere c key = false → idx ≠ 0x1F00 →
            (q.fin = false → ∃ t, exec (.dictWrite q) s = .next t ∧ tells t resOK [] ∧ t.wlog = s.wlog ∧
              (t.dictMem c).staged = some (key, bs ++ q.data, s.live)) ∧
            (q.fin = true → e.ty.badLen (bs ++ q.data).length = true → refused resLength) ∧
            (q.fin = true → e.ty.badLen (bs ++ q.data).length = false → e.badRange (bs ++ q.data) = true → refused resRange) ∧
            (q.fin = true → e.ty.badLen (bs ++ q.data).length = false → e.badRange (bs ++ q.data) = false → idx = 0x1010 ∨ idx = 0x1020 →
              ∃ t, exec (.dictWrite q) s = .next t ∧ t.dictValue idx sub e = bs ++ q.data ∧ logs t resOK ∧ (t.dictMem c).staged = none ∧
                t.out = s.out ++ [.dict (classCode q.cls) (classFn q.cls) resOK []] ∧
                ∀ k, k ≠ key → SMap.get [] t.dict k = SMap.get [] s.dict k))))) ∧
    (x.staged = none → exec (.stagedWriteTimeout q.cls) s = .next s) ∧
    (∀ k b w, x.staged = some (k, b, w) → (s.live < w + 1200000000 → exec (.stagedWriteTimeout q.cls) s = .next s) ∧
      (w + 1200000000 ≤ s.live → exec (.stagedWriteTimeout q.cls) s = .next (s.setDictMem c { x with staged := none })))

/-- R412, R443, R462, R479, R484, R485, R511: a whole value written to an entry that starts an action starts it where the entry's
conditions hold, and is otherwise refused with its result: SAVE and DEFAULTS of the persistent store, the segments of an image and
their COMMIT, the fuses of SVN_RAISE, ADVANCE and KEY_PROG, a reset that follows its answer, an acknowledgement, and the SERVICE
and REPLAY modes. -/
def Obligations.DictionaryStartsActions : Prop :=
  ∀ (s : State) (k : DictClass), (∀ f, k ≠ .s f) →
    let answer := fun (t : State) (r : Nat) => .dict (classCode k) (classFn k) r [] ∈ t.out
    let open_ := fun (idx sub : Nat) => s.dictServer.isSome ∧ s.stagedElsewhere (classKey k) (dictKey idx sub) = false ∧
      ∃ e, s.dictCheck k idx sub true = .ok e
    let goes := fun (i : Instr) (r : Nat) (p : State → Prop) => ∃ t, exec i s = .next t ∧ answer t r ∧ p t
    let same := fun (t : State) => t.flash = s.flash ∧ t.burn = s.burn ∧ t.fuses = s.fuses ∧ t.dict = s.dict ∧ t.mode = s.mode ∧ t.trans = s.trans
    let rows := fun (b : Byte) (w : Word) (d : List Byte) => [(Instr.save k, 0x1F10, 1), (.defaults k, 0x1F10, 3), (.commit k, 0x1F00, 4),
      (.svnRaise k b, 0x1F00, 6), (.advance k w, 0x1E00, 1), (.keyProg k d, 0x1E00, 2), (.dictReset k b, 0x9020, 3), (.dictAck k w, 0x8080, 1),
      (.dictService k b, 0x9010, 4), (.dictReplay k b, 0x2501, 2)]
    (s.dictServer = none → ∀ b w d, ∀ p ∈ rows b w d, exec p.1 s = .next s) ∧
    (s.dictServer.isSome → ∀ b w d, ∀ p ∈ rows b w d, ∀ r, s.dictCheck k p.2.1 p.2.2 true = .error r → goes p.1 r same) ∧
    (s.dictServer.isSome → ∀ b w d, ∀ p ∈ rows b w d, ∀ e, s.dictCheck k p.2.1 p.2.2 true = .ok e → s.stagedElsewhere (classKey k) (dictKey p.2.1 p.2.2) = true →
      goes p.1 resBusy same) ∧
    (open_ 0x1F10 1 → goes (.save k) resOK (fun t => t.saveSt = 2 ∧ t.flash = { s.flash with store := some (s.dict.filter (fun p => persistent p.1)) })) ∧
    (open_ 0x1F10 3 → goes (.defaults k) resOK (fun t => t.flash = { s.flash with store := none } ∧ t.dict = s.dict)) ∧
    (open_ 0x1F00 4 →
      (s.stagedC = false → s.stagedP = false → goes (.commit k) resSequence same) ∧
      (s.stagedC = true ∨ s.stagedP = true → goes (.commit k) resOK (fun t => t.stagedC = false ∧ t.stagedP = false ∧ t.flash.gen = s.flash.gen + 1 ∧
        t.flash.slotC = (s.flash.slotC ^^ s.stagedC) ∧ t.flash.slotP = (s.flash.slotP ^^ s.stagedP) ∧ t.runC = s.runC ∧ t.runP = s.runP))) ∧
    (open_ 0x1F00 6 → ∀ v : Byte,
      let may := v.toNat ≤ 64 ∧ s.fuses.svnMin ≤ v.toNat ∧ (∃ i, s.cImg = some i ∧ v.toNat ≤ i.svn) ∧ ∃ i, s.pImg = some i ∧ v.toNat ≤ i.svn
      (may → goes (.svnRaise k v) resOK (fun t => t.fuses.svnMin = v.toNat ∧ t.burn.svn = some v.toNat)) ∧
      (¬ may → goes (.svnRaise k v) resRange same)) ∧
    (open_ 0x1E00 1 → ∀ v : Word,
      let to_ := bitsOf v 31 24
      let may := bitsOf v 23 0 = s.fuses.serial.toNat % 2 ^ 24 ∧
        ((to_ = 1 ∧ s.life = 0 ∧ s.keyFused = true) ∨ (to_ = 2 ∧ s.life = 1) ∨ to_ = 3)
      (may → goes (.advance k v) resOK (fun t => t.burn.life = some to_ ∧ t.fuses = s.fuses ∧ (to_ = 3 → t.flash = {}) ∧ (to_ ≠ 3 → t.flash = s.flash))) ∧
      (¬ may → goes (.advance k v) resRange same)) ∧
    (open_ 0x1E00 2 → ∀ d : List Byte,
      (d.length ≠ 48 → goes (.keyProg k d) resLength same) ∧
      (d.length = 48 → s.life ≠ 0 → goes (.keyProg k d) resLifecycle same) ∧
      (d.length = 48 → s.life = 0 → s.keyFused = true → goes (.keyProg k d) resRange same) ∧
      (d.length = 48 → s.life = 0 → s.keyFused = false → goes (.keyProg k d) resOK (fun t => t.burn.key = some d ∧ t.fuses = s.fuses))) ∧
    (open_ 0x9020 3 → ∀ scope : Byte,
      (1 ≤ scope.toNat → scope.toNat ≤ 3 → ∃ u : State, answer u resOK ∧ u.dict = s.dict ∧ u.mode = s.mode ∧ u.flash = s.flash ∧
        exec (.dictReset k scope) s = .next (u.resetScope scope.toNat 5 u.serverId)) ∧
      (scope.toNat < 1 ∨ 3 < scope.toNat → goes (.dictReset k scope) resRange same)) ∧
    (open_ 0x8080 1 → ∀ seq : Word, exec (.dictAck k seq) s = .next
      (((((s.fcAckSeq seq.toNat).fcSettle).dictChanged (dictKey 0x8080 1)).dictLog k 0x8080 1 resOK).emit (.dict (classCode k) (classFn k) resOK []))) ∧
    (open_ 0x9010 4 → ∀ v : Byte,
      let may := s.dictServer = some .pommel ∧ s.mode = 8 ∧ s.trans = none
      (v = 0#8 → goes (.dictService k v) resOK (fun t => t.mode = s.mode ∧ t.trans = s.trans)) ∧
      (v = 1#8 → may → goes (.dictService k v) resOK (fun t => t.trans = (s.svcEnter .pommel).trans ∧ t.mode = (s.svcEnter .pommel).mode)) ∧
      (v ≠ 0#8 → v ≠ 1#8 ∨ ¬ may → goes (.dictService k v) resRange same)) ∧
    (open_ 0x2501 2 → ∀ v : Byte,
      let enters := s.dictServer = some .pommel ∧ s.mode = 0xB ∧ s.trans = none ∧ s.replayOk = true
      let exits := s.dictServer = some .pommel ∧ s.mode = 0xA ∧ s.trans = none
      (v = 1#8 → enters → goes (.dictReplay k v) resOK (fun t => t.jnState = 4 ∧ t.trans = some (0xA, s.time))) ∧
      (v = 1#8 → ¬ enters → goes (.dictReplay k v) resRange same) ∧
      (v = 0#8 → exits → goes (.dictReplay k v) resOK (fun t => t.jn.expect = [] ∧ t.jn.stalled = false)) ∧
      (v = 0#8 → ¬ exits → goes (.dictReplay k v) resRange same) ∧
      (v ≠ 0#8 → v ≠ 1#8 → goes (.dictReplay k v) resRange same)) ∧
    (∀ (i : Instr) (cantle fin : Bool) (d : List Byte) (im : Image),
      (i = .cantleImage k d fin im ∧ cantle = true) ∨ (i = .pommelImage k d fin im ∧ cantle = false) →
      let sub := if cantle then 1 else 2
      let staged := fun (t : State) => if cantle then t.stagedC else t.stagedP
      let flashed := fun (t : State) => Out.flash (slotArea cantle (!(if cantle then s.flash.slotC else s.flash.slotP))) d ∈ t.out
      let good := im.headerOk = true ∧ im.cantle = cantle ∧ s.imageOk im = true
      (s.dictServer = none → exec i s = .next s) ∧
      (s.dictServer.isSome → ∀ r, s.dictCheck k 0x1F00 sub true = .error r → goes i r same) ∧
      (open_ 0x1F00 sub →
        (fin = false → goes i resOK (fun t => staged t = false ∧ flashed t ∧ t.flash = s.flash)) ∧
        (fin = true → good → goes i resOK (fun t => staged t = true ∧ flashed t ∧ t.flash = s.flash)) ∧
        (fin = true → ¬ good → goes i resAuth (fun t => staged t = false ∧ flashed t ∧ t.flash = s.flash))))

/-- R473, R475, R476: FN_DICT_GO with 1 submits the request in PF0's channel and is a configuration error otherwise; the answer fills
its data and status words and clears BUSY. The dictionary's I3C port takes a dynamic address while it is configured and served,
answers a framed request with a reply that stays readable, answers a damaged one with FRAME, and does not acknowledge while it
cannot serve. -/
def Obligations.DictionaryChannelAndPort : Prop :=
  ∀ (s : State),
    let stat := 0x04100114
    let busy := bit (s.reg stat) 31 = true
    let seq := bitsOf (s.reg 0x04100100) 6 4
    let due := busy ∧ s.dictServer.isSome ∧ s.domOn 27 = true
    let served := s.domOn 2 = true ∧ s.dictPort = true ∧ s.dictServer.isSome
    let answers := served ∧ s.i3cAddr.isSome
    (∀ (m : Master) (v : Word), s.regRight m 0x04100110 true = .may →
      (busy ∨ v ≠ 1#32 → ∃ t, exec (.fnDictGo m v) s = .next t ∧ bit (t.reg 0x04100004) 0 = true ∧ onlyRegs s t [0x04100004]) ∧
      (¬ busy → v = 1#32 → ∃ t, exec (.fnDictGo m v) s = .next t ∧ t.reg stat = s.reg stat ||| 0x80000000#32 ∧ onlyRegs s t [stat])) ∧
    (¬ due → exec .dictReplyReady s = .next s) ∧
    (due → s.channelReq = none → ∃ t, exec .dictReplyReady s = .next t ∧ t.reg stat = BitVec.ofNat 32 (resFrame * 65536 + seq * 16 + 1)) ∧
    (∀ q wr, due → s.channelReq = some (q, wr) → wr = false ∨ q.index.toNat ≠ 0x9020 →
      let d := (s.dictServe q wr).2.2
      ∃ t, exec .dictReplyReady s = .next t ∧
        t.reg stat = BitVec.ofNat 32 ((s.dictServe q wr).2.1 * 65536 + d.length * 256 + q.seq.val * 16 + 1)) ∧
    (∀ b, s.mode = 0 → exec (.i3cDictRequest b) s = .next s ∧ exec .i3cDictReplyRead s = .next s) ∧
    (∀ b, s.mode ≠ 0 →
      (s.domOn 2 = false → exec (.i3cDictRequest b) s = .next ((wakeEventRow s 5).emit .i3cNack)) ∧
      (s.domOn 2 = true → ¬ answers → exec (.i3cDictRequest b) s = .next { s with out := s.out ++ [.i3cNack] }) ∧
      (answers → i3cParse b = none → ∃ t, exec (.i3cDictRequest b) s = .next t ∧
        t.i3cReply = some (i3cReplyOf resFrame (leNat (b.take 1) / 16 % 8) []) ∧ t = { s with i3cReply := t.i3cReply, out := t.out }) ∧
      (∀ q wr, answers → i3cParse b = some (q, wr) → wr = false ∨ q.index.toNat ≠ 0x9020 →
        let a := State.dictServe { s with i3cReply := none } q wr
        ∃ t, exec (.i3cDictRequest b) s = .next t ∧ t.i3cReply = some (i3cReplyOf a.2.1 q.seq.val a.2.2)) ∧
      (∀ r, s.i3cReply = some r → answers → exec .i3cDictReplyRead s = .next { s with out := s.out ++ [.i3c r] }) ∧
      (s.i3cReply = none ∨ ¬ answers → exec .i3cDictReplyRead s = .next { s with out := s.out ++ [.i3cNack] })) ∧
    (∀ (setdasa : Bool) (a : BitVec 7),
      (served → setdasa = true → s.i3cAddr = none → exec (.dynamicAddressAssignment setdasa a) s = .next { s with i3cAddr := some a.toNat }) ∧
      (served → setdasa = false → exec (.dynamicAddressAssignment setdasa a) s = .next { s with i3cAddr := some a.toNat, out := s.out ++ [.i3c s.i3cIdent] }) ∧
      (¬ served ∨ (setdasa = true ∧ s.i3cAddr.isSome) → exec (.dynamicAddressAssignment setdasa a) s = .next s))

/-- R22, R486, R487: attaching in FIELD or RETIRED is a device reset that fills every domain, and in BLANK or DEVELOP leaves the part
as it is; ZEROIZE is such a reset in DEVELOP alone; the port halts and resumes cores while it has control, steps a halted one in
BLANK and DEVELOP, and reaches registers and memory under the rights of every access; a refused request sets the sticky error flag
and is reported. -/
def Obligations.DebugPortActsByLifecycle : Prop :=
  ∀ (s : State),
    let refused := fun (i : Instr) => ∃ t, exec i s = .next t ∧ t = { s with debugErr := t.debugErr, reports := t.reports } ∧ t.debugErr.isSome ∧
      t.reports.length = s.reports.length + 1
    (s.mode = 0 → exec .debugAttach s = .next s ∧ exec .zeroize s = .next s ∧ ∀ q, exec (.debugRequest q) s = .next s) ∧
    (s.mode ≠ 0 →
      (2 ≤ s.life → exec .debugAttach s = .next { s.deviceReset 4 127 with dbgOn := true }) ∧
      (s.life < 2 → exec .debugAttach s = .next { s with dbgOn := true }) ∧
      (s.life = 1 → exec .zeroize s = .next { s.deviceReset 4 127 with dbgOn := true }) ∧
      (s.life ≠ 1 → refused .zeroize) ∧
      (∀ scope : Byte, (1 ≤ scope.toNat → scope.toNat ≤ 3 → exec (.debugRequest (.reset scope)) s = .next (s.resetScope scope.toNat 4 127)) ∧
        (scope.toNat < 1 ∨ 3 < scope.toNat → refused (.debugRequest (.reset scope)))) ∧
      (let control := s.dbgOn = true ∧ (s.life ≤ 1 ∨ (s.mode ≠ 1 ∧ s.mode ≠ 2))
       let ok := Out.debug true []
       (control → s.life ≠ 3 →
         exec (.debugRequest (.haltCore true)) s = .next { s with haltC := true, out := s.out ++ [ok] } ∧
         exec (.debugRequest (.haltCore false)) s = .next { s with haltP := true, out := s.out ++ [ok] } ∧
         exec (.debugRequest (.resumeCore true)) s = .next { s with haltC := false, out := s.out ++ [ok] } ∧
         exec (.debugRequest (.resumeCore false)) s = .next { s with haltP := false, out := s.out ++ [ok] }) ∧
       (¬ control ∨ s.life = 3 → ∀ c, refused (.debugRequest (.haltCore c)) ∧ refused (.debugRequest (.resumeCore c))) ∧
       (∀ c, let halted := if c then s.haltC else s.haltP
         (control → s.life ≤ 1 → halted = true → exec (.debugRequest (.stepCore c)) s = .next { s with out := s.out ++ [ok] }) ∧
         (¬ control ∨ 1 < s.life ∨ halted = false → refused (.debugRequest (.stepCore c))))) ∧
      (∀ a op, exec (.debugRequest (.register a op)) s = exec (.registerWrite .debug a 4 op) s) ∧
      (∀ a n op, (accessOk a.toNat n op = true → exec (.debugRequest (.memory a n op)) s = exec (.coreMemoryAccess .debug a n op none) s) ∧
        (accessOk a.toNat n op = false → refused (.debugRequest (.memory a n op)))))

/-- R494 to R496, R500, R503, R505, R507: START in OFF or DONE opens the next session in HOLD and holds the recorded functions'
queues; once they are quiet the checkpoint is taken with SESSION and TIME in front, and recording begins when it is done; HOLD ends
after QTMO, STOP ends a session with an END record; a replay stands still when its window runs dry, and ends where its cause is due.
-/
def Obligations.JournalSessionsRunTheirCourse : Prop :=
  ∀ (s : State),
    (∀ m : Master, s.regRight m 0x04F0000C true = .may →
      let free := s.jnState = 0 ∨ s.jnState = 6
      let on := s.domOn 29 = true ∧ s.domOn 25 = true
      (¬ free → ∃ t, exec (.jnStart m) s = .next t ∧ bit (t.reg 0x04F00004) 0 = true ∧ onlyRegs s t [] ∧ t.jnState = s.jnState) ∧
      (free → ¬ on → exec (.jnStart m) s = .next s) ∧
      (free → on → ∃ t, exec (.jnStart m) s = .next t ∧ t.jnState = 1 ∧ t.jn.session = (s.jn.session + 1) % 65536 ∧ t.jn.holdFrom = s.time ∧
        t.jn.recs = [] ∧ t.reg 0x04F00034 = 0#32 ∧ t.reg 0x04F00038 = 0#32 ∧
        ∀ g f, s.ringFn g = some f → s.recFn f = true → (s.ring g).typ = 1 → (s.ring g).st = 1 ∨ (s.ring g).st = 2 →
          (t.ring g).st = 3 ∧ ((t.ring g).jnHold = true ∨ (t.ring g).heldBlock = true)) ∧
      (s.jnState = 1 → ∃ t, exec (.jnStop m) s = .next t ∧ t.jnState = 6) ∧
      (s.jnState = 2 ∨ s.jnState = 3 → s.jn.samples = [] → ∃ t, exec (.jnStop m) s = .next t ∧ t.jnState = 6 ∧
        ∃ r ∈ t.jn.recs, r.type = 5 ∧ r.srcid = 0 ∧ r.at_ = s.time) ∧
      (s.jnState ≠ 1 → s.jnState ≠ 2 → s.jnState ≠ 3 → exec (.jnStop m) s = .next s)) ∧
    (let quiet := s.jnState = 1 ∧ s.jnQuiet = true
     (¬ quiet → exec .quietReached s = .next s) ∧
     (quiet → ∃ t, exec .quietReached s = .next t ∧ t.jnState = 2 ∧ (t.jn.recs.map JRec.type).take 2 = [1, 3] ∧ t.jn.base = s.time ∧
       t = { s with regs := t.regs, jn := t.jn })) ∧
    (let late := s.jnState = 1 ∧ s.jn.holdFrom + bitsOf (s.reg 0x04F00008) 31 24 * 1200000 ≤ s.time
     (¬ late → exec .quietTimeout s = .next s) ∧
     (late → ∃ t, exec .quietTimeout s = .next t ∧ t.jnState = 6 ∧ bit (t.reg 0x04F00004) 3 = true)) ∧
    (s.jnState ≠ 2 → exec .checkpointDone s = .next s) ∧
    (s.jnState = 2 → ∃ t, exec .checkpointDone s = .next t ∧ t.jnState = 3 ∧ t.jn = s.jn) ∧
    (let dry := s.jnState = 5 ∧ s.replayDry = true
     (¬ dry → exec .replayStall s = .next s) ∧ (dry → exec .replayStall s = .next { s with jn := { s.jn with stalled := true } })) ∧
    (∀ why : ReplayEndWhy,
      let front := fun (n : Nat) => ∃ r rs, s.jn.recs = r :: rs ∧ r.type = n ∧ r.at_ ≤ s.time
      let due := s.jnState = 5 ∧ (match why with | .endRecord => front 5 | .gap => front 4 | .stop => s.jn.stopReq = true)
      (¬ due → exec (.replayEnd why) s = .next s) ∧ (due → exec (.replayEnd why) s = .next s.replayFinish))

/-- R330, R497, R498: the window drains into PF0's journal ring with PROD after it, a record that is read with poison leaves it as
DAMAGED, and CONS is read where the ring has no space, or every
100 microseconds; the count that the other party wrote is taken where it lies between what was taken and what was written, and is
reported otherwise; a read that times out is counted and made again; in a replay the ring's bytes come in, and CONS is written. -/
def Obligations.JournalRingCarriesTheWindow : Prop :=
  ∀ (s : State),
    let st := s.jnState
    (let due := (st = 2 ∨ st = 3 ∨ st = 6) ∧ s.jn.recs ≠ [] ∧ s.jnDue = true
     let f := s.jnFetch
     let p := takeRecs f (f.jnSize - (f.jn.prod - f.jn.cons)) f.jn.base f.jn.recs
     let prod := f.jn.prod + p.2.length
     (¬ due → exec .prodAnnounce s = .next s) ∧
     (due → s.jnDest ≠ 2 → s.jnDest ≠ 1 ∨ s.jnLink = false → exec .prodAnnounce s = .next s) ∧
     (due → s.jnDest = 1 → s.jnLink = true →
       (p.1 = [] → exec .prodAnnounce s = .next { f with out := f.out ++ [.hostRead 0 (f.jnCtl + 8) 8] }) ∧
       (p.1 ≠ [] → ∃ t, exec .prodAnnounce s = .next t ∧ t = { f with jn := t.jn, out := t.out } ∧ t.jn.prod = prod ∧
         t.jn.recs = f.jn.recs.drop p.1.length ∧ t.out.getLast? = some (.hostWrite 0 f.jnCtl (leBytes 8 prod) false false)) ∧
       ((∀ r ∈ s.jn.recs, r.mark.getD .ok = .ok) → f = s) ∧
       (∀ r ∈ p.1, (r.mark.getD .ok).bad = true → r.damaged = true))) ∧
    (∀ res : HostResult,
      let replay := st = 4 ∨ st = 5
      let busy := (st = 2 ∨ st = 3 ∨ (st = 6 ∧ s.jn.recs ≠ [])) ∧ s.jnDest = 1
      let due := (replay ∨ busy) ∧ s.jnLink = true ∧ s.jn.pollAt ≤ s.live
      let asks := fun (t : State) => t.jn.pollAt = s.live + 120000 ∧
        t.out = s.out ++ [.hostRead 0 (s.jnCtl + (if st = 4 ∨ st = 5 then 0 else 8)) 8] ∧ t = { s with jn := t.jn, out := t.out, reports := t.reports }
      (¬ due → exec (.consPoll res) s = .next s) ∧
      (due → ∃ t, exec (.consPoll res) s = .next t ∧ asks t ∧
        (∀ d, res = .ok d → let v := leNat (d.take 8)
          let takes := if st = 4 ∨ st = 5 then s.jn.cons ≤ v ∧ v ≤ s.jn.cons + s.jnSize else v ≤ s.jn.prod ∧ s.jn.cons ≤ v
          (takes → (if st = 4 ∨ st = 5 then t.jn.prod = v ∧ t.jn.cons = s.jn.cons else t.jn.cons = v ∧ t.jn.prod = s.jn.prod) ∧ t.reports = s.reports) ∧
          (¬ takes → t.jn.prod = s.jn.prod ∧ t.jn.cons = s.jn.cons ∧ t.reports.length = s.reports.length + 1)) ∧
        ((∀ d, res ≠ .ok d) → t.jn.prod = s.jn.prod ∧ t.jn.cons = s.jn.cons ∧ t.reports.length = s.reports.length + 1))) ∧
    (∀ res : HostResult,
      let o := s.jn.cons % s.jnSize
      let n := min (min (s.jn.prod - s.jn.cons) (winSize - (s.winUsed + s.jn.bytesIn.length))) (min 4096 (s.jnSize - o))
      let due := (st = 4 ∨ st = 5) ∧ s.jnLink = true ∧ n ≠ 0
      let asked := { s with out := s.out ++ [.hostRead 0 (s.jnBase + o) n] }
      (¬ due → exec (.journalRingRead res) s = .next s) ∧
      (due → (∀ d, res ≠ .ok d) → res ≠ .timeout → exec (.journalRingRead res) s = .next asked) ∧
      (due → res = .timeout → st = 4 → s.mode ≠ 0xA → ∃ t, exec (.journalRingRead res) s = .next t ∧ t.out = asked.out ∧ t.jn.cons = s.jn.cons ∧
        t.reg 0x04000014 = satInc (s.reg 0x04000014) ∧ bit (t.reg 0x04000004) 2 = true) ∧
      (due → ∀ d, res = .ok d →
        let c := s.jn.cons + (d.take n).length
        let u : State := { asked with jn := { s.jn with cons := c, bytesIn := s.jn.bytesIn ++ d.take n },
                                      out := asked.out ++ [.hostWrite 0 (s.jnCtl + 8) (leBytes 8 c) false false] }
        exec (.journalRingRead res) s = .next (u.loadBytes (u.jn.bytesIn.length / 8 + 1)).loadReady))

/-- R9, R13, R22, R27, R171, R219: an access to a register by a core or debug that is refused has no effect but its error and
reports; a write that is performed has the register's own effect: its RW bits take the data, its RW1C bits clear where the data is
1, a reserved value leaves its field and sets CFGERR; a read returns the register's value. A host function reaches its own views
through BAR0 in whole aligned words, its MSI-X table in accesses of 4 or 8 bytes, and its doorbells. -/
def Obligations.RegisterAccesses : Prop :=
  ∀ (s : State) (addr : Word) (n : Nat) (v : Word),
    let w := alignDown addr.toNat 4
    let write := fun (m : Master) => exec (.registerWrite m addr n (.write v)) s
    let read := fun (m : Master) => exec (.registerWrite m addr n .read) s
    (∀ m : Master, m = .pommel ∨ m = .cantle ∨ m = .debug → scStoreAddr addr.toNat = false →
      (s.regRight m w true = .refused ∨ s.regRight m w true = .reins → ∃ t, write m = .next t ∧ refusedOnly s t) ∧
      (s.regRight m w false = .refused → ∃ t, read m = .next t ∧ refusedOnly s t) ∧
      (s.regRight m w true = .may → s.staRefused m w = true → ∃ t, write m = .next t ∧ refusedOnly s t) ∧
      (s.regRight m w true = .may → s.staRefused m w = false → ∃ u : State, onlyRegs s u [] ∧ write m = .next (u.regStore m w v)) ∧
      (∀ p ∈ [(0x04000004, 0x04000004), (0x04000010, 0x04000004), (0x04400008, 0x04400004), (0x04400010, 0x04400004), (0x04400014, 0x04400004),
          (0x04300204, 0x04300004), (0x04900008, 0x04900004), (0x04C0000C, 0x04C00004)], w = p.1 →
        ∃ d, regDesc w = some d ∧ d.has w = true ∧
          (s.regRight m w true = .may → d.illegal v = false → ∃ t, write m = .next t ∧ t.reg w = d.merged (s.reg w) v ∧ onlyRegs s t [w]) ∧
          (s.regRight m w true = .may → d.illegal v = true → ∃ t, write m = .next t ∧ bit (t.reg p.2) 0 = true ∧ onlyRegs s t [w, p.2]) ∧
          (s.regRight m w false = .may → ∃ t, read m = .next t ∧ t.out = s.out ++ [.readData m.id (leBytes 4 (s.regValue m.id w).toNat)] ∧
            t = { s with out := t.out })) ∧
      (w = 0x04000014 → s.regRight m w false = .may → ∃ t, read m = .next t ∧ t.reg w = 0#32 ∧
        t.out = s.out ++ [.readData m.id (leBytes 4 (s.regValue m.id w).toNat)] ∧ onlyRegs { s with out := t.out } t [w])) ∧
    (∀ f : Fn, s.jnState ≠ 5 →
      let off := addr.toNat
      let h := Master.host f
      let a := bar0Reg f.val w
      let e := 0x04100004 + 0x10000 * f.val
      let answers := s.bar0Answers f.val (0x04100000 + 0x10000 * f.val) = true
      (off < 0x10000 →
        (s.regRight h a true = .refused → ∃ t, write h = .next t ∧ refusedOnly s t) ∧
        (s.regRight h a false = .refused → ∃ t, read h = .next t ∧ refusedOnly s t) ∧
        (s.regRight h a true = .resetting → write h = .next s) ∧
        (s.regRight h a true = .may → n = 4 → off % 4 = 0 → ∃ u : State, onlyRegs s u [] ∧ write h = .next (u.regStore h a v)) ∧
        (s.regRight h a true = .may → n ≠ 4 ∨ off % 4 ≠ 0 → ∃ t, write h = .next t ∧ bit (t.reg e) 0 = true ∧ onlyRegs s t [e]) ∧
        (s.regRight h a false = .may → 1 ≤ n → off % 4 + n ≤ 4 → read h =
          .next ((s.regLoad h a).1.emit (.readData h.id (leBytes n ((s.regLoad h a).2.toNat / 2 ^ (8 * (off % 4))))))) ∧
        (s.regRight h a false = .may → 4 < off % 4 + n → ∃ t, read h = .next t ∧ bit (t.reg e) 0 = true ∧
          t.out = s.out ++ [.readData h.id (leBytes n 0)])) ∧
      (0x10000 ≤ off → off < 0x14000 → n = 4 → off % 4 = 0 → answers → (s.fn f.val).resetAt = none →
        let i := (off - 0x10000) / 4
        (i / 4 < (s.fn f.val).vectors → write h = .next (s.setMsixWord f.val i (v &&& msixMask i))) ∧
        ((s.fn f.val).vectors ≤ i / 4 → write h = .next s)) ∧
      (∀ q : Quad, 0x10000 ≤ off → off < 0x14000 → off % 8 = 0 → answers → (s.fn f.val).resetAt = none →
        let i := (off - 0x10000) / 4
        i / 4 < (s.fn f.val).vectors → exec (.registerWrite h addr 8 (.writeQuad q)) s =
          .next ((s.setMsixWord f.val i (q.setWidth 32 &&& msixMask i)).setMsixWord f.val (i + 1) ((q >>> 32).setWidth 32 &&& msixMask (i + 1)))) ∧
      (∀ i : Fin 4096, off = 0x20000 + 8 * i.val → n = 4 ∨ n = 8 → write h = exec (.doorbell f i) s))
end

