-- ==== Sys2Proof/Laws/Map.lean ====
section
/-! SUPPORT. Laws of the sparse tables: reading after writing, and the canonical form. -/

namespace Sys2Proof.Machine

variable {α : Type}

@[simp] theorem SMap.get_nil (d : α) (k : Nat) : SMap.get d [] k = d := rfl

theorem SMap.get_del_self (d : α) (m : SMap α) (k : Nat) : SMap.get d (SMap.del m k) k = d := by
  induction m with
  | nil => rfl
  | cons e m ih =>
    obtain ⟨j, a⟩ := e
    by_cases h : j = k
    · simp [SMap.del, h, ih]
    · simp [SMap.del, SMap.get, h, ih]

theorem SMap.get_del_other (d : α) (m : SMap α) {k j : Nat} (h : j ≠ k) : SMap.get d (SMap.del m k) j = SMap.get d m j := by
  induction m with
  | nil => rfl
  | cons e m ih =>
    obtain ⟨i, a⟩ := e
    by_cases hi : i = k
    · subst hi
      simp [SMap.del, SMap.get, ih, Ne.symm h]
    · simp [SMap.del, SMap.get, hi, ih]

theorem SMap.get_ins (d : α) (m : SMap α) (k j : Nat) (a : α) :
    SMap.get d (SMap.ins (SMap.del m k) k a) j = if j = k then a else SMap.get d m j := by
  induction m with
  | nil =>
    by_cases hj : k = j
    · simp [SMap.del, SMap.ins, SMap.get, hj]
    · simp [SMap.del, SMap.ins, SMap.get, hj, Ne.symm hj]
  | cons e m ih =>
    obtain ⟨i, b⟩ := e
    by_cases hi : i = k
    · subst hi
      by_cases hj : j = i
      · subst hj
        simpa [SMap.del] using ih
      · simp [SMap.del, SMap.get, ih, hj, Ne.symm hj]
    · by_cases hk : k < i
      · by_cases hj : j = k
        · simp [SMap.del, SMap.ins, SMap.get, hi, hk, hj]
        · have hd := SMap.get_del_other d m hj
          simp [SMap.del, SMap.ins, SMap.get, hi, hk, hj, Ne.symm hj, hd]
      · by_cases hj : j = k
        · subst hj
          simp [SMap.del, SMap.ins, SMap.get, hi, hk, ih]
        · simp [SMap.del, SMap.ins, SMap.get, hi, hk, ih, hj]

/-- A read after a write: the written value at that number, the old one everywhere else. -/
theorem SMap.get_set [DecidableEq α] (d : α) (m : SMap α) (k j : Nat) (a : α) :
    SMap.get d (SMap.set d m k a) j = if j = k then a else SMap.get d m j := by
  unfold SMap.set
  by_cases h : a = d
  · by_cases hj : j = k
    · subst hj
      simp [h, SMap.get_del_self]
    · simp [h, hj, SMap.get_del_other d m hj]
  · simp only [h, if_false]
    exact SMap.get_ins d m k j a

@[simp] theorem SMap.get_set_self [DecidableEq α] (d : α) (m : SMap α) (k : Nat) (a : α) :
    SMap.get d (SMap.set d m k a) k = a := by simp [SMap.get_set]

theorem SMap.get_set_other [DecidableEq α] (d : α) (m : SMap α) {k j : Nat} (a : α) (h : j ≠ k) :
    SMap.get d (SMap.set d m k a) j = SMap.get d m j := by simp [SMap.get_set, h]

/-- The same where what an unlisted number holds depends on the number: other numbers read as before. -/
theorem SMap.get_set_ne [DecidableEq α] (d e : α) (m : SMap α) {k j : Nat} (a : α) (h : j ≠ k) :
    SMap.get d (SMap.set e m k a) j = SMap.get d m j := by
  unfold SMap.set
  by_cases ha : a = e
  · simp [ha, SMap.get_del_other d m h]
  · simp only [ha, if_false]
    rw [SMap.get_ins, if_neg h]

/-! ## The canonical form -/

variable [DecidableEq α]

/-- The canonical form: numbers rise strictly and no entry holds what an unlisted number holds. -/
theorem SMap.wf_iff (d : Nat → α) (m : SMap α) :
    SMap.wf d m = true ↔ m.Pairwise (fun x y => x.1 < y.1) ∧ ∀ e ∈ m, e.2 ≠ d e.1 := by
  induction m with
  | nil => simp [SMap.wf]
  | cons e m ih =>
    obtain ⟨k, a⟩ := e
    cases m with
    | nil => simp [SMap.wf]
    | cons f m =>
      obtain ⟨j, b⟩ := f
      simp only [SMap.wf, Bool.and_eq_true, decide_eq_true_eq, ih]
      constructor
      · rintro ⟨⟨ha, hk⟩, hp, hd⟩
        refine ⟨List.pairwise_cons.2 ⟨fun x hx => ?_, hp⟩, ?_⟩
        · rcases List.mem_cons.1 hx with rfl | hx
          · exact hk
          · exact lt_trans hk ((List.pairwise_cons.1 hp).1 x hx)
        · intro x hx
          rcases List.mem_cons.1 hx with rfl | hx
          · exact ha
          · exact hd x hx
      · rintro ⟨hp, hd⟩
        exact ⟨⟨hd (k, a) (by simp), (List.pairwise_cons.1 hp).1 (j, b) (by simp)⟩, (List.pairwise_cons.1 hp).2,
          fun x hx => hd x (List.mem_cons_of_mem _ hx)⟩

theorem SMap.del_eq_filter (m : SMap α) (k : Nat) : SMap.del m k = m.filter (fun e => decide (e.1 ≠ k)) := by
  induction m with
  | nil => rfl
  | cons e m ih =>
    obtain ⟨j, a⟩ := e
    by_cases h : j = k <;> simp [SMap.del, h, ih]

theorem SMap.keep_eq_filter (p : Nat → Bool) (m : SMap α) : SMap.keep p m = m.filter (fun e => p e.1) := by
  induction m with
  | nil => rfl
  | cons e m ih =>
    obtain ⟨j, a⟩ := e
    by_cases h : p j <;> simp [SMap.keep, h, ih]

/-- Leaving out entries keeps the canonical form. -/
theorem SMap.wf_filter {d : Nat → α} {m : SMap α} (p : Nat × α → Bool) (h : SMap.wf d m = true) : SMap.wf d (m.filter p) = true := by
  rw [SMap.wf_iff] at h ⊢
  exact ⟨h.1.filter _, fun e he => h.2 e (List.mem_of_mem_filter he)⟩

theorem SMap.wf_del {d : Nat → α} {m : SMap α} (k : Nat) (h : SMap.wf d m = true) : SMap.wf d (SMap.del m k) = true := by
  rw [SMap.del_eq_filter]
  exact SMap.wf_filter _ h

theorem SMap.wf_keep {d : Nat → α} {m : SMap α} (p : Nat → Bool) (h : SMap.wf d m = true) : SMap.wf d (SMap.keep p m) = true := by
  rw [SMap.keep_eq_filter]
  exact SMap.wf_filter _ h

theorem SMap.mem_ins {m : SMap α} {k : Nat} {a : α} {e : Nat × α} (h : e ∈ SMap.ins m k a) : e = (k, a) ∨ e ∈ m := by
  induction m with
  | nil => simpa [SMap.ins] using h
  | cons f m ih =>
    obtain ⟨j, b⟩ := f
    by_cases hk : k < j
    · simpa [SMap.ins, hk] using h
    · simp only [SMap.ins, hk, if_false, List.mem_cons] at h ⊢
      rcases h with h | h
      · exact .inr (.inl h)
      · rcases ih h with h | h
        · exact .inl h
        · exact .inr (.inr h)

theorem SMap.wf_ins {d : Nat → α} {m : SMap α} {k : Nat} {a : α} (h : SMap.wf d m = true) (hk : ∀ e ∈ m, e.1 ≠ k)
    (ha : a ≠ d k) : SMap.wf d (SMap.ins m k a) = true := by
  rw [SMap.wf_iff] at h ⊢
  induction m with
  | nil => simpa [SMap.ins] using ha
  | cons f m ih =>
    obtain ⟨j, b⟩ := f
    obtain ⟨hp, hd⟩ := h
    obtain ⟨hj, hp⟩ := List.pairwise_cons.1 hp
    by_cases hlt : k < j
    · refine ⟨?_, ?_⟩
      · simp only [SMap.ins, hlt, if_true]
        refine List.pairwise_cons.2 ⟨fun x hx => ?_, List.pairwise_cons.2 ⟨hj, hp⟩⟩
        rcases List.mem_cons.1 hx with rfl | hx
        · exact hlt
        · exact lt_trans hlt (hj x hx)
      · intro e he
        simp only [SMap.ins, hlt, if_true] at he
        rcases List.mem_cons.1 he with rfl | he
        · exact ha
        · exact hd e he
    · have hkj : j < k := lt_of_le_of_ne (Nat.le_of_not_lt hlt) (hk (j, b) (by simp))
      have h2 := ih ⟨hp, fun e he => hd e (List.mem_cons_of_mem _ he)⟩ (fun e he => hk e (List.mem_cons_of_mem _ he))
      simp only [SMap.ins, hlt, if_false]
      refine ⟨List.pairwise_cons.2 ⟨fun x hx => ?_, h2.1⟩, ?_⟩
      · rcases SMap.mem_ins hx with rfl | hx
        · exact hkj
        · exact hj x hx
      · intro e he
        rcases List.mem_cons.1 he with rfl | he
        · exact hd (j, b) (by simp)
        · exact h2.2 e he

/-- A write keeps the canonical form. -/
theorem SMap.wf_set {d : Nat → α} {m : SMap α} (k : Nat) (a : α) (h : SMap.wf d m = true) :
    SMap.wf d (SMap.set (d k) m k a) = true := by
  unfold SMap.set
  by_cases ha : a = d k
  · simpa [ha] using SMap.wf_del k h
  · simp only [ha, if_false]
    refine SMap.wf_ins (SMap.wf_del k h) (fun e he => ?_) ha
    rw [SMap.del_eq_filter] at he
    simpa using (List.mem_filter.1 he).2

/-- A listed entry of a canonical table is what the table holds at its number. -/
theorem SMap.get_of_mem {d : α} {m : SMap α} (h : SMap.wf (fun _ => d) m = true) {e : Nat × α} (he : e ∈ m) :
    SMap.get d m e.1 = e.2 := by
  induction m with
  | nil => simp at he
  | cons f m ih =>
    obtain ⟨j, b⟩ := f
    have h' := (SMap.wf_iff _ _).1 h
    obtain ⟨hj, hp⟩ := List.pairwise_cons.1 h'.1
    rcases List.mem_cons.1 he with rfl | hm
    · simp [SMap.get]
    · have : j ≠ e.1 := ne_of_lt (hj e hm)
      simp only [SMap.get, this, if_false]
      exact ih ((SMap.wf_iff _ _).2 ⟨hp, fun x hx => h'.2 x (List.mem_cons_of_mem _ hx)⟩) hm

end Sys2Proof.Machine
end

