-- ==== Sys2Proof/Laws/State.lean ====
section
/-! SUPPORT. One lemma per field per update of the state: what an update leaves alone, and what a read after it gives. -/

namespace Sys2Proof.Machine

/-! ## State.setReg -/

@[simp] theorem State.setReg_pending (s : State) (a : Nat) (v : Word) : (s.setReg a v).pending = s.pending := rfl
@[simp] theorem State.setReg_time (s : State) (a : Nat) (v : Word) : (s.setReg a v).time = s.time := rfl
@[simp] theorem State.setReg_prevTime (s : State) (a : Nat) (v : Word) : (s.setReg a v).prevTime = s.prevTime := rfl
@[simp] theorem State.setReg_tickStep (s : State) (a : Nat) (v : Word) : (s.setReg a v).tickStep = s.tickStep := rfl
@[simp] theorem State.setReg_launched (s : State) (a : Nat) (v : Word) : (s.setReg a v).launched = s.launched := rfl
@[simp] theorem State.setReg_scanNext (s : State) (a : Nat) (v : Word) : (s.setReg a v).scanNext = s.scanNext := rfl
@[simp] theorem State.setReg_pausedAt (s : State) (a : Nat) (v : Word) : (s.setReg a v).pausedAt = s.pausedAt := rfl
@[simp] theorem State.setReg_cl (s : State) (a : Nat) (v : Word) : (s.setReg a v).cl = s.cl := rfl
@[simp] theorem State.setReg_subsys (s : State) (a : Nat) (v : Word) : (s.setReg a v).subsys = s.subsys := rfl
@[simp] theorem State.setReg_safeMark (s : State) (a : Nat) (v : Word) : (s.setReg a v).safeMark = s.safeMark := rfl
@[simp] theorem State.setReg_tickAon (s : State) (a : Nat) (v : Word) : (s.setReg a v).tickAon = s.tickAon := rfl
@[simp] theorem State.setReg_clkReq (s : State) (a : Nat) (v : Word) : (s.setReg a v).clkReq = s.clkReq := rfl
@[simp] theorem State.setReg_freeCtr (s : State) (a : Nat) (v : Word) : (s.setReg a v).freeCtr = s.freeCtr := rfl
@[simp] theorem State.setReg_seq (s : State) (a : Nat) (v : Word) : (s.setReg a v).seq = s.seq := rfl
@[simp] theorem State.setReg_out (s : State) (a : Nat) (v : Word) : (s.setReg a v).out = s.out := rfl
@[simp] theorem State.setReg_mem (s : State) (a : Nat) (v : Word) : (s.setReg a v).mem = s.mem := rfl
@[simp] theorem State.setReg_ecc (s : State) (a : Nat) (v : Word) : (s.setReg a v).ecc = s.ecc := rfl
@[simp] theorem State.setReg_slots (s : State) (a : Nat) (v : Word) : (s.setReg a v).slots = s.slots := rfl
@[simp] theorem State.setReg_stopped (s : State) (a : Nat) (v : Word) : (s.setReg a v).stopped = s.stopped := rfl
@[simp] theorem State.setReg_weir (s : State) (a : Nat) (v : Word) : (s.setReg a v).weir = s.weir := rfl
@[simp] theorem State.setReg_ceaWeir (s : State) (a : Nat) (v : Word) : (s.setReg a v).ceaWeir = s.ceaWeir := rfl
@[simp] theorem State.setReg_cea (s : State) (a : Nat) (v : Word) : (s.setReg a v).cea = s.cea := rfl
@[simp] theorem State.setReg_rings (s : State) (a : Nat) (v : Word) : (s.setReg a v).rings = s.rings := rfl
@[simp] theorem State.setReg_srcs (s : State) (a : Nat) (v : Word) : (s.setReg a v).srcs = s.srcs := rfl
@[simp] theorem State.setReg_launches (s : State) (a : Nat) (v : Word) : (s.setReg a v).launches = s.launches := rfl
@[simp] theorem State.setReg_lanes (s : State) (a : Nat) (v : Word) : (s.setReg a v).lanes = s.lanes := rfl
@[simp] theorem State.setReg_stations (s : State) (a : Nat) (v : Word) : (s.setReg a v).stations = s.stations := rfl
@[simp] theorem State.setReg_fifos (s : State) (a : Nat) (v : Word) : (s.setReg a v).fifos = s.fifos := rfl
@[simp] theorem State.setReg_fns (s : State) (a : Nat) (v : Word) : (s.setReg a v).fns = s.fns := rfl
@[simp] theorem State.setReg_tunnel (s : State) (a : Nat) (v : Word) : (s.setReg a v).tunnel = s.tunnel := rfl
@[simp] theorem State.setReg_cores (s : State) (a : Nat) (v : Word) : (s.setReg a v).cores = s.cores := rfl
@[simp] theorem State.setReg_shapeQ (s : State) (a : Nat) (v : Word) : (s.setReg a v).shapeQ = s.shapeQ := rfl
@[simp] theorem State.setReg_reports (s : State) (a : Nat) (v : Word) : (s.setReg a v).reports = s.reports := rfl
@[simp] theorem State.setReg_irqs (s : State) (a : Nat) (v : Word) : (s.setReg a v).irqs = s.irqs := rfl
@[simp] theorem State.setReg_doms (s : State) (a : Nat) (v : Word) : (s.setReg a v).doms = s.doms := rfl
@[simp] theorem State.setReg_mode (s : State) (a : Nat) (v : Word) : (s.setReg a v).mode = s.mode := rfl
@[simp] theorem State.setReg_merge (s : State) (a : Nat) (v : Word) : (s.setReg a v).merge = s.merge := rfl
@[simp] theorem State.setReg_ceList (s : State) (a : Nat) (v : Word) : (s.setReg a v).ceList = s.ceList := rfl
@[simp] theorem State.setReg_remap (s : State) (a : Nat) (v : Word) : (s.setReg a v).remap = s.remap := rfl
@[simp] theorem State.setReg_held (s : State) (a : Nat) (v : Word) : (s.setReg a v).held = s.held := rfl
@[simp] theorem State.setReg_downReq (s : State) (a : Nat) (v : Word) : (s.setReg a v).downReq = s.downReq := rfl
@[simp] theorem State.setReg_staging (s : State) (a : Nat) (v : Word) : (s.setReg a v).staging = s.staging := rfl
@[simp] theorem State.setReg_sleepReqs (s : State) (a : Nat) (v : Word) : (s.setReg a v).sleepReqs = s.sleepReqs := rfl
@[simp] theorem State.setReg_safen (s : State) (a : Nat) (v : Word) : (s.setReg a v).safen = s.safen := rfl
@[simp] theorem State.setReg_aonArmed (s : State) (a : Nat) (v : Word) : (s.setReg a v).aonArmed = s.aonArmed := rfl
@[simp] theorem State.setReg_fuses (s : State) (a : Nat) (v : Word) : (s.setReg a v).fuses = s.fuses := rfl
@[simp] theorem State.setReg_boxes (s : State) (a : Nat) (v : Word) : (s.setReg a v).boxes = s.boxes := rfl
@[simp] theorem State.setReg_debugErr (s : State) (a : Nat) (v : Word) : (s.setReg a v).debugErr = s.debugErr := rfl
@[simp] theorem State.setReg_jn (s : State) (a : Nat) (v : Word) : (s.setReg a v).jn = s.jn := rfl
@[simp] theorem State.setReg_dict (s : State) (a : Nat) (v : Word) : (s.setReg a v).dict = s.dict := rfl
@[simp] theorem State.setReg_phReset (s : State) (a : Nat) (v : Word) : (s.setReg a v).phReset = s.phReset := rfl
@[simp] theorem State.setReg_ptmLast (s : State) (a : Nat) (v : Word) : (s.setReg a v).ptmLast = s.ptmLast := rfl
@[simp] theorem State.setReg_ptmOpen (s : State) (a : Nat) (v : Word) : (s.setReg a v).ptmOpen = s.ptmOpen := rfl
@[simp] theorem State.setReg_pommelUp (s : State) (a : Nat) (v : Word) : (s.setReg a v).pommelUp = s.pommelUp := rfl
@[simp] theorem State.setReg_cantleUp (s : State) (a : Nat) (v : Word) : (s.setReg a v).cantleUp = s.cantleUp := rfl
@[simp] theorem State.setReg_commits (s : State) (a : Nat) (v : Word) : (s.setReg a v).commits = s.commits := rfl
@[simp] theorem State.setReg_opens (s : State) (a : Nat) (v : Word) : (s.setReg a v).opens = s.opens := rfl
@[simp] theorem State.setReg_loose (s : State) (a : Nat) (v : Word) : (s.setReg a v).loose = s.loose := rfl
@[simp] theorem State.setReg_shadows (s : State) (a : Nat) (v : Word) : (s.setReg a v).shadows = s.shadows := rfl
@[simp] theorem State.setReg_conds (s : State) (a : Nat) (v : Word) : (s.setReg a v).conds = s.conds := rfl
@[simp] theorem State.setReg_counted (s : State) (a : Nat) (v : Word) : (s.setReg a v).counted = s.counted := rfl
@[simp] theorem State.setReg_ftReact (s : State) (a : Nat) (v : Word) : (s.setReg a v).ftReact = s.ftReact := rfl
@[simp] theorem State.setReg_ftHeld (s : State) (a : Nat) (v : Word) : (s.setReg a v).ftHeld = s.ftHeld := rfl
@[simp] theorem State.setReg_faultN (s : State) (a : Nat) (v : Word) : (s.setReg a v).faultN = s.faultN := rfl
@[simp] theorem State.setReg_kickC (s : State) (a : Nat) (v : Word) : (s.setReg a v).kickC = s.kickC := rfl
@[simp] theorem State.setReg_kickP (s : State) (a : Nat) (v : Word) : (s.setReg a v).kickP = s.kickP := rfl
@[simp] theorem State.setReg_relC (s : State) (a : Nat) (v : Word) : (s.setReg a v).relC = s.relC := rfl
@[simp] theorem State.setReg_relP (s : State) (a : Nat) (v : Word) : (s.setReg a v).relP = s.relP := rfl
@[simp] theorem State.setReg_trans (s : State) (a : Nat) (v : Word) : (s.setReg a v).trans = s.trans := rfl
@[simp] theorem State.setReg_prep (s : State) (a : Nat) (v : Word) : (s.setReg a v).prep = s.prep := rfl
@[simp] theorem State.setReg_waken (s : State) (a : Nat) (v : Word) : (s.setReg a v).waken = s.waken := rfl
@[simp] theorem State.setReg_timerArm (s : State) (a : Nat) (v : Word) : (s.setReg a v).timerArm = s.timerArm := rfl
@[simp] theorem State.setReg_pll (s : State) (a : Nat) (v : Word) : (s.setReg a v).pll = s.pll := rfl
@[simp] theorem State.setReg_conn (s : State) (a : Nat) (v : Word) : (s.setReg a v).conn = s.conn := rfl
@[simp] theorem State.setReg_patrolAt (s : State) (a : Nat) (v : Word) : (s.setReg a v).patrolAt = s.patrolAt := rfl
@[simp] theorem State.setReg_patrol (s : State) (a : Nat) (v : Word) : (s.setReg a v).patrol = s.patrol := rfl
@[simp] theorem State.setReg_saved (s : State) (a : Nat) (v : Word) : (s.setReg a v).saved = s.saved := rfl
@[simp] theorem State.setReg_porn (s : State) (a : Nat) (v : Word) : (s.setReg a v).porn = s.porn := rfl
@[simp] theorem State.setReg_badRails (s : State) (a : Nat) (v : Word) : (s.setReg a v).badRails = s.badRails := rfl
@[simp] theorem State.setReg_crReset (s : State) (a : Nat) (v : Word) : (s.setReg a v).crReset = s.crReset := rfl
@[simp] theorem State.setReg_warmRun (s : State) (a : Nat) (v : Word) : (s.setReg a v).warmRun = s.warmRun := rfl
@[simp] theorem State.setReg_bistRun (s : State) (a : Nat) (v : Word) : (s.setReg a v).bistRun = s.bistRun := rfl
@[simp] theorem State.setReg_scrubSeen (s : State) (a : Nat) (v : Word) : (s.setReg a v).scrubSeen = s.scrubSeen := rfl
@[simp] theorem State.setReg_loader (s : State) (a : Nat) (v : Word) : (s.setReg a v).loader = s.loader := rfl
@[simp] theorem State.setReg_cImg (s : State) (a : Nat) (v : Word) : (s.setReg a v).cImg = s.cImg := rfl
@[simp] theorem State.setReg_pImg (s : State) (a : Nat) (v : Word) : (s.setReg a v).pImg = s.pImg := rfl
@[simp] theorem State.setReg_startC (s : State) (a : Nat) (v : Word) : (s.setReg a v).startC = s.startC := rfl
@[simp] theorem State.setReg_startP (s : State) (a : Nat) (v : Word) : (s.setReg a v).startP = s.startP := rfl
@[simp] theorem State.setReg_phPhase (s : State) (a : Nat) (v : Word) : (s.setReg a v).phPhase = s.phPhase := rfl
@[simp] theorem State.setReg_logUnread (s : State) (a : Nat) (v : Word) : (s.setReg a v).logUnread = s.logUnread := rfl
@[simp] theorem State.setReg_dreq (s : State) (a : Nat) (v : Word) : (s.setReg a v).dreq = s.dreq := rfl
@[simp] theorem State.setReg_svc (s : State) (a : Nat) (v : Word) : (s.setReg a v).svc = s.svc := rfl
@[simp] theorem State.setReg_wlog (s : State) (a : Nat) (v : Word) : (s.setReg a v).wlog = s.wlog := rfl
@[simp] theorem State.setReg_saveSt (s : State) (a : Nat) (v : Word) : (s.setReg a v).saveSt = s.saveSt := rfl
@[simp] theorem State.setReg_flash (s : State) (a : Nat) (v : Word) : (s.setReg a v).flash = s.flash := rfl
@[simp] theorem State.setReg_stagedC (s : State) (a : Nat) (v : Word) : (s.setReg a v).stagedC = s.stagedC := rfl
@[simp] theorem State.setReg_stagedP (s : State) (a : Nat) (v : Word) : (s.setReg a v).stagedP = s.stagedP := rfl
@[simp] theorem State.setReg_runC (s : State) (a : Nat) (v : Word) : (s.setReg a v).runC = s.runC := rfl
@[simp] theorem State.setReg_runP (s : State) (a : Nat) (v : Word) : (s.setReg a v).runP = s.runP := rfl
@[simp] theorem State.setReg_burn (s : State) (a : Nat) (v : Word) : (s.setReg a v).burn = s.burn := rfl
@[simp] theorem State.setReg_i3cAddr (s : State) (a : Nat) (v : Word) : (s.setReg a v).i3cAddr = s.i3cAddr := rfl
@[simp] theorem State.setReg_i3cReply (s : State) (a : Nat) (v : Word) : (s.setReg a v).i3cReply = s.i3cReply := rfl
@[simp] theorem State.setReg_dbgOn (s : State) (a : Nat) (v : Word) : (s.setReg a v).dbgOn = s.dbgOn := rfl
@[simp] theorem State.setReg_haltC (s : State) (a : Nat) (v : Word) : (s.setReg a v).haltC = s.haltC := rfl
@[simp] theorem State.setReg_haltP (s : State) (a : Nat) (v : Word) : (s.setReg a v).haltP = s.haltP := rfl
@[simp] theorem State.setReg_fwDue (s : State) (a : Nat) (v : Word) : (s.setReg a v).fwDue = s.fwDue := rfl

/-! ## State.irq -/

@[simp] theorem State.irq_pending (s : State) (n : Nat) : (s.irq n).pending = s.pending := rfl
@[simp] theorem State.irq_time (s : State) (n : Nat) : (s.irq n).time = s.time := rfl
@[simp] theorem State.irq_prevTime (s : State) (n : Nat) : (s.irq n).prevTime = s.prevTime := rfl
@[simp] theorem State.irq_tickStep (s : State) (n : Nat) : (s.irq n).tickStep = s.tickStep := rfl
@[simp] theorem State.irq_launched (s : State) (n : Nat) : (s.irq n).launched = s.launched := rfl
@[simp] theorem State.irq_scanNext (s : State) (n : Nat) : (s.irq n).scanNext = s.scanNext := rfl
@[simp] theorem State.irq_pausedAt (s : State) (n : Nat) : (s.irq n).pausedAt = s.pausedAt := rfl
@[simp] theorem State.irq_cl (s : State) (n : Nat) : (s.irq n).cl = s.cl := rfl
@[simp] theorem State.irq_subsys (s : State) (n : Nat) : (s.irq n).subsys = s.subsys := rfl
@[simp] theorem State.irq_safeMark (s : State) (n : Nat) : (s.irq n).safeMark = s.safeMark := rfl
@[simp] theorem State.irq_tickAon (s : State) (n : Nat) : (s.irq n).tickAon = s.tickAon := rfl
@[simp] theorem State.irq_clkReq (s : State) (n : Nat) : (s.irq n).clkReq = s.clkReq := rfl
@[simp] theorem State.irq_freeCtr (s : State) (n : Nat) : (s.irq n).freeCtr = s.freeCtr := rfl
@[simp] theorem State.irq_seq (s : State) (n : Nat) : (s.irq n).seq = s.seq := rfl
@[simp] theorem State.irq_out (s : State) (n : Nat) : (s.irq n).out = s.out := rfl
@[simp] theorem State.irq_regs (s : State) (n : Nat) : (s.irq n).regs = s.regs := rfl
@[simp] theorem State.irq_mem (s : State) (n : Nat) : (s.irq n).mem = s.mem := rfl
@[simp] theorem State.irq_ecc (s : State) (n : Nat) : (s.irq n).ecc = s.ecc := rfl
@[simp] theorem State.irq_slots (s : State) (n : Nat) : (s.irq n).slots = s.slots := rfl
@[simp] theorem State.irq_stopped (s : State) (n : Nat) : (s.irq n).stopped = s.stopped := rfl
@[simp] theorem State.irq_weir (s : State) (n : Nat) : (s.irq n).weir = s.weir := rfl
@[simp] theorem State.irq_ceaWeir (s : State) (n : Nat) : (s.irq n).ceaWeir = s.ceaWeir := rfl
@[simp] theorem State.irq_cea (s : State) (n : Nat) : (s.irq n).cea = s.cea := rfl
@[simp] theorem State.irq_rings (s : State) (n : Nat) : (s.irq n).rings = s.rings := rfl
@[simp] theorem State.irq_srcs (s : State) (n : Nat) : (s.irq n).srcs = s.srcs := rfl
@[simp] theorem State.irq_launches (s : State) (n : Nat) : (s.irq n).launches = s.launches := rfl
@[simp] theorem State.irq_lanes (s : State) (n : Nat) : (s.irq n).lanes = s.lanes := rfl
@[simp] theorem State.irq_stations (s : State) (n : Nat) : (s.irq n).stations = s.stations := rfl
@[simp] theorem State.irq_fifos (s : State) (n : Nat) : (s.irq n).fifos = s.fifos := rfl
@[simp] theorem State.irq_fns (s : State) (n : Nat) : (s.irq n).fns = s.fns := rfl
@[simp] theorem State.irq_tunnel (s : State) (n : Nat) : (s.irq n).tunnel = s.tunnel := rfl
@[simp] theorem State.irq_cores (s : State) (n : Nat) : (s.irq n).cores = s.cores := rfl
@[simp] theorem State.irq_shapeQ (s : State) (n : Nat) : (s.irq n).shapeQ = s.shapeQ := rfl
@[simp] theorem State.irq_reports (s : State) (n : Nat) : (s.irq n).reports = s.reports := rfl
@[simp] theorem State.irq_doms (s : State) (n : Nat) : (s.irq n).doms = s.doms := rfl
@[simp] theorem State.irq_mode (s : State) (n : Nat) : (s.irq n).mode = s.mode := rfl
@[simp] theorem State.irq_merge (s : State) (n : Nat) : (s.irq n).merge = s.merge := rfl
@[simp] theorem State.irq_ceList (s : State) (n : Nat) : (s.irq n).ceList = s.ceList := rfl
@[simp] theorem State.irq_remap (s : State) (n : Nat) : (s.irq n).remap = s.remap := rfl
@[simp] theorem State.irq_held (s : State) (n : Nat) : (s.irq n).held = s.held := rfl
@[simp] theorem State.irq_downReq (s : State) (n : Nat) : (s.irq n).downReq = s.downReq := rfl
@[simp] theorem State.irq_staging (s : State) (n : Nat) : (s.irq n).staging = s.staging := rfl
@[simp] theorem State.irq_sleepReqs (s : State) (n : Nat) : (s.irq n).sleepReqs = s.sleepReqs := rfl
@[simp] theorem State.irq_safen (s : State) (n : Nat) : (s.irq n).safen = s.safen := rfl
@[simp] theorem State.irq_aonArmed (s : State) (n : Nat) : (s.irq n).aonArmed = s.aonArmed := rfl
@[simp] theorem State.irq_fuses (s : State) (n : Nat) : (s.irq n).fuses = s.fuses := rfl
@[simp] theorem State.irq_boxes (s : State) (n : Nat) : (s.irq n).boxes = s.boxes := rfl
@[simp] theorem State.irq_debugErr (s : State) (n : Nat) : (s.irq n).debugErr = s.debugErr := rfl
@[simp] theorem State.irq_jn (s : State) (n : Nat) : (s.irq n).jn = s.jn := rfl
@[simp] theorem State.irq_dict (s : State) (n : Nat) : (s.irq n).dict = s.dict := rfl
@[simp] theorem State.irq_phReset (s : State) (n : Nat) : (s.irq n).phReset = s.phReset := rfl
@[simp] theorem State.irq_ptmLast (s : State) (n : Nat) : (s.irq n).ptmLast = s.ptmLast := rfl
@[simp] theorem State.irq_ptmOpen (s : State) (n : Nat) : (s.irq n).ptmOpen = s.ptmOpen := rfl
@[simp] theorem State.irq_pommelUp (s : State) (n : Nat) : (s.irq n).pommelUp = s.pommelUp := rfl
@[simp] theorem State.irq_cantleUp (s : State) (n : Nat) : (s.irq n).cantleUp = s.cantleUp := rfl
@[simp] theorem State.irq_commits (s : State) (n : Nat) : (s.irq n).commits = s.commits := rfl
@[simp] theorem State.irq_opens (s : State) (n : Nat) : (s.irq n).opens = s.opens := rfl
@[simp] theorem State.irq_loose (s : State) (n : Nat) : (s.irq n).loose = s.loose := rfl
@[simp] theorem State.irq_shadows (s : State) (n : Nat) : (s.irq n).shadows = s.shadows := rfl
@[simp] theorem State.irq_conds (s : State) (n : Nat) : (s.irq n).conds = s.conds := rfl
@[simp] theorem State.irq_counted (s : State) (n : Nat) : (s.irq n).counted = s.counted := rfl
@[simp] theorem State.irq_ftReact (s : State) (n : Nat) : (s.irq n).ftReact = s.ftReact := rfl
@[simp] theorem State.irq_ftHeld (s : State) (n : Nat) : (s.irq n).ftHeld = s.ftHeld := rfl
@[simp] theorem State.irq_faultN (s : State) (n : Nat) : (s.irq n).faultN = s.faultN := rfl
@[simp] theorem State.irq_kickC (s : State) (n : Nat) : (s.irq n).kickC = s.kickC := rfl
@[simp] theorem State.irq_kickP (s : State) (n : Nat) : (s.irq n).kickP = s.kickP := rfl
@[simp] theorem State.irq_relC (s : State) (n : Nat) : (s.irq n).relC = s.relC := rfl
@[simp] theorem State.irq_relP (s : State) (n : Nat) : (s.irq n).relP = s.relP := rfl
@[simp] theorem State.irq_trans (s : State) (n : Nat) : (s.irq n).trans = s.trans := rfl
@[simp] theorem State.irq_prep (s : State) (n : Nat) : (s.irq n).prep = s.prep := rfl
@[simp] theorem State.irq_waken (s : State) (n : Nat) : (s.irq n).waken = s.waken := rfl
@[simp] theorem State.irq_timerArm (s : State) (n : Nat) : (s.irq n).timerArm = s.timerArm := rfl
@[simp] theorem State.irq_pll (s : State) (n : Nat) : (s.irq n).pll = s.pll := rfl
@[simp] theorem State.irq_conn (s : State) (n : Nat) : (s.irq n).conn = s.conn := rfl
@[simp] theorem State.irq_patrolAt (s : State) (n : Nat) : (s.irq n).patrolAt = s.patrolAt := rfl
@[simp] theorem State.irq_patrol (s : State) (n : Nat) : (s.irq n).patrol = s.patrol := rfl
@[simp] theorem State.irq_saved (s : State) (n : Nat) : (s.irq n).saved = s.saved := rfl
@[simp] theorem State.irq_porn (s : State) (n : Nat) : (s.irq n).porn = s.porn := rfl
@[simp] theorem State.irq_badRails (s : State) (n : Nat) : (s.irq n).badRails = s.badRails := rfl
@[simp] theorem State.irq_crReset (s : State) (n : Nat) : (s.irq n).crReset = s.crReset := rfl
@[simp] theorem State.irq_warmRun (s : State) (n : Nat) : (s.irq n).warmRun = s.warmRun := rfl
@[simp] theorem State.irq_bistRun (s : State) (n : Nat) : (s.irq n).bistRun = s.bistRun := rfl
@[simp] theorem State.irq_scrubSeen (s : State) (n : Nat) : (s.irq n).scrubSeen = s.scrubSeen := rfl
@[simp] theorem State.irq_loader (s : State) (n : Nat) : (s.irq n).loader = s.loader := rfl
@[simp] theorem State.irq_cImg (s : State) (n : Nat) : (s.irq n).cImg = s.cImg := rfl
@[simp] theorem State.irq_pImg (s : State) (n : Nat) : (s.irq n).pImg = s.pImg := rfl
@[simp] theorem State.irq_startC (s : State) (n : Nat) : (s.irq n).startC = s.startC := rfl
@[simp] theorem State.irq_startP (s : State) (n : Nat) : (s.irq n).startP = s.startP := rfl
@[simp] theorem State.irq_phPhase (s : State) (n : Nat) : (s.irq n).phPhase = s.phPhase := rfl
@[simp] theorem State.irq_logUnread (s : State) (n : Nat) : (s.irq n).logUnread = s.logUnread := rfl
@[simp] theorem State.irq_dreq (s : State) (n : Nat) : (s.irq n).dreq = s.dreq := rfl
@[simp] theorem State.irq_svc (s : State) (n : Nat) : (s.irq n).svc = s.svc := rfl
@[simp] theorem State.irq_wlog (s : State) (n : Nat) : (s.irq n).wlog = s.wlog := rfl
@[simp] theorem State.irq_saveSt (s : State) (n : Nat) : (s.irq n).saveSt = s.saveSt := rfl
@[simp] theorem State.irq_flash (s : State) (n : Nat) : (s.irq n).flash = s.flash := rfl
@[simp] theorem State.irq_stagedC (s : State) (n : Nat) : (s.irq n).stagedC = s.stagedC := rfl
@[simp] theorem State.irq_stagedP (s : State) (n : Nat) : (s.irq n).stagedP = s.stagedP := rfl
@[simp] theorem State.irq_runC (s : State) (n : Nat) : (s.irq n).runC = s.runC := rfl
@[simp] theorem State.irq_runP (s : State) (n : Nat) : (s.irq n).runP = s.runP := rfl
@[simp] theorem State.irq_burn (s : State) (n : Nat) : (s.irq n).burn = s.burn := rfl
@[simp] theorem State.irq_i3cAddr (s : State) (n : Nat) : (s.irq n).i3cAddr = s.i3cAddr := rfl
@[simp] theorem State.irq_i3cReply (s : State) (n : Nat) : (s.irq n).i3cReply = s.i3cReply := rfl
@[simp] theorem State.irq_dbgOn (s : State) (n : Nat) : (s.irq n).dbgOn = s.dbgOn := rfl
@[simp] theorem State.irq_haltC (s : State) (n : Nat) : (s.irq n).haltC = s.haltC := rfl
@[simp] theorem State.irq_haltP (s : State) (n : Nat) : (s.irq n).haltP = s.haltP := rfl
@[simp] theorem State.irq_fwDue (s : State) (n : Nat) : (s.irq n).fwDue = s.fwDue := rfl

/-! ## State.report -/

@[simp] theorem State.report_pending (s : State) (g det cls owner unit master : Nat) (detail : Word) (cond : Bool) : (s.report g det cls owner unit master detail cond).pending = s.pending := rfl
@[simp] theorem State.report_time (s : State) (g det cls owner unit master : Nat) (detail : Word) (cond : Bool) : (s.report g det cls owner unit master detail cond).time = s.time := rfl
@[simp] theorem State.report_prevTime (s : State) (g det cls owner unit master : Nat) (detail : Word) (cond : Bool) : (s.report g det cls owner unit master detail cond).prevTime = s.prevTime := rfl
@[simp] theorem State.report_tickStep (s : State) (g det cls owner unit master : Nat) (detail : Word) (cond : Bool) : (s.report g det cls owner unit master detail cond).tickStep = s.tickStep := rfl
@[simp] theorem State.report_launched (s : State) (g det cls owner unit master : Nat) (detail : Word) (cond : Bool) : (s.report g det cls owner unit master detail cond).launched = s.launched := rfl
@[simp] theorem State.report_scanNext (s : State) (g det cls owner unit master : Nat) (detail : Word) (cond : Bool) : (s.report g det cls owner unit master detail cond).scanNext = s.scanNext := rfl
@[simp] theorem State.report_pausedAt (s : State) (g det cls owner unit master : Nat) (detail : Word) (cond : Bool) : (s.report g det cls owner unit master detail cond).pausedAt = s.pausedAt := rfl
@[simp] theorem State.report_cl (s : State) (g det cls owner unit master : Nat) (detail : Word) (cond : Bool) : (s.report g det cls owner unit master detail cond).cl = s.cl := rfl
@[simp] theorem State.report_subsys (s : State) (g det cls owner unit master : Nat) (detail : Word) (cond : Bool) : (s.report g det cls owner unit master detail cond).subsys = s.subsys := rfl
@[simp] theorem State.report_safeMark (s : State) (g det cls owner unit master : Nat) (detail : Word) (cond : Bool) : (s.report g det cls owner unit master detail cond).safeMark = s.safeMark := rfl
@[simp] theorem State.report_tickAon (s : State) (g det cls owner unit master : Nat) (detail : Word) (cond : Bool) : (s.report g det cls owner unit master detail cond).tickAon = s.tickAon := rfl
@[simp] theorem State.report_clkReq (s : State) (g det cls owner unit master : Nat) (detail : Word) (cond : Bool) : (s.report g det cls owner unit master detail cond).clkReq = s.clkReq := rfl
@[simp] theorem State.report_freeCtr (s : State) (g det cls owner unit master : Nat) (detail : Word) (cond : Bool) : (s.report g det cls owner unit master detail cond).freeCtr = s.freeCtr := rfl
@[simp] theorem State.report_seq (s : State) (g det cls owner unit master : Nat) (detail : Word) (cond : Bool) : (s.report g det cls owner unit master detail cond).seq = s.seq := rfl
@[simp] theorem State.report_out (s : State) (g det cls owner unit master : Nat) (detail : Word) (cond : Bool) : (s.report g det cls owner unit master detail cond).out = s.out := rfl
@[simp] theorem State.report_regs (s : State) (g det cls owner unit master : Nat) (detail : Word) (cond : Bool) : (s.report g det cls owner unit master detail cond).regs = s.regs := rfl
@[simp] theorem State.report_mem (s : State) (g det cls owner unit master : Nat) (detail : Word) (cond : Bool) : (s.report g det cls owner unit master detail cond).mem = s.mem := rfl
@[simp] theorem State.report_ecc (s : State) (g det cls owner unit master : Nat) (detail : Word) (cond : Bool) : (s.report g det cls owner unit master detail cond).ecc = s.ecc := rfl
@[simp] theorem State.report_slots (s : State) (g det cls owner unit master : Nat) (detail : Word) (cond : Bool) : (s.report g det cls owner unit master detail cond).slots = s.slots := rfl
@[simp] theorem State.report_stopped (s : State) (g det cls owner unit master : Nat) (detail : Word) (cond : Bool) : (s.report g det cls owner unit master detail cond).stopped = s.stopped := rfl
@[simp] theorem State.report_weir (s : State) (g det cls owner unit master : Nat) (detail : Word) (cond : Bool) : (s.report g det cls owner unit master detail cond).weir = s.weir := rfl
@[simp] theorem State.report_ceaWeir (s : State) (g det cls owner unit master : Nat) (detail : Word) (cond : Bool) : (s.report g det cls owner unit master detail cond).ceaWeir = s.ceaWeir := rfl
@[simp] theorem State.report_cea (s : State) (g det cls owner unit master : Nat) (detail : Word) (cond : Bool) : (s.report g det cls owner unit master detail cond).cea = s.cea := rfl
@[simp] theorem State.report_rings (s : State) (g det cls owner unit master : Nat) (detail : Word) (cond : Bool) : (s.report g det cls owner unit master detail cond).rings = s.rings := rfl
@[simp] theorem State.report_srcs (s : State) (g det cls owner unit master : Nat) (detail : Word) (cond : Bool) : (s.report g det cls owner unit master detail cond).srcs = s.srcs := rfl
@[simp] theorem State.report_launches (s : State) (g det cls owner unit master : Nat) (detail : Word) (cond : Bool) : (s.report g det cls owner unit master detail cond).launches = s.launches := rfl
@[simp] theorem State.report_lanes (s : State) (g det cls owner unit master : Nat) (detail : Word) (cond : Bool) : (s.report g det cls owner unit master detail cond).lanes = s.lanes := rfl
@[simp] theorem State.report_stations (s : State) (g det cls owner unit master : Nat) (detail : Word) (cond : Bool) : (s.report g det cls owner unit master detail cond).stations = s.stations := rfl
@[simp] theorem State.report_fifos (s : State) (g det cls owner unit master : Nat) (detail : Word) (cond : Bool) : (s.report g det cls owner unit master detail cond).fifos = s.fifos := rfl
@[simp] theorem State.report_fns (s : State) (g det cls owner unit master : Nat) (detail : Word) (cond : Bool) : (s.report g det cls owner unit master detail cond).fns = s.fns := rfl
@[simp] theorem State.report_tunnel (s : State) (g det cls owner unit master : Nat) (detail : Word) (cond : Bool) : (s.report g det cls owner unit master detail cond).tunnel = s.tunnel := rfl
@[simp] theorem State.report_cores (s : State) (g det cls owner unit master : Nat) (detail : Word) (cond : Bool) : (s.report g det cls owner unit master detail cond).cores = s.cores := rfl
@[simp] theorem State.report_shapeQ (s : State) (g det cls owner unit master : Nat) (detail : Word) (cond : Bool) : (s.report g det cls owner unit master detail cond).shapeQ = s.shapeQ := rfl
@[simp] theorem State.report_irqs (s : State) (g det cls owner unit master : Nat) (detail : Word) (cond : Bool) : (s.report g det cls owner unit master detail cond).irqs = s.irqs := rfl
@[simp] theorem State.report_doms (s : State) (g det cls owner unit master : Nat) (detail : Word) (cond : Bool) : (s.report g det cls owner unit master detail cond).doms = s.doms := rfl
@[simp] theorem State.report_mode (s : State) (g det cls owner unit master : Nat) (detail : Word) (cond : Bool) : (s.report g det cls owner unit master detail cond).mode = s.mode := rfl
@[simp] theorem State.report_merge (s : State) (g det cls owner unit master : Nat) (detail : Word) (cond : Bool) : (s.report g det cls owner unit master detail cond).merge = s.merge := rfl
@[simp] theorem State.report_ceList (s : State) (g det cls owner unit master : Nat) (detail : Word) (cond : Bool) : (s.report g det cls owner unit master detail cond).ceList = s.ceList := rfl
@[simp] theorem State.report_remap (s : State) (g det cls owner unit master : Nat) (detail : Word) (cond : Bool) : (s.report g det cls owner unit master detail cond).remap = s.remap := rfl
@[simp] theorem State.report_held (s : State) (g det cls owner unit master : Nat) (detail : Word) (cond : Bool) : (s.report g det cls owner unit master detail cond).held = s.held := rfl
@[simp] theorem State.report_downReq (s : State) (g det cls owner unit master : Nat) (detail : Word) (cond : Bool) : (s.report g det cls owner unit master detail cond).downReq = s.downReq := rfl
@[simp] theorem State.report_staging (s : State) (g det cls owner unit master : Nat) (detail : Word) (cond : Bool) : (s.report g det cls owner unit master detail cond).staging = s.staging := rfl
@[simp] theorem State.report_sleepReqs (s : State) (g det cls owner unit master : Nat) (detail : Word) (cond : Bool) : (s.report g det cls owner unit master detail cond).sleepReqs = s.sleepReqs := rfl
@[simp] theorem State.report_safen (s : State) (g det cls owner unit master : Nat) (detail : Word) (cond : Bool) : (s.report g det cls owner unit master detail cond).safen = s.safen := rfl
@[simp] theorem State.report_aonArmed (s : State) (g det cls owner unit master : Nat) (detail : Word) (cond : Bool) : (s.report g det cls owner unit master detail cond).aonArmed = s.aonArmed := rfl
@[simp] theorem State.report_fuses (s : State) (g det cls owner unit master : Nat) (detail : Word) (cond : Bool) : (s.report g det cls owner unit master detail cond).fuses = s.fuses := rfl
@[simp] theorem State.report_boxes (s : State) (g det cls owner unit master : Nat) (detail : Word) (cond : Bool) : (s.report g det cls owner unit master detail cond).boxes = s.boxes := rfl
@[simp] theorem State.report_debugErr (s : State) (g det cls owner unit master : Nat) (detail : Word) (cond : Bool) : (s.report g det cls owner unit master detail cond).debugErr = s.debugErr := rfl
@[simp] theorem State.report_jn (s : State) (g det cls owner unit master : Nat) (detail : Word) (cond : Bool) : (s.report g det cls owner unit master detail cond).jn = s.jn := rfl
@[simp] theorem State.report_dict (s : State) (g det cls owner unit master : Nat) (detail : Word) (cond : Bool) : (s.report g det cls owner unit master detail cond).dict = s.dict := rfl
@[simp] theorem State.report_phReset (s : State) (g det cls owner unit master : Nat) (detail : Word) (cond : Bool) : (s.report g det cls owner unit master detail cond).phReset = s.phReset := rfl
@[simp] theorem State.report_ptmLast (s : State) (g det cls owner unit master : Nat) (detail : Word) (cond : Bool) : (s.report g det cls owner unit master detail cond).ptmLast = s.ptmLast := rfl
@[simp] theorem State.report_ptmOpen (s : State) (g det cls owner unit master : Nat) (detail : Word) (cond : Bool) : (s.report g det cls owner unit master detail cond).ptmOpen = s.ptmOpen := rfl
@[simp] theorem State.report_pommelUp (s : State) (g det cls owner unit master : Nat) (detail : Word) (cond : Bool) : (s.report g det cls owner unit master detail cond).pommelUp = s.pommelUp := rfl
@[simp] theorem State.report_cantleUp (s : State) (g det cls owner unit master : Nat) (detail : Word) (cond : Bool) : (s.report g det cls owner unit master detail cond).cantleUp = s.cantleUp := rfl
@[simp] theorem State.report_commits (s : State) (g det cls owner unit master : Nat) (detail : Word) (cond : Bool) : (s.report g det cls owner unit master detail cond).commits = s.commits := rfl
@[simp] theorem State.report_opens (s : State) (g det cls owner unit master : Nat) (detail : Word) (cond : Bool) : (s.report g det cls owner unit master detail cond).opens = s.opens := rfl
@[simp] theorem State.report_loose (s : State) (g det cls owner unit master : Nat) (detail : Word) (cond : Bool) : (s.report g det cls owner unit master detail cond).loose = s.loose := rfl
@[simp] theorem State.report_shadows (s : State) (g det cls owner unit master : Nat) (detail : Word) (cond : Bool) : (s.report g det cls owner unit master detail cond).shadows = s.shadows := rfl
@[simp] theorem State.report_conds (s : State) (g det cls owner unit master : Nat) (detail : Word) (cond : Bool) : (s.report g det cls owner unit master detail cond).conds = s.conds := rfl
@[simp] theorem State.report_counted (s : State) (g det cls owner unit master : Nat) (detail : Word) (cond : Bool) : (s.report g det cls owner unit master detail cond).counted = s.counted := rfl
@[simp] theorem State.report_ftReact (s : State) (g det cls owner unit master : Nat) (detail : Word) (cond : Bool) : (s.report g det cls owner unit master detail cond).ftReact = s.ftReact := rfl
@[simp] theorem State.report_ftHeld (s : State) (g det cls owner unit master : Nat) (detail : Word) (cond : Bool) : (s.report g det cls owner unit master detail cond).ftHeld = s.ftHeld := rfl
@[simp] theorem State.report_faultN (s : State) (g det cls owner unit master : Nat) (detail : Word) (cond : Bool) : (s.report g det cls owner unit master detail cond).faultN = s.faultN := rfl
@[simp] theorem State.report_kickC (s : State) (g det cls owner unit master : Nat) (detail : Word) (cond : Bool) : (s.report g det cls owner unit master detail cond).kickC = s.kickC := rfl
@[simp] theorem State.report_kickP (s : State) (g det cls owner unit master : Nat) (detail : Word) (cond : Bool) : (s.report g det cls owner unit master detail cond).kickP = s.kickP := rfl
@[simp] theorem State.report_relC (s : State) (g det cls owner unit master : Nat) (detail : Word) (cond : Bool) : (s.report g det cls owner unit master detail cond).relC = s.relC := rfl
@[simp] theorem State.report_relP (s : State) (g det cls owner unit master : Nat) (detail : Word) (cond : Bool) : (s.report g det cls owner unit master detail cond).relP = s.relP := rfl
@[simp] theorem State.report_trans (s : State) (g det cls owner unit master : Nat) (detail : Word) (cond : Bool) : (s.report g det cls owner unit master detail cond).trans = s.trans := rfl
@[simp] theorem State.report_prep (s : State) (g det cls owner unit master : Nat) (detail : Word) (cond : Bool) : (s.report g det cls owner unit master detail cond).prep = s.prep := rfl
@[simp] theorem State.report_waken (s : State) (g det cls owner unit master : Nat) (detail : Word) (cond : Bool) : (s.report g det cls owner unit master detail cond).waken = s.waken := rfl
@[simp] theorem State.report_timerArm (s : State) (g det cls owner unit master : Nat) (detail : Word) (cond : Bool) : (s.report g det cls owner unit master detail cond).timerArm = s.timerArm := rfl
@[simp] theorem State.report_pll (s : State) (g det cls owner unit master : Nat) (detail : Word) (cond : Bool) : (s.report g det cls owner unit master detail cond).pll = s.pll := rfl
@[simp] theorem State.report_conn (s : State) (g det cls owner unit master : Nat) (detail : Word) (cond : Bool) : (s.report g det cls owner unit master detail cond).conn = s.conn := rfl
@[simp] theorem State.report_patrolAt (s : State) (g det cls owner unit master : Nat) (detail : Word) (cond : Bool) : (s.report g det cls owner unit master detail cond).patrolAt = s.patrolAt := rfl
@[simp] theorem State.report_patrol (s : State) (g det cls owner unit master : Nat) (detail : Word) (cond : Bool) : (s.report g det cls owner unit master detail cond).patrol = s.patrol := rfl
@[simp] theorem State.report_saved (s : State) (g det cls owner unit master : Nat) (detail : Word) (cond : Bool) : (s.report g det cls owner unit master detail cond).saved = s.saved := rfl
@[simp] theorem State.report_porn (s : State) (g det cls owner unit master : Nat) (detail : Word) (cond : Bool) : (s.report g det cls owner unit master detail cond).porn = s.porn := rfl
@[simp] theorem State.report_badRails (s : State) (g det cls owner unit master : Nat) (detail : Word) (cond : Bool) : (s.report g det cls owner unit master detail cond).badRails = s.badRails := rfl
@[simp] theorem State.report_crReset (s : State) (g det cls owner unit master : Nat) (detail : Word) (cond : Bool) : (s.report g det cls owner unit master detail cond).crReset = s.crReset := rfl
@[simp] theorem State.report_warmRun (s : State) (g det cls owner unit master : Nat) (detail : Word) (cond : Bool) : (s.report g det cls owner unit master detail cond).warmRun = s.warmRun := rfl
@[simp] theorem State.report_bistRun (s : State) (g det cls owner unit master : Nat) (detail : Word) (cond : Bool) : (s.report g det cls owner unit master detail cond).bistRun = s.bistRun := rfl
@[simp] theorem State.report_scrubSeen (s : State) (g det cls owner unit master : Nat) (detail : Word) (cond : Bool) : (s.report g det cls owner unit master detail cond).scrubSeen = s.scrubSeen := rfl
@[simp] theorem State.report_loader (s : State) (g det cls owner unit master : Nat) (detail : Word) (cond : Bool) : (s.report g det cls owner unit master detail cond).loader = s.loader := rfl
@[simp] theorem State.report_cImg (s : State) (g det cls owner unit master : Nat) (detail : Word) (cond : Bool) : (s.report g det cls owner unit master detail cond).cImg = s.cImg := rfl
@[simp] theorem State.report_pImg (s : State) (g det cls owner unit master : Nat) (detail : Word) (cond : Bool) : (s.report g det cls owner unit master detail cond).pImg = s.pImg := rfl
@[simp] theorem State.report_startC (s : State) (g det cls owner unit master : Nat) (detail : Word) (cond : Bool) : (s.report g det cls owner unit master detail cond).startC = s.startC := rfl
@[simp] theorem State.report_startP (s : State) (g det cls owner unit master : Nat) (detail : Word) (cond : Bool) : (s.report g det cls owner unit master detail cond).startP = s.startP := rfl
@[simp] theorem State.report_phPhase (s : State) (g det cls owner unit master : Nat) (detail : Word) (cond : Bool) : (s.report g det cls owner unit master detail cond).phPhase = s.phPhase := rfl
@[simp] theorem State.report_logUnread (s : State) (g det cls owner unit master : Nat) (detail : Word) (cond : Bool) : (s.report g det cls owner unit master detail cond).logUnread = s.logUnread := rfl
@[simp] theorem State.report_dreq (s : State) (g det cls owner unit master : Nat) (detail : Word) (cond : Bool) : (s.report g det cls owner unit master detail cond).dreq = s.dreq := rfl
@[simp] theorem State.report_svc (s : State) (g det cls owner unit master : Nat) (detail : Word) (cond : Bool) : (s.report g det cls owner unit master detail cond).svc = s.svc := rfl
@[simp] theorem State.report_wlog (s : State) (g det cls owner unit master : Nat) (detail : Word) (cond : Bool) : (s.report g det cls owner unit master detail cond).wlog = s.wlog := rfl
@[simp] theorem State.report_saveSt (s : State) (g det cls owner unit master : Nat) (detail : Word) (cond : Bool) : (s.report g det cls owner unit master detail cond).saveSt = s.saveSt := rfl
@[simp] theorem State.report_flash (s : State) (g det cls owner unit master : Nat) (detail : Word) (cond : Bool) : (s.report g det cls owner unit master detail cond).flash = s.flash := rfl
@[simp] theorem State.report_stagedC (s : State) (g det cls owner unit master : Nat) (detail : Word) (cond : Bool) : (s.report g det cls owner unit master detail cond).stagedC = s.stagedC := rfl
@[simp] theorem State.report_stagedP (s : State) (g det cls owner unit master : Nat) (detail : Word) (cond : Bool) : (s.report g det cls owner unit master detail cond).stagedP = s.stagedP := rfl
@[simp] theorem State.report_runC (s : State) (g det cls owner unit master : Nat) (detail : Word) (cond : Bool) : (s.report g det cls owner unit master detail cond).runC = s.runC := rfl
@[simp] theorem State.report_runP (s : State) (g det cls owner unit master : Nat) (detail : Word) (cond : Bool) : (s.report g det cls owner unit master detail cond).runP = s.runP := rfl
@[simp] theorem State.report_burn (s : State) (g det cls owner unit master : Nat) (detail : Word) (cond : Bool) : (s.report g det cls owner unit master detail cond).burn = s.burn := rfl
@[simp] theorem State.report_i3cAddr (s : State) (g det cls owner unit master : Nat) (detail : Word) (cond : Bool) : (s.report g det cls owner unit master detail cond).i3cAddr = s.i3cAddr := rfl
@[simp] theorem State.report_i3cReply (s : State) (g det cls owner unit master : Nat) (detail : Word) (cond : Bool) : (s.report g det cls owner unit master detail cond).i3cReply = s.i3cReply := rfl
@[simp] theorem State.report_dbgOn (s : State) (g det cls owner unit master : Nat) (detail : Word) (cond : Bool) : (s.report g det cls owner unit master detail cond).dbgOn = s.dbgOn := rfl
@[simp] theorem State.report_haltC (s : State) (g det cls owner unit master : Nat) (detail : Word) (cond : Bool) : (s.report g det cls owner unit master detail cond).haltC = s.haltC := rfl
@[simp] theorem State.report_haltP (s : State) (g det cls owner unit master : Nat) (detail : Word) (cond : Bool) : (s.report g det cls owner unit master detail cond).haltP = s.haltP := rfl
@[simp] theorem State.report_fwDue (s : State) (g det cls owner unit master : Nat) (detail : Word) (cond : Bool) : (s.report g det cls owner unit master detail cond).fwDue = s.fwDue := rfl

/-! ## State.setSlot -/

@[simp] theorem State.setSlot_pending (s : State) (k : Nat) (x : Slot) : (s.setSlot k x).pending = s.pending := rfl
@[simp] theorem State.setSlot_time (s : State) (k : Nat) (x : Slot) : (s.setSlot k x).time = s.time := rfl
@[simp] theorem State.setSlot_prevTime (s : State) (k : Nat) (x : Slot) : (s.setSlot k x).prevTime = s.prevTime := rfl
@[simp] theorem State.setSlot_tickStep (s : State) (k : Nat) (x : Slot) : (s.setSlot k x).tickStep = s.tickStep := rfl
@[simp] theorem State.setSlot_launched (s : State) (k : Nat) (x : Slot) : (s.setSlot k x).launched = s.launched := rfl
@[simp] theorem State.setSlot_scanNext (s : State) (k : Nat) (x : Slot) : (s.setSlot k x).scanNext = s.scanNext := rfl
@[simp] theorem State.setSlot_pausedAt (s : State) (k : Nat) (x : Slot) : (s.setSlot k x).pausedAt = s.pausedAt := rfl
@[simp] theorem State.setSlot_cl (s : State) (k : Nat) (x : Slot) : (s.setSlot k x).cl = s.cl := rfl
@[simp] theorem State.setSlot_subsys (s : State) (k : Nat) (x : Slot) : (s.setSlot k x).subsys = s.subsys := rfl
@[simp] theorem State.setSlot_safeMark (s : State) (k : Nat) (x : Slot) : (s.setSlot k x).safeMark = s.safeMark := rfl
@[simp] theorem State.setSlot_tickAon (s : State) (k : Nat) (x : Slot) : (s.setSlot k x).tickAon = s.tickAon := rfl
@[simp] theorem State.setSlot_clkReq (s : State) (k : Nat) (x : Slot) : (s.setSlot k x).clkReq = s.clkReq := rfl
@[simp] theorem State.setSlot_freeCtr (s : State) (k : Nat) (x : Slot) : (s.setSlot k x).freeCtr = s.freeCtr := rfl
@[simp] theorem State.setSlot_seq (s : State) (k : Nat) (x : Slot) : (s.setSlot k x).seq = s.seq := rfl
@[simp] theorem State.setSlot_out (s : State) (k : Nat) (x : Slot) : (s.setSlot k x).out = s.out := rfl
@[simp] theorem State.setSlot_regs (s : State) (k : Nat) (x : Slot) : (s.setSlot k x).regs = s.regs := rfl
@[simp] theorem State.setSlot_mem (s : State) (k : Nat) (x : Slot) : (s.setSlot k x).mem = s.mem := rfl
@[simp] theorem State.setSlot_ecc (s : State) (k : Nat) (x : Slot) : (s.setSlot k x).ecc = s.ecc := rfl
@[simp] theorem State.setSlot_stopped (s : State) (k : Nat) (x : Slot) : (s.setSlot k x).stopped = s.stopped := rfl
@[simp] theorem State.setSlot_weir (s : State) (k : Nat) (x : Slot) : (s.setSlot k x).weir = s.weir := rfl
@[simp] theorem State.setSlot_ceaWeir (s : State) (k : Nat) (x : Slot) : (s.setSlot k x).ceaWeir = s.ceaWeir := rfl
@[simp] theorem State.setSlot_cea (s : State) (k : Nat) (x : Slot) : (s.setSlot k x).cea = s.cea := rfl
@[simp] theorem State.setSlot_rings (s : State) (k : Nat) (x : Slot) : (s.setSlot k x).rings = s.rings := rfl
@[simp] theorem State.setSlot_srcs (s : State) (k : Nat) (x : Slot) : (s.setSlot k x).srcs = s.srcs := rfl
@[simp] theorem State.setSlot_launches (s : State) (k : Nat) (x : Slot) : (s.setSlot k x).launches = s.launches := rfl
@[simp] theorem State.setSlot_lanes (s : State) (k : Nat) (x : Slot) : (s.setSlot k x).lanes = s.lanes := rfl
@[simp] theorem State.setSlot_stations (s : State) (k : Nat) (x : Slot) : (s.setSlot k x).stations = s.stations := rfl
@[simp] theorem State.setSlot_fifos (s : State) (k : Nat) (x : Slot) : (s.setSlot k x).fifos = s.fifos := rfl
@[simp] theorem State.setSlot_fns (s : State) (k : Nat) (x : Slot) : (s.setSlot k x).fns = s.fns := rfl
@[simp] theorem State.setSlot_tunnel (s : State) (k : Nat) (x : Slot) : (s.setSlot k x).tunnel = s.tunnel := rfl
@[simp] theorem State.setSlot_cores (s : State) (k : Nat) (x : Slot) : (s.setSlot k x).cores = s.cores := rfl
@[simp] theorem State.setSlot_shapeQ (s : State) (k : Nat) (x : Slot) : (s.setSlot k x).shapeQ = s.shapeQ := rfl
@[simp] theorem State.setSlot_reports (s : State) (k : Nat) (x : Slot) : (s.setSlot k x).reports = s.reports := rfl
@[simp] theorem State.setSlot_irqs (s : State) (k : Nat) (x : Slot) : (s.setSlot k x).irqs = s.irqs := rfl
@[simp] theorem State.setSlot_doms (s : State) (k : Nat) (x : Slot) : (s.setSlot k x).doms = s.doms := rfl
@[simp] theorem State.setSlot_mode (s : State) (k : Nat) (x : Slot) : (s.setSlot k x).mode = s.mode := rfl
@[simp] theorem State.setSlot_merge (s : State) (k : Nat) (x : Slot) : (s.setSlot k x).merge = s.merge := rfl
@[simp] theorem State.setSlot_ceList (s : State) (k : Nat) (x : Slot) : (s.setSlot k x).ceList = s.ceList := rfl
@[simp] theorem State.setSlot_remap (s : State) (k : Nat) (x : Slot) : (s.setSlot k x).remap = s.remap := rfl
@[simp] theorem State.setSlot_held (s : State) (k : Nat) (x : Slot) : (s.setSlot k x).held = s.held := rfl
@[simp] theorem State.setSlot_downReq (s : State) (k : Nat) (x : Slot) : (s.setSlot k x).downReq = s.downReq := rfl
@[simp] theorem State.setSlot_staging (s : State) (k : Nat) (x : Slot) : (s.setSlot k x).staging = s.staging := rfl
@[simp] theorem State.setSlot_sleepReqs (s : State) (k : Nat) (x : Slot) : (s.setSlot k x).sleepReqs = s.sleepReqs := rfl
@[simp] theorem State.setSlot_safen (s : State) (k : Nat) (x : Slot) : (s.setSlot k x).safen = s.safen := rfl
@[simp] theorem State.setSlot_aonArmed (s : State) (k : Nat) (x : Slot) : (s.setSlot k x).aonArmed = s.aonArmed := rfl
@[simp] theorem State.setSlot_fuses (s : State) (k : Nat) (x : Slot) : (s.setSlot k x).fuses = s.fuses := rfl
@[simp] theorem State.setSlot_boxes (s : State) (k : Nat) (x : Slot) : (s.setSlot k x).boxes = s.boxes := rfl
@[simp] theorem State.setSlot_debugErr (s : State) (k : Nat) (x : Slot) : (s.setSlot k x).debugErr = s.debugErr := rfl
@[simp] theorem State.setSlot_jn (s : State) (k : Nat) (x : Slot) : (s.setSlot k x).jn = s.jn := rfl
@[simp] theorem State.setSlot_dict (s : State) (k : Nat) (x : Slot) : (s.setSlot k x).dict = s.dict := rfl
@[simp] theorem State.setSlot_phReset (s : State) (k : Nat) (x : Slot) : (s.setSlot k x).phReset = s.phReset := rfl
@[simp] theorem State.setSlot_ptmLast (s : State) (k : Nat) (x : Slot) : (s.setSlot k x).ptmLast = s.ptmLast := rfl
@[simp] theorem State.setSlot_ptmOpen (s : State) (k : Nat) (x : Slot) : (s.setSlot k x).ptmOpen = s.ptmOpen := rfl
@[simp] theorem State.setSlot_pommelUp (s : State) (k : Nat) (x : Slot) : (s.setSlot k x).pommelUp = s.pommelUp := rfl
@[simp] theorem State.setSlot_cantleUp (s : State) (k : Nat) (x : Slot) : (s.setSlot k x).cantleUp = s.cantleUp := rfl
@[simp] theorem State.setSlot_commits (s : State) (k : Nat) (x : Slot) : (s.setSlot k x).commits = s.commits := rfl
@[simp] theorem State.setSlot_opens (s : State) (k : Nat) (x : Slot) : (s.setSlot k x).opens = s.opens := rfl
@[simp] theorem State.setSlot_loose (s : State) (k : Nat) (x : Slot) : (s.setSlot k x).loose = s.loose := rfl
@[simp] theorem State.setSlot_shadows (s : State) (k : Nat) (x : Slot) : (s.setSlot k x).shadows = s.shadows := rfl
@[simp] theorem State.setSlot_conds (s : State) (k : Nat) (x : Slot) : (s.setSlot k x).conds = s.conds := rfl
@[simp] theorem State.setSlot_counted (s : State) (k : Nat) (x : Slot) : (s.setSlot k x).counted = s.counted := rfl
@[simp] theorem State.setSlot_ftReact (s : State) (k : Nat) (x : Slot) : (s.setSlot k x).ftReact = s.ftReact := rfl
@[simp] theorem State.setSlot_ftHeld (s : State) (k : Nat) (x : Slot) : (s.setSlot k x).ftHeld = s.ftHeld := rfl
@[simp] theorem State.setSlot_faultN (s : State) (k : Nat) (x : Slot) : (s.setSlot k x).faultN = s.faultN := rfl
@[simp] theorem State.setSlot_kickC (s : State) (k : Nat) (x : Slot) : (s.setSlot k x).kickC = s.kickC := rfl
@[simp] theorem State.setSlot_kickP (s : State) (k : Nat) (x : Slot) : (s.setSlot k x).kickP = s.kickP := rfl
@[simp] theorem State.setSlot_relC (s : State) (k : Nat) (x : Slot) : (s.setSlot k x).relC = s.relC := rfl
@[simp] theorem State.setSlot_relP (s : State) (k : Nat) (x : Slot) : (s.setSlot k x).relP = s.relP := rfl
@[simp] theorem State.setSlot_trans (s : State) (k : Nat) (x : Slot) : (s.setSlot k x).trans = s.trans := rfl
@[simp] theorem State.setSlot_prep (s : State) (k : Nat) (x : Slot) : (s.setSlot k x).prep = s.prep := rfl
@[simp] theorem State.setSlot_waken (s : State) (k : Nat) (x : Slot) : (s.setSlot k x).waken = s.waken := rfl
@[simp] theorem State.setSlot_timerArm (s : State) (k : Nat) (x : Slot) : (s.setSlot k x).timerArm = s.timerArm := rfl
@[simp] theorem State.setSlot_pll (s : State) (k : Nat) (x : Slot) : (s.setSlot k x).pll = s.pll := rfl
@[simp] theorem State.setSlot_conn (s : State) (k : Nat) (x : Slot) : (s.setSlot k x).conn = s.conn := rfl
@[simp] theorem State.setSlot_patrolAt (s : State) (k : Nat) (x : Slot) : (s.setSlot k x).patrolAt = s.patrolAt := rfl
@[simp] theorem State.setSlot_patrol (s : State) (k : Nat) (x : Slot) : (s.setSlot k x).patrol = s.patrol := rfl
@[simp] theorem State.setSlot_saved (s : State) (k : Nat) (x : Slot) : (s.setSlot k x).saved = s.saved := rfl
@[simp] theorem State.setSlot_porn (s : State) (k : Nat) (x : Slot) : (s.setSlot k x).porn = s.porn := rfl
@[simp] theorem State.setSlot_badRails (s : State) (k : Nat) (x : Slot) : (s.setSlot k x).badRails = s.badRails := rfl
@[simp] theorem State.setSlot_crReset (s : State) (k : Nat) (x : Slot) : (s.setSlot k x).crReset = s.crReset := rfl
@[simp] theorem State.setSlot_warmRun (s : State) (k : Nat) (x : Slot) : (s.setSlot k x).warmRun = s.warmRun := rfl
@[simp] theorem State.setSlot_bistRun (s : State) (k : Nat) (x : Slot) : (s.setSlot k x).bistRun = s.bistRun := rfl
@[simp] theorem State.setSlot_scrubSeen (s : State) (k : Nat) (x : Slot) : (s.setSlot k x).scrubSeen = s.scrubSeen := rfl
@[simp] theorem State.setSlot_loader (s : State) (k : Nat) (x : Slot) : (s.setSlot k x).loader = s.loader := rfl
@[simp] theorem State.setSlot_cImg (s : State) (k : Nat) (x : Slot) : (s.setSlot k x).cImg = s.cImg := rfl
@[simp] theorem State.setSlot_pImg (s : State) (k : Nat) (x : Slot) : (s.setSlot k x).pImg = s.pImg := rfl
@[simp] theorem State.setSlot_startC (s : State) (k : Nat) (x : Slot) : (s.setSlot k x).startC = s.startC := rfl
@[simp] theorem State.setSlot_startP (s : State) (k : Nat) (x : Slot) : (s.setSlot k x).startP = s.startP := rfl
@[simp] theorem State.setSlot_phPhase (s : State) (k : Nat) (x : Slot) : (s.setSlot k x).phPhase = s.phPhase := rfl
@[simp] theorem State.setSlot_logUnread (s : State) (k : Nat) (x : Slot) : (s.setSlot k x).logUnread = s.logUnread := rfl
@[simp] theorem State.setSlot_dreq (s : State) (k : Nat) (x : Slot) : (s.setSlot k x).dreq = s.dreq := rfl
@[simp] theorem State.setSlot_svc (s : State) (k : Nat) (x : Slot) : (s.setSlot k x).svc = s.svc := rfl
@[simp] theorem State.setSlot_wlog (s : State) (k : Nat) (x : Slot) : (s.setSlot k x).wlog = s.wlog := rfl
@[simp] theorem State.setSlot_saveSt (s : State) (k : Nat) (x : Slot) : (s.setSlot k x).saveSt = s.saveSt := rfl
@[simp] theorem State.setSlot_flash (s : State) (k : Nat) (x : Slot) : (s.setSlot k x).flash = s.flash := rfl
@[simp] theorem State.setSlot_stagedC (s : State) (k : Nat) (x : Slot) : (s.setSlot k x).stagedC = s.stagedC := rfl
@[simp] theorem State.setSlot_stagedP (s : State) (k : Nat) (x : Slot) : (s.setSlot k x).stagedP = s.stagedP := rfl
@[simp] theorem State.setSlot_runC (s : State) (k : Nat) (x : Slot) : (s.setSlot k x).runC = s.runC := rfl
@[simp] theorem State.setSlot_runP (s : State) (k : Nat) (x : Slot) : (s.setSlot k x).runP = s.runP := rfl
@[simp] theorem State.setSlot_burn (s : State) (k : Nat) (x : Slot) : (s.setSlot k x).burn = s.burn := rfl
@[simp] theorem State.setSlot_i3cAddr (s : State) (k : Nat) (x : Slot) : (s.setSlot k x).i3cAddr = s.i3cAddr := rfl
@[simp] theorem State.setSlot_i3cReply (s : State) (k : Nat) (x : Slot) : (s.setSlot k x).i3cReply = s.i3cReply := rfl
@[simp] theorem State.setSlot_dbgOn (s : State) (k : Nat) (x : Slot) : (s.setSlot k x).dbgOn = s.dbgOn := rfl
@[simp] theorem State.setSlot_haltC (s : State) (k : Nat) (x : Slot) : (s.setSlot k x).haltC = s.haltC := rfl
@[simp] theorem State.setSlot_haltP (s : State) (k : Nat) (x : Slot) : (s.setSlot k x).haltP = s.haltP := rfl
@[simp] theorem State.setSlot_fwDue (s : State) (k : Nat) (x : Slot) : (s.setSlot k x).fwDue = s.fwDue := rfl

/-! ## State.setRing -/

@[simp] theorem State.setRing_pending (s : State) (g : Nat) (x : Ring) : (s.setRing g x).pending = s.pending := rfl
@[simp] theorem State.setRing_time (s : State) (g : Nat) (x : Ring) : (s.setRing g x).time = s.time := rfl
@[simp] theorem State.setRing_prevTime (s : State) (g : Nat) (x : Ring) : (s.setRing g x).prevTime = s.prevTime := rfl
@[simp] theorem State.setRing_tickStep (s : State) (g : Nat) (x : Ring) : (s.setRing g x).tickStep = s.tickStep := rfl
@[simp] theorem State.setRing_launched (s : State) (g : Nat) (x : Ring) : (s.setRing g x).launched = s.launched := rfl
@[simp] theorem State.setRing_scanNext (s : State) (g : Nat) (x : Ring) : (s.setRing g x).scanNext = s.scanNext := rfl
@[simp] theorem State.setRing_pausedAt (s : State) (g : Nat) (x : Ring) : (s.setRing g x).pausedAt = s.pausedAt := rfl
@[simp] theorem State.setRing_cl (s : State) (g : Nat) (x : Ring) : (s.setRing g x).cl = s.cl := rfl
@[simp] theorem State.setRing_subsys (s : State) (g : Nat) (x : Ring) : (s.setRing g x).subsys = s.subsys := rfl
@[simp] theorem State.setRing_safeMark (s : State) (g : Nat) (x : Ring) : (s.setRing g x).safeMark = s.safeMark := rfl
@[simp] theorem State.setRing_tickAon (s : State) (g : Nat) (x : Ring) : (s.setRing g x).tickAon = s.tickAon := rfl
@[simp] theorem State.setRing_clkReq (s : State) (g : Nat) (x : Ring) : (s.setRing g x).clkReq = s.clkReq := rfl
@[simp] theorem State.setRing_freeCtr (s : State) (g : Nat) (x : Ring) : (s.setRing g x).freeCtr = s.freeCtr := rfl
@[simp] theorem State.setRing_seq (s : State) (g : Nat) (x : Ring) : (s.setRing g x).seq = s.seq := rfl
@[simp] theorem State.setRing_out (s : State) (g : Nat) (x : Ring) : (s.setRing g x).out = s.out := rfl
@[simp] theorem State.setRing_regs (s : State) (g : Nat) (x : Ring) : (s.setRing g x).regs = s.regs := rfl
@[simp] theorem State.setRing_mem (s : State) (g : Nat) (x : Ring) : (s.setRing g x).mem = s.mem := rfl
@[simp] theorem State.setRing_ecc (s : State) (g : Nat) (x : Ring) : (s.setRing g x).ecc = s.ecc := rfl
@[simp] theorem State.setRing_slots (s : State) (g : Nat) (x : Ring) : (s.setRing g x).slots = s.slots := rfl
@[simp] theorem State.setRing_stopped (s : State) (g : Nat) (x : Ring) : (s.setRing g x).stopped = s.stopped := rfl
@[simp] theorem State.setRing_weir (s : State) (g : Nat) (x : Ring) : (s.setRing g x).weir = s.weir := rfl
@[simp] theorem State.setRing_ceaWeir (s : State) (g : Nat) (x : Ring) : (s.setRing g x).ceaWeir = s.ceaWeir := rfl
@[simp] theorem State.setRing_cea (s : State) (g : Nat) (x : Ring) : (s.setRing g x).cea = s.cea := rfl
@[simp] theorem State.setRing_srcs (s : State) (g : Nat) (x : Ring) : (s.setRing g x).srcs = s.srcs := rfl
@[simp] theorem State.setRing_launches (s : State) (g : Nat) (x : Ring) : (s.setRing g x).launches = s.launches := rfl
@[simp] theorem State.setRing_lanes (s : State) (g : Nat) (x : Ring) : (s.setRing g x).lanes = s.lanes := rfl
@[simp] theorem State.setRing_stations (s : State) (g : Nat) (x : Ring) : (s.setRing g x).stations = s.stations := rfl
@[simp] theorem State.setRing_fifos (s : State) (g : Nat) (x : Ring) : (s.setRing g x).fifos = s.fifos := rfl
@[simp] theorem State.setRing_fns (s : State) (g : Nat) (x : Ring) : (s.setRing g x).fns = s.fns := rfl
@[simp] theorem State.setRing_tunnel (s : State) (g : Nat) (x : Ring) : (s.setRing g x).tunnel = s.tunnel := rfl
@[simp] theorem State.setRing_cores (s : State) (g : Nat) (x : Ring) : (s.setRing g x).cores = s.cores := rfl
@[simp] theorem State.setRing_shapeQ (s : State) (g : Nat) (x : Ring) : (s.setRing g x).shapeQ = s.shapeQ := rfl
@[simp] theorem State.setRing_reports (s : State) (g : Nat) (x : Ring) : (s.setRing g x).reports = s.reports := rfl
@[simp] theorem State.setRing_irqs (s : State) (g : Nat) (x : Ring) : (s.setRing g x).irqs = s.irqs := rfl
@[simp] theorem State.setRing_doms (s : State) (g : Nat) (x : Ring) : (s.setRing g x).doms = s.doms := rfl
@[simp] theorem State.setRing_mode (s : State) (g : Nat) (x : Ring) : (s.setRing g x).mode = s.mode := rfl
@[simp] theorem State.setRing_merge (s : State) (g : Nat) (x : Ring) : (s.setRing g x).merge = s.merge := rfl
@[simp] theorem State.setRing_ceList (s : State) (g : Nat) (x : Ring) : (s.setRing g x).ceList = s.ceList := rfl
@[simp] theorem State.setRing_remap (s : State) (g : Nat) (x : Ring) : (s.setRing g x).remap = s.remap := rfl
@[simp] theorem State.setRing_held (s : State) (g : Nat) (x : Ring) : (s.setRing g x).held = s.held := rfl
@[simp] theorem State.setRing_downReq (s : State) (g : Nat) (x : Ring) : (s.setRing g x).downReq = s.downReq := rfl
@[simp] theorem State.setRing_staging (s : State) (g : Nat) (x : Ring) : (s.setRing g x).staging = s.staging := rfl
@[simp] theorem State.setRing_sleepReqs (s : State) (g : Nat) (x : Ring) : (s.setRing g x).sleepReqs = s.sleepReqs := rfl
@[simp] theorem State.setRing_safen (s : State) (g : Nat) (x : Ring) : (s.setRing g x).safen = s.safen := rfl
@[simp] theorem State.setRing_aonArmed (s : State) (g : Nat) (x : Ring) : (s.setRing g x).aonArmed = s.aonArmed := rfl
@[simp] theorem State.setRing_fuses (s : State) (g : Nat) (x : Ring) : (s.setRing g x).fuses = s.fuses := rfl
@[simp] theorem State.setRing_boxes (s : State) (g : Nat) (x : Ring) : (s.setRing g x).boxes = s.boxes := rfl
@[simp] theorem State.setRing_debugErr (s : State) (g : Nat) (x : Ring) : (s.setRing g x).debugErr = s.debugErr := rfl
@[simp] theorem State.setRing_jn (s : State) (g : Nat) (x : Ring) : (s.setRing g x).jn = s.jn := rfl
@[simp] theorem State.setRing_dict (s : State) (g : Nat) (x : Ring) : (s.setRing g x).dict = s.dict := rfl
@[simp] theorem State.setRing_phReset (s : State) (g : Nat) (x : Ring) : (s.setRing g x).phReset = s.phReset := rfl
@[simp] theorem State.setRing_ptmLast (s : State) (g : Nat) (x : Ring) : (s.setRing g x).ptmLast = s.ptmLast := rfl
@[simp] theorem State.setRing_ptmOpen (s : State) (g : Nat) (x : Ring) : (s.setRing g x).ptmOpen = s.ptmOpen := rfl
@[simp] theorem State.setRing_pommelUp (s : State) (g : Nat) (x : Ring) : (s.setRing g x).pommelUp = s.pommelUp := rfl
@[simp] theorem State.setRing_cantleUp (s : State) (g : Nat) (x : Ring) : (s.setRing g x).cantleUp = s.cantleUp := rfl
@[simp] theorem State.setRing_commits (s : State) (g : Nat) (x : Ring) : (s.setRing g x).commits = s.commits := rfl
@[simp] theorem State.setRing_opens (s : State) (g : Nat) (x : Ring) : (s.setRing g x).opens = s.opens := rfl
@[simp] theorem State.setRing_loose (s : State) (g : Nat) (x : Ring) : (s.setRing g x).loose = s.loose := rfl
@[simp] theorem State.setRing_shadows (s : State) (g : Nat) (x : Ring) : (s.setRing g x).shadows = s.shadows := rfl
@[simp] theorem State.setRing_conds (s : State) (g : Nat) (x : Ring) : (s.setRing g x).conds = s.conds := rfl
@[simp] theorem State.setRing_counted (s : State) (g : Nat) (x : Ring) : (s.setRing g x).counted = s.counted := rfl
@[simp] theorem State.setRing_ftReact (s : State) (g : Nat) (x : Ring) : (s.setRing g x).ftReact = s.ftReact := rfl
@[simp] theorem State.setRing_ftHeld (s : State) (g : Nat) (x : Ring) : (s.setRing g x).ftHeld = s.ftHeld := rfl
@[simp] theorem State.setRing_faultN (s : State) (g : Nat) (x : Ring) : (s.setRing g x).faultN = s.faultN := rfl
@[simp] theorem State.setRing_kickC (s : State) (g : Nat) (x : Ring) : (s.setRing g x).kickC = s.kickC := rfl
@[simp] theorem State.setRing_kickP (s : State) (g : Nat) (x : Ring) : (s.setRing g x).kickP = s.kickP := rfl
@[simp] theorem State.setRing_relC (s : State) (g : Nat) (x : Ring) : (s.setRing g x).relC = s.relC := rfl
@[simp] theorem State.setRing_relP (s : State) (g : Nat) (x : Ring) : (s.setRing g x).relP = s.relP := rfl
@[simp] theorem State.setRing_trans (s : State) (g : Nat) (x : Ring) : (s.setRing g x).trans = s.trans := rfl
@[simp] theorem State.setRing_prep (s : State) (g : Nat) (x : Ring) : (s.setRing g x).prep = s.prep := rfl
@[simp] theorem State.setRing_waken (s : State) (g : Nat) (x : Ring) : (s.setRing g x).waken = s.waken := rfl
@[simp] theorem State.setRing_timerArm (s : State) (g : Nat) (x : Ring) : (s.setRing g x).timerArm = s.timerArm := rfl
@[simp] theorem State.setRing_pll (s : State) (g : Nat) (x : Ring) : (s.setRing g x).pll = s.pll := rfl
@[simp] theorem State.setRing_conn (s : State) (g : Nat) (x : Ring) : (s.setRing g x).conn = s.conn := rfl
@[simp] theorem State.setRing_patrolAt (s : State) (g : Nat) (x : Ring) : (s.setRing g x).patrolAt = s.patrolAt := rfl
@[simp] theorem State.setRing_patrol (s : State) (g : Nat) (x : Ring) : (s.setRing g x).patrol = s.patrol := rfl
@[simp] theorem State.setRing_saved (s : State) (g : Nat) (x : Ring) : (s.setRing g x).saved = s.saved := rfl
@[simp] theorem State.setRing_porn (s : State) (g : Nat) (x : Ring) : (s.setRing g x).porn = s.porn := rfl
@[simp] theorem State.setRing_badRails (s : State) (g : Nat) (x : Ring) : (s.setRing g x).badRails = s.badRails := rfl
@[simp] theorem State.setRing_crReset (s : State) (g : Nat) (x : Ring) : (s.setRing g x).crReset = s.crReset := rfl
@[simp] theorem State.setRing_warmRun (s : State) (g : Nat) (x : Ring) : (s.setRing g x).warmRun = s.warmRun := rfl
@[simp] theorem State.setRing_bistRun (s : State) (g : Nat) (x : Ring) : (s.setRing g x).bistRun = s.bistRun := rfl
@[simp] theorem State.setRing_scrubSeen (s : State) (g : Nat) (x : Ring) : (s.setRing g x).scrubSeen = s.scrubSeen := rfl
@[simp] theorem State.setRing_loader (s : State) (g : Nat) (x : Ring) : (s.setRing g x).loader = s.loader := rfl
@[simp] theorem State.setRing_cImg (s : State) (g : Nat) (x : Ring) : (s.setRing g x).cImg = s.cImg := rfl
@[simp] theorem State.setRing_pImg (s : State) (g : Nat) (x : Ring) : (s.setRing g x).pImg = s.pImg := rfl
@[simp] theorem State.setRing_startC (s : State) (g : Nat) (x : Ring) : (s.setRing g x).startC = s.startC := rfl
@[simp] theorem State.setRing_startP (s : State) (g : Nat) (x : Ring) : (s.setRing g x).startP = s.startP := rfl
@[simp] theorem State.setRing_phPhase (s : State) (g : Nat) (x : Ring) : (s.setRing g x).phPhase = s.phPhase := rfl
@[simp] theorem State.setRing_logUnread (s : State) (g : Nat) (x : Ring) : (s.setRing g x).logUnread = s.logUnread := rfl
@[simp] theorem State.setRing_dreq (s : State) (g : Nat) (x : Ring) : (s.setRing g x).dreq = s.dreq := rfl
@[simp] theorem State.setRing_svc (s : State) (g : Nat) (x : Ring) : (s.setRing g x).svc = s.svc := rfl
@[simp] theorem State.setRing_wlog (s : State) (g : Nat) (x : Ring) : (s.setRing g x).wlog = s.wlog := rfl
@[simp] theorem State.setRing_saveSt (s : State) (g : Nat) (x : Ring) : (s.setRing g x).saveSt = s.saveSt := rfl
@[simp] theorem State.setRing_flash (s : State) (g : Nat) (x : Ring) : (s.setRing g x).flash = s.flash := rfl
@[simp] theorem State.setRing_stagedC (s : State) (g : Nat) (x : Ring) : (s.setRing g x).stagedC = s.stagedC := rfl
@[simp] theorem State.setRing_stagedP (s : State) (g : Nat) (x : Ring) : (s.setRing g x).stagedP = s.stagedP := rfl
@[simp] theorem State.setRing_runC (s : State) (g : Nat) (x : Ring) : (s.setRing g x).runC = s.runC := rfl
@[simp] theorem State.setRing_runP (s : State) (g : Nat) (x : Ring) : (s.setRing g x).runP = s.runP := rfl
@[simp] theorem State.setRing_burn (s : State) (g : Nat) (x : Ring) : (s.setRing g x).burn = s.burn := rfl
@[simp] theorem State.setRing_i3cAddr (s : State) (g : Nat) (x : Ring) : (s.setRing g x).i3cAddr = s.i3cAddr := rfl
@[simp] theorem State.setRing_i3cReply (s : State) (g : Nat) (x : Ring) : (s.setRing g x).i3cReply = s.i3cReply := rfl
@[simp] theorem State.setRing_dbgOn (s : State) (g : Nat) (x : Ring) : (s.setRing g x).dbgOn = s.dbgOn := rfl
@[simp] theorem State.setRing_haltC (s : State) (g : Nat) (x : Ring) : (s.setRing g x).haltC = s.haltC := rfl
@[simp] theorem State.setRing_haltP (s : State) (g : Nat) (x : Ring) : (s.setRing g x).haltP = s.haltP := rfl
@[simp] theorem State.setRing_fwDue (s : State) (g : Nat) (x : Ring) : (s.setRing g x).fwDue = s.fwDue := rfl

/-! ## State.setFn -/

@[simp] theorem State.setFn_pending (s : State) (f : Nat) (x : Func) : (s.setFn f x).pending = s.pending := rfl
@[simp] theorem State.setFn_time (s : State) (f : Nat) (x : Func) : (s.setFn f x).time = s.time := rfl
@[simp] theorem State.setFn_prevTime (s : State) (f : Nat) (x : Func) : (s.setFn f x).prevTime = s.prevTime := rfl
@[simp] theorem State.setFn_tickStep (s : State) (f : Nat) (x : Func) : (s.setFn f x).tickStep = s.tickStep := rfl
@[simp] theorem State.setFn_launched (s : State) (f : Nat) (x : Func) : (s.setFn f x).launched = s.launched := rfl
@[simp] theorem State.setFn_scanNext (s : State) (f : Nat) (x : Func) : (s.setFn f x).scanNext = s.scanNext := rfl
@[simp] theorem State.setFn_pausedAt (s : State) (f : Nat) (x : Func) : (s.setFn f x).pausedAt = s.pausedAt := rfl
@[simp] theorem State.setFn_cl (s : State) (f : Nat) (x : Func) : (s.setFn f x).cl = s.cl := rfl
@[simp] theorem State.setFn_subsys (s : State) (f : Nat) (x : Func) : (s.setFn f x).subsys = s.subsys := rfl
@[simp] theorem State.setFn_safeMark (s : State) (f : Nat) (x : Func) : (s.setFn f x).safeMark = s.safeMark := rfl
@[simp] theorem State.setFn_tickAon (s : State) (f : Nat) (x : Func) : (s.setFn f x).tickAon = s.tickAon := rfl
@[simp] theorem State.setFn_clkReq (s : State) (f : Nat) (x : Func) : (s.setFn f x).clkReq = s.clkReq := rfl
@[simp] theorem State.setFn_freeCtr (s : State) (f : Nat) (x : Func) : (s.setFn f x).freeCtr = s.freeCtr := rfl
@[simp] theorem State.setFn_seq (s : State) (f : Nat) (x : Func) : (s.setFn f x).seq = s.seq := rfl
@[simp] theorem State.setFn_out (s : State) (f : Nat) (x : Func) : (s.setFn f x).out = s.out := rfl
@[simp] theorem State.setFn_regs (s : State) (f : Nat) (x : Func) : (s.setFn f x).regs = s.regs := rfl
@[simp] theorem State.setFn_mem (s : State) (f : Nat) (x : Func) : (s.setFn f x).mem = s.mem := rfl
@[simp] theorem State.setFn_ecc (s : State) (f : Nat) (x : Func) : (s.setFn f x).ecc = s.ecc := rfl
@[simp] theorem State.setFn_slots (s : State) (f : Nat) (x : Func) : (s.setFn f x).slots = s.slots := rfl
@[simp] theorem State.setFn_stopped (s : State) (f : Nat) (x : Func) : (s.setFn f x).stopped = s.stopped := rfl
@[simp] theorem State.setFn_weir (s : State) (f : Nat) (x : Func) : (s.setFn f x).weir = s.weir := rfl
@[simp] theorem State.setFn_ceaWeir (s : State) (f : Nat) (x : Func) : (s.setFn f x).ceaWeir = s.ceaWeir := rfl
@[simp] theorem State.setFn_cea (s : State) (f : Nat) (x : Func) : (s.setFn f x).cea = s.cea := rfl
@[simp] theorem State.setFn_rings (s : State) (f : Nat) (x : Func) : (s.setFn f x).rings = s.rings := rfl
@[simp] theorem State.setFn_srcs (s : State) (f : Nat) (x : Func) : (s.setFn f x).srcs = s.srcs := rfl
@[simp] theorem State.setFn_launches (s : State) (f : Nat) (x : Func) : (s.setFn f x).launches = s.launches := rfl
@[simp] theorem State.setFn_lanes (s : State) (f : Nat) (x : Func) : (s.setFn f x).lanes = s.lanes := rfl
@[simp] theorem State.setFn_stations (s : State) (f : Nat) (x : Func) : (s.setFn f x).stations = s.stations := rfl
@[simp] theorem State.setFn_fifos (s : State) (f : Nat) (x : Func) : (s.setFn f x).fifos = s.fifos := rfl
@[simp] theorem State.setFn_tunnel (s : State) (f : Nat) (x : Func) : (s.setFn f x).tunnel = s.tunnel := rfl
@[simp] theorem State.setFn_cores (s : State) (f : Nat) (x : Func) : (s.setFn f x).cores = s.cores := rfl
@[simp] theorem State.setFn_shapeQ (s : State) (f : Nat) (x : Func) : (s.setFn f x).shapeQ = s.shapeQ := rfl
@[simp] theorem State.setFn_reports (s : State) (f : Nat) (x : Func) : (s.setFn f x).reports = s.reports := rfl
@[simp] theorem State.setFn_irqs (s : State) (f : Nat) (x : Func) : (s.setFn f x).irqs = s.irqs := rfl
@[simp] theorem State.setFn_doms (s : State) (f : Nat) (x : Func) : (s.setFn f x).doms = s.doms := rfl
@[simp] theorem State.setFn_mode (s : State) (f : Nat) (x : Func) : (s.setFn f x).mode = s.mode := rfl
@[simp] theorem State.setFn_merge (s : State) (f : Nat) (x : Func) : (s.setFn f x).merge = s.merge := rfl
@[simp] theorem State.setFn_ceList (s : State) (f : Nat) (x : Func) : (s.setFn f x).ceList = s.ceList := rfl
@[simp] theorem State.setFn_remap (s : State) (f : Nat) (x : Func) : (s.setFn f x).remap = s.remap := rfl
@[simp] theorem State.setFn_held (s : State) (f : Nat) (x : Func) : (s.setFn f x).held = s.held := rfl
@[simp] theorem State.setFn_downReq (s : State) (f : Nat) (x : Func) : (s.setFn f x).downReq = s.downReq := rfl
@[simp] theorem State.setFn_staging (s : State) (f : Nat) (x : Func) : (s.setFn f x).staging = s.staging := rfl
@[simp] theorem State.setFn_sleepReqs (s : State) (f : Nat) (x : Func) : (s.setFn f x).sleepReqs = s.sleepReqs := rfl
@[simp] theorem State.setFn_safen (s : State) (f : Nat) (x : Func) : (s.setFn f x).safen = s.safen := rfl
@[simp] theorem State.setFn_aonArmed (s : State) (f : Nat) (x : Func) : (s.setFn f x).aonArmed = s.aonArmed := rfl
@[simp] theorem State.setFn_fuses (s : State) (f : Nat) (x : Func) : (s.setFn f x).fuses = s.fuses := rfl
@[simp] theorem State.setFn_boxes (s : State) (f : Nat) (x : Func) : (s.setFn f x).boxes = s.boxes := rfl
@[simp] theorem State.setFn_debugErr (s : State) (f : Nat) (x : Func) : (s.setFn f x).debugErr = s.debugErr := rfl
@[simp] theorem State.setFn_jn (s : State) (f : Nat) (x : Func) : (s.setFn f x).jn = s.jn := rfl
@[simp] theorem State.setFn_dict (s : State) (f : Nat) (x : Func) : (s.setFn f x).dict = s.dict := rfl
@[simp] theorem State.setFn_phReset (s : State) (f : Nat) (x : Func) : (s.setFn f x).phReset = s.phReset := rfl
@[simp] theorem State.setFn_ptmLast (s : State) (f : Nat) (x : Func) : (s.setFn f x).ptmLast = s.ptmLast := rfl
@[simp] theorem State.setFn_ptmOpen (s : State) (f : Nat) (x : Func) : (s.setFn f x).ptmOpen = s.ptmOpen := rfl
@[simp] theorem State.setFn_pommelUp (s : State) (f : Nat) (x : Func) : (s.setFn f x).pommelUp = s.pommelUp := rfl
@[simp] theorem State.setFn_cantleUp (s : State) (f : Nat) (x : Func) : (s.setFn f x).cantleUp = s.cantleUp := rfl
@[simp] theorem State.setFn_commits (s : State) (f : Nat) (x : Func) : (s.setFn f x).commits = s.commits := rfl
@[simp] theorem State.setFn_opens (s : State) (f : Nat) (x : Func) : (s.setFn f x).opens = s.opens := rfl
@[simp] theorem State.setFn_loose (s : State) (f : Nat) (x : Func) : (s.setFn f x).loose = s.loose := rfl
@[simp] theorem State.setFn_shadows (s : State) (f : Nat) (x : Func) : (s.setFn f x).shadows = s.shadows := rfl
@[simp] theorem State.setFn_conds (s : State) (f : Nat) (x : Func) : (s.setFn f x).conds = s.conds := rfl
@[simp] theorem State.setFn_counted (s : State) (f : Nat) (x : Func) : (s.setFn f x).counted = s.counted := rfl
@[simp] theorem State.setFn_ftReact (s : State) (f : Nat) (x : Func) : (s.setFn f x).ftReact = s.ftReact := rfl
@[simp] theorem State.setFn_ftHeld (s : State) (f : Nat) (x : Func) : (s.setFn f x).ftHeld = s.ftHeld := rfl
@[simp] theorem State.setFn_faultN (s : State) (f : Nat) (x : Func) : (s.setFn f x).faultN = s.faultN := rfl
@[simp] theorem State.setFn_kickC (s : State) (f : Nat) (x : Func) : (s.setFn f x).kickC = s.kickC := rfl
@[simp] theorem State.setFn_kickP (s : State) (f : Nat) (x : Func) : (s.setFn f x).kickP = s.kickP := rfl
@[simp] theorem State.setFn_relC (s : State) (f : Nat) (x : Func) : (s.setFn f x).relC = s.relC := rfl
@[simp] theorem State.setFn_relP (s : State) (f : Nat) (x : Func) : (s.setFn f x).relP = s.relP := rfl
@[simp] theorem State.setFn_trans (s : State) (f : Nat) (x : Func) : (s.setFn f x).trans = s.trans := rfl
@[simp] theorem State.setFn_prep (s : State) (f : Nat) (x : Func) : (s.setFn f x).prep = s.prep := rfl
@[simp] theorem State.setFn_waken (s : State) (f : Nat) (x : Func) : (s.setFn f x).waken = s.waken := rfl
@[simp] theorem State.setFn_timerArm (s : State) (f : Nat) (x : Func) : (s.setFn f x).timerArm = s.timerArm := rfl
@[simp] theorem State.setFn_pll (s : State) (f : Nat) (x : Func) : (s.setFn f x).pll = s.pll := rfl
@[simp] theorem State.setFn_conn (s : State) (f : Nat) (x : Func) : (s.setFn f x).conn = s.conn := rfl
@[simp] theorem State.setFn_patrolAt (s : State) (f : Nat) (x : Func) : (s.setFn f x).patrolAt = s.patrolAt := rfl
@[simp] theorem State.setFn_patrol (s : State) (f : Nat) (x : Func) : (s.setFn f x).patrol = s.patrol := rfl
@[simp] theorem State.setFn_saved (s : State) (f : Nat) (x : Func) : (s.setFn f x).saved = s.saved := rfl
@[simp] theorem State.setFn_porn (s : State) (f : Nat) (x : Func) : (s.setFn f x).porn = s.porn := rfl
@[simp] theorem State.setFn_badRails (s : State) (f : Nat) (x : Func) : (s.setFn f x).badRails = s.badRails := rfl
@[simp] theorem State.setFn_crReset (s : State) (f : Nat) (x : Func) : (s.setFn f x).crReset = s.crReset := rfl
@[simp] theorem State.setFn_warmRun (s : State) (f : Nat) (x : Func) : (s.setFn f x).warmRun = s.warmRun := rfl
@[simp] theorem State.setFn_bistRun (s : State) (f : Nat) (x : Func) : (s.setFn f x).bistRun = s.bistRun := rfl
@[simp] theorem State.setFn_scrubSeen (s : State) (f : Nat) (x : Func) : (s.setFn f x).scrubSeen = s.scrubSeen := rfl
@[simp] theorem State.setFn_loader (s : State) (f : Nat) (x : Func) : (s.setFn f x).loader = s.loader := rfl
@[simp] theorem State.setFn_cImg (s : State) (f : Nat) (x : Func) : (s.setFn f x).cImg = s.cImg := rfl
@[simp] theorem State.setFn_pImg (s : State) (f : Nat) (x : Func) : (s.setFn f x).pImg = s.pImg := rfl
@[simp] theorem State.setFn_startC (s : State) (f : Nat) (x : Func) : (s.setFn f x).startC = s.startC := rfl
@[simp] theorem State.setFn_startP (s : State) (f : Nat) (x : Func) : (s.setFn f x).startP = s.startP := rfl
@[simp] theorem State.setFn_phPhase (s : State) (f : Nat) (x : Func) : (s.setFn f x).phPhase = s.phPhase := rfl
@[simp] theorem State.setFn_logUnread (s : State) (f : Nat) (x : Func) : (s.setFn f x).logUnread = s.logUnread := rfl
@[simp] theorem State.setFn_dreq (s : State) (f : Nat) (x : Func) : (s.setFn f x).dreq = s.dreq := rfl
@[simp] theorem State.setFn_svc (s : State) (f : Nat) (x : Func) : (s.setFn f x).svc = s.svc := rfl
@[simp] theorem State.setFn_wlog (s : State) (f : Nat) (x : Func) : (s.setFn f x).wlog = s.wlog := rfl
@[simp] theorem State.setFn_saveSt (s : State) (f : Nat) (x : Func) : (s.setFn f x).saveSt = s.saveSt := rfl
@[simp] theorem State.setFn_flash (s : State) (f : Nat) (x : Func) : (s.setFn f x).flash = s.flash := rfl
@[simp] theorem State.setFn_stagedC (s : State) (f : Nat) (x : Func) : (s.setFn f x).stagedC = s.stagedC := rfl
@[simp] theorem State.setFn_stagedP (s : State) (f : Nat) (x : Func) : (s.setFn f x).stagedP = s.stagedP := rfl
@[simp] theorem State.setFn_runC (s : State) (f : Nat) (x : Func) : (s.setFn f x).runC = s.runC := rfl
@[simp] theorem State.setFn_runP (s : State) (f : Nat) (x : Func) : (s.setFn f x).runP = s.runP := rfl
@[simp] theorem State.setFn_burn (s : State) (f : Nat) (x : Func) : (s.setFn f x).burn = s.burn := rfl
@[simp] theorem State.setFn_i3cAddr (s : State) (f : Nat) (x : Func) : (s.setFn f x).i3cAddr = s.i3cAddr := rfl
@[simp] theorem State.setFn_i3cReply (s : State) (f : Nat) (x : Func) : (s.setFn f x).i3cReply = s.i3cReply := rfl
@[simp] theorem State.setFn_dbgOn (s : State) (f : Nat) (x : Func) : (s.setFn f x).dbgOn = s.dbgOn := rfl
@[simp] theorem State.setFn_haltC (s : State) (f : Nat) (x : Func) : (s.setFn f x).haltC = s.haltC := rfl
@[simp] theorem State.setFn_haltP (s : State) (f : Nat) (x : Func) : (s.setFn f x).haltP = s.haltP := rfl
@[simp] theorem State.setFn_fwDue (s : State) (f : Nat) (x : Func) : (s.setFn f x).fwDue = s.fwDue := rfl

/-! ## State.setLane -/

@[simp] theorem State.setLane_pending (s : State) (l : Nat) (x : Lane) : (s.setLane l x).pending = s.pending := rfl
@[simp] theorem State.setLane_time (s : State) (l : Nat) (x : Lane) : (s.setLane l x).time = s.time := rfl
@[simp] theorem State.setLane_prevTime (s : State) (l : Nat) (x : Lane) : (s.setLane l x).prevTime = s.prevTime := rfl
@[simp] theorem State.setLane_tickStep (s : State) (l : Nat) (x : Lane) : (s.setLane l x).tickStep = s.tickStep := rfl
@[simp] theorem State.setLane_launched (s : State) (l : Nat) (x : Lane) : (s.setLane l x).launched = s.launched := rfl
@[simp] theorem State.setLane_scanNext (s : State) (l : Nat) (x : Lane) : (s.setLane l x).scanNext = s.scanNext := rfl
@[simp] theorem State.setLane_pausedAt (s : State) (l : Nat) (x : Lane) : (s.setLane l x).pausedAt = s.pausedAt := rfl
@[simp] theorem State.setLane_cl (s : State) (l : Nat) (x : Lane) : (s.setLane l x).cl = s.cl := rfl
@[simp] theorem State.setLane_subsys (s : State) (l : Nat) (x : Lane) : (s.setLane l x).subsys = s.subsys := rfl
@[simp] theorem State.setLane_safeMark (s : State) (l : Nat) (x : Lane) : (s.setLane l x).safeMark = s.safeMark := rfl
@[simp] theorem State.setLane_tickAon (s : State) (l : Nat) (x : Lane) : (s.setLane l x).tickAon = s.tickAon := rfl
@[simp] theorem State.setLane_clkReq (s : State) (l : Nat) (x : Lane) : (s.setLane l x).clkReq = s.clkReq := rfl
@[simp] theorem State.setLane_freeCtr (s : State) (l : Nat) (x : Lane) : (s.setLane l x).freeCtr = s.freeCtr := rfl
@[simp] theorem State.setLane_seq (s : State) (l : Nat) (x : Lane) : (s.setLane l x).seq = s.seq := rfl
@[simp] theorem State.setLane_out (s : State) (l : Nat) (x : Lane) : (s.setLane l x).out = s.out := rfl
@[simp] theorem State.setLane_regs (s : State) (l : Nat) (x : Lane) : (s.setLane l x).regs = s.regs := rfl
@[simp] theorem State.setLane_mem (s : State) (l : Nat) (x : Lane) : (s.setLane l x).mem = s.mem := rfl
@[simp] theorem State.setLane_ecc (s : State) (l : Nat) (x : Lane) : (s.setLane l x).ecc = s.ecc := rfl
@[simp] theorem State.setLane_slots (s : State) (l : Nat) (x : Lane) : (s.setLane l x).slots = s.slots := rfl
@[simp] theorem State.setLane_stopped (s : State) (l : Nat) (x : Lane) : (s.setLane l x).stopped = s.stopped := rfl
@[simp] theorem State.setLane_weir (s : State) (l : Nat) (x : Lane) : (s.setLane l x).weir = s.weir := rfl
@[simp] theorem State.setLane_ceaWeir (s : State) (l : Nat) (x : Lane) : (s.setLane l x).ceaWeir = s.ceaWeir := rfl
@[simp] theorem State.setLane_cea (s : State) (l : Nat) (x : Lane) : (s.setLane l x).cea = s.cea := rfl
@[simp] theorem State.setLane_rings (s : State) (l : Nat) (x : Lane) : (s.setLane l x).rings = s.rings := rfl
@[simp] theorem State.setLane_srcs (s : State) (l : Nat) (x : Lane) : (s.setLane l x).srcs = s.srcs := rfl
@[simp] theorem State.setLane_launches (s : State) (l : Nat) (x : Lane) : (s.setLane l x).launches = s.launches := rfl
@[simp] theorem State.setLane_stations (s : State) (l : Nat) (x : Lane) : (s.setLane l x).stations = s.stations := rfl
@[simp] theorem State.setLane_fifos (s : State) (l : Nat) (x : Lane) : (s.setLane l x).fifos = s.fifos := rfl
@[simp] theorem State.setLane_fns (s : State) (l : Nat) (x : Lane) : (s.setLane l x).fns = s.fns := rfl
@[simp] theorem State.setLane_tunnel (s : State) (l : Nat) (x : Lane) : (s.setLane l x).tunnel = s.tunnel := rfl
@[simp] theorem State.setLane_cores (s : State) (l : Nat) (x : Lane) : (s.setLane l x).cores = s.cores := rfl
@[simp] theorem State.setLane_shapeQ (s : State) (l : Nat) (x : Lane) : (s.setLane l x).shapeQ = s.shapeQ := rfl
@[simp] theorem State.setLane_reports (s : State) (l : Nat) (x : Lane) : (s.setLane l x).reports = s.reports := rfl
@[simp] theorem State.setLane_irqs (s : State) (l : Nat) (x : Lane) : (s.setLane l x).irqs = s.irqs := rfl
@[simp] theorem State.setLane_doms (s : State) (l : Nat) (x : Lane) : (s.setLane l x).doms = s.doms := rfl
@[simp] theorem State.setLane_mode (s : State) (l : Nat) (x : Lane) : (s.setLane l x).mode = s.mode := rfl
@[simp] theorem State.setLane_merge (s : State) (l : Nat) (x : Lane) : (s.setLane l x).merge = s.merge := rfl
@[simp] theorem State.setLane_ceList (s : State) (l : Nat) (x : Lane) : (s.setLane l x).ceList = s.ceList := rfl
@[simp] theorem State.setLane_remap (s : State) (l : Nat) (x : Lane) : (s.setLane l x).remap = s.remap := rfl
@[simp] theorem State.setLane_held (s : State) (l : Nat) (x : Lane) : (s.setLane l x).held = s.held := rfl
@[simp] theorem State.setLane_downReq (s : State) (l : Nat) (x : Lane) : (s.setLane l x).downReq = s.downReq := rfl
@[simp] theorem State.setLane_staging (s : State) (l : Nat) (x : Lane) : (s.setLane l x).staging = s.staging := rfl
@[simp] theorem State.setLane_sleepReqs (s : State) (l : Nat) (x : Lane) : (s.setLane l x).sleepReqs = s.sleepReqs := rfl
@[simp] theorem State.setLane_safen (s : State) (l : Nat) (x : Lane) : (s.setLane l x).safen = s.safen := rfl
@[simp] theorem State.setLane_aonArmed (s : State) (l : Nat) (x : Lane) : (s.setLane l x).aonArmed = s.aonArmed := rfl
@[simp] theorem State.setLane_fuses (s : State) (l : Nat) (x : Lane) : (s.setLane l x).fuses = s.fuses := rfl
@[simp] theorem State.setLane_boxes (s : State) (l : Nat) (x : Lane) : (s.setLane l x).boxes = s.boxes := rfl
@[simp] theorem State.setLane_debugErr (s : State) (l : Nat) (x : Lane) : (s.setLane l x).debugErr = s.debugErr := rfl
@[simp] theorem State.setLane_jn (s : State) (l : Nat) (x : Lane) : (s.setLane l x).jn = s.jn := rfl
@[simp] theorem State.setLane_dict (s : State) (l : Nat) (x : Lane) : (s.setLane l x).dict = s.dict := rfl
@[simp] theorem State.setLane_phReset (s : State) (l : Nat) (x : Lane) : (s.setLane l x).phReset = s.phReset := rfl
@[simp] theorem State.setLane_ptmLast (s : State) (l : Nat) (x : Lane) : (s.setLane l x).ptmLast = s.ptmLast := rfl
@[simp] theorem State.setLane_ptmOpen (s : State) (l : Nat) (x : Lane) : (s.setLane l x).ptmOpen = s.ptmOpen := rfl
@[simp] theorem State.setLane_pommelUp (s : State) (l : Nat) (x : Lane) : (s.setLane l x).pommelUp = s.pommelUp := rfl
@[simp] theorem State.setLane_cantleUp (s : State) (l : Nat) (x : Lane) : (s.setLane l x).cantleUp = s.cantleUp := rfl
@[simp] theorem State.setLane_commits (s : State) (l : Nat) (x : Lane) : (s.setLane l x).commits = s.commits := rfl
@[simp] theorem State.setLane_opens (s : State) (l : Nat) (x : Lane) : (s.setLane l x).opens = s.opens := rfl
@[simp] theorem State.setLane_loose (s : State) (l : Nat) (x : Lane) : (s.setLane l x).loose = s.loose := rfl
@[simp] theorem State.setLane_shadows (s : State) (l : Nat) (x : Lane) : (s.setLane l x).shadows = s.shadows := rfl
@[simp] theorem State.setLane_conds (s : State) (l : Nat) (x : Lane) : (s.setLane l x).conds = s.conds := rfl
@[simp] theorem State.setLane_counted (s : State) (l : Nat) (x : Lane) : (s.setLane l x).counted = s.counted := rfl
@[simp] theorem State.setLane_ftReact (s : State) (l : Nat) (x : Lane) : (s.setLane l x).ftReact = s.ftReact := rfl
@[simp] theorem State.setLane_ftHeld (s : State) (l : Nat) (x : Lane) : (s.setLane l x).ftHeld = s.ftHeld := rfl
@[simp] theorem State.setLane_faultN (s : State) (l : Nat) (x : Lane) : (s.setLane l x).faultN = s.faultN := rfl
@[simp] theorem State.setLane_kickC (s : State) (l : Nat) (x : Lane) : (s.setLane l x).kickC = s.kickC := rfl
@[simp] theorem State.setLane_kickP (s : State) (l : Nat) (x : Lane) : (s.setLane l x).kickP = s.kickP := rfl
@[simp] theorem State.setLane_relC (s : State) (l : Nat) (x : Lane) : (s.setLane l x).relC = s.relC := rfl
@[simp] theorem State.setLane_relP (s : State) (l : Nat) (x : Lane) : (s.setLane l x).relP = s.relP := rfl
@[simp] theorem State.setLane_trans (s : State) (l : Nat) (x : Lane) : (s.setLane l x).trans = s.trans := rfl
@[simp] theorem State.setLane_prep (s : State) (l : Nat) (x : Lane) : (s.setLane l x).prep = s.prep := rfl
@[simp] theorem State.setLane_waken (s : State) (l : Nat) (x : Lane) : (s.setLane l x).waken = s.waken := rfl
@[simp] theorem State.setLane_timerArm (s : State) (l : Nat) (x : Lane) : (s.setLane l x).timerArm = s.timerArm := rfl
@[simp] theorem State.setLane_pll (s : State) (l : Nat) (x : Lane) : (s.setLane l x).pll = s.pll := rfl
@[simp] theorem State.setLane_conn (s : State) (l : Nat) (x : Lane) : (s.setLane l x).conn = s.conn := rfl
@[simp] theorem State.setLane_patrolAt (s : State) (l : Nat) (x : Lane) : (s.setLane l x).patrolAt = s.patrolAt := rfl
@[simp] theorem State.setLane_patrol (s : State) (l : Nat) (x : Lane) : (s.setLane l x).patrol = s.patrol := rfl
@[simp] theorem State.setLane_saved (s : State) (l : Nat) (x : Lane) : (s.setLane l x).saved = s.saved := rfl
@[simp] theorem State.setLane_porn (s : State) (l : Nat) (x : Lane) : (s.setLane l x).porn = s.porn := rfl
@[simp] theorem State.setLane_badRails (s : State) (l : Nat) (x : Lane) : (s.setLane l x).badRails = s.badRails := rfl
@[simp] theorem State.setLane_crReset (s : State) (l : Nat) (x : Lane) : (s.setLane l x).crReset = s.crReset := rfl
@[simp] theorem State.setLane_warmRun (s : State) (l : Nat) (x : Lane) : (s.setLane l x).warmRun = s.warmRun := rfl
@[simp] theorem State.setLane_bistRun (s : State) (l : Nat) (x : Lane) : (s.setLane l x).bistRun = s.bistRun := rfl
@[simp] theorem State.setLane_scrubSeen (s : State) (l : Nat) (x : Lane) : (s.setLane l x).scrubSeen = s.scrubSeen := rfl
@[simp] theorem State.setLane_loader (s : State) (l : Nat) (x : Lane) : (s.setLane l x).loader = s.loader := rfl
@[simp] theorem State.setLane_cImg (s : State) (l : Nat) (x : Lane) : (s.setLane l x).cImg = s.cImg := rfl
@[simp] theorem State.setLane_pImg (s : State) (l : Nat) (x : Lane) : (s.setLane l x).pImg = s.pImg := rfl
@[simp] theorem State.setLane_startC (s : State) (l : Nat) (x : Lane) : (s.setLane l x).startC = s.startC := rfl
@[simp] theorem State.setLane_startP (s : State) (l : Nat) (x : Lane) : (s.setLane l x).startP = s.startP := rfl
@[simp] theorem State.setLane_phPhase (s : State) (l : Nat) (x : Lane) : (s.setLane l x).phPhase = s.phPhase := rfl
@[simp] theorem State.setLane_logUnread (s : State) (l : Nat) (x : Lane) : (s.setLane l x).logUnread = s.logUnread := rfl
@[simp] theorem State.setLane_dreq (s : State) (l : Nat) (x : Lane) : (s.setLane l x).dreq = s.dreq := rfl
@[simp] theorem State.setLane_svc (s : State) (l : Nat) (x : Lane) : (s.setLane l x).svc = s.svc := rfl
@[simp] theorem State.setLane_wlog (s : State) (l : Nat) (x : Lane) : (s.setLane l x).wlog = s.wlog := rfl
@[simp] theorem State.setLane_saveSt (s : State) (l : Nat) (x : Lane) : (s.setLane l x).saveSt = s.saveSt := rfl
@[simp] theorem State.setLane_flash (s : State) (l : Nat) (x : Lane) : (s.setLane l x).flash = s.flash := rfl
@[simp] theorem State.setLane_stagedC (s : State) (l : Nat) (x : Lane) : (s.setLane l x).stagedC = s.stagedC := rfl
@[simp] theorem State.setLane_stagedP (s : State) (l : Nat) (x : Lane) : (s.setLane l x).stagedP = s.stagedP := rfl
@[simp] theorem State.setLane_runC (s : State) (l : Nat) (x : Lane) : (s.setLane l x).runC = s.runC := rfl
@[simp] theorem State.setLane_runP (s : State) (l : Nat) (x : Lane) : (s.setLane l x).runP = s.runP := rfl
@[simp] theorem State.setLane_burn (s : State) (l : Nat) (x : Lane) : (s.setLane l x).burn = s.burn := rfl
@[simp] theorem State.setLane_i3cAddr (s : State) (l : Nat) (x : Lane) : (s.setLane l x).i3cAddr = s.i3cAddr := rfl
@[simp] theorem State.setLane_i3cReply (s : State) (l : Nat) (x : Lane) : (s.setLane l x).i3cReply = s.i3cReply := rfl
@[simp] theorem State.setLane_dbgOn (s : State) (l : Nat) (x : Lane) : (s.setLane l x).dbgOn = s.dbgOn := rfl
@[simp] theorem State.setLane_haltC (s : State) (l : Nat) (x : Lane) : (s.setLane l x).haltC = s.haltC := rfl
@[simp] theorem State.setLane_haltP (s : State) (l : Nat) (x : Lane) : (s.setLane l x).haltP = s.haltP := rfl
@[simp] theorem State.setLane_fwDue (s : State) (l : Nat) (x : Lane) : (s.setLane l x).fwDue = s.fwDue := rfl

/-! ## State.setStation -/

@[simp] theorem State.setStation_pending (s : State) (n : Nat) (x : Station) : (s.setStation n x).pending = s.pending := rfl
@[simp] theorem State.setStation_time (s : State) (n : Nat) (x : Station) : (s.setStation n x).time = s.time := rfl
@[simp] theorem State.setStation_prevTime (s : State) (n : Nat) (x : Station) : (s.setStation n x).prevTime = s.prevTime := rfl
@[simp] theorem State.setStation_tickStep (s : State) (n : Nat) (x : Station) : (s.setStation n x).tickStep = s.tickStep := rfl
@[simp] theorem State.setStation_launched (s : State) (n : Nat) (x : Station) : (s.setStation n x).launched = s.launched := rfl
@[simp] theorem State.setStation_scanNext (s : State) (n : Nat) (x : Station) : (s.setStation n x).scanNext = s.scanNext := rfl
@[simp] theorem State.setStation_pausedAt (s : State) (n : Nat) (x : Station) : (s.setStation n x).pausedAt = s.pausedAt := rfl
@[simp] theorem State.setStation_cl (s : State) (n : Nat) (x : Station) : (s.setStation n x).cl = s.cl := rfl
@[simp] theorem State.setStation_subsys (s : State) (n : Nat) (x : Station) : (s.setStation n x).subsys = s.subsys := rfl
@[simp] theorem State.setStation_safeMark (s : State) (n : Nat) (x : Station) : (s.setStation n x).safeMark = s.safeMark := rfl
@[simp] theorem State.setStation_tickAon (s : State) (n : Nat) (x : Station) : (s.setStation n x).tickAon = s.tickAon := rfl
@[simp] theorem State.setStation_clkReq (s : State) (n : Nat) (x : Station) : (s.setStation n x).clkReq = s.clkReq := rfl
@[simp] theorem State.setStation_freeCtr (s : State) (n : Nat) (x : Station) : (s.setStation n x).freeCtr = s.freeCtr := rfl
@[simp] theorem State.setStation_seq (s : State) (n : Nat) (x : Station) : (s.setStation n x).seq = s.seq := rfl
@[simp] theorem State.setStation_out (s : State) (n : Nat) (x : Station) : (s.setStation n x).out = s.out := rfl
@[simp] theorem State.setStation_regs (s : State) (n : Nat) (x : Station) : (s.setStation n x).regs = s.regs := rfl
@[simp] theorem State.setStation_mem (s : State) (n : Nat) (x : Station) : (s.setStation n x).mem = s.mem := rfl
@[simp] theorem State.setStation_ecc (s : State) (n : Nat) (x : Station) : (s.setStation n x).ecc = s.ecc := rfl
@[simp] theorem State.setStation_slots (s : State) (n : Nat) (x : Station) : (s.setStation n x).slots = s.slots := rfl
@[simp] theorem State.setStation_stopped (s : State) (n : Nat) (x : Station) : (s.setStation n x).stopped = s.stopped := rfl
@[simp] theorem State.setStation_weir (s : State) (n : Nat) (x : Station) : (s.setStation n x).weir = s.weir := rfl
@[simp] theorem State.setStation_ceaWeir (s : State) (n : Nat) (x : Station) : (s.setStation n x).ceaWeir = s.ceaWeir := rfl
@[simp] theorem State.setStation_cea (s : State) (n : Nat) (x : Station) : (s.setStation n x).cea = s.cea := rfl
@[simp] theorem State.setStation_rings (s : State) (n : Nat) (x : Station) : (s.setStation n x).rings = s.rings := rfl
@[simp] theorem State.setStation_srcs (s : State) (n : Nat) (x : Station) : (s.setStation n x).srcs = s.srcs := rfl
@[simp] theorem State.setStation_launches (s : State) (n : Nat) (x : Station) : (s.setStation n x).launches = s.launches := rfl
@[simp] theorem State.setStation_lanes (s : State) (n : Nat) (x : Station) : (s.setStation n x).lanes = s.lanes := rfl
@[simp] theorem State.setStation_fifos (s : State) (n : Nat) (x : Station) : (s.setStation n x).fifos = s.fifos := rfl
@[simp] theorem State.setStation_fns (s : State) (n : Nat) (x : Station) : (s.setStation n x).fns = s.fns := rfl
@[simp] theorem State.setStation_tunnel (s : State) (n : Nat) (x : Station) : (s.setStation n x).tunnel = s.tunnel := rfl
@[simp] theorem State.setStation_cores (s : State) (n : Nat) (x : Station) : (s.setStation n x).cores = s.cores := rfl
@[simp] theorem State.setStation_shapeQ (s : State) (n : Nat) (x : Station) : (s.setStation n x).shapeQ = s.shapeQ := rfl
@[simp] theorem State.setStation_reports (s : State) (n : Nat) (x : Station) : (s.setStation n x).reports = s.reports := rfl
@[simp] theorem State.setStation_irqs (s : State) (n : Nat) (x : Station) : (s.setStation n x).irqs = s.irqs := rfl
@[simp] theorem State.setStation_doms (s : State) (n : Nat) (x : Station) : (s.setStation n x).doms = s.doms := rfl
@[simp] theorem State.setStation_mode (s : State) (n : Nat) (x : Station) : (s.setStation n x).mode = s.mode := rfl
@[simp] theorem State.setStation_merge (s : State) (n : Nat) (x : Station) : (s.setStation n x).merge = s.merge := rfl
@[simp] theorem State.setStation_ceList (s : State) (n : Nat) (x : Station) : (s.setStation n x).ceList = s.ceList := rfl
@[simp] theorem State.setStation_remap (s : State) (n : Nat) (x : Station) : (s.setStation n x).remap = s.remap := rfl
@[simp] theorem State.setStation_held (s : State) (n : Nat) (x : Station) : (s.setStation n x).held = s.held := rfl
@[simp] theorem State.setStation_downReq (s : State) (n : Nat) (x : Station) : (s.setStation n x).downReq = s.downReq := rfl
@[simp] theorem State.setStation_staging (s : State) (n : Nat) (x : Station) : (s.setStation n x).staging = s.staging := rfl
@[simp] theorem State.setStation_sleepReqs (s : State) (n : Nat) (x : Station) : (s.setStation n x).sleepReqs = s.sleepReqs := rfl
@[simp] theorem State.setStation_safen (s : State) (n : Nat) (x : Station) : (s.setStation n x).safen = s.safen := rfl
@[simp] theorem State.setStation_aonArmed (s : State) (n : Nat) (x : Station) : (s.setStation n x).aonArmed = s.aonArmed := rfl
@[simp] theorem State.setStation_fuses (s : State) (n : Nat) (x : Station) : (s.setStation n x).fuses = s.fuses := rfl
@[simp] theorem State.setStation_boxes (s : State) (n : Nat) (x : Station) : (s.setStation n x).boxes = s.boxes := rfl
@[simp] theorem State.setStation_debugErr (s : State) (n : Nat) (x : Station) : (s.setStation n x).debugErr = s.debugErr := rfl
@[simp] theorem State.setStation_jn (s : State) (n : Nat) (x : Station) : (s.setStation n x).jn = s.jn := rfl
@[simp] theorem State.setStation_dict (s : State) (n : Nat) (x : Station) : (s.setStation n x).dict = s.dict := rfl
@[simp] theorem State.setStation_phReset (s : State) (n : Nat) (x : Station) : (s.setStation n x).phReset = s.phReset := rfl
@[simp] theorem State.setStation_ptmLast (s : State) (n : Nat) (x : Station) : (s.setStation n x).ptmLast = s.ptmLast := rfl
@[simp] theorem State.setStation_ptmOpen (s : State) (n : Nat) (x : Station) : (s.setStation n x).ptmOpen = s.ptmOpen := rfl
@[simp] theorem State.setStation_pommelUp (s : State) (n : Nat) (x : Station) : (s.setStation n x).pommelUp = s.pommelUp := rfl
@[simp] theorem State.setStation_cantleUp (s : State) (n : Nat) (x : Station) : (s.setStation n x).cantleUp = s.cantleUp := rfl
@[simp] theorem State.setStation_commits (s : State) (n : Nat) (x : Station) : (s.setStation n x).commits = s.commits := rfl
@[simp] theorem State.setStation_opens (s : State) (n : Nat) (x : Station) : (s.setStation n x).opens = s.opens := rfl
@[simp] theorem State.setStation_loose (s : State) (n : Nat) (x : Station) : (s.setStation n x).loose = s.loose := rfl
@[simp] theorem State.setStation_shadows (s : State) (n : Nat) (x : Station) : (s.setStation n x).shadows = s.shadows := rfl
@[simp] theorem State.setStation_conds (s : State) (n : Nat) (x : Station) : (s.setStation n x).conds = s.conds := rfl
@[simp] theorem State.setStation_counted (s : State) (n : Nat) (x : Station) : (s.setStation n x).counted = s.counted := rfl
@[simp] theorem State.setStation_ftReact (s : State) (n : Nat) (x : Station) : (s.setStation n x).ftReact = s.ftReact := rfl
@[simp] theorem State.setStation_ftHeld (s : State) (n : Nat) (x : Station) : (s.setStation n x).ftHeld = s.ftHeld := rfl
@[simp] theorem State.setStation_faultN (s : State) (n : Nat) (x : Station) : (s.setStation n x).faultN = s.faultN := rfl
@[simp] theorem State.setStation_kickC (s : State) (n : Nat) (x : Station) : (s.setStation n x).kickC = s.kickC := rfl
@[simp] theorem State.setStation_kickP (s : State) (n : Nat) (x : Station) : (s.setStation n x).kickP = s.kickP := rfl
@[simp] theorem State.setStation_relC (s : State) (n : Nat) (x : Station) : (s.setStation n x).relC = s.relC := rfl
@[simp] theorem State.setStation_relP (s : State) (n : Nat) (x : Station) : (s.setStation n x).relP = s.relP := rfl
@[simp] theorem State.setStation_trans (s : State) (n : Nat) (x : Station) : (s.setStation n x).trans = s.trans := rfl
@[simp] theorem State.setStation_prep (s : State) (n : Nat) (x : Station) : (s.setStation n x).prep = s.prep := rfl
@[simp] theorem State.setStation_waken (s : State) (n : Nat) (x : Station) : (s.setStation n x).waken = s.waken := rfl
@[simp] theorem State.setStation_timerArm (s : State) (n : Nat) (x : Station) : (s.setStation n x).timerArm = s.timerArm := rfl
@[simp] theorem State.setStation_pll (s : State) (n : Nat) (x : Station) : (s.setStation n x).pll = s.pll := rfl
@[simp] theorem State.setStation_conn (s : State) (n : Nat) (x : Station) : (s.setStation n x).conn = s.conn := rfl
@[simp] theorem State.setStation_patrolAt (s : State) (n : Nat) (x : Station) : (s.setStation n x).patrolAt = s.patrolAt := rfl
@[simp] theorem State.setStation_patrol (s : State) (n : Nat) (x : Station) : (s.setStation n x).patrol = s.patrol := rfl
@[simp] theorem State.setStation_saved (s : State) (n : Nat) (x : Station) : (s.setStation n x).saved = s.saved := rfl
@[simp] theorem State.setStation_porn (s : State) (n : Nat) (x : Station) : (s.setStation n x).porn = s.porn := rfl
@[simp] theorem State.setStation_badRails (s : State) (n : Nat) (x : Station) : (s.setStation n x).badRails = s.badRails := rfl
@[simp] theorem State.setStation_crReset (s : State) (n : Nat) (x : Station) : (s.setStation n x).crReset = s.crReset := rfl
@[simp] theorem State.setStation_warmRun (s : State) (n : Nat) (x : Station) : (s.setStation n x).warmRun = s.warmRun := rfl
@[simp] theorem State.setStation_bistRun (s : State) (n : Nat) (x : Station) : (s.setStation n x).bistRun = s.bistRun := rfl
@[simp] theorem State.setStation_scrubSeen (s : State) (n : Nat) (x : Station) : (s.setStation n x).scrubSeen = s.scrubSeen := rfl
@[simp] theorem State.setStation_loader (s : State) (n : Nat) (x : Station) : (s.setStation n x).loader = s.loader := rfl
@[simp] theorem State.setStation_cImg (s : State) (n : Nat) (x : Station) : (s.setStation n x).cImg = s.cImg := rfl
@[simp] theorem State.setStation_pImg (s : State) (n : Nat) (x : Station) : (s.setStation n x).pImg = s.pImg := rfl
@[simp] theorem State.setStation_startC (s : State) (n : Nat) (x : Station) : (s.setStation n x).startC = s.startC := rfl
@[simp] theorem State.setStation_startP (s : State) (n : Nat) (x : Station) : (s.setStation n x).startP = s.startP := rfl
@[simp] theorem State.setStation_phPhase (s : State) (n : Nat) (x : Station) : (s.setStation n x).phPhase = s.phPhase := rfl
@[simp] theorem State.setStation_logUnread (s : State) (n : Nat) (x : Station) : (s.setStation n x).logUnread = s.logUnread := rfl
@[simp] theorem State.setStation_dreq (s : State) (n : Nat) (x : Station) : (s.setStation n x).dreq = s.dreq := rfl
@[simp] theorem State.setStation_svc (s : State) (n : Nat) (x : Station) : (s.setStation n x).svc = s.svc := rfl
@[simp] theorem State.setStation_wlog (s : State) (n : Nat) (x : Station) : (s.setStation n x).wlog = s.wlog := rfl
@[simp] theorem State.setStation_saveSt (s : State) (n : Nat) (x : Station) : (s.setStation n x).saveSt = s.saveSt := rfl
@[simp] theorem State.setStation_flash (s : State) (n : Nat) (x : Station) : (s.setStation n x).flash = s.flash := rfl
@[simp] theorem State.setStation_stagedC (s : State) (n : Nat) (x : Station) : (s.setStation n x).stagedC = s.stagedC := rfl
@[simp] theorem State.setStation_stagedP (s : State) (n : Nat) (x : Station) : (s.setStation n x).stagedP = s.stagedP := rfl
@[simp] theorem State.setStation_runC (s : State) (n : Nat) (x : Station) : (s.setStation n x).runC = s.runC := rfl
@[simp] theorem State.setStation_runP (s : State) (n : Nat) (x : Station) : (s.setStation n x).runP = s.runP := rfl
@[simp] theorem State.setStation_burn (s : State) (n : Nat) (x : Station) : (s.setStation n x).burn = s.burn := rfl
@[simp] theorem State.setStation_i3cAddr (s : State) (n : Nat) (x : Station) : (s.setStation n x).i3cAddr = s.i3cAddr := rfl
@[simp] theorem State.setStation_i3cReply (s : State) (n : Nat) (x : Station) : (s.setStation n x).i3cReply = s.i3cReply := rfl
@[simp] theorem State.setStation_dbgOn (s : State) (n : Nat) (x : Station) : (s.setStation n x).dbgOn = s.dbgOn := rfl
@[simp] theorem State.setStation_haltC (s : State) (n : Nat) (x : Station) : (s.setStation n x).haltC = s.haltC := rfl
@[simp] theorem State.setStation_haltP (s : State) (n : Nat) (x : Station) : (s.setStation n x).haltP = s.haltP := rfl
@[simp] theorem State.setStation_fwDue (s : State) (n : Nat) (x : Station) : (s.setStation n x).fwDue = s.fwDue := rfl

/-! ## State.setFifo -/

@[simp] theorem State.setFifo_pending (s : State) (q : Nat) (x : Fifo) : (s.setFifo q x).pending = s.pending := rfl
@[simp] theorem State.setFifo_time (s : State) (q : Nat) (x : Fifo) : (s.setFifo q x).time = s.time := rfl
@[simp] theorem State.setFifo_prevTime (s : State) (q : Nat) (x : Fifo) : (s.setFifo q x).prevTime = s.prevTime := rfl
@[simp] theorem State.setFifo_tickStep (s : State) (q : Nat) (x : Fifo) : (s.setFifo q x).tickStep = s.tickStep := rfl
@[simp] theorem State.setFifo_launched (s : State) (q : Nat) (x : Fifo) : (s.setFifo q x).launched = s.launched := rfl
@[simp] theorem State.setFifo_scanNext (s : State) (q : Nat) (x : Fifo) : (s.setFifo q x).scanNext = s.scanNext := rfl
@[simp] theorem State.setFifo_pausedAt (s : State) (q : Nat) (x : Fifo) : (s.setFifo q x).pausedAt = s.pausedAt := rfl
@[simp] theorem State.setFifo_cl (s : State) (q : Nat) (x : Fifo) : (s.setFifo q x).cl = s.cl := rfl
@[simp] theorem State.setFifo_subsys (s : State) (q : Nat) (x : Fifo) : (s.setFifo q x).subsys = s.subsys := rfl
@[simp] theorem State.setFifo_safeMark (s : State) (q : Nat) (x : Fifo) : (s.setFifo q x).safeMark = s.safeMark := rfl
@[simp] theorem State.setFifo_tickAon (s : State) (q : Nat) (x : Fifo) : (s.setFifo q x).tickAon = s.tickAon := rfl
@[simp] theorem State.setFifo_clkReq (s : State) (q : Nat) (x : Fifo) : (s.setFifo q x).clkReq = s.clkReq := rfl
@[simp] theorem State.setFifo_freeCtr (s : State) (q : Nat) (x : Fifo) : (s.setFifo q x).freeCtr = s.freeCtr := rfl
@[simp] theorem State.setFifo_seq (s : State) (q : Nat) (x : Fifo) : (s.setFifo q x).seq = s.seq := rfl
@[simp] theorem State.setFifo_out (s : State) (q : Nat) (x : Fifo) : (s.setFifo q x).out = s.out := rfl
@[simp] theorem State.setFifo_regs (s : State) (q : Nat) (x : Fifo) : (s.setFifo q x).regs = s.regs := rfl
@[simp] theorem State.setFifo_mem (s : State) (q : Nat) (x : Fifo) : (s.setFifo q x).mem = s.mem := rfl
@[simp] theorem State.setFifo_ecc (s : State) (q : Nat) (x : Fifo) : (s.setFifo q x).ecc = s.ecc := rfl
@[simp] theorem State.setFifo_slots (s : State) (q : Nat) (x : Fifo) : (s.setFifo q x).slots = s.slots := rfl
@[simp] theorem State.setFifo_stopped (s : State) (q : Nat) (x : Fifo) : (s.setFifo q x).stopped = s.stopped := rfl
@[simp] theorem State.setFifo_weir (s : State) (q : Nat) (x : Fifo) : (s.setFifo q x).weir = s.weir := rfl
@[simp] theorem State.setFifo_ceaWeir (s : State) (q : Nat) (x : Fifo) : (s.setFifo q x).ceaWeir = s.ceaWeir := rfl
@[simp] theorem State.setFifo_cea (s : State) (q : Nat) (x : Fifo) : (s.setFifo q x).cea = s.cea := rfl
@[simp] theorem State.setFifo_rings (s : State) (q : Nat) (x : Fifo) : (s.setFifo q x).rings = s.rings := rfl
@[simp] theorem State.setFifo_srcs (s : State) (q : Nat) (x : Fifo) : (s.setFifo q x).srcs = s.srcs := rfl
@[simp] theorem State.setFifo_launches (s : State) (q : Nat) (x : Fifo) : (s.setFifo q x).launches = s.launches := rfl
@[simp] theorem State.setFifo_lanes (s : State) (q : Nat) (x : Fifo) : (s.setFifo q x).lanes = s.lanes := rfl
@[simp] theorem State.setFifo_stations (s : State) (q : Nat) (x : Fifo) : (s.setFifo q x).stations = s.stations := rfl
@[simp] theorem State.setFifo_fns (s : State) (q : Nat) (x : Fifo) : (s.setFifo q x).fns = s.fns := rfl
@[simp] theorem State.setFifo_tunnel (s : State) (q : Nat) (x : Fifo) : (s.setFifo q x).tunnel = s.tunnel := rfl
@[simp] theorem State.setFifo_cores (s : State) (q : Nat) (x : Fifo) : (s.setFifo q x).cores = s.cores := rfl
@[simp] theorem State.setFifo_shapeQ (s : State) (q : Nat) (x : Fifo) : (s.setFifo q x).shapeQ = s.shapeQ := rfl
@[simp] theorem State.setFifo_reports (s : State) (q : Nat) (x : Fifo) : (s.setFifo q x).reports = s.reports := rfl
@[simp] theorem State.setFifo_irqs (s : State) (q : Nat) (x : Fifo) : (s.setFifo q x).irqs = s.irqs := rfl
@[simp] theorem State.setFifo_doms (s : State) (q : Nat) (x : Fifo) : (s.setFifo q x).doms = s.doms := rfl
@[simp] theorem State.setFifo_mode (s : State) (q : Nat) (x : Fifo) : (s.setFifo q x).mode = s.mode := rfl
@[simp] theorem State.setFifo_merge (s : State) (q : Nat) (x : Fifo) : (s.setFifo q x).merge = s.merge := rfl
@[simp] theorem State.setFifo_ceList (s : State) (q : Nat) (x : Fifo) : (s.setFifo q x).ceList = s.ceList := rfl
@[simp] theorem State.setFifo_remap (s : State) (q : Nat) (x : Fifo) : (s.setFifo q x).remap = s.remap := rfl
@[simp] theorem State.setFifo_held (s : State) (q : Nat) (x : Fifo) : (s.setFifo q x).held = s.held := rfl
@[simp] theorem State.setFifo_downReq (s : State) (q : Nat) (x : Fifo) : (s.setFifo q x).downReq = s.downReq := rfl
@[simp] theorem State.setFifo_staging (s : State) (q : Nat) (x : Fifo) : (s.setFifo q x).staging = s.staging := rfl
@[simp] theorem State.setFifo_sleepReqs (s : State) (q : Nat) (x : Fifo) : (s.setFifo q x).sleepReqs = s.sleepReqs := rfl
@[simp] theorem State.setFifo_safen (s : State) (q : Nat) (x : Fifo) : (s.setFifo q x).safen = s.safen := rfl
@[simp] theorem State.setFifo_aonArmed (s : State) (q : Nat) (x : Fifo) : (s.setFifo q x).aonArmed = s.aonArmed := rfl
@[simp] theorem State.setFifo_fuses (s : State) (q : Nat) (x : Fifo) : (s.setFifo q x).fuses = s.fuses := rfl
@[simp] theorem State.setFifo_boxes (s : State) (q : Nat) (x : Fifo) : (s.setFifo q x).boxes = s.boxes := rfl
@[simp] theorem State.setFifo_debugErr (s : State) (q : Nat) (x : Fifo) : (s.setFifo q x).debugErr = s.debugErr := rfl
@[simp] theorem State.setFifo_jn (s : State) (q : Nat) (x : Fifo) : (s.setFifo q x).jn = s.jn := rfl
@[simp] theorem State.setFifo_dict (s : State) (q : Nat) (x : Fifo) : (s.setFifo q x).dict = s.dict := rfl
@[simp] theorem State.setFifo_phReset (s : State) (q : Nat) (x : Fifo) : (s.setFifo q x).phReset = s.phReset := rfl
@[simp] theorem State.setFifo_ptmLast (s : State) (q : Nat) (x : Fifo) : (s.setFifo q x).ptmLast = s.ptmLast := rfl
@[simp] theorem State.setFifo_ptmOpen (s : State) (q : Nat) (x : Fifo) : (s.setFifo q x).ptmOpen = s.ptmOpen := rfl
@[simp] theorem State.setFifo_pommelUp (s : State) (q : Nat) (x : Fifo) : (s.setFifo q x).pommelUp = s.pommelUp := rfl
@[simp] theorem State.setFifo_cantleUp (s : State) (q : Nat) (x : Fifo) : (s.setFifo q x).cantleUp = s.cantleUp := rfl
@[simp] theorem State.setFifo_commits (s : State) (q : Nat) (x : Fifo) : (s.setFifo q x).commits = s.commits := rfl
@[simp] theorem State.setFifo_opens (s : State) (q : Nat) (x : Fifo) : (s.setFifo q x).opens = s.opens := rfl
@[simp] theorem State.setFifo_loose (s : State) (q : Nat) (x : Fifo) : (s.setFifo q x).loose = s.loose := rfl
@[simp] theorem State.setFifo_shadows (s : State) (q : Nat) (x : Fifo) : (s.setFifo q x).shadows = s.shadows := rfl
@[simp] theorem State.setFifo_conds (s : State) (q : Nat) (x : Fifo) : (s.setFifo q x).conds = s.conds := rfl
@[simp] theorem State.setFifo_counted (s : State) (q : Nat) (x : Fifo) : (s.setFifo q x).counted = s.counted := rfl
@[simp] theorem State.setFifo_ftReact (s : State) (q : Nat) (x : Fifo) : (s.setFifo q x).ftReact = s.ftReact := rfl
@[simp] theorem State.setFifo_ftHeld (s : State) (q : Nat) (x : Fifo) : (s.setFifo q x).ftHeld = s.ftHeld := rfl
@[simp] theorem State.setFifo_faultN (s : State) (q : Nat) (x : Fifo) : (s.setFifo q x).faultN = s.faultN := rfl
@[simp] theorem State.setFifo_kickC (s : State) (q : Nat) (x : Fifo) : (s.setFifo q x).kickC = s.kickC := rfl
@[simp] theorem State.setFifo_kickP (s : State) (q : Nat) (x : Fifo) : (s.setFifo q x).kickP = s.kickP := rfl
@[simp] theorem State.setFifo_relC (s : State) (q : Nat) (x : Fifo) : (s.setFifo q x).relC = s.relC := rfl
@[simp] theorem State.setFifo_relP (s : State) (q : Nat) (x : Fifo) : (s.setFifo q x).relP = s.relP := rfl
@[simp] theorem State.setFifo_trans (s : State) (q : Nat) (x : Fifo) : (s.setFifo q x).trans = s.trans := rfl
@[simp] theorem State.setFifo_prep (s : State) (q : Nat) (x : Fifo) : (s.setFifo q x).prep = s.prep := rfl
@[simp] theorem State.setFifo_waken (s : State) (q : Nat) (x : Fifo) : (s.setFifo q x).waken = s.waken := rfl
@[simp] theorem State.setFifo_timerArm (s : State) (q : Nat) (x : Fifo) : (s.setFifo q x).timerArm = s.timerArm := rfl
@[simp] theorem State.setFifo_pll (s : State) (q : Nat) (x : Fifo) : (s.setFifo q x).pll = s.pll := rfl
@[simp] theorem State.setFifo_conn (s : State) (q : Nat) (x : Fifo) : (s.setFifo q x).conn = s.conn := rfl
@[simp] theorem State.setFifo_patrolAt (s : State) (q : Nat) (x : Fifo) : (s.setFifo q x).patrolAt = s.patrolAt := rfl
@[simp] theorem State.setFifo_patrol (s : State) (q : Nat) (x : Fifo) : (s.setFifo q x).patrol = s.patrol := rfl
@[simp] theorem State.setFifo_saved (s : State) (q : Nat) (x : Fifo) : (s.setFifo q x).saved = s.saved := rfl
@[simp] theorem State.setFifo_porn (s : State) (q : Nat) (x : Fifo) : (s.setFifo q x).porn = s.porn := rfl
@[simp] theorem State.setFifo_badRails (s : State) (q : Nat) (x : Fifo) : (s.setFifo q x).badRails = s.badRails := rfl
@[simp] theorem State.setFifo_crReset (s : State) (q : Nat) (x : Fifo) : (s.setFifo q x).crReset = s.crReset := rfl
@[simp] theorem State.setFifo_warmRun (s : State) (q : Nat) (x : Fifo) : (s.setFifo q x).warmRun = s.warmRun := rfl
@[simp] theorem State.setFifo_bistRun (s : State) (q : Nat) (x : Fifo) : (s.setFifo q x).bistRun = s.bistRun := rfl
@[simp] theorem State.setFifo_scrubSeen (s : State) (q : Nat) (x : Fifo) : (s.setFifo q x).scrubSeen = s.scrubSeen := rfl
@[simp] theorem State.setFifo_loader (s : State) (q : Nat) (x : Fifo) : (s.setFifo q x).loader = s.loader := rfl
@[simp] theorem State.setFifo_cImg (s : State) (q : Nat) (x : Fifo) : (s.setFifo q x).cImg = s.cImg := rfl
@[simp] theorem State.setFifo_pImg (s : State) (q : Nat) (x : Fifo) : (s.setFifo q x).pImg = s.pImg := rfl
@[simp] theorem State.setFifo_startC (s : State) (q : Nat) (x : Fifo) : (s.setFifo q x).startC = s.startC := rfl
@[simp] theorem State.setFifo_startP (s : State) (q : Nat) (x : Fifo) : (s.setFifo q x).startP = s.startP := rfl
@[simp] theorem State.setFifo_phPhase (s : State) (q : Nat) (x : Fifo) : (s.setFifo q x).phPhase = s.phPhase := rfl
@[simp] theorem State.setFifo_logUnread (s : State) (q : Nat) (x : Fifo) : (s.setFifo q x).logUnread = s.logUnread := rfl
@[simp] theorem State.setFifo_dreq (s : State) (q : Nat) (x : Fifo) : (s.setFifo q x).dreq = s.dreq := rfl
@[simp] theorem State.setFifo_svc (s : State) (q : Nat) (x : Fifo) : (s.setFifo q x).svc = s.svc := rfl
@[simp] theorem State.setFifo_wlog (s : State) (q : Nat) (x : Fifo) : (s.setFifo q x).wlog = s.wlog := rfl
@[simp] theorem State.setFifo_saveSt (s : State) (q : Nat) (x : Fifo) : (s.setFifo q x).saveSt = s.saveSt := rfl
@[simp] theorem State.setFifo_flash (s : State) (q : Nat) (x : Fifo) : (s.setFifo q x).flash = s.flash := rfl
@[simp] theorem State.setFifo_stagedC (s : State) (q : Nat) (x : Fifo) : (s.setFifo q x).stagedC = s.stagedC := rfl
@[simp] theorem State.setFifo_stagedP (s : State) (q : Nat) (x : Fifo) : (s.setFifo q x).stagedP = s.stagedP := rfl
@[simp] theorem State.setFifo_runC (s : State) (q : Nat) (x : Fifo) : (s.setFifo q x).runC = s.runC := rfl
@[simp] theorem State.setFifo_runP (s : State) (q : Nat) (x : Fifo) : (s.setFifo q x).runP = s.runP := rfl
@[simp] theorem State.setFifo_burn (s : State) (q : Nat) (x : Fifo) : (s.setFifo q x).burn = s.burn := rfl
@[simp] theorem State.setFifo_i3cAddr (s : State) (q : Nat) (x : Fifo) : (s.setFifo q x).i3cAddr = s.i3cAddr := rfl
@[simp] theorem State.setFifo_i3cReply (s : State) (q : Nat) (x : Fifo) : (s.setFifo q x).i3cReply = s.i3cReply := rfl
@[simp] theorem State.setFifo_dbgOn (s : State) (q : Nat) (x : Fifo) : (s.setFifo q x).dbgOn = s.dbgOn := rfl
@[simp] theorem State.setFifo_haltC (s : State) (q : Nat) (x : Fifo) : (s.setFifo q x).haltC = s.haltC := rfl
@[simp] theorem State.setFifo_haltP (s : State) (q : Nat) (x : Fifo) : (s.setFifo q x).haltP = s.haltP := rfl
@[simp] theorem State.setFifo_fwDue (s : State) (q : Nat) (x : Fifo) : (s.setFifo q x).fwDue = s.fwDue := rfl

/-! ## State.setCore -/

@[simp] theorem State.setCore_pending (s : State) (c : Nat) (x : ScCore) : (s.setCore c x).pending = s.pending := rfl
@[simp] theorem State.setCore_time (s : State) (c : Nat) (x : ScCore) : (s.setCore c x).time = s.time := rfl
@[simp] theorem State.setCore_prevTime (s : State) (c : Nat) (x : ScCore) : (s.setCore c x).prevTime = s.prevTime := rfl
@[simp] theorem State.setCore_tickStep (s : State) (c : Nat) (x : ScCore) : (s.setCore c x).tickStep = s.tickStep := rfl
@[simp] theorem State.setCore_launched (s : State) (c : Nat) (x : ScCore) : (s.setCore c x).launched = s.launched := rfl
@[simp] theorem State.setCore_scanNext (s : State) (c : Nat) (x : ScCore) : (s.setCore c x).scanNext = s.scanNext := rfl
@[simp] theorem State.setCore_pausedAt (s : State) (c : Nat) (x : ScCore) : (s.setCore c x).pausedAt = s.pausedAt := rfl
@[simp] theorem State.setCore_cl (s : State) (c : Nat) (x : ScCore) : (s.setCore c x).cl = s.cl := rfl
@[simp] theorem State.setCore_subsys (s : State) (c : Nat) (x : ScCore) : (s.setCore c x).subsys = s.subsys := rfl
@[simp] theorem State.setCore_safeMark (s : State) (c : Nat) (x : ScCore) : (s.setCore c x).safeMark = s.safeMark := rfl
@[simp] theorem State.setCore_tickAon (s : State) (c : Nat) (x : ScCore) : (s.setCore c x).tickAon = s.tickAon := rfl
@[simp] theorem State.setCore_clkReq (s : State) (c : Nat) (x : ScCore) : (s.setCore c x).clkReq = s.clkReq := rfl
@[simp] theorem State.setCore_freeCtr (s : State) (c : Nat) (x : ScCore) : (s.setCore c x).freeCtr = s.freeCtr := rfl
@[simp] theorem State.setCore_seq (s : State) (c : Nat) (x : ScCore) : (s.setCore c x).seq = s.seq := rfl
@[simp] theorem State.setCore_out (s : State) (c : Nat) (x : ScCore) : (s.setCore c x).out = s.out := rfl
@[simp] theorem State.setCore_regs (s : State) (c : Nat) (x : ScCore) : (s.setCore c x).regs = s.regs := rfl
@[simp] theorem State.setCore_mem (s : State) (c : Nat) (x : ScCore) : (s.setCore c x).mem = s.mem := rfl
@[simp] theorem State.setCore_ecc (s : State) (c : Nat) (x : ScCore) : (s.setCore c x).ecc = s.ecc := rfl
@[simp] theorem State.setCore_slots (s : State) (c : Nat) (x : ScCore) : (s.setCore c x).slots = s.slots := rfl
@[simp] theorem State.setCore_stopped (s : State) (c : Nat) (x : ScCore) : (s.setCore c x).stopped = s.stopped := rfl
@[simp] theorem State.setCore_weir (s : State) (c : Nat) (x : ScCore) : (s.setCore c x).weir = s.weir := rfl
@[simp] theorem State.setCore_ceaWeir (s : State) (c : Nat) (x : ScCore) : (s.setCore c x).ceaWeir = s.ceaWeir := rfl
@[simp] theorem State.setCore_cea (s : State) (c : Nat) (x : ScCore) : (s.setCore c x).cea = s.cea := rfl
@[simp] theorem State.setCore_rings (s : State) (c : Nat) (x : ScCore) : (s.setCore c x).rings = s.rings := rfl
@[simp] theorem State.setCore_srcs (s : State) (c : Nat) (x : ScCore) : (s.setCore c x).srcs = s.srcs := rfl
@[simp] theorem State.setCore_launches (s : State) (c : Nat) (x : ScCore) : (s.setCore c x).launches = s.launches := rfl
@[simp] theorem State.setCore_lanes (s : State) (c : Nat) (x : ScCore) : (s.setCore c x).lanes = s.lanes := rfl
@[simp] theorem State.setCore_stations (s : State) (c : Nat) (x : ScCore) : (s.setCore c x).stations = s.stations := rfl
@[simp] theorem State.setCore_fifos (s : State) (c : Nat) (x : ScCore) : (s.setCore c x).fifos = s.fifos := rfl
@[simp] theorem State.setCore_fns (s : State) (c : Nat) (x : ScCore) : (s.setCore c x).fns = s.fns := rfl
@[simp] theorem State.setCore_tunnel (s : State) (c : Nat) (x : ScCore) : (s.setCore c x).tunnel = s.tunnel := rfl
@[simp] theorem State.setCore_shapeQ (s : State) (c : Nat) (x : ScCore) : (s.setCore c x).shapeQ = s.shapeQ := rfl
@[simp] theorem State.setCore_reports (s : State) (c : Nat) (x : ScCore) : (s.setCore c x).reports = s.reports := rfl
@[simp] theorem State.setCore_irqs (s : State) (c : Nat) (x : ScCore) : (s.setCore c x).irqs = s.irqs := rfl
@[simp] theorem State.setCore_doms (s : State) (c : Nat) (x : ScCore) : (s.setCore c x).doms = s.doms := rfl
@[simp] theorem State.setCore_mode (s : State) (c : Nat) (x : ScCore) : (s.setCore c x).mode = s.mode := rfl
@[simp] theorem State.setCore_merge (s : State) (c : Nat) (x : ScCore) : (s.setCore c x).merge = s.merge := rfl
@[simp] theorem State.setCore_ceList (s : State) (c : Nat) (x : ScCore) : (s.setCore c x).ceList = s.ceList := rfl
@[simp] theorem State.setCore_remap (s : State) (c : Nat) (x : ScCore) : (s.setCore c x).remap = s.remap := rfl
@[simp] theorem State.setCore_held (s : State) (c : Nat) (x : ScCore) : (s.setCore c x).held = s.held := rfl
@[simp] theorem State.setCore_downReq (s : State) (c : Nat) (x : ScCore) : (s.setCore c x).downReq = s.downReq := rfl
@[simp] theorem State.setCore_staging (s : State) (c : Nat) (x : ScCore) : (s.setCore c x).staging = s.staging := rfl
@[simp] theorem State.setCore_sleepReqs (s : State) (c : Nat) (x : ScCore) : (s.setCore c x).sleepReqs = s.sleepReqs := rfl
@[simp] theorem State.setCore_safen (s : State) (c : Nat) (x : ScCore) : (s.setCore c x).safen = s.safen := rfl
@[simp] theorem State.setCore_aonArmed (s : State) (c : Nat) (x : ScCore) : (s.setCore c x).aonArmed = s.aonArmed := rfl
@[simp] theorem State.setCore_fuses (s : State) (c : Nat) (x : ScCore) : (s.setCore c x).fuses = s.fuses := rfl
@[simp] theorem State.setCore_boxes (s : State) (c : Nat) (x : ScCore) : (s.setCore c x).boxes = s.boxes := rfl
@[simp] theorem State.setCore_debugErr (s : State) (c : Nat) (x : ScCore) : (s.setCore c x).debugErr = s.debugErr := rfl
@[simp] theorem State.setCore_jn (s : State) (c : Nat) (x : ScCore) : (s.setCore c x).jn = s.jn := rfl
@[simp] theorem State.setCore_dict (s : State) (c : Nat) (x : ScCore) : (s.setCore c x).dict = s.dict := rfl
@[simp] theorem State.setCore_phReset (s : State) (c : Nat) (x : ScCore) : (s.setCore c x).phReset = s.phReset := rfl
@[simp] theorem State.setCore_ptmLast (s : State) (c : Nat) (x : ScCore) : (s.setCore c x).ptmLast = s.ptmLast := rfl
@[simp] theorem State.setCore_ptmOpen (s : State) (c : Nat) (x : ScCore) : (s.setCore c x).ptmOpen = s.ptmOpen := rfl
@[simp] theorem State.setCore_pommelUp (s : State) (c : Nat) (x : ScCore) : (s.setCore c x).pommelUp = s.pommelUp := rfl
@[simp] theorem State.setCore_cantleUp (s : State) (c : Nat) (x : ScCore) : (s.setCore c x).cantleUp = s.cantleUp := rfl
@[simp] theorem State.setCore_commits (s : State) (c : Nat) (x : ScCore) : (s.setCore c x).commits = s.commits := rfl
@[simp] theorem State.setCore_opens (s : State) (c : Nat) (x : ScCore) : (s.setCore c x).opens = s.opens := rfl
@[simp] theorem State.setCore_loose (s : State) (c : Nat) (x : ScCore) : (s.setCore c x).loose = s.loose := rfl
@[simp] theorem State.setCore_shadows (s : State) (c : Nat) (x : ScCore) : (s.setCore c x).shadows = s.shadows := rfl
@[simp] theorem State.setCore_conds (s : State) (c : Nat) (x : ScCore) : (s.setCore c x).conds = s.conds := rfl
@[simp] theorem State.setCore_counted (s : State) (c : Nat) (x : ScCore) : (s.setCore c x).counted = s.counted := rfl
@[simp] theorem State.setCore_ftReact (s : State) (c : Nat) (x : ScCore) : (s.setCore c x).ftReact = s.ftReact := rfl
@[simp] theorem State.setCore_ftHeld (s : State) (c : Nat) (x : ScCore) : (s.setCore c x).ftHeld = s.ftHeld := rfl
@[simp] theorem State.setCore_faultN (s : State) (c : Nat) (x : ScCore) : (s.setCore c x).faultN = s.faultN := rfl
@[simp] theorem State.setCore_kickC (s : State) (c : Nat) (x : ScCore) : (s.setCore c x).kickC = s.kickC := rfl
@[simp] theorem State.setCore_kickP (s : State) (c : Nat) (x : ScCore) : (s.setCore c x).kickP = s.kickP := rfl
@[simp] theorem State.setCore_relC (s : State) (c : Nat) (x : ScCore) : (s.setCore c x).relC = s.relC := rfl
@[simp] theorem State.setCore_relP (s : State) (c : Nat) (x : ScCore) : (s.setCore c x).relP = s.relP := rfl
@[simp] theorem State.setCore_trans (s : State) (c : Nat) (x : ScCore) : (s.setCore c x).trans = s.trans := rfl
@[simp] theorem State.setCore_prep (s : State) (c : Nat) (x : ScCore) : (s.setCore c x).prep = s.prep := rfl
@[simp] theorem State.setCore_waken (s : State) (c : Nat) (x : ScCore) : (s.setCore c x).waken = s.waken := rfl
@[simp] theorem State.setCore_timerArm (s : State) (c : Nat) (x : ScCore) : (s.setCore c x).timerArm = s.timerArm := rfl
@[simp] theorem State.setCore_pll (s : State) (c : Nat) (x : ScCore) : (s.setCore c x).pll = s.pll := rfl
@[simp] theorem State.setCore_conn (s : State) (c : Nat) (x : ScCore) : (s.setCore c x).conn = s.conn := rfl
@[simp] theorem State.setCore_patrolAt (s : State) (c : Nat) (x : ScCore) : (s.setCore c x).patrolAt = s.patrolAt := rfl
@[simp] theorem State.setCore_patrol (s : State) (c : Nat) (x : ScCore) : (s.setCore c x).patrol = s.patrol := rfl
@[simp] theorem State.setCore_saved (s : State) (c : Nat) (x : ScCore) : (s.setCore c x).saved = s.saved := rfl
@[simp] theorem State.setCore_porn (s : State) (c : Nat) (x : ScCore) : (s.setCore c x).porn = s.porn := rfl
@[simp] theorem State.setCore_badRails (s : State) (c : Nat) (x : ScCore) : (s.setCore c x).badRails = s.badRails := rfl
@[simp] theorem State.setCore_crReset (s : State) (c : Nat) (x : ScCore) : (s.setCore c x).crReset = s.crReset := rfl
@[simp] theorem State.setCore_warmRun (s : State) (c : Nat) (x : ScCore) : (s.setCore c x).warmRun = s.warmRun := rfl
@[simp] theorem State.setCore_bistRun (s : State) (c : Nat) (x : ScCore) : (s.setCore c x).bistRun = s.bistRun := rfl
@[simp] theorem State.setCore_scrubSeen (s : State) (c : Nat) (x : ScCore) : (s.setCore c x).scrubSeen = s.scrubSeen := rfl
@[simp] theorem State.setCore_loader (s : State) (c : Nat) (x : ScCore) : (s.setCore c x).loader = s.loader := rfl
@[simp] theorem State.setCore_cImg (s : State) (c : Nat) (x : ScCore) : (s.setCore c x).cImg = s.cImg := rfl
@[simp] theorem State.setCore_pImg (s : State) (c : Nat) (x : ScCore) : (s.setCore c x).pImg = s.pImg := rfl
@[simp] theorem State.setCore_startC (s : State) (c : Nat) (x : ScCore) : (s.setCore c x).startC = s.startC := rfl
@[simp] theorem State.setCore_startP (s : State) (c : Nat) (x : ScCore) : (s.setCore c x).startP = s.startP := rfl
@[simp] theorem State.setCore_phPhase (s : State) (c : Nat) (x : ScCore) : (s.setCore c x).phPhase = s.phPhase := rfl
@[simp] theorem State.setCore_logUnread (s : State) (c : Nat) (x : ScCore) : (s.setCore c x).logUnread = s.logUnread := rfl
@[simp] theorem State.setCore_dreq (s : State) (c : Nat) (x : ScCore) : (s.setCore c x).dreq = s.dreq := rfl
@[simp] theorem State.setCore_svc (s : State) (c : Nat) (x : ScCore) : (s.setCore c x).svc = s.svc := rfl
@[simp] theorem State.setCore_wlog (s : State) (c : Nat) (x : ScCore) : (s.setCore c x).wlog = s.wlog := rfl
@[simp] theorem State.setCore_saveSt (s : State) (c : Nat) (x : ScCore) : (s.setCore c x).saveSt = s.saveSt := rfl
@[simp] theorem State.setCore_flash (s : State) (c : Nat) (x : ScCore) : (s.setCore c x).flash = s.flash := rfl
@[simp] theorem State.setCore_stagedC (s : State) (c : Nat) (x : ScCore) : (s.setCore c x).stagedC = s.stagedC := rfl
@[simp] theorem State.setCore_stagedP (s : State) (c : Nat) (x : ScCore) : (s.setCore c x).stagedP = s.stagedP := rfl
@[simp] theorem State.setCore_runC (s : State) (c : Nat) (x : ScCore) : (s.setCore c x).runC = s.runC := rfl
@[simp] theorem State.setCore_runP (s : State) (c : Nat) (x : ScCore) : (s.setCore c x).runP = s.runP := rfl
@[simp] theorem State.setCore_burn (s : State) (c : Nat) (x : ScCore) : (s.setCore c x).burn = s.burn := rfl
@[simp] theorem State.setCore_i3cAddr (s : State) (c : Nat) (x : ScCore) : (s.setCore c x).i3cAddr = s.i3cAddr := rfl
@[simp] theorem State.setCore_i3cReply (s : State) (c : Nat) (x : ScCore) : (s.setCore c x).i3cReply = s.i3cReply := rfl
@[simp] theorem State.setCore_dbgOn (s : State) (c : Nat) (x : ScCore) : (s.setCore c x).dbgOn = s.dbgOn := rfl
@[simp] theorem State.setCore_haltC (s : State) (c : Nat) (x : ScCore) : (s.setCore c x).haltC = s.haltC := rfl
@[simp] theorem State.setCore_haltP (s : State) (c : Nat) (x : ScCore) : (s.setCore c x).haltP = s.haltP := rfl
@[simp] theorem State.setCore_fwDue (s : State) (c : Nat) (x : ScCore) : (s.setCore c x).fwDue = s.fwDue := rfl

/-! ## State.setSrc -/

@[simp] theorem State.setSrc_pending (s : State) (n : Nat) (x : Source) : (s.setSrc n x).pending = s.pending := rfl
@[simp] theorem State.setSrc_time (s : State) (n : Nat) (x : Source) : (s.setSrc n x).time = s.time := rfl
@[simp] theorem State.setSrc_prevTime (s : State) (n : Nat) (x : Source) : (s.setSrc n x).prevTime = s.prevTime := rfl
@[simp] theorem State.setSrc_tickStep (s : State) (n : Nat) (x : Source) : (s.setSrc n x).tickStep = s.tickStep := rfl
@[simp] theorem State.setSrc_launched (s : State) (n : Nat) (x : Source) : (s.setSrc n x).launched = s.launched := rfl
@[simp] theorem State.setSrc_scanNext (s : State) (n : Nat) (x : Source) : (s.setSrc n x).scanNext = s.scanNext := rfl
@[simp] theorem State.setSrc_pausedAt (s : State) (n : Nat) (x : Source) : (s.setSrc n x).pausedAt = s.pausedAt := rfl
@[simp] theorem State.setSrc_cl (s : State) (n : Nat) (x : Source) : (s.setSrc n x).cl = s.cl := rfl
@[simp] theorem State.setSrc_subsys (s : State) (n : Nat) (x : Source) : (s.setSrc n x).subsys = s.subsys := rfl
@[simp] theorem State.setSrc_safeMark (s : State) (n : Nat) (x : Source) : (s.setSrc n x).safeMark = s.safeMark := rfl
@[simp] theorem State.setSrc_tickAon (s : State) (n : Nat) (x : Source) : (s.setSrc n x).tickAon = s.tickAon := rfl
@[simp] theorem State.setSrc_clkReq (s : State) (n : Nat) (x : Source) : (s.setSrc n x).clkReq = s.clkReq := rfl
@[simp] theorem State.setSrc_freeCtr (s : State) (n : Nat) (x : Source) : (s.setSrc n x).freeCtr = s.freeCtr := rfl
@[simp] theorem State.setSrc_seq (s : State) (n : Nat) (x : Source) : (s.setSrc n x).seq = s.seq := rfl
@[simp] theorem State.setSrc_out (s : State) (n : Nat) (x : Source) : (s.setSrc n x).out = s.out := rfl
@[simp] theorem State.setSrc_regs (s : State) (n : Nat) (x : Source) : (s.setSrc n x).regs = s.regs := rfl
@[simp] theorem State.setSrc_mem (s : State) (n : Nat) (x : Source) : (s.setSrc n x).mem = s.mem := rfl
@[simp] theorem State.setSrc_ecc (s : State) (n : Nat) (x : Source) : (s.setSrc n x).ecc = s.ecc := rfl
@[simp] theorem State.setSrc_slots (s : State) (n : Nat) (x : Source) : (s.setSrc n x).slots = s.slots := rfl
@[simp] theorem State.setSrc_stopped (s : State) (n : Nat) (x : Source) : (s.setSrc n x).stopped = s.stopped := rfl
@[simp] theorem State.setSrc_weir (s : State) (n : Nat) (x : Source) : (s.setSrc n x).weir = s.weir := rfl
@[simp] theorem State.setSrc_ceaWeir (s : State) (n : Nat) (x : Source) : (s.setSrc n x).ceaWeir = s.ceaWeir := rfl
@[simp] theorem State.setSrc_cea (s : State) (n : Nat) (x : Source) : (s.setSrc n x).cea = s.cea := rfl
@[simp] theorem State.setSrc_rings (s : State) (n : Nat) (x : Source) : (s.setSrc n x).rings = s.rings := rfl
@[simp] theorem State.setSrc_launches (s : State) (n : Nat) (x : Source) : (s.setSrc n x).launches = s.launches := rfl
@[simp] theorem State.setSrc_lanes (s : State) (n : Nat) (x : Source) : (s.setSrc n x).lanes = s.lanes := rfl
@[simp] theorem State.setSrc_stations (s : State) (n : Nat) (x : Source) : (s.setSrc n x).stations = s.stations := rfl
@[simp] theorem State.setSrc_fifos (s : State) (n : Nat) (x : Source) : (s.setSrc n x).fifos = s.fifos := rfl
@[simp] theorem State.setSrc_fns (s : State) (n : Nat) (x : Source) : (s.setSrc n x).fns = s.fns := rfl
@[simp] theorem State.setSrc_tunnel (s : State) (n : Nat) (x : Source) : (s.setSrc n x).tunnel = s.tunnel := rfl
@[simp] theorem State.setSrc_cores (s : State) (n : Nat) (x : Source) : (s.setSrc n x).cores = s.cores := rfl
@[simp] theorem State.setSrc_shapeQ (s : State) (n : Nat) (x : Source) : (s.setSrc n x).shapeQ = s.shapeQ := rfl
@[simp] theorem State.setSrc_reports (s : State) (n : Nat) (x : Source) : (s.setSrc n x).reports = s.reports := rfl
@[simp] theorem State.setSrc_irqs (s : State) (n : Nat) (x : Source) : (s.setSrc n x).irqs = s.irqs := rfl
@[simp] theorem State.setSrc_doms (s : State) (n : Nat) (x : Source) : (s.setSrc n x).doms = s.doms := rfl
@[simp] theorem State.setSrc_mode (s : State) (n : Nat) (x : Source) : (s.setSrc n x).mode = s.mode := rfl
@[simp] theorem State.setSrc_merge (s : State) (n : Nat) (x : Source) : (s.setSrc n x).merge = s.merge := rfl
@[simp] theorem State.setSrc_ceList (s : State) (n : Nat) (x : Source) : (s.setSrc n x).ceList = s.ceList := rfl
@[simp] theorem State.setSrc_remap (s : State) (n : Nat) (x : Source) : (s.setSrc n x).remap = s.remap := rfl
@[simp] theorem State.setSrc_held (s : State) (n : Nat) (x : Source) : (s.setSrc n x).held = s.held := rfl
@[simp] theorem State.setSrc_downReq (s : State) (n : Nat) (x : Source) : (s.setSrc n x).downReq = s.downReq := rfl
@[simp] theorem State.setSrc_staging (s : State) (n : Nat) (x : Source) : (s.setSrc n x).staging = s.staging := rfl
@[simp] theorem State.setSrc_sleepReqs (s : State) (n : Nat) (x : Source) : (s.setSrc n x).sleepReqs = s.sleepReqs := rfl
@[simp] theorem State.setSrc_safen (s : State) (n : Nat) (x : Source) : (s.setSrc n x).safen = s.safen := rfl
@[simp] theorem State.setSrc_aonArmed (s : State) (n : Nat) (x : Source) : (s.setSrc n x).aonArmed = s.aonArmed := rfl
@[simp] theorem State.setSrc_fuses (s : State) (n : Nat) (x : Source) : (s.setSrc n x).fuses = s.fuses := rfl
@[simp] theorem State.setSrc_boxes (s : State) (n : Nat) (x : Source) : (s.setSrc n x).boxes = s.boxes := rfl
@[simp] theorem State.setSrc_debugErr (s : State) (n : Nat) (x : Source) : (s.setSrc n x).debugErr = s.debugErr := rfl
@[simp] theorem State.setSrc_jn (s : State) (n : Nat) (x : Source) : (s.setSrc n x).jn = s.jn := rfl
@[simp] theorem State.setSrc_dict (s : State) (n : Nat) (x : Source) : (s.setSrc n x).dict = s.dict := rfl
@[simp] theorem State.setSrc_phReset (s : State) (n : Nat) (x : Source) : (s.setSrc n x).phReset = s.phReset := rfl
@[simp] theorem State.setSrc_ptmLast (s : State) (n : Nat) (x : Source) : (s.setSrc n x).ptmLast = s.ptmLast := rfl
@[simp] theorem State.setSrc_ptmOpen (s : State) (n : Nat) (x : Source) : (s.setSrc n x).ptmOpen = s.ptmOpen := rfl
@[simp] theorem State.setSrc_pommelUp (s : State) (n : Nat) (x : Source) : (s.setSrc n x).pommelUp = s.pommelUp := rfl
@[simp] theorem State.setSrc_cantleUp (s : State) (n : Nat) (x : Source) : (s.setSrc n x).cantleUp = s.cantleUp := rfl
@[simp] theorem State.setSrc_commits (s : State) (n : Nat) (x : Source) : (s.setSrc n x).commits = s.commits := rfl
@[simp] theorem State.setSrc_opens (s : State) (n : Nat) (x : Source) : (s.setSrc n x).opens = s.opens := rfl
@[simp] theorem State.setSrc_loose (s : State) (n : Nat) (x : Source) : (s.setSrc n x).loose = s.loose := rfl
@[simp] theorem State.setSrc_shadows (s : State) (n : Nat) (x : Source) : (s.setSrc n x).shadows = s.shadows := rfl
@[simp] theorem State.setSrc_conds (s : State) (n : Nat) (x : Source) : (s.setSrc n x).conds = s.conds := rfl
@[simp] theorem State.setSrc_counted (s : State) (n : Nat) (x : Source) : (s.setSrc n x).counted = s.counted := rfl
@[simp] theorem State.setSrc_ftReact (s : State) (n : Nat) (x : Source) : (s.setSrc n x).ftReact = s.ftReact := rfl
@[simp] theorem State.setSrc_ftHeld (s : State) (n : Nat) (x : Source) : (s.setSrc n x).ftHeld = s.ftHeld := rfl
@[simp] theorem State.setSrc_faultN (s : State) (n : Nat) (x : Source) : (s.setSrc n x).faultN = s.faultN := rfl
@[simp] theorem State.setSrc_kickC (s : State) (n : Nat) (x : Source) : (s.setSrc n x).kickC = s.kickC := rfl
@[simp] theorem State.setSrc_kickP (s : State) (n : Nat) (x : Source) : (s.setSrc n x).kickP = s.kickP := rfl
@[simp] theorem State.setSrc_relC (s : State) (n : Nat) (x : Source) : (s.setSrc n x).relC = s.relC := rfl
@[simp] theorem State.setSrc_relP (s : State) (n : Nat) (x : Source) : (s.setSrc n x).relP = s.relP := rfl
@[simp] theorem State.setSrc_trans (s : State) (n : Nat) (x : Source) : (s.setSrc n x).trans = s.trans := rfl
@[simp] theorem State.setSrc_prep (s : State) (n : Nat) (x : Source) : (s.setSrc n x).prep = s.prep := rfl
@[simp] theorem State.setSrc_waken (s : State) (n : Nat) (x : Source) : (s.setSrc n x).waken = s.waken := rfl
@[simp] theorem State.setSrc_timerArm (s : State) (n : Nat) (x : Source) : (s.setSrc n x).timerArm = s.timerArm := rfl
@[simp] theorem State.setSrc_pll (s : State) (n : Nat) (x : Source) : (s.setSrc n x).pll = s.pll := rfl
@[simp] theorem State.setSrc_conn (s : State) (n : Nat) (x : Source) : (s.setSrc n x).conn = s.conn := rfl
@[simp] theorem State.setSrc_patrolAt (s : State) (n : Nat) (x : Source) : (s.setSrc n x).patrolAt = s.patrolAt := rfl
@[simp] theorem State.setSrc_patrol (s : State) (n : Nat) (x : Source) : (s.setSrc n x).patrol = s.patrol := rfl
@[simp] theorem State.setSrc_saved (s : State) (n : Nat) (x : Source) : (s.setSrc n x).saved = s.saved := rfl
@[simp] theorem State.setSrc_porn (s : State) (n : Nat) (x : Source) : (s.setSrc n x).porn = s.porn := rfl
@[simp] theorem State.setSrc_badRails (s : State) (n : Nat) (x : Source) : (s.setSrc n x).badRails = s.badRails := rfl
@[simp] theorem State.setSrc_crReset (s : State) (n : Nat) (x : Source) : (s.setSrc n x).crReset = s.crReset := rfl
@[simp] theorem State.setSrc_warmRun (s : State) (n : Nat) (x : Source) : (s.setSrc n x).warmRun = s.warmRun := rfl
@[simp] theorem State.setSrc_bistRun (s : State) (n : Nat) (x : Source) : (s.setSrc n x).bistRun = s.bistRun := rfl
@[simp] theorem State.setSrc_scrubSeen (s : State) (n : Nat) (x : Source) : (s.setSrc n x).scrubSeen = s.scrubSeen := rfl
@[simp] theorem State.setSrc_loader (s : State) (n : Nat) (x : Source) : (s.setSrc n x).loader = s.loader := rfl
@[simp] theorem State.setSrc_cImg (s : State) (n : Nat) (x : Source) : (s.setSrc n x).cImg = s.cImg := rfl
@[simp] theorem State.setSrc_pImg (s : State) (n : Nat) (x : Source) : (s.setSrc n x).pImg = s.pImg := rfl
@[simp] theorem State.setSrc_startC (s : State) (n : Nat) (x : Source) : (s.setSrc n x).startC = s.startC := rfl
@[simp] theorem State.setSrc_startP (s : State) (n : Nat) (x : Source) : (s.setSrc n x).startP = s.startP := rfl
@[simp] theorem State.setSrc_phPhase (s : State) (n : Nat) (x : Source) : (s.setSrc n x).phPhase = s.phPhase := rfl
@[simp] theorem State.setSrc_logUnread (s : State) (n : Nat) (x : Source) : (s.setSrc n x).logUnread = s.logUnread := rfl
@[simp] theorem State.setSrc_dreq (s : State) (n : Nat) (x : Source) : (s.setSrc n x).dreq = s.dreq := rfl
@[simp] theorem State.setSrc_svc (s : State) (n : Nat) (x : Source) : (s.setSrc n x).svc = s.svc := rfl
@[simp] theorem State.setSrc_wlog (s : State) (n : Nat) (x : Source) : (s.setSrc n x).wlog = s.wlog := rfl
@[simp] theorem State.setSrc_saveSt (s : State) (n : Nat) (x : Source) : (s.setSrc n x).saveSt = s.saveSt := rfl
@[simp] theorem State.setSrc_flash (s : State) (n : Nat) (x : Source) : (s.setSrc n x).flash = s.flash := rfl
@[simp] theorem State.setSrc_stagedC (s : State) (n : Nat) (x : Source) : (s.setSrc n x).stagedC = s.stagedC := rfl
@[simp] theorem State.setSrc_stagedP (s : State) (n : Nat) (x : Source) : (s.setSrc n x).stagedP = s.stagedP := rfl
@[simp] theorem State.setSrc_runC (s : State) (n : Nat) (x : Source) : (s.setSrc n x).runC = s.runC := rfl
@[simp] theorem State.setSrc_runP (s : State) (n : Nat) (x : Source) : (s.setSrc n x).runP = s.runP := rfl
@[simp] theorem State.setSrc_burn (s : State) (n : Nat) (x : Source) : (s.setSrc n x).burn = s.burn := rfl
@[simp] theorem State.setSrc_i3cAddr (s : State) (n : Nat) (x : Source) : (s.setSrc n x).i3cAddr = s.i3cAddr := rfl
@[simp] theorem State.setSrc_i3cReply (s : State) (n : Nat) (x : Source) : (s.setSrc n x).i3cReply = s.i3cReply := rfl
@[simp] theorem State.setSrc_dbgOn (s : State) (n : Nat) (x : Source) : (s.setSrc n x).dbgOn = s.dbgOn := rfl
@[simp] theorem State.setSrc_haltC (s : State) (n : Nat) (x : Source) : (s.setSrc n x).haltC = s.haltC := rfl
@[simp] theorem State.setSrc_haltP (s : State) (n : Nat) (x : Source) : (s.setSrc n x).haltP = s.haltP := rfl
@[simp] theorem State.setSrc_fwDue (s : State) (n : Nat) (x : Source) : (s.setSrc n x).fwDue = s.fwDue := rfl

/-! ## State.setEcc -/

@[simp] theorem State.setEcc_pending (s : State) (w : Nat) (m : EccMark) : (s.setEcc w m).pending = s.pending := rfl
@[simp] theorem State.setEcc_time (s : State) (w : Nat) (m : EccMark) : (s.setEcc w m).time = s.time := rfl
@[simp] theorem State.setEcc_prevTime (s : State) (w : Nat) (m : EccMark) : (s.setEcc w m).prevTime = s.prevTime := rfl
@[simp] theorem State.setEcc_tickStep (s : State) (w : Nat) (m : EccMark) : (s.setEcc w m).tickStep = s.tickStep := rfl
@[simp] theorem State.setEcc_launched (s : State) (w : Nat) (m : EccMark) : (s.setEcc w m).launched = s.launched := rfl
@[simp] theorem State.setEcc_scanNext (s : State) (w : Nat) (m : EccMark) : (s.setEcc w m).scanNext = s.scanNext := rfl
@[simp] theorem State.setEcc_pausedAt (s : State) (w : Nat) (m : EccMark) : (s.setEcc w m).pausedAt = s.pausedAt := rfl
@[simp] theorem State.setEcc_cl (s : State) (w : Nat) (m : EccMark) : (s.setEcc w m).cl = s.cl := rfl
@[simp] theorem State.setEcc_subsys (s : State) (w : Nat) (m : EccMark) : (s.setEcc w m).subsys = s.subsys := rfl
@[simp] theorem State.setEcc_safeMark (s : State) (w : Nat) (m : EccMark) : (s.setEcc w m).safeMark = s.safeMark := rfl
@[simp] theorem State.setEcc_tickAon (s : State) (w : Nat) (m : EccMark) : (s.setEcc w m).tickAon = s.tickAon := rfl
@[simp] theorem State.setEcc_clkReq (s : State) (w : Nat) (m : EccMark) : (s.setEcc w m).clkReq = s.clkReq := rfl
@[simp] theorem State.setEcc_freeCtr (s : State) (w : Nat) (m : EccMark) : (s.setEcc w m).freeCtr = s.freeCtr := rfl
@[simp] theorem State.setEcc_seq (s : State) (w : Nat) (m : EccMark) : (s.setEcc w m).seq = s.seq := rfl
@[simp] theorem State.setEcc_out (s : State) (w : Nat) (m : EccMark) : (s.setEcc w m).out = s.out := rfl
@[simp] theorem State.setEcc_regs (s : State) (w : Nat) (m : EccMark) : (s.setEcc w m).regs = s.regs := rfl
@[simp] theorem State.setEcc_mem (s : State) (w : Nat) (m : EccMark) : (s.setEcc w m).mem = s.mem := rfl
@[simp] theorem State.setEcc_slots (s : State) (w : Nat) (m : EccMark) : (s.setEcc w m).slots = s.slots := rfl
@[simp] theorem State.setEcc_stopped (s : State) (w : Nat) (m : EccMark) : (s.setEcc w m).stopped = s.stopped := rfl
@[simp] theorem State.setEcc_weir (s : State) (w : Nat) (m : EccMark) : (s.setEcc w m).weir = s.weir := rfl
@[simp] theorem State.setEcc_ceaWeir (s : State) (w : Nat) (m : EccMark) : (s.setEcc w m).ceaWeir = s.ceaWeir := rfl
@[simp] theorem State.setEcc_cea (s : State) (w : Nat) (m : EccMark) : (s.setEcc w m).cea = s.cea := rfl
@[simp] theorem State.setEcc_rings (s : State) (w : Nat) (m : EccMark) : (s.setEcc w m).rings = s.rings := rfl
@[simp] theorem State.setEcc_srcs (s : State) (w : Nat) (m : EccMark) : (s.setEcc w m).srcs = s.srcs := rfl
@[simp] theorem State.setEcc_launches (s : State) (w : Nat) (m : EccMark) : (s.setEcc w m).launches = s.launches := rfl
@[simp] theorem State.setEcc_lanes (s : State) (w : Nat) (m : EccMark) : (s.setEcc w m).lanes = s.lanes := rfl
@[simp] theorem State.setEcc_stations (s : State) (w : Nat) (m : EccMark) : (s.setEcc w m).stations = s.stations := rfl
@[simp] theorem State.setEcc_fifos (s : State) (w : Nat) (m : EccMark) : (s.setEcc w m).fifos = s.fifos := rfl
@[simp] theorem State.setEcc_fns (s : State) (w : Nat) (m : EccMark) : (s.setEcc w m).fns = s.fns := rfl
@[simp] theorem State.setEcc_tunnel (s : State) (w : Nat) (m : EccMark) : (s.setEcc w m).tunnel = s.tunnel := rfl
@[simp] theorem State.setEcc_cores (s : State) (w : Nat) (m : EccMark) : (s.setEcc w m).cores = s.cores := rfl
@[simp] theorem State.setEcc_shapeQ (s : State) (w : Nat) (m : EccMark) : (s.setEcc w m).shapeQ = s.shapeQ := rfl
@[simp] theorem State.setEcc_reports (s : State) (w : Nat) (m : EccMark) : (s.setEcc w m).reports = s.reports := rfl
@[simp] theorem State.setEcc_irqs (s : State) (w : Nat) (m : EccMark) : (s.setEcc w m).irqs = s.irqs := rfl
@[simp] theorem State.setEcc_doms (s : State) (w : Nat) (m : EccMark) : (s.setEcc w m).doms = s.doms := rfl
@[simp] theorem State.setEcc_mode (s : State) (w : Nat) (m : EccMark) : (s.setEcc w m).mode = s.mode := rfl
@[simp] theorem State.setEcc_merge (s : State) (w : Nat) (m : EccMark) : (s.setEcc w m).merge = s.merge := rfl
@[simp] theorem State.setEcc_ceList (s : State) (w : Nat) (m : EccMark) : (s.setEcc w m).ceList = s.ceList := rfl
@[simp] theorem State.setEcc_remap (s : State) (w : Nat) (m : EccMark) : (s.setEcc w m).remap = s.remap := rfl
@[simp] theorem State.setEcc_held (s : State) (w : Nat) (m : EccMark) : (s.setEcc w m).held = s.held := rfl
@[simp] theorem State.setEcc_downReq (s : State) (w : Nat) (m : EccMark) : (s.setEcc w m).downReq = s.downReq := rfl
@[simp] theorem State.setEcc_staging (s : State) (w : Nat) (m : EccMark) : (s.setEcc w m).staging = s.staging := rfl
@[simp] theorem State.setEcc_sleepReqs (s : State) (w : Nat) (m : EccMark) : (s.setEcc w m).sleepReqs = s.sleepReqs := rfl
@[simp] theorem State.setEcc_safen (s : State) (w : Nat) (m : EccMark) : (s.setEcc w m).safen = s.safen := rfl
@[simp] theorem State.setEcc_aonArmed (s : State) (w : Nat) (m : EccMark) : (s.setEcc w m).aonArmed = s.aonArmed := rfl
@[simp] theorem State.setEcc_fuses (s : State) (w : Nat) (m : EccMark) : (s.setEcc w m).fuses = s.fuses := rfl
@[simp] theorem State.setEcc_boxes (s : State) (w : Nat) (m : EccMark) : (s.setEcc w m).boxes = s.boxes := rfl
@[simp] theorem State.setEcc_debugErr (s : State) (w : Nat) (m : EccMark) : (s.setEcc w m).debugErr = s.debugErr := rfl
@[simp] theorem State.setEcc_jn (s : State) (w : Nat) (m : EccMark) : (s.setEcc w m).jn = s.jn := rfl
@[simp] theorem State.setEcc_dict (s : State) (w : Nat) (m : EccMark) : (s.setEcc w m).dict = s.dict := rfl
@[simp] theorem State.setEcc_phReset (s : State) (w : Nat) (m : EccMark) : (s.setEcc w m).phReset = s.phReset := rfl
@[simp] theorem State.setEcc_ptmLast (s : State) (w : Nat) (m : EccMark) : (s.setEcc w m).ptmLast = s.ptmLast := rfl
@[simp] theorem State.setEcc_ptmOpen (s : State) (w : Nat) (m : EccMark) : (s.setEcc w m).ptmOpen = s.ptmOpen := rfl
@[simp] theorem State.setEcc_pommelUp (s : State) (w : Nat) (m : EccMark) : (s.setEcc w m).pommelUp = s.pommelUp := rfl
@[simp] theorem State.setEcc_cantleUp (s : State) (w : Nat) (m : EccMark) : (s.setEcc w m).cantleUp = s.cantleUp := rfl
@[simp] theorem State.setEcc_commits (s : State) (w : Nat) (m : EccMark) : (s.setEcc w m).commits = s.commits := rfl
@[simp] theorem State.setEcc_opens (s : State) (w : Nat) (m : EccMark) : (s.setEcc w m).opens = s.opens := rfl
@[simp] theorem State.setEcc_loose (s : State) (w : Nat) (m : EccMark) : (s.setEcc w m).loose = s.loose := rfl
@[simp] theorem State.setEcc_shadows (s : State) (w : Nat) (m : EccMark) : (s.setEcc w m).shadows = s.shadows := rfl
@[simp] theorem State.setEcc_conds (s : State) (w : Nat) (m : EccMark) : (s.setEcc w m).conds = s.conds := rfl
@[simp] theorem State.setEcc_counted (s : State) (w : Nat) (m : EccMark) : (s.setEcc w m).counted = s.counted := rfl
@[simp] theorem State.setEcc_ftReact (s : State) (w : Nat) (m : EccMark) : (s.setEcc w m).ftReact = s.ftReact := rfl
@[simp] theorem State.setEcc_ftHeld (s : State) (w : Nat) (m : EccMark) : (s.setEcc w m).ftHeld = s.ftHeld := rfl
@[simp] theorem State.setEcc_faultN (s : State) (w : Nat) (m : EccMark) : (s.setEcc w m).faultN = s.faultN := rfl
@[simp] theorem State.setEcc_kickC (s : State) (w : Nat) (m : EccMark) : (s.setEcc w m).kickC = s.kickC := rfl
@[simp] theorem State.setEcc_kickP (s : State) (w : Nat) (m : EccMark) : (s.setEcc w m).kickP = s.kickP := rfl
@[simp] theorem State.setEcc_relC (s : State) (w : Nat) (m : EccMark) : (s.setEcc w m).relC = s.relC := rfl
@[simp] theorem State.setEcc_relP (s : State) (w : Nat) (m : EccMark) : (s.setEcc w m).relP = s.relP := rfl
@[simp] theorem State.setEcc_trans (s : State) (w : Nat) (m : EccMark) : (s.setEcc w m).trans = s.trans := rfl
@[simp] theorem State.setEcc_prep (s : State) (w : Nat) (m : EccMark) : (s.setEcc w m).prep = s.prep := rfl
@[simp] theorem State.setEcc_waken (s : State) (w : Nat) (m : EccMark) : (s.setEcc w m).waken = s.waken := rfl
@[simp] theorem State.setEcc_timerArm (s : State) (w : Nat) (m : EccMark) : (s.setEcc w m).timerArm = s.timerArm := rfl
@[simp] theorem State.setEcc_pll (s : State) (w : Nat) (m : EccMark) : (s.setEcc w m).pll = s.pll := rfl
@[simp] theorem State.setEcc_conn (s : State) (w : Nat) (m : EccMark) : (s.setEcc w m).conn = s.conn := rfl
@[simp] theorem State.setEcc_patrolAt (s : State) (w : Nat) (m : EccMark) : (s.setEcc w m).patrolAt = s.patrolAt := rfl
@[simp] theorem State.setEcc_patrol (s : State) (w : Nat) (m : EccMark) : (s.setEcc w m).patrol = s.patrol := rfl
@[simp] theorem State.setEcc_saved (s : State) (w : Nat) (m : EccMark) : (s.setEcc w m).saved = s.saved := rfl
@[simp] theorem State.setEcc_porn (s : State) (w : Nat) (m : EccMark) : (s.setEcc w m).porn = s.porn := rfl
@[simp] theorem State.setEcc_badRails (s : State) (w : Nat) (m : EccMark) : (s.setEcc w m).badRails = s.badRails := rfl
@[simp] theorem State.setEcc_crReset (s : State) (w : Nat) (m : EccMark) : (s.setEcc w m).crReset = s.crReset := rfl
@[simp] theorem State.setEcc_warmRun (s : State) (w : Nat) (m : EccMark) : (s.setEcc w m).warmRun = s.warmRun := rfl
@[simp] theorem State.setEcc_bistRun (s : State) (w : Nat) (m : EccMark) : (s.setEcc w m).bistRun = s.bistRun := rfl
@[simp] theorem State.setEcc_scrubSeen (s : State) (w : Nat) (m : EccMark) : (s.setEcc w m).scrubSeen = s.scrubSeen := rfl
@[simp] theorem State.setEcc_loader (s : State) (w : Nat) (m : EccMark) : (s.setEcc w m).loader = s.loader := rfl
@[simp] theorem State.setEcc_cImg (s : State) (w : Nat) (m : EccMark) : (s.setEcc w m).cImg = s.cImg := rfl
@[simp] theorem State.setEcc_pImg (s : State) (w : Nat) (m : EccMark) : (s.setEcc w m).pImg = s.pImg := rfl
@[simp] theorem State.setEcc_startC (s : State) (w : Nat) (m : EccMark) : (s.setEcc w m).startC = s.startC := rfl
@[simp] theorem State.setEcc_startP (s : State) (w : Nat) (m : EccMark) : (s.setEcc w m).startP = s.startP := rfl
@[simp] theorem State.setEcc_phPhase (s : State) (w : Nat) (m : EccMark) : (s.setEcc w m).phPhase = s.phPhase := rfl
@[simp] theorem State.setEcc_logUnread (s : State) (w : Nat) (m : EccMark) : (s.setEcc w m).logUnread = s.logUnread := rfl
@[simp] theorem State.setEcc_dreq (s : State) (w : Nat) (m : EccMark) : (s.setEcc w m).dreq = s.dreq := rfl
@[simp] theorem State.setEcc_svc (s : State) (w : Nat) (m : EccMark) : (s.setEcc w m).svc = s.svc := rfl
@[simp] theorem State.setEcc_wlog (s : State) (w : Nat) (m : EccMark) : (s.setEcc w m).wlog = s.wlog := rfl
@[simp] theorem State.setEcc_saveSt (s : State) (w : Nat) (m : EccMark) : (s.setEcc w m).saveSt = s.saveSt := rfl
@[simp] theorem State.setEcc_flash (s : State) (w : Nat) (m : EccMark) : (s.setEcc w m).flash = s.flash := rfl
@[simp] theorem State.setEcc_stagedC (s : State) (w : Nat) (m : EccMark) : (s.setEcc w m).stagedC = s.stagedC := rfl
@[simp] theorem State.setEcc_stagedP (s : State) (w : Nat) (m : EccMark) : (s.setEcc w m).stagedP = s.stagedP := rfl
@[simp] theorem State.setEcc_runC (s : State) (w : Nat) (m : EccMark) : (s.setEcc w m).runC = s.runC := rfl
@[simp] theorem State.setEcc_runP (s : State) (w : Nat) (m : EccMark) : (s.setEcc w m).runP = s.runP := rfl
@[simp] theorem State.setEcc_burn (s : State) (w : Nat) (m : EccMark) : (s.setEcc w m).burn = s.burn := rfl
@[simp] theorem State.setEcc_i3cAddr (s : State) (w : Nat) (m : EccMark) : (s.setEcc w m).i3cAddr = s.i3cAddr := rfl
@[simp] theorem State.setEcc_i3cReply (s : State) (w : Nat) (m : EccMark) : (s.setEcc w m).i3cReply = s.i3cReply := rfl
@[simp] theorem State.setEcc_dbgOn (s : State) (w : Nat) (m : EccMark) : (s.setEcc w m).dbgOn = s.dbgOn := rfl
@[simp] theorem State.setEcc_haltC (s : State) (w : Nat) (m : EccMark) : (s.setEcc w m).haltC = s.haltC := rfl
@[simp] theorem State.setEcc_haltP (s : State) (w : Nat) (m : EccMark) : (s.setEcc w m).haltP = s.haltP := rfl
@[simp] theorem State.setEcc_fwDue (s : State) (w : Nat) (m : EccMark) : (s.setEcc w m).fwDue = s.fwDue := rfl

/-! ## State.putByte -/

@[simp] theorem State.putByte_pending (s : State) (a : Nat) (b : Byte) : (s.putByte a b).pending = s.pending := rfl
@[simp] theorem State.putByte_time (s : State) (a : Nat) (b : Byte) : (s.putByte a b).time = s.time := rfl
@[simp] theorem State.putByte_prevTime (s : State) (a : Nat) (b : Byte) : (s.putByte a b).prevTime = s.prevTime := rfl
@[simp] theorem State.putByte_tickStep (s : State) (a : Nat) (b : Byte) : (s.putByte a b).tickStep = s.tickStep := rfl
@[simp] theorem State.putByte_launched (s : State) (a : Nat) (b : Byte) : (s.putByte a b).launched = s.launched := rfl
@[simp] theorem State.putByte_scanNext (s : State) (a : Nat) (b : Byte) : (s.putByte a b).scanNext = s.scanNext := rfl
@[simp] theorem State.putByte_pausedAt (s : State) (a : Nat) (b : Byte) : (s.putByte a b).pausedAt = s.pausedAt := rfl
@[simp] theorem State.putByte_cl (s : State) (a : Nat) (b : Byte) : (s.putByte a b).cl = s.cl := rfl
@[simp] theorem State.putByte_subsys (s : State) (a : Nat) (b : Byte) : (s.putByte a b).subsys = s.subsys := rfl
@[simp] theorem State.putByte_safeMark (s : State) (a : Nat) (b : Byte) : (s.putByte a b).safeMark = s.safeMark := rfl
@[simp] theorem State.putByte_tickAon (s : State) (a : Nat) (b : Byte) : (s.putByte a b).tickAon = s.tickAon := rfl
@[simp] theorem State.putByte_clkReq (s : State) (a : Nat) (b : Byte) : (s.putByte a b).clkReq = s.clkReq := rfl
@[simp] theorem State.putByte_freeCtr (s : State) (a : Nat) (b : Byte) : (s.putByte a b).freeCtr = s.freeCtr := rfl
@[simp] theorem State.putByte_seq (s : State) (a : Nat) (b : Byte) : (s.putByte a b).seq = s.seq := rfl
@[simp] theorem State.putByte_out (s : State) (a : Nat) (b : Byte) : (s.putByte a b).out = s.out := rfl
@[simp] theorem State.putByte_regs (s : State) (a : Nat) (b : Byte) : (s.putByte a b).regs = s.regs := rfl
@[simp] theorem State.putByte_ecc (s : State) (a : Nat) (b : Byte) : (s.putByte a b).ecc = s.ecc := rfl
@[simp] theorem State.putByte_slots (s : State) (a : Nat) (b : Byte) : (s.putByte a b).slots = s.slots := rfl
@[simp] theorem State.putByte_stopped (s : State) (a : Nat) (b : Byte) : (s.putByte a b).stopped = s.stopped := rfl
@[simp] theorem State.putByte_weir (s : State) (a : Nat) (b : Byte) : (s.putByte a b).weir = s.weir := rfl
@[simp] theorem State.putByte_ceaWeir (s : State) (a : Nat) (b : Byte) : (s.putByte a b).ceaWeir = s.ceaWeir := rfl
@[simp] theorem State.putByte_cea (s : State) (a : Nat) (b : Byte) : (s.putByte a b).cea = s.cea := rfl
@[simp] theorem State.putByte_rings (s : State) (a : Nat) (b : Byte) : (s.putByte a b).rings = s.rings := rfl
@[simp] theorem State.putByte_srcs (s : State) (a : Nat) (b : Byte) : (s.putByte a b).srcs = s.srcs := rfl
@[simp] theorem State.putByte_launches (s : State) (a : Nat) (b : Byte) : (s.putByte a b).launches = s.launches := rfl
@[simp] theorem State.putByte_lanes (s : State) (a : Nat) (b : Byte) : (s.putByte a b).lanes = s.lanes := rfl
@[simp] theorem State.putByte_stations (s : State) (a : Nat) (b : Byte) : (s.putByte a b).stations = s.stations := rfl
@[simp] theorem State.putByte_fifos (s : State) (a : Nat) (b : Byte) : (s.putByte a b).fifos = s.fifos := rfl
@[simp] theorem State.putByte_fns (s : State) (a : Nat) (b : Byte) : (s.putByte a b).fns = s.fns := rfl
@[simp] theorem State.putByte_tunnel (s : State) (a : Nat) (b : Byte) : (s.putByte a b).tunnel = s.tunnel := rfl
@[simp] theorem State.putByte_cores (s : State) (a : Nat) (b : Byte) : (s.putByte a b).cores = s.cores := rfl
@[simp] theorem State.putByte_shapeQ (s : State) (a : Nat) (b : Byte) : (s.putByte a b).shapeQ = s.shapeQ := rfl
@[simp] theorem State.putByte_reports (s : State) (a : Nat) (b : Byte) : (s.putByte a b).reports = s.reports := rfl
@[simp] theorem State.putByte_irqs (s : State) (a : Nat) (b : Byte) : (s.putByte a b).irqs = s.irqs := rfl
@[simp] theorem State.putByte_doms (s : State) (a : Nat) (b : Byte) : (s.putByte a b).doms = s.doms := rfl
@[simp] theorem State.putByte_mode (s : State) (a : Nat) (b : Byte) : (s.putByte a b).mode = s.mode := rfl
@[simp] theorem State.putByte_merge (s : State) (a : Nat) (b : Byte) : (s.putByte a b).merge = s.merge := rfl
@[simp] theorem State.putByte_ceList (s : State) (a : Nat) (b : Byte) : (s.putByte a b).ceList = s.ceList := rfl
@[simp] theorem State.putByte_remap (s : State) (a : Nat) (b : Byte) : (s.putByte a b).remap = s.remap := rfl
@[simp] theorem State.putByte_held (s : State) (a : Nat) (b : Byte) : (s.putByte a b).held = s.held := rfl
@[simp] theorem State.putByte_downReq (s : State) (a : Nat) (b : Byte) : (s.putByte a b).downReq = s.downReq := rfl
@[simp] theorem State.putByte_staging (s : State) (a : Nat) (b : Byte) : (s.putByte a b).staging = s.staging := rfl
@[simp] theorem State.putByte_sleepReqs (s : State) (a : Nat) (b : Byte) : (s.putByte a b).sleepReqs = s.sleepReqs := rfl
@[simp] theorem State.putByte_safen (s : State) (a : Nat) (b : Byte) : (s.putByte a b).safen = s.safen := rfl
@[simp] theorem State.putByte_aonArmed (s : State) (a : Nat) (b : Byte) : (s.putByte a b).aonArmed = s.aonArmed := rfl
@[simp] theorem State.putByte_fuses (s : State) (a : Nat) (b : Byte) : (s.putByte a b).fuses = s.fuses := rfl
@[simp] theorem State.putByte_boxes (s : State) (a : Nat) (b : Byte) : (s.putByte a b).boxes = s.boxes := rfl
@[simp] theorem State.putByte_debugErr (s : State) (a : Nat) (b : Byte) : (s.putByte a b).debugErr = s.debugErr := rfl
@[simp] theorem State.putByte_jn (s : State) (a : Nat) (b : Byte) : (s.putByte a b).jn = s.jn := rfl
@[simp] theorem State.putByte_dict (s : State) (a : Nat) (b : Byte) : (s.putByte a b).dict = s.dict := rfl
@[simp] theorem State.putByte_phReset (s : State) (a : Nat) (b : Byte) : (s.putByte a b).phReset = s.phReset := rfl
@[simp] theorem State.putByte_ptmLast (s : State) (a : Nat) (b : Byte) : (s.putByte a b).ptmLast = s.ptmLast := rfl
@[simp] theorem State.putByte_ptmOpen (s : State) (a : Nat) (b : Byte) : (s.putByte a b).ptmOpen = s.ptmOpen := rfl
@[simp] theorem State.putByte_pommelUp (s : State) (a : Nat) (b : Byte) : (s.putByte a b).pommelUp = s.pommelUp := rfl
@[simp] theorem State.putByte_cantleUp (s : State) (a : Nat) (b : Byte) : (s.putByte a b).cantleUp = s.cantleUp := rfl
@[simp] theorem State.putByte_commits (s : State) (a : Nat) (b : Byte) : (s.putByte a b).commits = s.commits := rfl
@[simp] theorem State.putByte_opens (s : State) (a : Nat) (b : Byte) : (s.putByte a b).opens = s.opens := rfl
@[simp] theorem State.putByte_loose (s : State) (a : Nat) (b : Byte) : (s.putByte a b).loose = s.loose := rfl
@[simp] theorem State.putByte_shadows (s : State) (a : Nat) (b : Byte) : (s.putByte a b).shadows = s.shadows := rfl
@[simp] theorem State.putByte_conds (s : State) (a : Nat) (b : Byte) : (s.putByte a b).conds = s.conds := rfl
@[simp] theorem State.putByte_counted (s : State) (a : Nat) (b : Byte) : (s.putByte a b).counted = s.counted := rfl
@[simp] theorem State.putByte_ftReact (s : State) (a : Nat) (b : Byte) : (s.putByte a b).ftReact = s.ftReact := rfl
@[simp] theorem State.putByte_ftHeld (s : State) (a : Nat) (b : Byte) : (s.putByte a b).ftHeld = s.ftHeld := rfl
@[simp] theorem State.putByte_faultN (s : State) (a : Nat) (b : Byte) : (s.putByte a b).faultN = s.faultN := rfl
@[simp] theorem State.putByte_kickC (s : State) (a : Nat) (b : Byte) : (s.putByte a b).kickC = s.kickC := rfl
@[simp] theorem State.putByte_kickP (s : State) (a : Nat) (b : Byte) : (s.putByte a b).kickP = s.kickP := rfl
@[simp] theorem State.putByte_relC (s : State) (a : Nat) (b : Byte) : (s.putByte a b).relC = s.relC := rfl
@[simp] theorem State.putByte_relP (s : State) (a : Nat) (b : Byte) : (s.putByte a b).relP = s.relP := rfl
@[simp] theorem State.putByte_trans (s : State) (a : Nat) (b : Byte) : (s.putByte a b).trans = s.trans := rfl
@[simp] theorem State.putByte_prep (s : State) (a : Nat) (b : Byte) : (s.putByte a b).prep = s.prep := rfl
@[simp] theorem State.putByte_waken (s : State) (a : Nat) (b : Byte) : (s.putByte a b).waken = s.waken := rfl
@[simp] theorem State.putByte_timerArm (s : State) (a : Nat) (b : Byte) : (s.putByte a b).timerArm = s.timerArm := rfl
@[simp] theorem State.putByte_pll (s : State) (a : Nat) (b : Byte) : (s.putByte a b).pll = s.pll := rfl
@[simp] theorem State.putByte_conn (s : State) (a : Nat) (b : Byte) : (s.putByte a b).conn = s.conn := rfl
@[simp] theorem State.putByte_patrolAt (s : State) (a : Nat) (b : Byte) : (s.putByte a b).patrolAt = s.patrolAt := rfl
@[simp] theorem State.putByte_patrol (s : State) (a : Nat) (b : Byte) : (s.putByte a b).patrol = s.patrol := rfl
@[simp] theorem State.putByte_saved (s : State) (a : Nat) (b : Byte) : (s.putByte a b).saved = s.saved := rfl
@[simp] theorem State.putByte_porn (s : State) (a : Nat) (b : Byte) : (s.putByte a b).porn = s.porn := rfl
@[simp] theorem State.putByte_badRails (s : State) (a : Nat) (b : Byte) : (s.putByte a b).badRails = s.badRails := rfl
@[simp] theorem State.putByte_crReset (s : State) (a : Nat) (b : Byte) : (s.putByte a b).crReset = s.crReset := rfl
@[simp] theorem State.putByte_warmRun (s : State) (a : Nat) (b : Byte) : (s.putByte a b).warmRun = s.warmRun := rfl
@[simp] theorem State.putByte_bistRun (s : State) (a : Nat) (b : Byte) : (s.putByte a b).bistRun = s.bistRun := rfl
@[simp] theorem State.putByte_scrubSeen (s : State) (a : Nat) (b : Byte) : (s.putByte a b).scrubSeen = s.scrubSeen := rfl
@[simp] theorem State.putByte_loader (s : State) (a : Nat) (b : Byte) : (s.putByte a b).loader = s.loader := rfl
@[simp] theorem State.putByte_cImg (s : State) (a : Nat) (b : Byte) : (s.putByte a b).cImg = s.cImg := rfl
@[simp] theorem State.putByte_pImg (s : State) (a : Nat) (b : Byte) : (s.putByte a b).pImg = s.pImg := rfl
@[simp] theorem State.putByte_startC (s : State) (a : Nat) (b : Byte) : (s.putByte a b).startC = s.startC := rfl
@[simp] theorem State.putByte_startP (s : State) (a : Nat) (b : Byte) : (s.putByte a b).startP = s.startP := rfl
@[simp] theorem State.putByte_phPhase (s : State) (a : Nat) (b : Byte) : (s.putByte a b).phPhase = s.phPhase := rfl
@[simp] theorem State.putByte_logUnread (s : State) (a : Nat) (b : Byte) : (s.putByte a b).logUnread = s.logUnread := rfl
@[simp] theorem State.putByte_dreq (s : State) (a : Nat) (b : Byte) : (s.putByte a b).dreq = s.dreq := rfl
@[simp] theorem State.putByte_svc (s : State) (a : Nat) (b : Byte) : (s.putByte a b).svc = s.svc := rfl
@[simp] theorem State.putByte_wlog (s : State) (a : Nat) (b : Byte) : (s.putByte a b).wlog = s.wlog := rfl
@[simp] theorem State.putByte_saveSt (s : State) (a : Nat) (b : Byte) : (s.putByte a b).saveSt = s.saveSt := rfl
@[simp] theorem State.putByte_flash (s : State) (a : Nat) (b : Byte) : (s.putByte a b).flash = s.flash := rfl
@[simp] theorem State.putByte_stagedC (s : State) (a : Nat) (b : Byte) : (s.putByte a b).stagedC = s.stagedC := rfl
@[simp] theorem State.putByte_stagedP (s : State) (a : Nat) (b : Byte) : (s.putByte a b).stagedP = s.stagedP := rfl
@[simp] theorem State.putByte_runC (s : State) (a : Nat) (b : Byte) : (s.putByte a b).runC = s.runC := rfl
@[simp] theorem State.putByte_runP (s : State) (a : Nat) (b : Byte) : (s.putByte a b).runP = s.runP := rfl
@[simp] theorem State.putByte_burn (s : State) (a : Nat) (b : Byte) : (s.putByte a b).burn = s.burn := rfl
@[simp] theorem State.putByte_i3cAddr (s : State) (a : Nat) (b : Byte) : (s.putByte a b).i3cAddr = s.i3cAddr := rfl
@[simp] theorem State.putByte_i3cReply (s : State) (a : Nat) (b : Byte) : (s.putByte a b).i3cReply = s.i3cReply := rfl
@[simp] theorem State.putByte_dbgOn (s : State) (a : Nat) (b : Byte) : (s.putByte a b).dbgOn = s.dbgOn := rfl
@[simp] theorem State.putByte_haltC (s : State) (a : Nat) (b : Byte) : (s.putByte a b).haltC = s.haltC := rfl
@[simp] theorem State.putByte_haltP (s : State) (a : Nat) (b : Byte) : (s.putByte a b).haltP = s.haltP := rfl
@[simp] theorem State.putByte_fwDue (s : State) (a : Nat) (b : Byte) : (s.putByte a b).fwDue = s.fwDue := rfl

/-! ## State.setStatus and State.emit -/

/-- A status update changes registers and interrupt sources alone. -/
theorem State.setStatus_form (s : State) (a : Nat) (v : Word) :
    s.setStatus a v = { s with regs := (s.setReg a (s.reg a ||| v)).regs, irqs := (s.setStatus a v).irqs } := by
  unfold State.setStatus State.risen
  cases statusSource a with
  | none => rfl
  | some n =>
    simp only
    split <;> rfl

/-- An output changes the list of outputs alone. -/
theorem State.emit_form (s : State) (o : Out) : s.emit o = { s with out := (s.emit o).out } := by
  unfold State.emit
  split <;> rfl

@[simp] theorem State.setStatus_pending (s : State) (a : Nat) (v : Word) : (s.setStatus a v).pending = s.pending := by rw [State.setStatus_form]
@[simp] theorem State.setStatus_time (s : State) (a : Nat) (v : Word) : (s.setStatus a v).time = s.time := by rw [State.setStatus_form]
@[simp] theorem State.setStatus_tickAon (s : State) (a : Nat) (v : Word) : (s.setStatus a v).tickAon = s.tickAon := by rw [State.setStatus_form]
@[simp] theorem State.setStatus_clkReq (s : State) (a : Nat) (v : Word) : (s.setStatus a v).clkReq = s.clkReq := by rw [State.setStatus_form]
@[simp] theorem State.setStatus_freeCtr (s : State) (a : Nat) (v : Word) : (s.setStatus a v).freeCtr = s.freeCtr := by rw [State.setStatus_form]
@[simp] theorem State.setStatus_seq (s : State) (a : Nat) (v : Word) : (s.setStatus a v).seq = s.seq := by rw [State.setStatus_form]
@[simp] theorem State.setStatus_out (s : State) (a : Nat) (v : Word) : (s.setStatus a v).out = s.out := by rw [State.setStatus_form]
@[simp] theorem State.setStatus_mem (s : State) (a : Nat) (v : Word) : (s.setStatus a v).mem = s.mem := by rw [State.setStatus_form]
@[simp] theorem State.setStatus_ecc (s : State) (a : Nat) (v : Word) : (s.setStatus a v).ecc = s.ecc := by rw [State.setStatus_form]
@[simp] theorem State.setStatus_slots (s : State) (a : Nat) (v : Word) : (s.setStatus a v).slots = s.slots := by rw [State.setStatus_form]
@[simp] theorem State.setStatus_stopped (s : State) (a : Nat) (v : Word) : (s.setStatus a v).stopped = s.stopped := by rw [State.setStatus_form]
@[simp] theorem State.setStatus_weir (s : State) (a : Nat) (v : Word) : (s.setStatus a v).weir = s.weir := by rw [State.setStatus_form]
@[simp] theorem State.setStatus_ceaWeir (s : State) (a : Nat) (v : Word) : (s.setStatus a v).ceaWeir = s.ceaWeir := by rw [State.setStatus_form]
@[simp] theorem State.setStatus_cea (s : State) (a : Nat) (v : Word) : (s.setStatus a v).cea = s.cea := by rw [State.setStatus_form]
@[simp] theorem State.setStatus_rings (s : State) (a : Nat) (v : Word) : (s.setStatus a v).rings = s.rings := by rw [State.setStatus_form]
@[simp] theorem State.setStatus_srcs (s : State) (a : Nat) (v : Word) : (s.setStatus a v).srcs = s.srcs := by rw [State.setStatus_form]
@[simp] theorem State.setStatus_launches (s : State) (a : Nat) (v : Word) : (s.setStatus a v).launches = s.launches := by rw [State.setStatus_form]
@[simp] theorem State.setStatus_lanes (s : State) (a : Nat) (v : Word) : (s.setStatus a v).lanes = s.lanes := by rw [State.setStatus_form]
@[simp] theorem State.setStatus_stations (s : State) (a : Nat) (v : Word) : (s.setStatus a v).stations = s.stations := by rw [State.setStatus_form]
@[simp] theorem State.setStatus_fifos (s : State) (a : Nat) (v : Word) : (s.setStatus a v).fifos = s.fifos := by rw [State.setStatus_form]
@[simp] theorem State.setStatus_fns (s : State) (a : Nat) (v : Word) : (s.setStatus a v).fns = s.fns := by rw [State.setStatus_form]
@[simp] theorem State.setStatus_tunnel (s : State) (a : Nat) (v : Word) : (s.setStatus a v).tunnel = s.tunnel := by rw [State.setStatus_form]
@[simp] theorem State.setStatus_cores (s : State) (a : Nat) (v : Word) : (s.setStatus a v).cores = s.cores := by rw [State.setStatus_form]
@[simp] theorem State.setStatus_shapeQ (s : State) (a : Nat) (v : Word) : (s.setStatus a v).shapeQ = s.shapeQ := by rw [State.setStatus_form]
@[simp] theorem State.setStatus_reports (s : State) (a : Nat) (v : Word) : (s.setStatus a v).reports = s.reports := by rw [State.setStatus_form]
@[simp] theorem State.setStatus_doms (s : State) (a : Nat) (v : Word) : (s.setStatus a v).doms = s.doms := by rw [State.setStatus_form]
@[simp] theorem State.setStatus_mode (s : State) (a : Nat) (v : Word) : (s.setStatus a v).mode = s.mode := by rw [State.setStatus_form]
@[simp] theorem State.setStatus_merge (s : State) (a : Nat) (v : Word) : (s.setStatus a v).merge = s.merge := by rw [State.setStatus_form]
@[simp] theorem State.setStatus_ceList (s : State) (a : Nat) (v : Word) : (s.setStatus a v).ceList = s.ceList := by rw [State.setStatus_form]
@[simp] theorem State.setStatus_remap (s : State) (a : Nat) (v : Word) : (s.setStatus a v).remap = s.remap := by rw [State.setStatus_form]
@[simp] theorem State.setStatus_held (s : State) (a : Nat) (v : Word) : (s.setStatus a v).held = s.held := by rw [State.setStatus_form]
@[simp] theorem State.setStatus_downReq (s : State) (a : Nat) (v : Word) : (s.setStatus a v).downReq = s.downReq := by rw [State.setStatus_form]
@[simp] theorem State.setStatus_staging (s : State) (a : Nat) (v : Word) : (s.setStatus a v).staging = s.staging := by rw [State.setStatus_form]
@[simp] theorem State.setStatus_sleepReqs (s : State) (a : Nat) (v : Word) : (s.setStatus a v).sleepReqs = s.sleepReqs := by rw [State.setStatus_form]
@[simp] theorem State.setStatus_safen (s : State) (a : Nat) (v : Word) : (s.setStatus a v).safen = s.safen := by rw [State.setStatus_form]
@[simp] theorem State.setStatus_aonArmed (s : State) (a : Nat) (v : Word) : (s.setStatus a v).aonArmed = s.aonArmed := by rw [State.setStatus_form]
@[simp] theorem State.setStatus_fuses (s : State) (a : Nat) (v : Word) : (s.setStatus a v).fuses = s.fuses := by rw [State.setStatus_form]
@[simp] theorem State.setStatus_boxes (s : State) (a : Nat) (v : Word) : (s.setStatus a v).boxes = s.boxes := by rw [State.setStatus_form]
@[simp] theorem State.setStatus_debugErr (s : State) (a : Nat) (v : Word) : (s.setStatus a v).debugErr = s.debugErr := by rw [State.setStatus_form]
@[simp] theorem State.setStatus_jn (s : State) (a : Nat) (v : Word) : (s.setStatus a v).jn = s.jn := by rw [State.setStatus_form]
@[simp] theorem State.setStatus_dict (s : State) (a : Nat) (v : Word) : (s.setStatus a v).dict = s.dict := by rw [State.setStatus_form]
@[simp] theorem State.setStatus_phReset (s : State) (a : Nat) (v : Word) : (s.setStatus a v).phReset = s.phReset := by rw [State.setStatus_form]
@[simp] theorem State.setStatus_ptmLast (s : State) (a : Nat) (v : Word) : (s.setStatus a v).ptmLast = s.ptmLast := by rw [State.setStatus_form]
@[simp] theorem State.setStatus_ptmOpen (s : State) (a : Nat) (v : Word) : (s.setStatus a v).ptmOpen = s.ptmOpen := by rw [State.setStatus_form]
@[simp] theorem State.setStatus_pommelUp (s : State) (a : Nat) (v : Word) : (s.setStatus a v).pommelUp = s.pommelUp := by rw [State.setStatus_form]
@[simp] theorem State.setStatus_cantleUp (s : State) (a : Nat) (v : Word) : (s.setStatus a v).cantleUp = s.cantleUp := by rw [State.setStatus_form]
@[simp] theorem State.setStatus_commits (s : State) (a : Nat) (v : Word) : (s.setStatus a v).commits = s.commits := by rw [State.setStatus_form]
@[simp] theorem State.setStatus_opens (s : State) (a : Nat) (v : Word) : (s.setStatus a v).opens = s.opens := by rw [State.setStatus_form]
@[simp] theorem State.setStatus_loose (s : State) (a : Nat) (v : Word) : (s.setStatus a v).loose = s.loose := by rw [State.setStatus_form]
@[simp] theorem State.setStatus_shadows (s : State) (a : Nat) (v : Word) : (s.setStatus a v).shadows = s.shadows := by rw [State.setStatus_form]
@[simp] theorem State.setStatus_conds (s : State) (a : Nat) (v : Word) : (s.setStatus a v).conds = s.conds := by rw [State.setStatus_form]
@[simp] theorem State.setStatus_counted (s : State) (a : Nat) (v : Word) : (s.setStatus a v).counted = s.counted := by rw [State.setStatus_form]
@[simp] theorem State.setStatus_ftReact (s : State) (a : Nat) (v : Word) : (s.setStatus a v).ftReact = s.ftReact := by rw [State.setStatus_form]
@[simp] theorem State.setStatus_ftHeld (s : State) (a : Nat) (v : Word) : (s.setStatus a v).ftHeld = s.ftHeld := by rw [State.setStatus_form]
@[simp] theorem State.setStatus_faultN (s : State) (a : Nat) (v : Word) : (s.setStatus a v).faultN = s.faultN := by rw [State.setStatus_form]
@[simp] theorem State.setStatus_kickC (s : State) (a : Nat) (v : Word) : (s.setStatus a v).kickC = s.kickC := by rw [State.setStatus_form]
@[simp] theorem State.setStatus_kickP (s : State) (a : Nat) (v : Word) : (s.setStatus a v).kickP = s.kickP := by rw [State.setStatus_form]
@[simp] theorem State.setStatus_relC (s : State) (a : Nat) (v : Word) : (s.setStatus a v).relC = s.relC := by rw [State.setStatus_form]
@[simp] theorem State.setStatus_relP (s : State) (a : Nat) (v : Word) : (s.setStatus a v).relP = s.relP := by rw [State.setStatus_form]
@[simp] theorem State.setStatus_trans (s : State) (a : Nat) (v : Word) : (s.setStatus a v).trans = s.trans := by rw [State.setStatus_form]
@[simp] theorem State.setStatus_prep (s : State) (a : Nat) (v : Word) : (s.setStatus a v).prep = s.prep := by rw [State.setStatus_form]
@[simp] theorem State.setStatus_waken (s : State) (a : Nat) (v : Word) : (s.setStatus a v).waken = s.waken := by rw [State.setStatus_form]
@[simp] theorem State.setStatus_timerArm (s : State) (a : Nat) (v : Word) : (s.setStatus a v).timerArm = s.timerArm := by rw [State.setStatus_form]
@[simp] theorem State.setStatus_pll (s : State) (a : Nat) (v : Word) : (s.setStatus a v).pll = s.pll := by rw [State.setStatus_form]
@[simp] theorem State.setStatus_conn (s : State) (a : Nat) (v : Word) : (s.setStatus a v).conn = s.conn := by rw [State.setStatus_form]
@[simp] theorem State.setStatus_patrolAt (s : State) (a : Nat) (v : Word) : (s.setStatus a v).patrolAt = s.patrolAt := by rw [State.setStatus_form]
@[simp] theorem State.setStatus_patrol (s : State) (a : Nat) (v : Word) : (s.setStatus a v).patrol = s.patrol := by rw [State.setStatus_form]
@[simp] theorem State.setStatus_saved (s : State) (a : Nat) (v : Word) : (s.setStatus a v).saved = s.saved := by rw [State.setStatus_form]
@[simp] theorem State.setStatus_porn (s : State) (a : Nat) (v : Word) : (s.setStatus a v).porn = s.porn := by rw [State.setStatus_form]
@[simp] theorem State.setStatus_badRails (s : State) (a : Nat) (v : Word) : (s.setStatus a v).badRails = s.badRails := by rw [State.setStatus_form]
@[simp] theorem State.setStatus_crReset (s : State) (a : Nat) (v : Word) : (s.setStatus a v).crReset = s.crReset := by rw [State.setStatus_form]
@[simp] theorem State.setStatus_warmRun (s : State) (a : Nat) (v : Word) : (s.setStatus a v).warmRun = s.warmRun := by rw [State.setStatus_form]
@[simp] theorem State.setStatus_bistRun (s : State) (a : Nat) (v : Word) : (s.setStatus a v).bistRun = s.bistRun := by rw [State.setStatus_form]
@[simp] theorem State.setStatus_scrubSeen (s : State) (a : Nat) (v : Word) : (s.setStatus a v).scrubSeen = s.scrubSeen := by rw [State.setStatus_form]
@[simp] theorem State.setStatus_loader (s : State) (a : Nat) (v : Word) : (s.setStatus a v).loader = s.loader := by rw [State.setStatus_form]
@[simp] theorem State.setStatus_cImg (s : State) (a : Nat) (v : Word) : (s.setStatus a v).cImg = s.cImg := by rw [State.setStatus_form]
@[simp] theorem State.setStatus_pImg (s : State) (a : Nat) (v : Word) : (s.setStatus a v).pImg = s.pImg := by rw [State.setStatus_form]
@[simp] theorem State.setStatus_startC (s : State) (a : Nat) (v : Word) : (s.setStatus a v).startC = s.startC := by rw [State.setStatus_form]
@[simp] theorem State.setStatus_startP (s : State) (a : Nat) (v : Word) : (s.setStatus a v).startP = s.startP := by rw [State.setStatus_form]
@[simp] theorem State.setStatus_phPhase (s : State) (a : Nat) (v : Word) : (s.setStatus a v).phPhase = s.phPhase := by rw [State.setStatus_form]
@[simp] theorem State.setStatus_logUnread (s : State) (a : Nat) (v : Word) : (s.setStatus a v).logUnread = s.logUnread := by rw [State.setStatus_form]
@[simp] theorem State.setStatus_dreq (s : State) (a : Nat) (v : Word) : (s.setStatus a v).dreq = s.dreq := by rw [State.setStatus_form]
@[simp] theorem State.setStatus_svc (s : State) (a : Nat) (v : Word) : (s.setStatus a v).svc = s.svc := by rw [State.setStatus_form]
@[simp] theorem State.setStatus_wlog (s : State) (a : Nat) (v : Word) : (s.setStatus a v).wlog = s.wlog := by rw [State.setStatus_form]
@[simp] theorem State.setStatus_saveSt (s : State) (a : Nat) (v : Word) : (s.setStatus a v).saveSt = s.saveSt := by rw [State.setStatus_form]
@[simp] theorem State.setStatus_flash (s : State) (a : Nat) (v : Word) : (s.setStatus a v).flash = s.flash := by rw [State.setStatus_form]
@[simp] theorem State.setStatus_stagedC (s : State) (a : Nat) (v : Word) : (s.setStatus a v).stagedC = s.stagedC := by rw [State.setStatus_form]
@[simp] theorem State.setStatus_stagedP (s : State) (a : Nat) (v : Word) : (s.setStatus a v).stagedP = s.stagedP := by rw [State.setStatus_form]
@[simp] theorem State.setStatus_runC (s : State) (a : Nat) (v : Word) : (s.setStatus a v).runC = s.runC := by rw [State.setStatus_form]
@[simp] theorem State.setStatus_runP (s : State) (a : Nat) (v : Word) : (s.setStatus a v).runP = s.runP := by rw [State.setStatus_form]
@[simp] theorem State.setStatus_burn (s : State) (a : Nat) (v : Word) : (s.setStatus a v).burn = s.burn := by rw [State.setStatus_form]
@[simp] theorem State.setStatus_i3cAddr (s : State) (a : Nat) (v : Word) : (s.setStatus a v).i3cAddr = s.i3cAddr := by rw [State.setStatus_form]
@[simp] theorem State.setStatus_i3cReply (s : State) (a : Nat) (v : Word) : (s.setStatus a v).i3cReply = s.i3cReply := by rw [State.setStatus_form]
@[simp] theorem State.setStatus_dbgOn (s : State) (a : Nat) (v : Word) : (s.setStatus a v).dbgOn = s.dbgOn := by rw [State.setStatus_form]
@[simp] theorem State.setStatus_haltC (s : State) (a : Nat) (v : Word) : (s.setStatus a v).haltC = s.haltC := by rw [State.setStatus_form]
@[simp] theorem State.setStatus_haltP (s : State) (a : Nat) (v : Word) : (s.setStatus a v).haltP = s.haltP := by rw [State.setStatus_form]
@[simp] theorem State.setStatus_fwDue (s : State) (a : Nat) (v : Word) : (s.setStatus a v).fwDue = s.fwDue := by rw [State.setStatus_form]

@[simp] theorem State.emit_pending (s : State) (o : Out) : (s.emit o).pending = s.pending := by rw [State.emit_form]
@[simp] theorem State.emit_time (s : State) (o : Out) : (s.emit o).time = s.time := by rw [State.emit_form]
@[simp] theorem State.emit_tickAon (s : State) (o : Out) : (s.emit o).tickAon = s.tickAon := by rw [State.emit_form]
@[simp] theorem State.emit_clkReq (s : State) (o : Out) : (s.emit o).clkReq = s.clkReq := by rw [State.emit_form]
@[simp] theorem State.emit_freeCtr (s : State) (o : Out) : (s.emit o).freeCtr = s.freeCtr := by rw [State.emit_form]
@[simp] theorem State.emit_seq (s : State) (o : Out) : (s.emit o).seq = s.seq := by rw [State.emit_form]
@[simp] theorem State.emit_regs (s : State) (o : Out) : (s.emit o).regs = s.regs := by rw [State.emit_form]
@[simp] theorem State.emit_mem (s : State) (o : Out) : (s.emit o).mem = s.mem := by rw [State.emit_form]
@[simp] theorem State.emit_ecc (s : State) (o : Out) : (s.emit o).ecc = s.ecc := by rw [State.emit_form]
@[simp] theorem State.emit_slots (s : State) (o : Out) : (s.emit o).slots = s.slots := by rw [State.emit_form]
@[simp] theorem State.emit_stopped (s : State) (o : Out) : (s.emit o).stopped = s.stopped := by rw [State.emit_form]
@[simp] theorem State.emit_weir (s : State) (o : Out) : (s.emit o).weir = s.weir := by rw [State.emit_form]
@[simp] theorem State.emit_ceaWeir (s : State) (o : Out) : (s.emit o).ceaWeir = s.ceaWeir := by rw [State.emit_form]
@[simp] theorem State.emit_cea (s : State) (o : Out) : (s.emit o).cea = s.cea := by rw [State.emit_form]
@[simp] theorem State.emit_rings (s : State) (o : Out) : (s.emit o).rings = s.rings := by rw [State.emit_form]
@[simp] theorem State.emit_srcs (s : State) (o : Out) : (s.emit o).srcs = s.srcs := by rw [State.emit_form]
@[simp] theorem State.emit_launches (s : State) (o : Out) : (s.emit o).launches = s.launches := by rw [State.emit_form]
@[simp] theorem State.emit_lanes (s : State) (o : Out) : (s.emit o).lanes = s.lanes := by rw [State.emit_form]
@[simp] theorem State.emit_stations (s : State) (o : Out) : (s.emit o).stations = s.stations := by rw [State.emit_form]
@[simp] theorem State.emit_fifos (s : State) (o : Out) : (s.emit o).fifos = s.fifos := by rw [State.emit_form]
@[simp] theorem State.emit_fns (s : State) (o : Out) : (s.emit o).fns = s.fns := by rw [State.emit_form]
@[simp] theorem State.emit_tunnel (s : State) (o : Out) : (s.emit o).tunnel = s.tunnel := by rw [State.emit_form]
@[simp] theorem State.emit_cores (s : State) (o : Out) : (s.emit o).cores = s.cores := by rw [State.emit_form]
@[simp] theorem State.emit_shapeQ (s : State) (o : Out) : (s.emit o).shapeQ = s.shapeQ := by rw [State.emit_form]
@[simp] theorem State.emit_reports (s : State) (o : Out) : (s.emit o).reports = s.reports := by rw [State.emit_form]
@[simp] theorem State.emit_irqs (s : State) (o : Out) : (s.emit o).irqs = s.irqs := by rw [State.emit_form]
@[simp] theorem State.emit_doms (s : State) (o : Out) : (s.emit o).doms = s.doms := by rw [State.emit_form]
@[simp] theorem State.emit_mode (s : State) (o : Out) : (s.emit o).mode = s.mode := by rw [State.emit_form]
@[simp] theorem State.emit_merge (s : State) (o : Out) : (s.emit o).merge = s.merge := by rw [State.emit_form]
@[simp] theorem State.emit_ceList (s : State) (o : Out) : (s.emit o).ceList = s.ceList := by rw [State.emit_form]
@[simp] theorem State.emit_remap (s : State) (o : Out) : (s.emit o).remap = s.remap := by rw [State.emit_form]
@[simp] theorem State.emit_held (s : State) (o : Out) : (s.emit o).held = s.held := by rw [State.emit_form]
@[simp] theorem State.emit_downReq (s : State) (o : Out) : (s.emit o).downReq = s.downReq := by rw [State.emit_form]
@[simp] theorem State.emit_staging (s : State) (o : Out) : (s.emit o).staging = s.staging := by rw [State.emit_form]
@[simp] theorem State.emit_sleepReqs (s : State) (o : Out) : (s.emit o).sleepReqs = s.sleepReqs := by rw [State.emit_form]
@[simp] theorem State.emit_safen (s : State) (o : Out) : (s.emit o).safen = s.safen := by rw [State.emit_form]
@[simp] theorem State.emit_aonArmed (s : State) (o : Out) : (s.emit o).aonArmed = s.aonArmed := by rw [State.emit_form]
@[simp] theorem State.emit_fuses (s : State) (o : Out) : (s.emit o).fuses = s.fuses := by rw [State.emit_form]
@[simp] theorem State.emit_boxes (s : State) (o : Out) : (s.emit o).boxes = s.boxes := by rw [State.emit_form]
@[simp] theorem State.emit_debugErr (s : State) (o : Out) : (s.emit o).debugErr = s.debugErr := by rw [State.emit_form]
@[simp] theorem State.emit_jn (s : State) (o : Out) : (s.emit o).jn = s.jn := by rw [State.emit_form]
@[simp] theorem State.emit_dict (s : State) (o : Out) : (s.emit o).dict = s.dict := by rw [State.emit_form]
@[simp] theorem State.emit_phReset (s : State) (o : Out) : (s.emit o).phReset = s.phReset := by rw [State.emit_form]
@[simp] theorem State.emit_ptmLast (s : State) (o : Out) : (s.emit o).ptmLast = s.ptmLast := by rw [State.emit_form]
@[simp] theorem State.emit_ptmOpen (s : State) (o : Out) : (s.emit o).ptmOpen = s.ptmOpen := by rw [State.emit_form]
@[simp] theorem State.emit_pommelUp (s : State) (o : Out) : (s.emit o).pommelUp = s.pommelUp := by rw [State.emit_form]
@[simp] theorem State.emit_cantleUp (s : State) (o : Out) : (s.emit o).cantleUp = s.cantleUp := by rw [State.emit_form]
@[simp] theorem State.emit_commits (s : State) (o : Out) : (s.emit o).commits = s.commits := by rw [State.emit_form]
@[simp] theorem State.emit_opens (s : State) (o : Out) : (s.emit o).opens = s.opens := by rw [State.emit_form]
@[simp] theorem State.emit_loose (s : State) (o : Out) : (s.emit o).loose = s.loose := by rw [State.emit_form]
@[simp] theorem State.emit_shadows (s : State) (o : Out) : (s.emit o).shadows = s.shadows := by rw [State.emit_form]
@[simp] theorem State.emit_conds (s : State) (o : Out) : (s.emit o).conds = s.conds := by rw [State.emit_form]
@[simp] theorem State.emit_counted (s : State) (o : Out) : (s.emit o).counted = s.counted := by rw [State.emit_form]
@[simp] theorem State.emit_ftReact (s : State) (o : Out) : (s.emit o).ftReact = s.ftReact := by rw [State.emit_form]
@[simp] theorem State.emit_ftHeld (s : State) (o : Out) : (s.emit o).ftHeld = s.ftHeld := by rw [State.emit_form]
@[simp] theorem State.emit_faultN (s : State) (o : Out) : (s.emit o).faultN = s.faultN := by rw [State.emit_form]
@[simp] theorem State.emit_kickC (s : State) (o : Out) : (s.emit o).kickC = s.kickC := by rw [State.emit_form]
@[simp] theorem State.emit_kickP (s : State) (o : Out) : (s.emit o).kickP = s.kickP := by rw [State.emit_form]
@[simp] theorem State.emit_relC (s : State) (o : Out) : (s.emit o).relC = s.relC := by rw [State.emit_form]
@[simp] theorem State.emit_relP (s : State) (o : Out) : (s.emit o).relP = s.relP := by rw [State.emit_form]
@[simp] theorem State.emit_trans (s : State) (o : Out) : (s.emit o).trans = s.trans := by rw [State.emit_form]
@[simp] theorem State.emit_prep (s : State) (o : Out) : (s.emit o).prep = s.prep := by rw [State.emit_form]
@[simp] theorem State.emit_waken (s : State) (o : Out) : (s.emit o).waken = s.waken := by rw [State.emit_form]
@[simp] theorem State.emit_timerArm (s : State) (o : Out) : (s.emit o).timerArm = s.timerArm := by rw [State.emit_form]
@[simp] theorem State.emit_pll (s : State) (o : Out) : (s.emit o).pll = s.pll := by rw [State.emit_form]
@[simp] theorem State.emit_conn (s : State) (o : Out) : (s.emit o).conn = s.conn := by rw [State.emit_form]
@[simp] theorem State.emit_patrolAt (s : State) (o : Out) : (s.emit o).patrolAt = s.patrolAt := by rw [State.emit_form]
@[simp] theorem State.emit_patrol (s : State) (o : Out) : (s.emit o).patrol = s.patrol := by rw [State.emit_form]
@[simp] theorem State.emit_saved (s : State) (o : Out) : (s.emit o).saved = s.saved := by rw [State.emit_form]
@[simp] theorem State.emit_porn (s : State) (o : Out) : (s.emit o).porn = s.porn := by rw [State.emit_form]
@[simp] theorem State.emit_badRails (s : State) (o : Out) : (s.emit o).badRails = s.badRails := by rw [State.emit_form]
@[simp] theorem State.emit_crReset (s : State) (o : Out) : (s.emit o).crReset = s.crReset := by rw [State.emit_form]
@[simp] theorem State.emit_warmRun (s : State) (o : Out) : (s.emit o).warmRun = s.warmRun := by rw [State.emit_form]
@[simp] theorem State.emit_bistRun (s : State) (o : Out) : (s.emit o).bistRun = s.bistRun := by rw [State.emit_form]
@[simp] theorem State.emit_scrubSeen (s : State) (o : Out) : (s.emit o).scrubSeen = s.scrubSeen := by rw [State.emit_form]
@[simp] theorem State.emit_loader (s : State) (o : Out) : (s.emit o).loader = s.loader := by rw [State.emit_form]
@[simp] theorem State.emit_cImg (s : State) (o : Out) : (s.emit o).cImg = s.cImg := by rw [State.emit_form]
@[simp] theorem State.emit_pImg (s : State) (o : Out) : (s.emit o).pImg = s.pImg := by rw [State.emit_form]
@[simp] theorem State.emit_startC (s : State) (o : Out) : (s.emit o).startC = s.startC := by rw [State.emit_form]
@[simp] theorem State.emit_startP (s : State) (o : Out) : (s.emit o).startP = s.startP := by rw [State.emit_form]
@[simp] theorem State.emit_phPhase (s : State) (o : Out) : (s.emit o).phPhase = s.phPhase := by rw [State.emit_form]
@[simp] theorem State.emit_logUnread (s : State) (o : Out) : (s.emit o).logUnread = s.logUnread := by rw [State.emit_form]
@[simp] theorem State.emit_dreq (s : State) (o : Out) : (s.emit o).dreq = s.dreq := by rw [State.emit_form]
@[simp] theorem State.emit_svc (s : State) (o : Out) : (s.emit o).svc = s.svc := by rw [State.emit_form]
@[simp] theorem State.emit_wlog (s : State) (o : Out) : (s.emit o).wlog = s.wlog := by rw [State.emit_form]
@[simp] theorem State.emit_saveSt (s : State) (o : Out) : (s.emit o).saveSt = s.saveSt := by rw [State.emit_form]
@[simp] theorem State.emit_flash (s : State) (o : Out) : (s.emit o).flash = s.flash := by rw [State.emit_form]
@[simp] theorem State.emit_stagedC (s : State) (o : Out) : (s.emit o).stagedC = s.stagedC := by rw [State.emit_form]
@[simp] theorem State.emit_stagedP (s : State) (o : Out) : (s.emit o).stagedP = s.stagedP := by rw [State.emit_form]
@[simp] theorem State.emit_runC (s : State) (o : Out) : (s.emit o).runC = s.runC := by rw [State.emit_form]
@[simp] theorem State.emit_runP (s : State) (o : Out) : (s.emit o).runP = s.runP := by rw [State.emit_form]
@[simp] theorem State.emit_burn (s : State) (o : Out) : (s.emit o).burn = s.burn := by rw [State.emit_form]
@[simp] theorem State.emit_i3cAddr (s : State) (o : Out) : (s.emit o).i3cAddr = s.i3cAddr := by rw [State.emit_form]
@[simp] theorem State.emit_i3cReply (s : State) (o : Out) : (s.emit o).i3cReply = s.i3cReply := by rw [State.emit_form]
@[simp] theorem State.emit_dbgOn (s : State) (o : Out) : (s.emit o).dbgOn = s.dbgOn := by rw [State.emit_form]
@[simp] theorem State.emit_haltC (s : State) (o : Out) : (s.emit o).haltC = s.haltC := by rw [State.emit_form]
@[simp] theorem State.emit_haltP (s : State) (o : Out) : (s.emit o).haltP = s.haltP := by rw [State.emit_form]
@[simp] theorem State.emit_fwDue (s : State) (o : Out) : (s.emit o).fwDue = s.fwDue := by rw [State.emit_form]

/-! ## Reads after writes -/

theorem State.reg_setReg (s : State) (a b : Nat) (v : Word) : (s.setReg a v).reg b = if b = a then v else s.reg b := by
  unfold State.reg State.setReg
  by_cases h : b = a
  · subst h
    simp
  · simp only [h, if_false]
    exact SMap.get_set_ne _ _ _ _ h

@[simp] theorem State.reg_setReg_self (s : State) (a : Nat) (v : Word) : (s.setReg a v).reg a = v := by simp [State.reg_setReg]

theorem State.reg_setStatus (s : State) (a b : Nat) (v : Word) :
    (s.setStatus a v).reg b = if b = a then s.reg a ||| v else s.reg b := by
  rw [← State.reg_setReg]
  have h : (s.setStatus a v).regs = (s.setReg a (s.reg a ||| v)).regs := by rw [State.setStatus_form]
  simp only [State.reg] at h ⊢
  rw [h]

@[simp] theorem State.slot_setSlot (s : State) (k : Nat) (x : Slot) : (s.setSlot k x).slot k = x := by simp [State.slot, State.setSlot]

theorem State.slot_setSlot_other (s : State) {k j : Nat} (x : Slot) (h : j ≠ k) : (s.setSlot k x).slot j = s.slot j := by
  simp [State.slot, State.setSlot, SMap.get_set_other _ _ _ h]

@[simp] theorem State.ring_setRing (s : State) (k : Nat) (x : Ring) : (s.setRing k x).ring k = x := by simp [State.ring, State.setRing]

theorem State.ring_setRing_other (s : State) {k j : Nat} (x : Ring) (h : j ≠ k) : (s.setRing k x).ring j = s.ring j := by
  simp [State.ring, State.setRing, SMap.get_set_other _ _ _ h]

@[simp] theorem State.fn_setFn (s : State) (k : Nat) (x : Func) : (s.setFn k x).fn k = x := by simp [State.fn, State.setFn]

theorem State.fn_setFn_other (s : State) {k j : Nat} (x : Func) (h : j ≠ k) : (s.setFn k x).fn j = s.fn j := by
  simp [State.fn, State.setFn, SMap.get_set_other _ _ _ h]

@[simp] theorem State.lane_setLane (s : State) (k : Nat) (x : Lane) : (s.setLane k x).lane k = x := by simp [State.lane, State.setLane]

theorem State.lane_setLane_other (s : State) {k j : Nat} (x : Lane) (h : j ≠ k) : (s.setLane k x).lane j = s.lane j := by
  simp [State.lane, State.setLane, SMap.get_set_other _ _ _ h]

@[simp] theorem State.station_setStation (s : State) (k : Nat) (x : Station) : (s.setStation k x).station k = x := by simp [State.station, State.setStation]

theorem State.station_setStation_other (s : State) {k j : Nat} (x : Station) (h : j ≠ k) : (s.setStation k x).station j = s.station j := by
  simp [State.station, State.setStation, SMap.get_set_other _ _ _ h]

@[simp] theorem State.fifo_setFifo (s : State) (k : Nat) (x : Fifo) : (s.setFifo k x).fifo k = x := by simp [State.fifo, State.setFifo]

theorem State.fifo_setFifo_other (s : State) {k j : Nat} (x : Fifo) (h : j ≠ k) : (s.setFifo k x).fifo j = s.fifo j := by
  simp [State.fifo, State.setFifo, SMap.get_set_other _ _ _ h]

@[simp] theorem State.core_setCore (s : State) (k : Nat) (x : ScCore) : (s.setCore k x).core k = x := by simp [State.core, State.setCore]

theorem State.core_setCore_other (s : State) {k j : Nat} (x : ScCore) (h : j ≠ k) : (s.setCore k x).core j = s.core j := by
  simp [State.core, State.setCore, SMap.get_set_other _ _ _ h]

end Sys2Proof.Machine
end

