-- ==== Sys2Proof/Laws/Access.lean ====
section
/-! SUPPORT. What recording in the journal and the test of a register access change (R22, R27, R490). -/

namespace Sys2Proof.Machine

theorem onlyRegs.refl (s : State) (as : List Nat) : onlyRegs s s as := ⟨rfl, fun _ _ _ => rfl⟩

/-- The first half of onlyRegs with the new fields named. -/
theorem onlyRegs.form {s t : State} {as : List Nat} (h : onlyRegs s t as) :
    ∃ r i p j, t = { s with regs := r, irqs := i, reports := p, jn := j } := ⟨_, _, _, _, h.1⟩

theorem onlyRegs.of_form {s t : State} {as : List Nat} (h : ∃ r i p j, t = { s with regs := r, irqs := i, reports := p, jn := j })
    (k : ∀ b, b ∉ as → b / 0x100000 ≠ 0x4F → t.reg b = s.reg b) : onlyRegs s t as := by
  obtain ⟨r, i, p, j, rfl⟩ := h
  exact ⟨rfl, k⟩

theorem onlyRegs.trans {s t u : State} {as bs : List Nat} (h : onlyRegs s t as) (k : onlyRegs t u bs) : onlyRegs s u (as ++ bs) := by
  refine ⟨?_, fun b hb hj => ?_⟩
  · obtain ⟨r, i, p, j, rfl⟩ := h.form
    obtain ⟨r', i', p', j', rfl⟩ := k.form
    rfl
  · rw [List.mem_append, not_or] at hb
    rw [k.2 b hb.2 hj, h.2 b hb.1 hj]

theorem onlyRegs.mono {s t : State} {as bs : List Nat} (h : onlyRegs s t as) (hs : ∀ a ∈ as, a ∈ bs) : onlyRegs s t bs :=
  ⟨h.1, fun b hb hj => h.2 b (fun ha => hb (hs b ha)) hj⟩

/-- The journal's own registers do not count. -/
theorem onlyRegs.drop {s t : State} {a : Nat} {as : List Nat} (h : onlyRegs s t (a :: as)) (ha : a / 0x100000 = 0x4F) : onlyRegs s t as :=
  ⟨h.1, fun b hb hj => h.2 b (by simp only [List.mem_cons, not_or]; exact ⟨fun e => hj (e ▸ ha), hb⟩) hj⟩

theorem onlyRegs_setReg (s : State) (a : Nat) (v : Word) : onlyRegs s (s.setReg a v) [a] :=
  ⟨rfl, fun b hb _ => by rw [State.reg_setReg, if_neg (by simpa using hb)]⟩

theorem onlyRegs_setStatus (s : State) (a : Nat) (v : Word) : onlyRegs s (s.setStatus a v) [a] :=
  .of_form ⟨_, _, s.reports, s.jn, State.setStatus_form s a v⟩ fun b hb _ => by rw [State.reg_setStatus, if_neg (by simpa using hb)]

theorem onlyRegs_irq (s : State) (n : Nat) : onlyRegs s (s.irq n) [] := ⟨rfl, fun _ _ _ => rfl⟩

theorem onlyRegs_report (s : State) (g det cls owner unit master : Nat) (detail : Word) (cond : Bool) :
    onlyRegs s (s.report g det cls owner unit master detail cond) [] := ⟨rfl, fun _ _ _ => rfl⟩

theorem onlyRegs_jn (s : State) (j : Jn) : onlyRegs s { s with jn := j } [] := ⟨rfl, fun _ _ _ => rfl⟩

theorem onlyRegs_jput (s : State) (r : JRec) : onlyRegs s (s.jput r) [] :=
  ((onlyRegs_setReg s 0x04F0002C _).drop (by decide)).trans (onlyRegs_jn _ _)

theorem onlyRegs_jgap (s : State) : onlyRegs s s.jgap [] := (onlyRegs_jn s _).trans (onlyRegs_jput _ _)

theorem onlyRegs_ite {s t u : State} {as : List Nat} {p : Prop} [Decidable p] (h : onlyRegs s t as) (k : onlyRegs s u as) :
    onlyRegs s (if p then t else u) as := by
  by_cases hp : p
  · rwa [if_pos hp]
  · rwa [if_neg hp]

theorem onlyRegs_setJnState (s : State) (c : Nat) : onlyRegs s (s.setJnState c) [] := (onlyRegs_setReg s 0x04F00010 _).drop (by decide)

theorem onlyRegs_jnStatus (s : State) (v : Word) : onlyRegs s (s.jnStatus v) [] := (onlyRegs_setStatus s 0x04F00004 v).drop (by decide)

theorem onlyRegs_jend (s : State) (r : Nat) : onlyRegs s (s.jend r) [] := by
  unfold State.jend
  refine onlyRegs_ite (onlyRegs_setJnState s 0) (onlyRegs_ite (onlyRegs.refl s _) ?_)
  extract_lets s1 flags s2
  have h1 : onlyRegs s s1 [] := onlyRegs_ite (onlyRegs_jgap s) (onlyRegs.refl s _)
  have h2 : onlyRegs s1 s2 [] := onlyRegs_jput _ _
  exact (((h1.trans h2).trans (onlyRegs_setJnState _ _)).trans (onlyRegs_jnStatus _ _)).trans (onlyRegs_irq _ _)

/-- A record changes nothing outside the journal but reports and interrupt sources. -/
theorem onlyRegs_jrec (s : State) (type srcid : Nat) (payload : List Nat) : onlyRegs s (s.jrec type srcid payload) [] := by
  unfold State.jrec
  refine onlyRegs_ite (onlyRegs.refl s _) ?_
  extract_lets last s1 r j1 s2 j2 s3
  have h1 : onlyRegs s s1 [] := onlyRegs_ite (onlyRegs_jput s _) (onlyRegs.refl s _)
  have h2 : onlyRegs s1 s2 [] := onlyRegs_ite (onlyRegs_jgap s1) (onlyRegs.refl s1 _)
  have h3 : onlyRegs s2 s3 [] := onlyRegs_jn _ _
  refine h1.trans (onlyRegs_ite ?_ ?_)
  · exact (onlyRegs_jn _ _).trans ((onlyRegs_setReg _ 0x04F00030 _).drop (by decide))
  · refine h2.trans (onlyRegs_ite (onlyRegs_jput _ _) (onlyRegs_ite (onlyRegs_jend _ _) ?_))
    exact ((((h3.trans ((onlyRegs_setReg _ 0x04F00030 _).drop (by decide))).trans (onlyRegs_jnStatus _ _)).trans
      (onlyRegs_irq _ _)).trans (onlyRegs_report _ _ _ _ _ _ _ _ _))

theorem onlyRegs_jRegWrite (s : State) (m a : Nat) (v : Word) : onlyRegs s (s.jRegWrite m a v) [] := by
  unfold State.jRegWrite
  exact onlyRegs_ite (onlyRegs_jrec _ _ _ _) (onlyRegs.refl s _)

/-- A performed register write. -/
theorem State.regRow_may {s : State} {m : Master} {a : Nat} (v : Word) (f : State → State) (h : s.regRight m a true = .may) :
    s.regRow m a v f = f (s.jRegWrite m.id a v) := by
  simp only [State.regRow, h]

/-- A refused register write, whatever it would have done. -/
theorem State.regRow_refused {s : State} {m : Master} {a : Nat} (v : Word) (f : State → State) (h : s.regRight m a true = .refused) :
    s.regRow m a v f = s.refuse m a := by
  simp only [State.regRow, h]

/-- What is no output of the datapath leaves the part in every mode. -/
theorem State.emit_plain (s : State) {o : Out} (h : o.ofPath = false) : s.emit o = { s with out := s.out ++ [o] } := by
  simp [State.emit, h]

theorem refusedOnly_refuse (s : State) (m : Master) (a : Nat) : refusedOnly s (s.refuse m a) := by
  unfold refusedOnly
  cases m <;> simp only [State.refuse, State.refusedAccess, State.report] <;> rw [State.emit_plain _ rfl]

end Sys2Proof.Machine
end

