-- ==== Sys2Proof/Laws/Memory.lean ====
section
/-! SUPPORT. Laws of memory (R19, R326 to R336): what each operation changes, what a read after a write gives, and that the memory
and the merge buffers keep their form. -/

namespace Sys2Proof.Machine

/-! ## Operations that leave memory and merge buffers alone -/

/-- Memory and merge buffers are the same. -/
def sameMem (s t : State) : Prop := t.mem = s.mem ∧ t.merge = s.merge

theorem sameMem.refl (s : State) : sameMem s s := ⟨rfl, rfl⟩
theorem sameMem.trans {s t u : State} (h : sameMem s t) (k : sameMem t u) : sameMem s u := ⟨k.1.trans h.1, k.2.trans h.2⟩

theorem sameMem_setReg (s : State) (a : Nat) (v : Word) : sameMem s (s.setReg a v) := ⟨rfl, rfl⟩
theorem sameMem_setEcc (s : State) (w : Nat) (m : EccMark) : sameMem s (s.setEcc w m) := ⟨rfl, rfl⟩
theorem sameMem_report (s : State) (g det cls owner unit master : Nat) (detail : Word) (cond : Bool) :
    sameMem s (s.report g det cls owner unit master detail cond) := ⟨rfl, rfl⟩

theorem sameMem_risen (s : State) (a : Nat) (was : Bool) : sameMem s (s.risen a was) := by
  unfold State.risen
  cases statusSource a with
  | none => exact sameMem.refl s
  | some n =>
    cases !was && s.statusLevel a with
    | false => exact sameMem.refl s
    | true => exact ⟨rfl, rfl⟩

@[simp] theorem State.risen_mem (s : State) (a : Nat) (was : Bool) : (s.risen a was).mem = s.mem := (sameMem_risen s a was).1
@[simp] theorem State.risen_merge (s : State) (a : Nat) (was : Bool) : (s.risen a was).merge = s.merge := (sameMem_risen s a was).2
theorem sameMem_injMark (s : State) (a : Nat) (m : EccMark) : sameMem s (s.injMark a m).2 := by
  unfold State.injMark
  cases s.injHits a <;> simp [sameMem]

@[simp] theorem State.injMark_mem (s : State) (a : Nat) (m : EccMark) : (s.injMark a m).2.mem = s.mem := (sameMem_injMark s a m).1
@[simp] theorem State.injMark_merge (s : State) (a : Nat) (m : EccMark) : (s.injMark a m).2.merge = s.merge := (sameMem_injMark s a m).2
@[simp] theorem State.inject_mem (s : State) (w : Nat) : (s.inject w).mem = s.mem := by simp [State.inject]
@[simp] theorem State.inject_merge (s : State) (w : Nat) : (s.inject w).merge = s.merge := by simp [State.inject]

theorem sameMem_inject (s : State) (w : Nat) : sameMem s (s.inject w) := ⟨by simp, by simp⟩

theorem sameMem_ite {s t u : State} {p : Prop} [Decidable p] (h : sameMem s t) (k : sameMem s u) : sameMem s (if p then t else u) := by
  by_cases hp : p
  · rwa [if_pos hp]
  · rwa [if_neg hp]

theorem sameMem_setStatus (s : State) (a : Nat) (v : Word) : sameMem s (s.setStatus a v) :=
  ⟨State.setStatus_mem s a v, State.setStatus_merge s a v⟩

theorem sameMem_eccEvent (s : State) (w : Nat) (m : EccMark) (master owner : Nat) : sameMem s (s.eccEvent w m master owner) := by
  unfold State.eccEvent
  refine sameMem_ite (sameMem.refl s) ?_
  extract_lets kind syn s1 held rec_ info s2 s3 s4 filtered g det s5
  have h1 : sameMem s s1 := sameMem_ite (sameMem.refl s) ⟨rfl, rfl⟩
  have h2 : sameMem s1 s2 := sameMem_ite ((sameMem_setReg _ _ _).trans (sameMem_setReg _ _ _)) (sameMem.refl _)
  have h3 : sameMem s2 s3 := sameMem_setStatus _ _ _
  have h4 : sameMem s3 s4 := sameMem_ite (sameMem_setReg _ _ _) (sameMem_ite (sameMem_setReg _ _ _) (sameMem.refl _))
  have h := ((h1.trans h2).trans h3).trans h4
  refine sameMem_ite h ?_
  have h5 : sameMem s4 s5 := sameMem_report _ _ _ _ _ _ _ _ _
  exact sameMem_ite ((h.trans h5).trans ⟨rfl, rfl⟩) (h.trans h5)

theorem sameMem_readMem (s : State) (a n master owner : Nat) : sameMem s (s.readMem a n master owner).1 := by
  unfold State.readMem
  generalize eccWords a n = ws
  have : ∀ (ws : List Nat) (t : State), sameMem s t →
      sameMem s (ws.foldl (fun t w => t.eccEvent w (SMap.get .ok s.ecc w) master owner) t) := by
    intro ws
    induction ws with
    | nil => exact fun t h => h
    | cons w ws ih => exact fun t h => ih _ (h.trans (sameMem_eccEvent _ _ _ _ _))
  exact this ws s (sameMem.refl s)

theorem byteAt_of_sameMem {s t : State} (h : sameMem s t) (p : Nat) : t.byteAt p = s.byteAt p := by
  simp [State.byteAt, State.mergeEntry, h.1, h.2]

theorem memOk_of_sameMem {s t : State} (h : sameMem s t) (hs : s.memOk) : t.memOk := by
  simpa [State.memOk, h.1, h.2] using hs

/-! ## The array -/

/-- A byte of the array. -/
def State.arr (s : State) (p : Nat) : Byte := SMap.get 0#8 s.mem p

theorem State.putBytes_arr (s : State) (a : Nat) (bs : List Byte) (p : Nat) :
    (s.putBytes a bs).arr p = if a ≤ p ∧ p < a + bs.length then (bs[p - a]?).getD 0#8 else s.arr p := by
  induction bs generalizing s a with
  | nil => simp [State.putBytes]
  | cons b bs ih =>
    have hp : (s.putByte a b).arr p = if p = a then b else s.arr p := SMap.get_set _ _ _ _ _
    rw [State.putBytes, ih, hp]
    by_cases h1 : p = a
    · subst h1
      simp
    · by_cases h2 : a + 1 ≤ p ∧ p < a + 1 + bs.length
      · have h3 : a ≤ p ∧ p < a + (b :: bs).length := by simp; omega
        have h4 : p - a = (p - (a + 1)) + 1 := by omega
        rw [if_pos h2, if_pos h3, h4]
        rfl
      · have h3 : ¬(a ≤ p ∧ p < a + (b :: bs).length) := by simp; omega
        simp only [h2, h3, h1, if_false]

theorem State.putBytes_merge (s : State) (a : Nat) (bs : List Byte) : (s.putBytes a bs).merge = s.merge := by
  induction bs generalizing s a with
  | nil => rfl
  | cons b bs ih => rw [State.putBytes, ih]; rfl

theorem State.putBytes_wf (s : State) (a : Nat) (bs : List Byte) (h : SMap.wf (fun _ => 0#8) s.mem = true) :
    SMap.wf (fun _ => 0#8) (s.putBytes a bs).mem = true := by
  induction bs generalizing s a with
  | nil => exact h
  | cons b bs ih => exact ih _ _ (SMap.wf_set a b h)

theorem sameMem_arrayWrite (s : State) (a : Nat) (bs : List Byte) (m : EccMark) : sameMem (s.putBytes a bs) (s.arrayWrite a bs m) :=
  (sameMem_setEcc _ _ _).trans (sameMem_inject _ _)

theorem State.arrayWrite_arr (s : State) (a : Nat) (bs : List Byte) (m : EccMark) (p : Nat) :
    (s.arrayWrite a bs m).arr p = if a ≤ p ∧ p < a + bs.length then (bs[p - a]?).getD 0#8 else s.arr p := by
  rw [← State.putBytes_arr, State.arr, (sameMem_arrayWrite s a bs m).1]
  rfl

theorem State.arrayWrite_merge (s : State) (a : Nat) (bs : List Byte) (m : EccMark) : (s.arrayWrite a bs m).merge = s.merge := by
  rw [(sameMem_arrayWrite s a bs m).2, State.putBytes_merge]

theorem State.arrayWrite_wf (s : State) (a : Nat) (bs : List Byte) (m : EccMark) (h : SMap.wf (fun _ => 0#8) s.mem = true) :
    SMap.wf (fun _ => 0#8) (s.arrayWrite a bs m).mem = true := by
  rw [(sameMem_arrayWrite s a bs m).1]
  exact State.putBytes_wf s a bs h

/-! ## The merge buffers (R333 to R335) -/

/-- What the merge buffers lay over the byte at `p`. -/
def overByte (p : Nat) (o : Option MergeEntry) : Option Byte := o.bind (fun e => (e.bytes[p % 8]?).getD none)

theorem State.byteAt_eq (s : State) (p : Nat) : s.byteAt p = (overByte p (s.mergeEntry p)).getD (s.arr p) := by
  unfold State.byteAt overByte State.arr
  cases s.mergeEntry p <;> rfl

theorem mergeOf_align (a : Nat) : mergeOf (alignDown a 8) = mergeOf a := by
  unfold mergeOf isMain alignDown
  by_cases h : a < 0x01800000
  · have h2 : a / 8 * 8 < 0x01800000 := by omega
    simp only [h, h2, decide_true, if_true]
    omega
  · have h2 : ¬ a / 8 * 8 < 0x01800000 := by omega
    simp [h, h2]

theorem isTack_align (a : Nat) : isTack (alignDown a 8) = isTack a := by
  unfold isTack alignDown
  rw [Bool.eq_iff_iff]
  simp
  omega

/-- The entry of word `w` in a buffer. -/
def entryIn (es : List MergeEntry) (w : Nat) : Option MergeEntry := es.find? (fun e => e.addr == w)

theorem State.mergeEntry_eq (s : State) (p : Nat) :
    s.mergeEntry p = if isTack p then none else entryIn (SMap.get [] s.merge (mergeOf p)) (alignDown p 8) := rfl

theorem entryIn_filter (es : List MergeEntry) (w v : Nat) :
    entryIn (es.filter (fun e => e.addr != w)) v = if v = w then none else entryIn es v := by
  unfold entryIn
  rw [List.find?_filter]
  by_cases h : v = w
  · subst h
    rw [if_pos rfl, List.find?_eq_none]
    intro e _
    by_cases he : e.addr = v <;> simp [he]
  · rw [if_neg h]
    congr 1
    funext e
    by_cases he : e.addr = v
    · subst he
      simp [h]
    · simp [he]

theorem entryIn_append (es : List MergeEntry) (e : MergeEntry) (v : Nat) :
    entryIn (es ++ [e]) v = (entryIn es v).or (if e.addr = v then some e else none) := by
  unfold entryIn
  rw [List.find?_append]
  by_cases h : e.addr = v <;> simp [h]

theorem entryIn_replace (es : List MergeEntry) (e : MergeEntry) (v : Nat) :
    entryIn (es.map (fun x => if x.addr == e.addr then e else x)) v =
      if v = e.addr then (entryIn es v).map (fun _ => e) else entryIn es v := by
  induction es with
  | nil => simp [entryIn]
  | cons x es ih =>
    unfold entryIn at ih ⊢
    by_cases hx : x.addr = e.addr
    · by_cases hv : v = e.addr
      · simp [hx, hv]
      · have h2 : (e.addr == v) = false := by simpa using fun h => hv (Eq.symm h)
        simpa [hx, hv, h2] using ih
    · by_cases hv : x.addr = v
      · subst hv
        simp [hx]
      · have h2 : (x.addr == v) = false := by simpa using hv
        simpa [hx, h2] using ih

theorem entryIn_mem {es : List MergeEntry} {w : Nat} {e : MergeEntry} (h : entryIn es w = some e) : e ∈ es ∧ e.addr = w := by
  unfold entryIn at h
  exact ⟨List.mem_of_find?_eq_some h, by simpa using List.find?_some h⟩

theorem entryIn_none {es : List MergeEntry} {w : Nat} (h : entryIn es w = none) : ∀ e ∈ es, e.addr ≠ w := by
  unfold entryIn at h
  intro e he
  simpa using List.find?_eq_none.1 h e he

theorem entryIn_of_mem {es : List MergeEntry} {e : MergeEntry} (hn : (es.map MergeEntry.addr).Nodup) (h : e ∈ es) :
    entryIn es e.addr = some e := by
  induction es with
  | nil => simp at h
  | cons x es ih =>
    have hn' := List.nodup_cons.1 hn
    rcases List.mem_cons.1 h with rfl | h
    · simp [entryIn]
    · have hx : (x.addr == e.addr) = false := by
        have : e.addr ∈ es.map MergeEntry.addr := List.mem_map_of_mem h
        simp only [beq_eq_false_iff_ne]
        exact fun hh => hn'.1 (hh ▸ this)
      simpa [entryIn, hx] using ih hn'.2 h

/-- The merge buffers keep their form when one of them is replaced by a list of that form. -/
def bufOk (k : Nat) (es : List MergeEntry) : Prop :=
  es.length ≤ 8 ∧ (es.map MergeEntry.addr).Nodup ∧
    ∀ e ∈ es, mergeOf e.addr = k ∧ isTack e.addr = false ∧ e.addr % 8 = 0 ∧ e.bytes.length = 8

theorem State.memOk_iff (s : State) : s.memOk ↔ SMap.wf (fun _ => 0#8) s.mem = true ∧ ∀ k, bufOk k (SMap.get [] s.merge k) := Iff.rfl

theorem bufOk_filter {k : Nat} {es : List MergeEntry} (w : Nat) (h : bufOk k es) : bufOk k (es.filter (fun e => e.addr != w)) :=
  ⟨(List.length_filter_le _ _).trans h.1, h.2.1.sublist (List.Sublist.map _ List.filter_sublist),
    fun e he => h.2.2 e (List.mem_of_mem_filter he)⟩

theorem State.memOk_putMerge {s : State} (k : Nat) (es : List MergeEntry) (h : s.memOk) (hk : bufOk k es) :
    State.memOk { s with merge := SMap.set [] s.merge k es } := by
  refine ⟨h.1, fun j => ?_⟩
  simp only [SMap.get_set]
  by_cases hj : j = k
  · subst hj
    rw [if_pos rfl]
    exact hk
  · rw [if_neg hj]
    exact h.2 j

theorem State.dropMerge_memOk {s : State} (w : Nat) (h : s.memOk) : (s.dropMerge w).memOk :=
  State.memOk_putMerge _ _ h (bufOk_filter w (h.2 _))

theorem State.dropMerge_mergeEntry (s : State) (w p : Nat) :
    (s.dropMerge w).mergeEntry p = if alignDown p 8 = w then none else s.mergeEntry p := by
  simp only [State.mergeEntry_eq, State.dropMerge, SMap.get_set]
  by_cases ht : isTack p = true
  · simp [ht]
  · by_cases hk : mergeOf p = mergeOf w
    · simp only [ht, hk, if_true, entryIn_filter]
      by_cases hv : alignDown p 8 = w <;> simp [hv]
    · have hv : alignDown p 8 ≠ w := by
        intro h
        exact hk (by rw [← h, mergeOf_align])
      simp [ht, hk, hv]

theorem State.dropMerge_arr (s : State) (w p : Nat) : (s.dropMerge w).arr p = s.arr p := rfl

/-! ## Draining (R334) -/

theorem span_length (a n : Nat) : (span a n).length = n := by
  induction n generalizing a with
  | zero => rfl
  | succ n ih => simp [span, ih]

theorem span_getElem? (a n i : Nat) : (span a n)[i]? = if i < n then some (a + i) else none := by
  induction n generalizing a i with
  | zero => simp [span]
  | succ n ih =>
    cases i with
    | zero => simp [span]
    | succ i =>
      simp only [span, List.getElem?_cons_succ, ih, Nat.add_lt_add_iff_right]
      by_cases h : i < n <;> simp [h]
      omega

theorem State.overlay_length (s : State) (e : MergeEntry) : (s.overlay e).length = 8 := by simp [State.overlay, span_length]

theorem State.overlay_getD (s : State) (e : MergeEntry) {i : Nat} (h : i < 8) :
    ((s.overlay e)[i]?).getD 0#8 = ((e.bytes[i]?).getD none).getD (s.arr (e.addr + i)) := by
  simp [State.overlay, span_getElem?, h, State.arr]

/-- What a drained entry leaves: its word in the array, and no entry for it. -/
theorem State.drain_form (s : State) (e : MergeEntry) : ∃ t m, sameMem s t ∧ s.drainEntry e = (t.dropMerge e.addr).arrayWrite e.addr (s.overlay e) m := by
  unfold State.drainEntry
  by_cases h : e.bytes.all Option.isSome = true
  · exact ⟨s, _, sameMem.refl s, by rw [if_pos h]⟩
  · exact ⟨_, _, sameMem_eccEvent s e.addr (SMap.get .ok s.ecc e.addr) 0 31, by rw [if_neg h]⟩

/-- Draining an entry of a buffer changes no byte that is read. -/
theorem State.drainEntry_byteAt {s : State} {e : MergeEntry} (ht : isTack e.addr = false) (h8 : e.addr % 8 = 0)
    (he : entryIn (SMap.get [] s.merge (mergeOf e.addr)) e.addr = some e) (p : Nat) : (s.drainEntry e).byteAt p = s.byteAt p := by
  obtain ⟨t, m, hst, hd⟩ := s.drain_form e
  rw [hd, State.byteAt_eq, State.byteAt_eq, State.arrayWrite_arr]
  have hm : ((t.dropMerge e.addr).arrayWrite e.addr (s.overlay e) m).mergeEntry p = (t.dropMerge e.addr).mergeEntry p := by
    simp [State.mergeEntry, State.arrayWrite_merge]
  have htm : t.mergeEntry p = s.mergeEntry p := by simp [State.mergeEntry, hst.2]
  rw [hm, State.dropMerge_mergeEntry t e.addr p, State.dropMerge_arr, State.overlay_length, htm]
  by_cases hp : e.addr ≤ p ∧ p < e.addr + 8
  · have ha : alignDown p 8 = e.addr := by unfold alignDown; omega
    have hi : p - e.addr < 8 := by omega
    have hi2 : p - e.addr = p % 8 := by omega
    have htp : isTack p = false := by rw [← isTack_align, ha, ht]
    have hmp : mergeOf p = mergeOf e.addr := by rw [← mergeOf_align, ha]
    have hpe : e.addr + (p - e.addr) = p := by omega
    rw [if_pos hp, if_pos ha, State.overlay_getD s e hi, hpe, State.mergeEntry_eq, hmp, ha, he, hi2]
    simp [htp, overByte]
  · have ha : alignDown p 8 ≠ e.addr := by unfold alignDown; omega
    rw [if_neg hp, if_neg ha]
    simp [State.arr, hst.1]

theorem State.drainEntry_memOk {s : State} (e : MergeEntry) (h : s.memOk) : (s.drainEntry e).memOk := by
  obtain ⟨t, m, hst, hd⟩ := s.drain_form e
  have h2 : (t.dropMerge e.addr).memOk := State.dropMerge_memOk _ (memOk_of_sameMem hst h)
  rw [hd]
  exact ⟨State.arrayWrite_wf _ _ _ _ h2.1, by rw [State.arrayWrite_merge]; exact h2.2⟩

theorem State.drainEntry_merge (s : State) (e : MergeEntry) : (s.drainEntry e).merge = (s.dropMerge e.addr).merge := by
  obtain ⟨t, m, hst, hd⟩ := s.drain_form e
  rw [hd, State.arrayWrite_merge]
  simp [State.dropMerge, hst.2]

/-- An entry of a buffer that has its form is the one that its word finds. -/
theorem State.entry_of_memOk {s : State} (h : s.memOk) {k : Nat} {e : MergeEntry} (he : e ∈ SMap.get [] s.merge k) :
    mergeOf e.addr = k ∧ isTack e.addr = false ∧ e.addr % 8 = 0 ∧ e.bytes.length = 8 ∧
      entryIn (SMap.get [] s.merge (mergeOf e.addr)) e.addr = some e := by
  obtain ⟨h1, h2, h3, h4⟩ := (h.2 k).2.2 e he
  exact ⟨h1, h2, h3, h4, by rw [h1]; exact entryIn_of_mem (h.2 k).2.1 he⟩

theorem State.drainWord_byteAt {s : State} (h : s.memOk) (a p : Nat) : (s.drainWord a).byteAt p = s.byteAt p := by
  unfold State.drainWord
  cases hm : s.mergeEntry a with
  | none => rfl
  | some e =>
    rw [State.mergeEntry_eq] at hm
    split at hm
    · cases hm
    · obtain ⟨-, h2, h3, -, h5⟩ := State.entry_of_memOk h (entryIn_mem hm).1
      exact State.drainEntry_byteAt h2 h3 h5 p

theorem State.drainWord_memOk {s : State} (h : s.memOk) (a : Nat) : (s.drainWord a).memOk := by
  unfold State.drainWord
  cases s.mergeEntry a with
  | none => exact h
  | some e => exact State.drainEntry_memOk e h

/-! ## Narrow writes (R333) -/

theorem mergeBytes_length (old : List (Option Byte)) (off : Nat) (bs : List Byte) : (mergeBytes old off bs).length = 8 := by
  simp [mergeBytes, span_length]

theorem mergeBytes_get (old : List (Option Byte)) (off : Nat) (bs : List Byte) {i : Nat} (h : i < 8) :
    ((mergeBytes old off bs)[i]?).getD none = if off ≤ i ∧ i < off + bs.length then bs[i - off]? else (old[i]?).getD none := by
  simp [mergeBytes, span_getElem?, h]

/-- The bytes that a replaced or a new entry lays over the array. -/
theorem over_mergeBytes (e : MergeEntry) (w a p : Nat) (bs : List Byte) (hp : alignDown p 8 = alignDown a 8) :
    overByte p (some { addr := w, bytes := mergeBytes e.bytes (a % 8) bs }) =
      if a ≤ p ∧ p < a + bs.length then bs[p - a]? else overByte p (some e) := by
  have h8 : p % 8 < 8 := Nat.mod_lt _ (by decide)
  simp only [overByte, Option.bind_some, mergeBytes_get _ _ _ h8]
  unfold alignDown at hp
  by_cases h : a ≤ p ∧ p < a + bs.length
  · have h1 : a % 8 ≤ p % 8 ∧ p % 8 < a % 8 + bs.length := by omega
    have h2 : p % 8 - a % 8 = p - a := by omega
    rw [if_pos h, if_pos h1, h2]
  · have h1 : ¬(a % 8 ≤ p % 8 ∧ p % 8 < a % 8 + bs.length) := by omega
    rw [if_neg h, if_neg h1]

theorem range_aligned {a p n : Nat} (ha : a % 8 + n ≤ 8) (hp : a ≤ p ∧ p < a + n) : alignDown p 8 = alignDown a 8 := by
  unfold alignDown
  omega

/-- A byte after a write of `bs` at `a`. -/
def afterByte (s : State) (a : Nat) (bs : List Byte) (p : Nat) : Byte :=
  if a ≤ p ∧ p < a + bs.length then (bs[p - a]?).getD 0#8 else s.byteAt p

theorem some_of_range {a p : Nat} {bs : List Byte} (hp : a ≤ p ∧ p < a + bs.length) : ∃ b, bs[p - a]? = some b :=
  ⟨bs[p - a]'(by omega), List.getElem?_eq_getElem (by omega)⟩

/-- Putting the merged entry of a word into its buffer changes the bytes that are read as the write says. -/
theorem State.putEntry_byteAt (s : State) (a p : Nat) (bs : List Byte) (old : MergeEntry) (es : List MergeEntry)
    (ht : isTack a = false) (ha : a % 8 + bs.length ≤ 8)
    (hold : (entryIn (SMap.get [] s.merge (mergeOf a)) (alignDown a 8)).getD { addr := 0, bytes := [] } = old)
    (hes : ∀ v, entryIn es v = if v = alignDown a 8 then some { addr := alignDown a 8, bytes := mergeBytes old.bytes (a % 8) bs }
      else entryIn (SMap.get [] s.merge (mergeOf a)) v) :
    State.byteAt { s with merge := SMap.set [] s.merge (mergeOf a) es } p = afterByte s a bs p := by
  rw [State.byteAt_eq, afterByte, State.byteAt_eq s]
  simp only [State.mergeEntry_eq, SMap.get_set]
  have harr : State.arr { s with merge := SMap.set [] s.merge (mergeOf a) es } p = s.arr p := rfl
  rw [harr]
  by_cases hw : alignDown p 8 = alignDown a 8
  · have htp : isTack p = false := by rw [← isTack_align, hw, isTack_align, ht]
    have hmp : mergeOf p = mergeOf a := by rw [← mergeOf_align, hw, mergeOf_align]
    simp only [htp, hmp, hw, hes, if_true, Bool.false_eq_true, if_false]
    rw [over_mergeBytes old _ a p bs hw]
    by_cases hp : a ≤ p ∧ p < a + bs.length
    · obtain ⟨b, hb⟩ := some_of_range hp
      simp [hp, hb]
    · rw [if_neg hp, if_neg hp, ← hold]
      cases entryIn (SMap.get [] s.merge (mergeOf a)) (alignDown a 8) <;> simp [overByte]
  · have hp : ¬(a ≤ p ∧ p < a + bs.length) := fun h => hw (range_aligned ha h)
    rw [if_neg hp]
    by_cases htp : isTack p = true
    · simp [htp]
    · by_cases hmp : mergeOf p = mergeOf a
      · simp [htp, hmp, hes, hw]
      · simp [htp, hmp]

/-- A buffer takes its new list, and a full entry drains. -/
def State.putDrain (s : State) (k : Nat) (es : List MergeEntry) (e : MergeEntry) : State :=
  if e.bytes.all Option.isSome then State.drainEntry { s with merge := SMap.set [] s.merge k es } e
  else { s with merge := SMap.set [] s.merge k es }

/-- With 8 entries in use the oldest drains. -/
def State.makeRoom (s : State) (k : Nat) : State :=
  if 8 ≤ (SMap.get [] s.merge k).length then (match SMap.get [] s.merge k with | e :: _ => s.drainEntry e | [] => s) else s

theorem State.narrowWrite_some {s : State} {a : Nat} {bs : List Byte} {e : MergeEntry} (h : s.mergeEntry a = some e) :
    s.narrowWrite a bs = s.putDrain (mergeOf a)
      ((SMap.get [] s.merge (mergeOf a)).map (fun x =>
        if x.addr == alignDown a 8 then { e with bytes := mergeBytes e.bytes (a % 8) bs } else x))
      { e with bytes := mergeBytes e.bytes (a % 8) bs } := by
  unfold State.narrowWrite
  rw [h]
  rfl

theorem State.narrowWrite_none {s : State} {a : Nat} {bs : List Byte} (h : s.mergeEntry a = none) :
    s.narrowWrite a bs = { s.makeRoom (mergeOf a) with
      merge := SMap.set [] (s.makeRoom (mergeOf a)).merge (mergeOf a)
        (SMap.get [] (s.makeRoom (mergeOf a)).merge (mergeOf a) ++ [{ addr := alignDown a 8, bytes := mergeBytes [] (a % 8) bs }]) } := by
  unfold State.narrowWrite
  rw [h]
  rfl

theorem State.narrowWrite_spec {s : State} (h : s.memOk) (a : Nat) (bs : List Byte) (ht : isTack a = false) (ha : a % 8 + bs.length ≤ 8) :
    (s.narrowWrite a bs).memOk ∧ ∀ p, (s.narrowWrite a bs).byteAt p = afterByte s a bs p := by
  have hme := State.mergeEntry_eq s a
  simp only [ht, Bool.false_eq_true, if_false] at hme
  cases hm : s.mergeEntry a with
  | some e =>
    rw [hm] at hme
    obtain ⟨hmem, haddr⟩ := entryIn_mem hme.symm
    rw [State.narrowWrite_some hm]
    generalize he' : ({ e with bytes := mergeBytes e.bytes (a % 8) bs } : MergeEntry) = e'
    have hea : e'.addr = alignDown a 8 := by rw [← he', ← haddr]
    have heq : e' = { addr := alignDown a 8, bytes := mergeBytes e.bytes (a % 8) bs } := by rw [← he', ← haddr]
    have hlen : e'.bytes.length = 8 := by rw [← he']; exact mergeBytes_length _ _ _
    generalize hes : (SMap.get [] s.merge (mergeOf a)).map (fun x => if x.addr == alignDown a 8 then e' else x) = es
    have hent : ∀ v, entryIn es v = if v = alignDown a 8 then some e' else entryIn (SMap.get [] s.merge (mergeOf a)) v := by
      intro v
      rw [← hes, ← hea, entryIn_replace]
      by_cases hv : v = e'.addr
      · rw [if_pos hv, if_pos hv, hv, hea, ← hme]
        rfl
      · rw [if_neg hv, if_neg hv]
    have hbuf : bufOk (mergeOf a) es := by
      obtain ⟨b1, b2, b3⟩ := h.2 (mergeOf a)
      refine ⟨by rw [← hes, List.length_map]; exact b1, ?_, ?_⟩
      · have : es.map MergeEntry.addr = (SMap.get [] s.merge (mergeOf a)).map MergeEntry.addr := by
          rw [← hes, List.map_map]
          refine List.map_congr_left (fun x _ => ?_)
          by_cases hx : x.addr = alignDown a 8 <;> simp [hx, hea]
        rw [this]
        exact b2
      · intro x hx
        rw [← hes] at hx
        obtain ⟨y, hy, rfl⟩ := List.mem_map.1 hx
        by_cases hya : y.addr = alignDown a 8
        · simp only [hya, beq_self_eq_true, if_true]
          refine ⟨by rw [hea, mergeOf_align], by rw [hea, isTack_align, ht], by rw [hea]; unfold alignDown; omega, hlen⟩
        · simpa [hya] using b3 y hy
    have hok := State.memOk_putMerge _ _ h hbuf
    have hbyte := fun p => State.putEntry_byteAt s a p bs e es ht ha (by rw [← hme]; rfl) (by rw [← heq]; exact hent)
    unfold State.putDrain
    split
    · refine ⟨State.drainEntry_memOk _ hok, fun p => ?_⟩
      have hk : mergeOf e'.addr = mergeOf a := by rw [hea, mergeOf_align]
      rw [State.drainEntry_byteAt (by rw [hea, isTack_align, ht]) (by rw [hea]; unfold alignDown; omega) ?_ p]
      · exact hbyte p
      · simp only [hk, SMap.get_set_self]
        rw [hent, if_pos hea]
    · exact ⟨hok, hbyte⟩
  | none =>
    rw [hm] at hme
    rw [State.narrowWrite_none hm]
    generalize hs1 : s.makeRoom (mergeOf a) = s1
    have hfacts : s1.memOk ∧ (∀ p, s1.byteAt p = s.byteAt p) ∧ (SMap.get [] s1.merge (mergeOf a)).length < 8 ∧
        entryIn (SMap.get [] s1.merge (mergeOf a)) (alignDown a 8) = none := by
      rw [← hs1]
      unfold State.makeRoom
      by_cases hl : 8 ≤ (SMap.get [] s.merge (mergeOf a)).length
      · rw [if_pos hl]
        cases hes : SMap.get [] s.merge (mergeOf a) with
        | nil => simp [hes] at hl
        | cons e es =>
          have hmem : e ∈ SMap.get [] s.merge (mergeOf a) := by rw [hes]; exact List.mem_cons_self
          obtain ⟨h1, h2, h3, -, h5⟩ := State.entry_of_memOk h hmem
          refine ⟨State.drainEntry_memOk e h, State.drainEntry_byteAt h2 h3 h5, ?_, ?_⟩
          · rw [State.drainEntry_merge]
            simp only [State.dropMerge, h1, SMap.get_set_self, hes]
            have h8 : (e :: es).length ≤ 8 := by rw [← hes]; exact (h.2 (mergeOf a)).1
            have : (List.filter (fun x => x.addr != e.addr) (e :: es)).length ≤ es.length := by
              rw [List.filter_cons_of_neg (by simp)]
              exact List.length_filter_le _ _
            simp only [List.length_cons] at h8
            omega
          · rw [State.drainEntry_merge]
            simp only [State.dropMerge, h1, SMap.get_set_self]
            rw [entryIn_filter]
            split
            · rfl
            · exact hme.symm
      · rw [if_neg hl]
        exact ⟨h, fun _ => rfl, by omega, hme.symm⟩
    obtain ⟨hok1, hb1, hlt, hnone⟩ := hfacts
    generalize hes : SMap.get [] s1.merge (mergeOf a) ++ [({ addr := alignDown a 8, bytes := mergeBytes [] (a % 8) bs } : MergeEntry)] = es
    have hent : ∀ v, entryIn es v = if v = alignDown a 8 then some { addr := alignDown a 8, bytes := mergeBytes [] (a % 8) bs }
        else entryIn (SMap.get [] s1.merge (mergeOf a)) v := by
      intro v
      rw [← hes, entryIn_append]
      by_cases hv : v = alignDown a 8
      · subst hv
        simp [hnone]
      · have : ¬ alignDown a 8 = v := fun hh => hv hh.symm
        simp [hv, this]
    have hbuf : bufOk (mergeOf a) es := by
      obtain ⟨b1, b2, b3⟩ := hok1.2 (mergeOf a)
      refine ⟨by rw [← hes, List.length_append]; simp; omega, ?_, ?_⟩
      · rw [← hes, List.map_append, List.nodup_append]
        refine ⟨b2, by simp, ?_⟩
        intro x hx y hy
        obtain ⟨z, hz, rfl⟩ := List.mem_map.1 hx
        simp only [List.map_cons, List.map_nil, List.mem_singleton] at hy
        rw [hy]
        exact entryIn_none hnone z hz
      · intro x hx
        rw [← hes] at hx
        rcases List.mem_append.1 hx with hx | hx
        · exact b3 x hx
        · rw [List.mem_singleton.1 hx]
          refine ⟨mergeOf_align a, by rw [isTack_align, ht], ?_, mergeBytes_length _ _ _⟩
          simp only [alignDown]
          omega
    refine ⟨State.memOk_putMerge _ _ hok1 hbuf, fun p => ?_⟩
    rw [State.putEntry_byteAt s1 a p bs { addr := 0, bytes := [] } es ht ha (by rw [hnone]; rfl) hent]
    simp [afterByte, hb1]

/-! ## Writes (R328, R333, R336) -/

theorem State.arrayWrite_byteAt (s : State) (a : Nat) (bs : List Byte) (m : EccMark) (p : Nat)
    (h : a ≤ p ∧ p < a + bs.length → s.mergeEntry p = none) : (s.arrayWrite a bs m).byteAt p = afterByte s a bs p := by
  have hm : (s.arrayWrite a bs m).mergeEntry p = s.mergeEntry p := by simp [State.mergeEntry, State.arrayWrite_merge]
  rw [State.byteAt_eq, hm, State.arrayWrite_arr, afterByte]
  by_cases hp : a ≤ p ∧ p < a + bs.length
  · rw [h hp, if_pos hp, if_pos hp]
    rfl
  · rw [if_neg hp, if_neg hp, State.byteAt_eq]

theorem State.arrayWrite_memOk {s : State} (h : s.memOk) (a : Nat) (bs : List Byte) (m : EccMark) : (s.arrayWrite a bs m).memOk :=
  ⟨State.arrayWrite_wf _ _ _ _ h.1, by rw [State.arrayWrite_merge]; exact h.2⟩

theorem State.mergeEntry_drainWord (s : State) (a p : Nat) (hp : alignDown p 8 = alignDown a 8) :
    (s.drainWord a).mergeEntry p = none := by
  have hmp : mergeOf p = mergeOf a := by rw [← mergeOf_align, hp, mergeOf_align]
  have htp : isTack p = isTack a := by rw [← isTack_align, hp, isTack_align]
  have hsp : s.mergeEntry p = s.mergeEntry a := by rw [State.mergeEntry_eq, State.mergeEntry_eq, hmp, htp, hp]
  unfold State.drainWord
  cases hm : s.mergeEntry a with
  | none => rw [hsp, hm]
  | some e =>
    rw [State.mergeEntry_eq] at hm
    split at hm
    · cases hm
    · obtain ⟨hmem, haddr⟩ := entryIn_mem hm
      have : (s.drainEntry e).mergeEntry p = (s.dropMerge e.addr).mergeEntry p := by
        simp only [State.mergeEntry, State.drainEntry_merge]
      simp only
      rw [this, State.dropMerge_mergeEntry, if_pos (by rw [hp, haddr])]

/-- A write of bytes inside one ECC word. -/
theorem State.writeWord_spec {s : State} (h : s.memOk) (a : Nat) (bs : List Byte) (poison : Bool)
    (ha : a % eccSize a + bs.length ≤ eccSize a) :
    (s.writeWord a bs poison).memOk ∧ ∀ p, (s.writeWord a bs poison).byteAt p = afterByte s a bs p := by
  unfold State.writeWord
  by_cases ht : isTack a = true
  · have htack : ∀ p, a ≤ p ∧ p < a + bs.length → isTack p = true := by
      intro p hp
      simp only [eccSize, ht, if_true] at ha
      simp only [isTack, Bool.and_eq_true, decide_eq_true_eq] at ht ⊢
      omega
    have hn : ∀ t : State, ∀ p, a ≤ p ∧ p < a + bs.length → t.mergeEntry p = none := by
      intro t p hp
      rw [State.mergeEntry_eq, if_pos (htack p hp)]
    have hd : s.drainWord a = s := by
      unfold State.drainWord
      rw [State.mergeEntry_eq, if_pos ht]
    by_cases hl : bs.length = eccSize a
    · rw [if_pos hl, if_pos ht]
      exact ⟨State.arrayWrite_memOk h _ _ _, fun p => State.arrayWrite_byteAt _ _ _ _ _ (hn s p)⟩
    · rw [if_neg hl]
      by_cases hp : poison = true
      · rw [if_pos hp, hd]
        exact ⟨State.arrayWrite_memOk h _ _ _, fun p => State.arrayWrite_byteAt _ _ _ _ _ (hn s p)⟩
      · rw [if_neg hp, if_pos ht]
        have hs := sameMem_eccEvent s (eccWord a) (SMap.get .ok s.ecc (eccWord a)) 0 31
        refine ⟨State.arrayWrite_memOk (memOk_of_sameMem hs h) _ _ _, fun p => ?_⟩
        rw [State.arrayWrite_byteAt _ _ _ _ _ (hn _ p)]
        simp only [afterByte, byteAt_of_sameMem hs]
  · have htf : isTack a = false := by simpa using ht
    have hz : eccSize a = 8 := by simp [eccSize, htf]
    have hw : eccWord a = alignDown a 8 := by simp [eccWord, htf]
    rw [hz] at ha
    by_cases hl : bs.length = eccSize a
    · rw [if_pos hl, if_neg ht]
      refine ⟨State.arrayWrite_memOk (State.dropMerge_memOk _ h) _ _ _, fun p => ?_⟩
      have ha0 : alignDown a 8 = a := by unfold alignDown; omega
      rw [State.arrayWrite_byteAt]
      · by_cases hp : a ≤ p ∧ p < a + bs.length
        · simp only [afterByte, if_pos hp]
        · simp only [afterByte, if_neg hp]
          rw [State.byteAt_eq, State.byteAt_eq, State.dropMerge_mergeEntry, if_neg, State.dropMerge_arr]
          rw [hw, ha0]
          intro hh
          apply hp
          rw [hl, hz]
          unfold alignDown at hh
          omega
      · intro hp
        rw [State.dropMerge_mergeEntry, if_pos]
        rw [hw]
        exact range_aligned ha hp
    · rw [if_neg hl]
      by_cases hp : poison = true
      · rw [if_pos hp]
        refine ⟨State.arrayWrite_memOk (State.drainWord_memOk h a) _ _ _, fun p => ?_⟩
        rw [State.arrayWrite_byteAt]
        · simp only [afterByte, State.drainWord_byteAt h]
        · intro hr
          exact State.mergeEntry_drainWord s a p (range_aligned ha hr)
      · rw [if_neg hp, if_neg ht]
        exact State.narrowWrite_spec h a bs htf ha

/-- A write of memory stores its bytes, changes no other byte that is read, and keeps memory and merge buffers in their form. -/
theorem State.writeMem_spec {s : State} (h : s.memOk) (a : Nat) (bs : List Byte) (poison : Bool) :
    (s.writeMem a bs poison).memOk ∧ stored s (s.writeMem a bs poison) a bs := by
  have key : ∀ (k : Nat) (s : State) (a : Nat) (bs : List Byte), s.memOk → bs.length < k →
      (s.writeMemAux a bs poison k).memOk ∧ ∀ p, (s.writeMemAux a bs poison k).byteAt p = afterByte s a bs p := by
    intro k
    induction k with
    | zero => intro s a bs _ hk; omega
    | succ k ih =>
      intro s a bs h hk
      unfold State.writeMemAux
      by_cases he : bs.isEmpty = true
      · rw [if_pos he]
        refine ⟨h, fun p => ?_⟩
        have : bs = [] := by simpa using he
        subst this
        simp [afterByte]
      · rw [if_neg he]
        simp only
        have hz : 0 < eccSize a := by unfold eccSize; split <;> omega
        have hmod : a % eccSize a < eccSize a := Nat.mod_lt _ hz
        generalize hn : eccSize a - a % eccSize a = n
        have hbl : 0 < bs.length := by
          rcases Nat.eq_zero_or_pos bs.length with h0 | h0
          · exact absurd (by simpa using h0) he
          · exact h0
        have hw := State.writeWord_spec h a (bs.take n) poison (by rw [List.length_take]; omega)
        have hi := ih (s.writeWord a (bs.take n) poison) (a + n) (bs.drop n) hw.1 (by rw [List.length_drop]; omega)
        refine ⟨hi.1, fun p => ?_⟩
        rw [hi.2]
        unfold afterByte
        rw [hw.2]
        unfold afterByte
        simp only [List.length_take, List.length_drop, List.getElem?_drop]
        by_cases h1 : a + n ≤ p ∧ p < a + n + (bs.length - n)
        · have h2 : a ≤ p ∧ p < a + bs.length := by omega
          have h3 : n + (p - (a + n)) = p - a := by omega
          rw [if_pos h1, if_pos h2, h3]
        · rw [if_neg h1]
          by_cases h2 : a ≤ p ∧ p < a + min n bs.length
          · have h3 : a ≤ p ∧ p < a + bs.length := by omega
            rw [if_pos h2, if_pos h3, List.getElem?_take_of_lt (by omega)]
          · have h3 : ¬(a ≤ p ∧ p < a + bs.length) := by omega
            rw [if_neg h2, if_neg h3]
  exact key (bs.length + 1) s a bs h (by omega)

end Sys2Proof.Machine
end

