-- ==== Sys2Proof/Laws/Shape.lean ====
section
/-! SUPPORT. What one instruction of a shaping core does (R241, R243, R263): one lemma per outcome of its meaning. -/

namespace Sys2Proof.Machine

/-- A machine in which one core was replaced differs in that core alone. -/
theorem onlyCore_setCore (s : State) (c : CoreId) (x : ScCore) : onlyCore s (s.setCore c.val x) c :=
  ⟨rfl, fun _ h => State.core_setCore_other s x h⟩

theorem coreGoes_of_setCore {i : Instr} {s : State} {c : CoreId} {y : ScCore} (h : exec i s = .next (s.setCore c.val y)) :
    coreGoes i s c y :=
  ⟨_, h, State.core_setCore s c.val y, onlyCore_setCore s c y⟩

/-- A fetched instruction that is wanted is executed. -/
theorem State.scExec_of_fetches {s : State} {c : CoreId} {w : Word} {want : Word → Bool} {f : State → ScCore → Word → ScDone}
    (h : s.fetches c w) (hw : want w = true) :
    s.scExec c.val want f =
      match f s (s.core c.val) w with
      | .seq t y => t.setCore c.val y.advance
      | .jump t y => t.setCore c.val y
      | .fin t y => t.scReturn c.val y
      | .stall t y => t.setCore c.val y
      | .exc t e => t.scExcept c.val e := by
  obtain ⟨h1, h2, h3, h4⟩ := h
  have h2' : ¬ 0x8000 ≤ (s.core c.val).pc := by omega
  simp only [State.scExec, h1, h2', h3, h4, hw, Bool.not_true, Bool.false_eq_true, if_false] <;>
    cases f s (s.core c.val) w <;> rfl

theorem State.scExec_seq {s : State} {c : CoreId} {w : Word} {want : Word → Bool} {f : State → ScCore → Word → ScDone} {y : ScCore}
    (h : s.fetches c w) (hw : want w = true) (hf : f s (s.core c.val) w = .seq s y) :
    s.scExec c.val want f = s.setCore c.val y.advance := by
  rw [State.scExec_of_fetches h hw, hf]

theorem State.scExec_jump {s : State} {c : CoreId} {w : Word} {want : Word → Bool} {f : State → ScCore → Word → ScDone} {y : ScCore}
    (h : s.fetches c w) (hw : want w = true) (hf : f s (s.core c.val) w = .jump s y) :
    s.scExec c.val want f = s.setCore c.val y := by
  rw [State.scExec_of_fetches h hw, hf]

theorem State.scExec_exc {s : State} {c : CoreId} {w : Word} {want : Word → Bool} {f : State → ScCore → Word → ScDone} {e : ScExc}
    (h : s.fetches c w) (hw : want w = true) (hf : f s (s.core c.val) w = .exc s e) :
    s.scExec c.val want f = s.scExcept c.val e := by
  rw [State.scExec_of_fetches h hw, hf]

/-- An instruction of a core that is not the fetched one has no effect. -/
theorem State.scExec_unwanted {s : State} {c : CoreId} {w : Word} {want : Word → Bool} {f : State → ScCore → Word → ScDone}
    (h : s.fetches c w) (hw : want w = false) : s.scExec c.val want f = s := by
  obtain ⟨h1, h2, h3, h4⟩ := h
  have h2' : ¬ 0x8000 ≤ (s.core c.val).pc := by omega
  simp [State.scExec, h1, h2', h3, h4, hw]

end Sys2Proof.Machine
end

