-- ==== Sys2Proof/Tests/Slice0.lean ====
section
/-! SUPPORT. Tests: ill-formed commands are refused by WellFormed; small states meet the hypotheses of each statement; and examples of
the spec come out as it says. -/

namespace Sys2Proof.Tests
open Sys2Proof Sys2Proof.Machine

/-! ## Small states -/

/-- Every domain powered, in ACTIVE, both cores up. -/
def live : State := { doms := (span 0 30).map (fun d => (d, 3)), mode := 8, pommelUp := true, cantleUp := true }

/-- Core 0 runs the word w at PC 0. -/
def kernel (w : Word) (x : ScCore := {}) : State :=
  { live with cores := [(0, { x with st := .running, pc := 0, imem := (span 0 4).map (fun i => (i, w.extractLsb' (8 * i) 8)) })] }

/-- PF0 answers BAR2. -/
def hosted : State := { live with fuses := { live.fuses with lifecycle := 1 }, tunnel := .carried, fns := [(0, { cfg := [(4, 6#32)] })] }

theorem leNat_bytes (w : Word) : BitVec.ofNat 32 (leNat [w.extractLsb' 0 8, w.extractLsb' 8 8, w.extractLsb' 16 8, w.extractLsb' 24 8]) = w := by
  apply BitVec.eq_of_toNat_eq
  simp only [leNat, BitVec.extractLsb'_toNat, BitVec.toNat_ofNat, Nat.shiftRight_eq_div_pow]
  have := w.isLt
  omega

theorem kernel_fetches (w : Word) (x : ScCore) : (kernel w x).fetches 0 w := by
  have hp : ((kernel w x).core (0 : CoreId).val).pc = 0 := rfl
  refine ⟨rfl, by rw [hp]; decide, by rw [hp]; rfl, ?_⟩
  rw [hp]
  exact leNat_bytes w

theorem memOk_of_empty {s : State} (h : s.mem = []) (k : s.merge = []) : s.memOk := by
  simp [State.memOk_iff, h, k, SMap.wf, bufOk]

/-! ## Shaping cores: each instruction word, written out from its encoding (R242 to R260), meets the hypotheses on it; a kernel of it
fetches it (kernel_fetches) -/

/-- A word in the R format: major, rd, rs1, rs2, FN. -/
def wordR (m rd rs1 rs2 fn : Nat) : Word := BitVec.ofNat 32 (m * 2 ^ 26 + rd * 2 ^ 21 + rs1 * 2 ^ 16 + rs2 * 2 ^ 11 + fn)

theorem test_words_of_major_1 : ∀ fn, fn < 0x18 →
    isFn 1 fn (wordR 1 0 9 31 fn) = true ∧ bitsOf (wordR 1 0 9 31 fn) 10 5 = 0 ∧ fRd (wordR 1 0 9 31 fn) = 0 := by decide

theorem test_word_add : isFn 1 0 0b000001_01001_00010_11111_000000_00000#32 = true ∧ fRd 0b000001_01001_00010_11111_000000_00000#32 = 9 ∧
    fRs1 0b000001_01001_00010_11111_000000_00000#32 = 2 ∧ fRs2 0b000001_01001_00010_11111_000000_00000#32 = 31 := by decide

theorem test_words_immediate : (∀ m, m < 7 → isMajor (m + 2) (BitVec.ofNat 32 ((m + 2) * 2 ^ 26 + 0xFFFF)) = true) ∧
    immS 0x0800FFFF#32 = 0xFFFFFFFF#32 ∧ immZ 0x0C00FFFF#32 = 0xFFFF#32 ∧ fRs1 0x2000FFFF#32 = 0 ∧ fRd 0x1C00FFFF#32 = 0 ∧
    ∀ k, k < 4 → bitsOf (BitVec.ofNat 32 (0x18000000 + k * 32 + 31)) 7 5 = k ∧ bitsOf (BitVec.ofNat 32 (0x18000000 + k * 32 + 31)) 15 8 = 0 := by
  decide

theorem test_words_bit : (∀ fn, fn < 4 → isFn 0x1C fn (wordR 0x1C 31 8 0 fn) = true ∧ bitsOf (wordR 0x1C 31 8 0 fn) 15 5 = 0) ∧
    (isFn 0x1C 4 0x73E8FFE4#32 = true ∧ bitsOf 0x73E8FFE4#32 15 11 = 31 ∧ bitsOf 0x73E8FFE4#32 10 6 = 31) ∧
    (isFn 0x1C 5 0x73E8F805#32 = true ∧ bitsOf 0x73E8F805#32 15 11 + bitsOf 0x73E8F805#32 10 6 = 31 ∧ bit 0x73E8F805#32 5 = false) ∧
    isMajor 0x1C 0x70000006#32 = true ∧ fFn 0x70000006#32 = 6 := by decide

theorem test_words_mac : (∀ fn, fn < 7 → ∀ a, a < 2 → isFn 0x1A fn (wordR 0x1A (16 * a) 9 31 fn) = true ∧
      bitsOf (wordR 0x1A (16 * a) 9 31 fn) 24 21 = 0 ∧ bitsOf (wordR 0x1A (16 * a) 9 31 fn) 10 5 = 0) ∧
    ∀ fn, fn < 7 → isFn 0x1B fn (wordR 0x1B 0 16 0 fn) = true ∧ bitsOf (wordR 0x1B 0 16 0 fn) 19 16 = 0 ∧
      fRd (wordR 0x1B 0 16 0 fn) = 0 ∧ fRs2 (wordR 0x1B 0 16 0 fn) = 0 := by decide

theorem test_words_memory : (∀ k, k < 5 → isMajor (0x10 + k) (wordR (0x10 + k) 31 1 0 0) = true) ∧
    (∀ k, k < 3 → isMajor (0x15 + k) (wordR (0x15 + k) 31 1 0 0) = true) := by decide

theorem test_load_reaches : (kernel 0x43E10000#32 { g := [(1, 0x0300FFFC#32)] }).scLoads 0 0x0300FFFC 4 [0#8, 0#8, 0#8, 0#8] :=
  ⟨by decide, .inl ⟨by decide, by decide, by decide, by decide⟩⟩

/-- Staging area A of function 0 lies wholly in the first bytes that its share gives. -/
def stagedKernel (w : Word) (x : ScCore := {}) : State :=
  { kernel w { x with req := some { key := 0, owner := 0, desc := [], at_ := 0 } } with
      slots := [(0, { st := .running, w := { shapeAt := some 0, stageA := (0x00810000, 65536) } })] }

theorem test_stage_reaches : (stagedKernel 0x57E10000#32).scStaging 0 0x00810000 4 = true ∧
    (stagedKernel 0x57E10000#32).poisoned 0x00810000 4 = false ∧ (0x00810000 : Nat) % 4 = 0 := by decide

theorem test_generator : agMoves 4 0 0 65532 4 0 ∧ agMoves 4 1 12 8 8 4 ∧ agMoves 4 1 12 0 (-12) 0 ∧ agMoves 2 2 16 0 1 8 :=
  ⟨.inl (by decide), .inr (.inl (by decide)), .inr (.inl (by decide)), .inr (.inr ⟨rfl, 3, by decide⟩)⟩

/-- R253's example: LDA.H through AG2 in bit-reversed order reads elements 0, 4, 2, 6, 1, 5, 3, 7 and comes back to 0. -/
theorem test_bit_reversed_order : (span 0 8).foldl (fun os _ =>
      os ++ [2 * revBits 3 ((revBits 3 (os.getLast!  / 2) + 1) % 8)]) [0] = [0, 8, 4, 12, 2, 10, 6, 14, 0] := by decide

theorem test_words_generator : isMajor 0x18 0x63F50000#32 = true ∧ bitsOf 0x63F50000#32 15 0 = 0 ∧ bitsOf 0x63F50000#32 18 17 = 2 ∧
    bit 0x63F50000#32 16 = true ∧ isMajor 0x18 0x63F40000#32 = true ∧ bit 0x63F40000#32 16 = false ∧
    isMajor 0x19 0x67FA0000#32 = true ∧ bit 0x67FA0000#32 16 = false ∧ bitsOf 0x67FA0000#32 18 17 = 1 := by decide

theorem test_words_branch : isMajor 0x20 0x8000FFFF#32 = true ∧ (∀ cc, cc < 16 → bitsOf (BitVec.ofNat 32 (0x80000000 + cc * 2 ^ 22)) 25 22 = cc) ∧
    (0#32 + 4#32 * ((0x80001FFF#32).extractLsb' 0 22).signExtend 32).toNat = 0x7FFC ∧
    (0#32 + 4#32 * ((0x80002000#32).extractLsb' 0 22).signExtend 32).toNat = 0x8000 ∧
    ((4 * ((0x84001FFF#32).extractLsb' 0 26).toInt : Int) = 0x7FFC) ∧ (4 * ((0x84000000#32).extractLsb' 0 26).toInt : Int) = 0 := by decide

theorem test_words_call : isMajor 0x21 0x84001FFF#32 = true ∧ isMajor 0x22 0x88010000#32 = true ∧ fRd 0x88010000#32 = 0 ∧
    bitsOf 0x88010000#32 15 0 = 0 ∧ ∀ fn, fn < 7 → isFn 0x23 fn (wordR 0x23 0 0 0 fn) = true ∧ bitsOf (wordR 0x23 0 0 0 fn) 25 5 = 0 := by decide

theorem test_words_rpt : isMajor 0x24 0x9000FFFF#32 = true ∧ bitsOf 0x9000FFFF#32 24 16 = 0 ∧ bit 0x9000FFFF#32 25 = false ∧
    bit 0x92000000#32 25 = true ∧ bitsOf 0x92000000#32 15 0 = 0 ∧ ({} : ScCore).repeatable (wordR 1 1 1 1 0) = true := by decide

theorem test_words_special : isMajor 0x25 0x97E03200#32 = true ∧ bitsOf 0x97E03200#32 15 8 = 0x32 ∧ bitsOf 0x97E03200#32 20 16 = 0 ∧
    bitsOf 0x97E03200#32 7 0 = 0 ∧ isMajor 0x26 0x9BE02300#32 = true ∧ bitsOf 0x9BE02300#32 15 8 = 0x23 := by decide

theorem test_words_dma : ∀ fn, fn < 3 → isFn 0x27 fn (wordR 0x27 0 0 0 fn) = true ∧ bitsOf (wordR 0x27 0 0 0 fn) 25 5 = 0 ∧
    bitsOf (wordR 0x27 0 0 0 fn) 10 5 = 0 := by decide

theorem test_words_illegal : isIllegal 0#32 = true ∧ isIllegal 0x28000000#32 = true ∧ isIllegal 0x3FFFFFFF#32 = true ∧
    isIllegal 0x04000018#32 = true ∧ isIllegal 0x70000006#32 = true ∧ isIllegal 0xA0000000#32 = true ∧ isIllegal 0xDC000000#32 = true ∧
    isIllegal 0x04000017#32 = false ∧ isIllegal 0xE0000000#32 = false := by decide

theorem test_words_end : isFn 0x23 2 0x8C1FFFE2#32 = true ∧ fRd 0x8C1FFFE2#32 = 0 ∧ bitsOf 0x8C1FFFE2#32 20 5 = 0xFFFF ∧
    bitsOf 0x8C000002#32 20 5 = 0 ∧ bitsOf 0x8FE00006#32 20 5 = 0 := by decide

/-- Entry 0 of the decode table: one micro-operation (load of PARAM, or a byte load at PARAM) at the start of the pool. -/
def vangest (u : Word) : State :=
  let uc := (3, 0x80#8) :: (span 0 4).map (fun i => (0x400 + i, u.extractLsb' (8 * i) 8))
  kernel 0xE0000000#32 { dmas := [{ write := false, sys := 0, dmem := 0, len := 1 }], ucode := uc }

theorem test_vangest_passes : entryOk (((vangest 0x6B000000#32).core 0).word .ucode 0) [((vangest 0x6B000000#32).core 0).word .ucode 0x400] = true ∧
    (vangest 0x6B000000#32).scPoison 0 .ucode 0 4 = false ∧ (vangest 0x6B000000#32).scPoison 0 .ucode 0x400 4 = false ∧
    (0x38 ≤ fMajor 0xE0000000#32) := by decide

theorem test_vangest_faults : entryOk (((vangest 0x8B600000#32).core 0).word .ucode 0) [((vangest 0x8B600000#32).core 0).word .ucode 0x400] = true ∧
    (VState.step { s := vangest 0x8B600000#32, x := (vangest 0x8B600000#32).core 0, tmp := [0#32, 0#32, 0#32, 0#32], br := none } 0 0xE0000000#32
      0x8B600000#32).toOption.isNone = true := by decide

/-- A request of slot 0 that names core 0, entry 4 words in, KLIMIT 1. -/
def request : ShapeReq := { key := 0, owner := 0, desc := [4#8, 0#8, 1#8, 0#8, 1#8, 0#8], at_ := 0 }

theorem test_dispatch_starts : (State.ranked { live with shapeQ := [request], regs := [(0x04600008, 1#32)], cores := [(0, { st := .idle })] }) = [request] ∧
    State.idleCore { live with shapeQ := [request], regs := [(0x04600008, 1#32)], cores := [(0, { st := .idle })] } request = some 0 ∧
    State.shapeCores { live with shapeQ := [request], regs := [(0x04600008, 1#32)], cores := [(0, { st := .idle })] } (descCores request.desc) = [0] := by
  decide

theorem test_dispatch_without_core : (State.ranked { live with shapeQ := [request] }).find?
      (fun r => (State.shapeCores { live with shapeQ := [request] } (descCores r.desc)).isEmpty) = some request := by decide

theorem test_limit_and_stop : (kernel 0#32 { req := some request }).scRuns 0 = true ∧ descKlimit request.desc ≠ 0 ∧
    ((kernel 0#32 { req := some request }).core 0).start + descKlimit request.desc * 1200 ≤ 1200 ∧
    ((kernel 0#32 { req := some request }).slot request.key).st ≠ .running := by decide

theorem test_shaping_core_registers :
    live.regRight .pommel 0x04600008 true = .may ∧ live.regRight .debug 0x046F0008 true = .refused ∧
    live.regRight .cantle 0x046F0008 true = .may ∧ live.regRight .pommel 0x0460002C true = .may ∧ live.regRight .pommel 0x0460002C false = .may ∧
    (live.core 0).st = .disabled ∧ (live.core 0).failed = false ∧
    ({ live with cores := [(0, { failed := true })] } : State).regRight .pommel 0x04600008 true = .may ∧
    (∀ o ∈ [0x1000, 0x1FFC, 0x8000, 0xFFFC], live.regRight .pommel (0x04600000 + o) true = .may ∧ live.regRight .pommel (0x04600000 + o) false = .may) ∧
    bitsOf (live.reg 0x04600028) 15 0 % 4 = 0 := by decide

/-! ### Results of the spec's tables -/

/-- The core after a command, where it answers a next state. -/
def coreAfter (i : Instr) (s : State) : Option ScCore :=
  match exec i s with
  | .next t => some (t.core 0)
  | _ => none

/-- ADD wraps, carries, and does not overflow: 0xFFFF_FFFF + 1 (R244). -/
theorem test_add_wraps : ((coreAfter (.scAdd 0) (kernel (wordR 1 3 1 2 0) { g := [(1, 0xFFFFFFFF#32), (2, 1#32)] })).map
    (fun x => (x.reg 3, x.z, x.n, x.c, x.v, x.pc))) = some (0#32, true, false, true, false, 4) := by decide

/-- SUB of a larger number borrows: C is 0 (R244). -/
theorem test_sub_borrows : ((coreAfter (.scSub 0) (kernel (wordR 1 3 1 2 2) { g := [(1, 1#32), (2, 2#32)], c := true })).map
    (fun x => (x.reg 3, x.n, x.c, x.v))) = some (0xFFFFFFFF#32, true, false, false) := by decide

/-- SAR fills with the sign, and C is the last bit shifted out (R244). -/
theorem test_sar_fills : ((coreAfter (.scSar 0) (kernel (wordR 1 3 1 2 0xA) { g := [(1, 0x80000002#32), (2, 34#32)] })).map
    (fun x => (x.reg 3, x.c))) = some (0xE0000000#32, true) := by decide

/-- EXT of the top nibble with SX (R246). -/
theorem test_ext_sign : ((coreAfter (.scExt 0) (kernel 0x7061E0E4#32 { g := [(1, 0x80000000#32)] })).map (fun x => x.reg 3)) =
    some 0xFFFFFFF8#32 := by decide

/-- MPYQ15 of -1 by -1 is +1 in 40 bits (R248). -/
theorem test_mpyq15 : ((coreAfter (.scMpyQ15 0) (kernel (wordR 0x1A 0 1 1 0) { g := [(1, 0x8000#32)] })).map (fun x => (x.acc 0, x.v))) =
    some (0x80000000#40, false) := by decide

/-- CALL moves the window: the caller's w8 is the callee's w0 (R257). -/
theorem test_call_window : ((coreAfter (.scCall 0) (kernel 0x84000004#32 { w := [(8, 5#32)] })).map
    (fun x => (x.reg 8, x.pc, x.lk, x.res, x.depth))) = some (5#32, 16, 4, 1, 1) := by decide

/-! ## Interrupts, mailboxes and locks -/

/-- Source 512 is pending for the Pommel core with priority 5, and source 600 for core 0 with priority 1. -/
def raised : State :=
  { live with regs := [(0x04A00008, 1#32)], irqs := [(512, { en := true, pend := true, prio := 5 }), (600, { en := true, pend := true, prio := 1, target := 2 })] }

theorem test_messages : irqReserved 0 = false ∧ irqLevel 0 = false ∧ irqLevel 288 = true ∧ live.levelOf 288 = false ∧
    ({ live with boxes := [(32, some 1#32)] } : State).levelOf 288 = true ∧ irqReserved 291 = false ∧ irqReserved 292 = true ∧
    live.regRight .pommel 0x04A0000C true = .may ∧ bitsOf 0x200#32 9 0 = 512 ∧ bitsOf 0x1FF#32 9 0 = 511 := by decide

theorem test_candidates : raised.bestFor 0 = some (512, 5) ∧ SMap.wf irqReset raised.irqs = true ∧ raised.commit 0 = none ∧
    raised.claimable 0 = some (512, 5) ∧ raised.claimable 1 = none ∧ raised.claimable 2 = some (600, 1) ∧
    raised.regRight .pommel 0x04A00010 false = .may ∧ raised.regRight .cantle 0x04A00010 false = .may ∧
    ({ raised with fuses := { raised.fuses with lifecycle := 1 } } : State).regRight .debug 0x04A00010 false = .may := by decide

theorem test_delivery : ({ raised with time := 12, commits := [(0, some { src := 512, prio := 5, at_ := 0, den := true, delivered := false })] } : State).live = 12 ∧
    live.domOn 28 = true := by decide

/-- R364: DEN set after the delivery, with no higher candidate: the commit's request asserts 6 cycles on. -/
theorem test_den_set_after_delivery :
    let s := { raised with regs := [(0x04A00008, 1#32), (0x04A00100, 0x80000000#32)],
                           commits := [(0, some { src := 512, prio := 5, at_ := 0, den := false, delivered := true })] }
    s.bestFor 0 = some (512, 5) ∧ bit (s.reg 0x04A00100) 31 = true ∧
    s.commit 0 = some { src := 512, prio := 5, at_ := 0, den := false, delivered := true } := by decide

theorem test_completion : ({ raised with irqs := [(512, { active := true })] } : State).regRight .pommel 0x04A00014 true = .may ∧
    (({ raised with irqs := [(512, { active := true })] } : State).irqSrc 512).active = true ∧
    (({ raised with irqs := [(512, { active := true })] } : State).irqSrc 512).holder = 0 ∧ (raised.irqSrc 513).active = false := by decide

theorem test_wfi_of_a_level_source : ({ raised with irqs := [(436, { en := true, pend := true, prio := 1, target := 2 })] } : State).claimable 2 = some (436, 1) ∧
    irqLevel 436 = true ∧ raised.recording = false := by decide

theorem test_mailboxes : live.procUp 0 = true ∧ live.fenced 17 = false ∧ live.cantleUp = true ∧ live.fenced 16 = false ∧
    ((live.fn 0).resetAt.isNone && !live.fenced 0) = true ∧
    ({ live with tunnel := .carried, fns := [(0, { cfg := [(4, 2#32)] })] } : State).regRight (.host 0) (boxTx 0) true = .may ∧
    live.regRight .pommel (boxTx 16) true = .may ∧ live.regRight .pommel (boxTx 32) true = .may ∧ live.regRight .cantle (boxTx 33) true = .may ∧
    live.regRight .pommel (boxRx 0) false = .may ∧ live.regRight .cantle (boxRx 32) false = .may ∧ live.regRight .pommel (boxRx 33) false = .may := by
  decide

/-- R377's example: the Pommel core takes LK_7, then the Cantle core reads 0x8000_0001. -/
theorem test_locks : (match exec (.lockRead .pommel 7) live with
    | .next t => (match exec (.lockRead .cantle 7) t with
      | .next u => u.out
      | _ => [])
    | _ => []) = [.readData 1 [0#8, 0#8, 0#8, 0#8], .readData 2 [1#8, 0#8, 0#8, 0x80#8]] := by decide

theorem test_lock_rights : live.regRight .pommel 0x04B81000 false = .may ∧ live.regRight .cantle 0x04B813FC true = .may ∧
    live.reg 0x04B81000 = 0#32 ∧ ({ live with regs := [(0x04B81000, 0x80000001#32)] } : State).reg 0x04B81000 = 0x80000001#32 := by decide

/-! ## Memory -/

theorem test_memory_rights : live.memRight .pommel 0 .r = true ∧ live.memRight .cantle 0x02000000 .w = true ∧ live.memRight .pommel 0x02000000 .w = true ∧ live.memRight .pommel 0x02180000 .w = false ∧
    live.memRight .pommel 0x03FFFFFF .w = false ∧ isHw 0 = false ∧ live.memRight .pommel 0x00000000 .x = true ∧
    isTack 0x02000000 = true ∧ live.memOk := by
  refine ⟨by decide, by decide, by decide, by decide, by decide, by decide, by decide, by decide, memOk_of_empty rfl rfl⟩

/-- The ECC word at 0 in each condition of R328. -/
theorem test_ecc_conditions : ({ live with ecc := [(0, .poison)] } : State).poisoned 0 4 = true ∧ live.poisoned 0 4 = false ∧
    SMap.get .ok (({ live with ecc := [(0, .correctable)] } : State).drainWord 0).ecc (eccWord 0) = .correctable := by decide

theorem test_bar2 : hosted.bar2Open = true ∧ (hosted.fn 0).resetAt = none ∧ hosted.jnState ≠ 5 ∧ hosted.memRight (.host 0) 0x00810000 .w = true ∧
    hosted.memRight (.host 0) 0 .r = true ∧ hosted.memRight (.host 0) 0x0FFFFFFF .w = false ∧ hosted.memRight (.host 0) 0x0FFFFFFF .r = false ∧
    live.bar2Open = false := by decide

theorem test_aliases : aliasOf 0x10000000 = some (0, true) ∧ aliasOf 0x23FFFFFF = some (0x03FFFFFF, false) ∧ aliasShape .pommel 0 8 = true ∧
    aliasShape .pommel 0x02000000 8 = false ∧ live.memRight .cantle 0x02000000 .w = true := by decide

/-- A merge buffer of one entry, in its form, on a line that the scrubber visits. -/
def merging : State := { live with merge := [(0, [{ addr := 0, bytes := some 1#8 :: List.replicate 7 none }])], ecc := [(8, .correctable)] }

theorem test_merging : merging.memOk ∧ (bit (merging.reg 0x04900008) 0 && (isMain 0 || isCantle 0) && merging.domOn (memDomainOf 0)) = true ∧
    merging.mergeEntry 8 = none ∧ SMap.get .ok merging.ecc 8 = .correctable ∧ bit (merging.reg 0x04900024) 31 = false ∧
    merging.byteAt 0 = 1#8 ∧ SMap.get .ok merging.ecc 16 = .ok := by
  refine ⟨?_, by decide, by decide, by decide, by decide, by decide, by decide⟩
  rw [State.memOk_iff]
  refine ⟨rfl, fun k => ?_⟩
  by_cases hk : k = 0
  · subst hk
    simp [merging, SMap.get, bufOk, mergeOf, isTack, isMain]
  · have h : SMap.get [] merging.merge k = [] := by
      simp only [merging, SMap.get]
      rw [if_neg (Ne.symm hk)]
    rw [h]
    simp [bufOk]

theorem test_fills : ({ live with doms := [(1, 2)] } : State).dom 1 = 2 ∧ live.dom 1 ≠ 2 ∧ isTack 0x02000000 = true ∧ inMemDom 1 0x02000000 = true ∧
    ({ live with doms := [(22, 6)], bistRun := [0] } : State).dom (unitDom 0) = 6 ∧
    (span (remapRange 0).1 (remapRange 0).2).find? (fun k => live.remapEnt k == 0#32) = some (remapRange 0).1 ∧
    ({ live with doms := [(18, 6)], bistRun := [26] } : State).dom 18 = 6 := by decide

theorem test_remap : live.regRight .pommel 0x04900034 true = .may ∧ live.remapEnt 0 = 0#32 ∧ live.remapTaken 0 5 = false ∧
    bitsOf (live.reg (banked 1 0x04900030)) 7 0 = 0 ∧ ({ live with remap := [(0, 0x40000000#32)] } : State).remapEnt 0 = 0x40000000#32 := by decide

theorem test_injection : live.regRight .pommel 0x04900024 true = .may ∧ live.life ≠ 1 ∧ live.mode ≠ 0xB ∧
    ({ live with mode := 0xB } : State).regRight .pommel 0x04900024 true = .may ∧ bitsOf 0x20000000#32 30 29 ≠ 0 ∧ bitsOf 0x22002617#32 14 8 = 38 ∧
    bitsOf 0x22002617#32 4 0 = 23 ∧ bitsOf 0x22002617#32 25 24 ≠ 3 := by decide

/-! ## Fault Collector -/

/-- A detection of group 37 (data class) and of group 0 (control class), as reports. -/
def dataReport : Report := { group := 37, det := 0, cls := 1, owner := 18, unit := 0, master := 0, detail := 0#32, cond := false }
def coreReport : Report := { group := 0, det := 0, cls := 1, owner := 17, unit := 0, master := 1, detail := 0#32, cond := true }

/-- A record of class UC in grace, and one whose reaction has ended. -/
def ucRecord : FcRec := { seq := 1, idx := 0, group := 37, det := 0, cls := 1, owner := 18, unit := 0, master := 0, detail := 0#32, mode := 8, t0 := 0, grace := some 100, created := 0 }

theorem test_detections : live.mode ≠ 0 ∧ dataReport.det.val < detCount dataReport.group.val ∧ coreReport.det.val < detCount coreReport.group.val ∧
    countingMode live.mode = false ∧ countingMode 0xB = true ∧ live.shadowFor dataReport = none ∧ isControl 37 = false ∧ isControl 0 = true ∧
    live.mergeInto dataReport = none ∧ (({ live with opens := [(0, some ucRecord)] } : State).mergeInto dataReport).isSome = true ∧
    live.hasCond coreReport = false ∧ ({ live with conds := [coreReport] } : State).hasCond coreReport = true ∧
    (span 0 64).find? (fun k => (live.openAt k).isNone) = some 0 ∧
    (({ live with shadows := [{ of_ := .pommel, start := 0, ended := none, seq := 1, group := 0, det := 0, owner := 17, unit := 0 }] } : State).shadowFor
      coreReport).isSome = true ∧
    (oldest ((({ live with time := 25, opens := [(0, some { ucRecord with group := 0 })] } : State).openRecs).filter
      (fun (_, x) => isControl x.group && decide (x.created / 25 < 25 / 25)))).isSome = true := by decide

theorem test_acknowledgement : live.regRight .pommel 0x04C00010 true = .may ∧
    ({ live with opens := [(0, some ucRecord)] } : State).opens.find? (fun (_, r) => match r with | some y => y.seq == 1 && !y.acked | none => false) =
      some (0, some ucRecord) ∧
    State.calm { live with opens := [(0, some ucRecord)] } := by
  refine ⟨by decide, by decide, rfl, rfl, ?_⟩
  intro e he x hx
  simp only [List.mem_singleton] at he
  subst he
  simp only [Option.some.injEq] at hx
  subst hx
  rfl

theorem test_grace : ({ live with opens := [(63, some ucRecord)] } : State).openAt 63 = some ucRecord ∧ ucRecord.grace = some 100 ∧ live.live < 100 ∧
    (100 ≤ ({ live with time := 100 } : State).live) ∧ ({ live with opens := [(63, some ucRecord)] } : State).ftNow = false ∧
    ({ live with time := 100, opens := [(0, some { ucRecord with cls := 2 }), (63, some ucRecord)] } : State).ftNow = true ∧ live.ftReact = none ∧
    (live.shadows.find? (fun w => decide (w.closes ≤ live.live)) = none) := by decide

theorem test_release_and_watchdogs : live.regRight .pommel fcCtrl true = .may ∧ live.regRight .cantle 0x04C0002C true = .may ∧
    ({ live with fuses := { live.fuses with lifecycle := 1 } } : State).regRight .debug 0x04C0002C true = .may ∧ live.wdgOut 2 = false ∧ live.wdgOut 3 = false ∧ live.ftMade = false ∧ live.ftMay ucRecord = true ∧
    max live.relC (live.kickC.getD 0) + 1000 * 1200 ≤ ({ live with time := 1200000 } : State).live ∧
    max live.relP (live.kickP.getD 0) + 1500 * 1200 ≤ ({ live with time := 1800000 } : State).live := by decide

theorem test_group_status : live.regRight .pommel (grpStat 47) true = .may ∧ live.conds.filter (fun r => r.group.val == 0) = [] ∧
    ({ live with conds := [coreReport] } : State).conds.filter (fun r => r.group.val == 0) = [coreReport] ∧ live.regRight .pommel fcInj true = .may ∧
    bitsOf 0x00250000#32 21 16 < 48 ∧ bitsOf 0x00250000#32 5 0 < detCount (bitsOf 0x00250000#32 21 16) := by decide

/-! ## Power -/

theorem test_mode_transitions : 3 ≤ live.mode ∧ live.mode ≤ 8 ∧ live.trans = none ∧ live.floor ≤ 5 ∧ live.crReset = none ∧ live.aonArmed = false ∧
    max 5 live.floor = 5 ∧ 6 ≤ ({ live with mode := 5, regs := [(0x04D0000C, 6#32)], aonArmed := true } : State).floor ∧
    ({ live with tickAon := false, trans := some (8, 0) } : State).reached 8 = true ∧ slowMode 8 = false ∧ live.prep = none ∧
    ({ live with trans := some (3, 0) } : State).reached 3 = false ∧
    bitsOf (live.reg 0x04D00014) 21 12 = 10 := by decide

theorem test_connections : ({ live with regs := [(0x04E00008, 4#32)] } : State).linkGo = true ∧
    live.linkGo = false ∧ live.domOn 26 = true ∧ live.conn = none ∧ live.tunnel = .none ∧ (0 + 120000000 ≤ ({ live with conn := some 0, time := 120000000 } : State).live) ∧
    ({ live with doms := [(0, 3)] } : State).dom 26 = 0 ∧ bit (live.reg 0x04D00028) 6 = true := by decide

theorem test_power_requests : live.regRight .pommel 0x04D0000C true = .may ∧ live.regRight .cantle 0x04D0000C true = .may ∧
    ({ live with fuses := { live.fuses with lifecycle := 1 } } : State).regRight .debug 0x04D0000C true = .may ∧ bitsOf 8#32 3 0 = 8 ∧
    bitsOf 0x30000#32 19 16 = 3 ∧ bitsOf 2#32 3 0 = 2 ∧ live.regRight .pommel 0x04D00024 true = .may ∧
    ({ live with time := 1200000, downReq := [(pgDom 7, 1), (sqDom 3, 1)], trans := some (5, 0) } : State).downLate (pgDom 7) = true ∧
    ({ live with time := 100000000, downReq := [(pgDom 7, 1), (sqDom 3, 1)], trans := some (5, 0) } : State).downLate (sqDom 3) = true ∧
    live.downLate (pgDom 2) = false := by decide

theorem test_reins : live.regRight .pommel 0x04D00018 true = .may ∧ live.regRight .cantle 0x04D00018 true = .may ∧ live.holderPommel = false ∧
    live.alive = false ∧ ({ live with kickP := some 0 } : State).alive = true ∧ ({ live with kickP := some 0, regs := [(0x04D00018, 0xFFFFFFFF#32)] } : State).holderPommel = true := by decide

theorem test_wakes : (bitsOf (({ live with regs := [(laneFnAddr 8, 0xC#32)] } : State).padReg (laneFnAddr 8)) 3 0 = 0xC) ∧
    bit (live.reg 0x04D00028) 0 = true ∧ bitsOf (({ live with regs := [(0x04D00030, 1#32)] } : State).reg 0x04D00030) 23 0 ≠ 0 ∧
    live.regRight .pommel 0x04D00038 true = .may ∧ live.regRight .pommel 0x04D00034 true = .may ∧ live.regRight .pommel 0x04D00010 true = .may ∧
    live.wakeAt ≤ live.liveT0 ∧ live.liveT0 < ({ live with regs := [(0x04D00034, 0x1000#32)] } : State).wakeAt ∧ bit (live.reg 0x04D00028) 7 = true ∧
    ({ live with mode := 3, patrolAt := 0, time := 24000000 } : State).patrolAt + bitsOf (live.reg 0x04D00014) 4 0 * 1200000 ≤ 24000000 ∧
    bitsOf (live.reg 0x04D00014) 31 22 = 100 := by decide

theorem test_service_and_replay : live.regRight .pommel 0x04D00010 true = .may ∧ live.regRight .pommel 0x04D0003C true = .may ∧
    live.replayOk = false ∧ live.recording = false ∧ live.audUsed = false ∧ bitsOf 0x5F00#32 14 8 = 95 ∧ live.laneFunc 95 ≠ 0xB ∧
    ({ live with mode := 0xB } : State).trans = none := by decide

/-- In SERVICE with the journal's ring in host memory set up and forced safe state: what REPLAY_ENTER asks for. -/
def replayable : State :=
  { live with mode := 0xB, fuses := { live.fuses with lifecycle := 1 }, regs := [(0x04780004, 0x80000000#32), (0x04F00008, 0x64A00004#32)] }

theorem test_replay_may_start : replayable.replayOk = true ∧ replayable.recording = false ∧ replayable.regRight .pommel 0x04D00010 true = .may ∧
    replayable.trans = none := by decide

/-! ## Start-up and reset -/

theorem test_clocks : live.mode ≠ 0 ∧ live.aonArmed = false ∧ 1800000000 ≤ ({ live with time := 1800000000 } : State).live ∧ live.pll = false ∧
    State.reset.refRuns = true ∧ ({ live with doms := [(2, 1), (3, 5), (18, 7), (4, 8)] } : State).dom 2 = 1 ∧
    ({ live with doms := [(2, 1), (3, 5), (18, 7), (4, 8)] } : State).dom 4 = 8 ∧ filledDom 18 = true ∧ filledDom 2 = false := by decide

theorem test_off_and_start : ({ live with porn := false, mode := 0 } : State).badRails = [] ∧ live.porn = true ∧ live.mode ≠ 0 ∧ live.safen = true ∧
    ({ live with mode := 0, badRails := [3] } : State).badRails ≠ [] := by decide

/-- Start-up before fuse load, and an image that the loader asked for. -/
def starting : State := { mode := 1, doms := [(0, 3), (28, 3)], loader := some true }
def goodImage : Image := { cantle := true, payload := [], entry := 0#32, warm := 0#32, svn := 0, build := 0#64, headerOk := true, authOk := true }

theorem test_fuses_and_images : starting.mode = 1 ∧ starting.stageNow = 0 ∧ starting.trans = none ∧ starting.loader = some goodImage.cantle ∧
    starting.forcedSafe = false ∧ starting.domOn 28 = true ∧ starting.fuses.svnMin ≤ goodImage.svn ∧ live.regRight .pommel 0x04E0000C true = .may ∧
    live.regRight .cantle 0x04E0000C true = .may ∧ ({ live with warmRun := true } : State).phReset = none := by decide

theorem test_calm : State.calm live := ⟨rfl, rfl, fun _ h => nomatch h⟩

theorem test_resets : live.mode ≠ 0 ∧ live.regRight .pommel 0x04E00010 true = .may ∧ bitsOf 0xC301#32 15 8 = 0xC3 ∧ bitsOf 0xC303#32 7 0 = 3 ∧
    live.safen = true ∧ live.phReset = none ∧ live.crReset = none ∧ ({ live with doms := [(0, 3)] } : State).domOn 28 = false ∧
    live.busySlots.filter (fun p => keyEngine p.1 == 64) = [] ∧ live.domOn 28 = true := by decide

/-- R453's device reset keeps T0 (here its time) and starts over in FILL. -/
theorem test_device_reset : (match exec (.deviceReset .debugPort) { live with time := 77 } with
    | .next t => some (t.mode, t.time, t.domOn 28)
    | _ => none) = some (1, 77, false) := by decide

/-! ## Host port -/

/-- A link partner may be taken up; and the tunnel that is carried. -/
def linkable : State := { live with regs := [(0x04E00008, 4#32)] }
def tunnelled : State := { live with tunnel := .carried, time := 1200000000, fns := [(0, { cfg := [(0x158, 1#32)] })] }

theorem test_tunnel : linkable.domOn 26 = true ∧ linkable.domOn 27 = true ∧ bit (linkable.reg 0x04E00008) 2 = true ∧ linkable.tunnel = .none ∧
    linkable.jnState ≠ 5 ∧ bitsOf (linkable.reg 0x04000008) 3 2 = 3 ∧ linkCap 2 1 < linkCap 3 2 ∧ tunnelled.tunnel = .carried ∧
    ({ live with regs := [(0x04F00010, 5#32)] } : State).jnState = ({ live with regs := [(0x04F00010, 5#32)] } : State).jnState := by decide

theorem test_sleep_and_ptm : tunnelled.sleepReqs.any (fun r => r.1 == .cl2) = false ∧ live.regRight .pommel 0x04000008 true = .may ∧
    tunnelled.carried = true ∧ tunnelled.inD0 15 = true ∧ live.carried = false ∧ tunnelled.ptmEnabled = true ∧ tunnelled.ptmLast = none ∧
    tunnelled.domOn 27 = true ∧ ({ tunnelled with ptmLast := some 0 } : State).live = 1200000000 ∧ bitsOf (tunnelled.reg 0x04000010) 15 0 = 10 := by decide

theorem test_configuration : (¬ (alignDown 0x78 4 = 0x78 ∧ bit 0#32 15 = true)) ∧ tunnelled.regRight .pommel 0x041F0008 true = .may ∧
    (tunnelled.fn 15).resetAt = none ∧ tunnelled.phReset = none ∧ tunnelled.rings = [] ∧ tunnelled.slots = [] ∧
    ({ tunnelled with fns := [(15, { resetAt := some 0 })] } : State).fnKeys 15 = [] ∧
    ({ tunnelled with fns := [(15, { resetAt := some 0 })], time := 251999, slots := [(0, { st := .running, owner := 15 })] } : State).fnKeys 15 ≠ [] := by
  decide

/-! ## Tempo and strikes -/

/-- T2 takes its rising edges from lane 0, is locked with a period of 1,000 ticks of 5 ns, and saw an edge 1,000 ticks ago. -/
def t2 (st : SrcSt) : State :=
  let x : Source := { st := st, lastEdge := some 0, pest := 256000 }
  { live with tickAon := false, time := 6000, regs := [(0x04500140, 0x80000000#32)], srcs := [(2, x)] }

theorem test_edges : (t2 .locked).mode ≠ 0xA ∧ (t2 .locked).srcPowered 2 = true ∧ (t2 .locked).srcHasLane 2 = true ∧
    edgeSelected ((t2 .locked).srcCfg 2) true = true ∧ edgeSelected ((t2 .locked).srcCfg 2) false = false ∧ (t2 .locked).ticksFrom 0 = 1000 ∧
    (t2 .locked).srcDiv 2 = 1 ∧ ¬ (1000 * 256 * 100 * 1 < bitsOf ((t2 .locked).srcLimit 2) 15 8 * 256000) ∧
    ({ t2 .locked with time := 18 } : State).ticksFrom 0 = 3 ∧
    ({ t2 .lost with regs := [(0x04500140, 0x80001000#32)] } : State).srcDiv 2 = 2 := by decide

theorem test_host_time : live.domOn 27 = true ∧ live.mode ≠ 0xA ∧ (live.src 1).st = .off ∧
    (({ live with srcs := [(1, { st := .locked })] } : State).src 1).st ≠ .off := by decide

theorem test_mismatch_and_clock : ((t2 .locked).src 2).st ≠ .off ∧ (live.src 2).st = .off ∧ ({ live with clkReq := some false } : State).time % 1200 = 0 ∧
    live.tickAon ≠ false := by decide

theorem test_source_registers : live.regRight .cantle 0x04500140 true = .may ∧ live.srcRefused 2 0x80000000#32 = true ∧
    ({ live with regs := [(laneFnAddr 0, 0xB#32)] } : State).srcRefused 2 0x80000000#32 = false ∧ bitsOf 0x80000000#32 30 29 ≠ 3 ∧
    (0x80000000#32 &&& srcCfgMask 2) = 0x80000000#32 ∧ live.regRight .pommel 0x04500158 false = .may := by decide

/-- Group 0 of one entry: lane 0, a GPIO output, goes high. -/
def striking : State := { live with regs := [(actAddr 0, 0x200#32), (laneFnAddr 0, 1#32)] }

set_option maxRecDepth 20000 in
theorem test_strike_groups : live.regRight .cantle (sgCtrl 255) true = .may ∧ live.sgArmed 0 = false ∧ striking.armOk 0x80000800#32 = true ∧
    live.armOk 0x80000800#32 = false ∧ ({ live with regs := [(sgCtrl 0, 0x80000800#32)] } : State).sgArmed 0 = true ∧
    live.regRight .cantle (actAddr 2047) true = .may ∧ live.inArmed 0 = false ∧
    ({ live with regs := [(sgCtrl 0, 0x80000800#32)] } : State).inArmed 0 = true ∧ bitsOf 0x11000000#32 28 24 = 17 := by decide

theorem test_launches : striking.forcedSafe = false ∧ actSuits 2 (striking.laneFunc 0) = true ∧ actSuits 6 3 = true ∧ actSuits 7 10 = true ∧
    striking.domOn (pgDom 0) = true ∧ (striking.lane 0).pulse = none ∧ striking.mode ≠ 0xA ∧ striking.strikeLatency = 25 ∧
    0 + striking.strikeLatency ≤ ({ striking with time := 25 } : State).time := by decide

/-! ## Port groups, stations, FIFOs and lanes -/

theorem test_lane_configuration : live.regRight .cantle 0x04770008 true = .may ∧ bitsOf 0x200#32 13 8 = 2 ∧ live.regRight .cantle (laneFnAddr 95) true = .may ∧
    live.inStation 95 = false ∧ live.placeFree 95 1 = true ∧ lanesOf 3 (live.laneCfg 95) = 1 ∧
    laneLimits 95 3 (live.laneCfg 95) (live.laneTim 95) (live.laneSlow 95) = true ∧ live.laneFunc 95 = 0 ∧
    ({ live with regs := [(laneFnAddr 0, 8#32)] } : State).laneFunc 0 = 8 := by decide

theorem test_forced_safe : live.forcedSafe = false ∧ bit (live.reg 0x04780004) 31 = false ∧ live.busySlots = [] ∧ live.regRight .cantle 0x04780008 true = .may ∧
    ({ live with regs := [(0x04780004, 0x80000002#32)] } : State).forcedSafe = true ∧ bitsOf (live.reg 0x04E00008) 31 28 < 6 ∧
    (({ live with lanes := [(95, { drive := .high })] } : State).lane 95).drive = .high ∧ (live.stationsOf 95).head? = none ∧
    ({ live with doms := [(0, 3)] } : State).domOn (pgDom 7) = false := by decide

set_option maxRecDepth 20000 in
theorem test_stations : live.regRight .cantle 0x04780100 true = .may ∧ live.staSel 2 = 0 ∧ live.staDark 0 = false ∧ bit (live.station 0).w0 31 = false ∧
    live.staBusy 0 = false ∧ live.descOk 0 0x80000000#32 = false ∧ live.regRight .cantle (profileAddr 63 + 1020) true = .may ∧
    live.stations.any (fun (n, x) => bit x.w0 31 && bitsOf x.w0 21 16 == 63 && live.staVALID n) = false := by decide

set_option maxRecDepth 20000 in
theorem test_fifos : live.regRight .cantle (fifoAddr 191) true = .may ∧ live.fifoEn 191 = false ∧ bitsOf 0x400001#32 23 16 = 64 ∧
    live.poolUsed + 64 ≤ 1536 ∧ ({ live with regs := [(fifoAddr 0, 1#32)] } : State).fifoEn 0 = true ∧
    live.regRight .cantle (fifoAddr 191 + 0x10) true = .may := by decide

/-- Lane 0 is a UART lane with its inbound FIFO enabled. -/
def uart : State := { live with regs := [(laneFnAddr 0, 9#32), (fifoAddr 0, 1#32)] }
def moving : Xfer :=
  { station := 0, key := 0, out := false, inn := true, laneop := 0, started := true, lead := [], want := 1, owe := 0, count := 0, stopping := false }

theorem test_lane_items : uart.mode ≠ 0xA ∧ uart.laneFunc 0 = 9 ∧ uart.domOn (pgDom 0) = true ∧ uart.forcedSafe = false ∧ bit (uart.reg (pgStatus 0)) 2 = false ∧
    (uart.lane 0).xfer = none ∧ streamFn 9 = true ∧ uart.fifoEn 0 = true ∧ uart.fifoFull 0 (itemBytes 9) = false ∧
    (uart.fifo 0).part.length + itemBytes 9 < 16 ∧ ({ uart with lanes := [(0, { xfer := some moving })] } : State).atGate 0 = false ∧
    (({ uart with fifos := [(0, { part := [1#8] })] } : State).fifo 0).part ≠ [] := by decide

theorem test_transfers_end : uart.staLane 0 = 0 ∧ (({ uart with lanes := [(0, { xfer := some moving })] } : State).lane 0).xfer = some moving ∧
    moving.station = 0 ∧ moving.started = true ∧ ccwSpan (uart.slot 0).ccw = false ∧ (uart.fifo 1).words = [] ∧ (uart.slot 0).remain = 0 ∧
    moving.inn = true ∧ 0 < moving.want := by decide

/-- Station 0 on an I3C lane that takes in-band interrupts. -/
def i3cBus : State := { live with regs := [(laneFnAddr 0, 4#32), (laneFnAddr 0 + 4, 0x02000000#32)], stations := [(0, { w0 := 0x80000000#32, w2 := 0xA0000000#32 })] }

theorem test_attention : i3cBus.staVALID 0 = true ∧ i3cBus.laneFunc 0 = 4 ∧ bit (i3cBus.laneCfg 0) 25 = true ∧
    bit (i3cBus.station 0).w2 31 = true ∧ bitsOf (i3cBus.station 0).w2 30 29 = 1 ∧ live.staVALID 0 = false := by decide

/-! ## Rings and admission -/

/-- Ring 0 of function 0 is a work queue in SCAN, bound to ring 1, an enabled completion ring of 4 KiB; its buffer holds `us`. -/
def queue (us : List (List Byte)) : Ring :=
  { typ := 1, st := 2, size := 12, cq := 1, lapx := true, buf := true, units := us.zipIdx.map (fun (d, i) => { idx := i, tag := 0#32, issue := 1, ret := 0, data := d }) }
def cqRing : Ring := { typ := 2, st := 1, size := 12, lapw := true }
def queued (us : List (List Byte)) : State := { hosted with rings := [(0, queue us), (1, cqRing)] }

/-- A unit of 16 bytes whose word 0 has TYPE, LEN and the lap mark. -/
def unit (type len : Nat) (lap : Bool) : List Byte := [BitVec.ofNat 8 (len * 16 + type), if lap then 1#8 else 0#8] ++ List.replicate 14 0#8

theorem test_doorbells : hosted.mode ≠ 0xA ∧ hosted.bar0Open 0 = true ∧ hosted.shareCount 0 = 1024 ∧ hosted.shareFirst 0 = 0 ∧ live.bar0Open 0 = false ∧
    ((queued []).ring 0).typ = 1 ∧ ((queued []).ring 1).typ = 2 ∧ (queued []).canIssue 0 = true ∧ (queued []).jnState ≠ 2 ∧
    ((queued []).ring 0).st ≠ 1 ∧ ((queued []).ring 1).headRead = false := by decide

theorem test_scan_starts : (queued [unit 1 2 true, unit 0 0 true, unit 0 0 true]).ringFn 0 = some 0 ∧
    typeOk 1 = true ∧ lenOk 1 2 = true ∧ unitOwned (unit 1 2 true) true = true ∧ unitLen (unit 1 2 true) = 2 ∧ unitType (unit 1 2 true) = 1 ∧
    contCheck (queue [unit 1 2 true, unit 0 0 true, unit 0 0 true]) { idx := 0, tag := 0#32, issue := 1, ret := 0, data := unit 1 2 true } 2 = .owned ∧
    contCheck (queue [unit 1 2 true, unit 0 0 true, unit 0 0 false]) { idx := 0, tag := 0#32, issue := 1, ret := 0, data := unit 1 2 true } 2 = .lapMismatch ∧
    reservedSet [unit 1 2 true, unit 0 0 true, unit 0 0 true] = false ∧ 1 ≤ cqRing.room ∧ cqRing.blocked = false ∧
    (queued []).cqOf 0 (queue []) = 1 := by decide

theorem test_scan_entries : unitOwned (unit 1 2 false) true = false ∧ typeOk (unitType (unit 8 0 true)) = false ∧ lenOk 2 1 = false ∧
    reservedSet [unit 2 0 true] = false ∧ reservedSet [[0x02#8, 0x05#8] ++ List.replicate 14 0#8] = true ∧ reservedSet [unit 6 0 true] = false ∧
    ({ queued [] with slots := [(0, { st := .running, wq := 0 })] } : State).fenceClear 0 = false ∧ (queued []).fenceClear 0 = true ∧
    ({ cqRing with qhead := 1 } : Ring).room = 0 ∧ (queued []).parkUsed 0 < 64 := by decide

/-- A START of function 0 on station 0, which is valid, owned by it and powered. -/
def start : Start :=
  { ring := 0, fn := 0, ringIndex := 0, len := 3, station := 0, be := true, tag := 7#32, prog := 0#64, deadline := 0, busy := 1, ccws := 1, bytes := 0, anchor := none, inRing := true }
def admitting : State := { queued [] with regs := [(0x04300008, 0x50504B01#32), (0x04400008, 2#32)], weir := [start], stations := [(0, { w0 := 0x80000000#32 })] }

theorem test_admission : nextStart admitting.weir = some start ∧ admitting.startHeld start false = false ∧ admitting.domOn 27 = true ∧
    admitting.staVALID 0 = true ∧ admitting.staOwner 0 = 0 ∧ bit (admitting.reg 0x04300008) 0 = true ∧ bit (admitting.reg 0x04300200) 0 = true ∧
    (match admitting.weirVerdict start with | .accept e be _ => (admitting.idleSlot e, be) | .refuse _ => (none, false)) = (some 0, true) ∧
    (match admitting.weirVerdict { start with busy := 0 } with | .accept _ _ _ => 0 | .refuse c => c) = 5 ∧
    (match ({ admitting with stations := [] } : State).weirVerdict start with | .accept _ _ _ => 0 | .refuse c => c) = 2 ∧
    (match live.ceaVerdict start with | .accept _ _ _ => 0 | .refuse c => c) = 1 := by decide

theorem test_ring_commands : live.regRight .pommel 0x04200020 true = .may ∧ live.selRing 1 0 = some 0 ∧
    ({ live with regs := [(banked 1 0x04200010, 1024#32)] } : State).selRing 1 0 = none ∧ baseOk (queue []) = true ∧
    ((0#64).toNat % 8 = 0 ∧ (0#64).getLsbD 63 = false) ∧ ({ queue [] with st := 4 } : Ring).st = 4 ∧
    live.regRight .pommel 0x0420813C true = .may ∧ bitsOf 0x10000000#32 28 16 = 4096 := by decide

theorem test_cantle_rings : live.regRight .cantle 0x04480000 true = .may ∧ live.mode ≠ 9 ∧ bitsOf 5#32 2 1 ≠ 3 ∧ bit (live.reg 0x04480000) 0 = false ∧
    live.ceaRingsOk = false ∧ ({ live with regs := [(0x04480008, 0x02188000#32), (0x04480010, 0x02188400#32)] } : State).ceaRingsOk = true ∧
    live.regRight .cantle 0x04480018 true = .may ∧ live.regRight .cantle 0x04480024 true = .may ∧ live.cea.scanning = false ∧
    (0 < 2 ^ live.cea.cqSize) := by decide

/-! ## Completion -/

/-- An entry to be posted; and the slot of key 0 that posts it to ring 1. -/
def entry : Entry :=
  { ringIndex := 0, kind := 2, engine := 0, tag := 7#32, cstat := 0#32, ustat := 0#32, residual := 0, slot := 0, lastCcw := 0#64, ts := 0 }
def posting (r : Ring) : State :=
  { queued [] with rings := [(0, queue []), (1, r)], slots := [(0, { st := .posting, cq := 1, owner := 0, w := { final := some entry } })] }

theorem test_posts : (posting cqRing).ringFn 1 = some 0 ∧ (posting cqRing).mode ≠ 0xA ∧ ((posting cqRing).slot 0).w.marks = [] ∧
    ((posting cqRing).slot 0).w.final = some entry ∧ cqRing.backlog = [] ∧ 1 ≤ cqRing.room ∧ (posting cqRing).canIssue 0 = true ∧
    (posting { cqRing with qhead := 1 }).parkUsed 0 < 64 ∧ ({ cqRing with qhead := 1 } : Ring).room = 0 ∧
    64 ≤ (posting { cqRing with qhead := 1, resPark := 64 }).parkUsed 0 ∧
    (({ posting cqRing with slots := [(0, { st := .running, cq := 1, w := { marks := [entry, entry] } })] } : State).slot 0).w.marks = [entry, entry] := by decide

theorem test_backlogs : (({ posting cqRing with rings := [(1, { cqRing with redeemed := [(entry, true)], resRing := 1 })] } : State).ring 1).redeemed = [(entry, true)] ∧
    ({ cqRing with backlog := [.parked entry] } : Ring).blocked = false ∧ ({ cqRing with qhead := 1, backlog := [.parked entry] } : Ring).blocked = true ∧
    ({ live with slots := [(8192, { st := .posting, w := { final := some entry } })] } : State).ceaRoom ≥ 1 ∧ slotKey 64 0 = 8192 ∧
    ({ live with cea := { cqSize := 4, res := 1, redeemed := [entry] } } : State).cea.redeemed = [entry] ∧
    ({ live with cea := { cqSize := 4, res := 15 } } : State).ceaRoom = 0 := by decide

theorem test_head_words : ({ posting cqRing with rings := [(1, { cqRing with headRead := true })] } : State).ringFn 1 = some 0 ∧ cqRing.cap = 128 ∧
    ((1 : Nat) < cqRing.cap) ∧ ¬ ((1 + cqRing.cap - cqRing.qhead) % cqRing.cap ≤ (cqRing.tail + cqRing.cap - cqRing.qhead) % cqRing.cap) ∧
    ({ cqRing with qhead := 1, backlog := [.parked entry] } : Ring).headLast + 24000 ≤ 24000 ∧
    cqRing.stall * 1200000 = 120000000 ∧ (posting cqRing).deliverable 0 0 = false := by decide

/-- MSI-X is enabled and vector 0 is unmasked. -/
def sending : State := { hosted with fns := [(0, { cfg := [(4, 6#32), (0x50, 0x80000000#32)], msix := [(0, 0xFEE00000#32), (2, 0x41#32), (3, 0#32)], pba := [0] })] }

theorem test_messages_wait : (0 : Nat) ∈ (sending.fn 0).pba ∧ sending.deliverable 0 0 = true ∧ (sending.fn 0).resetAt = none ∧ (sending.fn 0).kept = [] ∧ sending.canIssue 0 = true ∧ live.canIssue 0 = false ∧
    ({ live with sleepReqs := [(.cl2, 0)], time := 60000 } : State).live = 60000 ∧ sending.mode ≠ 0xA := by decide

/-! ## Operations -/

/-- A CCW of opcode, flags, COUNT, its second word and its address. -/
def ccw (op flags count w1 addr : Nat) : Ccw := BitVec.ofNat 128 (op * 2 ^ 24 + flags * 2 ^ 16 + count + w1 * 2 ^ 32 + addr * 2 ^ 64)

/-- A device-local address. -/
def atLocal (a : Nat) : Nat := 2 ^ 63 + a

/-- The slot of key 0 runs CCW c. -/
def runs (c : Ccw) (x : Slot := {}) : State := { live with slots := [(0, { x with st := .running, ccw := c, w := { x.w with snapped := true } })] }

/-- A slot that fetches at address a, which a held line covers with a NOP. -/
def fetches (st : SlotSt) (a : Nat) (x : Slot := {}) : State :=
  { live with slots := [(0, { x with st := st, cur := BitVec.ofNat 64 a, claimCcws := 1, w := { x.w with lines := [{ addr := 0x40, data := leBytes 16 (ccw 0x1F 0 0 0 0).toNat, poison := false }] } })] }

theorem test_checks : live.check39 0 {} (ccw 0x1F 0 0 0 0) false = none ∧ live.check39 0 {} (ccw 0x1E 0 0 0 0) false = some (chkProg 1) ∧
    live.check39 8192 {} (ccw 0x10 0 32 0 0) false = some (chkProg 0x10) ∧ live.check39 0 {} (ccw 0x1F 0 1 0 0) false = some (chkProg 2) ∧
    live.check39 0 {} (ccw 0x1F 0xFF 0 0 0) false = some chkChaining ∧ live.check39 0 {} (ccw 0x1F 0 0 0x5C000000 0) false = some (chkProg 9) ∧
    live.check39 0 {} (ccw 0x11 0 0 0 0) false = some (chkProg 3) ∧ live.check39 0 {} (ccw 1 0 1 0 0) false = some (chkUnit 1) := by decide

theorem test_operations_advance : ((fetches .admitted 0).slot 0).st = .admitted ∧ (fetches .admitted 0).engineRuns (keyEngine 0) = true ∧
    (fetches .admitted 0).holders 0 = [] ∧ (fetches .admitted 0).waiters 0 = [(0, (fetches .admitted 0).slot 0)] ∧
    ({ live with stopped := [(0, 1)] } : State).engineRuns (keyEngine 0) = false ∧ ((fetches .fetching 0x40).slot 0).w.held 0x40 = some (ccw 0x1F 0 0 0 0) ∧
    ((fetches .fetching 0x40).slot 0).w.op10 = false ∧ isLocal (BitVec.ofNat 64 (atLocal 0x00810000)) = true ∧
    localBad (BitVec.ofNat 64 (atLocal (2 ^ 32))) = true ∧ localBad (BitVec.ofNat 64 (atLocal 0x00810000)) = false ∧
    ({ live with regs := [(0x04400008, 0#32)] } : State).prefetchMode 0 = 0 ∧ live.engMay 0 { w := { stageA := (0x00810000, 4096) } } 0x00810000 16 = true ∧ live.engMay 0 {} 0x00810000 16 = false ∧
    ({ live with ecc := (eccWords 0x00810000 16).map (fun w => (w, .poison)) } : State).poisoned 0x00810000 16 = true := by decide

/-- The owner of the staging at 0x00810000. -/
def staged : Slot := { claimCcws := 1, claimBytes := 4096, w := { stageA := (0x00810000, 4096) } }

theorem test_fetch_checks : (match (live.setSlot 0 staged).check39 0 staged (ccw 0x1F 0 1 0 0) false with | some c => c.cstat | none => 0#32) = (chkProg 2).cstat ∧
    ((fetches .fetching 0x40 { susreq := true }).slot 0).susreq = true ∧ ccwSus (ccw 0x1F 0x10 0 0 0) = true := by decide

/-- A WAIT for an attention, and one for T0 whose window has ended. -/
def waits (c : Ccw) (w : Work) : State := { live with time := 1200, slots := [(0, { st := .waiting, ccw := c, w := w })], stations := [(0, { latch := true })] }

theorem test_waits : (waits (ccw 0xC 0 0 0 0x10000000) {}).whenHolds ((waits (ccw 0xC 0 0 0 0x10000000) {}).slot 0) = true ∧
    (waits (ccw 0xC 0 0 0 0x20000000) {}).whenHolds ((waits (ccw 0xC 0 0 0 0x20000000) {}).slot 0) = false ∧
    ccwMode (ccw 0xC 0 0 0x0C000000 0x20000001) = 3 ∧ ccwEvent (ccw 0xC 0 0 0x0C000000 0x20000001) = 2 ∧
    (waits (ccw 0xC 0 0 0x0C000000 0x20000001) { localEnd := some 1200 }).endDue ((waits (ccw 0xC 0 0 0x0C000000 0x20000001) { localEnd := some 1200 }).slot 0) = true ∧
    (waits (ccw 0xC 0 0 0x0C000000 0x20000001) {}).eventHolds ((waits (ccw 0xC 0 0 0x0C000000 0x20000001) {}).slot 0) = false := by decide

theorem test_reads_and_halting : (({ live with slots := [(0, { w := { reads := [{ addr := 0, len := 16, spec := true }] } })] } : State).slot 0).w.reads ≠ [] ∧
    live.mode ≠ 0xA ∧ (({ live with slots := [(0, { st := .halting })] } : State).slot 0).st = .halting ∧
    ({ live with slots := [(0, { st := .halting })] } : State).r76 0 = true := by decide

theorem test_flow : (runs (ccw 8 0 0 0 0x40)).executes 0 (· == 8) = true ∧ (runs (ccw 8 0 0 0 0x40)).executes 0 (· == 9) = false ∧
    (runs (ccw 9 0 1 0 0x40)).executes 0 (· == 9) = true ∧ live.condHolds { cmp := .eq } 1 = true ∧ live.condHolds {} 1 = false ∧
    (runs (ccw 10 0 2 0 0x40)).executes 0 (· == 10) = true ∧ ([((0#64 : Quad), 2)].find? (fun l => l.1 == 0#64)) = some (0#64, 2) ∧
    ccwCount (ccw 10 0 1 0 0x40) = 1 ∧ (runs (ccw 0x1F 0 0 0 0)).executes 0 (· == 0x1F) = true ∧ ({} : Slot).w.marks = [] := by decide

theorem test_system : (runs (ccw 0x1A 0 0 0 0)).executes 0 (· == 0x1A) = true ∧ (runs (ccw 0x1A 0 0 0 0)).r76 0 = true ∧ live.ordReady {} = true ∧
    ({ live with held := [.hostWrite 0 0 [] false false] } : State).ordReady {} = false ∧
    (runs (ccw 0x19 0 0 0 5)).executes 0 (· == 0x19) = true ∧ bitsOf (({ live with regs := [(0x04A00614, 0#32)] } : State).reg (0x04A00600 + 4 * 5)) 4 0 = 0 ∧ bitsOf (live.reg (0x04A00600 + 4 * 5)) 4 0 ≠ 0 ∧
    (runs (ccw 0xC 0 0 0 0) { timeout := true }).executes 0 (· == 0xC) = true := by decide

theorem test_open_ends : ({} : Slot).openEnd := ⟨rfl, rfl, rfl, rfl⟩

theorem test_memory_ccws : (runs (ccw 0x11 0 8 0 0) staged).executes 0 (· == 0x11) = true ∧ 8 ≤ staged.claimLeft ∧ ({} : Slot).claimLeft = 0 ∧
    live.engMay 0 staged 0x00810000 8 = true ∧ live.engMay 0 staged 0x00810FFC 8 = false ∧ live.poisoned 0x00810000 8 = false ∧
    isLocal (leQuad (leBytes 8 (atLocal 0x00810000))) = true ∧ localOf (leQuad (leBytes 8 (atLocal 0x00810000))) = 0x00810000 ∧
    (runs (ccw 0x12 0 4 0 (atLocal 0x00810000)) staged).executes 0 (· == 0x12) = true ∧
    (runs (ccw 0x18 0 16 0 (atLocal 0x00810000)) staged).executes 0 (· == 0x18) = true := by decide

theorem test_dispatch_ccws : (runs (ccw 0xD 0 0 0 3)).executes 0 (· == 0xD) = true ∧ live.mayStrike {} 3 = false ∧
    ({ live with launches := [{ group := 3, at_ := 0, owners := [], done := false, open_ := [], entries := [] }] } : State).mayStrike {} 3 = true ∧
    (runs (ccw 0x10 0 32 0 (atLocal 0x00810000))).executes 0 (· == 0x10) = true ∧ live.shapeCores (descCores []) = [] ∧
    ({ live with regs := [(0x04600008, 1#32)] } : State).shapeCores (descCores [0#8, 0#8, 1#8, 0#8]) = [0] ∧
    (runs (ccw 4 0 4 0 (atLocal 0x00810000))).executes 0 (· == 4) = true := by decide

/-- Station 0 is on lane 0 of port group 0; its FIFOs are on. -/
def transfers (c : Ccw) (x : Slot := staged) : State :=
  { runs c { x with remain := ccwCount c } with regs := [(fifoAddr 0, 1#32), (fifoAddr 1, 1#32), (0x04700008, 0x60#32)] }

theorem test_data_ccws : (transfers (ccw 1 0 8 0 (atLocal 0x00810000))).executes 0 (· == 1) = true ∧ (transfers (ccw 2 0 8 0 0)).executes 0 (· == 2) = true ∧
    (transfers (ccw 3 0 0 0 0)).bareCommand 0 (ccw 3 0 0 0 0) = true ∧ (transfers (ccw 3 0 0 0 0)).noLaneOp 0 (ccw 3 0 0 0 0) = true ∧
    (transfers (ccw 1 0 8 0 0)).classOf 0 1 = .out ∧ (transfers (ccw 1 0 8 0 0)).transferBar 0 true false = none ∧
    ({ transfers (ccw 1 0 8 0 0) with regs := [] } : State).transferBar 0 true false = some 0x0A ∧ 8 ≤ (transfers (ccw 1 0 8 0 0)).fifoRoom 1 ∧
    ((transfers (ccw 2 0 8 0 0)).fifo 0).words = [] ∧ (transfers (ccw 1 0 8 0 0)).noMemory 0 (ccw 1 0 8 0 0) = false := by decide
/-! ## Halting and timers -/

/-- The slot of key 0 is in state st and was sent the request n. -/
def asked (n : Nat) (st : SlotSt) (w : Work := {}) : State := { live with slots := [(0, { st := st, ccw := ccw 0x1F 0 0 0 0, w := { w with deliv := [n] } })] }

theorem test_requests : (2 ∈ ((asked 2 .fetching).slot 0).w.deliv ∧ (asked 2 .fetching).engineRuns (keyEngine 0) = true) ∧
    ((asked 2 .fetching).slot 0).st = .fetching ∧ ((asked 3 .running).slot 0).st = .running ∧ 3 ∈ ((asked 3 .running).slot 0).w.deliv ∧
    (((asked 3 .halting { ending := some { lastCcw := 0, residual := 0, normal := true } }).slot 0).w.ending.map (·.normal)) = some true ∧
    ((asked 2 .running).slot 0).w.fnReset = false ∧ ccwOp ((asked 2 .running).slot 0).ccw ∈ [8, 9, 10, 0xC, 0xD, 0x10, 0x19, 0x1A, 0x1F] ∧
    (4 ∈ ((asked 4 .suspended).slot 0).w.deliv ∧ 4 ∈ ((asked 4 .running).slot 0).w.deliv ∧ 5 ∈ ((asked 5 .suspended).slot 0).w.deliv ∧
      5 ∈ ((asked 5 .running).slot 0).w.deliv) ∧ ((asked 2 .fetching).slot 0).w.ending = none := by decide

/-- Slot 0 holds station 0; its transfer is on lane 0; a second has passed. -/
def slow (st : SlotSt) : State :=
  { live with time := 1200000000, slots := [(0, { st := st, busyFrom := some 0, w := { holding := true, loaded := true, timerFrom := some 0, deadlineAt := 1, ending := if st = .halting then some { lastCcw := 0, residual := 0, normal := false } else none } })],
              lanes := [(0, { xfer := some { station := 0, key := 0, out := false, inn := true, laneop := 0, started := true, lead := [], want := 1, owe := 0, count := 0, stopping := true } })] }

theorem test_timers : ((slow .halting).xferOf 0 0).isSome = true ∧ ((slow .halting).slot 0).w.timerFrom = some 0 ∧ 0 + 240000 ≤ (slow .halting).time ∧
    ((slow .halting).slot 0).w.ending = some { lastCcw := 0, residual := 0, normal := false } ∧
    (slow .running).staTmo 0 * 1200 ≤ (slow .running).timerValue ((slow .running).slot 0) ∧ ((slow .running).slot 0).w.loaded = true ∧
    (slow .running).busyLimit ((slow .running).slot 0) ≤ (slow .running).usedBusy ((slow .running).slot 0) ∧
    ((slow .running).slot 0).be = false ∧ ((slow .running).slot 0).w.deadlineAt < (slow .running).time ∧ keyEngine 0 ≠ 64 ∧ keyEngine 8192 = 64 ∧
    ((slow .running).slot 0).w.ending = none ∧ ((slow .running).slot 0).w.fnReset = false := by decide

theorem test_late_and_unanswered : ([({ key := 0, owner := 0, desc := [], at_ := 0 } : ShapeReq)].find? (fun r => r.key == 0)) = some { key := 0, owner := 0, desc := [], at_ := 0 } ∧
    0 + 2400 < (slow .running).time ∧ live.mode ≠ 0xA ∧ ({ posting { cqRing with headRead := true } with mode := 8 } : State).ringFn 1 = some 0 ∧
    ((posting { cqRing with headRead := true }).ring 1).typ = 2 ∧ ((posting { cqRing with headRead := true }).ring 1).st = 1 ∧
    ({ w := { reads := [{ addr := 0, len := 16, spec := false }] } } : Slot).w.reads = [{ addr := 0, len := 16, spec := false }] := by decide

theorem test_lockstep : live.engineRuns 3 = true ∧ live.engineRuns 64 = true ∧ ({ live with stopped := [(3, 1)] } : State).engineRuns 3 = false ∧
    SMap.get 0 ({ live with stopped := [(3, 1)] } : State).stopped 3 = 0 + 1 ∧ 0 + 6000 ≤ (slow .running).time ∧
    ({ live with stopped := [(3, 1)] } : State).time < SMap.get 0 ({ live with stopped := [(3, 1)] } : State).stopped 3 - 1 + 6000 := by decide
/-! ## The dictionary -/

/-- A request for the entry index, sub-index. -/
def req (index : BitVec 16) (sub : Byte) (fin : Bool) (data : List Byte) : DictReq :=
  { cls := .c, fin := fin, seq := 1, index := index, sub := sub, offset := 0, len := data.length, data := data }

def entryOf (s : State) (k : DictClass) (idx sub : Nat) (wr : Bool) : Option DEntry := match s.dictCheck k idx sub wr with | .ok e => some e | .error _ => none
def refusal (s : State) (k : DictClass) (idx sub : Nat) (wr : Bool) : Nat := match s.dictCheck k idx sub wr with | .ok _ => 0 | .error r => r

/-- The machine in life-cycle state n. -/
def inLife (n : Fin 4) : State := { live with fuses := { live.fuses with lifecycle := n } }

set_option maxRecDepth 20000 in
theorem test_dictionary : live.dictServer = some .pommel ∧ ({ live with haltP := true, haltC := true } : State).dictServer = none ∧
    (inLife 1).life = 1 ∧ refusal (inLife 1) .c 0x0FFF 0 false ≠ 0 ∧ refusal (inLife 3) .c 0x1010 1 false = resMode ∧
    refusal (inLife 1) (.s 1) 0x1010 1 true = resAccess ∧ (entryOf (inLife 1) .c 0x1010 1 true).isSome = true ∧ (entryOf (inLife 1) .c 0x1020 1 true).isSome = true ∧
    (entryOf (inLife 1) (.s 1) 0x1000 1 false).isSome = true ∧ (inLife 1).stagedElsewhere (classKey .c) (dictKey 0x1010 1) = false ∧
    ((inLife 1).dictMem (classKey .c)).hdr ≠ reqHeader (req 0x1010 1 true []) true ∧ ((inLife 1).dictMem (classKey .c)).hdr ≠ reqHeader (req 0x1010 1 false []) false := by decide

/-- What the entry says of a value of n bytes. -/
def badLength (n : Nat) : Option Bool := (entryOf (inLife 1) .c 0x1010 1 true).map (fun e => e.ty.badLen n)
def badValue (b : List Byte) : Option Bool := (entryOf (inLife 1) .c 0x1010 1 true).map (fun e => e.badRange b)

set_option maxRecDepth 20000 in
theorem test_values : badLength 1 = some false ∧ badLength 5000 = some true ∧ badValue [0x41#8] = some false ∧
    ({ live with dreq := [(33, { staged := some (5, [], 0) })] } : State).stagedElsewhere 3 5 = true ∧
    ({ live with dreq := [(33, { staged := some (5, [], 0) })] } : State).live < 0 + 1200000000 := by decide

/-- In SERVICE. -/
def serving (n : Fin 4) : State := { inLife n with mode := 0xB }

set_option maxRecDepth 40000 in
theorem test_actions : (entryOf (inLife 1) .c 0x1F10 1 true).isSome = true ∧ (entryOf (inLife 1) .c 0x1F10 3 true).isSome = true ∧
    (entryOf (inLife 1) .c 0x1F00 4 true).isSome = true ∧ (entryOf (serving 1) .c 0x1F00 6 true).isSome = true ∧
    (entryOf (inLife 1) .c 0x1F00 1 true).isSome = true ∧ (entryOf (inLife 1) .c 0x1F00 2 true).isSome = true ∧
    (entryOf (serving 1) .c 0x1E00 1 true).isSome = true ∧ (entryOf { inLife 0 with mode := 9 } .c 0x1E00 2 true).isSome = true ∧
    (entryOf (inLife 1) .c 0x9020 3 true).isSome = true ∧ (entryOf (inLife 1) .c 0x8080 1 true).isSome = true ∧
    (entryOf (inLife 1) .c 0x9010 4 true).isSome = true ∧ (entryOf (serving 1) .c 0x2501 2 true).isSome = true := by decide

theorem test_action_conditions : (inLife 0).keyFused = false ∧ (inLife 1).keyFused = true ∧ (inLife 1).trans = none ∧ (inLife 1).mode = 8 ∧
    bitsOf 0x03000000#32 23 0 = (inLife 1).fuses.serial.toNat % 2 ^ 24 ∧ bitsOf 0x03000000#32 31 24 = 3 ∧ (inLife 1).fuses.svnMin ≤ 0 ∧
    ({ inLife 1 with stagedC := true } : State).stagedC = true ∧ (inLife 1).stagedC = false := by decide

/-- Lane 0 is the dictionary's port. -/
def port : State := { inLife 1 with regs := [(laneFnAddr 0, 5#32), (0x04700104, 0x04000000#32)], i3cAddr := some 9 }

set_option maxRecDepth 20000 in
theorem test_channel_and_port : live.regRight .pommel 0x04100110 true = .may ∧ live.domOn 27 = true ∧ live.domOn 2 = true ∧
    bit (({ live with regs := [(0x04100114, 0x80000000#32)] } : State).reg 0x04100114) 31 = true ∧ live.channelReq = none ∧
    (({ live with regs := [(0x04100100, 0x00100001#32)] } : State).channelReq).isSome = true ∧ port.dictPort = true ∧ port.dictServer.isSome = true ∧
    port.i3cAddr.isSome = true ∧ i3cParse [] = none ∧ live.dictPort = false ∧
    (i3cParse ([1#8, 0#8, 0x10#8] ++ List.replicate 9 0#8 ++ i3cCrc ([1#8, 0#8, 0x10#8] ++ List.replicate 9 0#8))).isSome = true := by decide
/-! ## Debug, the journal and register accesses -/

theorem test_debug : live.mode ≠ 0 ∧ (inLife 2).life = 2 ∧ 2 ≤ (inLife 2).life ∧ (inLife 1).life ≠ 3 ∧ ({ inLife 1 with dbgOn := true } : State).dbgOn = true ∧
    ({ inLife 1 with haltC := true } : State).haltC = true ∧ accessOk 0x00810000 4 (.write [0#8, 0#8, 0#8, 0#8]) = true ∧ accessOk 0x00810002 4 .read = false := by decide

/-- The journal is in state n. -/
def journal (n : Nat) (j : Jn := {}) : State := { live with regs := [(0x04F00010, BitVec.ofNat 32 n), (0x04F00008, 0#32)], jn := j }

/-- Such a record. -/
def record (type : Nat) : JRec := { at_ := 0, type := type, srcid := 0, payload := [], damaged := false }

theorem test_journal : live.regRight .pommel 0x04F0000C true = .may ∧ live.jnState = 0 ∧ live.domOn 29 = true ∧ live.domOn 25 = true ∧
    live.jnQuiet = true ∧ (journal 0).jn.holdFrom + bitsOf ((journal 0).reg 0x04F00008) 31 24 * 1200000 ≤ (journal 0).time ∧
    (queued []).ringFn 0 = some 0 ∧ ((queued []).ring 0).typ = 1 ∧ ((queued []).ring 0).st = 2 ∧ ({ live with jn := { recs := [record 5] } } : State).jn.recs = [record 5] ∧
    ({ live with jn := { lastAt := 0, recs := [] } } : State).replayDry = true := by decide

theorem test_journal_states : (journal 1).jnState = 1 ∧ (journal 2).jnState = 2 ∧ (journal 3).jnState = 3 ∧ (journal 4).jnState = 4 ∧ (journal 5).jnState = 5 ∧
    (journal 6).jnState = 6 := by decide

/-- PF0 answers, and the journal's ring lies in its memory. -/
def ringed (n : Nat) (j : Jn) : State := { hosted with regs := [(0x04F00010, BitVec.ofNat 32 n), (0x04F00008, 0x00800004#32)], jn := j }

theorem test_journal_ring : (ringed 3 { recs := [record 5], annFrom := some 0 }).jnDue = false ∧
    ({ ringed 3 { recs := [record 5], annFrom := some 0 } with time := 24000 } : State).jnDue = true ∧ (ringed 3 {}).jnLink = true ∧
    (ringed 4 { prod := 64 }).jnLink = true ∧ min (min (64 - 0) (winSize - ((ringed 4 { prod := 64 }).winUsed + 0))) (min 4096 ((ringed 4 {}).jnSize - 0)) ≠ 0 ∧
    (ringed 3 {}).jn.pollAt ≤ (ringed 3 {}).live ∧ (ringed 3 {}).jnDest = 1 ∧
    (takeRecs (ringed 3 {}) 65536 0 [record 5]).1 ≠ [] ∧ (takeRecs (ringed 3 {}) 0 0 [record 5]).1 = [] := by decide

theorem test_damaged_record :
    ((ringed 3 { recs := [{ record 5 with mark := some .poison }] }).jnFetch.jn.recs.map JRec.damaged) = [true] := by decide

theorem test_registers : scStoreAddr 0x04000010 = false ∧ alignDown 0x04000012 4 = 0x04000010 ∧ live.regRight .cantle 0x04400010 true = .may ∧
    live.regRight .pommel 0x04000010 true = .may ∧ (inLife 1).regRight .debug 0x04000014 false = .may ∧ live.staRefused .pommel 0x04000010 = false ∧
    live.regRight .cantle 0x04100004 true = .refused ∧ hosted.regRight (.host 0) (bar0Reg 0 0) false = .may ∧
    hosted.bar0Answers 0 0x04100000 = true ∧ (hosted.fn 0).resetAt = none ∧ 0 / 4 < (hosted.fn 0).vectors := by decide
/-! ## Cases of the statements that need a state of their own -/

/-- Step p of the present tick has begun. -/
def atPhase (p : Nat) (s : State) : State := { s with tickStep := p }

/-- Core 0 has lost its EN while the queued request of slot 0 names it alone; and it runs with a transfer outstanding. -/
def orphan : State :=
  { live with shapeQ := [request], cores := [(0, { st := .idle })], slots := [(0, { st := .running, w := { shapeAt := some 0 } })],
              regs := [(0x04600008, 1#32)] }
def hwBusy : State := kernel 0#32 { dmas := [{ write := false, sys := 0, dmem := 0, len := 1 }] }

theorem test_orphaned_request : orphan.regRight .pommel 0x04600008 true = .may ∧ orphan.shapeCores (descCores request.desc) = [0] ∧
    (orphan.slot request.key).st = .running ∧ (orphan.slot request.key).w.shapeAt.isSome = true ∧ (orphan.slot request.key).w.shapeEnd = none ∧
    live.shapeQ = [] ∧ (hwBusy.core 0).st ≠ .disabled ∧ hwBusy.regRight .pommel 0x04601000 false = .may := by decide

theorem test_vangest_illegal : headerOk (((vangest 0xA000000C#32).core 0).word .ucode 0) = true ∧
    ([((vangest 0xA000000C#32).core 0).word .ucode 0x400].findSome? uIllegal) = some 7 ∧ ((vangest 0xA000000C#32).core 0).dmas ≠ [] ∧
    ([((vangest 0x6B000000#32).core 0).word .ucode 0x400].findSome? uIllegal) = none := by decide

theorem test_long_bar2 : 8 < 0x00810004 % 8 + 8 ∧ (∀ p ∈ bar2Words 0x00810004 8, hosted.memRight (.host 0) p.1 .w = true) ∧ hosted.memOk :=
  ⟨by decide, by decide, memOk_of_empty rfl rfl⟩

theorem test_checkpoint_pieces :
    (((State.ckptFifoWords { live with fifos := [(0, { words := [{ data := [1#8, 2#8], eop := true, poison := false }], part := [3#8] })] } 0).foldl
      (fun t p => t.restorePiece p.1 p.2) live).fifo 0) =
      { words := [{ data := [1#8, 2#8], eop := true, poison := false }], part := [3#8] } := by decide

/-- A report of detector det of group g; and outbound or inbound FIFO 0 with a word in it. -/
def detected (g : Fin 48) (det : Fin 64) : Report := { dataReport with group := g, det := det }
def filled : State := { live with fifos := [(0, { words := [{ data := [1#8], eop := true, poison := false }] })] }

theorem test_hardware_checks : (detected 30 0).det.val < detCount 30 ∧ hwBusy.scRuns 0 = true ∧ (hwBusy.core 0).dmas ≠ [] ∧
    (detected 21 12).det.val < detCount 21 ∧ (filled.fifo 0).words = [{ data := [1#8], eop := true, poison := false }] := by decide

/-- The tunnel has been retraining for n time units. -/
def retraining (n : Nat) : State := { live with tunnel := .paused .retrain, pausedAt := 0, time := n }

theorem test_retraining : (retraining 120000001).pausedAt + 120000000 < (retraining 120000001).live ∧
    (retraining 120000000).live ≤ (retraining 120000000).pausedAt + 120000000 ∧ (retraining 0).jnState ≠ 5 := by decide

theorem test_reset_second_step : (({ live with fns := [(15, { resetAt := some 0, stepTwo := true })] } : State).fn 15).stepTwo = true ∧
    live.ringFn 0 = some 0 ∧ SMap.wf (fun _ => ({} : Ring)) live.rings = true ∧ live.slots = [] := by decide

/-- T2 with a filter of two ticks and an edge in it; without a filter; overdue; and at the end of its holdover. -/
def filtered (c : Option (Nat × Nat × Bool)) : State := { t2 .locked with tickStep := 1, srcs := [(2, { (t2 .locked).src 2 with cand := c })] }
def unfiltered (st : SrcSt) : State := { t2 st with tickStep := 1, regs := [(0x04500140, 0x80000000#32), (0x04500144, 0x00193240#32)] }
def overdue (st : SrcSt) (n : Nat) : State := { t2 st with tickStep := 2, time := n }

theorem test_filter : bitsOf ((filtered none).srcLimit 2) 3 0 * (filtered none).tickLen = 12 ∧
    ((filtered (some (100, 112, true))).src 2).cand = some (100, 112, true) ∧ bitsOf ((unfiltered .locked).srcLimit 2) 3 0 = 0 ∧
    (unfiltered .holdover).tickStep = 1 ∧ (unfiltered .lost).srcPowered 2 = true ∧
    ((overdue .locked 60000).src 2).e + 256000 * (100 + bitsOf ((overdue .locked 60000).srcLimit 2) 23 16) / 100 / 256 * (overdue .locked 60000).tickLen ≤
      (overdue .locked 60000).time ∧
    ((overdue .holdover 12000000).src 2).holdFrom + (overdue .holdover 12000000).srcHold 2 * 1200 ≤ (overdue .holdover 12000000).time ∧
    ((overdue .locked 60000).src 2).cand = none ∧ (atPhase 4 live).tickStep = 4 := by decide

theorem test_order_in_a_tick : live.tickStep ≤ 5 ∧ 5 < (atPhase 7 live).tickStep ∧ (live.atStep 1).mode ≠ 0xA ∧
    (∀ p ∈ live.busySlots, p.2.st ≠ .waiting) ∧ striking.laneDark 0 = false ∧
    bit (({ striking with regs := (laneFnAddr 0 + 4, 0x8000#32) :: striking.regs } : State).laneCfg 0) 15 = true := by decide

/-- Lane 2 is an I3C lane of station 0; and lane 0 drives low in a group whose supply does not match. -/
def i3cLane : State := { live with regs := [(laneFnAddr 2, 5#32)], stations := [(0, { w0 := 0x80000002#32 })] }
def dark : State := { live with regs := [(pgStatus 0, 4#32)], lanes := [(0, { drive := .low })] }

theorem test_reserved_fields : i3cLane.laneFunc 2 = 5 ∧ i3cLane.inStation 2 = true ∧
    laneLimits 2 5 (putBits (0x04000000#32 &&& 0xFF83FF00#32) 26 26 0) (i3cLane.laneTim 2) (i3cLane.laneSlow 2) = true ∧
    descReserved 0 0x1F000060#32 = [(28, 24), (6, 0)] ∧ descReserved 1 0#32 = [(19, 0)] ∧ descReserved 2 0x78000000#32 = [(30, 29), (28, 27)] ∧
    live.staDark 4095 = false ∧ bit (live.station 4095).w0 31 = false := by decide

theorem test_undriven_lanes : dark.laneDark 0 = true ∧ dark.laneDriven 0 = false ∧ ({ dark with regs := [] } : State).laneDriven 0 = true ∧
    bit (({ live with regs := [(0x04780004, 0x80000000#32)] } : State).reg 0x04780004) 31 = true ∧ uart.uartFlow 0 = false ∧
    ({ uart with regs := (laneFnAddr 0 + 4, 0x10000000#32) :: uart.regs } : State).uartFlow 0 = true := by decide

/-- An I2S/TDM stream of two slots that is held open, with a full FIFO. -/
def tdm : State :=
  { live with regs := [(laneFnAddr 0, 10#32), (laneFnAddr 0 + 4, 0x10000000#32), (fifoAddr 0, 1#32)], lanes := [(0, { streamOn := true })],
              fifos := [(0, { words := (span 0 16).map (fun _ => { data := List.replicate 16 0#8, eop := false, poison := false }) })] }

theorem test_full_frame : tdm.laneFunc 0 = 10 ∧ (tdm.lane 0).streamOn = true ∧ tdm.itemFits 0 = false ∧ (tdm.lane 0).frame = 0 ∧
    ({ tdm with fifos := [] } : State).itemFits 0 = true := by decide

/-- Slot 0 reads from or writes to station 0, on lane 0 of function fn, with n bytes still to come. -/
def receiving (fn n : Nat) (out : Bool) : State :=
  { runs (ccw (if out then 1 else 2) 0 1 0 0) { staged with remain := 0, w := { staged.w with holding := true, loaded := true } } with
      regs := [(fifoAddr 0, 1#32), (fifoAddr 1, 1#32), (laneFnAddr 0, BitVec.ofNat 32 fn), (profileAddr 0, 0x10000#32)],
      lanes := [(0, { xfer := some { moving with inn := !out, out := out, want := n } })], stations := [(0, { w0 := 0x80000000#32 })] }

theorem test_transfer_of_an_operation (o : Bool) : let s := receiving 9 0 o
    (s.slot 0).st = .running ∧ (s.slot 0).openEnd ∧ s.engineRuns 0 = true ∧ (s.slot 0).remain = 0 ∧ ccwSpan (s.slot 0).ccw = false ∧
      s.bareCommand 0 (s.slot 0).ccw = false ∧ (s.slot 0).w.snapped = true ∧ (s.slot 0).w.succ = false ∧ (s.slot 0).w.op10 = false ∧
      (s.slot 0).w.ccwDone = false ∧ s.laneDark 0 = false ∧ s.staLane 0 = 0 ∧ s.laneFunc 0 = 9 ∧
      bit (s.reg (profileAddr (s.staProfile 0))) 16 = true := by
  cases o <;> exact ⟨rfl, ⟨rfl, rfl, rfl, rfl⟩, by decide, rfl, by decide, by decide, rfl, rfl, rfl, rfl, by decide, by decide, by decide, by decide⟩

theorem test_inbound_item : (receiving 8 1 false).edgeKept 0 0x41#32 = true ∧ (receiving 8 1 false).itemFits 0 = true ∧
    ((receiving 8 1 false).lane 0).closing = false ∧ (receiving 8 1 false).fifoBytes 0 + 1 ≤ ((receiving 8 1 false).slot 0).claimLeft ∧
    ((receiving 8 1 false).fifo 0).part.length < 15 ∧ (receiving 8 1 false).laneFunc 0 = 8 ∧ (receiving 8 1 false).atGate 0 = false := by decide

/-- A slot of function 0 has n requests of its one read outstanding since time 0, or none of them yet. -/
def reading (n now : Nat) : State :=
  { hosted with time := now, slots := [(0, { st := .running, owner := 0, w := { reads := [{ addr := 0, len := 16, spec := false, sent := n, left := 1 }] } })] }

theorem test_requests_and_room : hosted.npRoom 0 ≠ 0 ∧ (reading 256 0).npRoom 0 = 0 ∧ (reading 1 12000000000).slotLate 0 = true ∧
    (reading 1 0).slotLate 0 = false ∧ (({ addr := 0, len := 16, spec := false, sent := 0, left := 1 } : HostRead).unsent) = true ∧
    ((reading 1 0).slot 0).w.reads ≠ [] := by decide

/-- An owned START at HEAD, with the context of its queue unreadable, or a domain of its station on its way up; a START in Weir with a
read outstanding. -/
def scanning : State := { queued [unit 1 2 true, unit 0 0 true, unit 0 0 true] with stations := [(0, { w0 := 0x80000000#32 })] }
def waitingDomain : State := { scanning with doms := (pgDom 0, 2) :: live.doms }
def inWeir (n : Nat) : State :=
  { admitting with time := n, rings := [(0, { queue [] with inWeir := true, reads := [{ unit := 4, tag := 0#32, issue := 1 }] }), (1, cqRing)] }

theorem test_scan_turns : (scanning.ring 0).ready = true ∧ scanning.isTurn 0 = true ∧
    ({ scanning with ecc := [(ctxAddr 0, .poison)] } : State).hwBad (ctxAddr 0) = true ∧
    waitingDomain.startHeld (startOf [unit 1 2 true, unit 0 0 true, unit 0 0 true] 0 0 0 true 1) false = true ∧
    scanning.startHeld (startOf [unit 1 2 true, unit 0 0 true, unit 0 0 true] 0 0 0 true 1) false = false ∧
    ((inWeir 0).ring 0).inWeir = true ∧ (inWeir 12000000000).scanLate 0 0 = true ∧ (inWeir 0).scanLate 0 0 = false ∧ (inWeir 0).carried = true ∧
    alignDown ((inWeir 0).ring 0).head 4 ≠ 4 := by decide

theorem test_sent_back : ({ inWeir 0 with doms := (pgDom 0, 2) :: live.doms } : State).startHeld start false = true ∧
    nextStart (inWeir 0).weir = some start ∧ ((inWeir 0).ring 0).st = 2 ∧ (inWeir 0).domOn 27 = true := by decide

/-- CE-A's completion ring is full and a slot waits for it; a ring is full with an entry parked; a head word is late. -/
def ceaFull : State :=
  { live with regs := [(0x04480020, 15#32)], cea := { cqSize := 4 }, slots := [(slotKey 64 0, { st := .postHeld, w := { final := some entry } })] }
def stalled (b : Option Nat) (n : Nat) : State :=
  { posting { cqRing with qhead := 1, backlog := [.parked entry (.ok, .ok)], stallFrom := b } with time := n }
def lateHead : State := { posting { cqRing with headRead := true } with time := 12000000000 }

theorem test_stalls : ceaFull.ceaFree = 0 ∧ (ceaFull.slot (slotKey 64 0)).st = .postHeld ∧ ((stalled none 0).ring 1).blocked = true ∧
    (stalled none 0).inD0 0 = true ∧ (stalled none 0).carried = true ∧ ((stalled (some 0) 120000000).ring 1).stallFrom = some 0 ∧
    cqRing.blocked = false ∧ lateHead.headLate 1 = true ∧ ((posting cqRing).fn 0).resetAt = none ∧ EccMark.poison.bad = true ∧ EccMark.ok.bad = false := by
  decide

/-- MSI-X can deliver vector 0, and its ring's timer has run. -/
def moderated : State := { sending with rings := [(0, queue []), (1, { cqRing with mod := 2, modFrom := some 0 })], time := 120000 }

theorem test_moderation : (moderated.ring 1).modFrom = some 0 ∧ 0 + (moderated.ring 1).timeIn * 1200 ≤ moderated.time ∧
    moderated.canIssue 0 = true ∧ moderated.deliverable 0 0 = true ∧ (moderated.fn 0).kept = [] := by decide

/-- The records that an engine reads before it acts are unreadable; the operation's last CCW has ended; an end is due in FETCHING; a
MOVE goes on to its end under a HALT. -/
def badRecord (a : Nat) : State := { fetches .admitted 0 with ecc := [(a, .uncorrectable)] }
def lastDone : State := runs (ccw 0x1F 0 0 0 0) { w := { lastDone := some 0, ccwDone := true } }
def endsInFetch : State := fetches .fetching 0x40 { w := { ending := some { lastCcw := 0x40#64, residual := 0, normal := false } } }
def movesOn : State :=
  runs (ccw 0x11 0 8 0 0) { staged with w := { staged.w with haltRuns := true, block := leBytes 8 (atLocal 0x00810000) ++ leBytes 8 (atLocal 0x00810100) } }

theorem test_records : (badRecord (slotAddr 0)).hwBad (slotAddr 0) = true ∧ (badRecord (descAddr 0)).hwBad (slotAddr 0) = false ∧
    (badRecord (descAddr 0)).hwBad (descAddr 0) = true ∧ SMap.get .ok (fetches .admitted 0).ecc (slotAddr 0) = .ok ∧
    (lastDone.slot 0).w.lastDone = some 0 ∧ (lastDone.slot 0).w.marks = [] ∧ (lastDone.slot 0).w.ending = none ∧
    (endsInFetch.slot 0).st = .fetching ∧ (endsInFetch.slot 0).w.ending.isSome = true ∧ (endsInFetch.slot 0).w.fnReset = false := by decide

theorem test_launch_limit : (waits (ccw 0xC 0 0 0 0x10000000) {}).mayLaunch 0 = true ∧
    (atPhase 5 { waits (ccw 0xC 0 0 0 0x10000000) {} with launched := [(0, 4)] }).mayLaunch 0 = false := by decide

theorem test_move_under_halt : (movesOn.slot 0).w.haltRuns = true ∧ (movesOn.slot 0).w.ending = none ∧ movesOn.executes 0 (· == 0x11) = true ∧
    8 ≤ (movesOn.slot 0).claimLeft ∧ isLocal (leQuad ((movesOn.slot 0).w.block.take 8)) = true ∧
    movesOn.engMay 0 (movesOn.slot 0) 0x00810000 8 = true ∧ movesOn.memOk :=
  ⟨rfl, rfl, by decide, by decide, by decide, by decide, memOk_of_empty rfl rfl⟩

/-- Station 0 is on an SPI lane, whose CONTROL entry has lane operation lo. -/
def spi (c : Ccw) (lo : Nat) : State :=
  { transfers c with regs := [(laneFnAddr 0, 8#32), (fifoAddr 0, 1#32), (fifoAddr 1, 1#32), (profileAddr 0 + 0x1C, BitVec.ofNat 32 lo)],
                     stations := [(0, { w0 := 0x80000000#32 })] }

theorem test_exchange : (spi (ccw 5 0 4 0 (atLocal 0x00810000)) 0).classOf 0 5 = .exch ∧
    (spi (ccw 5 0 4 0 (atLocal 0x00810000)) 0).executes 0 (· == 5) = true ∧ (spi (ccw 5 0 4 0 (atLocal 0x00810000)) 0).transferBar 0 true true = none ∧
    (spi (ccw 5 0 4 0 (atLocal 0x00810000)) 0).noMemory 0 (ccw 5 0 4 0 (atLocal 0x00810000)) = false ∧
    4 ≤ (spi (ccw 5 0 4 0 (atLocal 0x00810000)) 0).fifoRoom 1 ∧ (spi (ccw 3 0 0 0 0) 1).bareCommand 0 (ccw 3 0 0 0 0) = true ∧
    (spi (ccw 3 0 0 0 0) 1).noLaneOp 0 (ccw 3 0 0 0 0) = false ∧ SMap.get .ok (spi (ccw 3 0 0 0 0) 1).ecc (descAddr 0) = .ok := by decide

/-- Slot 0 is suspended while its station still moves; and it is held at an intermediate completion past its busy claim. -/
def suspendedBusy : State :=
  { asked 2 .suspended { holding := true } with lanes := [(0, { xfer := some moving })] }
def midHeld : State :=
  { slow .postHeld with slots := [(0, { (slow .postHeld).slot 0 with w := { ((slow .postHeld).slot 0).w with markHeld := true, marks := [entry] } })] }

theorem test_suspended_and_held : suspendedBusy.r76 0 = false ∧ (asked 2 .suspended).r76 0 = true ∧ (midHeld.slot 0).midHeld = true ∧
    (midHeld.slot 0).over = false ∧ midHeld.busyLimit (midHeld.slot 0) ≤ midHeld.usedBusy (midHeld.slot 0) ∧
    (midHeld.slot 0).w.marks ≠ [] ∧ ((slow .running).slot 0).midHeld = false ∧ (posting cqRing).jnState = 0 := by decide

theorem test_journal_timeout : (ringed 4 { prod := 64 }).jnLink = true ∧ (ringed 4 { prod := 64 }).mode ≠ 0xA ∧
    (ringed 4 { prod := 64 }).jnState = 4 := by decide

theorem test_table_quads : (0x10000 : Nat) % 8 = 0 ∧ hosted.bar0Answers 0 0x04100000 = true ∧ (0x10008 - 0x10000) / 4 / 4 < (hosted.fn 0).vectors ∧
    Instr.wf (.registerWrite (.host 0) 0x10000#32 8 (.writeQuad 0x1122334455667788#64)) = true := by decide

/-! ## The block as a whole -/

theorem test_reset_form : State.reset.memOk := memOk_of_empty rfl rfl

theorem test_front_command : ({ live with pending := [.nop 0 0, .nop 0 1] } : State).pending = .nop 0 0 :: [.nop 0 1] ∧ live.pending = [] := by decide

/-- A step runs the front command and leaves the rest. -/
theorem test_step : (match step { runs (ccw 0x1F 0x40 0 0 0) with pending := [.nop 0 0, .nop 0 1] } with
    | .next t => (t.pending, (t.slot 0).cur.toNat, (t.slot 0).st) | _ => ([], 0, .idle)) = ([.nop 0 1], 16, .fetching) := by decide

set_option maxRecDepth 40000 in
/-- On an empty queue time goes on. -/
theorem test_tick : (match step live with | .next t => t.time | _ => 0) = 25 := by decide

/-! ## Ill-formed commands -/

theorem test_ill_formed_slots : (Instr.stationAcquire 64 64).wf = false ∧ (Instr.hostReadCompletion 64 127 (.ok [])).wf = false ∧
    (Instr.shapeLate 64 100).wf = false ∧ (Instr.postingRequest (.slot 64 64)).wf = false ∧ (Instr.completionTimeout 0 (.slot 64 64)).wf = false ∧
    (Instr.stationAcquire 63 127).wf = true ∧ (Instr.postingRequest .redeemedCeA).wf = true := by decide

theorem test_ill_formed_accesses : (Instr.coreMemoryAccess .pommel 2#32 4 .read none).wf = false ∧
    (Instr.coreMemoryAccess .pommel 0#32 3 .read none).wf = false ∧ (Instr.coreMemoryAccess .pommel 0#32 4 (.write [0#8]) none).wf = false ∧
    (Instr.bar2Access 1#28 0 .read).wf = false ∧ (Instr.aliasWrite .cantle 0#32 []).wf = false ∧
    (Instr.aliasWrite .cantle 2#32 [0#8, 0#8, 0#8]).wf = false ∧ (Instr.bar2Access 1#28 8 .read).wf = true ∧
    (Instr.registerWrite (.host 0) 0#32 4 (.writeQuad 0#64)).wf = false := by decide

theorem test_ill_formed_dictionary : (Instr.dictRead { req 0 0 false [1#8] with len := 1 }).wf = false ∧ (Instr.dictWrite { req 0 0 true [1#8] with len := 2 }).wf = false ∧
    (Instr.dictRead { req 0 0 false [] with len := 256 }).wf = false ∧ (Instr.dictWrite { req 0 0 true [1#8] with cls := .s 0 }).wf = false ∧
    (Instr.save (.s 0)).wf = false ∧ (Instr.keyProg .p []).wf = false ∧ (Instr.stagedWriteTimeout (.s 0)).wf = false ∧ (Instr.dictWrite (req 0 0 true [1#8])).wf = true := by decide

set_option maxRecDepth 40000 in
theorem test_ill_formed_lengths : (Instr.ibi 0 (List.replicate 256 0#8)).wf = false ∧ (Instr.ibi 0 (List.replicate 255 0#8)).wf = true ∧
    (Instr.fuseLoad (some { State.reset.fuses with keyDigest := [] })).wf = false ∧
    (Instr.fuseLoad (some { State.reset.fuses with keyDigest := List.replicate 48 0#8, svnMin := 65 })).wf = false ∧
    (Instr.fuseLoad none).wf = true := by decide
end Sys2Proof.Tests
end

namespace Sys2Proof.Machine

/-! # Register accesses by the cores and debug (R9, R13, R22, R27) -/

theorem refusedOnly_refuseReins (s : State) (m : Master) (a : Nat) : refusedOnly s (s.refuseReins m a) := by
  obtain h := refusedOnly_refuse s m a
  unfold refusedOnly at h ⊢
  rw [State.refuseReins, State.report, h]

/-- A word outside the block of the selected station is never refused for an unreachable station (R287). -/
theorem State.staRefused_outside (s : State) (m : Master) {a : Nat} (h : a < 0x04780100 ∨ 0x04780160 ≤ a) :
    s.staRefused m a = false := by
  have h1 : (decide (0x04780100 ≤ a) && decide (a < 0x04780114) || decide (0x04780140 ≤ a) && decide (a < 0x04780160)) = false := by
    simp only [Bool.or_eq_false_iff, Bool.and_eq_false_iff, decide_eq_false_iff_not]
    omega
  rw [State.staRefused, h1, Bool.false_and]

/-- A core's or debug's write of a register that is no store of a shaping core. -/
theorem exec_coreRegWrite {m : Master} (hm : m = .pommel ∨ m = .cantle ∨ m = .debug) {addr : Word} (hsc : scStoreAddr addr.toNat = false)
    (s : State) (n : Nat) (v : Word) :
    let w := alignDown addr.toNat 4
    exec (.registerWrite m addr n (.write v)) s =
      .next (if s.regRight m w true == .may && s.staRefused m w then s.refuse m w else s.regRow m w v (fun t => t.regStore m w v)) := by
  have hrun : registerWrite s m addr.toNat n (.write v) = s.coreReg m addr.toNat n (.write v) := by
    rcases hm with rfl | rfl | rfl <;> rfl
  simp only [exec, execRegisterWrite, hrun, State.coreReg, hsc, RegOp.word]
  rfl

/-- A core's or debug's read of a register that is no store of a shaping core. -/
theorem exec_coreRegRead {m : Master} (hm : m = .pommel ∨ m = .cantle ∨ m = .debug) {addr : Word} (hsc : scStoreAddr addr.toNat = false)
    (s : State) (n : Nat) :
    let w := alignDown addr.toNat 4
    exec (.registerWrite m addr n .read) s =
      .next (if s.regRight m w false == .may && s.staRefused m w then s.refuse m w else s.readRow m w (fun t => t.regLoad m w)) := by
  have hrun : registerWrite s m addr.toNat n .read = s.coreReg m addr.toNat n .read := by
    rcases hm with rfl | rfl | rfl <;> rfl
  simp only [exec, execRegisterWrite, hrun, State.coreReg, hsc, RegOp.word]
  rfl

theorem State.regRow_reins {s : State} {m : Master} {a : Nat} (v : Word) (f : State → State) (h : s.regRight m a true = .reins) :
    s.regRow m a v f = s.refuseReins m a := by
  simp only [State.regRow, h]

theorem State.regRow_resetting {s : State} {m : Master} {a : Nat} (v : Word) (f : State → State) (h : s.regRight m a true = .resetting) :
    s.regRow m a v f = s := by
  simp only [State.regRow, h]

theorem State.readRow_may {s : State} {m : Master} {a : Nat} (f : State → State × Word) (h : s.regRight m a false = .may) :
    s.readRow m a f = (f s).1.emit (.readData m.id (leBytes 4 (f s).2.toNat)) := by
  simp only [State.readRow, h]

theorem State.readRow_refused {s : State} {m : Master} {a : Nat} (f : State → State × Word) (h : s.regRight m a false = .refused) :
    s.readRow m a f = s.refuse m a := by
  simp only [State.readRow, h]

/-! ## What a plain register stores (R9, R13) -/

theorem State.plainWrite_legal {a : Nat} {d : RegDesc} {v : Word} (hd : regDesc a = some d) (hv : d.illegal v = false) (s : State) (c : Nat) :
    s.plainWrite a v c = s.setReg a (d.merged (s.reg a) v) := by
  simp [State.plainWrite, hd, hv]

theorem State.plainWrite_illegal {a : Nat} {d : RegDesc} {v : Word} (hd : regDesc a = some d) (hv : d.illegal v = true) (s : State) (c : Nat) :
    s.plainWrite a v c = (s.setReg a (d.merged (s.reg a) v)).cfgErr c := by
  simp [State.plainWrite, hd, hv]

theorem bit_or_one (x : Word) : bit (x ||| 1#32) 0 = true := by
  simp [bit]

/-- CFGERR is bit 0 of the block's status register (R13). -/
theorem State.cfgErr_sets (s : State) (c : Nat) : bit ((s.cfgErr c).reg c) 0 = true := by
  rw [State.cfgErr, State.reg_setStatus, if_pos rfl, bit_or_one]

/-- The registers whose effect is the plain one, each with the status register of its block. -/
def plainRegs : List (Nat × Nat) :=
  [(0x04000004, 0x04000004), (0x04000010, 0x04000004), (0x04400008, 0x04400004), (0x04400010, 0x04400004), (0x04400014, 0x04400004),
    (0x04300204, 0x04300004), (0x04900008, 0x04900004), (0x04C0000C, 0x04C00004)]

theorem regStore_plainReg {p : Nat × Nat} (hp : p ∈ plainRegs) (s : State) (m : Master) (v : Word) :
    s.regStore m p.1 v = s.plainWrite p.1 v p.2 := by
  simp only [plainRegs, List.mem_cons, List.not_mem_nil, or_false] at hp
  rcases hp with rfl | rfl | rfl | rfl | rfl | rfl | rfl | rfl <;>
    simp [State.regStore, State.hpStore, State.ceStore, State.adStore, State.msStore, State.fcStore, hpStatus, fcStatus]

/-- A map lists each of them, and none of them clears on a read. -/
theorem regDesc_plainReg {p : Nat × Nat} (hp : p ∈ plainRegs) : ∃ d, regDesc p.1 = some d ∧ d.has p.1 = true ∧ d.rc = false := by
  have h : ∀ q ∈ plainRegs, (regDesc q.1).any (fun d => d.has q.1 && !d.rc) = true := by decide
  obtain ⟨d, hd, hq⟩ := (Option.any_eq_true _ _).1 (h p hp)
  simp only [Bool.and_eq_true, Bool.not_eq_true'] at hq
  exact ⟨d, hd, hq.1, hq.2⟩

theorem regLoad_plainReg {p : Nat × Nat} (hp : p ∈ plainRegs) (s : State) (m : Master) : s.regLoad m p.1 = (s, s.regValue m.id p.1) := by
  obtain ⟨d, hd, -, hrc⟩ := regDesc_plainReg hp
  have hbox : ∀ q ∈ plainRegs, rxBox q.1 = none ∧ q.1 ≠ 0x04A00010 ∧ ¬ (0x04B81000 ≤ q.1 ∧ q.1 < 0x04B81400 ∧ q.1 % 4 = 0) ∧
      ¬ (0x04500100 ≤ q.1 ∧ q.1 < 0x04500300 ∧ q.1 % 0x20 = 0x18) := by decide
  obtain ⟨h1, h2, h3, h4⟩ := hbox p hp
  simp only [State.regLoad, h1, if_neg h2, if_neg h3, if_neg h4, hd, hrc]
  rfl

/-- None of them lies in the journal's block or is one of the selected station's words. -/
theorem plainReg_place {p : Nat × Nat} (hp : p ∈ plainRegs) : p.1 / 0x100000 ≠ 0x4F ∧ (p.1 < 0x04780100 ∨ 0x04780160 ≤ p.1) := by
  revert p
  decide

/-! ## The plain registers through a core's or debug's access -/

/-- A performed write reaches the register with the journal's record made first (R490). -/
theorem exec_coreRegWrite_may {m : Master} (hm : m = .pommel ∨ m = .cantle ∨ m = .debug) {addr : Word} (hsc : scStoreAddr addr.toNat = false)
    {s : State} (hr : s.regRight m (alignDown addr.toNat 4) true = .may) (hst : s.staRefused m (alignDown addr.toNat 4) = false)
    (n : Nat) (v : Word) :
    exec (.registerWrite m addr n (.write v)) s =
      .next ((s.jRegWrite m.id (alignDown addr.toNat 4) v).regStore m (alignDown addr.toNat 4) v) := by
  rw [exec_coreRegWrite hm hsc, hst, Bool.and_false, if_neg Bool.false_ne_true, State.regRow_may _ _ hr]

theorem exec_coreRegRead_may {m : Master} (hm : m = .pommel ∨ m = .cantle ∨ m = .debug) {addr : Word} (hsc : scStoreAddr addr.toNat = false)
    {s : State} (hr : s.regRight m (alignDown addr.toNat 4) false = .may) (hst : s.staRefused m (alignDown addr.toNat 4) = false) (n : Nat) :
    exec (.registerWrite m addr n .read) s =
      .next ((s.regLoad m (alignDown addr.toNat 4)).1.emit
        (.readData m.id (leBytes 4 (s.regLoad m (alignDown addr.toNat 4)).2.toNat))) := by
  rw [exec_coreRegRead hm hsc, hst, Bool.and_false, if_neg Bool.false_ne_true, State.readRow_may _ hr]

theorem plainWrite_after_record {a : Nat} {d : RegDesc} (hd : regDesc a = some d) (ha : a / 0x100000 ≠ 0x4F) {v : Word}
    (hv : d.illegal v = false) (s : State) (m c : Nat) :
    let t := (s.jRegWrite m a v).plainWrite a v c
    t.reg a = d.merged (s.reg a) v ∧ onlyRegs s t [a] := by
  have hj := onlyRegs_jRegWrite s m a v
  rw [State.plainWrite_legal hd hv]
  refine ⟨?_, (hj.trans (onlyRegs_setReg _ _ _))⟩
  rw [State.reg_setReg_self, hj.2 a List.not_mem_nil ha]

theorem reserved_after_record {a : Nat} {d : RegDesc} (hd : regDesc a = some d) {v : Word} (hv : d.illegal v = true) (s : State) (m c : Nat) :
    let t := (s.jRegWrite m a v).plainWrite a v c
    bit (t.reg c) 0 = true ∧ onlyRegs s t [a, c] := by
  rw [State.plainWrite_illegal hd hv]
  exact ⟨State.cfgErr_sets _ _, ((onlyRegs_jRegWrite s m a v).trans (onlyRegs_setReg _ _ _)).trans (onlyRegs_setStatus _ _ _)⟩

/-- Both counters of HP_ clear when they are read (R9). -/
theorem regLoad_readClear (s : State) (m : Master) :
    s.regLoad m 0x04000014 = (s.setReg 0x04000014 0#32, s.regValue m.id 0x04000014) := by
  have hd : regDesc 0x04000014 = some { base := 0x04000014, n := 2, rc := true } := by decide
  have hbox : rxBox 0x04000014 = none := by decide
  simp [State.regLoad, hbox, hd]

/-! # Accesses of a host function through BAR0 (R171, R219) -/

section
variable {s : State} (hj : s.jnState ≠ 5) (f : Fn) (addr : Word) (n : Nat)
include hj

theorem exec_hostRegWrite (v : Word) :
    exec (.registerWrite (.host f) addr n (.write v)) s = .next (s.bar0Write f addr.toNat n (v.setWidth 64)) := by
  simp [exec, execRegisterWrite, registerWrite, State.onLive, hj]

theorem exec_hostRegWriteQuad (q : Quad) :
    exec (.registerWrite (.host f) addr n (.writeQuad q)) s = .next (s.bar0Write f addr.toNat n q) := by
  simp [exec, execRegisterWrite, registerWrite, State.onLive, hj]

theorem exec_hostRegRead : exec (.registerWrite (.host f) addr n .read) s = .next (s.bar0Read f addr.toNat n) := by
  simp [exec, execRegisterWrite, registerWrite, State.onLive, hj]

end

/-! ## The register views -/

section
variable {f : Fn} {off : Nat} (hoff : off < 0x10000)
include hoff

/-- A whole aligned word is a register row. -/
theorem bar0Write_word (s : State) (hal : off % 4 = 0) (v : Word) :
    s.bar0Write f off 4 (v.setWidth 64) =
      s.regRow (.host f) (bar0Reg f.val (alignDown off 4)) v (fun t => t.regStore (.host f) (bar0Reg f.val (alignDown off 4)) v) := by
  have hdb : ¬ (0x20000 ≤ off ∧ off < 0x28000) := by omega
  have hv : (v.setWidth 64).setWidth 32 = v := by simp
  simp only [State.bar0Write, if_neg hdb, if_pos hoff, hal, hv, and_self, if_true]

/-- Any other write that the function may make of the views is CFGERR alone. -/
theorem bar0Write_part {s : State} (hr : s.regRight (.host f) (bar0Reg f.val (alignDown off 4)) true = .may) {n : Nat}
    (hn : ¬ (n = 4 ∧ off % 4 = 0)) (v : Quad) : s.bar0Write f off n v = s.fnCfgErr f.val := by
  have hdb : ¬ (0x20000 ≤ off ∧ off < 0x28000) := by omega
  simp only [State.bar0Write, if_neg hdb, if_pos hoff, if_neg hn, hr]

theorem bar0Write_refused {s : State} (hr : s.regRight (.host f) (bar0Reg f.val (alignDown off 4)) true = .refused) (n : Nat) (v : Quad) :
    s.bar0Write f off n v = s.refuse (.host f) (bar0Reg f.val (alignDown off 4)) := by
  have hdb : ¬ (0x20000 ≤ off ∧ off < 0x28000) := by omega
  simp only [State.bar0Write, if_neg hdb, if_pos hoff, State.regRow_refused _ _ hr, hr, ite_self]

theorem bar0Write_resetting {s : State} (hr : s.regRight (.host f) (bar0Reg f.val (alignDown off 4)) true = .resetting) (n : Nat) (v : Quad) :
    s.bar0Write f off n v = s := by
  have hdb : ¬ (0x20000 ≤ off ∧ off < 0x28000) := by omega
  simp only [State.bar0Write, if_neg hdb, if_pos hoff, State.regRow_resetting _ _ hr, hr, ite_self]

theorem bar0Read_refused {s : State} (hr : s.regRight (.host f) (bar0Reg f.val (alignDown off 4)) false = .refused) (n : Nat) :
    s.bar0Read f off n = s.refuse (.host f) (bar0Reg f.val (alignDown off 4)) := by
  simp only [State.bar0Read, if_pos hoff, hr]

theorem bar0Read_inWord {s : State} (hr : s.regRight (.host f) (bar0Reg f.val (alignDown off 4)) false = .may) {n : Nat} (h1 : 1 ≤ n)
    (h4 : off % 4 + n ≤ 4) :
    let r := s.regLoad (.host f) (bar0Reg f.val (alignDown off 4))
    s.bar0Read f off n = r.1.emit (.readData (32 + f.val) (leBytes n (r.2.toNat / 2 ^ (8 * (off % 4))))) := by
  simp [State.bar0Read, hoff, hr, h1, h4]

theorem bar0Read_acrossWords {s : State} (hr : s.regRight (.host f) (bar0Reg f.val (alignDown off 4)) false = .may) {n : Nat}
    (h4 : 4 < off % 4 + n) :
    s.bar0Read f off n = (s.fnCfgErr f.val).emit (.readData (32 + f.val) (leBytes n 0)) := by
  simp [State.bar0Read, hoff, hr, Nat.not_le.2 h4]

end

theorem fnCfgErr_sets (s : State) (f : Nat) : bit ((s.fnCfgErr f).reg (fnStatus f)) 0 = true := by
  rw [State.fnCfgErr, State.reg_setReg_self, bit_or_one]

theorem onlyRegs_fnCfgErr (s : State) (f : Nat) : onlyRegs s (s.fnCfgErr f) [fnStatus f] := onlyRegs_setReg _ _ _

/-! ## The MSI-X table and the doorbells -/

theorem msixWrite_held {s : State} {f i : Nat} (h : i / 4 < (s.fn f).vectors) (v : Word) :
    s.msixWrite f i v = s.setMsixWord f i (v &&& msixMask i) := if_pos h

theorem msixWrite_above {s : State} {f i : Nat} (h : (s.fn f).vectors ≤ i / 4) (v : Word) : s.msixWrite f i v = s :=
  if_neg (Nat.not_lt.2 h)

@[simp] theorem setMsixWord_vectors (s : State) (f i : Nat) (v : Word) : ((s.setMsixWord f i v).fn f).vectors = (s.fn f).vectors := by
  simp [State.setMsixWord]

/-- A write of the table of a function that answers and is in no reset goes to the table. -/
theorem bar0Write_table {s : State} {f : Fn} {off size : Nat} (hlo : 0x10000 ≤ off) (hhi : off < 0x14000)
    (ha : s.bar0Answers f.val (0x04100000 + 0x10000 * f.val) = true) (hr : (s.fn f.val).resetAt = none) (hs : size = 4 ∨ size = 8)
    (hal : off % size = 0) (v : Quad) :
    s.bar0Write f off size v = s.msixStore f.val ((off - 0x10000) / 4) size v := by
  have hdb : ¬ (0x20000 ≤ off ∧ off < 0x28000) := by omega
  have hview : ¬ off < 0x10000 := by omega
  have hans : ¬ (!s.bar0Answers f.val (0x04100000 + 0x10000 * f.val)) = true := by rw [ha]; decide
  have hlive : ¬ (s.fn f.val).resetAt.isSome = true := by rw [hr]; decide
  rw [State.bar0Write, if_neg hdb, if_neg hview, if_neg hans, if_neg hlive, if_pos ⟨hlo, hhi, hs, hal⟩]

/-- A write of one doorbell is the command of its own. -/
theorem bar0Write_doorbell (s : State) (f : Fn) (i : Fin 4096) {off n : Nat} (hoff : off = 0x20000 + 8 * i.val) (hn : n = 4 ∨ n = 8)
    (v : Quad) : s.bar0Write f off n v = doorbell s f.val i.val := by
  have hi := i.isLt
  have hdb : 0x20000 ≤ off ∧ off < 0x28000 := by omega
  have hfirst : (off - 0x20000) / 8 = i.val := by omega
  have hlast : (off - 0x20000 + max n 1 - 1) / 8 = i.val := by omega
  rw [State.bar0Write, if_pos hdb, hfirst, hlast, Nat.sub_self]
  rfl

/-! # RegisterAccesses -/

/-- What a core or debug does with a register (R9, R13, R22, R27). -/
theorem coreAccess_plainReg {m : Master} (hm : m = .pommel ∨ m = .cantle ∨ m = .debug) {addr : Word} (hsc : scStoreAddr addr.toNat = false)
    {p : Nat × Nat} (hp : p ∈ plainRegs) (hw : alignDown addr.toNat 4 = p.1) (s : State) (n : Nat) (v : Word) :
    ∃ d, regDesc p.1 = some d ∧ d.has p.1 = true ∧
      (s.regRight m p.1 true = .may → d.illegal v = false →
        ∃ t, exec (.registerWrite m addr n (.write v)) s = .next t ∧ t.reg p.1 = d.merged (s.reg p.1) v ∧ onlyRegs s t [p.1]) ∧
      (s.regRight m p.1 true = .may → d.illegal v = true →
        ∃ t, exec (.registerWrite m addr n (.write v)) s = .next t ∧ bit (t.reg p.2) 0 = true ∧ onlyRegs s t [p.1, p.2]) ∧
      (s.regRight m p.1 false = .may → ∃ t, exec (.registerWrite m addr n .read) s = .next t ∧
        t.out = s.out ++ [.readData m.id (leBytes 4 (s.regValue m.id p.1).toNat)] ∧ t = { s with out := t.out }) := by
  obtain ⟨d, hd, hhas, -⟩ := regDesc_plainReg hp
  obtain ⟨hblock, hplace⟩ := plainReg_place hp
  have hst := s.staRefused_outside m hplace
  refine ⟨d, hd, hhas, fun hr hv => ⟨_, ?_, plainWrite_after_record hd hblock hv s m.id p.2⟩,
    fun hr hv => ⟨_, ?_, reserved_after_record hd hv s m.id p.2⟩, fun hr => ⟨s.emit (.readData m.id (leBytes 4 (s.regValue m.id p.1).toNat)), ?_, ?_⟩⟩
  · rw [exec_coreRegWrite_may hm hsc (hw ▸ hr) (hw ▸ hst), hw, regStore_plainReg hp]
  · rw [exec_coreRegWrite_may hm hsc (hw ▸ hr) (hw ▸ hst), hw, regStore_plainReg hp]
  · rw [exec_coreRegRead_may hm hsc (hw ▸ hr) (hw ▸ hst), hw, regLoad_plainReg hp]
  · rw [State.emit_plain _ rfl]
    exact ⟨rfl, rfl⟩

/-- Settles O60: a core's or debug's access is a register row, of which `regRow` and `readRow` give the refusals and `plainWrite` the
effect; a host function's goes by BAR0's regions. -/
theorem registerAccesses : Obligations.RegisterAccesses := by
  intro s addr n v w write read
  refine ⟨fun m hm hsc => ⟨fun hr => ?_, fun hr => ?_, fun hr hst => ?_, fun hr hst => ?_, fun p hp hw => ?_, fun hw hr => ?_⟩,
    fun f hj => ⟨fun hoff => ⟨fun hr => ?_, fun hr => ?_, fun hr => ?_, fun hr hn hal => ?_, fun hr hn => ?_, fun hr h1 h4 => ?_,
      fun hr h4 => ?_⟩, fun hlo hhi hn hal ha hr => ?_, fun q hlo hhi hal ha hr => ?_, fun i hi hn => ?_⟩⟩
  · have hw := exec_coreRegWrite hm hsc s n v
    rcases hr with hr | hr
    · exact ⟨_, hw.trans (by rw [hr, State.regRow_refused _ _ hr]; rfl), refusedOnly_refuse s m w⟩
    · exact ⟨_, hw.trans (by rw [hr, State.regRow_reins _ _ hr]; rfl), refusedOnly_refuseReins s m w⟩
  · exact ⟨_, (exec_coreRegRead hm hsc s n).trans (by rw [hr, State.readRow_refused _ hr]; rfl), refusedOnly_refuse s m w⟩
  · exact ⟨_, (exec_coreRegWrite hm hsc s n v).trans (by rw [hr, hst]; rfl), refusedOnly_refuse s m w⟩
  · exact ⟨_, onlyRegs_jRegWrite s m.id w v, exec_coreRegWrite_may hm hsc hr hst n v⟩
  · rw [hw]
    exact coreAccess_plainReg hm hsc hp hw s n v
  · have hst : s.staRefused m w = false := s.staRefused_outside m (by omega)
    have hread := exec_coreRegRead_may hm hsc hr hst n
    rw [show alignDown addr.toNat 4 = 0x04000014 from hw, regLoad_readClear, State.emit_plain _ rfl] at hread
    let sent : State := { s with out := s.out ++ [.readData m.id (leBytes 4 (s.regValue m.id w).toNat)] }
    refine ⟨sent.setReg w 0#32, hread.trans ?_, State.reg_setReg_self sent w _, rfl, onlyRegs_setReg sent w _⟩
    simp only [sent, hw]
    rfl
  · exact ⟨_, (exec_hostRegWrite hj f addr n v).trans (by rw [bar0Write_refused hoff hr]), refusedOnly_refuse s (.host f) _⟩
  · exact ⟨_, (exec_hostRegRead hj f addr n).trans (by rw [bar0Read_refused hoff hr]), refusedOnly_refuse s (.host f) _⟩
  · exact (exec_hostRegWrite hj f addr n v).trans (by rw [bar0Write_resetting hoff hr])
  · subst hn
    exact ⟨_, onlyRegs_jRegWrite s _ _ v, (exec_hostRegWrite hj f addr 4 v).trans
      (by rw [bar0Write_word hoff s hal, State.regRow_may _ _ hr])⟩
  · exact ⟨_, (exec_hostRegWrite hj f addr n v).trans (by rw [bar0Write_part hoff hr (by omega)]), fnCfgErr_sets s _,
      onlyRegs_fnCfgErr s _⟩
  · exact (exec_hostRegRead hj f addr n).trans (by rw [bar0Read_inWord hoff hr h1 h4]; rfl)
  · refine ⟨_, (exec_hostRegRead hj f addr n).trans (by rw [bar0Read_acrossWords hoff hr h4]), ?_, ?_⟩
    · rw [State.emit_plain _ rfl]
      exact fnCfgErr_sets s _
    · rw [State.emit_plain _ rfl]
      rfl
  · subst hn
    have hwrite := exec_hostRegWrite hj f addr 4 v
    rw [bar0Write_table hlo hhi ha hr (.inl rfl) hal] at hwrite
    refine ⟨fun hi => hwrite.trans ?_, fun hi => hwrite.trans ?_⟩
    · simp [State.msixStore, msixWrite_held hi]
    · simp [State.msixStore, msixWrite_above hi]
  · intro i hi
    have hnext : (i + 1) / 4 < (s.fn f.val).vectors := by omega
    have hwrite := exec_hostRegWriteQuad hj f addr 8 q
    rw [bar0Write_table hlo hhi ha hr (.inr rfl) hal] at hwrite
    refine hwrite.trans ?_
    rw [State.msixStore, msixWrite_held hi, if_pos rfl, msixWrite_held (by rwa [setMsixWord_vectors])]
  · have hwrite := exec_hostRegWrite hj f addr n v
    rw [bar0Write_doorbell s f i hi hn] at hwrite
    exact hwrite

end Sys2Proof.Machine

/-! # No step changes the queue of waiting commands (R9, R22)

`State.pending` is the queue of the commands that wait. Each function of the model that makes a state leaves it as it was; one
lemma says so for each, in the order of the model's files, and cites those of the functions it calls. A function that answers a
state inside a result (a pair, an `Option`, an `Except`) has the lemma about the state it answers.

Some proofs are `simp -implicitDefEqProofs`: there a register's address is a literal, and a rewriting left to unfolding would have
the kernel compare two whole states and so compute the register file at that address. -/

namespace Sys2Proof.Machine

/-! ## Choices and folds over states -/

@[simp] theorem State.ite_pending (c : Prop) [Decidable c] (a b : State) :
    (if c then a else b).pending = if c then a.pending else b.pending :=
  apply_ite State.pending c a b

@[simp] theorem State.foldl_pending {α : Type} {f : State → α → State} (hf : ∀ t x, (f t x).pending = t.pending) (l : List α)
    (s : State) : (l.foldl f s).pending = s.pending := by
  induction l generalizing s with
  | nil => rfl
  | cons x l ih => rw [List.foldl_cons, ih, hf]

@[simp] theorem State.foldl_prod_pending {α β : Type} {f : State → α × β → State}
    (hf : ∀ t a b, (f t (a, b)).pending = t.pending) (l : List (α × β)) (s : State) : (l.foldl f s).pending = s.pending :=
  State.foldl_pending (fun t x => hf t x.1 x.2) l s

/-! ## Machine/Ops -/

@[simp] theorem State.draw_pending (s : State) : s.draw.2.pending = s.pending := rfl
@[simp] theorem State.setIrq_pending (s : State) (n : Nat) (x : IrqSrc) : (s.setIrq n x).pending = s.pending := rfl

@[simp] theorem State.risen_pending (s : State) (a : Nat) (was : Bool) : (s.risen a was).pending = s.pending := by
  unfold State.risen
  split <;> simp

@[simp] theorem State.cfgErr_pending (s : State) (a : Nat) : (s.cfgErr a).pending = s.pending := by simp [State.cfgErr]
@[simp] theorem State.openShadow_pending (s : State) (x : ShadowOf) : (s.openShadow x).pending = s.pending := rfl
@[simp] theorem State.endShadow_pending (s : State) (x : ShadowOf) : (s.endShadow x).pending = s.pending := rfl
@[simp] theorem State.refusedAccess_pending (s : State) (m a : Nat) : (s.refusedAccess m a).pending = s.pending := rfl

@[simp] theorem State.putBytes_pending (s : State) (a : Nat) (bs : List Byte) : (s.putBytes a bs).pending = s.pending := by
  fun_induction State.putBytes s a bs <;> simp_all

@[simp] theorem State.injMark_pending (s : State) (a : Nat) (old : EccMark) : (s.injMark a old).2.pending = s.pending := by
  unfold State.injMark
  split <;> simp

@[simp] theorem State.inject_pending (s : State) (w : Nat) : (s.inject w).pending = s.pending := by simp [State.inject]

@[simp] theorem State.arrayWrite_pending (s : State) (a : Nat) (bs : List Byte) (mark : EccMark) :
    (s.arrayWrite a bs mark).pending = s.pending := by
  simp [State.arrayWrite]

@[simp] theorem State.eccEvent_pending (s : State) (w : Nat) (mark : EccMark) (master owner : Nat) :
    (s.eccEvent w mark master owner).pending = s.pending := by
  simp -implicitDefEqProofs [State.eccEvent]

@[simp] theorem State.hwWrite_pending (s : State) (w : Nat) : (s.hwWrite w).pending = s.pending := by simp [State.hwWrite]

@[simp] theorem State.hwCheck_pending (s : State) (w master owner : Nat) : (s.hwCheck w master owner).pending = s.pending := by
  simp [State.hwCheck]

@[simp] theorem State.eccEventIn_pending (s : State) (base n : Nat) (mark : EccMark) (owner : Nat) :
    (s.eccEventIn base n mark owner).pending = s.pending := by
  simp [State.eccEventIn]

@[simp] theorem State.readMem_pending (s : State) (a n master owner : Nat) :
    (s.readMem a n master owner).1.pending = s.pending := by
  simp [State.readMem]

@[simp] theorem State.dropMerge_pending (s : State) (w : Nat) : (s.dropMerge w).pending = s.pending := rfl

@[simp] theorem State.drainEntry_pending (s : State) (e : MergeEntry) : (s.drainEntry e).pending = s.pending := by
  simp [State.drainEntry]

@[simp] theorem State.drainWord_pending (s : State) (a : Nat) : (s.drainWord a).pending = s.pending := by
  unfold State.drainWord
  split <;> simp

@[simp] theorem State.narrowWrite_pending (s : State) (a : Nat) (bs : List Byte) : (s.narrowWrite a bs).pending = s.pending := by
  unfold State.narrowWrite
  split
  · simp
  · cases SMap.get [] s.merge (mergeOf a) <;> simp

@[simp] theorem State.writeWord_pending (s : State) (a : Nat) (bs : List Byte) (poison : Bool) :
    (s.writeWord a bs poison).pending = s.pending := by
  simp [State.writeWord]

@[simp] theorem State.writeMemAux_pending (s : State) (a : Nat) (bs : List Byte) (poison : Bool) (k : Nat) :
    (s.writeMemAux a bs poison k).pending = s.pending := by
  fun_induction State.writeMemAux s a bs poison k <;> simp_all

@[simp] theorem State.writeMem_pending (s : State) (a : Nat) (bs : List Byte) (poison : Bool) :
    (s.writeMem a bs poison).pending = s.pending := by
  simp [State.writeMem]

/-! ## Machine/HostOps -/

@[simp] theorem State.setCfg_pending (s : State) (f off : Nat) (v : Word) : (s.setCfg f off v).pending = s.pending := rfl
@[simp] theorem State.cfgFixed_pending (s : State) (f : Nat) : (s.cfgFixed f).pending = s.pending := by simp [State.cfgFixed]

@[simp] theorem State.sendReads_pending (s : State) (f addr len i k : Nat) :
    (s.sendReads f addr len i k).pending = s.pending := by
  simp [State.sendReads]

@[simp] theorem State.setMsixWord_pending (s : State) (f i : Nat) (v : Word) : (s.setMsixWord f i v).pending = s.pending := rfl

@[simp] theorem State.msixIssue_pending (s : State) (f v : Nat) : (s.msixIssue f v).pending = s.pending := by
  simp [State.msixIssue]

@[simp] theorem State.keepFiring_pending (s : State) (f v : Nat) : (s.keepFiring f v).pending = s.pending := by
  simp [State.keepFiring]

@[simp] theorem State.deliverKept_pending (s : State) (f : Nat) : (s.deliverKept f).pending = s.pending := by
  simp [State.deliverKept]

@[simp] theorem State.sendFiring_pending (s : State) (f v : Nat) : (s.sendFiring f v).pending = s.pending := by
  simp [State.sendFiring]

@[simp] theorem State.fireVector_pending (s : State) (f v : Nat) : (s.fireVector f v).pending = s.pending := by
  simp [State.fireVector]

@[simp] theorem State.wakeLink_pending (s : State) : s.wakeLink.pending = s.pending := by simp [State.wakeLink]
@[simp] theorem State.raisePme_pending (s : State) (f : Nat) : (s.raisePme f).pending = s.pending := by simp [State.raisePme]

@[simp] theorem State.resendPme_pending (s : State) (f : Nat) : (s.resendPme f).pending = s.pending := by
  unfold State.resendPme
  split <;> simp

@[simp] theorem State.ringFireVector_pending (s : State) (f v : Nat) (wakeWorthy : Bool) :
    (s.ringFireVector f v wakeWorthy).pending = s.pending := by
  simp [State.ringFireVector]

@[simp] theorem State.eventMessage_pending (s : State) (f : Nat) : (s.eventMessage f).pending = s.pending := by
  simp [State.eventMessage]

@[simp] theorem State.qmFnStatus_pending (s : State) (f i : Nat) : (s.qmFnStatus f i).pending = s.pending := by
  simp [State.qmFnStatus]

@[simp] theorem State.setCfgs_pending (s : State) (f off : Nat) (l : List Word) : (s.setCfgs f off l).pending = s.pending := by
  fun_induction State.setCfgs s f off l <;> simp_all

@[simp] theorem State.aerLog_pending (s : State) (f i : Nat) (header : List Word) :
    (s.aerLog f i header).pending = s.pending := by
  simp [State.aerLog]

@[simp] theorem State.timedOut_pending (s : State) (f : Nat) (res : HostResult) : (s.timedOut f res).pending = s.pending := by
  simp [State.timedOut]

@[simp] theorem State.linkIdle_pending (s : State) : s.linkIdle.pending = s.pending := by simp [State.linkIdle]

/-! ## Machine/TempoOps -/

@[simp] theorem idleTick_pending (s : State) : (idleTick s).pending = s.pending := rfl
@[simp] theorem State.afterTick_pending (s : State) : s.afterTick.pending = s.pending := rfl
@[simp] theorem State.moveSrc_pending (s : State) (n : Nat) (x : Source) : (s.moveSrc n x).pending = s.pending := rfl

/-! ## Machine/Record -/

@[simp] theorem State.setJnState_pending (s : State) (c : Nat) : (s.setJnState c).pending = s.pending := rfl
@[simp] theorem State.jput_pending (s : State) (r : JRec) : (s.jput r).pending = s.pending := rfl

@[simp] theorem State.jnStatus_pending (s : State) (bits : Word) : (s.jnStatus bits).pending = s.pending := by
  simp [State.jnStatus]

@[simp] theorem State.placeRecs_pending (s : State) (l : List JRec) : (s.placeRecs l).1.pending = s.pending := by
  induction l generalizing s with
  | nil => rfl
  | cons r rs ih => cases h : r.mark <;> simp [State.placeRecs, h, ih]

@[simp] theorem State.winPlace_pending (s : State) : s.winPlace.pending = s.pending := by simp [State.winPlace]

@[simp] theorem State.readRec_pending (s : State) (r : JRec) : (s.readRec r).1.pending = s.pending := by
  fun_cases State.readRec s r <;> simp +zetaDelta

@[simp] theorem State.readRecs_pending (s : State) (l : List JRec) : (s.readRecs l).1.pending = s.pending := by
  induction l generalizing s with
  | nil => rfl
  | cons r rs ih => simp [State.readRecs, ih]

@[simp] theorem State.readFront_pending (s : State) (n : Nat) : (s.readFront n).pending = s.pending := by simp [State.readFront]

@[simp] theorem State.touchRecs_pending (s : State) (a n o : Nat) (l : List JRec) :
    (s.touchRecs a n o l).1.pending = s.pending := by
  induction l generalizing s o with
  | nil => rfl
  | cons r rs ih =>
    simp only [State.touchRecs, ih]
    split <;> simp

@[simp] theorem State.winTouch_pending (s : State) (a n : Nat) : (s.winTouch a n).1.pending = s.pending := by
  unfold State.winTouch
  split <;> simp

@[simp] theorem State.jgap_pending (s : State) : s.jgap.pending = s.pending := rfl
@[simp] theorem State.jend_pending (s : State) (reason : Nat) : (s.jend reason).pending = s.pending := by simp [State.jend]

@[simp] theorem State.jrec_pending (s : State) (type srcid : Nat) (payload : List Nat) :
    (s.jrec type srcid payload).pending = s.pending := by
  simp [State.jrec]

@[simp] theorem State.jHostRead_pending (s : State) (f addr : Nat) (res : HostResult) :
    (s.jHostRead f addr res).pending = s.pending := by
  simp [State.jHostRead]

@[simp] theorem State.jHostEvent_pending (s : State) (f code value : Nat) : (s.jHostEvent f code value).pending = s.pending := by
  simp [State.jHostEvent]

@[simp] theorem State.jRegWrite_pending (s : State) (m a : Nat) (v : Word) : (s.jRegWrite m a v).pending = s.pending := by
  simp [State.jRegWrite]

@[simp] theorem State.diverge_pending (s : State) (kind srcid word0 : Nat) :
    (s.diverge kind srcid word0).pending = s.pending := by
  simp -implicitDefEqProofs [State.diverge]

@[simp] theorem State.missing_pending (s : State) : s.missing.pending = s.pending := by simp [State.missing]

@[simp] theorem State.digest_pending (s : State) (srcid word0 word1 : Nat) :
    (s.digest srcid word0 word1).pending = s.pending := by
  fun_cases State.digest s srcid word0 word1 <;> simp +zetaDelta

@[simp] theorem State.rebase_pending (s : State) (old new : Nat) : (s.rebase old new).pending = s.pending := rfl
@[simp] theorem State.replayStart_pending (s : State) : s.replayStart.pending = s.pending := rfl

/-! ## Machine/Completion -/

@[simp] theorem State.lineRead_pending (s : State) (g f u : Nat) : (s.lineRead g f u).pending = s.pending := by
  simp [State.lineRead]

@[simp] theorem State.prefetch_pending (s : State) (g f : Nat) : (s.prefetch g f).pending = s.pending := by simp [State.prefetch]

@[simp] theorem State.grantBuffer_pending (s : State) : s.grantBuffer.pending = s.pending := by
  fun_cases State.grantBuffer s <;> simp +zetaDelta

@[simp] theorem State.grantBuffers_pending (s : State) : s.grantBuffers.pending = s.pending := by simp [State.grantBuffers]

@[simp] theorem State.leaveScan_pending (s : State) (g st : Nat) : (s.leaveScan g st).pending = s.pending := by
  simp [State.leaveScan]

@[simp] theorem State.holdQueues_pending (s : State) (g : Nat) : (s.holdQueues g).pending = s.pending := by
  unfold State.holdQueues
  split <;> simp

@[simp] theorem State.stallUpdate_pending (s : State) (g : Nat) : (s.stallUpdate g).pending = s.pending := by
  fun_cases State.stallUpdate s g <;> simp

@[simp] theorem State.roomUpdate_pending (s : State) (g : Nat) : (s.roomUpdate g).pending = s.pending := by
  simp [State.roomUpdate]

@[simp] theorem State.stallUpdateAll_pending (s : State) : s.stallUpdateAll.pending = s.pending := by
  refine State.foldl_pending (fun t x => ?_) _ s
  dsimp only
  split <;> simp

@[simp] theorem State.ringFire_pending (s : State) (g : Nat) : (s.ringFire g).pending = s.pending := by
  unfold State.ringFire
  split <;> simp

@[simp] theorem State.moderate_pending (s : State) (g : Nat) (urgent : Bool) : (s.moderate g urgent).pending = s.pending := by
  simp [State.moderate]

@[simp] theorem State.entryDigest_pending (s : State) (f addr : Nat) (e : Entry) (lap : Bool) :
    (s.entryDigest f addr e lap).pending = s.pending := by
  simp [State.entryDigest]

@[simp] theorem State.cqWrite_pending (s : State) (g : Nat) (e : Entry) : (s.cqWrite g e).pending = s.pending := by
  unfold State.cqWrite
  split <;> simp

@[simp] theorem State.joinWake_pending (s : State) (g f : Nat) : (s.joinWake g f).pending = s.pending := by simp [State.joinWake]

@[simp] theorem State.joinBacklog_pending (s : State) (g f : Nat) (b : Backlog) : (s.joinBacklog g f b).pending = s.pending := by
  simp [State.joinBacklog]

@[simp] theorem State.parkCopies_pending (s : State) : s.parkCopies.2.pending = s.pending := by simp [State.parkCopies]

@[simp] theorem State.park_pending (s : State) (g f : Nat) (e : Entry) : (s.park g f e).pending = s.pending := by
  simp [State.park]

@[simp] theorem State.parkRead_pending (s : State) (f : Nat) (c : EccMark × EccMark) :
    (s.parkRead f c).1.pending = s.pending := by
  unfold State.parkRead
  split <;> simp

@[simp] theorem State.freeSlot_pending (s : State) (k : Nat) : (s.freeSlot k).pending = s.pending := rfl

@[simp] theorem State.markPosted_pending (s : State) (k : Nat) : (s.markPosted k).pending = s.pending := by
  simp [State.markPosted]

@[simp] theorem State.heldPosted_pending (s : State) (k : Nat) : (s.heldPosted k).pending = s.pending := by
  simp [State.heldPosted]

@[simp] theorem State.shareFreed_pending (s : State) (f : Nat) : (s.shareFreed f).pending = s.pending := by
  unfold State.shareFreed
  split
  · simp
  · split <;> simp

@[simp] theorem State.unreserve_pending (s : State) (g f : Nat) (inRing : Bool) :
    (s.unreserve g f inRing).pending = s.pending := by
  simp [State.unreserve]

@[simp] theorem State.holdEntry_pending (s : State) (k : Nat) (isMark : Bool) : (s.holdEntry k isMark).pending = s.pending := rfl

@[simp] theorem State.postSlotEntry_pending (s : State) (g f k : Nat) (e : Entry) (isMark : Bool) :
    (s.postSlotEntry g f k e isMark).pending = s.pending := by
  simp [State.postSlotEntry]

@[simp] theorem State.postRedeemed_pending (s : State) (g f : Nat) (e : Entry) (inRing : Bool) :
    (s.postRedeemed g f e inRing).pending = s.pending := by
  simp [State.postRedeemed]

@[simp] theorem State.ceaWrite_pending (s : State) (e : Entry) : (s.ceaWrite e).pending = s.pending := by simp [State.ceaWrite]
@[simp] theorem State.ceaStallUpdate_pending (s : State) : s.ceaStallUpdate.pending = s.pending := by simp [State.ceaStallUpdate]

@[simp] theorem State.ceaDrain_pending (s : State) (n : Nat) : (s.ceaDrain n).pending = s.pending := by
  fun_induction State.ceaDrain s n <;> simp_all

@[simp] theorem State.ceaRoomed_pending (s : State) : s.ceaRoomed.pending = s.pending := by simp [State.ceaRoomed]

@[simp] theorem State.ceaPost_pending (s : State) (k : Nat) (e : Entry) (isMark : Bool) :
    (s.ceaPost k e isMark).pending = s.pending := by
  simp [State.ceaPost]

@[simp] theorem State.fromOutside_pending {f : State → State} (hf : ∀ t, (f t).pending = t.pending) (s : State) :
    (s.fromOutside f).pending = s.pending := by
  simp [State.fromOutside, hf]

@[simp] theorem State.onLive_pending {f : State → State} (hf : ∀ t, (f t).pending = t.pending) (s : State) :
    (s.onLive f).pending = s.pending := by
  simp [State.onLive, hf]

@[simp] theorem State.onLiveOut_pending {f : State → State} (hf : ∀ t, (f t).pending = t.pending) (s : State) :
    (s.onLiveOut f).pending = s.pending := by
  simp -implicitDefEqProofs [State.onLiveOut, hf]

@[simp] theorem postingRequest_pending (s : State) (src : PostSource) : (postingRequest s src).pending = s.pending := by
  fun_cases postingRequest s src <;> simp

@[simp] theorem backlogDrain_pending (s : State) (g : Nat) : (backlogDrain s g).pending = s.pending := by
  unfold backlogDrain
  dsimp only
  split
  next b rest f _ _ => cases b <;> simp
  · rfl

@[simp] theorem State.headRead_pending (s : State) (g f : Nat) : (s.headRead g f).pending = s.pending := by simp [State.headRead]

@[simp] theorem State.cqDoorbell_pending (s : State) (g f : Nat) : (s.cqDoorbell g f).pending = s.pending := by
  simp [State.cqDoorbell]

@[simp] theorem State.headErr_pending (s : State) (g f code : Nat) : (s.headErr g f code).pending = s.pending := rfl

@[simp] theorem headWordReturn_pending (s : State) (g : Nat) (res : HostResult) :
    (headWordReturn s g res).pending = s.pending := by
  unfold headWordReturn
  split
  · simp
  · split <;> simp

@[simp] theorem headReread_pending (s : State) (g : Nat) : (headReread s g).pending = s.pending := by
  unfold headReread
  split <;> simp

@[simp] theorem completionStall_pending (s : State) (g : Nat) : (completionStall s g).pending = s.pending := by
  fun_cases completionStall s g <;> simp +zetaDelta

@[simp] theorem moderationTimer_pending (s : State) (g : Nat) : (moderationTimer s g).pending = s.pending := by
  fun_cases moderationTimer s g <;> simp

@[simp] theorem msixUnmask_pending (s : State) (f v : Nat) : (msixUnmask s f v).pending = s.pending := by simp [msixUnmask]

@[simp] theorem keptFiringDelivery_pending (s : State) (f : Nat) : (keptFiringDelivery s f).pending = s.pending := by
  simp [keptFiringDelivery]

@[simp] theorem State.flushRings_pending (s : State) (fs : List Nat) : (s.flushRings fs).pending = s.pending := by
  refine State.foldl_pending (fun t x => ?_) _ s
  dsimp only
  split <;> simp

/-! ## Machine/Weir -/

@[simp] theorem State.bind_pending (s : State) (st : Start) (e k : Nat) (be : Bool) (reason gcq : Nat) :
    (s.bind st e k be reason gcq).pending = s.pending := by
  simp [State.bind]

/-! ## Machine/LaneOps -/

@[simp] theorem State.driveLane_pending (s : State) (l : Nat) (d : Drive) : (s.driveLane l d).pending = s.pending := by
  simp [State.driveLane]

@[simp] theorem State.endLaunches_pending (s : State) : s.endLaunches.pending = s.pending := rfl
@[simp] theorem State.actionDone_pending (s : State) (l : Nat) : (s.actionDone l).pending = s.pending := rfl

@[simp] theorem State.actionFree_pending (s : State) (l : Nat) : (s.actionFree l).pending = s.pending := by
  simp [State.actionFree]

@[simp] theorem State.laneToSafe_pending (s : State) (l : Nat) : (s.laneToSafe l).pending = s.pending := by
  simp [State.laneToSafe]

@[simp] theorem State.sfStatus_pending (s : State) (q : Nat) (bits : Word) : (s.sfStatus q bits).pending = s.pending := rfl

@[simp] theorem State.levelCross_pending (s : State) (q was now : Nat) : (s.levelCross q was now).pending = s.pending := by
  simp [State.levelCross]

@[simp] theorem State.pushWord_pending (s : State) (q : Nat) (w : FWord) : (s.pushWord q w).pending = s.pending := by
  simp only [State.pushWord, State.levelCross_pending, State.setFifo_pending]
  split <;> simp

@[simp] theorem State.pushBytesAux_pending (s : State) (q : Nat) (poison : Bool) (k : Nat) (bs : List Byte) :
    (s.pushBytesAux q poison k bs).pending = s.pending := by
  fun_induction State.pushBytesAux s q poison k bs <;> simp_all

@[simp] theorem State.pushBytes_pending (s : State) (q : Nat) (bs : List Byte) (poison : Bool) :
    (s.pushBytes q bs poison).pending = s.pending := by
  simp [State.pushBytes]

@[simp] theorem State.closePacket_pending (s : State) (q : Nat) : (s.closePacket q).pending = s.pending := by
  fun_cases State.closePacket s q <;> simp

@[simp] theorem State.rts_pending (s : State) (l : Nat) : (s.rts l).pending = s.pending := by simp [State.rts]
@[simp] theorem State.spillBack_pending (s : State) (q : Nat) : (s.spillBack q).pending = s.pending := by simp [State.spillBack]

@[simp] theorem State.takeBytesAux_pending (s : State) (q k n : Nat) (acc : List Byte) :
    (s.takeBytesAux q k n acc).1.pending = s.pending := by
  fun_induction State.takeBytesAux s q k n acc <;> simp_all +zetaDelta

@[simp] theorem State.takeBytes_pending (s : State) (q n : Nat) : (s.takeBytes q n).1.pending = s.pending := by
  simp [State.takeBytes]

@[simp] theorem State.flushFifo_pending (s : State) (q : Nat) : (s.flushFifo q).pending = s.pending := by simp [State.flushFifo]
@[simp] theorem State.laneIdle_pending (s : State) (l : Nat) : (s.laneIdle l).pending = s.pending := by simp [State.laneIdle]
@[simp] theorem State.idleLater_pending (s : State) (l : Nat) : (s.idleLater l).pending = s.pending := by simp [State.idleLater]
@[simp] theorem State.setXfer_pending (s : State) (l : Nat) (x : Option Xfer) : (s.setXfer l x).pending = s.pending := rfl
@[simp] theorem State.senseFlag_pending (s : State) (st i : Nat) : (s.senseFlag st i).pending = s.pending := rfl
@[simp] theorem State.busStop_pending (s : State) (l : Nat) : (s.busStop l).pending = s.pending := by simp [State.busStop]

@[simp] theorem State.timerUpdate_pending (s : State) (key : Nat) : (s.timerUpdate key).pending = s.pending := by
  fun_cases State.timerUpdate s key <;> simp

@[simp] theorem State.gateTimer_pending (s : State) (l : Nat) : (s.gateTimer l).pending = s.pending := by
  unfold State.gateTimer
  split <;> simp

@[simp] theorem State.shutGate_pending (s : State) (l : Nat) : (s.shutGate l).pending = s.pending := by simp [State.shutGate]

@[simp] theorem State.cutLaunches_pending (s : State) (key : Nat) : (s.cutLaunches key).pending = s.pending := by
  unfold State.cutLaunches
  dsimp only
  rw [State.foldl_pending (fun t l => by simp), State.foldl_pending]
  intro t l
  split <;> simp

@[simp] theorem State.stationInitial_pending (s : State) (st : Nat) : (s.stationInitial st).pending = s.pending := by
  simp [State.stationInitial]

@[simp] theorem State.stationClear_pending (s : State) (st key : Nat) : (s.stationClear st key).pending = s.pending := by
  simp [State.stationClear]

@[simp] theorem State.sendHead_pending (s : State) (l : Nat) : (s.sendHead l).pending = s.pending := by
  unfold State.sendHead
  split <;> simp

/-! ## Machine/EngineOps -/

@[simp] theorem State.arrival_pending (s : State) (key : Nat) : (s.arrival key).pending = s.pending := rfl

@[simp] theorem State.toPosting_pending (s : State) (key : Nat) : (s.toPosting key).pending = s.pending := by
  simp [State.toPosting]

@[simp] theorem State.settle_pending (s : State) (key : Nat) : (s.settle key).pending = s.pending := by simp [State.settle]

@[simp] theorem State.endOp_pending (s : State) (key : Nat) (c : Check) (last : Quad) (residual : Nat) (clear : Bool) :
    (s.endOp key c last residual clear).pending = s.pending := by
  simp [State.endOp]

@[simp] theorem State.readDescriptor_pending (s : State) (key : Nat) : (s.readDescriptor key).pending = s.pending := by
  simp [State.readDescriptor]

@[simp] theorem State.checkNow_pending (s : State) (key : Nat) (c : Check) : (s.checkNow key c).pending = s.pending := by
  simp [State.checkNow]

@[simp] theorem State.addMark_pending (s : State) (key residual : Nat) : (s.addMark key residual).pending = s.pending := by
  simp [State.addMark]

@[simp] theorem State.endCcw_pending (s : State) (key residual : Nat) (goOn : Bool) (next : Quad) (branch : Option Quad) :
    (s.endCcw key residual goOn next branch).pending = s.pending := by
  simp [State.endCcw]

@[simp] theorem State.ccwEnded_pending (s : State) (key residual : Nat) : (s.ccwEnded key residual).pending = s.pending := by
  simp [State.ccwEnded]

@[simp] theorem State.engRead_pending (s : State) (key : Nat) (x : Slot) (a n : Nat) :
    (s.engRead key x a n).1.pending = s.pending := by
  simp [State.engRead]

@[simp] theorem State.engHostRead_pending (s : State) (key addr len : Nat) (spec : Bool) :
    (s.engHostRead key addr len spec).pending = s.pending := by
  simp [State.engHostRead]

@[simp] theorem State.addItem_pending (s : State) (key a : Nat) (d : List Byte) : (s.addItem key a d).pending = s.pending := by
  simp [State.addItem]

@[simp] theorem State.passDigest_pending (s : State) (key : Nat) (d : List Byte) : (s.passDigest key d).pending = s.pending := by
  simp [State.passDigest]

@[simp] theorem operationEnd_pending (s : State) (key : Nat) : (operationEnd s key).pending = s.pending := by
  fun_cases operationEnd s key <;> simp

/-! ## Machine/Ccw -/

@[simp] theorem State.speculate_pending (s : State) (key : Nat) : (s.speculate key).pending = s.pending := by
  simp [State.speculate]

@[simp] theorem State.toLocalTime_pending (s : State) (key : Nat) : (s.toLocalTime key).pending = s.pending := rfl

@[simp] theorem State.enterLocal_pending (s : State) (key : Nat) : (s.enterLocal key).pending = s.pending := by
  simp [State.enterLocal]

@[simp] theorem State.enterWhen_pending (s : State) (key : Nat) : (s.enterWhen key).pending = s.pending := by
  simp [State.enterWhen]

/-- The state in which a read of an operand or of data leaves the machine. -/
def Got.state : Got → State
  | .bytes s _ _ => s
  | .wait s => s
  | .fail s _ => s

@[simp] theorem Got.state_bytes (s : State) (d : List Byte) (p : Bool) : (Got.bytes s d p).state = s := rfl
@[simp] theorem Got.state_wait (s : State) : (Got.wait s).state = s := rfl
@[simp] theorem Got.state_fail (s : State) (c : Check) : (Got.fail s c).state = s := rfl

/-- The state in which a read of a CCW leaves the machine. -/
def Fetched.state : Fetched → State
  | .got s _ => s
  | .wait s => s
  | .fail s _ => s

@[simp] theorem Fetched.state_got (s : State) (c : Ccw) : (Fetched.got s c).state = s := rfl
@[simp] theorem Fetched.state_wait (s : State) : (Fetched.wait s).state = s := rfl
@[simp] theorem Fetched.state_fail (s : State) (c : Check) : (Fetched.fail s c).state = s := rfl

@[simp] theorem State.fetchBytes_pending (s : State) (key : Nat) (a : Quad) (n : Nat) :
    (s.fetchBytes key a n).state.pending = s.pending := by
  unfold State.fetchBytes
  dsimp only
  split
  · split <;> simp
  split
  · simp
  split
  · split <;> simp
  split
  · simp
  split <;> simp

theorem State.fetchBytes_bytes {s t : State} {key : Nat} {a : Quad} {n : Nat} {d : List Byte} {p : Bool}
    (h : s.fetchBytes key a n = .bytes t d p) : t.pending = s.pending := by
  simpa [h] using s.fetchBytes_pending key a n

theorem State.fetchBytes_wait {s t : State} {key : Nat} {a : Quad} {n : Nat} (h : s.fetchBytes key a n = .wait t) :
    t.pending = s.pending := by
  simpa [h] using s.fetchBytes_pending key a n

theorem State.fetchBytes_fail {s t : State} {key : Nat} {a : Quad} {n : Nat} {c : Check} (h : s.fetchBytes key a n = .fail t c) :
    t.pending = s.pending := by
  simpa [h] using s.fetchBytes_pending key a n

@[simp] theorem State.fetchAlone_pending (s : State) (key : Nat) (a : Quad) : (s.fetchAlone key a).state.pending = s.pending := by
  have h := s.fetchBytes_pending key a 16
  fun_cases State.fetchAlone s key a <;> simp_all

@[simp] theorem State.fetchCcw_pending (s : State) (key : Nat) (a : Quad) : (s.fetchCcw key a).state.pending = s.pending := by
  unfold State.fetchCcw
  dsimp only
  split
  · rfl
  split
  · simp
  split
  · split <;> simp
  split
  · simp
  split
  · split <;> simp
  split
  · rfl
  split
  · rfl
  split <;> simp

@[simp] theorem State.readBlock_pending (s : State) (key : Nat) (a : Quad) (n : Nat) :
    (s.readBlock key a n).state.pending = s.pending := by
  have h := s.fetchBytes_pending key (a + BitVec.ofNat 64 (s.slot key).w.block.length) (n - (s.slot key).w.block.length)
  fun_cases State.readBlock s key a n <;> simp_all +zetaDelta

theorem State.readBlock_bytes {s t : State} {key : Nat} {a : Quad} {n : Nat} {d : List Byte} {p : Bool}
    (h : s.readBlock key a n = .bytes t d p) : t.pending = s.pending := by
  simpa [h] using s.readBlock_pending key a n

@[simp] theorem State.addrChecks_pending (s : State) (key : Nat) (x : Slot) (rsv al : Bool) (rs : List (Quad × Nat)) :
    (s.addrChecks key x rsv al rs).state.pending = s.pending := by
  fun_cases State.addrChecks s key x rsv al rs <;> simp

@[simp] theorem State.step10_pending (s : State) (key : Nat) : (s.step10 key).state.pending = s.pending := by
  fun_cases State.step10 s key <;>
    grind [→ State.readBlock_bytes, State.readBlock_pending, State.addrChecks_pending, Got.state_bytes, Got.state_fail]

theorem State.hostWrite_pending {s t : State} {f addr : Nat} {d : List Byte} {ro poisoned : Bool}
    (h : s.hostWrite f addr d ro poisoned = some t) : t.pending = s.pending := by
  revert h
  fun_cases State.hostWrite s f addr d ro poisoned <;> rintro ⟨⟩ <;> simp

theorem State.storeBytes_pending {s t : State} {key : Nat} {a : Quad} {d : List Byte} {p : Bool}
    (h : s.storeBytes key a d p = some t) : t.pending = s.pending := by
  revert h
  fun_cases State.storeBytes s key a d p <;> intro h
  · cases h; rfl
  · cases h; simp
  · simpa using State.hostWrite_pending h

/-! ## Machine/Rings -/

theorem State.reserve_pending {s t : State} {cq f : Nat} {b : Bool} (h : s.reserve cq f = some (b, t)) :
    t.pending = s.pending := by
  revert h
  fun_cases State.reserve s cq f <;> rintro ⟨⟩ <;> simp

@[simp] theorem State.afterChecks_pending (s : State) (key : Nat) : (s.afterChecks key).pending = s.pending := by
  have h := s.step10_pending key
  fun_cases State.afterChecks s key <;> simp_all +zetaDelta

@[simp] theorem State.takeSnapshot_pending (s : State) (key : Nat) (c : Ccw) : (s.takeSnapshot key c).pending = s.pending := by
  fun_cases State.takeSnapshot s key c <;> simp +zetaDelta

@[simp] theorem State.memberFails_pending (s : State) (key : Nat) (c : Check) (count : Nat) :
    (s.memberFails key c count).pending = s.pending := by
  simp [State.memberFails]

@[simp] theorem State.nextMember_pending (s : State) (key : Nat) (c : Ccw) : (s.nextMember key c).pending = s.pending := rfl

@[simp] theorem State.memberPasses_pending (s : State) (key : Nat) : (s.memberPasses key).pending = s.pending := by
  fun_cases State.memberPasses s key <;> simp +zetaDelta

@[simp] theorem State.memberStep10_pending (s : State) (key : Nat) : (s.memberStep10 key).pending = s.pending := by
  have h := s.step10_pending key
  fun_cases State.memberStep10 s key <;> simp_all +zetaDelta

@[simp] theorem State.checkMember_pending (s : State) (key : Nat) (c : Ccw) : (s.checkMember key c).pending = s.pending := by
  fun_cases State.checkMember s key c <;> simp

@[simp] theorem State.readRecord_pending (s : State) (key : Nat) : (s.readRecord key).1.pending = s.pending := by
  fun_cases State.readRecord s key <;> simp +zetaDelta

@[simp] theorem stationAcquire_pending (s : State) (key : Nat) : (stationAcquire s key).pending = s.pending := by
  have h := s.readRecord_pending key
  fun_cases stationAcquire s key <;> simp_all +zetaDelta

theorem State.fetchCcw_got {s t : State} {key : Nat} {a : Quad} {c : Ccw} (h : s.fetchCcw key a = .got t c) :
    t.pending = s.pending := by
  simpa [h] using s.fetchCcw_pending key a

theorem State.fetchCcw_wait {s t : State} {key : Nat} {a : Quad} (h : s.fetchCcw key a = .wait t) : t.pending = s.pending := by
  simpa [h] using s.fetchCcw_pending key a

theorem State.fetchCcw_fail {s t : State} {key : Nat} {a : Quad} {c : Check} (h : s.fetchCcw key a = .fail t c) :
    t.pending = s.pending := by
  simpa [h] using s.fetchCcw_pending key a

theorem State.readRecord_eq {s t : State} {key : Nat} {b : Bool} (h : s.readRecord key = (t, b)) : t.pending = s.pending := by
  simpa [h] using s.readRecord_pending key

@[simp] theorem ccwFetch_pending (s : State) (key : Nat) : (ccwFetch s key).pending = s.pending := by
  fun_cases ccwFetch s key <;>
    grind [→ State.fetchCcw_got, → State.fetchCcw_wait, → State.fetchCcw_fail, → State.readRecord_eq, State.memberFails_pending,
      State.checkMember_pending, State.memberStep10_pending, State.afterChecks_pending, State.setSlot_pending,
      State.endOp_pending, State.takeSnapshot_pending]

@[simp] theorem whenMet_pending (s : State) (key : Nat) : (whenMet s key).pending = s.pending := by simp [whenMet]
@[simp] theorem windowEnd_pending (s : State) (key : Nat) : (windowEnd s key).pending = s.pending := by simp [windowEnd]

@[simp] theorem hostReadCompletion_pending (s : State) (key : Nat) (res : HostResult) :
    (hostReadCompletion s key res).pending = s.pending := by
  unfold hostReadCompletion
  dsimp only
  split
  · rfl
  cases res <;> simp

@[simp] theorem State.endPulse_pending (s : State) (l : Nat) : (s.endPulse l).pending = s.pending := by
  fun_cases State.endPulse s l <;> simp

@[simp] theorem State.launch_pending (s : State) (key g : Nat) : (s.launch key g).pending = s.pending := by simp [State.launch]
@[simp] theorem State.countLaunch_pending (s : State) (key : Nat) : (s.countLaunch key).pending = s.pending := rfl

@[simp] theorem State.strikeAction_pending (s : State) (k l act param : Nat) :
    (s.strikeAction k l act param).1.pending = s.pending := by
  fun_cases State.strikeAction s k l act param <;> simp +zetaDelta

theorem State.foldl_fst_pending {α β : Type} {f : State × β → α → State × β} (hf : ∀ p x, (f p x).1.pending = p.1.pending)
    (l : List α) (p : State × β) : (l.foldl f p).1.pending = p.1.pending := by
  induction l generalizing p with
  | nil => rfl
  | cons x l ih => rw [List.foldl_cons, ih, hf]

@[simp] theorem strikeActionEffect_pending (s : State) (g : Nat) : (strikeActionEffect s g).pending = s.pending := by
  unfold strikeActionEffect
  split
  · rfl
  split
  · rfl
  simp [State.foldl_fst_pending]

@[simp] theorem pulseEnd_pending (s : State) (l : Nat) : (pulseEnd s l).pending = s.pending := by fun_cases pulseEnd s l <;> simp

@[simp] theorem State.loadXfer_pending (s : State) (key : Nat) : (s.loadXfer key).pending = s.pending := by
  fun_cases State.loadXfer s key <;> simp +zetaDelta

@[simp] theorem State.memberDone_pending (s : State) (key : Nat) : (s.memberDone key).pending = s.pending := by
  simp [State.memberDone]

@[simp] theorem State.finishData_pending (s : State) (key : Nat) (how : XferEnd) :
    (s.finishData key how).pending = s.pending := by
  simp [State.finishData]

@[simp] theorem State.dataProgress_pending (s : State) (key : Nat) : (s.dataProgress key).pending = s.pending := by
  fun_cases State.dataProgress s key <;> simp

theorem State.takeBytes_eq {s t : State} {q n : Nat} {r : List Byte × Bool} (h : s.takeBytes q n = (t, r)) :
    t.pending = s.pending := by
  simpa [h] using s.takeBytes_pending q n

@[simp] theorem State.dataOut_pending (s : State) (key k : Nat) : (s.dataOut key k).pending = s.pending := by
  induction k generalizing s with
  | zero => rfl
  | succ k ih =>
    rw [State.dataOut]
    dsimp only
    split
    · rfl
    split
    · rfl
    split
    · simp [ih]
    split
    · exact State.fetchBytes_wait ‹_›
    · simp [State.fetchBytes_fail ‹_›]
    · have h := State.fetchBytes_bytes ‹_›
      split <;> simp [ih, h]

/-- What stands for the store of a CCW: nothing where the data go nowhere. -/
theorem State.storeUnless_pending {s t : State} {void : Bool} {key : Nat} {a : Quad} {d : List Byte} {p : Bool}
    (h : (if void = true then some s else s.storeBytes key a d p) = some t) : t.pending = s.pending := by
  split at h
  · cases h; rfl
  · exact State.storeBytes_pending h

@[simp] theorem State.dataIn_pending (s : State) (key k : Nat) : (s.dataIn key k).pending = s.pending := by
  induction k generalizing s with
  | zero => rfl
  | succ k ih =>
    rw [State.dataIn]
    extract_lets asks s1 off void
    split
    · rfl
    have h1 : s1.pending = s.pending := by simp [s1]
    split
    · exact h1
    split
    · simp [h1]
    split
    split
    next ht =>
    have h2 := (State.takeBytes_eq ht).trans h1
    dsimp only
    split
    · simp [h2]
    next hs =>
    have h3 := (State.storeUnless_pending hs).trans h2
    split
    · simp [h3]
    split <;> simp [ih, h3]

@[simp] theorem State.dataCommand_pending (s : State) (key : Nat) : (s.dataCommand key).pending = s.pending := by
  unfold State.dataCommand
  extract_lets x s1 y out s2
  have h1 : s1.pending = s.pending := by simp [s1]
  have hout : out.pending = s.pending := by simp [out, h1]
  split
  · exact h1
  simp only [State.dataProgress_pending, State.timerUpdate_pending, s2]
  split <;> simp [h1, hout]

@[simp] theorem State.bareRun_pending (s : State) (key : Nat) : (s.bareRun key).pending = s.pending := by
  fun_cases State.bareRun s key <;> simp +zetaDelta

@[simp] theorem State.stationRun_pending (s : State) (key : Nat) : (s.stationRun key).pending = s.pending := by
  simp [State.stationRun]

@[simp] theorem writeCcw_pending (s : State) (key : Nat) : (writeCcw s key).pending = s.pending := by simp [writeCcw]
@[simp] theorem readCcw_pending (s : State) (key : Nat) : (readCcw s key).pending = s.pending := by simp [readCcw]
@[simp] theorem controlCcw_pending (s : State) (key : Nat) : (controlCcw s key).pending = s.pending := by simp [controlCcw]
@[simp] theorem writeReadCcw_pending (s : State) (key : Nat) : (writeReadCcw s key).pending = s.pending := by simp [writeReadCcw]

@[simp] theorem stationCommand_pending (s : State) (key : Nat) : (stationCommand s key).pending = s.pending := by
  simp [stationCommand]

@[simp] theorem State.senseStore_pending (s : State) (key k : Nat) : (s.senseStore key k).pending = s.pending := by
  induction k generalizing s with
  | zero => rfl
  | succ k ih =>
    rw [State.senseStore]
    dsimp only
    split
    · rfl
    split
    · simp
    split
    · simp
    · simp [ih, State.storeUnless_pending ‹_›]

@[simp] theorem State.senseEnd_pending (s : State) (key : Nat) (how : XferEnd) : (s.senseEnd key how).pending = s.pending := rfl
@[simp] theorem senseCcw_pending (s : State) (key : Nat) : (senseCcw s key).pending = s.pending := by simp [senseCcw]

@[simp] theorem State.branchTo_pending (s : State) (key : Nat) (a : Quad) : (s.branchTo key a).pending = s.pending := by
  simp [State.branchTo]

@[simp] theorem jumpCcw_pending (s : State) (key : Nat) : (jumpCcw s key).pending = s.pending := by simp [jumpCcw]
@[simp] theorem jumpIfCcw_pending (s : State) (key : Nat) : (jumpIfCcw s key).pending = s.pending := by simp [jumpIfCcw]

@[simp] theorem loopCcw_pending (s : State) (key : Nat) : (loopCcw s key).pending = s.pending := by
  fun_cases loopCcw s key <;> simp

@[simp] theorem waitCcw_pending (s : State) (key : Nat) : (waitCcw s key).pending = s.pending := by simp [waitCcw]
@[simp] theorem strikeCcw_pending (s : State) (key : Nat) : (strikeCcw s key).pending = s.pending := by simp [strikeCcw]
@[simp] theorem State.moveCount_pending (s : State) (key n : Nat) : (s.moveCount key n).pending = s.pending := rfl
@[simp] theorem State.drawBytes_pending (s : State) (n : Nat) : (s.drawBytes n).2.pending = s.pending := rfl

@[simp] theorem State.movePoisoned_pending (s : State) (key : Nat) (dst : Quad) (n : Nat) :
    (s.movePoisoned key dst n).pending = s.pending := by
  unfold State.movePoisoned
  dsimp only
  split
  · simp
  · simp [State.storeBytes_pending ‹_›]

@[simp] theorem moveCcw_pending (s : State) (key : Nat) : (moveCcw s key).pending = s.pending := by
  fun_cases moveCcw s key <;>
    grind [→ State.storeBytes_pending, → State.fetchBytes_bytes, → State.fetchBytes_wait, → State.fetchBytes_fail,
      State.endOp_pending, State.movePoisoned_pending, State.checkNow_pending, State.moveCount_pending, State.ccwEnded_pending]

@[simp] theorem compareCcw_pending (s : State) (key : Nat) : (compareCcw s key).pending = s.pending := by
  have h := s.fetchBytes_pending key (leQuad (s.slot key).w.block) (ccwCount (s.slot key).ccw)
  fun_cases compareCcw s key <;> simp_all +zetaDelta

@[simp] theorem postCcw_pending (s : State) (key : Nat) : (postCcw s key).pending = s.pending := by
  unfold postCcw
  split
  · dsimp only
    split
    · simp
    · simp [State.storeBytes_pending ‹_›]
  · rfl

@[simp] theorem shapeCcw_pending (s : State) (key : Nat) : (shapeCcw s key).pending = s.pending := by
  fun_cases shapeCcw s key <;> simp +zetaDelta

@[simp] theorem signalCcw_pending (s : State) (key : Nat) : (signalCcw s key).pending = s.pending := by simp [signalCcw]
@[simp] theorem fenceCcw_pending (s : State) (key : Nat) : (fenceCcw s key).pending = s.pending := by simp [fenceCcw]
@[simp] theorem nopCcw_pending (s : State) (key : Nat) : (nopCcw s key).pending = s.pending := by simp [nopCcw]
@[simp] theorem State.deliver_pending (s : State) (owner : Nat) (u : List Byte) : (s.deliver owner u).pending = s.pending := rfl

@[simp] theorem State.enterScan_pending (s : State) (g f : Nat) : (s.enterScan g f).pending = s.pending := by
  simp [State.enterScan]

@[simp] theorem State.queueError_pending (s : State) (g f code : Nat) : (s.queueError g f code).pending = s.pending := by
  simp [State.queueError]

@[simp] theorem State.consume_pending (s : State) (g n : Nat) : (s.consume g n).pending = s.pending := by simp [State.consume]

@[simp] theorem State.redeem_pending (s : State) (cq : Nat) (e : Entry) (inRing : Bool) :
    (s.redeem cq e inRing).pending = s.pending :=
  rfl

@[simp] theorem State.holdStart_pending (s : State) (g f : Nat) (st : Start) : (s.holdStart g f st).pending = s.pending := by
  simp [State.holdStart]

@[simp] theorem State.notify_pending (s : State) (g f n : Nat) (tag : Word) : (s.notify g f n tag).pending = s.pending := by
  unfold State.notify
  dsimp only
  split
  · simp
  · simp [State.reserve_pending ‹_›]

@[simp] theorem State.actOn_pending (s : State) (g f : Nat) (us : List (List Byte)) : (s.actOn g f us).pending = s.pending := by
  unfold State.actOn
  dsimp only
  split
  · split
    · simp
    split
    · simp
    · simp [State.reserve_pending ‹_›]
  · simp

@[simp] theorem State.reread_pending (s : State) (g f u : Nat) : (s.reread g f u).pending = s.pending := by simp [State.reread]

@[simp] theorem State.dropBadUnits_pending (s : State) (g : Nat) : (s.dropBadUnits g).pending = s.pending := by
  simp [State.dropBadUnits]

@[simp] theorem State.scanTurn_pending (s : State) (g f : Nat) : (s.scanTurn g f).pending = s.pending := by
  fun_cases State.scanTurn s g f <;> simp +zetaDelta

@[simp] theorem State.scanReturn_pending (s : State) (g f i : Nat) (res : HostResult) :
    (s.scanReturn g f i res).pending = s.pending := by
  unfold State.scanReturn
  dsimp only
  split
  · rfl
  cases res <;> simp

@[simp] theorem scanReadReturn_pending (s : State) (g : Nat) (ret : Option (Nat × HostResult)) :
    (scanReadReturn s g ret).pending = s.pending := by
  unfold scanReadReturn
  split
  · simp
  · split <;> simp

@[simp] theorem State.ringRung_pending (s : State) (f i : Nat) : (s.ringRung f i).pending = s.pending := by simp [State.ringRung]

@[simp] theorem State.ringDoorbell_pending (s : State) (f i : Nat) : (s.ringDoorbell f i).pending = s.pending := by
  simp [State.ringDoorbell]

@[simp] theorem queueResume_pending (s : State) (g : Nat) : (queueResume s g).pending = s.pending := by
  unfold queueResume
  split <;> simp

@[simp] theorem wqFence_pending (s : State) (g : Nat) : (wqFence s g).pending = s.pending := by
  fun_cases wqFence s g <;> grind [→ State.reserve_pending, State.roomUpdate_pending, State.enterScan_pending,
    State.consume_pending, State.redeem_pending]

@[simp] theorem State.decided_pending (s : State) (g len : Nat) : (s.decided g len).pending = s.pending := by
  fun_cases State.decided s g len <;> simp +zetaDelta

@[simp] theorem State.countVerdict_pending (s : State) (v : Verdict) : (s.countVerdict v).pending = s.pending := by
  unfold State.countVerdict
  split <;> simp

@[simp] theorem State.sendBack_pending (s : State) (st : Start) : (s.sendBack st).pending = s.pending := by simp [State.sendBack]

@[simp] theorem admissionDecision_pending (s : State) : (admissionDecision s).pending = s.pending := by
  fun_cases admissionDecision s <;> simp +zetaDelta

@[simp] theorem State.ceaStop_pending (s : State) : s.ceaStop.pending = s.pending := by simp [State.ceaStop]
@[simp] theorem State.ceaConsume_pending (s : State) (n : Nat) : (s.ceaConsume n).pending = s.pending := rfl

@[simp] theorem State.ceaScan_pending (s : State) (n : Nat) : (s.ceaScan n).pending = s.pending := by
  fun_induction State.ceaScan s n <;> simp_all +zetaDelta

@[simp] theorem State.ceaScanOn_pending (s : State) : s.ceaScanOn.pending = s.pending := by simp [State.ceaScanOn]

@[simp] theorem ceAAdmission_pending (s : State) : (ceAAdmission s).pending = s.pending := by
  unfold ceAAdmission
  split
  · rfl
  split
  · rfl
  rw [State.ceaScanOn_pending, State.ceaConsume_pending]
  split
  · rfl
  · split <;> simp -implicitDefEqProofs

@[simp] theorem State.ceaDoorbell_pending (s : State) : s.ceaDoorbell.pending = s.pending := by simp [State.ceaDoorbell]
@[simp] theorem State.ceaCtrl_pending (s : State) (v : Word) : (s.ceaCtrl v).pending = s.pending := by simp [State.ceaCtrl]
@[simp] theorem State.ceaCqHead_pending (s : State) (v : Word) : (s.ceaCqHead v).pending = s.pending := by simp [State.ceaCqHead]
@[simp] theorem ceAStall_pending (s : State) : (ceAStall s).pending = s.pending := by fun_cases ceAStall s <;> simp +zetaDelta
@[simp] theorem State.qmCfgErr_pending (s : State) (f : Nat) : (s.qmCfgErr f).pending = s.pending := rfl

@[simp] theorem State.ringEnable_pending (s : State) (f g : Nat) : (s.ringEnable f g).pending = s.pending := by
  simp [State.ringEnable]

@[simp] theorem State.ringDisable_pending (s : State) (f g : Nat) : (s.ringDisable f g).pending = s.pending := by
  simp [State.ringDisable]

@[simp] theorem State.ringRestart_pending (s : State) (f g : Nat) : (s.ringRestart f g).pending = s.pending := by
  simp [State.ringRestart]

@[simp] theorem State.shareWrite_pending (s : State) (f : Nat) (v : Word) : (s.shareWrite f v).pending = s.pending := by
  simp [State.shareWrite]

/-! ## Machine/Halt -/

@[simp] theorem State.dropXfer_pending (s : State) (l : Nat) (t : Xfer) : (s.dropXfer l t).pending = s.pending := by
  simp [State.dropXfer]

@[simp] theorem State.reachBoundary_pending (s : State) (l : Nat) (t : Xfer) : (s.reachBoundary l t).pending = s.pending := by
  simp [State.reachBoundary]

@[simp] theorem State.stopKernel_pending (s : State) (key : Nat) : (s.stopKernel key).pending = s.pending := rfl

@[simp] theorem State.endOnRequest_pending (s : State) (key : Nat) (clear : Bool) :
    (s.endOnRequest key clear).pending = s.pending := by
  simp [State.endOnRequest]

@[simp] theorem State.haltTransfer_pending (s : State) (key : Nat) : (s.haltTransfer key).pending = s.pending := by
  fun_cases State.haltTransfer s key <;> simp +zetaDelta

@[simp] theorem State.memoryStep_pending (s : State) (key : Nat) : (s.memoryStep key).pending = s.pending := by
  simp [State.memoryStep]

@[simp] theorem State.haltMemory_pending (s : State) (key : Nat) : (s.haltMemory key).pending = s.pending := by
  simp [State.haltMemory]

@[simp] theorem haltSlot_pending (s : State) (key : Nat) : (haltSlot s key).pending = s.pending := by
  fun_cases haltSlot s key <;> simp +zetaDelta

@[simp] theorem State.clearHalting_pending (s : State) (key : Nat) : (s.clearHalting key).pending = s.pending := by
  simp [State.clearHalting]

@[simp] theorem clearSlot_pending (s : State) (key : Nat) : (clearSlot s key).pending = s.pending := by
  fun_cases clearSlot s key <;> simp +zetaDelta

@[simp] theorem suspendSlot_pending (s : State) (key : Nat) : (suspendSlot s key).pending = s.pending := by simp [suspendSlot]
@[simp] theorem resumeSlot_pending (s : State) (key : Nat) : (resumeSlot s key).pending = s.pending := by simp [resumeSlot]

@[simp] theorem stopBoundaryTimeout_pending (s : State) (key : Nat) : (stopBoundaryTimeout s key).pending = s.pending := by
  fun_cases stopBoundaryTimeout s key <;> simp

@[simp] theorem responseTimeout_pending (s : State) (key : Nat) : (responseTimeout s key).pending = s.pending := by
  simp [responseTimeout]

@[simp] theorem busyClaimExhausted_pending (s : State) (key : Nat) : (busyClaimExhausted s key).pending = s.pending := by
  simp [busyClaimExhausted]

@[simp] theorem deadlineMiss_pending (s : State) (key : Nat) : (deadlineMiss s key).pending = s.pending := by
  simp -implicitDefEqProofs [deadlineMiss]

@[simp] theorem shapeLate_pending (s : State) (key : Nat) : (shapeLate s key).pending = s.pending := by
  unfold shapeLate
  split <;> simp

@[simp] theorem lockstepMismatch_pending (s : State) (e : Nat) : (lockstepMismatch s e).pending = s.pending := by
  simp [lockstepMismatch]

@[simp] theorem State.lockstepEnd_pending (s : State) (key : Nat) : (s.lockstepEnd key).pending = s.pending := by
  simp [State.lockstepEnd]

@[simp] theorem sequencerResetDone_pending (s : State) (e : Nat) : (sequencerResetDone s e).pending = s.pending := by
  simp [sequencerResetDone]

@[simp] theorem completionTimeout_pending (s : State) (f : Nat) (who : ReadOwner) :
    (completionTimeout s f who).pending = s.pending := by
  unfold completionTimeout
  split <;> simp

@[simp] theorem State.sendOn_pending (s : State) (key i : Nat) : (s.sendOn key i).pending = s.pending := by
  fun_cases State.sendOn s key i <;> simp

@[simp] theorem State.slotSendOn_pending (s : State) (key : Nat) : (s.slotSendOn key).pending = s.pending := by
  simp [State.slotSendOn]

@[simp] theorem State.ringSendOn_pending (s : State) (g : Nat) : (s.ringSendOn g).pending = s.pending := by
  unfold State.ringSendOn
  split
  · rfl
  split
  · rfl
  dsimp only
  simp only [State.ite_pending, State.headRead_pending, ite_self]
  refine State.foldl_pending (fun t i => ?_) _ s
  split <;> simp

@[simp] theorem State.sendWaiting_pending (s : State) : s.sendWaiting.pending = s.pending := by simp [State.sendWaiting]

@[simp] theorem State.ackSleep_pending (s : State) (q : SleepRequest) : (s.ackSleep q).pending = s.pending := by
  unfold State.ackSleep
  split <;> simp

@[simp] theorem sleepFlush_pending (s : State) (q : SleepRequest) : (sleepFlush s q).pending = s.pending := by simp [sleepFlush]

@[simp] theorem flushAckTimeout_pending (s : State) (q : SleepRequest) : (flushAckTimeout s q).pending = s.pending := by
  simp [flushAckTimeout]

/-! ## Machine/Samples -/

@[simp] theorem State.jEdge_pending (s : State) (l : Nat) (level : Bool) : (s.jEdge l level).pending = s.pending := by
  simp [State.jEdge]

@[simp] theorem State.jTempo_pending (s : State) (n pos : Nat) : (s.jTempo n pos).pending = s.pending := by simp [State.jTempo]

@[simp] theorem State.jSamplesOut_pending (s : State) (e : Nat × Nat × Nat × Nat × List Nat) :
    (s.jSamplesOut e).pending = s.pending := by
  simp [State.jSamplesOut]

@[simp] theorem State.jSamplesEnd_pending (s : State) (l : Nat) : (s.jSamplesEnd l).pending = s.pending := by
  unfold State.jSamplesEnd
  split <;> simp

@[simp] theorem State.jSample_pending (s : State) (l w v : Nat) : (s.jSample l w v).pending = s.pending := by
  unfold State.jSample
  extract_lets s1 old e
  have h1 : s1.pending = s.pending := by
    simp only [s1]
    split
    · split <;> simp
    · rfl
  exact h1

@[simp] theorem State.jSamplesDue_pending (s : State) : s.jSamplesDue.pending = s.pending := by simp [State.jSamplesDue]

@[simp] theorem State.jItem_pending (s : State) (l : Nat) (inbound : Bool) (r : ItemResult) :
    (s.jItem l inbound r).pending = s.pending := by
  cases r <;> simp [State.jItem]

@[simp] theorem State.jLastT_pending (s : State) (l : Nat) : (s.jLastT l).pending = s.pending := rfl

@[simp] theorem State.jXferEnd_pending (s : State) (l : Nat) (how : XferEnd) : (s.jXferEnd l how).pending = s.pending := by
  simp [State.jXferEnd]

/-! ## Machine/Lanes -/

@[simp] theorem State.unitCheck_pending (s : State) (key reason : Nat) : (s.unitCheck key reason).pending = s.pending := by
  simp [State.unitCheck]

@[simp] theorem State.flowFault_pending (s : State) (l : Nat) (under : Bool) : (s.flowFault l under).pending = s.pending := by
  fun_cases State.flowFault s l under <;> simp +zetaDelta

@[simp] theorem State.transferEnd_pending (s : State) (l : Nat) (t : Xfer) (how : XferEnd) (ux : Bool) :
    (s.transferEnd l t how ux).pending = s.pending := by
  simp [State.transferEnd]

@[simp] theorem stationTransferEnd_pending (s : State) (st : Nat) (how : XferEnd) :
    (stationTransferEnd s st how).pending = s.pending := by
  fun_cases stationTransferEnd s st how <;> simp

@[simp] theorem uartBreak_pending (s : State) (l : Nat) : (uartBreak s l).pending = s.pending := by
  unfold uartBreak
  split <;> simp

@[simp] theorem State.itemDone_pending (s : State) (l : Nat) : (s.itemDone l).pending = s.pending := by
  unfold State.itemDone
  split <;> simp

@[simp] theorem State.countSlot_pending (s : State) (l : Nat) : (s.countSlot l).pending = s.pending := by simp [State.countSlot]

@[simp] theorem State.pushItem_pending (s : State) (l : Nat) (v : Word) : (s.pushItem l v).pending = s.pending := by
  simp [State.pushItem]

@[simp] theorem State.sendItem_pending (s : State) (l : Nat) (d : List Byte) : (s.sendItem l d).pending = s.pending := by
  simp [State.sendItem]

@[simp] theorem State.outMoved_pending (s : State) (l key n : Nat) (t : Xfer) : (s.outMoved l key n t).pending = s.pending := by
  simp [State.outMoved]

@[simp] theorem State.itemOut_pending (s : State) (l : Nat) (t : Xfer) (nack : Bool) :
    (s.itemOut l t nack).pending = s.pending := by
  fun_cases State.itemOut s l t nack <;> grind [→ State.takeBytes_eq, State.flowFault_pending, State.emit_pending,
    State.transferEnd_pending, State.endOp_pending, State.unitCheck_pending, State.senseFlag_pending, State.sendItem_pending,
    State.setSlot_pending, State.outMoved_pending]

theorem itemIn_taken {s : State} {out : Bool} {q : Nat} {r : State × List Byte × Bool}
    (h : (if out = true then s.takeBytes q 1 else (s, [], false)) = r) : r.1.pending = s.pending := by
  subst h
  split <;> simp

@[simp] theorem State.itemIn_pending (s : State) (l : Nat) (t : Xfer) (v : Word) : (s.itemIn l t v).pending = s.pending := by
  unfold State.itemIn
  extract_lets fn n pauses s1 x y
  split
  · simp
  split
  · rfl
  split
  · rfl
  split
  · simp [s1]
  split
  · rfl
  split
  next hd =>
  have h1 := itemIn_taken hd
  dsimp only at h1
  extract_lets s2 fits s3
  have h3 : s3.pending = s.pending := by simp [s3, s2, h1]
  split
  · simp [h1]
  split
  · exact h3
  split
  · exact h3
  · simp [h3]

@[simp] theorem State.strayFault_pending (s : State) (l : Nat) : (s.strayFault l).pending = s.pending := by
  fun_cases State.strayFault s l <;> simp +zetaDelta

@[simp] theorem laneItem_pending (s : State) (l : Nat) (inbound : Bool) (r : ItemResult) :
    (laneItem s l inbound r).pending = s.pending := by
  unfold laneItem
  extract_lets fn
  split
  · rfl
  cases (s.lane l).xfer with
  | none => cases r <;> simp
  | some t =>
    dsimp only
    split
    · rfl
    cases r with
    | moved v =>
      cases inbound with
      | true =>
        simp only [reduceIte]
        split
        · rfl
        split
        · simp
        split <;> simp
      | false =>
        simp only [reduceIte, Bool.false_eq_true]
        split
        · rfl
        cases t.lead <;> simp
    | _ => simp

@[simp] theorem replayLaneItem_pending (s : State) (l : Nat) (inbound : Bool) :
    (replayLaneItem s l inbound).pending = s.pending := by
  fun_cases replayLaneItem s l inbound <;> simp +zetaDelta

@[simp] theorem streamIdleClose_pending (s : State) (l : Nat) : (streamIdleClose s l).pending = s.pending := by
  simp [streamIdleClose]

@[simp] theorem State.laneReturn_pending (s : State) (l : Nat) : (s.laneReturn l).pending = s.pending := by
  simp [State.laneReturn]

@[simp] theorem State.laneReturns_pending (s : State) : s.laneReturns.pending = s.pending := by simp [State.laneReturns]

@[simp] theorem State.pwmTick_pending (s : State) (l : Nat) : (s.pwmTick l).pending = s.pending := by
  fun_cases State.pwmTick s l <;> simp

@[simp] theorem State.pwmTicks_pending (s : State) : s.pwmTicks.pending = s.pending := by simp [State.pwmTicks]
@[simp] theorem State.attend_pending (s : State) (st : Nat) : (s.attend st).pending = s.pending := by simp [State.attend]

@[simp] theorem attentionEvent_pending (s : State) (st : Nat) (k : AttnKind) : (attentionEvent s st k).pending = s.pending := by
  unfold attentionEvent
  split
  · simp
  · split <;> simp

@[simp] theorem ibi_pending (s : State) (st : Nat) (payload : List Byte) : (ibi s st payload).pending = s.pending := by simp [ibi]
@[simp] theorem State.rbErr_pending (s : State) (l : Nat) : (s.rbErr l).pending = s.pending := by simp [State.rbErr]

@[simp] theorem readbackFault_pending (s : State) (l : Nat) : (readbackFault s l).pending = s.pending := by
  fun_cases readbackFault s l <;> simp +zetaDelta

@[simp] theorem State.forceSafe_pending (s : State) : s.forceSafe.pending = s.pending := by simp [State.forceSafe]
@[simp] theorem State.releaseSafe_pending (s : State) : s.releaseSafe.pending = s.pending := by simp [State.releaseSafe]
@[simp] theorem State.pgCmCtrl_pending (s : State) (v : Word) : (s.pgCmCtrl v).pending = s.pending := by simp [State.pgCmCtrl]
@[simp] theorem safenLow_pending (s : State) : (safenLow s).pending = s.pending := by simp [safenLow]
@[simp] theorem safenHigh_pending (s : State) : (safenHigh s).pending = s.pending := by simp [safenHigh]

/-! ## Machine/Tempo -/

@[simp] theorem State.slotLoses_pending (s : State) (key n : Nat) : (s.slotLoses key n).pending = s.pending := by
  simp [State.slotLoses]

@[simp] theorem State.lossSlots_pending (s : State) (n : Nat) : (s.lossSlots n).pending = s.pending := by simp [State.lossSlots]
@[simp] theorem State.srcLose_pending (s : State) (n p : Nat) : (s.srcLose n p).pending = s.pending := by simp [State.srcLose]
@[simp] theorem State.srcOff_pending (s : State) (n : Nat) : (s.srcOff n).pending = s.pending := by simp [State.srcOff]

@[simp] theorem State.srcInputOff_pending (s : State) (n : Nat) : (s.srcInputOff n).pending = s.pending := by
  simp [State.srcInputOff]

@[simp] theorem State.srcOn_pending (s : State) (n : Nat) : (s.srcOn n).pending = s.pending := rfl

@[simp] theorem State.boundary_pending (s : State) (n at_ : Nat) : (s.boundary n at_).pending = s.pending := by
  fun_cases State.boundary s n at_ <;> simp +zetaDelta

@[simp] theorem State.countedEdge_pending (s : State) (n at_ : Nat) : (s.countedEdge n at_).pending = s.pending := by
  simp [State.countedEdge]

@[simp] theorem State.stableEdge_pending (s : State) (n at_ : Nat) (rising : Bool) :
    (s.stableEdge n at_ rising).pending = s.pending := by
  fun_cases State.stableEdge s n at_ rising <;> simp +zetaDelta

@[simp] theorem inputEdge_pending (s : State) (n : Nat) (rising : Bool) : (inputEdge s n rising).pending = s.pending := by
  fun_cases inputEdge s n rising <;> simp

@[simp] theorem State.settleEdge_pending (s : State) (n : Nat) : (s.settleEdge n).pending = s.pending := by
  unfold State.settleEdge
  split <;> simp

@[simp] theorem State.settleEdges_pending (s : State) : s.settleEdges.pending = s.pending := by simp [State.settleEdges]
@[simp] theorem sourceOverdue_pending (s : State) (n : Nat) : (sourceOverdue s n).pending = s.pending := by simp [sourceOverdue]

@[simp] theorem holdoverExpiry_pending (s : State) (n : Nat) : (holdoverExpiry s n).pending = s.pending := by
  simp [holdoverExpiry]

@[simp] theorem State.setTsync_pending (s : State) (b : Bool) : (s.setTsync b).pending = s.pending := rfl

@[simp] theorem hostTimeUpdate_pending (s : State) (t : Nat) : (hostTimeUpdate s t).pending = s.pending := by
  simp [hostTimeUpdate]

@[simp] theorem hostSyncLoss_pending (s : State) : (hostSyncLoss s).pending = s.pending := by simp [hostSyncLoss]

@[simp] theorem dupCounterMismatch_pending (s : State) (n other : Nat) : (dupCounterMismatch s n other).pending = s.pending := by
  simp [dupCounterMismatch]

@[simp] theorem tempoClockChange_pending (s : State) : (tempoClockChange s).pending = s.pending := by
  fun_cases tempoClockChange s <;> simp -implicitDefEqProofs +zetaDelta

/-! ## Machine/Access -/

@[simp] theorem State.refuse_pending (s : State) (m : Master) (a : Nat) : (s.refuse m a).pending = s.pending := by
  unfold State.refuse
  split <;> simp

@[simp] theorem State.refuseReins_pending (s : State) (m : Master) (a : Nat) : (s.refuseReins m a).pending = s.pending := by
  simp [State.refuseReins]

@[simp] theorem State.plainWrite_pending (s : State) (a : Nat) (v : Word) (cfg : Nat) :
    (s.plainWrite a v cfg).pending = s.pending := by
  unfold State.plainWrite
  split <;> simp

/-! ## Machine/QueueRegs -/

@[simp] theorem doorbell_pending (s : State) (f i : Nat) : (doorbell s f i).pending = s.pending := by simp [doorbell]

@[simp] theorem State.regRow_pending {f : State → State} (hf : ∀ t, (f t).pending = t.pending) (s : State) (m : Master)
    (a : Nat) (v : Word) : (s.regRow m a v f).pending = s.pending := by
  fun_cases State.regRow s m a v f <;> simp [hf]

@[simp] theorem State.readRow_pending {f : State → State × Word} (hf : ∀ t, (f t).1.pending = t.pending) (s : State)
    (m : Master) (a : Nat) : (s.readRow m a f).pending = s.pending := by
  unfold State.readRow
  split <;> simp [hf]

@[simp] theorem State.ringCmd_pending (s : State) (m : Master) (f code : Nat) : (s.ringCmd m f code).pending = s.pending := by
  refine State.regRow_pending (fun t => ?_) s m _ _
  split <;> simp

@[simp] theorem State.ceaCtrlRow_pending (s : State) (v : Word) : (s.ceaCtrlRow v).pending = s.pending := by
  simp [State.ceaCtrlRow]

@[simp] theorem State.srcCfgWrite_pending (s : State) (n : Nat) (v : Word) : (s.srcCfgWrite n v).pending = s.pending := by
  simp [State.srcCfgWrite]

@[simp] theorem State.positionRead_pending (s : State) (m n : Nat) : (s.positionRead m n).1.pending = s.pending := by
  simp -implicitDefEqProofs [State.positionRead]

@[simp] theorem State.dueStrike_pending (s : State) (g key : Nat) : (s.dueStrike g key).pending = s.pending := by
  simp [State.dueStrike]

@[simp] theorem State.sgWrite_pending (s : State) (g : Nat) (v : Word) : (s.sgWrite g v).pending = s.pending := by
  simp [State.sgWrite]

@[simp] theorem State.actWrite_pending (s : State) (i : Nat) (v : Word) : (s.actWrite i v).pending = s.pending := by
  simp [State.actWrite]

/-! ## Machine/PortRegs -/

@[simp] theorem State.tempoLanes_pending (s : State) (l : Nat) : (s.tempoLanes l).pending = s.pending := by
  simp [State.tempoLanes]

@[simp] theorem State.place_pending (s : State) (p fn : Nat) : (s.place p fn).pending = s.pending := by
  simp -implicitDefEqProofs [State.place]

@[simp] theorem State.pgCfgErr_pending (s : State) (l : Nat) : (s.pgCfgErr l).pending = s.pending := by simp [State.pgCfgErr]

@[simp] theorem State.laneFnWrite_pending (s : State) (l : Nat) (v : Word) : (s.laneFnWrite l v).pending = s.pending := by
  simp [State.laneFnWrite]

@[simp] theorem State.laneCfgWrite_pending (s : State) (l : Nat) (v : Word) : (s.laneCfgWrite l v).pending = s.pending := by
  simp [State.laneCfgWrite]

@[simp] theorem State.laneTimWrite_pending (s : State) (l : Nat) (v : Word) : (s.laneTimWrite l v).pending = s.pending := by
  simp [State.laneTimWrite]

@[simp] theorem State.pgCtrlWrite_pending (s : State) (n : Nat) (v : Word) : (s.pgCtrlWrite n v).pending = s.pending := by
  simp [State.pgCtrlWrite]

@[simp] theorem State.cmCfgErr_pending (s : State) : s.cmCfgErr.pending = s.pending := by simp [State.cmCfgErr]

@[simp] theorem State.storeDesc_pending (s : State) (n : Nat) (x : Station) : (s.storeDesc n x).pending = s.pending := by
  simp [State.storeDesc]

@[simp] theorem State.descWrite_pending (s : State) (n w : Nat) (v : Word) : (s.descWrite n w v).pending = s.pending := by
  unfold State.descWrite
  split <;> simp

@[simp] theorem State.profileWrite_pending (s : State) (p w : Nat) (v : Word) : (s.profileWrite p w v).pending = s.pending := by
  simp [State.profileWrite]

@[simp] theorem State.sfCfgWrite_pending (s : State) (q : Nat) (v : Word) : (s.sfCfgWrite q v).pending = s.pending := by
  simp [State.sfCfgWrite]

@[simp] theorem State.alwaysOnLimits_pending (s : State) : s.alwaysOnLimits.pending = s.pending := by simp [State.alwaysOnLimits]

@[simp] theorem vioRemoved_pending (s : State) (n : Nat) : (vioRemoved s n).pending = s.pending := by
  simp -implicitDefEqProofs [vioRemoved]

/-! ## Machine/HostPort -/

@[simp] theorem State.setLinkCap_pending (s : State) : s.setLinkCap.pending = s.pending := rfl
@[simp] theorem State.setLink_pending (s : State) (tun dl : Bool) (cl : Nat) : (s.setLink tun dl cl).pending = s.pending := rfl
@[simp] theorem State.carry_pending (s : State) : s.carry.pending = s.pending := by simp [State.carry]

@[simp] theorem linkTrained_pending (s : State) (gen3 two : Bool) : (linkTrained s gen3 two).pending = s.pending := by
  fun_cases linkTrained s gen3 two <;> simp +zetaDelta

@[simp] theorem tunnelPause_pending (s : State) (why : PauseWhy) : (tunnelPause s why).pending = s.pending := by
  simp [tunnelPause]

@[simp] theorem State.slotFnReset_pending (s : State) (key : Nat) : (s.slotFnReset key).pending = s.pending := by
  simp [State.slotFnReset]

@[simp] theorem State.ringDisabled_pending (s : State) (g : Nat) : (s.ringDisabled g).pending = s.pending := by
  simp [State.ringDisabled]

@[simp] theorem State.ringFnReset_pending (s : State) (g : Nat) : (s.ringFnReset g).pending = s.pending := rfl

@[simp] theorem State.fnResetStart_pending (s : State) (f : Nat) : (s.fnResetStart f).pending = s.pending := by
  simp [State.fnResetStart]

@[simp] theorem State.fnResetTwo_pending (s : State) (f : Nat) : (s.fnResetTwo f).pending = s.pending := by
  simp -implicitDefEqProofs [State.fnResetTwo]

@[simp] theorem State.fnResetsTwo_pending (s : State) : s.fnResetsTwo.pending = s.pending := by simp [State.fnResetsTwo]

@[simp] theorem State.cfgSpaceReset_pending (s : State) (f : Nat) : (s.cfgSpaceReset f).pending = s.pending := by
  simp [State.cfgSpaceReset]

@[simp] theorem flrStart_pending (s : State) (f : Nat) : (flrStart s f).pending = s.pending := by simp [flrStart]

@[simp] theorem State.fnResetWrite_pending (s : State) (f : Nat) (v : Word) : (s.fnResetWrite f v).pending = s.pending := by
  simp [State.fnResetWrite]

@[simp] theorem State.cutSlot_pending (s : State) (key : Nat) : (s.cutSlot key).pending = s.pending := by simp [State.cutSlot]

@[simp] theorem State.disarmOwned_pending (s : State) (f : Nat) : (s.disarmOwned f).pending = s.pending := by
  simp [State.disarmOwned]

@[simp] theorem State.fnBoxReset_pending (s : State) (f : Nat) : (s.fnBoxReset f).pending = s.pending := rfl

@[simp] theorem State.fnResetFinish_pending (s : State) (f : Nat) : (s.fnResetFinish f).pending = s.pending := by
  simp -implicitDefEqProofs [State.fnResetFinish]

@[simp] theorem functionResetEnd_pending (s : State) (f : Nat) : (functionResetEnd s f).pending = s.pending := by
  unfold functionResetEnd
  split <;> simp

@[simp] theorem tunnelLoss_pending (s : State) : (tunnelLoss s).pending = s.pending := by simp [tunnelLoss]
@[simp] theorem liveLoss_pending (s : State) : (liveLoss s).pending = s.pending := by simp [liveLoss]
@[simp] theorem State.loseTunnel_pending (s : State) : s.loseTunnel.pending = s.pending := by simp [State.loseTunnel]

@[simp] theorem tunnelResume_pending (s : State) : (tunnelResume s).pending = s.pending := by
  unfold tunnelResume
  split <;> simp

@[simp] theorem State.linkTick_pending (s : State) : s.linkTick.pending = s.pending := by simp [State.linkTick]
@[simp] theorem cl2Request_pending (s : State) (router : Bool) : (cl2Request s router).pending = s.pending := by simp [cl2Request]
@[simp] theorem State.ptmStart_pending (s : State) : s.ptmStart.pending = s.pending := by simp [State.ptmStart]

@[simp] theorem State.powerState_pending (s : State) (f ps : Nat) : (s.powerState f ps).pending = s.pending := by
  simp [State.powerState]

@[simp] theorem powerStateWrite_pending (s : State) (f ps : Nat) : (powerStateWrite s f ps).pending = s.pending := by
  simp [powerStateWrite]

@[simp] theorem configWrite_pending (s : State) (f off : Nat) (v : Word) : (configWrite s f off v).pending = s.pending := by
  simp [configWrite]

@[simp] theorem ptmDialogue_pending (s : State) : (ptmDialogue s).pending = s.pending := by simp [ptmDialogue]

@[simp] theorem State.ptmWrite_pending (s : State) (r : Option Quad) (f : Nat) : (s.ptmWrite r f).pending = s.pending := by
  unfold State.ptmWrite
  split <;> simp

@[simp] theorem ptmDialogueDone_pending (s : State) (r : Option Quad) : (ptmDialogueDone s r).pending = s.pending := by
  simp [ptmDialogueDone]

/-! ## Machine/Interrupts -/

@[simp] theorem State.dropCommits_pending (s : State) (p n : Nat) : (s.dropCommits p n).pending = s.pending := rfl
@[simp] theorem State.claim_pending (s : State) (p n q : Nat) : (s.claim p n q).1.pending = s.pending := by simp [State.claim]
@[simp] theorem State.wfiClaim_pending (s : State) (p n : Nat) : (s.wfiClaim p n).pending = s.pending := by simp [State.wfiClaim]
@[simp] theorem State.completeIrq_pending (s : State) (n : Nat) : (s.completeIrq n).pending = s.pending := rfl
@[simp] theorem State.icRaise_pending (s : State) (v : Word) : (s.icRaise v).pending = s.pending := by simp [State.icRaise]

@[simp] theorem candidateCommit_pending (s : State) (p : Nat) : (candidateCommit s p).pending = s.pending := by
  unfold candidateCommit
  repeat' split
  all_goals simp

@[simp] theorem State.wakenSet_pending (s : State) : s.wakenSet.pending = s.pending := rfl

@[simp] theorem State.raiseReq_pending (s : State) (lo m : Nat) : (s.raiseReq lo m).pending = s.pending := by
  simp [State.raiseReq]

@[simp] theorem State.wakeEvent_pending (s : State) (i : Nat) (always : Bool) : (s.wakeEvent i always).pending = s.pending := by
  fun_cases State.wakeEvent s i always <;> simp +zetaDelta

@[simp] theorem State.icComplete_pending (s : State) (m p : Nat) (v : Word) : (s.icComplete m p v).pending = s.pending := by
  simp -implicitDefEqProofs [State.icComplete]

@[simp] theorem State.icClaim_pending (s : State) (m : Master) : (s.icClaim m).1.pending = s.pending := by
  unfold State.icClaim
  split
  · simp
  · split <;> simp

@[simp] theorem State.crossFn_pending (s : State) (f : Nat) : (s.crossFn f).pending = s.pending := by simp [State.crossFn]
@[simp] theorem State.crossHalves_pending (s : State) : s.crossHalves.pending = s.pending := by simp [State.crossHalves]
@[simp] theorem State.fillBox_pending (s : State) (b : Nat) (v : Word) : (s.fillBox b v).pending = s.pending := rfl

@[simp] theorem State.boxRefused_pending (s : State) (m : Master) (a cause box : Nat) :
    (s.boxRefused m a cause box).pending = s.pending := by
  simp -implicitDefEqProofs [State.boxRefused]

@[simp] theorem State.hostBoxWrite_pending (s : State) (f : Nat) (v : Word) : (s.hostBoxWrite f v).pending = s.pending := by
  simp [State.hostBoxWrite]

@[simp] theorem State.fnBoxWrite_pending (s : State) (m : Master) (f : Nat) (v : Word) :
    (s.fnBoxWrite m f v).pending = s.pending := by
  simp [State.fnBoxWrite]

@[simp] theorem State.p2cWrite_pending (s : State) (m : Master) (v : Word) : (s.p2cWrite m v).pending = s.pending := by
  simp [State.p2cWrite]

@[simp] theorem State.c2pWrite_pending (s : State) (m : Master) (v : Word) : (s.c2pWrite m v).pending = s.pending := by
  simp [State.c2pWrite]

@[simp] theorem State.boxWrite_pending (s : State) (m : Master) (b : Nat) (v : Word) :
    (s.boxWrite m b v).pending = s.pending := by
  simp [State.boxWrite]

@[simp] theorem State.boxRead_pending (s : State) (b : Nat) : (s.boxRead b).1.pending = s.pending := by
  unfold State.boxRead
  split <;> simp

@[simp] theorem State.lockRead_pending (s : State) (m n : Nat) : (s.lockRead m n).1.pending = s.pending := by
  fun_cases State.lockRead s m n <;> simp

@[simp] theorem State.lockWrite_pending (s : State) (m n : Nat) (v : Word) : (s.lockWrite m n v).pending = s.pending := by
  simp -implicitDefEqProofs [State.lockWrite]

@[simp] theorem State.releaseLocks_pending (s : State) (m : Nat) : (s.releaseLocks m).pending = s.pending := by
  simp [State.releaseLocks]

@[simp] theorem State.freeLocks_pending (s : State) : s.freeLocks.pending = s.pending := rfl

/-! ## Machine/ShapeOps -/

@[simp] theorem State.scLoad_pending (s : State) (c : Nat) (x : ScCore) (a n : Nat) :
    (s.scLoad c x a n).1.pending = s.pending := by
  unfold State.scLoad
  split
  · rfl
  dsimp only
  split <;> simp [apply_ite Prod.fst]

@[simp] theorem State.shapeDone_pending (s : State) (key : Nat) (e : KernelEnd) : (s.shapeDone key e).pending = s.pending := by
  simp [State.shapeDone]

@[simp] theorem State.scFree_pending (s : State) (c : Nat) : (s.scFree c).pending = s.pending := rfl

@[simp] theorem State.scRecord_pending (s : State) (c : Nat) (e : ScExc) : (s.scRecord c e).pending = s.pending := by
  simp -implicitDefEqProofs [State.scRecord]

@[simp] theorem State.scFinish_pending (s : State) (c : Nat) : (s.scFinish c).pending = s.pending := by
  fun_cases State.scFinish s c <;> simp

@[simp] theorem State.scExcept_pending (s : State) (c : Nat) (e : ScExc) : (s.scExcept c e).pending = s.pending := by
  simp [State.scExcept]

@[simp] theorem State.hwcheck_pending (s : State) (r : Report) : (s.hwcheck r).pending = s.pending := by simp [State.hwcheck]

@[simp] theorem State.scReturn_pending (s : State) (c : Nat) (x : ScCore) : (s.scReturn c x).pending = s.pending := by
  simp [State.scReturn]

@[simp] theorem State.dmaIn_pending (s : State) (c : Nat) (d : Dma) : (s.dmaIn c d).pending = s.pending := by simp [State.dmaIn]

@[simp] theorem State.dmaOut_pending (s : State) (c sys dmem len k : Nat) : (s.dmaOut c sys dmem len k).pending = s.pending := by
  fun_induction State.dmaOut s c sys dmem len k <;> simp_all +zetaDelta

@[simp] theorem dmaComplete_pending (s : State) (c : Nat) : (dmaComplete s c).pending = s.pending := by
  unfold dmaComplete
  split <;> simp

@[simp] theorem State.scStart_pending (s : State) (c : Nat) (r : ShapeReq) : (s.scStart c r).pending = s.pending := rfl
@[simp] theorem State.qwait_pending (s : State) (r : ShapeReq) : (s.qwait r).pending = s.pending := by simp [State.qwait]
@[simp] theorem State.shapeOrphans_pending (s : State) : s.shapeOrphans.pending = s.pending := by simp [State.shapeOrphans]

@[simp] theorem shapeDispatch_pending (s : State) : (shapeDispatch s).pending = s.pending := by
  unfold shapeDispatch
  repeat' split
  all_goals simp

@[simp] theorem klimitReached_pending (s : State) (c : Nat) : (klimitReached s c).pending = s.pending := by
  unfold klimitReached
  split <;> simp

@[simp] theorem kernelStop_pending (s : State) (c : Nat) : (kernelStop s c).pending = s.pending := by simp [kernelStop]
@[simp] theorem State.scCfgErr_pending (s : State) (c : Nat) : (s.scCfgErr c).pending = s.pending := by simp [State.scCfgErr]

@[simp] theorem State.scCtrl_pending (s : State) (c : Nat) (v : Word) : (s.scCtrl c v).pending = s.pending := by
  unfold State.scCtrl
  extract_lets x s1 s2
  have h2 : s2.pending = s.pending := by
    simp only [s2]
    split <;> simp [s1]
  split
  · simp
  · simp [h2]

@[simp] theorem State.scStoreWord_pending (s : State) (c : Nat) (k : ScStore) (off : Nat) (v : Word) :
    (s.scStoreWord c k off v).pending = s.pending :=
  rfl

@[simp] theorem State.dmemStore_pending (s : State) (c : Nat) (v : Word) : (s.dmemStore c v).pending = s.pending := by
  simp [State.dmemStore]

@[simp] theorem dmemData_pending (s : State) (m : Master) (c : Nat) (op : RegOp) : (dmemData s m c op).pending = s.pending := by
  unfold dmemData
  extract_lets a adr step dis
  split
  · simp
  · exact State.readRow_pending (fun t => by simp [step, apply_ite Prod.fst]) s m a

@[simp] theorem State.windowStore_pending (s : State) (c off : Nat) (v : Word) : (s.windowStore c off v).pending = s.pending := by
  unfold State.windowStore
  split <;> simp

@[simp] theorem windowAccess_pending (s : State) (m : Master) (c off size : Nat) (op : RegOp) :
    (windowAccess s m c off size op).pending = s.pending := by
  unfold windowAccess
  split
  · rfl
  extract_lets a whole
  split
  · simp
  · exact State.readRow_pending (fun t => by simp [apply_ite Prod.fst]) s m a

@[simp] theorem State.wfiTake_pending (s : State) (c : Nat) : (s.wfiTake c).pending = s.pending := by
  unfold State.wfiTake
  split <;> simp

@[simp] theorem interruptDelivery_pending (s : State) (p : Nat) : (interruptDelivery s p).pending = s.pending := by
  unfold interruptDelivery
  split <;> simp

/-- The state in which an instruction leaves the machine. -/
def ScDone.state : ScDone → State
  | .seq s _ => s
  | .jump s _ => s
  | .fin s _ => s
  | .stall s _ => s
  | .exc s _ => s

@[simp] theorem ScDone.state_seq (s : State) (x : ScCore) : (ScDone.seq s x).state = s := rfl
@[simp] theorem ScDone.state_jump (s : State) (x : ScCore) : (ScDone.jump s x).state = s := rfl
@[simp] theorem ScDone.state_fin (s : State) (x : ScCore) : (ScDone.fin s x).state = s := rfl
@[simp] theorem ScDone.state_stall (s : State) (x : ScCore) : (ScDone.stall s x).state = s := rfl
@[simp] theorem ScDone.state_exc (s : State) (e : ScExc) : (ScDone.exc s e).state = s := rfl

@[simp] theorem ScDone.state_ite (p : Prop) [Decidable p] (a b : ScDone) :
    (if p then a else b).state = if p then a.state else b.state :=
  apply_ite ScDone.state p a b

@[simp] theorem State.scExec_pending {f : State → ScCore → Word → ScDone} (hf : ∀ t x w, (f t x w).state.pending = t.pending)
    (s : State) (c : Nat) (want : Word → Bool) : (s.scExec c want f).pending = s.pending := by
  unfold State.scExec
  extract_lets x w
  split
  · rfl
  split
  · simp
  split
  · simp
  split
  · rfl
  have h := hf s x w
  split <;> simp_all

/-! ## Machine/ShapeFlow -/

@[simp] theorem State.sysOp_pending {f : State → ScCore → ScDone} (hf : ∀ t x, (f t x).state.pending = t.pending) (s : State)
    (c fn : Nat) : (s.sysOp c fn f).pending = s.pending :=
  State.scExec_pending (fun t x w => by simp [hf]) s c _

theorem State.scStore_pending {s t : State} {x y : ScCore} {a : Nat} {bs : List Byte} (h : s.scStore x a bs = .ok (t, y)) :
    t.pending = s.pending := by
  revert h
  fun_cases State.scStore s x a bs <;> rintro ⟨⟩ <;> simp

@[simp] theorem State.alu_pending (s : State) (c fn : Nat) (wr useRs2 : Bool) (f : ScCore → Word → Word → AluOut) :
    (s.alu c fn wr useRs2 f).pending = s.pending :=
  State.scExec_pending (fun t x w => by simp) s c _

@[simp] theorem State.aluImm_pending (s : State) (c major : Nat) (wr useRs1 flags : Bool) (f : ScCore → Word → Word → AluOut) :
    (s.aluImm c major wr useRs1 flags f).pending = s.pending :=
  State.scExec_pending (fun t x w => by simp) s c _

@[simp] theorem State.bitOp_pending (s : State) (c fn : Nat) (f : Word → Word) : (s.bitOp c fn f).pending = s.pending :=
  State.scExec_pending (fun t x w => by simp) s c _

@[simp] theorem State.fieldOp_pending (s : State) (c fn : Nat) (useSx : Bool) (f : Word → Word → Nat → Nat → Bool → Word) :
    (s.fieldOp c fn useSx f).pending = s.pending :=
  State.scExec_pending (fun t x w => by simp) s c _

@[simp] theorem State.mac_pending (s : State) (c fn : Nat) (f : ScCore → Int → Word → Word → Int) :
    (s.mac c fn f).pending = s.pending :=
  State.scExec_pending (fun t x w => by simp) s c _

@[simp] theorem State.accOp_pending (s : State) (c fn : Nat) (useRd useRs : Bool) (f : ScCore → Nat → Word → ScCore) :
    (s.accOp c fn useRd useRs f).pending = s.pending :=
  State.scExec_pending (fun t x w => by simp) s c _

theorem State.scLoad_eq {s t : State} {c : Nat} {x : ScCore} {a n : Nat} {r : Except ScExc (List Byte)}
    (h : s.scLoad c x a n = (t, r)) : t.pending = s.pending := by
  simpa [h] using s.scLoad_pending c x a n

@[simp] theorem State.scLd_pending (s : State) (c major n : Nat) (sx : Bool) : (s.scLd c major n sx).pending = s.pending := by
  refine State.scExec_pending (fun t x w => ?_) s c _
  split <;> exact State.scLoad_eq ‹_›

@[simp] theorem State.scSt_pending (s : State) (c major n : Nat) : (s.scSt c major n).pending = s.pending := by
  refine State.scExec_pending (fun t x w => ?_) s c _
  split
  · rfl
  · exact State.scStore_pending ‹_›

@[simp] theorem State.agLoad_pending (s : State) (c : Nat) (x : ScCore) (n esz : Nat) (sx : Bool) :
    (s.agLoad c x n esz sx).1.pending = s.pending := by
  unfold State.agLoad
  extract_lets g size
  split
  · rfl
  split <;> exact State.scLoad_eq ‹_›

theorem State.agStore_pending {s t : State} {x y : ScCore} {n esz : Nat} {v : Word} (h : s.agStore x n esz v = .ok (t, y)) :
    t.pending = s.pending := by
  revert h
  fun_cases State.agStore s x n esz v <;> rintro ⟨⟩
  exact State.scStore_pending ‹_›

@[simp] theorem State.dmaIssue_pending (s : State) (c fn : Nat) (write : Bool) : (s.dmaIssue c fn write).pending = s.pending :=
  State.scExec_pending (fun t x w => by simp) s c _

/-! ## Machine/Vangest -/

@[simp] theorem State.poisonSeen_pending (s : State) (c owner : Nat) (e : ScExc) :
    (s.poisonSeen c owner e).pending = s.pending := by
  simp [State.poisonSeen]

/-! ## Machine/Render -/

@[simp] theorem State.hwRead_pending (s : State) (a n : Nat) : (s.hwRead a n).1.pending = s.pending := by
  simp [State.hwRead, apply_ite Prod.fst]

/-! ## Machine/Memory -/

@[simp] theorem State.coreacc_pending (s : State) (m full a n : Nat) (w : Option (List Byte)) :
    (s.coreacc m full a n w).pending = s.pending := by
  simp [State.coreacc]

@[simp] theorem State.trBusy_pending (s : State) (m : Master) (a : Nat) (meet : Option TrMeet) (write : Bool) :
    (s.trBusy m a meet write).pending = s.pending := by
  unfold State.trBusy
  split <;> simp

@[simp] theorem State.memFetch_pending (s : State) (m : Master) (a n : Nat) (meet : Option TrMeet) :
    (s.memFetch m a n meet).1.pending = s.pending := by
  simp [State.memFetch, apply_ite Prod.fst]

@[simp] theorem State.memLoad_pending (s : State) (m : Master) (full a n : Nat) (k : Acc) (meet : Option TrMeet) :
    (s.memLoad m full a n k meet).pending = s.pending := by
  simp [State.memLoad]

@[simp] theorem State.memStore_pending (s : State) (m : Master) (a : Nat) (d : List Byte) (meet : Option TrMeet) :
    (s.memStore m a d meet).pending = s.pending := by
  simp [State.memStore]

@[simp] theorem State.aliasStore_pending (s : State) (m : Master) (full a : Nat) (set : Bool) (d : List Byte) :
    (s.aliasStore m full a set d).pending = s.pending := by
  fun_cases State.aliasStore s m full a set d <;> simp +zetaDelta

@[simp] theorem aliasWrite_pending (s : State) (m : Master) (a : Nat) (d : List Byte) :
    (aliasWrite s m a d).pending = s.pending := by
  unfold aliasWrite
  split <;> simp

@[simp] theorem coreMemoryAccess_pending (s : State) (m : Master) (a n : Nat) (op : MemOp) (meet : Option TrMeet) :
    (coreMemoryAccess s m a n op meet).pending = s.pending := by
  unfold coreMemoryAccess
  repeat' split
  all_goals simp

@[simp] theorem State.bar2Header_pending (s : State) (a n : Nat) : (s.bar2Header a n).2.pending = s.pending := rfl

@[simp] theorem State.bar2Refuse_pending (s : State) (a r n : Nat) (write : Bool) :
    (s.bar2Refuse a r n write).pending = s.pending := by
  simp [State.bar2Refuse]

@[simp] theorem bar2Word_pending (s : State) (a n : Nat) (op : MemOp) (r len : Nat) :
    (bar2Word s a n op r len).pending = s.pending := by
  unfold bar2Word
  split <;> simp

@[simp] theorem bar2Access_pending (s : State) (a n : Nat) (op : MemOp) : (bar2Access s a n op).pending = s.pending := by
  unfold bar2Access
  repeat' split
  all_goals simp

@[simp] theorem mergeDrain_pending (s : State) (k : Nat) : (mergeDrain s k).pending = s.pending := by
  unfold mergeDrain
  split <;> simp

@[simp] theorem State.scrubWord_pending (s : State) (w : Nat) : (s.scrubWord w).pending = s.pending := by
  fun_cases State.scrubWord s w <;> simp +zetaDelta

@[simp] theorem scrubLine_pending (s : State) (a : Nat) : (scrubLine s a).pending = s.pending := by simp [scrubLine]
@[simp] theorem State.remapCopy_pending (s : State) (a : Nat) : (s.remapCopy a).pending = s.pending := by simp [State.remapCopy]

@[simp] theorem State.remapWrite_pending (s : State) (e : Nat) (v : Word) : (s.remapWrite e v).pending = s.pending := by
  simp [State.remapWrite]

@[simp] theorem State.msInjWrite_pending (s : State) (v : Word) : (s.msInjWrite v).pending = s.pending := by
  simp [State.msInjWrite]

/-! ## Machine/PowerOps -/

@[simp] theorem State.setDom_pending (s : State) (d v : Nat) : (s.setDom d v).pending = s.pending := rfl
@[simp] theorem State.setHolder_pending (s : State) (p : Bool) : (s.setHolder p).pending = s.pending := by simp [State.setHolder]
@[simp] theorem State.handOff_pending (s : State) : s.handOff.pending = s.pending := by simp [State.handOff]
@[simp] theorem State.dropRegs_pending (s : State) (p : Nat → Bool) : (s.dropRegs p).pending = s.pending := rfl

@[simp] theorem State.pgDown_pending (s : State) (n : Nat) : (s.pgDown n).pending = s.pending := by
  simp -implicitDefEqProofs [State.pgDown]

@[simp] theorem State.quadDown_pending (s : State) (k : Nat) : (s.quadDown k).pending = s.pending := by
  simp -implicitDefEqProofs [State.quadDown]

@[simp] theorem State.drainMem_pending (s : State) (k : Nat) : (s.drainMem k).pending = s.pending := by simp [State.drainMem]
@[simp] theorem State.routerDown_pending (s : State) : s.routerDown.pending = s.pending := by simp [State.routerDown]
@[simp] theorem State.mgmtDown_pending (s : State) : s.mgmtDown.pending = s.pending := by simp [State.mgmtDown]
@[simp] theorem State.domOff_pending (s : State) (d : Nat) : (s.domOff d).pending = s.pending := by simp [State.domOff]
@[simp] theorem State.restorePg_pending (s : State) (n : Nat) : (s.restorePg n).pending = s.pending := by simp [State.restorePg]
@[simp] theorem State.setStage_pending (s : State) (n : Nat) : (s.setStage n).pending = s.pending := rfl
@[simp] theorem State.vioDark_pending (s : State) (n : Nat) : (s.vioDark n).pending = s.pending := by simp [State.vioDark]
@[simp] theorem State.vioCheck_pending (s : State) (n : Nat) : (s.vioCheck n).pending = s.pending := by simp [State.vioCheck]

@[simp] theorem State.domArrive_pending (s : State) (d : Nat) : (s.domArrive d).pending = s.pending := by
  fun_cases State.domArrive s d <;> simp +zetaDelta

@[simp] theorem State.rampEnd_pending (s : State) (d : Nat) : (s.rampEnd d).pending = s.pending := by simp [State.rampEnd]
@[simp] theorem State.switchOn_pending (s : State) (d : Nat) : (s.switchOn d).pending = s.pending := rfl
@[simp] theorem State.switchOff_pending (s : State) (d : Nat) : (s.switchOff d).pending = s.pending := by simp [State.switchOff]
@[simp] theorem State.clockStep_pending (s : State) (m : Nat) : (s.clockStep m).pending = s.pending := by simp [State.clockStep]
@[simp] theorem State.powerTo_pending (s : State) (m : Nat) : (s.powerTo m).pending = s.pending := by simp [State.powerTo]

@[simp] theorem State.retarget_pending (s : State) : s.retarget.pending = s.pending := by
  unfold State.retarget
  split <;> simp

@[simp] theorem State.powerStep_pending (s : State) : s.powerStep.pending = s.pending := by simp [State.powerStep]
@[simp] theorem State.admissionOff_pending (s : State) : s.admissionOff.pending = s.pending := rfl

@[simp] theorem State.enterRecovery_pending (s : State) (err : Nat) : (s.enterRecovery err).pending = s.pending := by
  simp [State.enterRecovery]

/-! ## Machine/FaultOps -/

@[simp] theorem State.logPut_pending (s : State) (r : FcRec) : (s.logPut r).pending = s.pending := by simp [State.logPut]

@[simp] theorem State.logRewrite_pending (s : State) (r : FcRec) : (s.logRewrite r).pending = s.pending := by
  simp [State.logRewrite]

@[simp] theorem State.logNew_pending (s : State) (r : FcRec) : (s.logNew r).1.pending = s.pending := by
  simp -implicitDefEqProofs [State.logNew]

@[simp] theorem State.fcReport_pending (s : State) (r : FcRec) : (s.fcReport r).pending = s.pending := by
  fun_cases State.fcReport s r <;> simp

@[simp] theorem State.setOpen_pending (s : State) (k : Nat) (r : Option FcRec) : (s.setOpen k r).pending = s.pending := rfl

@[simp] theorem State.putOpen_pending (s : State) (k : Nat) (r : FcRec) : (s.putOpen k r).pending = s.pending := by
  simp [State.putOpen]

@[simp] theorem State.placeRec_pending (s : State) (r : FcRec) : (s.place_ r).pending = s.pending := by
  fun_cases State.place_ s r <;> simp -implicitDefEqProofs +zetaDelta

@[simp] theorem State.openNew_pending (s : State) (r : FcRec) : (s.openNew r).pending = s.pending := by simp [State.openNew]

@[simp] theorem State.countEvent_pending (s : State) (r : Report) : (s.countEvent r).pending = s.pending := by
  simp [State.countEvent]

@[simp] theorem State.echo_pending (s : State) (r : Report) (w : Shadow) : (s.echo r w).pending = s.pending := by
  simp [State.echo]

@[simp] theorem State.dataRec_pending (s : State) (r : Report) : (s.dataRec r).pending = s.pending := by
  unfold State.dataRec
  split <;> simp

@[simp] theorem State.controlRec_pending (s : State) (r : Report) : (s.controlRec r).pending = s.pending := by
  unfold State.controlRec
  split <;> simp

@[simp] theorem State.classify_pending (s : State) (r : Report) : (s.classify r).pending = s.pending := by
  unfold State.classify
  repeat' split
  all_goals simp

@[simp] theorem State.vmismatch_pending (s : State) (r : Report) : (s.vmismatch r).pending = s.pending := by
  simp [State.vmismatch]

@[simp] theorem State.engineShadow_pending (s : State) (r : Report) : (s.engineShadow r).pending = s.pending := by
  simp [State.engineShadow]

@[simp] theorem State.detect_pending (s : State) (r : Report) : (s.detect r).pending = s.pending := by simp [State.detect]

@[simp] theorem State.postReset_pending (s : State) (w : Shadow) (r : Report) : (s.postReset w r).pending = s.pending := by
  unfold State.postReset
  repeat' split
  all_goals simp

@[simp] theorem State.closeShadow_pending (s : State) : s.closeShadow.pending = s.pending := by
  unfold State.closeShadow
  split <;> simp

/-! ## Machine/ResetOps -/

@[simp] theorem State.setCause_pending (s : State) (scope cause master : Nat) :
    (s.setCause scope cause master).pending = s.pending := by
  fun_cases State.setCause s scope cause master <;> simp -implicitDefEqProofs

@[simp] theorem State.releaseCantle_pending (s : State) (entry : Option Word) : (s.releaseCantle entry).pending = s.pending := rfl
@[simp] theorem State.releasePommel_pending (s : State) (warm : Bool) : (s.releasePommel warm).pending = s.pending := rfl
@[simp] theorem State.savedLimits_pending (s : State) : s.savedLimits.pending = s.pending := by simp [State.savedLimits]
@[simp] theorem State.setMode_pending (s : State) (m : Nat) : (s.setMode m).pending = s.pending := by simp [State.setMode]
@[simp] theorem State.startPower_pending (s : State) : s.startPower.pending = s.pending := by simp [State.startPower]

@[simp] theorem State.startStep_pending (s : State) : s.startStep.pending = s.pending := by
  simp -implicitDefEqProofs [State.startStep]

@[simp] theorem State.bare_pending (s : State) : s.bare.pending = s.pending := rfl
@[simp] theorem State.safenNow_pending (s : State) : s.safenNow.pending = s.pending := by simp [State.safenNow]

@[simp] theorem State.deviceReset_pending (s : State) (cause master : Nat) :
    (s.deviceReset cause master).pending = s.pending := by
  simp [State.deviceReset]

@[simp] theorem State.toOff_pending (s : State) (cause : Nat) : (s.toOff cause).pending = s.pending := rfl
@[simp] theorem State.startUp_pending (s : State) : s.startUp.pending = s.pending := by simp [State.startUp]
@[simp] theorem State.fnBoxesDead_pending (s : State) : s.fnBoxesDead.pending = s.pending := by simp [State.fnBoxesDead]
@[simp] theorem State.pommelIcReset_pending (s : State) : s.pommelIcReset.pending = s.pending := by simp [State.pommelIcReset]

@[simp] theorem State.pommelHalfStart_pending (s : State) (cause master : Nat) (sh : Shadow) :
    (s.pommelHalfStart cause master sh).pending = s.pending := by
  simp [State.pommelHalfStart]

@[simp] theorem State.halfEnd_pending (s : State) : s.halfEnd.pending = s.pending := by simp [State.halfEnd]
@[simp] theorem State.halfStep_pending (s : State) : s.halfStep.pending = s.pending := by simp [State.halfStep]

@[simp] theorem State.cantleStart_pending (s : State) (cause master : Nat) (sh : Shadow) :
    (s.cantleStart cause master sh).pending = s.pending := by
  simp [State.cantleStart]

@[simp] theorem State.cantleStep_pending (s : State) : s.cantleStep.pending = s.pending := by
  unfold State.cantleStep
  repeat' split
  all_goals simp

@[simp] theorem State.ftResets_pending (s : State) (x : FcRec) : (s.ftResets x).pending = s.pending := by simp [State.ftResets]

@[simp] theorem State.ftStep_pending (s : State) : s.ftStep.pending = s.pending := by
  unfold State.ftStep
  split <;> simp

@[simp] theorem State.progress_pending (s : State) : s.progress.pending = s.pending := by simp [State.progress]

/-! ## Machine/Fault -/

@[simp] theorem State.fnReaction_pending (s : State) (f : Nat) (x : FcRec) : (s.fnReaction f x).pending = s.pending := by
  simp [State.fnReaction]

@[simp] theorem State.ftReaction_pending (s : State) (x : FcRec) : (s.ftReaction x).pending = s.pending := by
  simp [State.ftReaction]

@[simp] theorem State.ucReact_pending (s : State) (x : FcRec) : (s.ucReact x).pending = s.pending := by
  unfold State.ucReact
  split <;> simp

@[simp] theorem State.expire_pending (s : State) (x : FcRec) : (s.expire x).1.pending = s.pending := by
  unfold State.expire
  split
  · simp
  · split <;> simp

@[simp] theorem State.runLoose_pending (s : State) : s.runLoose.pending = s.pending := by simp [State.runLoose]
@[simp] theorem State.ftSettle_pending (s : State) : s.ftSettle.pending = s.pending := by simp [State.ftSettle]

@[simp] theorem State.fcSettle_pending (s : State) : s.fcSettle.pending = s.pending := by
  unfold State.fcSettle
  extract_lets s1 s2 s3
  have h2 : s2.pending = s.pending := by
    refine (State.foldl_prod_pending (fun t k r => ?_) _ _).trans s.ftSettle_pending
    cases r with
    | none => rfl
    | some x =>
      dsimp only
      split
      · split <;> simp
      · rfl
  have h3 : s3.pending = s2.pending := State.foldl_pending (fun t x => by simp) _ s2
  exact h3.trans h2

@[simp] theorem State.fcGo_pending (s : State) : s.fcGo.pending = s.pending := by simp [State.fcGo]

@[simp] theorem State.fifoParity_pending (s : State) (r : Report) : (s.fifoParity r).pending = s.pending := by
  fun_cases State.fifoParity s r <;> simp +zetaDelta

@[simp] theorem detection_pending (s : State) (r : Option Report) : (detection s r).pending = s.pending := by
  unfold detection
  split
  · simp
  · split <;> simp

@[simp] theorem State.fcAckSeq_pending (s : State) (v : Nat) : (s.fcAckSeq v).pending = s.pending := by
  unfold State.fcAckSeq
  split <;> simp

@[simp] theorem graceExpiry_pending (s : State) (k : Nat) : (graceExpiry s k).pending = s.pending := by
  unfold graceExpiry
  split <;> simp

@[simp] theorem State.fcCtrlWrite_pending (s : State) (v : Word) : (s.fcCtrlWrite v).pending = s.pending := by
  fun_cases State.fcCtrlWrite s v <;> simp +zetaDelta

@[simp] theorem State.kicked_pending (s : State) (g : Nat) : (s.kicked g).pending = s.pending := rfl

@[simp] theorem State.fcKick_pending (s : State) (m : Master) : (s.fcKick m).pending = s.pending := by
  unfold State.fcKick
  split <;> simp

@[simp] theorem watchdogExpiry_pending (s : State) (cantle : Bool) : (watchdogExpiry s cantle).pending = s.pending := by
  simp [watchdogExpiry]

@[simp] theorem State.injected_pending (s : State) (g d : Nat) : (s.injected g d).pending = s.pending := by simp [State.injected]

@[simp] theorem State.fcInjWrite_pending (s : State) (v : Word) : (s.fcInjWrite v).pending = s.pending := by
  simp [State.fcInjWrite]

@[simp] theorem State.grpClear_pending (s : State) (g : Nat) (v : Word) : (s.grpClear g v).pending = s.pending := by
  simp [State.grpClear]

/-! ## Machine/Power -/

@[simp] theorem State.startTrans_pending (s : State) (t : Nat) : (s.startTrans t).pending = s.pending := by
  simp [State.startTrans]

@[simp] theorem modeTransitionStart_pending (s : State) : (modeTransitionStart s).pending = s.pending := by
  simp [modeTransitionStart]

@[simp] theorem modeTransitionEnd_pending (s : State) : (modeTransitionEnd s).pending = s.pending := by
  unfold modeTransitionEnd
  split <;> simp

@[simp] theorem prepTimeout_pending (s : State) : (prepTimeout s).pending = s.pending := by
  unfold prepTimeout
  split <;> simp

@[simp] theorem State.pmReq_pending (s : State) (m : Master) (v : Word) : (s.pmReq m v).pending = s.pending := by
  unfold State.pmReq
  split <;> simp

@[simp] theorem State.domRequest_pending (s : State) (v : Word) : (s.domRequest v).pending = s.pending := by
  simp [State.domRequest]

@[simp] theorem portGroupDownTimeout_pending (s : State) (n : Nat) : (portGroupDownTimeout s n).pending = s.pending := by
  simp [portGroupDownTimeout]

@[simp] theorem quadDownTimeout_pending (s : State) (k : Nat) : (quadDownTimeout s k).pending = s.pending := by
  simp [quadDownTimeout]

@[simp] theorem linkFail_pending (s : State) : (linkFail s).pending = s.pending := by
  unfold linkFail
  split <;> simp

@[simp] theorem connectionDetect_pending (s : State) : (connectionDetect s).pending = s.pending := by simp [connectionDetect]
@[simp] theorem sidebandDetect_pending (s : State) : (sidebandDetect s).pending = s.pending := by simp [sidebandDetect]

@[simp] theorem State.refuseClaim_pending (s : State) (det owner master : Nat) :
    (s.refuseClaim det owner master).pending = s.pending := by
  simp [State.refuseClaim]

@[simp] theorem State.reins_pending (s : State) (m : Master) (cmd : Nat) : (s.reins m cmd).pending = s.pending := by
  unfold State.reins
  split <;> simp

@[simp] theorem heartbeatLapse_pending (s : State) : (heartbeatLapse s).pending = s.pending := by simp [heartbeatLapse]
@[simp] theorem wakeEventRow_pending (s : State) (i : Nat) : (wakeEventRow s i).pending = s.pending := by simp [wakeEventRow]
@[simp] theorem State.wakeHi_pending (s : State) (v : Word) : (s.wakeHi v).pending = s.pending := rfl
@[simp] theorem State.wakeLo_pending (s : State) (v : Word) : (s.wakeLo v).pending = s.pending := rfl
@[simp] theorem wakeTimerDue_pending (s : State) : (wakeTimerDue s).pending = s.pending := by simp [wakeTimerDue]

@[simp] theorem wakenTimeout_pending (s : State) : (wakenTimeout s).pending = s.pending := by
  unfold wakenTimeout
  split <;> simp

@[simp] theorem patrolPass_pending (s : State) : (patrolPass s).pending = s.pending := by simp [patrolPass]
@[simp] theorem State.svcEnter_pending (s : State) (m : Master) : (s.svcEnter m).pending = s.pending := by simp [State.svcEnter]
@[simp] theorem State.svcExit_pending (s : State) (m : Master) : (s.svcExit m).pending = s.pending := by simp [State.svcExit]
@[simp] theorem State.pmClk_pending (s : State) (v : Word) : (s.pmClk v).pending = s.pending := by simp [State.pmClk]
@[simp] theorem ckAon32MonitorArm_pending (s : State) : (ckAon32MonitorArm s).pending = s.pending := by simp [ckAon32MonitorArm]

@[simp] theorem ckAon32StartTimeout_pending (s : State) : (ckAon32StartTimeout s).pending = s.pending := by
  simp [ckAon32StartTimeout]

@[simp] theorem pllLock_pending (s : State) : (pllLock s).pending = s.pending := by simp [pllLock]

@[simp] theorem powerUpRampEnd_pending (s : State) (d : Nat) : (powerUpRampEnd s d).pending = s.pending := by
  simp [powerUpRampEnd]

@[simp] theorem State.fill_pending (s : State) (d : Nat) : (s.fill d).pending = s.pending := by
  simp -implicitDefEqProofs [State.fill]

@[simp] theorem fillComplete_pending (s : State) (d : Nat) : (fillComplete s d).pending = s.pending := by simp [fillComplete]

theorem State.placeSpare_pending {s t : State} {u w : Nat} (h : s.placeSpare u w = some t) : t.pending = s.pending := by
  revert h
  fun_cases State.placeSpare s u w <;> rintro ⟨⟩
  rfl

@[simp] theorem State.placeSpares_pending (s : State) (u : Nat) (ws : List Nat) : (s.placeSpares u ws).1.pending = s.pending := by
  induction ws generalizing s with
  | nil => rfl
  | cons w ws ih =>
    rw [State.placeSpares]
    split
    · rw [ih, State.placeSpare_pending ‹_›]
    · rfl

@[simp] theorem State.bistFail_pending (s : State) (u : Nat) : (s.bistFail u).pending = s.pending := by
  simp -implicitDefEqProofs [State.bistFail]

@[simp] theorem selftestComplete_pending (s : State) (u : Nat) (failing : List Nat) (checkerOk : Bool) :
    (selftestComplete s u failing checkerOk).pending = s.pending := by
  unfold selftestComplete
  split <;> simp

/-! ## Machine/Boot -/

@[simp] theorem pornLow_pending (s : State) : (pornLow s).pending = s.pending := by simp [pornLow]

@[simp] theorem supplyOutOfRange_pending (s : State) (rail : Nat) : (supplyOutOfRange s rail).pending = s.pending := by
  simp [supplyOutOfRange]

@[simp] theorem fuseLoad_pending (s : State) (r : Option Fuses) : (fuseLoad s r).pending = s.pending := by
  unfold fuseLoad
  split
  · simp
  · split <;> simp

@[simp] theorem State.loaderDone_pending (s : State) : s.loaderDone.pending = s.pending := by simp [State.loaderDone]

@[simp] theorem State.cantleLoaded_pending (s : State) (i : Image) : (s.cantleLoaded i).pending = s.pending := by
  simp [State.cantleLoaded]

@[simp] theorem State.pommelLoaded_pending (s : State) (i : Image) : (s.pommelLoaded i).pending = s.pending := by
  simp [State.pommelLoaded]

@[simp] theorem State.noImage_pending (s : State) (cantle : Bool) (err : Nat) : (s.noImage cantle err).pending = s.pending := by
  simp [State.noImage]

@[simp] theorem bootImageLoaded_pending (s : State) (i : Image) : (bootImageLoaded s i).pending = s.pending := by
  simp [bootImageLoaded]

@[simp] theorem bootFlashTimeout_pending (s : State) : (bootFlashTimeout s).pending = s.pending := by
  unfold bootFlashTimeout
  split <;> simp

@[simp] theorem State.suCtrl_pending (s : State) (m : Master) (v : Word) : (s.suCtrl m v).pending = s.pending := by
  simp [State.suCtrl]

@[simp] theorem warmStart_pending (s : State) (ok : Bool) : (warmStart s ok).pending = s.pending := by simp [warmStart]

@[simp] theorem State.resetScope_pending (s : State) (scope cause master : Nat) :
    (s.resetScope scope cause master).pending = s.pending := by
  simp [State.resetScope]

@[simp] theorem State.suRst_pending (s : State) (m : Nat) (v : Word) : (s.suRst m v).pending = s.pending := by simp [State.suRst]

@[simp] theorem State.resetBy_pending (s : State) (scope : Nat) (by_ : ResetBy) : (s.resetBy scope by_).pending = s.pending := by
  fun_cases State.resetBy s scope by_ <;> simp

/-! ## Machine/Journal -/

@[simp] theorem State.jnCfgErr_pending (s : State) : s.jnCfgErr.pending = s.pending := by simp [State.jnCfgErr]
@[simp] theorem State.jnClear_pending (s : State) : s.jnClear.pending = s.pending := by simp [State.jnClear]

@[simp] theorem State.jnHoldAll_pending (s : State) : s.jnHoldAll.pending = s.pending := by
  unfold State.jnHoldAll
  extract_lets s1 s2
  have h1 : s1.pending = s.pending := State.foldl_pending (fun t x => by simp) _ s
  have h2 : s2.pending = s1.pending := by
    refine State.foldl_pending (fun t g => ?_) _ s1
    dsimp only
    split <;> simp
  simp [h2, h1]

@[simp] theorem State.jnRelease_pending (s : State) : s.jnRelease.pending = s.pending := by
  unfold State.jnRelease
  split
  · rfl
  refine State.foldl_pending (fun t g => ?_) _ s
  dsimp only
  split
  · rfl
  split <;> simp

@[simp] theorem State.jnStart_pending (s : State) : s.jnStart.pending = s.pending := by simp -implicitDefEqProofs [State.jnStart]
@[simp] theorem State.jnStop_pending (s : State) : s.jnStop.pending = s.pending := by simp [State.jnStop]
@[simp] theorem State.jnCmd_pending (s : State) (c : Nat) : (s.jnCmd c).pending = s.pending := by simp [State.jnCmd]

@[simp] theorem State.jnCapture_pending (s : State) : s.jnCapture.pending = s.pending := by
  simp -implicitDefEqProofs [State.jnCapture]

@[simp] theorem quietReached_pending (s : State) : (quietReached s).pending = s.pending := by simp [quietReached]
@[simp] theorem quietTimeout_pending (s : State) : (quietTimeout s).pending = s.pending := by simp [quietTimeout]
@[simp] theorem checkpointDone_pending (s : State) : (checkpointDone s).pending = s.pending := by simp [checkpointDone]
@[simp] theorem State.jnHostWrite_pending (s : State) (a : Nat) (d : List Byte) : (s.jnHostWrite a d).pending = s.pending := rfl
@[simp] theorem State.jnFetch_pending (s : State) : s.jnFetch.pending = s.pending := by simp [State.jnFetch]

@[simp] theorem State.jnTake_pending (s : State) (l : List JRec) : (s.jnTake l).pending = s.pending := by
  unfold State.jnTake
  split <;> simp

@[simp] theorem State.jnStream_pending (s : State) (p : Nat) (b : List Byte) : (s.jnStream p b).pending = s.pending := by
  simp [State.jnStream]

@[simp] theorem State.jnCtlRead_pending (s : State) (off : Nat) : (s.jnCtlRead off).pending = s.pending := rfl
@[simp] theorem prodAnnounce_pending (s : State) : (prodAnnounce s).pending = s.pending := by simp [prodAnnounce]
@[simp] theorem State.jnReject_pending (s : State) : s.jnReject.pending = s.pending := rfl

@[simp] theorem consPoll_pending (s : State) (r : HostResult) : (consPoll s r).pending = s.pending := by
  unfold consPoll
  split <;> simp

@[simp] theorem State.replayEnter_pending (s : State) (m : Master) : (s.replayEnter m).pending = s.pending := by
  simp [State.replayEnter]

@[simp] theorem State.replayFail_pending (s : State) : s.replayFail.pending = s.pending := by simp [State.replayFail]

@[simp] theorem State.replayFinish_pending (s : State) : s.replayFinish.pending = s.pending := by
  simp -implicitDefEqProofs [State.replayFinish]

@[simp] theorem State.replayExit_pending (s : State) (m : Master) : (s.replayExit m).pending = s.pending := by
  simp [State.replayExit]

@[simp] theorem replayStall_pending (s : State) : (replayStall s).pending = s.pending := by simp [replayStall]
@[simp] theorem replayEnd_pending (s : State) (why : ReplayEndWhy) : (replayEnd s why).pending = s.pending := by simp [replayEnd]

@[simp] theorem State.jnCtrlWrite_pending (s : State) (v : Word) : (s.jnCtrlWrite v).pending = s.pending := by
  simp [State.jnCtrlWrite]

@[simp] theorem State.jnSettle_pending (s : State) : s.jnSettle.pending = s.pending := by simp [State.jnSettle]

/-! ## Machine/RegOps -/

@[simp] theorem State.unvalid_pending (s : State) (a : Nat) : (s.unvalid a).pending = s.pending := rfl

@[simp] theorem State.statusWrite_pending (s : State) (a : Nat) (v : Word) : (s.statusWrite a v).pending = s.pending := by
  simp [State.statusWrite]

@[simp] theorem State.pgStatusWrite_pending (s : State) (n : Nat) (v : Word) : (s.pgStatusWrite n v).pending = s.pending := by
  simp [State.pgStatusWrite]

@[simp] theorem State.msStatusWrite_pending (s : State) (v : Word) : (s.msStatusWrite v).pending = s.pending := by
  simp [State.msStatusWrite]

@[simp] theorem State.fnCfgErr_pending (s : State) (f : Nat) : (s.fnCfgErr f).pending = s.pending := rfl
@[simp] theorem State.dictGo_pending (s : State) (v : Word) : (s.dictGo v).pending = s.pending := by simp [State.dictGo]

@[simp] theorem State.fnDictStore_pending (s : State) (a : Nat) (v : Word) : (s.fnDictStore a v).pending = s.pending := by
  simp [State.fnDictStore]

@[simp] theorem State.fnMbCtrl_pending (s : State) (f : Nat) (v : Word) : (s.fnMbCtrl f v).pending = s.pending := by
  simp [State.fnMbCtrl]

@[simp] theorem State.fnStore_pending (s : State) (m : Master) (a : Nat) (v : Word) : (s.fnStore m a v).pending = s.pending := by
  unfold State.fnStore
  split <;> simp

@[simp] theorem State.ringStore_pending (s : State) (f g off : Nat) (v : Word) : (s.ringStore f g off v).pending = s.pending := by
  simp -implicitDefEqProofs [State.ringStore]

@[simp] theorem State.ringCmdWrite_pending (s : State) (m f code : Nat) : (s.ringCmdWrite m f code).pending = s.pending := by
  unfold State.ringCmdWrite
  split <;> simp

@[simp] theorem State.qmStore_pending (s : State) (m : Master) (a : Nat) (v : Word) : (s.qmStore m a v).pending = s.pending := by
  fun_cases State.qmStore s m a v <;> simp -implicitDefEqProofs

@[simp] theorem State.adStore_pending (s : State) (a : Nat) (v : Word) : (s.adStore a v).pending = s.pending := by
  simp [State.adStore]

@[simp] theorem State.ceStore_pending (s : State) (a : Nat) (v : Word) : (s.ceStore a v).pending = s.pending := by
  simp [State.ceStore]

@[simp] theorem State.tpStore_pending (s : State) (a : Nat) (v : Word) : (s.tpStore a v).pending = s.pending := by
  simp [State.tpStore]

@[simp] theorem State.scStore'_pending (s : State) (a : Nat) (v : Word) : (s.scStore' a v).pending = s.pending := by
  simp [State.scStore']

@[simp] theorem State.pgOutWrite_pending (s : State) (n : Nat) (v : Word) : (s.pgOutWrite n v).pending = s.pending := by
  simp [State.pgOutWrite]

@[simp] theorem State.laneSafeWrite_pending (s : State) (l : Nat) (v : Word) : (s.laneSafeWrite l v).pending = s.pending := by
  simp [State.laneSafeWrite]

@[simp] theorem State.pgStore_pending (s : State) (m : Master) (a : Nat) (v : Word) : (s.pgStore m a v).pending = s.pending := by
  fun_cases State.pgStore s m a v <;> simp -implicitDefEqProofs

@[simp] theorem State.sfStore_pending (s : State) (a : Nat) (v : Word) : (s.sfStore a v).pending = s.pending := by
  unfold State.sfStore
  split
  · simp
  · split <;> simp

@[simp] theorem State.remapSel_pending (s : State) (m : Nat) (v : Word) : (s.remapSel m v).pending = s.pending := by
  simp -implicitDefEqProofs [State.remapSel]

@[simp] theorem State.msStore_pending (s : State) (m : Master) (a : Nat) (v : Word) : (s.msStore m a v).pending = s.pending := by
  unfold State.msStore
  split <;> simp

@[simp] theorem State.irqSrcWrite_pending (s : State) (n : Nat) (v : Word) : (s.irqSrcWrite n v).pending = s.pending := by
  simp [State.irqSrcWrite]

@[simp] theorem State.irqSigWrite_pending (s : State) (a : Nat) (v : Word) : (s.irqSigWrite a v).pending = s.pending := by
  simp [State.irqSigWrite]

@[simp] theorem State.icStore_pending (s : State) (m : Master) (a : Nat) (v : Word) : (s.icStore m a v).pending = s.pending := by
  simp [State.icStore]

@[simp] theorem State.mbStore_pending (s : State) (m : Master) (a : Nat) (v : Word) : (s.mbStore m a v).pending = s.pending := by
  simp [State.mbStore]

@[simp] theorem State.fcTailWrite_pending (s : State) (v : Word) : (s.fcTailWrite v).pending = s.pending := rfl

@[simp] theorem State.fcHostWrite_pending (s : State) (v : Word) : (s.fcHostWrite v).pending = s.pending := by
  simp [State.fcHostWrite]

@[simp] theorem State.fcStore_pending (s : State) (m : Master) (a : Nat) (v : Word) : (s.fcStore m a v).pending = s.pending := by
  simp [State.fcStore]

@[simp] theorem State.pmCtrl_pending (s : State) (m : Master) (v : Word) : (s.pmCtrl m v).pending = s.pending := by
  simp [State.pmCtrl]

@[simp] theorem State.pmStore_pending (s : State) (m : Master) (a : Nat) (v : Word) : (s.pmStore m a v).pending = s.pending := by
  unfold State.pmStore
  split <;> simp

@[simp] theorem State.suStore_pending (s : State) (m : Master) (a : Nat) (v : Word) : (s.suStore m a v).pending = s.pending := by
  unfold State.suStore
  split <;> simp

@[simp] theorem State.jnStore_pending (s : State) (a : Nat) (v : Word) : (s.jnStore a v).pending = s.pending := by
  unfold State.jnStore
  split <;> simp

@[simp] theorem State.hpStore_pending (s : State) (a : Nat) (v : Word) : (s.hpStore a v).pending = s.pending := by
  simp [State.hpStore]

@[simp] theorem State.regStore_pending (s : State) (m : Master) (a : Nat) (v : Word) :
    (s.regStore m a v).pending = s.pending := by
  unfold State.regStore
  split <;> simp

@[simp] theorem State.regLoad_pending (s : State) (m : Master) (a : Nat) : (s.regLoad m a).1.pending = s.pending := by
  unfold State.regLoad
  repeat' split
  all_goals simp

@[simp] theorem State.msixWrite_pending (s : State) (f i : Nat) (v : Word) : (s.msixWrite f i v).pending = s.pending := by
  simp [State.msixWrite]

@[simp] theorem State.msixStore_pending (s : State) (f i size : Nat) (v : Quad) :
    (s.msixStore f i size v).pending = s.pending := by
  simp [State.msixStore]

@[simp] theorem State.bar0Write_pending (s : State) (f : Fn) (off size : Nat) (v : Quad) :
    (s.bar0Write f off size v).pending = s.pending := by
  fun_cases State.bar0Write s f off size v <;> simp

@[simp] theorem State.bar0Read_pending (s : State) (f : Fn) (off size : Nat) : (s.bar0Read f off size).pending = s.pending := by
  unfold State.bar0Read
  extract_lets a one bytes w v
  split
  · split
    · split <;> simp
    · simp
    · simp
  · simp

@[simp] theorem State.coreReg_pending (s : State) (m : Master) (a size : Nat) (op : RegOp) :
    (s.coreReg m a size op).pending = s.pending := by
  fun_cases State.coreReg s m a size op <;> simp

@[simp] theorem registerWrite_pending (s : State) (m : Master) (a size : Nat) (op : RegOp) :
    (registerWrite s m a size op).pending = s.pending := by
  fun_cases registerWrite s m a size op <;> simp

/-! ## Machine/DictTable -/

@[simp] theorem State.winBytes_pending (s : State) (off n : Nat) : (s.winBytes off n).1.pending = s.pending := by
  unfold State.winBytes
  rw [State.foldl_fst_pending]
  · simp
  · intro p x
    simp

/-! ## Machine/DictOps -/

theorem State.fwWrite_pending {s t : State} {a : Nat} {v : Word} (h : s.fwWrite a v = .ok t) : t.pending = s.pending := by
  revert h
  fun_cases State.fwWrite s a v <;> rintro ⟨⟩ <;> simp

theorem State.fwWrites_pending {s t : State} {l : List (Nat × Word)} (h : s.fwWrites l = .ok t) : t.pending = s.pending := by
  induction l generalizing s with
  | nil => cases h; rfl
  | cons p l ih =>
    rw [State.fwWrites] at h
    split at h
    · rw [ih h, State.fwWrite_pending ‹_›]
    · cases h

@[simp] theorem State.applyIndex_pending (s : State) (idx : Nat) : (s.applyIndex idx).pending = s.pending := by
  refine State.foldl_prod_pending (fun t a v => ?_) _ s
  dsimp only
  split
  · rfl
  split
  · exact State.fwWrite_pending ‹_›
  · rfl

@[simp] theorem State.setStaging_pending (s : State) (f i v : Nat) : (s.setStaging f i v).pending = s.pending := rfl
@[simp] theorem State.takeVectors_pending (s : State) : s.takeVectors.pending = s.pending := by simp [State.takeVectors]
@[simp] theorem State.dictSave_pending (s : State) : s.dictSave.pending = s.pending := by simp [State.dictSave]
@[simp] theorem State.dictDefaults_pending (s : State) : s.dictDefaults.pending = s.pending := by simp [State.dictDefaults]

@[simp] theorem State.imageSegment_pending (s : State) (cantle : Bool) (d : List Byte) :
    (s.imageSegment cantle d).pending = s.pending := by
  simp [State.imageSegment]

@[simp] theorem State.imageFin_pending (s : State) (cantle : Bool) (i : Image) : (s.imageFin cantle i).1.pending = s.pending := by
  unfold State.imageFin
  split <;> simp

@[simp] theorem State.applyGroup_pending (s : State) (n : Nat) : (s.applyGroup n).pending = s.pending := by
  simp [State.applyGroup]

theorem State.remapPlace_pending {s t : State} {w : Word} (h : s.remapPlace w = .ok t) : t.pending = s.pending := by
  revert h
  fun_cases State.remapPlace s w <;> rintro ⟨⟩ <;> simp

theorem State.remapAll_pending {s t : State} {ws : List Word} (h : s.remapAll ws = .ok t) : t.pending = s.pending := by
  induction ws generalizing s with
  | nil => cases h; rfl
  | cons w ws ih =>
    rw [State.remapAll] at h
    split at h
    · rw [ih h, State.remapPlace_pending ‹_›]
    · cases h

theorem State.dictCommit_pending {s t : State} (h : s.dictCommit = .ok t) : t.pending = s.pending := by
  revert h
  fun_cases State.dictCommit s <;> rintro ⟨⟩
  simp

theorem State.svnRaise_pending {s t : State} {v : Nat} (h : s.svnRaise v = .ok t) : t.pending = s.pending := by
  revert h
  fun_cases State.svnRaise s v <;> rintro ⟨⟩
  simp

theorem State.lifeAdvance_pending {s t : State} {v : Word} (h : s.lifeAdvance v = .ok t) : t.pending = s.pending := by
  revert h
  fun_cases State.lifeAdvance s v <;> rintro ⟨⟩
  simp +zetaDelta

theorem State.keyProgram_pending {s t : State} {d : List Byte} (h : s.keyProgram d = .ok t) : t.pending = s.pending := by
  revert h
  fun_cases State.keyProgram s d <;> rintro ⟨⟩
  simp

theorem State.dictEffect_pending {s t : State} {idx sub : Nat} {e : DEntry} {v : List Byte}
    (h : s.dictEffect idx sub e v = .ok t) : t.pending = s.pending := by
  revert h
  fun_cases State.dictEffect s idx sub e v
  all_goals intro h
  case case1 => exact State.lifeAdvance_pending h
  case case2 => exact State.keyProgram_pending h
  case case3 => exact State.dictCommit_pending h
  case case5 => exact State.svnRaise_pending h
  case case12 => cases h; exact State.remapAll_pending ‹_›
  case case16 | case17 | case23 | case25 | case26 | case33 => exact State.fwWrites_pending h
  all_goals cases h <;> simp

@[simp] theorem State.applyArrays_pending (s : State) (lo hi : Nat) : (s.applyArrays lo hi).pending = s.pending := by
  refine State.foldl_pending (fun t k => ?_) _ s
  split
  · split
    · exact State.dictEffect_pending ‹_›
    · rfl
  · rfl

@[simp] theorem State.applyStations_pending (s : State) : s.applyStations.pending = s.pending := by
  refine State.foldl_pending (fun t k => ?_) _ s
  split
  · rfl
  split
  · split
    · exact State.dictEffect_pending ‹_›
    · rfl
  · rfl

@[simp] theorem State.applySources_pending (s : State) : s.applySources.pending = s.pending := by simp [State.applySources]

/-- What the Cantle firmware does after it has read the staging: its passes over the groups, the arrays and the stations. -/
theorem State.cantleFirmware_eq (s : State) :
    ∃ t : State, t.pending = s.pending ∧ s.cantleFirmware =
      ([0x8000, 0x9000, 0x2200] ++ span 0x8010 48 ++ span 0x2300 64).foldl (fun t i => t.applyIndex i)
        ((((span 0 8).foldl State.applyGroup t).applyArrays 0x6000 0x6040).applyStations.applySources.applyArrays 0x7100 0x7200) := by
  unfold State.cantleFirmware
  extract_lets s1 s2 s3 s4
  refine ⟨s2, ?_, rfl⟩
  refine State.foldl_pending (fun t f => State.foldl_pending (fun u i => ?_) _ t) _ s1
  split
  · rfl
  · exact u.setStaging_pending f i _

@[simp] theorem State.cantleFirmware_pending (s : State) : s.cantleFirmware.pending = s.pending := by
  obtain ⟨t, ht, h⟩ := s.cantleFirmware_eq
  rw [h, State.foldl_pending State.applyIndex_pending, State.applyArrays_pending, State.applySources_pending,
    State.applyStations_pending, State.applyArrays_pending, State.foldl_pending State.applyGroup_pending, ht]

@[simp] theorem State.applyShares_pending (s : State) : s.applyShares.pending = s.pending := by simp [State.applyShares]
@[simp] theorem State.pommelFirmware_pending (s : State) : s.pommelFirmware.pending = s.pending := by simp [State.pommelFirmware]

@[simp] theorem State.firmwareJob_pending (s : State) (j : Nat) : (s.firmwareJob j).pending = s.pending := by
  simp [State.firmwareJob]

@[simp] theorem State.firmware_pending (s : State) : s.firmware.pending = s.pending := by simp [State.firmware]

/-! ## Machine/Dict -/

@[simp] theorem State.setDictMem_pending (s : State) (c : Nat) (x : DictMem) : (s.setDictMem c x).pending = s.pending := rfl

@[simp] theorem State.dictLog_pending (s : State) (k : DictClass) (idx sub res : Nat) :
    (s.dictLog k idx sub res).pending = s.pending := by
  simp [State.dictLog]

@[simp] theorem State.dictChanged_pending (s : State) (key : Nat) : (s.dictChanged key).pending = s.pending := rfl

@[simp] theorem State.dictReset_pending (s : State) (idx sub res : Nat) (v : List Byte) :
    (s.dictReset idx sub res v).pending = s.pending := by
  simp [State.dictReset]

theorem State.winBytes_eq {s t : State} {off n : Nat} {d : List Byte} (h : s.winBytes off n = (t, d)) :
    t.pending = s.pending := by
  simpa [h] using s.winBytes_pending off n

@[simp] theorem State.dictRead_pending (s : State) (q : DictReq) : (s.dictRead q).1.pending = s.pending := by
  fun_cases State.dictRead s q
  case case5 h => exact (State.winBytes_eq h).trans (by simp +zetaDelta)
  all_goals simp +zetaDelta

@[simp] theorem State.dictStage_pending (s : State) (c key : Nat) (im : Option Bool) (bs d : List Byte) :
    (s.dictStage c key im bs d).pending = s.pending := by
  unfold State.dictStage
  split <;> simp

theorem State.dictStore_pending {s t : State} {idx sub : Nat} {e : DEntry} {v : List Byte} (h : s.dictStore idx sub e v = .ok t) :
    t.pending = s.pending := by
  revert h
  fun_cases State.dictStore s idx sub e v
  case case4 u hu =>
    rintro ⟨⟩
    rw [← State.dictEffect_pending hu]
    split <;> rfl
  all_goals rintro ⟨⟩

theorem State.imageFin_eq {s t : State} {cantle : Bool} {i : Image} {r : Nat} (h : s.imageFin cantle i = (t, r)) :
    t.pending = s.pending := by
  simpa [h] using s.imageFin_pending cantle i

theorem State.dictWhole_pending {s t : State} {idx sub : Nat} {e : DEntry} {im : Option Bool} {bs d : List Byte}
    (h : s.dictWhole idx sub e im bs d = .ok t) : t.pending = s.pending := by
  revert h
  fun_cases State.dictWhole s idx sub e im bs d
  · exact State.dictStore_pending
  · rintro ⟨⟩
    rw [State.imageFin_eq ‹_›, State.imageSegment_pending]
  · rintro ⟨⟩

theorem State.dictEnd_pending {s : State} {r : Except Nat State} (hr : ∀ t, r = .ok t → t.pending = s.pending) (k : DictClass)
    (idx sub : Nat) : (s.dictEnd k idx sub r).1.pending = s.pending := by
  cases r with
  | ok t => simpa [State.dictEnd] using hr t rfl
  | error e => simp [State.dictEnd]

theorem State.dictEnd_eq {s t : State} {r : Except Nat State} {k : DictClass} {idx sub n : Nat}
    (hr : ∀ t, r = .ok t → t.pending = s.pending) (h : s.dictEnd k idx sub r = (t, n)) : t.pending = s.pending := by
  simpa [h] using State.dictEnd_pending hr k idx sub

@[simp] theorem State.dictEnd_error_pending (s : State) (k : DictClass) (idx sub e : Nat) :
    (s.dictEnd k idx sub (.error e)).1.pending = s.pending :=
  State.dictEnd_pending (fun _ h => by cases h) k idx sub

theorem State.dictEnd_error_eq {s t : State} {k : DictClass} {idx sub e n : Nat} (h : s.dictEnd k idx sub (.error e) = (t, n)) :
    t.pending = s.pending := by
  simpa [h] using s.dictEnd_error_pending k idx sub e

@[simp] theorem State.dictWrite_pending (s : State) (q : DictReq) : (s.dictWrite q).1.pending = s.pending := by
  fun_cases State.dictWrite s q
  case case6 => exact (State.dictEnd_pending (fun _ => State.dictWhole_pending) _ _ _).trans (State.setDictMem_pending _ _ _)
  all_goals simp +zetaDelta

@[simp] theorem State.dictServe_pending (s : State) (q : DictReq) (wr : Bool) : (s.dictServe q wr).1.pending = s.pending := by
  unfold State.dictServe
  extract_lets c x h
  split
  · rfl
  cases wr <;> simp +zetaDelta

@[simp] theorem State.dictRequest_pending (s : State) (q : DictReq) (wr : Bool) : (s.dictRequest q wr).pending = s.pending := by
  simp [State.dictRequest]

@[simp] theorem stagedWriteTimeout_pending (s : State) (k : DictClass) : (stagedWriteTimeout s k).pending = s.pending := by
  fun_cases stagedWriteTimeout s k <;> simp

@[simp] theorem State.dictAction_pending (s : State) (k : DictClass) (idx sub : Nat) (v : List Byte) :
    (s.dictAction k idx sub v).pending = s.pending := by
  unfold State.dictAction
  split
  · rfl
  extract_lets mail r
  have h := State.dictEnd_pending (s := s) (r := r) (fun t ht => by
    simp only [r] at ht
    split at ht
    · cases ht
    split at ht
    · cases ht
    split at ht
    · cases ht
    exact State.dictStore_pending ht) k idx sub
  simpa using h

@[simp] theorem State.imageAction_pending (s : State) (k : DictClass) (cantle : Bool) (d : List Byte) (fin : Bool) (i : Image) :
    (s.imageAction k cantle d fin i).pending = s.pending := by
  fun_cases State.imageAction s k cantle d fin i
  case case1 => rfl
  case case2 t r h =>
    rw [State.emit_pending]
    split at h
    · exact State.dictEnd_error_eq h
    split at h
    · exact State.dictEnd_error_eq h
    split at h
    · exact State.dictEnd_error_eq h
    dsimp only at h
    split at h
    · cases h
      exact s.imageSegment_pending cantle d
    rw [← s.imageSegment_pending cantle d]
    refine State.dictEnd_eq (fun u hu => ?_) h
    split at hu
    · cases hu
      exact State.imageFin_pending _ cantle i
    · cases hu

@[simp] theorem State.channelData_pending (s : State) (d : List Byte) : (s.channelData d).pending = s.pending := by
  simp -implicitDefEqProofs [State.channelData]

@[simp] theorem State.channelReply_pending (s : State) (seq r n : Nat) : (s.channelReply seq r n).pending = s.pending := by
  simp -implicitDefEqProofs [State.channelReply]

@[simp] theorem dictReplyReady_pending (s : State) : (dictReplyReady s).pending = s.pending := by
  unfold dictReplyReady
  split
  · simp
  · split <;> simp

@[simp] theorem State.i3cReady_pending (s : State) (b : List Byte) : (s.i3cReady b).pending = s.pending := by
  simp [State.i3cReady]

@[simp] theorem i3cDictRequest_pending (s : State) (b : List Byte) : (i3cDictRequest s b).pending = s.pending := by
  unfold i3cDictRequest
  repeat' split
  all_goals simp

@[simp] theorem i3cDictReplyRead_pending (s : State) : (i3cDictReplyRead s).pending = s.pending := by
  unfold i3cDictReplyRead
  split
  · simp
  · split <;> simp

@[simp] theorem dynamicAddressAssignment_pending (s : State) (setdasa : Bool) (addr : Nat) :
    (dynamicAddressAssignment s setdasa addr).pending = s.pending := by
  simp [dynamicAddressAssignment]

@[simp] theorem State.setSvc_pending (s : State) (f : Nat) (x : SvcMem) : (s.setSvc f x).pending = s.pending := rfl

@[simp] theorem State.svcWord_pending (s : State) (f : Fin 16) (v : Word) : (s.svcWord f v).pending = s.pending := by
  unfold State.svcWord
  split <;> simp

@[simp] theorem State.serveBox_pending (s : State) (f : Fin 16) : (s.serveBox f).pending = s.pending := by
  unfold State.serveBox
  split
  · simp
  · split <;> simp

@[simp] theorem State.serveBoxes_pending (s : State) : s.serveBoxes.pending = s.pending := by simp [State.serveBoxes]

/-! ## Machine/Debug -/

@[simp] theorem State.debugRefuse_pending (s : State) : s.debugRefuse.pending = s.pending := rfl
@[simp] theorem State.debugDevice_pending (s : State) : s.debugDevice.pending = s.pending := by simp [State.debugDevice]
@[simp] theorem debugAttach_pending (s : State) : (debugAttach s).pending = s.pending := by simp [debugAttach]
@[simp] theorem zeroize_pending (s : State) : (zeroize s).pending = s.pending := by simp [zeroize]

@[simp] theorem State.debugHalt_pending (s : State) (cantle halted : Bool) : (s.debugHalt cantle halted).pending = s.pending := by
  simp [State.debugHalt]

@[simp] theorem debugRequest_pending (s : State) (q : DebugReq) : (debugRequest s q).pending = s.pending := by
  unfold debugRequest
  split
  · simp
  · split <;> simp

/-! ## Machine/Replay -/

@[simp] theorem State.restoreSrc_pending (s : State) (n off : Nat) (v : Word) : (s.restoreSrc n off v).pending = s.pending := by
  unfold State.restoreSrc
  split <;> simp

@[simp] theorem State.restoreReg_pending (s : State) (a : Nat) (v : Word) : (s.restoreReg a v).pending = s.pending := by
  unfold State.restoreReg
  repeat' split
  all_goals simp

@[simp] theorem State.restoreRing_pending (s : State) (g i v : Nat) : (s.restoreRing g i v).pending = s.pending := rfl
@[simp] theorem State.restoreStation_pending (s : State) (n i v : Nat) : (s.restoreStation n i v).pending = s.pending := rfl

@[simp] theorem State.restoreFifo_pending (s : State) (q : Nat) (l : List Nat) : (s.restoreFifo q l).pending = s.pending := by
  simp [State.restoreFifo]

@[simp] theorem State.restoreMod_pending (s : State) (g : Nat) (l : List Nat) : (s.restoreMod g l).pending = s.pending := rfl

@[simp] theorem State.restoreWord_pending (s : State) (a v : Nat) : (s.restoreWord a v).pending = s.pending := by
  simp [State.restoreWord]

@[simp] theorem State.restoreWords_pending (s : State) (a : Nat) (l : List Nat) : (s.restoreWords a l).pending = s.pending := by
  fun_induction State.restoreWords s a l <;> simp_all

@[simp] theorem State.restorePiece_pending (s : State) (a : Nat) (l : List Nat) : (s.restorePiece a l).pending = s.pending := by
  simp [State.restorePiece]

@[simp] theorem State.loadSession_pending (s : State) (p : List Nat) : (s.loadSession p).pending = s.pending := by
  simp [State.loadSession]

@[simp] theorem State.loadRec_pending (s : State) (r : JRec) : (s.loadRec r).pending = s.pending := by
  unfold State.loadRec
  split <;> simp

@[simp] theorem State.loadBytes_pending (s : State) (k : Nat) : (s.loadBytes k).pending = s.pending := by
  fun_induction State.loadBytes s k <;> simp_all +zetaDelta

@[simp] theorem State.loadReady_pending (s : State) : s.loadReady.pending = s.pending := rfl

@[simp] theorem journalRingRead_pending (s : State) (r : HostResult) : (journalRingRead s r).pending = s.pending := by
  unfold journalRingRead
  extract_lets o room n s1
  split
  · rfl
  cases r <;> simp [s1]

@[simp] theorem State.answer_pending (s : State) (w : Flight) (n : Nat) (r : JRec) : (s.answer w n r).pending = s.pending := by
  unfold State.answer
  split <;> simp

@[simp] theorem State.replayRead_pending (s : State) (r : JRec) : (s.replayRead r).pending = s.pending := by
  unfold State.replayRead
  split <;> simp

@[simp] theorem State.replayReads_pending (s : State) : s.replayReads.pending = s.pending := by
  unfold State.replayReads
  split
  · rfl
  refine State.foldl_pending (fun t x => ?_) _ s
  dsimp only
  split <;> simp

@[simp] theorem State.replayEvent_pending (s : State) (f w : Nat) : (s.replayEvent f w).pending = s.pending := by
  simp [State.replayEvent]

@[simp] theorem State.replayEdge_pending (s : State) (l : Nat) (level : Bool) : (s.replayEdge l level).pending = s.pending := by
  simp [State.replayEdge]

@[simp] theorem State.replayAccess_pending (s : State) (m w0 w1 : Nat) : (s.replayAccess m w0 w1).pending = s.pending := by
  fun_cases State.replayAccess s m w0 w1 <;> simp

@[simp] theorem State.replayIrq_pending (s : State) (c n : Nat) : (s.replayIrq c n).pending = s.pending := by
  simp [State.replayIrq]

@[simp] theorem State.replayRec_pending (s : State) (r : JRec) : (s.replayRec r).pending = s.pending := by
  unfold State.replayRec
  repeat' split
  all_goals simp

@[simp] theorem State.replayDue_pending (s : State) (k : Nat) : (s.replayDue k).pending = s.pending := by
  induction k generalizing s with
  | zero => rfl
  | succ k ih =>
    rw [State.replayDue]
    split
    · rfl
    split
    · rfl
    simp [ih]

@[simp] theorem State.replayTick_pending (s : State) : s.replayTick.pending = s.pending := by simp [State.replayTick]
@[simp] theorem clockTick_pending (s : State) : (clockTick s).pending = s.pending := by simp [clockTick]

/-! ## Machine/Tick -/

@[simp] theorem State.atStep_pending (p : Nat) (s : State) : (State.atStep p s).pending = s.pending := by simp [State.atStep]

/-! ## What a Vangest entry leaves of the queue -/

@[simp] theorem VState.put_pending (v : VState) (w : Word) (sel : Nat) (a : Word) : (v.put w sel a).s.pending = v.s.pending := by
  unfold VState.put
  split <;> rfl

theorem State.agLoad_eq {s t : State} {c n esz : Nat} {x : ScCore} {sx : Bool} {r : Except ScExc (ScCore × Word)}
    (h : s.agLoad c x n esz sx = (t, r)) : t.pending = s.pending := by
  simpa [h] using s.agLoad_pending c x n esz sx

theorem VState.step_pending {v y : VState} {c : Nat} {w u : Word} (h : v.step c w u = .ok y) : y.s.pending = v.s.pending := by
  revert h
  fun_cases VState.step v c w u
  all_goals rintro ⟨⟩
  case case1 => split <;> exact VState.put_pending v w _ _
  case case6 | case8 => exact (VState.put_pending _ w _ _).trans (State.scLoad_eq ‹_›)
  case case10 | case12 => exact State.scStore_pending ‹_›
  case case14 => exact (VState.put_pending _ w _ _).trans (State.agLoad_eq ‹_›)
  case case16 => exact State.agStore_pending ‹_›
  case case18 => exact VState.put_pending v w _ _
  all_goals simp

theorem VState.run_pending {c : Nat} {w : Word} {us : List Word} {v y : VState} (h : VState.run c w v us = .ok y) :
    y.s.pending = v.s.pending := by
  induction us generalizing v with
  | nil => cases h; rfl
  | cons u us ih =>
    rw [VState.run] at h
    split at h
    · cases h
    · rw [ih h, VState.step_pending ‹_›]

/-! ## The rows -/

@[simp] theorem State.callTo_pending (s : State) (c : Nat) (x : ScCore) (t : Nat) :
    (s.callTo c x t).state.pending = s.pending := by
  simp [State.callTo]

theorem execScanReadReturn_pending (g : RingId) (ret : Option (Nat × HostResult)) (s : State) :
    ∃ t, execScanReadReturn g ret s = .next t ∧ t.pending = s.pending := by
  refine ⟨_, rfl, ?_⟩
  cases ret with
  | none => simp
  | some p => exact State.fromOutside_pending (fun t => by simp) s

theorem execWakeTimerArmRow_pending (m : Master) (v : Word) (s : State) :
    ∃ t, execWakeTimerArm m v s = .next t ∧ t.pending = s.pending :=
  ⟨_, rfl, State.regRow_pending (fun t => t.wakeHi_pending v) s m _ v⟩

theorem execWakeTimerDisarmRow_pending (m : Master) (v : Word) (s : State) :
    ∃ t, execWakeTimerDisarm m v s = .next t ∧ t.pending = s.pending :=
  ⟨_, rfl, State.regRow_pending (fun t => t.wakeLo_pending v) s m _ v⟩

/-- A row of the Staccato core answers the state that its instruction leaves. -/
theorem State.next_scExec_pending {f : State → ScCore → Word → ScDone} (hf : ∀ t x w, (f t x w).state.pending = t.pending)
    (s : State) (c : Nat) (want : Word → Bool) :
    ∃ t, (Host.Outcome.next (s.scExec c want f) : Result) = .next t ∧ t.pending = s.pending :=
  ⟨_, rfl, State.scExec_pending hf s c want⟩

theorem execIllegalInstruction_pending (c : CoreId) (s : State) :
    ∃ t, execIllegalInstruction c s = .next t ∧ t.pending = s.pending :=
  State.next_scExec_pending (fun _ _ _ => rfl) s c.val _

theorem execScLda_pending (c : CoreId) (s : State) : ∃ t, execScLda c s = .next t ∧ t.pending = s.pending := by
  refine State.next_scExec_pending (fun t x w => ?_) s c.val _
  dsimp only
  split
  · rfl
  split
  · rfl
  split <;> exact State.agLoad_eq ‹_›

theorem execScSta_pending (c : CoreId) (s : State) : ∃ t, execScSta c s = .next t ∧ t.pending = s.pending := by
  refine State.next_scExec_pending (fun t x w => ?_) s c.val _
  dsimp only
  split
  · rfl
  split
  · rfl
  split
  · rfl
  · exact State.agStore_pending ‹_›

theorem execScCall_pending (c : CoreId) (s : State) : ∃ t, execScCall c s = .next t ∧ t.pending = s.pending :=
  State.next_scExec_pending (fun t x _ => t.callTo_pending c.val x _) s c.val _

theorem execScCallr_pending (c : CoreId) (s : State) : ∃ t, execScCallr c s = .next t ∧ t.pending = s.pending :=
  State.next_scExec_pending (fun t x w => by simp) s c.val _

theorem execScSysNop_pending (c : CoreId) (s : State) : ∃ t, execScSysNop c s = .next t ∧ t.pending = s.pending :=
  ⟨_, rfl, State.sysOp_pending (fun _ _ => rfl) s c.val 0⟩

theorem execScWfi_pending (c : CoreId) (s : State) : ∃ t, execScWfi c s = .next t ∧ t.pending = s.pending := by
  refine State.next_scExec_pending (fun t x w => ?_) s c.val _
  dsimp only
  split
  · rfl
  split
  · exact t.wfiClaim_pending _ _
  · rfl

theorem execScMfs_pending (c : CoreId) (s : State) : ∃ t, execScMfs c s = .next t ∧ t.pending = s.pending := by
  refine State.next_scExec_pending (fun t x w => ?_) s c.val _
  split
  · rfl
  split <;> rfl

theorem execScMts_pending (c : CoreId) (s : State) : ∃ t, execScMts c s = .next t ∧ t.pending = s.pending := by
  refine State.next_scExec_pending (fun t x w => ?_) s c.val _
  split
  · rfl
  split <;> rfl

theorem execScVangestEntry_pending (c : CoreId) (s : State) : ∃ t, execScVangestEntry c s = .next t ∧ t.pending = s.pending := by
  refine State.next_scExec_pending (fun t x w => ?_) s c.val _
  dsimp only
  split
  · rfl
  split
  · rfl
  split
  · rfl
  split
  · rfl
  split
  · exact t.poisonSeen_pending _ _ _
  · split <;> exact VState.run_pending ‹_›

/-- No row looks at the queue of waiting commands or changes it. -/
theorem exec_pending (c : Instr) (s : State) : ∃ t, exec c s = .next t ∧ t.pending = s.pending := by
  cases c
  case scanReadReturn g ret => exact execScanReadReturn_pending g ret s
  case wakeTimerArm m v => exact execWakeTimerArmRow_pending m v s
  case wakeTimerDisarm m v => exact execWakeTimerDisarmRow_pending m v s
  case illegalInstruction c => exact execIllegalInstruction_pending c s
  case scLda c => exact execScLda_pending c s
  case scSta c => exact execScSta_pending c s
  case scCall c => exact execScCall_pending c s
  case scCallr c => exact execScCallr_pending c s
  case scSysNop c => exact execScSysNop_pending c s
  case scWfi c => exact execScWfi_pending c s
  case scMfs c => exact execScMfs_pending c s
  case scMts c => exact execScMts_pending c s
  case scVangestEntry c => exact execScVangestEntry_pending c s
  all_goals exact ⟨_, rfl, by simp⟩

/-- Settles O2: the queue's front is taken and its command run, or the clock ticks; neither touches the rest. -/
theorem everyStepAnswers : Obligations.EveryStepAnswers := by
  intro s
  refine ⟨fun c => exec_pending c s, ?_⟩
  unfold step
  split
  next h => exact ⟨_, rfl, by simp [h]⟩
  next c rest h =>
    rw [h]
    exact exec_pending c { s with pending := rest }

end Sys2Proof.Machine

namespace Sys2Proof.Machine

/-! # What leaves memory and the merge buffers as they were (R9, R19, R22)

Most functions of the model write neither the array nor a merge buffer: one lemma says so for each, in the order of the model's
files, as the lemmas about `State.pending` above do for the queue. A function that answers a state inside a result has the lemma
about the state it answers (`…_eq_store`). The functions that do write are in the part after this one. -/

/-- What the array and the merge buffers hold. -/
def State.store (s : State) : SMap Byte × SMap (List MergeEntry) := (s.mem, s.merge)

theorem sameMem.store {s t : State} (h : sameMem s t) : t.store = s.store := Prod.ext h.1 h.2

@[simp] theorem store_eta (s : State) : (s.mem, s.merge) = s.store := Prod.ext rfl rfl

/-- Reads the store off a state written out, or updated, field by field. -/
@[simp] theorem State.store_mk
    {x0 x1 x2 x3 x4 x5 x6 x7 x8 x9 x10 x11 x12 x13 x14 x15 x16 x17 x18 x19 x20 x21 x22 x23 x24 x25 x26 x27 x28 x29 x30 x31
    x32 x33 x34 x35 x36 x37 x38 x39 x40 x41 x42 x43 x44 x45 x46 x47 x48 x49 x50 x51 x52 x53 x54 x55 x56 x57 x58 x59 x60 x61
    x62 x63 x64 x65 x66 x67 x68 x69 x70 x71 x72 x73 x74 x75 x76 x77 x78 x79 x80 x81 x82 x83 x84 x85 x86 x87 x88 x89 x90 x91
    x92 x93 x94 x95 x96 x97 x98 x99 x100 x101 x102 x103 x104 x105 x106} :
    (State.mk x0 x1 x2 x3 x4 x5 x6 x7 x8 x9 x10 x11 x12 x13 x14 x15 x16 x17 x18 x19 x20 x21 x22 x23 x24 x25 x26 x27 x28 x29 x30 x31
      x32 x33 x34 x35 x36 x37 x38 x39 x40 x41 x42 x43 x44 x45 x46 x47 x48 x49 x50 x51 x52 x53 x54 x55 x56 x57 x58 x59 x60 x61
      x62 x63 x64 x65 x66 x67 x68 x69 x70 x71 x72 x73 x74 x75 x76 x77 x78 x79 x80 x81 x82 x83 x84 x85 x86 x87 x88 x89 x90 x91
      x92 x93 x94 x95 x96 x97 x98 x99 x100 x101 x102 x103 x104 x105 x106).store = (x11, x36) :=
  Prod.ext rfl rfl

@[simp] theorem State.ite_store (c : Prop) [Decidable c] (a b : State) :
    (if c then a else b).store = if c then a.store else b.store :=
  apply_ite State.store c a b

@[simp] theorem State.foldl_store {α : Type} {f : State → α → State} (hf : ∀ t x, (f t x).store = t.store) (l : List α)
    (s : State) : (l.foldl f s).store = s.store := by
  induction l generalizing s with
  | nil => rfl
  | cons x l ih => rw [List.foldl_cons, ih, hf]

/-! ## The setters of a state -/

@[simp] theorem State.setReg_store (s : State) (a : Nat) (v : Word) : (s.setReg a v).store = s.store := sameMem.store ⟨rfl, rfl⟩
@[simp] theorem State.irq_store (s : State) (n : Nat) : (s.irq n).store = s.store := sameMem.store ⟨rfl, rfl⟩
@[simp] theorem State.setSlot_store (s : State) (k : Nat) (x : Slot) : (s.setSlot k x).store = s.store := sameMem.store ⟨rfl, rfl⟩
@[simp] theorem State.setRing_store (s : State) (g : Nat) (x : Ring) : (s.setRing g x).store = s.store := sameMem.store ⟨rfl, rfl⟩
@[simp] theorem State.setFn_store (s : State) (f : Nat) (x : Func) : (s.setFn f x).store = s.store := sameMem.store ⟨rfl, rfl⟩
@[simp] theorem State.setLane_store (s : State) (l : Nat) (x : Lane) : (s.setLane l x).store = s.store := sameMem.store ⟨rfl, rfl⟩
@[simp] theorem State.setStation_store (s : State) (n : Nat) (x : Station) : (s.setStation n x).store = s.store :=
  sameMem.store ⟨rfl, rfl⟩
@[simp] theorem State.setFifo_store (s : State) (q : Nat) (x : Fifo) : (s.setFifo q x).store = s.store := sameMem.store ⟨rfl, rfl⟩
@[simp] theorem State.setCore_store (s : State) (c : Nat) (x : ScCore) : (s.setCore c x).store = s.store := sameMem.store ⟨rfl, rfl⟩
@[simp] theorem State.setSrc_store (s : State) (n : Nat) (x : Source) : (s.setSrc n x).store = s.store := sameMem.store ⟨rfl, rfl⟩
@[simp] theorem State.setEcc_store (s : State) (w : Nat) (m : EccMark) : (s.setEcc w m).store = s.store := sameMem.store ⟨rfl, rfl⟩
@[simp] theorem State.report_store (s : State) (g det cls owner unit master : Nat) (detail : Word) (cond : Bool) :
    (s.report g det cls owner unit master detail cond).store = s.store :=
  sameMem.store ⟨rfl, rfl⟩
@[simp] theorem State.setStatus_store (s : State) (a : Nat) (v : Word) : (s.setStatus a v).store = s.store :=
  Prod.ext (s.setStatus_mem a v) (s.setStatus_merge a v)
@[simp] theorem State.emit_store (s : State) (o : Out) : (s.emit o).store = s.store :=
  Prod.ext (s.emit_mem o) (s.emit_merge o)

/-! ## Machine/Ops -/

@[simp] theorem State.draw_store (s : State) : s.draw.2.store = s.store := sameMem.store ⟨rfl, rfl⟩

@[simp] theorem State.setIrq_store (s : State) (n : Nat) (x : IrqSrc) : (s.setIrq n x).store = s.store := sameMem.store ⟨rfl, rfl⟩

@[simp] theorem State.risen_store (s : State) (a : Nat) (was : Bool) : (s.risen a was).store = s.store := by
  unfold State.risen
  split <;> simp

@[simp] theorem State.cfgErr_store (s : State) (a : Nat) : (s.cfgErr a).store = s.store := by simp [State.cfgErr]

@[simp] theorem State.openShadow_store (s : State) (x : ShadowOf) : (s.openShadow x).store = s.store := sameMem.store ⟨rfl, rfl⟩

@[simp] theorem State.endShadow_store (s : State) (x : ShadowOf) : (s.endShadow x).store = s.store := sameMem.store ⟨rfl, rfl⟩

@[simp] theorem State.refusedAccess_store (s : State) (m a : Nat) : (s.refusedAccess m a).store = s.store := sameMem.store ⟨rfl, rfl⟩

@[simp] theorem State.injMark_store (s : State) (a : Nat) (old : EccMark) : (s.injMark a old).2.store = s.store := by
  unfold State.injMark
  split <;> simp

@[simp] theorem State.inject_store (s : State) (w : Nat) : (s.inject w).store = s.store := by simp [State.inject]

@[simp] theorem State.eccEvent_store (s : State) (w : Nat) (mark : EccMark) (master owner : Nat) :
    (s.eccEvent w mark master owner).store = s.store := by
  exact (sameMem_eccEvent s w mark master owner).store

@[simp] theorem State.hwWrite_store (s : State) (w : Nat) : (s.hwWrite w).store = s.store := by simp [State.hwWrite]

@[simp] theorem State.hwCheck_store (s : State) (w master owner : Nat) : (s.hwCheck w master owner).store = s.store := by
  simp [State.hwCheck]

@[simp] theorem State.eccEventIn_store (s : State) (base n : Nat) (mark : EccMark) (owner : Nat) :
    (s.eccEventIn base n mark owner).store = s.store := by
  simp [State.eccEventIn]

@[simp] theorem State.readMem_store (s : State) (a n master owner : Nat) :
    (s.readMem a n master owner).1.store = s.store := by
  simp [State.readMem]

/-! ## Machine/HostOps -/

@[simp] theorem State.setCfg_store (s : State) (f off : Nat) (v : Word) : (s.setCfg f off v).store = s.store :=
  sameMem.store ⟨rfl, rfl⟩

@[simp] theorem State.cfgFixed_store (s : State) (f : Nat) : (s.cfgFixed f).store = s.store := by simp [State.cfgFixed]

@[simp] theorem State.sendReads_store (s : State) (f addr len i k : Nat) :
    (s.sendReads f addr len i k).store = s.store := by
  simp [State.sendReads]

@[simp] theorem State.setMsixWord_store (s : State) (f i : Nat) (v : Word) : (s.setMsixWord f i v).store = s.store :=
  sameMem.store ⟨rfl, rfl⟩

@[simp] theorem State.msixIssue_store (s : State) (f v : Nat) : (s.msixIssue f v).store = s.store := by
  simp [State.msixIssue]

@[simp] theorem State.keepFiring_store (s : State) (f v : Nat) : (s.keepFiring f v).store = s.store := by
  simp [State.keepFiring]

@[simp] theorem State.deliverKept_store (s : State) (f : Nat) : (s.deliverKept f).store = s.store := by
  simp [State.deliverKept]

@[simp] theorem State.sendFiring_store (s : State) (f v : Nat) : (s.sendFiring f v).store = s.store := by
  simp [State.sendFiring]

@[simp] theorem State.fireVector_store (s : State) (f v : Nat) : (s.fireVector f v).store = s.store := by
  simp [State.fireVector]

@[simp] theorem State.wakeLink_store (s : State) : s.wakeLink.store = s.store := by simp [State.wakeLink]

@[simp] theorem State.raisePme_store (s : State) (f : Nat) : (s.raisePme f).store = s.store := by simp [State.raisePme]

@[simp] theorem State.resendPme_store (s : State) (f : Nat) : (s.resendPme f).store = s.store := by
  unfold State.resendPme
  split <;> simp

@[simp] theorem State.ringFireVector_store (s : State) (f v : Nat) (wakeWorthy : Bool) :
    (s.ringFireVector f v wakeWorthy).store = s.store := by
  simp [State.ringFireVector]

@[simp] theorem State.eventMessage_store (s : State) (f : Nat) : (s.eventMessage f).store = s.store := by
  simp [State.eventMessage]

@[simp] theorem State.qmFnStatus_store (s : State) (f i : Nat) : (s.qmFnStatus f i).store = s.store := by
  simp [State.qmFnStatus]

@[simp] theorem State.setCfgs_store (s : State) (f off : Nat) (l : List Word) : (s.setCfgs f off l).store = s.store := by
  fun_induction State.setCfgs s f off l <;> simp_all

@[simp] theorem State.aerLog_store (s : State) (f i : Nat) (header : List Word) :
    (s.aerLog f i header).store = s.store := by
  simp [State.aerLog]

@[simp] theorem State.timedOut_store (s : State) (f : Nat) (res : HostResult) : (s.timedOut f res).store = s.store := by
  simp [State.timedOut]

@[simp] theorem State.linkIdle_store (s : State) : s.linkIdle.store = s.store := by simp [State.linkIdle]

/-! ## Machine/TempoOps -/

@[simp] theorem idleTick_store (s : State) : (idleTick s).store = s.store := sameMem.store ⟨rfl, rfl⟩

@[simp] theorem State.afterTick_store (s : State) : s.afterTick.store = s.store := sameMem.store ⟨rfl, rfl⟩

@[simp] theorem State.moveSrc_store (s : State) (n : Nat) (x : Source) : (s.moveSrc n x).store = s.store := sameMem.store ⟨rfl, rfl⟩

/-! ## Machine/Record -/

@[simp] theorem State.setJnState_store (s : State) (c : Nat) : (s.setJnState c).store = s.store := sameMem.store ⟨rfl, rfl⟩

@[simp] theorem State.jput_store (s : State) (r : JRec) : (s.jput r).store = s.store := sameMem.store ⟨rfl, rfl⟩

@[simp] theorem State.jnStatus_store (s : State) (bits : Word) : (s.jnStatus bits).store = s.store := by
  simp [State.jnStatus]

@[simp] theorem State.placeRecs_store (s : State) (l : List JRec) : (s.placeRecs l).1.store = s.store := by
  induction l generalizing s with
  | nil => rfl
  | cons r rs ih => cases h : r.mark <;> simp [State.placeRecs, h, ih]

@[simp] theorem State.winPlace_store (s : State) : s.winPlace.store = s.store := by simp [State.winPlace]

@[simp] theorem State.readRec_store (s : State) (r : JRec) : (s.readRec r).1.store = s.store := by
  fun_cases State.readRec s r <;> simp +zetaDelta

@[simp] theorem State.readRecs_store (s : State) (l : List JRec) : (s.readRecs l).1.store = s.store := by
  induction l generalizing s with
  | nil => rfl
  | cons r rs ih => simp [State.readRecs, ih]

@[simp] theorem State.readFront_store (s : State) (n : Nat) : (s.readFront n).store = s.store := by simp [State.readFront]

@[simp] theorem State.touchRecs_store (s : State) (a n o : Nat) (l : List JRec) :
    (s.touchRecs a n o l).1.store = s.store := by
  induction l generalizing s o with
  | nil => rfl
  | cons r rs ih =>
    simp only [State.touchRecs, ih]
    split <;> simp

@[simp] theorem State.winTouch_store (s : State) (a n : Nat) : (s.winTouch a n).1.store = s.store := by
  unfold State.winTouch
  split <;> simp

@[simp] theorem State.jgap_store (s : State) : s.jgap.store = s.store := sameMem.store ⟨rfl, rfl⟩

@[simp] theorem State.jend_store (s : State) (reason : Nat) : (s.jend reason).store = s.store := by simp [State.jend]

@[simp] theorem State.jrec_store (s : State) (type srcid : Nat) (payload : List Nat) :
    (s.jrec type srcid payload).store = s.store := by
  simp [State.jrec]

@[simp] theorem State.jHostRead_store (s : State) (f addr : Nat) (res : HostResult) :
    (s.jHostRead f addr res).store = s.store := by
  simp [State.jHostRead]

@[simp] theorem State.jHostEvent_store (s : State) (f code value : Nat) : (s.jHostEvent f code value).store = s.store := by
  simp [State.jHostEvent]

@[simp] theorem State.jRegWrite_store (s : State) (m a : Nat) (v : Word) : (s.jRegWrite m a v).store = s.store := by
  simp [State.jRegWrite]

@[simp] theorem State.diverge_store (s : State) (kind srcid word0 : Nat) :
    (s.diverge kind srcid word0).store = s.store := by
  simp -implicitDefEqProofs [State.diverge]

@[simp] theorem State.missing_store (s : State) : s.missing.store = s.store := by simp [State.missing]

@[simp] theorem State.digest_store (s : State) (srcid word0 word1 : Nat) :
    (s.digest srcid word0 word1).store = s.store := by
  fun_cases State.digest s srcid word0 word1 <;> simp +zetaDelta

@[simp] theorem State.rebase_store (s : State) (old new : Nat) : (s.rebase old new).store = s.store := sameMem.store ⟨rfl, rfl⟩

@[simp] theorem State.replayStart_store (s : State) : s.replayStart.store = s.store := sameMem.store ⟨rfl, rfl⟩

/-! ## Machine/Completion -/

@[simp] theorem State.lineRead_store (s : State) (g f u : Nat) : (s.lineRead g f u).store = s.store := by
  simp [State.lineRead]

@[simp] theorem State.prefetch_store (s : State) (g f : Nat) : (s.prefetch g f).store = s.store := by simp [State.prefetch]

@[simp] theorem State.grantBuffer_store (s : State) : s.grantBuffer.store = s.store := by
  fun_cases State.grantBuffer s <;> simp +zetaDelta

@[simp] theorem State.grantBuffers_store (s : State) : s.grantBuffers.store = s.store := by simp [State.grantBuffers]

@[simp] theorem State.leaveScan_store (s : State) (g st : Nat) : (s.leaveScan g st).store = s.store := by
  simp [State.leaveScan]

@[simp] theorem State.holdQueues_store (s : State) (g : Nat) : (s.holdQueues g).store = s.store := by
  unfold State.holdQueues
  split <;> simp

@[simp] theorem State.stallUpdate_store (s : State) (g : Nat) : (s.stallUpdate g).store = s.store := by
  fun_cases State.stallUpdate s g <;> simp

@[simp] theorem State.roomUpdate_store (s : State) (g : Nat) : (s.roomUpdate g).store = s.store := by
  simp [State.roomUpdate]

@[simp] theorem State.stallUpdateAll_store (s : State) : s.stallUpdateAll.store = s.store := by
  refine State.foldl_store (fun t x => ?_) _ s
  dsimp only
  split <;> simp

@[simp] theorem State.ringFire_store (s : State) (g : Nat) : (s.ringFire g).store = s.store := by
  unfold State.ringFire
  split <;> simp

@[simp] theorem State.moderate_store (s : State) (g : Nat) (urgent : Bool) : (s.moderate g urgent).store = s.store := by
  simp [State.moderate]

@[simp] theorem State.entryDigest_store (s : State) (f addr : Nat) (e : Entry) (lap : Bool) :
    (s.entryDigest f addr e lap).store = s.store := by
  simp [State.entryDigest]

@[simp] theorem State.cqWrite_store (s : State) (g : Nat) (e : Entry) : (s.cqWrite g e).store = s.store := by
  unfold State.cqWrite
  split <;> simp

@[simp] theorem State.joinWake_store (s : State) (g f : Nat) : (s.joinWake g f).store = s.store := by simp [State.joinWake]

@[simp] theorem State.joinBacklog_store (s : State) (g f : Nat) (b : Backlog) : (s.joinBacklog g f b).store = s.store := by
  simp [State.joinBacklog]

@[simp] theorem State.parkCopies_store (s : State) : s.parkCopies.2.store = s.store := by simp [State.parkCopies]

@[simp] theorem State.park_store (s : State) (g f : Nat) (e : Entry) : (s.park g f e).store = s.store := by
  simp [State.park]

@[simp] theorem State.parkRead_store (s : State) (f : Nat) (c : EccMark × EccMark) :
    (s.parkRead f c).1.store = s.store := by
  unfold State.parkRead
  split <;> simp

@[simp] theorem State.freeSlot_store (s : State) (k : Nat) : (s.freeSlot k).store = s.store := sameMem.store ⟨rfl, rfl⟩

@[simp] theorem State.markPosted_store (s : State) (k : Nat) : (s.markPosted k).store = s.store := by
  simp [State.markPosted]

@[simp] theorem State.heldPosted_store (s : State) (k : Nat) : (s.heldPosted k).store = s.store := by
  simp [State.heldPosted]

@[simp] theorem State.shareFreed_store (s : State) (f : Nat) : (s.shareFreed f).store = s.store := by
  unfold State.shareFreed
  split
  · simp
  · split <;> simp

@[simp] theorem State.unreserve_store (s : State) (g f : Nat) (inRing : Bool) :
    (s.unreserve g f inRing).store = s.store := by
  simp [State.unreserve]

@[simp] theorem State.holdEntry_store (s : State) (k : Nat) (isMark : Bool) : (s.holdEntry k isMark).store = s.store :=
  sameMem.store ⟨rfl, rfl⟩

@[simp] theorem State.postSlotEntry_store (s : State) (g f k : Nat) (e : Entry) (isMark : Bool) :
    (s.postSlotEntry g f k e isMark).store = s.store := by
  simp [State.postSlotEntry]

@[simp] theorem State.postRedeemed_store (s : State) (g f : Nat) (e : Entry) (inRing : Bool) :
    (s.postRedeemed g f e inRing).store = s.store := by
  simp [State.postRedeemed]

@[simp] theorem State.ceaStallUpdate_store (s : State) : s.ceaStallUpdate.store = s.store := by simp [State.ceaStallUpdate]

@[simp] theorem State.fromOutside_store {f : State → State} (hf : ∀ t, (f t).store = t.store) (s : State) :
    (s.fromOutside f).store = s.store := by
  simp [State.fromOutside, hf]

@[simp] theorem State.onLive_store {f : State → State} (hf : ∀ t, (f t).store = t.store) (s : State) :
    (s.onLive f).store = s.store := by
  simp [State.onLive, hf]

@[simp] theorem State.onLiveOut_store {f : State → State} (hf : ∀ t, (f t).store = t.store) (s : State) :
    (s.onLiveOut f).store = s.store := by
  simp -implicitDefEqProofs [State.onLiveOut, hf]

@[simp] theorem backlogDrain_store (s : State) (g : Nat) : (backlogDrain s g).store = s.store := by
  unfold backlogDrain
  dsimp only
  split
  next b rest f _ _ => cases b <;> simp
  · rfl

@[simp] theorem State.headRead_store (s : State) (g f : Nat) : (s.headRead g f).store = s.store := by simp [State.headRead]

@[simp] theorem State.cqDoorbell_store (s : State) (g f : Nat) : (s.cqDoorbell g f).store = s.store := by
  simp [State.cqDoorbell]

@[simp] theorem State.headErr_store (s : State) (g f code : Nat) : (s.headErr g f code).store = s.store := sameMem.store ⟨rfl, rfl⟩

@[simp] theorem headWordReturn_store (s : State) (g : Nat) (res : HostResult) :
    (headWordReturn s g res).store = s.store := by
  unfold headWordReturn
  split
  · simp
  · split <;> simp

@[simp] theorem headReread_store (s : State) (g : Nat) : (headReread s g).store = s.store := by
  unfold headReread
  split <;> simp

@[simp] theorem completionStall_store (s : State) (g : Nat) : (completionStall s g).store = s.store := by
  fun_cases completionStall s g <;> simp +zetaDelta

@[simp] theorem moderationTimer_store (s : State) (g : Nat) : (moderationTimer s g).store = s.store := by
  fun_cases moderationTimer s g <;> simp

@[simp] theorem msixUnmask_store (s : State) (f v : Nat) : (msixUnmask s f v).store = s.store := by simp [msixUnmask]

@[simp] theorem keptFiringDelivery_store (s : State) (f : Nat) : (keptFiringDelivery s f).store = s.store := by
  simp [keptFiringDelivery]

@[simp] theorem State.flushRings_store (s : State) (fs : List Nat) : (s.flushRings fs).store = s.store := by
  refine State.foldl_store (fun t x => ?_) _ s
  dsimp only
  split <;> simp

/-! ## Machine/Weir -/

@[simp] theorem State.bind_store (s : State) (st : Start) (e k : Nat) (be : Bool) (reason gcq : Nat) :
    (s.bind st e k be reason gcq).store = s.store := by
  simp [State.bind]

/-! ## Machine/LaneOps -/

@[simp] theorem State.driveLane_store (s : State) (l : Nat) (d : Drive) : (s.driveLane l d).store = s.store := by
  simp [State.driveLane]

@[simp] theorem State.endLaunches_store (s : State) : s.endLaunches.store = s.store := sameMem.store ⟨rfl, rfl⟩

@[simp] theorem State.actionDone_store (s : State) (l : Nat) : (s.actionDone l).store = s.store := sameMem.store ⟨rfl, rfl⟩

@[simp] theorem State.actionFree_store (s : State) (l : Nat) : (s.actionFree l).store = s.store := by
  simp [State.actionFree]

@[simp] theorem State.laneToSafe_store (s : State) (l : Nat) : (s.laneToSafe l).store = s.store := by
  simp [State.laneToSafe]

@[simp] theorem State.sfStatus_store (s : State) (q : Nat) (bits : Word) : (s.sfStatus q bits).store = s.store :=
  sameMem.store ⟨rfl, rfl⟩

@[simp] theorem State.levelCross_store (s : State) (q was now : Nat) : (s.levelCross q was now).store = s.store := by
  simp [State.levelCross]

@[simp] theorem State.pushWord_store (s : State) (q : Nat) (w : FWord) : (s.pushWord q w).store = s.store := by
  simp only [State.pushWord, State.levelCross_store, State.setFifo_store]
  split <;> simp

@[simp] theorem State.pushBytesAux_store (s : State) (q : Nat) (poison : Bool) (k : Nat) (bs : List Byte) :
    (s.pushBytesAux q poison k bs).store = s.store := by
  fun_induction State.pushBytesAux s q poison k bs <;> simp_all

@[simp] theorem State.pushBytes_store (s : State) (q : Nat) (bs : List Byte) (poison : Bool) :
    (s.pushBytes q bs poison).store = s.store := by
  simp [State.pushBytes]

@[simp] theorem State.closePacket_store (s : State) (q : Nat) : (s.closePacket q).store = s.store := by
  fun_cases State.closePacket s q <;> simp

@[simp] theorem State.rts_store (s : State) (l : Nat) : (s.rts l).store = s.store := by simp [State.rts]

@[simp] theorem State.spillBack_store (s : State) (q : Nat) : (s.spillBack q).store = s.store := by simp [State.spillBack]

@[simp] theorem State.takeBytesAux_store (s : State) (q k n : Nat) (acc : List Byte) :
    (s.takeBytesAux q k n acc).1.store = s.store := by
  fun_induction State.takeBytesAux s q k n acc <;> simp_all +zetaDelta

@[simp] theorem State.takeBytes_store (s : State) (q n : Nat) : (s.takeBytes q n).1.store = s.store := by
  simp [State.takeBytes]

@[simp] theorem State.flushFifo_store (s : State) (q : Nat) : (s.flushFifo q).store = s.store := by simp [State.flushFifo]

@[simp] theorem State.laneIdle_store (s : State) (l : Nat) : (s.laneIdle l).store = s.store := by simp [State.laneIdle]

@[simp] theorem State.idleLater_store (s : State) (l : Nat) : (s.idleLater l).store = s.store := by simp [State.idleLater]

@[simp] theorem State.setXfer_store (s : State) (l : Nat) (x : Option Xfer) : (s.setXfer l x).store = s.store :=
  sameMem.store ⟨rfl, rfl⟩

@[simp] theorem State.senseFlag_store (s : State) (st i : Nat) : (s.senseFlag st i).store = s.store := sameMem.store ⟨rfl, rfl⟩

@[simp] theorem State.busStop_store (s : State) (l : Nat) : (s.busStop l).store = s.store := by simp [State.busStop]

@[simp] theorem State.timerUpdate_store (s : State) (key : Nat) : (s.timerUpdate key).store = s.store := by
  fun_cases State.timerUpdate s key <;> simp

@[simp] theorem State.gateTimer_store (s : State) (l : Nat) : (s.gateTimer l).store = s.store := by
  unfold State.gateTimer
  split <;> simp

@[simp] theorem State.shutGate_store (s : State) (l : Nat) : (s.shutGate l).store = s.store := by simp [State.shutGate]

@[simp] theorem State.cutLaunches_store (s : State) (key : Nat) : (s.cutLaunches key).store = s.store := by
  unfold State.cutLaunches
  dsimp only
  rw [State.foldl_store (fun t l => by simp), State.foldl_store]
  · rfl
  · intro t l
    split <;> simp

@[simp] theorem State.stationInitial_store (s : State) (st : Nat) : (s.stationInitial st).store = s.store := by
  simp [State.stationInitial]

@[simp] theorem State.stationClear_store (s : State) (st key : Nat) : (s.stationClear st key).store = s.store := by
  simp [State.stationClear]

@[simp] theorem State.sendHead_store (s : State) (l : Nat) : (s.sendHead l).store = s.store := by
  unfold State.sendHead
  split <;> simp

/-! ## Machine/EngineOps -/

@[simp] theorem State.arrival_store (s : State) (key : Nat) : (s.arrival key).store = s.store := sameMem.store ⟨rfl, rfl⟩

@[simp] theorem State.toPosting_store (s : State) (key : Nat) : (s.toPosting key).store = s.store := by
  simp [State.toPosting]

@[simp] theorem State.settle_store (s : State) (key : Nat) : (s.settle key).store = s.store := by simp [State.settle]

@[simp] theorem State.endOp_store (s : State) (key : Nat) (c : Check) (last : Quad) (residual : Nat) (clear : Bool) :
    (s.endOp key c last residual clear).store = s.store := by
  simp [State.endOp]

@[simp] theorem State.readDescriptor_store (s : State) (key : Nat) : (s.readDescriptor key).store = s.store := by
  simp [State.readDescriptor]

@[simp] theorem State.checkNow_store (s : State) (key : Nat) (c : Check) : (s.checkNow key c).store = s.store := by
  simp [State.checkNow]

@[simp] theorem State.addMark_store (s : State) (key residual : Nat) : (s.addMark key residual).store = s.store := by
  simp [State.addMark]

@[simp] theorem State.endCcw_store (s : State) (key residual : Nat) (goOn : Bool) (next : Quad) (branch : Option Quad) :
    (s.endCcw key residual goOn next branch).store = s.store := by
  simp [State.endCcw]

@[simp] theorem State.ccwEnded_store (s : State) (key residual : Nat) : (s.ccwEnded key residual).store = s.store := by
  simp [State.ccwEnded]

@[simp] theorem State.engRead_store (s : State) (key : Nat) (x : Slot) (a n : Nat) :
    (s.engRead key x a n).1.store = s.store := by
  simp [State.engRead]

@[simp] theorem State.engHostRead_store (s : State) (key addr len : Nat) (spec : Bool) :
    (s.engHostRead key addr len spec).store = s.store := by
  simp [State.engHostRead]

@[simp] theorem State.addItem_store (s : State) (key a : Nat) (d : List Byte) : (s.addItem key a d).store = s.store := by
  simp [State.addItem]

@[simp] theorem State.passDigest_store (s : State) (key : Nat) (d : List Byte) : (s.passDigest key d).store = s.store := by
  simp [State.passDigest]

@[simp] theorem operationEnd_store (s : State) (key : Nat) : (operationEnd s key).store = s.store := by
  fun_cases operationEnd s key <;> simp

/-! ## Machine/Ccw -/

@[simp] theorem State.speculate_store (s : State) (key : Nat) : (s.speculate key).store = s.store := by
  simp [State.speculate]

@[simp] theorem State.toLocalTime_store (s : State) (key : Nat) : (s.toLocalTime key).store = s.store := sameMem.store ⟨rfl, rfl⟩

@[simp] theorem State.enterLocal_store (s : State) (key : Nat) : (s.enterLocal key).store = s.store := by
  simp [State.enterLocal]

@[simp] theorem State.enterWhen_store (s : State) (key : Nat) : (s.enterWhen key).store = s.store := by
  simp [State.enterWhen]

@[simp] theorem State.fetchBytes_store (s : State) (key : Nat) (a : Quad) (n : Nat) :
    (s.fetchBytes key a n).state.store = s.store := by
  unfold State.fetchBytes
  dsimp only
  split
  · split <;> simp
  split
  · simp
  split
  · split <;> simp
  split
  · simp
  split <;> simp

theorem State.fetchBytes_bytes_store {s t : State} {key : Nat} {a : Quad} {n : Nat} {d : List Byte} {p : Bool}
    (h : s.fetchBytes key a n = .bytes t d p) : t.store = s.store := by
  simpa [h] using s.fetchBytes_store key a n

theorem State.fetchBytes_wait_store {s t : State} {key : Nat} {a : Quad} {n : Nat} (h : s.fetchBytes key a n = .wait t) :
    t.store = s.store := by
  simpa [h] using s.fetchBytes_store key a n

theorem State.fetchBytes_fail_store {s t : State} {key : Nat} {a : Quad} {n : Nat} {c : Check} (h : s.fetchBytes key a n
    = .fail t c) :
    t.store = s.store := by
  simpa [h] using s.fetchBytes_store key a n

@[simp] theorem State.fetchAlone_store (s : State) (key : Nat) (a : Quad) : (s.fetchAlone key a).state.store = s.store := by
  have h := s.fetchBytes_store key a 16
  fun_cases State.fetchAlone s key a <;> simp_all

@[simp] theorem State.fetchCcw_store (s : State) (key : Nat) (a : Quad) : (s.fetchCcw key a).state.store = s.store := by
  unfold State.fetchCcw
  dsimp only
  split
  · rfl
  split
  · simp
  split
  · split <;> simp
  split
  · simp
  split
  · split <;> simp
  split
  · rfl
  split
  · rfl
  split <;> simp

@[simp] theorem State.readBlock_store (s : State) (key : Nat) (a : Quad) (n : Nat) :
    (s.readBlock key a n).state.store = s.store := by
  have h := s.fetchBytes_store key (a + BitVec.ofNat 64 (s.slot key).w.block.length) (n - (s.slot key).w.block.length)
  fun_cases State.readBlock s key a n <;> simp_all +zetaDelta

theorem State.readBlock_bytes_store {s t : State} {key : Nat} {a : Quad} {n : Nat} {d : List Byte} {p : Bool}
    (h : s.readBlock key a n = .bytes t d p) : t.store = s.store := by
  simpa [h] using s.readBlock_store key a n

@[simp] theorem State.addrChecks_store (s : State) (key : Nat) (x : Slot) (rsv al : Bool) (rs : List (Quad × Nat)) :
    (s.addrChecks key x rsv al rs).state.store = s.store := by
  fun_cases State.addrChecks s key x rsv al rs <;> simp

@[simp] theorem State.step10_store (s : State) (key : Nat) : (s.step10 key).state.store = s.store := by
  fun_cases State.step10 s key <;>
    grind [→ State.readBlock_bytes_store, State.readBlock_store, State.addrChecks_store, Got.state_bytes, Got.state_fail]

theorem State.hostWrite_store {s t : State} {f addr : Nat} {d : List Byte} {ro poisoned : Bool}
    (h : s.hostWrite f addr d ro poisoned = some t) : t.store = s.store := by
  revert h
  fun_cases State.hostWrite s f addr d ro poisoned <;> rintro ⟨⟩ <;> simp

/-! ## Machine/Rings -/

theorem State.reserve_store {s t : State} {cq f : Nat} {b : Bool} (h : s.reserve cq f = some (b, t)) :
    t.store = s.store := by
  revert h
  fun_cases State.reserve s cq f <;> rintro ⟨⟩ <;> simp

@[simp] theorem State.afterChecks_store (s : State) (key : Nat) : (s.afterChecks key).store = s.store := by
  have h := s.step10_store key
  fun_cases State.afterChecks s key <;> simp_all +zetaDelta

@[simp] theorem State.takeSnapshot_store (s : State) (key : Nat) (c : Ccw) : (s.takeSnapshot key c).store = s.store := by
  fun_cases State.takeSnapshot s key c <;> simp +zetaDelta

@[simp] theorem State.memberFails_store (s : State) (key : Nat) (c : Check) (count : Nat) :
    (s.memberFails key c count).store = s.store := by
  simp [State.memberFails]

@[simp] theorem State.nextMember_store (s : State) (key : Nat) (c : Ccw) : (s.nextMember key c).store = s.store :=
  sameMem.store ⟨rfl, rfl⟩

@[simp] theorem State.memberPasses_store (s : State) (key : Nat) : (s.memberPasses key).store = s.store := by
  fun_cases State.memberPasses s key <;> simp +zetaDelta

@[simp] theorem State.memberStep10_store (s : State) (key : Nat) : (s.memberStep10 key).store = s.store := by
  have h := s.step10_store key
  fun_cases State.memberStep10 s key <;> simp_all +zetaDelta

@[simp] theorem State.checkMember_store (s : State) (key : Nat) (c : Ccw) : (s.checkMember key c).store = s.store := by
  fun_cases State.checkMember s key c <;> simp

@[simp] theorem State.readRecord_store (s : State) (key : Nat) : (s.readRecord key).1.store = s.store := by
  fun_cases State.readRecord s key <;> simp +zetaDelta

@[simp] theorem stationAcquire_store (s : State) (key : Nat) : (stationAcquire s key).store = s.store := by
  have h := s.readRecord_store key
  fun_cases stationAcquire s key <;> simp_all +zetaDelta

theorem State.fetchCcw_got_store {s t : State} {key : Nat} {a : Quad} {c : Ccw} (h : s.fetchCcw key a = .got t c) :
    t.store = s.store := by
  simpa [h] using s.fetchCcw_store key a

theorem State.fetchCcw_wait_store {s t : State} {key : Nat} {a : Quad} (h : s.fetchCcw key a = .wait t) : t.store = s.store := by
  simpa [h] using s.fetchCcw_store key a

theorem State.fetchCcw_fail_store {s t : State} {key : Nat} {a : Quad} {c : Check} (h : s.fetchCcw key a = .fail t c) :
    t.store = s.store := by
  simpa [h] using s.fetchCcw_store key a

theorem State.readRecord_eq_store {s t : State} {key : Nat} {b : Bool} (h : s.readRecord key = (t, b)) : t.store = s.store := by
  simpa [h] using s.readRecord_store key

@[simp] theorem ccwFetch_store (s : State) (key : Nat) : (ccwFetch s key).store = s.store := by
  fun_cases ccwFetch s key <;>
    grind [→ State.fetchCcw_got_store, → State.fetchCcw_wait_store, → State.fetchCcw_fail_store, → State.readRecord_eq_store, State.memberFails_store,
      State.checkMember_store, State.memberStep10_store, State.afterChecks_store, State.setSlot_store,
      State.endOp_store, State.takeSnapshot_store]

@[simp] theorem whenMet_store (s : State) (key : Nat) : (whenMet s key).store = s.store := by simp [whenMet]

@[simp] theorem windowEnd_store (s : State) (key : Nat) : (windowEnd s key).store = s.store := by simp [windowEnd]

@[simp] theorem hostReadCompletion_store (s : State) (key : Nat) (res : HostResult) :
    (hostReadCompletion s key res).store = s.store := by
  unfold hostReadCompletion
  dsimp only
  split
  · rfl
  cases res <;> simp

@[simp] theorem State.endPulse_store (s : State) (l : Nat) : (s.endPulse l).store = s.store := by
  fun_cases State.endPulse s l <;> simp

@[simp] theorem State.launch_store (s : State) (key g : Nat) : (s.launch key g).store = s.store := by simp [State.launch]

@[simp] theorem State.countLaunch_store (s : State) (key : Nat) : (s.countLaunch key).store = s.store := sameMem.store ⟨rfl, rfl⟩

@[simp] theorem State.strikeAction_store (s : State) (k l act param : Nat) :
    (s.strikeAction k l act param).1.store = s.store := by
  fun_cases State.strikeAction s k l act param <;> simp +zetaDelta

theorem State.foldl_fst_store {α β : Type} {f : State × β → α → State × β} (hf : ∀ p x, (f p x).1.store = p.1.store)
    (l : List α) (p : State × β) : (l.foldl f p).1.store = p.1.store := by
  induction l generalizing p with
  | nil => rfl
  | cons x l ih => rw [List.foldl_cons, ih, hf]

@[simp] theorem strikeActionEffect_store (s : State) (g : Nat) : (strikeActionEffect s g).store = s.store := by
  unfold strikeActionEffect
  split
  · rfl
  split
  · rfl
  simp [State.foldl_fst_store]

@[simp] theorem pulseEnd_store (s : State) (l : Nat) : (pulseEnd s l).store = s.store := by fun_cases pulseEnd s l <;> simp

@[simp] theorem State.loadXfer_store (s : State) (key : Nat) : (s.loadXfer key).store = s.store := by
  fun_cases State.loadXfer s key <;> simp +zetaDelta

@[simp] theorem State.memberDone_store (s : State) (key : Nat) : (s.memberDone key).store = s.store := by
  simp [State.memberDone]

@[simp] theorem State.finishData_store (s : State) (key : Nat) (how : XferEnd) :
    (s.finishData key how).store = s.store := by
  simp [State.finishData]

@[simp] theorem State.dataProgress_store (s : State) (key : Nat) : (s.dataProgress key).store = s.store := by
  fun_cases State.dataProgress s key <;> simp

theorem State.takeBytes_eq_store {s t : State} {q n : Nat} {r : List Byte × Bool} (h : s.takeBytes q n = (t, r)) :
    t.store = s.store := by
  simpa [h] using s.takeBytes_store q n

@[simp] theorem State.dataOut_store (s : State) (key k : Nat) : (s.dataOut key k).store = s.store := by
  induction k generalizing s with
  | zero => rfl
  | succ k ih =>
    rw [State.dataOut]
    dsimp only
    split
    · rfl
    split
    · rfl
    split
    · simp [ih]
    split
    · exact State.fetchBytes_wait_store ‹_›
    · simp [State.fetchBytes_fail_store ‹_›]
    · have h := State.fetchBytes_bytes_store ‹_›
      split <;> simp [ih, h]

@[simp] theorem State.bareRun_store (s : State) (key : Nat) : (s.bareRun key).store = s.store := by
  fun_cases State.bareRun s key <;> simp +zetaDelta

@[simp] theorem State.senseEnd_store (s : State) (key : Nat) (how : XferEnd) : (s.senseEnd key how).store = s.store :=
  sameMem.store ⟨rfl, rfl⟩

@[simp] theorem State.branchTo_store (s : State) (key : Nat) (a : Quad) : (s.branchTo key a).store = s.store := by
  simp [State.branchTo]

@[simp] theorem jumpCcw_store (s : State) (key : Nat) : (jumpCcw s key).store = s.store := by simp [jumpCcw]

@[simp] theorem jumpIfCcw_store (s : State) (key : Nat) : (jumpIfCcw s key).store = s.store := by simp [jumpIfCcw]

@[simp] theorem loopCcw_store (s : State) (key : Nat) : (loopCcw s key).store = s.store := by
  fun_cases loopCcw s key <;> simp

@[simp] theorem waitCcw_store (s : State) (key : Nat) : (waitCcw s key).store = s.store := by simp [waitCcw]

@[simp] theorem strikeCcw_store (s : State) (key : Nat) : (strikeCcw s key).store = s.store := by simp [strikeCcw]

@[simp] theorem State.moveCount_store (s : State) (key n : Nat) : (s.moveCount key n).store = s.store := sameMem.store ⟨rfl, rfl⟩

@[simp] theorem State.drawBytes_store (s : State) (n : Nat) : (s.drawBytes n).2.store = s.store := sameMem.store ⟨rfl, rfl⟩

@[simp] theorem compareCcw_store (s : State) (key : Nat) : (compareCcw s key).store = s.store := by
  have h := s.fetchBytes_store key (leQuad (s.slot key).w.block) (ccwCount (s.slot key).ccw)
  fun_cases compareCcw s key <;> simp_all +zetaDelta

@[simp] theorem shapeCcw_store (s : State) (key : Nat) : (shapeCcw s key).store = s.store := by
  fun_cases shapeCcw s key <;> simp +zetaDelta

@[simp] theorem signalCcw_store (s : State) (key : Nat) : (signalCcw s key).store = s.store := by simp [signalCcw]

@[simp] theorem fenceCcw_store (s : State) (key : Nat) : (fenceCcw s key).store = s.store := by simp [fenceCcw]

@[simp] theorem nopCcw_store (s : State) (key : Nat) : (nopCcw s key).store = s.store := by simp [nopCcw]

@[simp] theorem State.deliver_store (s : State) (owner : Nat) (u : List Byte) : (s.deliver owner u).store = s.store :=
  sameMem.store ⟨rfl, rfl⟩

@[simp] theorem State.enterScan_store (s : State) (g f : Nat) : (s.enterScan g f).store = s.store := by
  simp [State.enterScan]

@[simp] theorem State.queueError_store (s : State) (g f code : Nat) : (s.queueError g f code).store = s.store := by
  simp [State.queueError]

@[simp] theorem State.consume_store (s : State) (g n : Nat) : (s.consume g n).store = s.store := by simp [State.consume]

@[simp] theorem State.redeem_store (s : State) (cq : Nat) (e : Entry) (inRing : Bool) :
    (s.redeem cq e inRing).store = s.store := sameMem.store ⟨rfl, rfl⟩

@[simp] theorem State.holdStart_store (s : State) (g f : Nat) (st : Start) : (s.holdStart g f st).store = s.store := by
  simp [State.holdStart]

@[simp] theorem State.notify_store (s : State) (g f n : Nat) (tag : Word) : (s.notify g f n tag).store = s.store := by
  unfold State.notify
  dsimp only
  split
  · simp
  · simp [State.reserve_store ‹_›]

@[simp] theorem State.actOn_store (s : State) (g f : Nat) (us : List (List Byte)) : (s.actOn g f us).store = s.store := by
  unfold State.actOn
  dsimp only
  split
  · split
    · simp
    split
    · simp
    · simp [State.reserve_store ‹_›]
  · simp

@[simp] theorem State.reread_store (s : State) (g f u : Nat) : (s.reread g f u).store = s.store := by simp [State.reread]

@[simp] theorem State.dropBadUnits_store (s : State) (g : Nat) : (s.dropBadUnits g).store = s.store := by
  simp [State.dropBadUnits]

@[simp] theorem State.scanTurn_store (s : State) (g f : Nat) : (s.scanTurn g f).store = s.store := by
  fun_cases State.scanTurn s g f <;> simp +zetaDelta

@[simp] theorem State.scanReturn_store (s : State) (g f i : Nat) (res : HostResult) :
    (s.scanReturn g f i res).store = s.store := by
  unfold State.scanReturn
  dsimp only
  split
  · rfl
  cases res <;> simp

@[simp] theorem scanReadReturn_store (s : State) (g : Nat) (ret : Option (Nat × HostResult)) :
    (scanReadReturn s g ret).store = s.store := by
  unfold scanReadReturn
  split
  · simp
  · split <;> simp

@[simp] theorem State.ringRung_store (s : State) (f i : Nat) : (s.ringRung f i).store = s.store := by simp [State.ringRung]

@[simp] theorem State.ringDoorbell_store (s : State) (f i : Nat) : (s.ringDoorbell f i).store = s.store := by
  simp [State.ringDoorbell]

@[simp] theorem queueResume_store (s : State) (g : Nat) : (queueResume s g).store = s.store := by
  unfold queueResume
  split <;> simp

@[simp] theorem wqFence_store (s : State) (g : Nat) : (wqFence s g).store = s.store := by
  fun_cases wqFence s g <;> grind [→ State.reserve_store, State.roomUpdate_store, State.enterScan_store,
    State.consume_store, State.redeem_store]

@[simp] theorem State.decided_store (s : State) (g len : Nat) : (s.decided g len).store = s.store := by
  fun_cases State.decided s g len <;> simp +zetaDelta

@[simp] theorem State.countVerdict_store (s : State) (v : Verdict) : (s.countVerdict v).store = s.store := by
  unfold State.countVerdict
  split <;> simp

@[simp] theorem State.sendBack_store (s : State) (st : Start) : (s.sendBack st).store = s.store := by simp [State.sendBack]

@[simp] theorem admissionDecision_store (s : State) : (admissionDecision s).store = s.store := by
  fun_cases admissionDecision s <;> simp +zetaDelta

@[simp] theorem State.ceaStop_store (s : State) : s.ceaStop.store = s.store := by simp [State.ceaStop]

@[simp] theorem State.ceaConsume_store (s : State) (n : Nat) : (s.ceaConsume n).store = s.store := sameMem.store ⟨rfl, rfl⟩

@[simp] theorem State.ceaScan_store (s : State) (n : Nat) : (s.ceaScan n).store = s.store := by
  fun_induction State.ceaScan s n <;> simp_all +zetaDelta

@[simp] theorem State.ceaScanOn_store (s : State) : s.ceaScanOn.store = s.store := by simp [State.ceaScanOn]

@[simp] theorem State.ceaDoorbell_store (s : State) : s.ceaDoorbell.store = s.store := by simp [State.ceaDoorbell]

@[simp] theorem State.ceaCtrl_store (s : State) (v : Word) : (s.ceaCtrl v).store = s.store := by simp [State.ceaCtrl]

@[simp] theorem ceAStall_store (s : State) : (ceAStall s).store = s.store := by fun_cases ceAStall s <;> simp +zetaDelta

@[simp] theorem State.qmCfgErr_store (s : State) (f : Nat) : (s.qmCfgErr f).store = s.store := sameMem.store ⟨rfl, rfl⟩

@[simp] theorem State.ringEnable_store (s : State) (f g : Nat) : (s.ringEnable f g).store = s.store := by
  simp [State.ringEnable]

@[simp] theorem State.ringDisable_store (s : State) (f g : Nat) : (s.ringDisable f g).store = s.store := by
  simp [State.ringDisable]

@[simp] theorem State.ringRestart_store (s : State) (f g : Nat) : (s.ringRestart f g).store = s.store := by
  simp [State.ringRestart]

@[simp] theorem State.shareWrite_store (s : State) (f : Nat) (v : Word) : (s.shareWrite f v).store = s.store := by
  simp [State.shareWrite]

/-! ## Machine/Halt -/

@[simp] theorem State.dropXfer_store (s : State) (l : Nat) (t : Xfer) : (s.dropXfer l t).store = s.store := by
  simp [State.dropXfer]

@[simp] theorem State.stopKernel_store (s : State) (key : Nat) : (s.stopKernel key).store = s.store := sameMem.store ⟨rfl, rfl⟩

@[simp] theorem State.endOnRequest_store (s : State) (key : Nat) (clear : Bool) :
    (s.endOnRequest key clear).store = s.store := by
  simp [State.endOnRequest]

@[simp] theorem State.clearHalting_store (s : State) (key : Nat) : (s.clearHalting key).store = s.store := by
  simp [State.clearHalting]

@[simp] theorem clearSlot_store (s : State) (key : Nat) : (clearSlot s key).store = s.store := by
  fun_cases clearSlot s key <;> simp +zetaDelta

@[simp] theorem suspendSlot_store (s : State) (key : Nat) : (suspendSlot s key).store = s.store := by simp [suspendSlot]

@[simp] theorem resumeSlot_store (s : State) (key : Nat) : (resumeSlot s key).store = s.store := by simp [resumeSlot]

@[simp] theorem stopBoundaryTimeout_store (s : State) (key : Nat) : (stopBoundaryTimeout s key).store = s.store := by
  fun_cases stopBoundaryTimeout s key <;> simp

@[simp] theorem responseTimeout_store (s : State) (key : Nat) : (responseTimeout s key).store = s.store := by
  simp [responseTimeout]

@[simp] theorem busyClaimExhausted_store (s : State) (key : Nat) : (busyClaimExhausted s key).store = s.store := by
  simp [busyClaimExhausted]

@[simp] theorem deadlineMiss_store (s : State) (key : Nat) : (deadlineMiss s key).store = s.store := by
  simp -implicitDefEqProofs [deadlineMiss]

@[simp] theorem shapeLate_store (s : State) (key : Nat) : (shapeLate s key).store = s.store := by
  unfold shapeLate
  split <;> simp

@[simp] theorem lockstepMismatch_store (s : State) (e : Nat) : (lockstepMismatch s e).store = s.store := by
  simp [lockstepMismatch]

@[simp] theorem State.lockstepEnd_store (s : State) (key : Nat) : (s.lockstepEnd key).store = s.store := by
  simp [State.lockstepEnd]

@[simp] theorem sequencerResetDone_store (s : State) (e : Nat) : (sequencerResetDone s e).store = s.store := by
  simp [sequencerResetDone]

@[simp] theorem completionTimeout_store (s : State) (f : Nat) (who : ReadOwner) :
    (completionTimeout s f who).store = s.store := by
  unfold completionTimeout
  split <;> simp

@[simp] theorem State.sendOn_store (s : State) (key i : Nat) : (s.sendOn key i).store = s.store := by
  fun_cases State.sendOn s key i <;> simp

@[simp] theorem State.slotSendOn_store (s : State) (key : Nat) : (s.slotSendOn key).store = s.store := by
  simp [State.slotSendOn]

@[simp] theorem State.ringSendOn_store (s : State) (g : Nat) : (s.ringSendOn g).store = s.store := by
  unfold State.ringSendOn
  split
  · rfl
  split
  · rfl
  dsimp only
  simp only [State.ite_store, State.headRead_store, ite_self]
  refine State.foldl_store (fun t i => ?_) _ s
  split <;> simp

@[simp] theorem State.sendWaiting_store (s : State) : s.sendWaiting.store = s.store := by simp [State.sendWaiting]

@[simp] theorem State.ackSleep_store (s : State) (q : SleepRequest) : (s.ackSleep q).store = s.store := by
  unfold State.ackSleep
  split <;> simp

@[simp] theorem sleepFlush_store (s : State) (q : SleepRequest) : (sleepFlush s q).store = s.store := by simp [sleepFlush]

@[simp] theorem flushAckTimeout_store (s : State) (q : SleepRequest) : (flushAckTimeout s q).store = s.store := by
  simp [flushAckTimeout]

/-! ## Machine/Samples -/

@[simp] theorem State.jEdge_store (s : State) (l : Nat) (level : Bool) : (s.jEdge l level).store = s.store := by
  simp [State.jEdge]

@[simp] theorem State.jTempo_store (s : State) (n pos : Nat) : (s.jTempo n pos).store = s.store := by simp [State.jTempo]

@[simp] theorem State.jSamplesOut_store (s : State) (e : Nat × Nat × Nat × Nat × List Nat) :
    (s.jSamplesOut e).store = s.store := by
  simp [State.jSamplesOut]

@[simp] theorem State.jSamplesEnd_store (s : State) (l : Nat) : (s.jSamplesEnd l).store = s.store := by
  unfold State.jSamplesEnd
  split <;> simp

@[simp] theorem State.jSample_store (s : State) (l w v : Nat) : (s.jSample l w v).store = s.store := by
  unfold State.jSample
  extract_lets s1 old e
  have h1 : s1.store = s.store := by
    simp only [s1]
    split
    · split <;> simp
    · rfl
  exact h1

@[simp] theorem State.jSamplesDue_store (s : State) : s.jSamplesDue.store = s.store := by simp [State.jSamplesDue]

@[simp] theorem State.jItem_store (s : State) (l : Nat) (inbound : Bool) (r : ItemResult) :
    (s.jItem l inbound r).store = s.store := by
  cases r <;> simp [State.jItem]

@[simp] theorem State.jLastT_store (s : State) (l : Nat) : (s.jLastT l).store = s.store := sameMem.store ⟨rfl, rfl⟩

@[simp] theorem State.jXferEnd_store (s : State) (l : Nat) (how : XferEnd) : (s.jXferEnd l how).store = s.store := by
  simp [State.jXferEnd]

/-! ## Machine/Lanes -/

@[simp] theorem State.unitCheck_store (s : State) (key reason : Nat) : (s.unitCheck key reason).store = s.store := by
  simp [State.unitCheck]

@[simp] theorem State.flowFault_store (s : State) (l : Nat) (under : Bool) : (s.flowFault l under).store = s.store := by
  fun_cases State.flowFault s l under <;> simp +zetaDelta

@[simp] theorem State.countSlot_store (s : State) (l : Nat) : (s.countSlot l).store = s.store := by simp [State.countSlot]

@[simp] theorem State.pushItem_store (s : State) (l : Nat) (v : Word) : (s.pushItem l v).store = s.store := by
  simp [State.pushItem]

@[simp] theorem State.sendItem_store (s : State) (l : Nat) (d : List Byte) : (s.sendItem l d).store = s.store := by
  simp [State.sendItem]

theorem itemIn_taken_store {s : State} {out : Bool} {q : Nat} {r : State × List Byte × Bool}
    (h : (if out = true then s.takeBytes q 1 else (s, [], false)) = r) : r.1.store = s.store := by
  subst h
  split <;> simp

@[simp] theorem State.strayFault_store (s : State) (l : Nat) : (s.strayFault l).store = s.store := by
  fun_cases State.strayFault s l <;> simp +zetaDelta

@[simp] theorem streamIdleClose_store (s : State) (l : Nat) : (streamIdleClose s l).store = s.store := by
  simp [streamIdleClose]

@[simp] theorem State.laneReturn_store (s : State) (l : Nat) : (s.laneReturn l).store = s.store := by
  simp [State.laneReturn]

@[simp] theorem State.laneReturns_store (s : State) : s.laneReturns.store = s.store := by simp [State.laneReturns]

@[simp] theorem State.pwmTick_store (s : State) (l : Nat) : (s.pwmTick l).store = s.store := by
  fun_cases State.pwmTick s l <;> simp

@[simp] theorem State.pwmTicks_store (s : State) : s.pwmTicks.store = s.store := by simp [State.pwmTicks]

@[simp] theorem State.attend_store (s : State) (st : Nat) : (s.attend st).store = s.store := by simp [State.attend]

@[simp] theorem attentionEvent_store (s : State) (st : Nat) (k : AttnKind) : (attentionEvent s st k).store = s.store := by
  unfold attentionEvent
  split
  · simp
  · split <;> simp

@[simp] theorem ibi_store (s : State) (st : Nat) (payload : List Byte) : (ibi s st payload).store = s.store := by simp [ibi]

@[simp] theorem State.rbErr_store (s : State) (l : Nat) : (s.rbErr l).store = s.store := by simp [State.rbErr]

@[simp] theorem readbackFault_store (s : State) (l : Nat) : (readbackFault s l).store = s.store := by
  fun_cases readbackFault s l <;> simp +zetaDelta

@[simp] theorem State.forceSafe_store (s : State) : s.forceSafe.store = s.store := by simp [State.forceSafe]

@[simp] theorem State.releaseSafe_store (s : State) : s.releaseSafe.store = s.store := by simp [State.releaseSafe]

@[simp] theorem State.pgCmCtrl_store (s : State) (v : Word) : (s.pgCmCtrl v).store = s.store := by simp [State.pgCmCtrl]

@[simp] theorem safenLow_store (s : State) : (safenLow s).store = s.store := by simp [safenLow]

@[simp] theorem safenHigh_store (s : State) : (safenHigh s).store = s.store := by simp [safenHigh]

/-! ## Machine/Tempo -/

@[simp] theorem State.slotLoses_store (s : State) (key n : Nat) : (s.slotLoses key n).store = s.store := by
  simp [State.slotLoses]

@[simp] theorem State.lossSlots_store (s : State) (n : Nat) : (s.lossSlots n).store = s.store := by simp [State.lossSlots]

@[simp] theorem State.srcLose_store (s : State) (n p : Nat) : (s.srcLose n p).store = s.store := by simp [State.srcLose]

@[simp] theorem State.srcOff_store (s : State) (n : Nat) : (s.srcOff n).store = s.store := by simp [State.srcOff]

@[simp] theorem State.srcInputOff_store (s : State) (n : Nat) : (s.srcInputOff n).store = s.store := by
  simp [State.srcInputOff]

@[simp] theorem State.srcOn_store (s : State) (n : Nat) : (s.srcOn n).store = s.store := sameMem.store ⟨rfl, rfl⟩

@[simp] theorem State.boundary_store (s : State) (n at_ : Nat) : (s.boundary n at_).store = s.store := by
  fun_cases State.boundary s n at_ <;> simp +zetaDelta

@[simp] theorem State.countedEdge_store (s : State) (n at_ : Nat) : (s.countedEdge n at_).store = s.store := by
  simp [State.countedEdge]

@[simp] theorem State.stableEdge_store (s : State) (n at_ : Nat) (rising : Bool) :
    (s.stableEdge n at_ rising).store = s.store := by
  fun_cases State.stableEdge s n at_ rising <;> simp +zetaDelta

@[simp] theorem inputEdge_store (s : State) (n : Nat) (rising : Bool) : (inputEdge s n rising).store = s.store := by
  fun_cases inputEdge s n rising <;> simp

@[simp] theorem State.settleEdge_store (s : State) (n : Nat) : (s.settleEdge n).store = s.store := by
  unfold State.settleEdge
  split <;> simp

@[simp] theorem State.settleEdges_store (s : State) : s.settleEdges.store = s.store := by simp [State.settleEdges]

@[simp] theorem sourceOverdue_store (s : State) (n : Nat) : (sourceOverdue s n).store = s.store := by simp [sourceOverdue]

@[simp] theorem holdoverExpiry_store (s : State) (n : Nat) : (holdoverExpiry s n).store = s.store := by
  simp [holdoverExpiry]

@[simp] theorem State.setTsync_store (s : State) (b : Bool) : (s.setTsync b).store = s.store := sameMem.store ⟨rfl, rfl⟩

@[simp] theorem hostTimeUpdate_store (s : State) (t : Nat) : (hostTimeUpdate s t).store = s.store := by
  simp [hostTimeUpdate]

@[simp] theorem hostSyncLoss_store (s : State) : (hostSyncLoss s).store = s.store := by simp [hostSyncLoss]

@[simp] theorem dupCounterMismatch_store (s : State) (n other : Nat) : (dupCounterMismatch s n other).store = s.store := by
  simp [dupCounterMismatch]

@[simp] theorem tempoClockChange_store (s : State) : (tempoClockChange s).store = s.store := by
  fun_cases tempoClockChange s <;> simp -implicitDefEqProofs +zetaDelta

/-! ## Machine/Access -/

@[simp] theorem State.refuse_store (s : State) (m : Master) (a : Nat) : (s.refuse m a).store = s.store := by
  unfold State.refuse
  split <;> simp

@[simp] theorem State.refuseReins_store (s : State) (m : Master) (a : Nat) : (s.refuseReins m a).store = s.store := by
  simp [State.refuseReins]

@[simp] theorem State.plainWrite_store (s : State) (a : Nat) (v : Word) (cfg : Nat) :
    (s.plainWrite a v cfg).store = s.store := by
  unfold State.plainWrite
  split <;> simp

/-! ## Machine/QueueRegs -/

@[simp] theorem doorbell_store (s : State) (f i : Nat) : (doorbell s f i).store = s.store := by simp [doorbell]

@[simp] theorem State.regRow_store {f : State → State} (hf : ∀ t, (f t).store = t.store) (s : State) (m : Master)
    (a : Nat) (v : Word) : (s.regRow m a v f).store = s.store := by
  fun_cases State.regRow s m a v f <;> simp [hf]

@[simp] theorem State.readRow_store {f : State → State × Word} (hf : ∀ t, (f t).1.store = t.store) (s : State)
    (m : Master) (a : Nat) : (s.readRow m a f).store = s.store := by
  unfold State.readRow
  split <;> simp [hf]

@[simp] theorem State.ringCmd_store (s : State) (m : Master) (f code : Nat) : (s.ringCmd m f code).store = s.store := by
  refine State.regRow_store (fun t => ?_) s m _ _
  split <;> simp

@[simp] theorem State.ceaCtrlRow_store (s : State) (v : Word) : (s.ceaCtrlRow v).store = s.store := by
  simp [State.ceaCtrlRow]

@[simp] theorem State.srcCfgWrite_store (s : State) (n : Nat) (v : Word) : (s.srcCfgWrite n v).store = s.store := by
  simp [State.srcCfgWrite]

@[simp] theorem State.positionRead_store (s : State) (m n : Nat) : (s.positionRead m n).1.store = s.store := by
  simp -implicitDefEqProofs [State.positionRead]

@[simp] theorem State.dueStrike_store (s : State) (g key : Nat) : (s.dueStrike g key).store = s.store := by
  simp [State.dueStrike]

@[simp] theorem State.sgWrite_store (s : State) (g : Nat) (v : Word) : (s.sgWrite g v).store = s.store := by
  simp [State.sgWrite]

@[simp] theorem State.actWrite_store (s : State) (i : Nat) (v : Word) : (s.actWrite i v).store = s.store := by
  simp [State.actWrite]

/-! ## Machine/PortRegs -/

@[simp] theorem State.tempoLanes_store (s : State) (l : Nat) : (s.tempoLanes l).store = s.store := by
  simp [State.tempoLanes]

@[simp] theorem State.place_store (s : State) (p fn : Nat) : (s.place p fn).store = s.store := by
  simp -implicitDefEqProofs [State.place]

@[simp] theorem State.pgCfgErr_store (s : State) (l : Nat) : (s.pgCfgErr l).store = s.store := by simp [State.pgCfgErr]

@[simp] theorem State.laneFnWrite_store (s : State) (l : Nat) (v : Word) : (s.laneFnWrite l v).store = s.store := by
  simp [State.laneFnWrite]

@[simp] theorem State.laneCfgWrite_store (s : State) (l : Nat) (v : Word) : (s.laneCfgWrite l v).store = s.store := by
  simp [State.laneCfgWrite]

@[simp] theorem State.laneTimWrite_store (s : State) (l : Nat) (v : Word) : (s.laneTimWrite l v).store = s.store := by
  simp [State.laneTimWrite]

@[simp] theorem State.pgCtrlWrite_store (s : State) (n : Nat) (v : Word) : (s.pgCtrlWrite n v).store = s.store := by
  simp [State.pgCtrlWrite]

@[simp] theorem State.cmCfgErr_store (s : State) : s.cmCfgErr.store = s.store := by simp [State.cmCfgErr]

@[simp] theorem State.storeDesc_store (s : State) (n : Nat) (x : Station) : (s.storeDesc n x).store = s.store := by
  simp [State.storeDesc]

@[simp] theorem State.descWrite_store (s : State) (n w : Nat) (v : Word) : (s.descWrite n w v).store = s.store := by
  unfold State.descWrite
  split <;> simp

@[simp] theorem State.profileWrite_store (s : State) (p w : Nat) (v : Word) : (s.profileWrite p w v).store = s.store := by
  simp [State.profileWrite]

@[simp] theorem State.sfCfgWrite_store (s : State) (q : Nat) (v : Word) : (s.sfCfgWrite q v).store = s.store := by
  simp [State.sfCfgWrite]

@[simp] theorem State.alwaysOnLimits_store (s : State) : s.alwaysOnLimits.store = s.store := by simp [State.alwaysOnLimits]

@[simp] theorem vioRemoved_store (s : State) (n : Nat) : (vioRemoved s n).store = s.store := by
  simp -implicitDefEqProofs [vioRemoved]

/-! ## Machine/HostPort -/

@[simp] theorem State.setLinkCap_store (s : State) : s.setLinkCap.store = s.store := sameMem.store ⟨rfl, rfl⟩

@[simp] theorem State.setLink_store (s : State) (tun dl : Bool) (cl : Nat) : (s.setLink tun dl cl).store = s.store :=
  sameMem.store ⟨rfl, rfl⟩

@[simp] theorem State.carry_store (s : State) : s.carry.store = s.store := by simp [State.carry]

@[simp] theorem linkTrained_store (s : State) (gen3 two : Bool) : (linkTrained s gen3 two).store = s.store := by
  fun_cases linkTrained s gen3 two <;> simp +zetaDelta

@[simp] theorem tunnelPause_store (s : State) (why : PauseWhy) : (tunnelPause s why).store = s.store := by
  simp [tunnelPause]

@[simp] theorem State.ringDisabled_store (s : State) (g : Nat) : (s.ringDisabled g).store = s.store := by
  simp [State.ringDisabled]

@[simp] theorem State.ringFnReset_store (s : State) (g : Nat) : (s.ringFnReset g).store = s.store := sameMem.store ⟨rfl, rfl⟩

@[simp] theorem State.fnResetStart_store (s : State) (f : Nat) : (s.fnResetStart f).store = s.store := by
  simp [State.fnResetStart]

@[simp] theorem State.cfgSpaceReset_store (s : State) (f : Nat) : (s.cfgSpaceReset f).store = s.store := by
  simp [State.cfgSpaceReset]

@[simp] theorem flrStart_store (s : State) (f : Nat) : (flrStart s f).store = s.store := by simp [flrStart]

@[simp] theorem State.fnResetWrite_store (s : State) (f : Nat) (v : Word) : (s.fnResetWrite f v).store = s.store := by
  simp [State.fnResetWrite]

@[simp] theorem State.cutSlot_store (s : State) (key : Nat) : (s.cutSlot key).store = s.store := by simp [State.cutSlot]

@[simp] theorem State.disarmOwned_store (s : State) (f : Nat) : (s.disarmOwned f).store = s.store := by
  simp [State.disarmOwned]

@[simp] theorem State.fnBoxReset_store (s : State) (f : Nat) : (s.fnBoxReset f).store = s.store := sameMem.store ⟨rfl, rfl⟩

@[simp] theorem State.fnResetFinish_store (s : State) (f : Nat) : (s.fnResetFinish f).store = s.store := by
  simp -implicitDefEqProofs [State.fnResetFinish]

@[simp] theorem functionResetEnd_store (s : State) (f : Nat) : (functionResetEnd s f).store = s.store := by
  unfold functionResetEnd
  split <;> simp

@[simp] theorem tunnelLoss_store (s : State) : (tunnelLoss s).store = s.store := by simp [tunnelLoss]

@[simp] theorem liveLoss_store (s : State) : (liveLoss s).store = s.store := by simp [liveLoss]

@[simp] theorem State.loseTunnel_store (s : State) : s.loseTunnel.store = s.store := by simp [State.loseTunnel]

@[simp] theorem tunnelResume_store (s : State) : (tunnelResume s).store = s.store := by
  unfold tunnelResume
  split <;> simp

@[simp] theorem State.linkTick_store (s : State) : s.linkTick.store = s.store := by simp [State.linkTick]

@[simp] theorem cl2Request_store (s : State) (router : Bool) : (cl2Request s router).store = s.store := by simp [cl2Request]

@[simp] theorem State.ptmStart_store (s : State) : s.ptmStart.store = s.store := by simp [State.ptmStart]

@[simp] theorem State.powerState_store (s : State) (f ps : Nat) : (s.powerState f ps).store = s.store := by
  simp [State.powerState]

@[simp] theorem powerStateWrite_store (s : State) (f ps : Nat) : (powerStateWrite s f ps).store = s.store := by
  simp [powerStateWrite]

@[simp] theorem configWrite_store (s : State) (f off : Nat) (v : Word) : (configWrite s f off v).store = s.store := by
  simp [configWrite]

@[simp] theorem ptmDialogue_store (s : State) : (ptmDialogue s).store = s.store := by simp [ptmDialogue]

@[simp] theorem State.ptmWrite_store (s : State) (r : Option Quad) (f : Nat) : (s.ptmWrite r f).store = s.store := by
  unfold State.ptmWrite
  split <;> simp

@[simp] theorem ptmDialogueDone_store (s : State) (r : Option Quad) : (ptmDialogueDone s r).store = s.store := by
  simp [ptmDialogueDone]

/-! ## Machine/Interrupts -/

@[simp] theorem State.dropCommits_store (s : State) (p n : Nat) : (s.dropCommits p n).store = s.store := sameMem.store ⟨rfl, rfl⟩

@[simp] theorem State.claim_store (s : State) (p n q : Nat) : (s.claim p n q).1.store = s.store := by simp [State.claim]

@[simp] theorem State.wfiClaim_store (s : State) (p n : Nat) : (s.wfiClaim p n).store = s.store := by simp [State.wfiClaim]

@[simp] theorem State.completeIrq_store (s : State) (n : Nat) : (s.completeIrq n).store = s.store := sameMem.store ⟨rfl, rfl⟩

@[simp] theorem State.icRaise_store (s : State) (v : Word) : (s.icRaise v).store = s.store := by simp [State.icRaise]

@[simp] theorem candidateCommit_store (s : State) (p : Nat) : (candidateCommit s p).store = s.store := by
  unfold candidateCommit
  repeat' split
  all_goals simp

@[simp] theorem State.wakenSet_store (s : State) : s.wakenSet.store = s.store := sameMem.store ⟨rfl, rfl⟩

@[simp] theorem State.raiseReq_store (s : State) (lo m : Nat) : (s.raiseReq lo m).store = s.store := by
  simp [State.raiseReq]

@[simp] theorem State.wakeEvent_store (s : State) (i : Nat) (always : Bool) : (s.wakeEvent i always).store = s.store := by
  fun_cases State.wakeEvent s i always <;> simp +zetaDelta

@[simp] theorem State.icComplete_store (s : State) (m p : Nat) (v : Word) : (s.icComplete m p v).store = s.store := by
  simp -implicitDefEqProofs [State.icComplete]

@[simp] theorem State.icClaim_store (s : State) (m : Master) : (s.icClaim m).1.store = s.store := by
  unfold State.icClaim
  split
  · simp
  · split <;> simp

@[simp] theorem State.crossFn_store (s : State) (f : Nat) : (s.crossFn f).store = s.store := by simp [State.crossFn]

@[simp] theorem State.crossHalves_store (s : State) : s.crossHalves.store = s.store := by simp [State.crossHalves]

@[simp] theorem State.fillBox_store (s : State) (b : Nat) (v : Word) : (s.fillBox b v).store = s.store := sameMem.store ⟨rfl, rfl⟩

@[simp] theorem State.boxRefused_store (s : State) (m : Master) (a cause box : Nat) :
    (s.boxRefused m a cause box).store = s.store := by
  simp -implicitDefEqProofs [State.boxRefused]

@[simp] theorem State.hostBoxWrite_store (s : State) (f : Nat) (v : Word) : (s.hostBoxWrite f v).store = s.store := by
  simp [State.hostBoxWrite]

@[simp] theorem State.fnBoxWrite_store (s : State) (m : Master) (f : Nat) (v : Word) :
    (s.fnBoxWrite m f v).store = s.store := by
  simp [State.fnBoxWrite]

@[simp] theorem State.p2cWrite_store (s : State) (m : Master) (v : Word) : (s.p2cWrite m v).store = s.store := by
  simp [State.p2cWrite]

@[simp] theorem State.c2pWrite_store (s : State) (m : Master) (v : Word) : (s.c2pWrite m v).store = s.store := by
  simp [State.c2pWrite]

@[simp] theorem State.boxWrite_store (s : State) (m : Master) (b : Nat) (v : Word) :
    (s.boxWrite m b v).store = s.store := by
  simp [State.boxWrite]

@[simp] theorem State.boxRead_store (s : State) (b : Nat) : (s.boxRead b).1.store = s.store := by
  unfold State.boxRead
  split <;> simp

@[simp] theorem State.lockRead_store (s : State) (m n : Nat) : (s.lockRead m n).1.store = s.store := by
  fun_cases State.lockRead s m n <;> simp

@[simp] theorem State.lockWrite_store (s : State) (m n : Nat) (v : Word) : (s.lockWrite m n v).store = s.store := by
  simp -implicitDefEqProofs [State.lockWrite]

@[simp] theorem State.releaseLocks_store (s : State) (m : Nat) : (s.releaseLocks m).store = s.store := by
  simp [State.releaseLocks]

@[simp] theorem State.freeLocks_store (s : State) : s.freeLocks.store = s.store := sameMem.store ⟨rfl, rfl⟩

/-! ## Machine/ShapeOps -/

@[simp] theorem State.scLoad_store (s : State) (c : Nat) (x : ScCore) (a n : Nat) :
    (s.scLoad c x a n).1.store = s.store := by
  unfold State.scLoad
  split
  · rfl
  dsimp only
  split <;> simp [apply_ite Prod.fst]

@[simp] theorem State.shapeDone_store (s : State) (key : Nat) (e : KernelEnd) : (s.shapeDone key e).store = s.store := by
  simp [State.shapeDone]

@[simp] theorem State.scFree_store (s : State) (c : Nat) : (s.scFree c).store = s.store := sameMem.store ⟨rfl, rfl⟩

@[simp] theorem State.scRecord_store (s : State) (c : Nat) (e : ScExc) : (s.scRecord c e).store = s.store := by
  simp -implicitDefEqProofs [State.scRecord]

@[simp] theorem State.scFinish_store (s : State) (c : Nat) : (s.scFinish c).store = s.store := by
  fun_cases State.scFinish s c <;> simp

@[simp] theorem State.scExcept_store (s : State) (c : Nat) (e : ScExc) : (s.scExcept c e).store = s.store := by
  simp [State.scExcept]

@[simp] theorem State.hwcheck_store (s : State) (r : Report) : (s.hwcheck r).store = s.store := by simp [State.hwcheck]

@[simp] theorem State.scReturn_store (s : State) (c : Nat) (x : ScCore) : (s.scReturn c x).store = s.store := by
  simp [State.scReturn]

@[simp] theorem State.dmaIn_store (s : State) (c : Nat) (d : Dma) : (s.dmaIn c d).store = s.store := by simp [State.dmaIn]

@[simp] theorem State.scStart_store (s : State) (c : Nat) (r : ShapeReq) : (s.scStart c r).store = s.store := sameMem.store ⟨rfl, rfl⟩

@[simp] theorem State.qwait_store (s : State) (r : ShapeReq) : (s.qwait r).store = s.store := by simp [State.qwait]

@[simp] theorem State.shapeOrphans_store (s : State) : s.shapeOrphans.store = s.store := by simp [State.shapeOrphans]

@[simp] theorem shapeDispatch_store (s : State) : (shapeDispatch s).store = s.store := by
  unfold shapeDispatch
  repeat' split
  all_goals simp

@[simp] theorem klimitReached_store (s : State) (c : Nat) : (klimitReached s c).store = s.store := by
  unfold klimitReached
  split <;> simp

@[simp] theorem kernelStop_store (s : State) (c : Nat) : (kernelStop s c).store = s.store := by simp [kernelStop]

@[simp] theorem State.scCfgErr_store (s : State) (c : Nat) : (s.scCfgErr c).store = s.store := by simp [State.scCfgErr]

@[simp] theorem State.scCtrl_store (s : State) (c : Nat) (v : Word) : (s.scCtrl c v).store = s.store := by
  unfold State.scCtrl
  extract_lets x s1 s2
  have h2 : s2.store = s.store := by
    simp only [s2]
    split <;> simp [s1]
  split
  · simp
  · simp [h2]

@[simp] theorem State.scStoreWord_store (s : State) (c : Nat) (k : ScStore) (off : Nat) (v : Word) :
    (s.scStoreWord c k off v).store = s.store := sameMem.store ⟨rfl, rfl⟩

@[simp] theorem State.dmemStore_store (s : State) (c : Nat) (v : Word) : (s.dmemStore c v).store = s.store := by
  simp [State.dmemStore]

@[simp] theorem dmemData_store (s : State) (m : Master) (c : Nat) (op : RegOp) : (dmemData s m c op).store = s.store := by
  unfold dmemData
  extract_lets a adr step dis
  split
  · simp
  · exact State.readRow_store (fun t => by simp [step, apply_ite Prod.fst]) s m a

@[simp] theorem State.windowStore_store (s : State) (c off : Nat) (v : Word) : (s.windowStore c off v).store = s.store := by
  unfold State.windowStore
  split <;> simp

@[simp] theorem windowAccess_store (s : State) (m : Master) (c off size : Nat) (op : RegOp) :
    (windowAccess s m c off size op).store = s.store := by
  unfold windowAccess
  split
  · rfl
  extract_lets a whole
  split
  · simp
  · exact State.readRow_store (fun t => by simp [apply_ite Prod.fst]) s m a

@[simp] theorem State.wfiTake_store (s : State) (c : Nat) : (s.wfiTake c).store = s.store := by
  unfold State.wfiTake
  split <;> simp

@[simp] theorem interruptDelivery_store (s : State) (p : Nat) : (interruptDelivery s p).store = s.store := by
  unfold interruptDelivery
  split <;> simp

@[simp] theorem State.scExec_store {f : State → ScCore → Word → ScDone} (hf : ∀ t x w, (f t x w).state.store = t.store)
    (s : State) (c : Nat) (want : Word → Bool) : (s.scExec c want f).store = s.store := by
  unfold State.scExec
  extract_lets x w
  split
  · rfl
  split
  · simp
  split
  · simp
  split
  · rfl
  have h := hf s x w
  split <;> simp_all

/-! ## Machine/ShapeFlow -/

@[simp] theorem State.sysOp_store {f : State → ScCore → ScDone} (hf : ∀ t x, (f t x).state.store = t.store) (s : State)
    (c fn : Nat) : (s.sysOp c fn f).store = s.store :=
  State.scExec_store (fun t x w => by simp [hf]) s c _

@[simp] theorem State.alu_store (s : State) (c fn : Nat) (wr useRs2 : Bool) (f : ScCore → Word → Word → AluOut) :
    (s.alu c fn wr useRs2 f).store = s.store :=
  State.scExec_store (fun t x w => by simp) s c _

@[simp] theorem State.aluImm_store (s : State) (c major : Nat) (wr useRs1 flags : Bool) (f : ScCore → Word → Word → AluOut) :
    (s.aluImm c major wr useRs1 flags f).store = s.store :=
  State.scExec_store (fun t x w => by simp) s c _

@[simp] theorem State.bitOp_store (s : State) (c fn : Nat) (f : Word → Word) : (s.bitOp c fn f).store = s.store :=
  State.scExec_store (fun t x w => by simp) s c _

@[simp] theorem State.fieldOp_store (s : State) (c fn : Nat) (useSx : Bool) (f : Word → Word → Nat → Nat → Bool → Word) :
    (s.fieldOp c fn useSx f).store = s.store :=
  State.scExec_store (fun t x w => by simp) s c _

@[simp] theorem State.mac_store (s : State) (c fn : Nat) (f : ScCore → Int → Word → Word → Int) :
    (s.mac c fn f).store = s.store :=
  State.scExec_store (fun t x w => by simp) s c _

@[simp] theorem State.accOp_store (s : State) (c fn : Nat) (useRd useRs : Bool) (f : ScCore → Nat → Word → ScCore) :
    (s.accOp c fn useRd useRs f).store = s.store :=
  State.scExec_store (fun t x w => by simp) s c _

theorem State.scLoad_eq_store {s t : State} {c : Nat} {x : ScCore} {a n : Nat} {r : Except ScExc (List Byte)}
    (h : s.scLoad c x a n = (t, r)) : t.store = s.store := by
  simpa [h] using s.scLoad_store c x a n

@[simp] theorem State.scLd_store (s : State) (c major n : Nat) (sx : Bool) : (s.scLd c major n sx).store = s.store := by
  refine State.scExec_store (fun t x w => ?_) s c _
  split <;> exact State.scLoad_eq_store ‹_›

@[simp] theorem State.agLoad_store (s : State) (c : Nat) (x : ScCore) (n esz : Nat) (sx : Bool) :
    (s.agLoad c x n esz sx).1.store = s.store := by
  unfold State.agLoad
  extract_lets g size
  split
  · rfl
  split <;> exact State.scLoad_eq_store ‹_›

@[simp] theorem State.dmaIssue_store (s : State) (c fn : Nat) (write : Bool) : (s.dmaIssue c fn write).store = s.store :=
  State.scExec_store (fun t x w => by simp) s c _

/-! ## Machine/Vangest -/

@[simp] theorem State.poisonSeen_store (s : State) (c owner : Nat) (e : ScExc) :
    (s.poisonSeen c owner e).store = s.store := by
  simp [State.poisonSeen]

/-! ## Machine/Render -/

@[simp] theorem State.hwRead_store (s : State) (a n : Nat) : (s.hwRead a n).1.store = s.store := by
  simp [State.hwRead, apply_ite Prod.fst]

/-! ## Machine/Memory -/

@[simp] theorem State.coreacc_store (s : State) (m full a n : Nat) (w : Option (List Byte)) :
    (s.coreacc m full a n w).store = s.store := by
  simp [State.coreacc]

@[simp] theorem State.trBusy_store (s : State) (m : Master) (a : Nat) (meet : Option TrMeet) (write : Bool) :
    (s.trBusy m a meet write).store = s.store := by
  unfold State.trBusy
  split <;> simp

@[simp] theorem State.memFetch_store (s : State) (m : Master) (a n : Nat) (meet : Option TrMeet) :
    (s.memFetch m a n meet).1.store = s.store := by
  simp [State.memFetch, apply_ite Prod.fst]

@[simp] theorem State.memLoad_store (s : State) (m : Master) (full a n : Nat) (k : Acc) (meet : Option TrMeet) :
    (s.memLoad m full a n k meet).store = s.store := by
  simp [State.memLoad]

@[simp] theorem State.bar2Header_store (s : State) (a n : Nat) : (s.bar2Header a n).2.store = s.store := sameMem.store ⟨rfl, rfl⟩

@[simp] theorem State.bar2Refuse_store (s : State) (a r n : Nat) (write : Bool) :
    (s.bar2Refuse a r n write).store = s.store := by
  simp [State.bar2Refuse]

@[simp] theorem State.msInjWrite_store (s : State) (v : Word) : (s.msInjWrite v).store = s.store := by
  simp [State.msInjWrite]

/-! ## Machine/PowerOps -/

@[simp] theorem State.setDom_store (s : State) (d v : Nat) : (s.setDom d v).store = s.store := sameMem.store ⟨rfl, rfl⟩

@[simp] theorem State.setHolder_store (s : State) (p : Bool) : (s.setHolder p).store = s.store := by simp [State.setHolder]

@[simp] theorem State.handOff_store (s : State) : s.handOff.store = s.store := by simp [State.handOff]

@[simp] theorem State.dropRegs_store (s : State) (p : Nat → Bool) : (s.dropRegs p).store = s.store := sameMem.store ⟨rfl, rfl⟩

@[simp] theorem State.pgDown_store (s : State) (n : Nat) : (s.pgDown n).store = s.store := by
  simp -implicitDefEqProofs [State.pgDown]

@[simp] theorem State.quadDown_store (s : State) (k : Nat) : (s.quadDown k).store = s.store := by
  simp -implicitDefEqProofs [State.quadDown]

@[simp] theorem State.mgmtDown_store (s : State) : s.mgmtDown.store = s.store := by simp [State.mgmtDown]

@[simp] theorem State.restorePg_store (s : State) (n : Nat) : (s.restorePg n).store = s.store := by simp [State.restorePg]

@[simp] theorem State.setStage_store (s : State) (n : Nat) : (s.setStage n).store = s.store := sameMem.store ⟨rfl, rfl⟩

@[simp] theorem State.vioDark_store (s : State) (n : Nat) : (s.vioDark n).store = s.store := by simp [State.vioDark]

@[simp] theorem State.vioCheck_store (s : State) (n : Nat) : (s.vioCheck n).store = s.store := by simp [State.vioCheck]

@[simp] theorem State.domArrive_store (s : State) (d : Nat) : (s.domArrive d).store = s.store := by
  fun_cases State.domArrive s d <;> simp +zetaDelta

@[simp] theorem State.rampEnd_store (s : State) (d : Nat) : (s.rampEnd d).store = s.store := by simp [State.rampEnd]

@[simp] theorem State.switchOn_store (s : State) (d : Nat) : (s.switchOn d).store = s.store := sameMem.store ⟨rfl, rfl⟩

@[simp] theorem State.clockStep_store (s : State) (m : Nat) : (s.clockStep m).store = s.store := by simp [State.clockStep]

@[simp] theorem State.retarget_store (s : State) : s.retarget.store = s.store := by
  unfold State.retarget
  split <;> simp

@[simp] theorem State.admissionOff_store (s : State) : s.admissionOff.store = s.store := sameMem.store ⟨rfl, rfl⟩

/-! ## Machine/FaultOps -/

@[simp] theorem State.fcReport_store (s : State) (r : FcRec) : (s.fcReport r).store = s.store := by
  fun_cases State.fcReport s r <;> simp

@[simp] theorem State.setOpen_store (s : State) (k : Nat) (r : Option FcRec) : (s.setOpen k r).store = s.store :=
  sameMem.store ⟨rfl, rfl⟩

@[simp] theorem State.vmismatch_store (s : State) (r : Report) : (s.vmismatch r).store = s.store := by
  simp [State.vmismatch]

@[simp] theorem State.engineShadow_store (s : State) (r : Report) : (s.engineShadow r).store = s.store := by
  simp [State.engineShadow]

/-! ## Machine/ResetOps -/

@[simp] theorem State.setCause_store (s : State) (scope cause master : Nat) :
    (s.setCause scope cause master).store = s.store := by
  fun_cases State.setCause s scope cause master <;> simp -implicitDefEqProofs

@[simp] theorem State.releaseCantle_store (s : State) (entry : Option Word) : (s.releaseCantle entry).store = s.store :=
  sameMem.store ⟨rfl, rfl⟩

@[simp] theorem State.releasePommel_store (s : State) (warm : Bool) : (s.releasePommel warm).store = s.store :=
  sameMem.store ⟨rfl, rfl⟩

@[simp] theorem State.savedLimits_store (s : State) : s.savedLimits.store = s.store := by simp [State.savedLimits]

@[simp] theorem State.setMode_store (s : State) (m : Nat) : (s.setMode m).store = s.store := by simp [State.setMode]

@[simp] theorem State.startPower_store (s : State) : s.startPower.store = s.store := by simp [State.startPower]

@[simp] theorem State.safenNow_store (s : State) : s.safenNow.store = s.store := by simp [State.safenNow]

@[simp] theorem State.fnBoxesDead_store (s : State) : s.fnBoxesDead.store = s.store := by simp [State.fnBoxesDead]

@[simp] theorem State.pommelIcReset_store (s : State) : s.pommelIcReset.store = s.store := by simp [State.pommelIcReset]

@[simp] theorem State.pommelHalfStart_store (s : State) (cause master : Nat) (sh : Shadow) :
    (s.pommelHalfStart cause master sh).store = s.store := by
  simp [State.pommelHalfStart]

@[simp] theorem State.halfEnd_store (s : State) : s.halfEnd.store = s.store := by simp [State.halfEnd]

@[simp] theorem State.halfStep_store (s : State) : s.halfStep.store = s.store := by simp [State.halfStep]

/-! ## Machine/Fault -/

@[simp] theorem State.fnReaction_store (s : State) (f : Nat) (x : FcRec) : (s.fnReaction f x).store = s.store := by
  simp [State.fnReaction]

@[simp] theorem State.ftSettle_store (s : State) : s.ftSettle.store = s.store := by simp [State.ftSettle]

@[simp] theorem State.fifoParity_store (s : State) (r : Report) : (s.fifoParity r).store = s.store := by
  fun_cases State.fifoParity s r <;> simp +zetaDelta

@[simp] theorem State.fcCtrlWrite_store (s : State) (v : Word) : (s.fcCtrlWrite v).store = s.store := by
  fun_cases State.fcCtrlWrite s v <;> simp +zetaDelta

@[simp] theorem State.kicked_store (s : State) (g : Nat) : (s.kicked g).store = s.store := sameMem.store ⟨rfl, rfl⟩

@[simp] theorem State.fcKick_store (s : State) (m : Master) : (s.fcKick m).store = s.store := by
  unfold State.fcKick
  split <;> simp

@[simp] theorem watchdogExpiry_store (s : State) (cantle : Bool) : (watchdogExpiry s cantle).store = s.store := by
  simp [watchdogExpiry]

/-! ## Machine/Power -/

@[simp] theorem State.pmReq_store (s : State) (m : Master) (v : Word) : (s.pmReq m v).store = s.store := by
  unfold State.pmReq
  split <;> simp

@[simp] theorem linkFail_store (s : State) : (linkFail s).store = s.store := by
  unfold linkFail
  split <;> simp

@[simp] theorem connectionDetect_store (s : State) : (connectionDetect s).store = s.store := by simp [connectionDetect]

@[simp] theorem sidebandDetect_store (s : State) : (sidebandDetect s).store = s.store := by simp [sidebandDetect]

@[simp] theorem State.refuseClaim_store (s : State) (det owner master : Nat) :
    (s.refuseClaim det owner master).store = s.store := by
  simp [State.refuseClaim]

@[simp] theorem heartbeatLapse_store (s : State) : (heartbeatLapse s).store = s.store := by simp [heartbeatLapse]

@[simp] theorem wakeEventRow_store (s : State) (i : Nat) : (wakeEventRow s i).store = s.store := by simp [wakeEventRow]

@[simp] theorem State.wakeHi_store (s : State) (v : Word) : (s.wakeHi v).store = s.store := sameMem.store ⟨rfl, rfl⟩

@[simp] theorem State.wakeLo_store (s : State) (v : Word) : (s.wakeLo v).store = s.store := sameMem.store ⟨rfl, rfl⟩

@[simp] theorem wakeTimerDue_store (s : State) : (wakeTimerDue s).store = s.store := by simp [wakeTimerDue]

@[simp] theorem wakenTimeout_store (s : State) : (wakenTimeout s).store = s.store := by
  unfold wakenTimeout
  split <;> simp

@[simp] theorem patrolPass_store (s : State) : (patrolPass s).store = s.store := by simp [patrolPass]

@[simp] theorem State.pmClk_store (s : State) (v : Word) : (s.pmClk v).store = s.store := by simp [State.pmClk]

@[simp] theorem ckAon32MonitorArm_store (s : State) : (ckAon32MonitorArm s).store = s.store := by simp [ckAon32MonitorArm]

@[simp] theorem ckAon32StartTimeout_store (s : State) : (ckAon32StartTimeout s).store = s.store := by
  simp [ckAon32StartTimeout]

theorem State.placeSpare_store {s t : State} {u w : Nat} (h : s.placeSpare u w = some t) : t.store = s.store := by
  revert h
  fun_cases State.placeSpare s u w <;> rintro ⟨⟩
  rfl

@[simp] theorem State.placeSpares_store (s : State) (u : Nat) (ws : List Nat) : (s.placeSpares u ws).1.store = s.store := by
  induction ws generalizing s with
  | nil => rfl
  | cons w ws ih =>
    rw [State.placeSpares]
    split
    · rw [ih, State.placeSpare_store ‹_›]
    · rfl

/-! ## Machine/Boot -/

@[simp] theorem State.loaderDone_store (s : State) : s.loaderDone.store = s.store := by simp [State.loaderDone]

@[simp] theorem State.cantleLoaded_store (s : State) (i : Image) : (s.cantleLoaded i).store = s.store := by
  simp [State.cantleLoaded]

@[simp] theorem State.pommelLoaded_store (s : State) (i : Image) : (s.pommelLoaded i).store = s.store := by
  simp [State.pommelLoaded]

@[simp] theorem State.suCtrl_store (s : State) (m : Master) (v : Word) : (s.suCtrl m v).store = s.store := by
  simp [State.suCtrl]

/-! ## Machine/Journal -/

@[simp] theorem State.jnCfgErr_store (s : State) : s.jnCfgErr.store = s.store := by simp [State.jnCfgErr]

@[simp] theorem State.jnClear_store (s : State) : s.jnClear.store = s.store := by simp [State.jnClear]

@[simp] theorem State.jnHoldAll_store (s : State) : s.jnHoldAll.store = s.store := by
  unfold State.jnHoldAll
  extract_lets s1 s2
  have h1 : s1.store = s.store := State.foldl_store (fun t x => by simp) _ s
  have h2 : s2.store = s1.store := by
    refine State.foldl_store (fun t g => ?_) _ s1
    dsimp only
    split <;> simp
  simp [h2, h1]

@[simp] theorem State.jnRelease_store (s : State) : s.jnRelease.store = s.store := by
  unfold State.jnRelease
  split
  · rfl
  refine State.foldl_store (fun t g => ?_) _ s
  dsimp only
  split
  · rfl
  split <;> simp

@[simp] theorem State.jnStart_store (s : State) : s.jnStart.store = s.store := by simp -implicitDefEqProofs [State.jnStart]

@[simp] theorem State.jnStop_store (s : State) : s.jnStop.store = s.store := by simp [State.jnStop]

@[simp] theorem State.jnCmd_store (s : State) (c : Nat) : (s.jnCmd c).store = s.store := by simp [State.jnCmd]

@[simp] theorem State.jnCapture_store (s : State) : s.jnCapture.store = s.store := by
  simp -implicitDefEqProofs [State.jnCapture]

@[simp] theorem quietReached_store (s : State) : (quietReached s).store = s.store := by simp [quietReached]

@[simp] theorem quietTimeout_store (s : State) : (quietTimeout s).store = s.store := by simp [quietTimeout]

@[simp] theorem checkpointDone_store (s : State) : (checkpointDone s).store = s.store := by simp [checkpointDone]

@[simp] theorem State.jnHostWrite_store (s : State) (a : Nat) (d : List Byte) : (s.jnHostWrite a d).store = s.store :=
  sameMem.store ⟨rfl, rfl⟩

@[simp] theorem State.jnFetch_store (s : State) : s.jnFetch.store = s.store := by simp [State.jnFetch]

@[simp] theorem State.jnTake_store (s : State) (l : List JRec) : (s.jnTake l).store = s.store := by
  unfold State.jnTake
  split <;> simp

@[simp] theorem State.jnStream_store (s : State) (p : Nat) (b : List Byte) : (s.jnStream p b).store = s.store := by
  simp [State.jnStream]

@[simp] theorem State.jnCtlRead_store (s : State) (off : Nat) : (s.jnCtlRead off).store = s.store := sameMem.store ⟨rfl, rfl⟩

@[simp] theorem prodAnnounce_store (s : State) : (prodAnnounce s).store = s.store := by simp [prodAnnounce]

@[simp] theorem State.jnReject_store (s : State) : s.jnReject.store = s.store := sameMem.store ⟨rfl, rfl⟩

@[simp] theorem consPoll_store (s : State) (r : HostResult) : (consPoll s r).store = s.store := by
  unfold consPoll
  split <;> simp

@[simp] theorem State.replayEnter_store (s : State) (m : Master) : (s.replayEnter m).store = s.store := by
  simp [State.replayEnter]

@[simp] theorem State.replayFail_store (s : State) : s.replayFail.store = s.store := by simp [State.replayFail]

@[simp] theorem replayStall_store (s : State) : (replayStall s).store = s.store := by simp [replayStall]

@[simp] theorem State.jnCtrlWrite_store (s : State) (v : Word) : (s.jnCtrlWrite v).store = s.store := by
  simp [State.jnCtrlWrite]

@[simp] theorem State.jnSettle_store (s : State) : s.jnSettle.store = s.store := by simp [State.jnSettle]

/-! ## Machine/RegOps -/

@[simp] theorem State.unvalid_store (s : State) (a : Nat) : (s.unvalid a).store = s.store := sameMem.store ⟨rfl, rfl⟩

@[simp] theorem State.statusWrite_store (s : State) (a : Nat) (v : Word) : (s.statusWrite a v).store = s.store := by
  simp [State.statusWrite]

@[simp] theorem State.pgStatusWrite_store (s : State) (n : Nat) (v : Word) : (s.pgStatusWrite n v).store = s.store := by
  simp [State.pgStatusWrite]

@[simp] theorem State.msStatusWrite_store (s : State) (v : Word) : (s.msStatusWrite v).store = s.store := by
  simp [State.msStatusWrite]

@[simp] theorem State.fnCfgErr_store (s : State) (f : Nat) : (s.fnCfgErr f).store = s.store := sameMem.store ⟨rfl, rfl⟩

@[simp] theorem State.dictGo_store (s : State) (v : Word) : (s.dictGo v).store = s.store := by simp [State.dictGo]

@[simp] theorem State.fnDictStore_store (s : State) (a : Nat) (v : Word) : (s.fnDictStore a v).store = s.store := by
  simp [State.fnDictStore]

@[simp] theorem State.fnMbCtrl_store (s : State) (f : Nat) (v : Word) : (s.fnMbCtrl f v).store = s.store := by
  simp [State.fnMbCtrl]

@[simp] theorem State.fnStore_store (s : State) (m : Master) (a : Nat) (v : Word) : (s.fnStore m a v).store = s.store := by
  unfold State.fnStore
  split <;> simp

@[simp] theorem State.ringStore_store (s : State) (f g off : Nat) (v : Word) : (s.ringStore f g off v).store = s.store := by
  simp -implicitDefEqProofs [State.ringStore]

@[simp] theorem State.ringCmdWrite_store (s : State) (m f code : Nat) : (s.ringCmdWrite m f code).store = s.store := by
  unfold State.ringCmdWrite
  split <;> simp

@[simp] theorem State.qmStore_store (s : State) (m : Master) (a : Nat) (v : Word) : (s.qmStore m a v).store = s.store := by
  fun_cases State.qmStore s m a v <;> simp -implicitDefEqProofs

@[simp] theorem State.adStore_store (s : State) (a : Nat) (v : Word) : (s.adStore a v).store = s.store := by
  simp [State.adStore]

@[simp] theorem State.tpStore_store (s : State) (a : Nat) (v : Word) : (s.tpStore a v).store = s.store := by
  simp [State.tpStore]

@[simp] theorem State.scStore'_store (s : State) (a : Nat) (v : Word) : (s.scStore' a v).store = s.store := by
  simp [State.scStore']

@[simp] theorem State.pgOutWrite_store (s : State) (n : Nat) (v : Word) : (s.pgOutWrite n v).store = s.store := by
  simp [State.pgOutWrite]

@[simp] theorem State.laneSafeWrite_store (s : State) (l : Nat) (v : Word) : (s.laneSafeWrite l v).store = s.store := by
  simp [State.laneSafeWrite]

@[simp] theorem State.pgStore_store (s : State) (m : Master) (a : Nat) (v : Word) : (s.pgStore m a v).store = s.store := by
  fun_cases State.pgStore s m a v <;> simp -implicitDefEqProofs

@[simp] theorem State.sfStore_store (s : State) (a : Nat) (v : Word) : (s.sfStore a v).store = s.store := by
  unfold State.sfStore
  split
  · simp
  · split <;> simp

@[simp] theorem State.remapSel_store (s : State) (m : Nat) (v : Word) : (s.remapSel m v).store = s.store := by
  simp -implicitDefEqProofs [State.remapSel]

@[simp] theorem State.irqSrcWrite_store (s : State) (n : Nat) (v : Word) : (s.irqSrcWrite n v).store = s.store := by
  simp [State.irqSrcWrite]

@[simp] theorem State.irqSigWrite_store (s : State) (a : Nat) (v : Word) : (s.irqSigWrite a v).store = s.store := by
  simp [State.irqSigWrite]

@[simp] theorem State.icStore_store (s : State) (m : Master) (a : Nat) (v : Word) : (s.icStore m a v).store = s.store := by
  simp [State.icStore]

@[simp] theorem State.mbStore_store (s : State) (m : Master) (a : Nat) (v : Word) : (s.mbStore m a v).store = s.store := by
  simp [State.mbStore]

@[simp] theorem State.fcTailWrite_store (s : State) (v : Word) : (s.fcTailWrite v).store = s.store := sameMem.store ⟨rfl, rfl⟩

@[simp] theorem State.fcHostWrite_store (s : State) (v : Word) : (s.fcHostWrite v).store = s.store := by
  simp [State.fcHostWrite]

@[simp] theorem State.jnStore_store (s : State) (a : Nat) (v : Word) : (s.jnStore a v).store = s.store := by
  unfold State.jnStore
  split <;> simp

@[simp] theorem State.hpStore_store (s : State) (a : Nat) (v : Word) : (s.hpStore a v).store = s.store := by
  simp [State.hpStore]

@[simp] theorem State.regLoad_store (s : State) (m : Master) (a : Nat) : (s.regLoad m a).1.store = s.store := by
  unfold State.regLoad
  repeat' split
  all_goals simp

@[simp] theorem State.msixWrite_store (s : State) (f i : Nat) (v : Word) : (s.msixWrite f i v).store = s.store := by
  simp [State.msixWrite]

@[simp] theorem State.msixStore_store (s : State) (f i size : Nat) (v : Quad) :
    (s.msixStore f i size v).store = s.store := by
  simp [State.msixStore]

@[simp] theorem State.bar0Read_store (s : State) (f : Fn) (off size : Nat) : (s.bar0Read f off size).store = s.store := by
  unfold State.bar0Read
  extract_lets a one bytes w v
  split
  · split
    · split <;> simp
    · simp
    · simp
  · simp

/-! ## Machine/DictTable -/

@[simp] theorem State.winBytes_store (s : State) (off n : Nat) : (s.winBytes off n).1.store = s.store := by
  unfold State.winBytes
  rw [State.foldl_fst_store]
  · simp
  · intro p x
    simp

/-! ## Machine/DictOps -/

@[simp] theorem State.setStaging_store (s : State) (f i v : Nat) : (s.setStaging f i v).store = s.store := sameMem.store ⟨rfl, rfl⟩

@[simp] theorem State.takeVectors_store (s : State) : s.takeVectors.store = s.store := by simp [State.takeVectors]

@[simp] theorem State.dictSave_store (s : State) : s.dictSave.store = s.store := by simp [State.dictSave]

@[simp] theorem State.dictDefaults_store (s : State) : s.dictDefaults.store = s.store := by simp [State.dictDefaults]

@[simp] theorem State.imageSegment_store (s : State) (cantle : Bool) (d : List Byte) :
    (s.imageSegment cantle d).store = s.store := by
  simp [State.imageSegment]

@[simp] theorem State.imageFin_store (s : State) (cantle : Bool) (i : Image) : (s.imageFin cantle i).1.store = s.store := by
  unfold State.imageFin
  split <;> simp

theorem State.dictCommit_store {s t : State} (h : s.dictCommit = .ok t) : t.store = s.store := by
  revert h
  fun_cases State.dictCommit s <;> rintro ⟨⟩
  simp

theorem State.svnRaise_store {s t : State} {v : Nat} (h : s.svnRaise v = .ok t) : t.store = s.store := by
  revert h
  fun_cases State.svnRaise s v <;> rintro ⟨⟩
  simp

theorem State.lifeAdvance_store {s t : State} {v : Word} (h : s.lifeAdvance v = .ok t) : t.store = s.store := by
  revert h
  fun_cases State.lifeAdvance s v <;> rintro ⟨⟩
  simp +zetaDelta

theorem State.keyProgram_store {s t : State} {d : List Byte} (h : s.keyProgram d = .ok t) : t.store = s.store := by
  revert h
  fun_cases State.keyProgram s d <;> rintro ⟨⟩
  simp

/-! ## Machine/Dict -/

@[simp] theorem State.setDictMem_store (s : State) (c : Nat) (x : DictMem) : (s.setDictMem c x).store = s.store :=
  sameMem.store ⟨rfl, rfl⟩

@[simp] theorem State.dictLog_store (s : State) (k : DictClass) (idx sub res : Nat) :
    (s.dictLog k idx sub res).store = s.store := by
  simp [State.dictLog]

@[simp] theorem State.dictChanged_store (s : State) (key : Nat) : (s.dictChanged key).store = s.store := sameMem.store ⟨rfl, rfl⟩

theorem State.winBytes_eq_store {s t : State} {off n : Nat} {d : List Byte} (h : s.winBytes off n = (t, d)) :
    t.store = s.store := by
  simpa [h] using s.winBytes_store off n

@[simp] theorem State.dictRead_store (s : State) (q : DictReq) : (s.dictRead q).1.store = s.store := by
  fun_cases State.dictRead s q
  case case5 h => exact (State.winBytes_eq_store h).trans (by simp +zetaDelta)
  all_goals simp +zetaDelta

@[simp] theorem State.dictStage_store (s : State) (c key : Nat) (im : Option Bool) (bs d : List Byte) :
    (s.dictStage c key im bs d).store = s.store := by
  unfold State.dictStage
  split <;> simp

theorem State.imageFin_eq_store {s t : State} {cantle : Bool} {i : Image} {r : Nat} (h : s.imageFin cantle i = (t, r)) :
    t.store = s.store := by
  simpa [h] using s.imageFin_store cantle i

theorem State.dictEnd_store {s : State} {r : Except Nat State} (hr : ∀ t, r = .ok t → t.store = s.store) (k : DictClass)
    (idx sub : Nat) : (s.dictEnd k idx sub r).1.store = s.store := by
  cases r with
  | ok t => simpa [State.dictEnd] using hr t rfl
  | error e => simp [State.dictEnd]

theorem State.dictEnd_eq_store {s t : State} {r : Except Nat State} {k : DictClass} {idx sub n : Nat}
    (hr : ∀ t, r = .ok t → t.store = s.store) (h : s.dictEnd k idx sub r = (t, n)) : t.store = s.store := by
  simpa [h] using State.dictEnd_store hr k idx sub

@[simp] theorem State.dictEnd_error_store (s : State) (k : DictClass) (idx sub e : Nat) :
    (s.dictEnd k idx sub (.error e)).1.store = s.store :=
  State.dictEnd_store (fun _ h => by cases h) k idx sub

theorem State.dictEnd_error_eq_store {s t : State} {k : DictClass} {idx sub e n : Nat} (h : s.dictEnd k idx sub (.error e) = (t, n)) :
    t.store = s.store := by
  simpa [h] using s.dictEnd_error_store k idx sub e

@[simp] theorem stagedWriteTimeout_store (s : State) (k : DictClass) : (stagedWriteTimeout s k).store = s.store := by
  fun_cases stagedWriteTimeout s k <;> simp

@[simp] theorem State.imageAction_store (s : State) (k : DictClass) (cantle : Bool) (d : List Byte) (fin : Bool) (i : Image) :
    (s.imageAction k cantle d fin i).store = s.store := by
  fun_cases State.imageAction s k cantle d fin i
  case case1 => rfl
  case case2 t r h =>
    rw [State.emit_store]
    split at h
    · exact State.dictEnd_error_eq_store h
    split at h
    · exact State.dictEnd_error_eq_store h
    split at h
    · exact State.dictEnd_error_eq_store h
    dsimp only at h
    split at h
    · cases h
      exact s.imageSegment_store cantle d
    rw [← s.imageSegment_store cantle d]
    refine State.dictEnd_eq_store (fun u hu => ?_) h
    split at hu
    · cases hu
      exact State.imageFin_store _ cantle i
    · cases hu

@[simp] theorem State.channelData_store (s : State) (d : List Byte) : (s.channelData d).store = s.store := by
  simp -implicitDefEqProofs [State.channelData]

@[simp] theorem State.channelReply_store (s : State) (seq r n : Nat) : (s.channelReply seq r n).store = s.store := by
  simp -implicitDefEqProofs [State.channelReply]

@[simp] theorem State.i3cReady_store (s : State) (b : List Byte) : (s.i3cReady b).store = s.store := by
  simp [State.i3cReady]

@[simp] theorem i3cDictReplyRead_store (s : State) : (i3cDictReplyRead s).store = s.store := by
  unfold i3cDictReplyRead
  split
  · simp
  · split <;> simp

@[simp] theorem dynamicAddressAssignment_store (s : State) (setdasa : Bool) (addr : Nat) :
    (dynamicAddressAssignment s setdasa addr).store = s.store := by
  simp [dynamicAddressAssignment]

@[simp] theorem State.setSvc_store (s : State) (f : Nat) (x : SvcMem) : (s.setSvc f x).store = s.store := sameMem.store ⟨rfl, rfl⟩

/-! ## Machine/Debug -/

@[simp] theorem State.debugRefuse_store (s : State) : s.debugRefuse.store = s.store := sameMem.store ⟨rfl, rfl⟩

@[simp] theorem State.debugHalt_store (s : State) (cantle halted : Bool) : (s.debugHalt cantle halted).store = s.store := by
  simp [State.debugHalt]

/-! ## Machine/Replay -/

@[simp] theorem State.restoreSrc_store (s : State) (n off : Nat) (v : Word) : (s.restoreSrc n off v).store = s.store := by
  unfold State.restoreSrc
  split <;> simp

@[simp] theorem State.restoreReg_store (s : State) (a : Nat) (v : Word) : (s.restoreReg a v).store = s.store := by
  unfold State.restoreReg
  repeat' split
  all_goals simp

@[simp] theorem State.restoreRing_store (s : State) (g i v : Nat) : (s.restoreRing g i v).store = s.store := sameMem.store ⟨rfl, rfl⟩

@[simp] theorem State.restoreStation_store (s : State) (n i v : Nat) : (s.restoreStation n i v).store = s.store :=
  sameMem.store ⟨rfl, rfl⟩

@[simp] theorem State.restoreFifo_store (s : State) (q : Nat) (l : List Nat) : (s.restoreFifo q l).store = s.store := by
  simp [State.restoreFifo]

@[simp] theorem State.restoreMod_store (s : State) (g : Nat) (l : List Nat) : (s.restoreMod g l).store = s.store :=
  sameMem.store ⟨rfl, rfl⟩

@[simp] theorem State.loadSession_store (s : State) (p : List Nat) : (s.loadSession p).store = s.store := by
  simp [State.loadSession]

@[simp] theorem State.loadReady_store (s : State) : s.loadReady.store = s.store := sameMem.store ⟨rfl, rfl⟩

@[simp] theorem State.answer_store (s : State) (w : Flight) (n : Nat) (r : JRec) : (s.answer w n r).store = s.store := by
  unfold State.answer
  split <;> simp

@[simp] theorem State.replayRead_store (s : State) (r : JRec) : (s.replayRead r).store = s.store := by
  unfold State.replayRead
  split <;> simp

@[simp] theorem State.replayReads_store (s : State) : s.replayReads.store = s.store := by
  unfold State.replayReads
  split
  · rfl
  refine State.foldl_store (fun t x => ?_) _ s
  dsimp only
  split <;> simp

@[simp] theorem State.replayEvent_store (s : State) (f w : Nat) : (s.replayEvent f w).store = s.store := by
  simp [State.replayEvent]

@[simp] theorem State.replayEdge_store (s : State) (l : Nat) (level : Bool) : (s.replayEdge l level).store = s.store := by
  simp [State.replayEdge]

@[simp] theorem State.replayIrq_store (s : State) (c n : Nat) : (s.replayIrq c n).store = s.store := by
  simp [State.replayIrq]

/-! ## What a Vangest entry leaves of the queue -/

@[simp] theorem VState.put_store (v : VState) (w : Word) (sel : Nat) (a : Word) : (v.put w sel a).s.store = v.s.store := by
  unfold VState.put
  split <;> rfl

theorem State.agLoad_eq_store {s t : State} {c n esz : Nat} {x : ScCore} {sx : Bool} {r : Except ScExc (ScCore × Word)}
    (h : s.agLoad c x n esz sx = (t, r)) : t.store = s.store := by
  simpa [h] using s.agLoad_store c x n esz sx

/-! ## The rows -/

@[simp] theorem State.callTo_store (s : State) (c : Nat) (x : ScCore) (t : Nat) :
    (s.callTo c x t).state.store = s.store := by
  simp [State.callTo]

/-! # Every step keeps memory in its form (R19, R333, R334, R335)

The functions that write the array or a merge buffer. All their writes go through `State.arrayWrite`, `State.writeMem` and the drains
of the merge buffers, whose laws keep the form; one lemma a function carries that up to the rows and the clock. -/

/-- The array and the merge buffers in their form. -/
def storeOk (m : SMap Byte × SMap (List MergeEntry)) : Prop :=
  SMap.wf (fun _ => 0#8) m.1 = true ∧ ∀ k, bufOk k (SMap.get [] m.2 k)

theorem State.memOk_iff_storeOk (s : State) : s.memOk ↔ storeOk s.store := Iff.rfl

@[simp] theorem storeOk_ite (c : Prop) [Decidable c] (m n : SMap Byte × SMap (List MergeEntry)) :
    storeOk (if c then m else n) ↔ if c then storeOk m else storeOk n := by split <;> rfl

theorem State.foldl_storeOk {α : Type} {f : State → α → State} (hf : ∀ t x, storeOk t.store → storeOk (f t x).store) (l : List α)
    {s : State} (h : storeOk s.store) : storeOk (l.foldl f s).store := by
  induction l generalizing s with
  | nil => exact h
  | cons x l ih => exact ih (hf s x h)

theorem State.foldl_prod_storeOk {α β : Type} {f : State → α × β → State}
    (hf : ∀ t a b, storeOk t.store → storeOk (f t (a, b)).store) (l : List (α × β)) {s : State} (h : storeOk s.store) :
    storeOk (l.foldl f s).store :=
  State.foldl_storeOk (fun t x => hf t x.1 x.2) l h

/-! ## Machine/Ops -/

@[simp] theorem State.arrayWrite_storeOk {s : State} (h : storeOk s.store) (a : Nat) (bs : List Byte) (mark : EccMark) :
    storeOk (s.arrayWrite a bs mark).store :=
  State.arrayWrite_memOk h a bs mark

@[simp] theorem State.drainEntry_storeOk {s : State} (h : storeOk s.store) (e : MergeEntry) : storeOk (s.drainEntry e).store :=
  State.drainEntry_memOk e h

@[simp] theorem State.drainWord_storeOk {s : State} (h : storeOk s.store) (a : Nat) : storeOk (s.drainWord a).store :=
  State.drainWord_memOk h a

@[simp] theorem State.writeMem_storeOk {s : State} (h : storeOk s.store) (a : Nat) (bs : List Byte) (poison : Bool) :
    storeOk (s.writeMem a bs poison).store :=
  (State.writeMem_spec h a bs poison).1

/-! ## Machine/Completion -/

@[simp] theorem State.ceaWrite_storeOk {s : State} (h : storeOk s.store) (e : Entry) : storeOk (s.ceaWrite e).store := by
  simp [State.ceaWrite, h]

@[simp] theorem State.ceaDrain_storeOk {s : State} (h : storeOk s.store) (n : Nat) : storeOk (s.ceaDrain n).store := by
  fun_induction State.ceaDrain s n <;> simp_all

@[simp] theorem State.ceaRoomed_storeOk {s : State} (h : storeOk s.store) : storeOk s.ceaRoomed.store := by simp [State.ceaRoomed, h]

@[simp] theorem State.ceaPost_storeOk {s : State} (h : storeOk s.store) (k : Nat) (e : Entry) (isMark : Bool) :
    storeOk (s.ceaPost k e isMark).store := by
  simp [State.ceaPost, h]

@[simp] theorem postingRequest_storeOk {s : State} (h : storeOk s.store) (src : PostSource) : storeOk (postingRequest s src).store :=
  by
  fun_cases postingRequest s src <;> simp [h]

/-! ## Machine/Ccw -/

theorem State.storeBytes_storeOk {s t : State} (h : storeOk s.store) {key : Nat} {a : Quad} {d : List Byte} {p : Bool}
    (ht : s.storeBytes key a d p = some t) : storeOk t.store := by
  revert ht
  fun_cases State.storeBytes s key a d p <;> intro ht
  · cases ht; exact h
  · cases ht; simp [h]
  · rw [State.hostWrite_store ht]; simpa using h

/-- What stands for the store of a CCW: nothing where the data go nowhere. -/
theorem State.storeUnless_storeOk {s t : State} (h : storeOk s.store) {void : Bool} {key : Nat} {a : Quad} {d : List Byte} {p : Bool}
    (ht : (if void = true then some s else s.storeBytes key a d p) = some t) : storeOk t.store := by
  split at ht
  · cases ht; exact h
  · exact State.storeBytes_storeOk h ht

@[simp] theorem State.dataIn_storeOk {s : State} (h : storeOk s.store) (key k : Nat) : storeOk (s.dataIn key k).store := by
  induction k generalizing s with
  | zero => exact h
  | succ k ih =>
    rw [State.dataIn]
    extract_lets asks s1 off void
    split
    · exact h
    have h1 : storeOk s1.store := by simp [s1, h]
    split
    · exact h1
    split
    · simp [h1]
    split
    split
    next ht =>
    have h2 := (State.takeBytes_eq_store ht).symm ▸ h1
    dsimp only
    split
    · simp [h2]
    next hs =>
    have h3 := State.storeUnless_storeOk h2 hs
    split
    · simp [h3]
    split <;> simp [ih, h3]

@[simp] theorem State.dataCommand_storeOk {s : State} (h : storeOk s.store) (key : Nat) : storeOk (s.dataCommand key).store := by
  unfold State.dataCommand
  extract_lets x s1 y out s2
  have h1 : storeOk s1.store := by simp [s1, h]
  have hout : storeOk out.store := by simp [out, h1]
  split
  · exact h1
  simp only [State.dataProgress_store, State.timerUpdate_store, s2]
  split <;> simp [h1, hout]

@[simp] theorem State.stationRun_storeOk {s : State} (h : storeOk s.store) (key : Nat) : storeOk (s.stationRun key).store := by
  simp [State.stationRun, h]

@[simp] theorem writeCcw_storeOk {s : State} (h : storeOk s.store) (key : Nat) : storeOk (writeCcw s key).store := by
  simp [writeCcw, h]

@[simp] theorem readCcw_storeOk {s : State} (h : storeOk s.store) (key : Nat) : storeOk (readCcw s key).store := by
  simp [readCcw, h]

@[simp] theorem controlCcw_storeOk {s : State} (h : storeOk s.store) (key : Nat) : storeOk (controlCcw s key).store := by
  simp [controlCcw, h]

@[simp] theorem writeReadCcw_storeOk {s : State} (h : storeOk s.store) (key : Nat) : storeOk (writeReadCcw s key).store := by
  simp [writeReadCcw, h]

@[simp] theorem stationCommand_storeOk {s : State} (h : storeOk s.store) (key : Nat) : storeOk (stationCommand s key).store := by
  simp [stationCommand, h]

@[simp] theorem State.senseStore_storeOk {s : State} (h : storeOk s.store) (key k : Nat) : storeOk (s.senseStore key k).store := by
  induction k generalizing s with
  | zero => exact h
  | succ k ih =>
    rw [State.senseStore]
    dsimp only
    split
    · exact h
    split
    · simp [h]
    split
    · simp [h]
    · simp [ih, State.storeUnless_storeOk h ‹_›]

@[simp] theorem senseCcw_storeOk {s : State} (h : storeOk s.store) (key : Nat) : storeOk (senseCcw s key).store := by
  simp [senseCcw, h]

@[simp] theorem State.movePoisoned_storeOk {s : State} (h : storeOk s.store) (key : Nat) (dst : Quad) (n : Nat) :
    storeOk (s.movePoisoned key dst n).store := by
  unfold State.movePoisoned
  have hd : storeOk (s.drawBytes n).2.store := by simpa using h
  dsimp only
  split
  · simpa using hd
  · simp [State.storeBytes_storeOk hd ‹_›]

@[simp] theorem moveCcw_storeOk {s : State} (h : storeOk s.store) (key : Nat) : storeOk (moveCcw s key).store := by
  fun_cases moveCcw s key <;>
    grind [→ State.storeBytes_storeOk, → State.fetchBytes_bytes_store, → State.fetchBytes_wait_store, → State.fetchBytes_fail_store,
      State.endOp_store, State.movePoisoned_storeOk, State.checkNow_store, State.moveCount_store, State.ccwEnded_store]

@[simp] theorem postCcw_storeOk {s : State} (h : storeOk s.store) (key : Nat) : storeOk (postCcw s key).store := by
  unfold postCcw
  split
  · dsimp only
    split
    · simp [h]
    · simp [State.storeBytes_storeOk h ‹_›]
  · exact h

@[simp] theorem ceAAdmission_storeOk {s : State} (h : storeOk s.store) : storeOk (ceAAdmission s).store := by
  unfold ceAAdmission
  split
  · exact h
  split
  · exact h
  rw [State.ceaScanOn_store, State.ceaConsume_store]
  split
  · exact h
  · split <;> simp [h]

@[simp] theorem State.ceaCqHead_storeOk {s : State} (h : storeOk s.store) (v : Word) : storeOk (s.ceaCqHead v).store := by
  simp [State.ceaCqHead, h]

/-! ## Machine/Halt -/

@[simp] theorem State.reachBoundary_storeOk {s : State} (h : storeOk s.store) (l : Nat) (t : Xfer) :
    storeOk (s.reachBoundary l t).store :=
  by
  simp [State.reachBoundary, h]

@[simp] theorem State.haltTransfer_storeOk {s : State} (h : storeOk s.store) (key : Nat) : storeOk (s.haltTransfer key).store := by
  fun_cases State.haltTransfer s key <;> simp +zetaDelta [h]

@[simp] theorem State.memoryStep_storeOk {s : State} (h : storeOk s.store) (key : Nat) : storeOk (s.memoryStep key).store := by
  simp [State.memoryStep, h]

@[simp] theorem State.haltMemory_storeOk {s : State} (h : storeOk s.store) (key : Nat) : storeOk (s.haltMemory key).store := by
  simp [State.haltMemory, h]

@[simp] theorem haltSlot_storeOk {s : State} (h : storeOk s.store) (key : Nat) : storeOk (haltSlot s key).store := by
  fun_cases haltSlot s key <;> simp +zetaDelta [h]

/-! ## Machine/Lanes -/

@[simp] theorem State.transferEnd_storeOk {s : State} (h : storeOk s.store) (l : Nat) (t : Xfer) (how : XferEnd) (ux : Bool) :
    storeOk (s.transferEnd l t how ux).store := by
  simp [State.transferEnd, h]

@[simp] theorem stationTransferEnd_storeOk {s : State} (h : storeOk s.store) (st : Nat) (how : XferEnd) :
    storeOk (stationTransferEnd s st how).store := by
  fun_cases stationTransferEnd s st how <;> simp [h]

@[simp] theorem uartBreak_storeOk {s : State} (h : storeOk s.store) (l : Nat) : storeOk (uartBreak s l).store := by
  unfold uartBreak
  split <;> simp [h]

@[simp] theorem State.itemDone_storeOk {s : State} (h : storeOk s.store) (l : Nat) : storeOk (s.itemDone l).store := by
  unfold State.itemDone
  split <;> simp [h]

@[simp] theorem State.outMoved_storeOk {s : State} (h : storeOk s.store) (l key n : Nat) (t : Xfer) :
    storeOk (s.outMoved l key n t).store :=
  by
  simp [State.outMoved, h]

@[simp] theorem State.itemOut_storeOk {s : State} (h : storeOk s.store) (l : Nat) (t : Xfer) (nack : Bool) :
    storeOk (s.itemOut l t nack).store := by
  fun_cases State.itemOut s l t nack <;> grind [→ State.takeBytes_eq_store, State.flowFault_store, State.emit_store,
    State.transferEnd_storeOk, State.endOp_store, State.unitCheck_store, State.senseFlag_store, State.sendItem_store,
    State.setSlot_store, State.outMoved_storeOk]

@[simp] theorem State.itemIn_storeOk {s : State} (h : storeOk s.store) (l : Nat) (t : Xfer) (v : Word) :
    storeOk (s.itemIn l t v).store := by
  unfold State.itemIn
  extract_lets fn n pauses s1 x y
  split
  · simp [h]
  split
  · exact h
  split
  · exact h
  split
  · simp [s1, h]
  split
  · exact h
  split
  next hd =>
  have h1 := itemIn_taken_store hd
  dsimp only at h1
  extract_lets s2 fits s3
  have h3 : storeOk s3.store := by simp [s3, s2, h1, h]
  split
  · simp [h1, h]
  split
  · exact h3
  split
  · exact h3
  · simp [h3]

@[simp] theorem laneItem_storeOk {s : State} (h : storeOk s.store) (l : Nat) (inbound : Bool) (r : ItemResult) :
    storeOk (laneItem s l inbound r).store := by
  unfold laneItem
  extract_lets fn
  split
  · exact h
  cases (s.lane l).xfer with
  | none => cases r <;> simp [h]
  | some t =>
    dsimp only
    split
    · exact h
    cases r with
    | moved v =>
      cases inbound with
      | true =>
        simp only [reduceIte]
        split
        · exact h
        split
        · simp [h]
        split <;> simp [h]
      | false =>
        simp only [reduceIte, Bool.false_eq_true]
        split
        · exact h
        cases t.lead <;> simp [h]
    | _ => simp [h]

@[simp] theorem replayLaneItem_storeOk {s : State} (h : storeOk s.store) (l : Nat) (inbound : Bool) :
    storeOk (replayLaneItem s l inbound).store := by
  fun_cases replayLaneItem s l inbound <;> simp +zetaDelta [h]

/-! ## Machine/HostPort -/

@[simp] theorem State.slotFnReset_storeOk {s : State} (h : storeOk s.store) (key : Nat) : storeOk (s.slotFnReset key).store := by
  simp [State.slotFnReset, h]

@[simp] theorem State.fnResetTwo_storeOk {s : State} (h : storeOk s.store) (f : Nat) : storeOk (s.fnResetTwo f).store := by
  simp +contextual [State.fnResetTwo, State.foldl_storeOk, h]

@[simp] theorem State.fnResetsTwo_storeOk {s : State} (h : storeOk s.store) : storeOk s.fnResetsTwo.store :=
  State.foldl_storeOk (fun _ f ht => State.fnResetTwo_storeOk ht f) _ h

/-! ## Machine/ShapeOps -/

@[simp] theorem State.dmaOut_storeOk {s : State} (h : storeOk s.store) (c sys dmem len k : Nat) :
    storeOk (s.dmaOut c sys dmem len k).store :=
  by
  fun_induction State.dmaOut s c sys dmem len k <;> simp_all +zetaDelta

@[simp] theorem dmaComplete_storeOk {s : State} (h : storeOk s.store) (c : Nat) : storeOk (dmaComplete s c).store := by
  unfold dmaComplete
  split <;> simp [h]

/-! ## Machine/ShapeFlow -/

theorem State.scStore_storeOk {s t : State} (h : storeOk s.store) {x y : ScCore} {a : Nat} {bs : List Byte}
    (ht : s.scStore x a bs = .ok (t, y)) : storeOk t.store := by
  revert ht
  fun_cases State.scStore s x a bs <;> rintro ⟨⟩ <;> simp [h]

/-- An instruction of a core keeps the form where its meaning does. -/
theorem State.scExec_storeOk {s : State} (h : storeOk s.store) {f : State → ScCore → Word → ScDone}
    (hf : ∀ x w, storeOk (f s x w).state.store) (c : Nat) (want : Word → Bool) : storeOk (s.scExec c want f).store := by
  unfold State.scExec
  extract_lets x w
  split
  · exact h
  split
  · simp [h]
  split
  · simp [h]
  split
  · exact h
  have hx := hf x w
  split <;> simp_all

@[simp] theorem State.scSt_storeOk {s : State} (h : storeOk s.store) (c major n : Nat) : storeOk (s.scSt c major n).store := by
  refine State.scExec_storeOk h (fun x w => ?_) c _
  split
  · exact h
  · exact State.scStore_storeOk h ‹_›

theorem State.agStore_storeOk {s t : State} (h : storeOk s.store) {x y : ScCore} {n esz : Nat} {v : Word}
    (ht : s.agStore x n esz v = .ok (t, y)) : storeOk t.store := by
  revert ht
  fun_cases State.agStore s x n esz v <;> rintro ⟨⟩
  exact State.scStore_storeOk h ‹_›

/-! ## Machine/Memory -/

@[simp] theorem State.memStore_storeOk {s : State} (h : storeOk s.store) (m : Master) (a : Nat) (d : List Byte)
    (meet : Option TrMeet) :
    storeOk (s.memStore m a d meet).store := by
  simp [State.memStore, h]

@[simp] theorem State.aliasStore_storeOk {s : State} (h : storeOk s.store) (m : Master) (full a : Nat) (set : Bool) (d : List Byte) :
    storeOk (s.aliasStore m full a set d).store := by
  fun_cases State.aliasStore s m full a set d <;> simp +zetaDelta [h]

@[simp] theorem aliasWrite_storeOk {s : State} (h : storeOk s.store) (m : Master) (a : Nat) (d : List Byte) :
    storeOk (aliasWrite s m a d).store := by
  unfold aliasWrite
  split <;> simp [h]

@[simp] theorem coreMemoryAccess_storeOk {s : State} (h : storeOk s.store) (m : Master) (a n : Nat) (op : MemOp)
    (meet : Option TrMeet) :
    storeOk (coreMemoryAccess s m a n op meet).store := by
  unfold coreMemoryAccess
  repeat' split
  all_goals simp [h]

@[simp] theorem bar2Word_storeOk {s : State} (h : storeOk s.store) (a n : Nat) (op : MemOp) (r len : Nat) :
    storeOk (bar2Word s a n op r len).store := by
  unfold bar2Word
  split <;> simp [h]

@[simp] theorem bar2Access_storeOk {s : State} (h : storeOk s.store) (a n : Nat) (op : MemOp) : storeOk (bar2Access s a n op).store :=
  by
  unfold bar2Access
  split
  · split <;> simp [h]
  split
  · simp [h]
  · exact State.foldl_storeOk (fun _ _ ht => bar2Word_storeOk ht _ _ _ _ _) _ h

@[simp] theorem mergeDrain_storeOk {s : State} (h : storeOk s.store) (k : Nat) : storeOk (mergeDrain s k).store := by
  unfold mergeDrain
  split <;> simp [h]

@[simp] theorem State.scrubWord_storeOk {s : State} (h : storeOk s.store) (w : Nat) : storeOk (s.scrubWord w).store := by
  fun_cases State.scrubWord s w <;> simp +zetaDelta [h]

@[simp] theorem scrubLine_storeOk {s : State} (h : storeOk s.store) (a : Nat) : storeOk (scrubLine s a).store := by
  simp +contextual [scrubLine, State.foldl_storeOk, h]

@[simp] theorem State.remapCopy_storeOk {s : State} (h : storeOk s.store) (a : Nat) : storeOk (s.remapCopy a).store := by
  simp [State.remapCopy, h]

@[simp] theorem State.remapWrite_storeOk {s : State} (h : storeOk s.store) (e : Nat) (v : Word) : storeOk (s.remapWrite e v).store :=
  by
  simp [State.remapWrite, h]

/-! ## Machine/PowerOps -/

@[simp] theorem State.drainMem_storeOk {s : State} (h : storeOk s.store) (k : Nat) : storeOk (s.drainMem k).store :=
  State.foldl_storeOk (fun _ _ ht => State.foldl_storeOk (fun _ e hu => State.drainEntry_storeOk hu e) _ ht) _ h

@[simp] theorem State.routerDown_storeOk {s : State} (h : storeOk s.store) : storeOk s.routerDown.store := by
  simp [State.routerDown, h]

@[simp] theorem State.domOff_storeOk {s : State} (h : storeOk s.store) (d : Nat) : storeOk (s.domOff d).store := by
  simp [State.domOff, h]

@[simp] theorem State.switchOff_storeOk {s : State} (h : storeOk s.store) (d : Nat) : storeOk (s.switchOff d).store := by
  simp [State.switchOff, h]

@[simp] theorem State.powerTo_storeOk {s : State} (h : storeOk s.store) (m : Nat) : storeOk (s.powerTo m).store := by
  simp +contextual [State.powerTo, State.foldl_storeOk, h]

@[simp] theorem State.powerStep_storeOk {s : State} (h : storeOk s.store) : storeOk s.powerStep.store := by simp [State.powerStep, h]

@[simp] theorem State.enterRecovery_storeOk {s : State} (h : storeOk s.store) (err : Nat) : storeOk (s.enterRecovery err).store := by
  simp [State.enterRecovery, h]

/-! ## Machine/FaultOps -/

@[simp] theorem State.logPut_storeOk {s : State} (h : storeOk s.store) (r : FcRec) : storeOk (s.logPut r).store := by
  unfold State.logPut
  split
  · exact State.foldl_storeOk (fun _ _ ht => State.arrayWrite_storeOk ht _ _ _) _ h
  · exact h

@[simp] theorem State.logRewrite_storeOk {s : State} (h : storeOk s.store) (r : FcRec) : storeOk (s.logRewrite r).store := by
  simp [State.logRewrite, h]

@[simp] theorem State.logNew_storeOk {s : State} (h : storeOk s.store) (r : FcRec) : storeOk (s.logNew r).1.store := by
  unfold State.logNew
  extract_lets i r1 s1 s2 ft bits s3 s4 s5 s6
  have h1 : storeOk s1.store := by simpa [s1] using h
  have h2 : storeOk s2.store := by
    simp only [s2]
    split <;> simpa using h1
  have h3 : storeOk s3.store := by simp [s3, h2]
  have h5 : storeOk s5.store := by simpa [s5, s4] using h3
  simp only [s6]
  split <;> simpa using h5

@[simp] theorem State.putOpen_storeOk {s : State} (h : storeOk s.store) (k : Nat) (r : FcRec) : storeOk (s.putOpen k r).store := by
  simp [State.putOpen, h]

@[simp] theorem State.placeRec_storeOk {s : State} (h : storeOk s.store) (r : FcRec) : storeOk (s.place_ r).store := by
  fun_cases State.place_ s r <;> simp -implicitDefEqProofs +zetaDelta [h]

@[simp] theorem State.openNew_storeOk {s : State} (h : storeOk s.store) (r : FcRec) : storeOk (s.openNew r).store := by
  simp [State.openNew, h]

@[simp] theorem State.countEvent_storeOk {s : State} (h : storeOk s.store) (r : Report) : storeOk (s.countEvent r).store := by
  simp [State.countEvent, h]

@[simp] theorem State.echo_storeOk {s : State} (h : storeOk s.store) (r : Report) (w : Shadow) : storeOk (s.echo r w).store := by
  simp [State.echo, h]

@[simp] theorem State.dataRec_storeOk {s : State} (h : storeOk s.store) (r : Report) : storeOk (s.dataRec r).store := by
  unfold State.dataRec
  split <;> simp [h]

@[simp] theorem State.controlRec_storeOk {s : State} (h : storeOk s.store) (r : Report) : storeOk (s.controlRec r).store := by
  unfold State.controlRec
  split <;> simp [h]

@[simp] theorem State.classify_storeOk {s : State} (h : storeOk s.store) (r : Report) : storeOk (s.classify r).store := by
  unfold State.classify
  repeat' split
  all_goals simp [h]

@[simp] theorem State.detect_storeOk {s : State} (h : storeOk s.store) (r : Report) : storeOk (s.detect r).store := by
  simp [State.detect, h]

@[simp] theorem State.postReset_storeOk {s : State} (h : storeOk s.store) (w : Shadow) (r : Report) :
    storeOk (s.postReset w r).store :=
  by
  unfold State.postReset
  split
  · simp [h]
  split
  · extract_lets c x0 x
    split
    · generalize hl : s.logNew _ = p
      have hp : storeOk p.1.store := hl ▸ State.logNew_storeOk h _
      obtain ⟨t, y⟩ := p
      simp [hp]
    · simp [h]
  split
  · split <;> simp [h]
  · simp [h]

@[simp] theorem State.closeShadow_storeOk {s : State} (h : storeOk s.store) : storeOk s.closeShadow.store := by
  unfold State.closeShadow
  split
  · exact h
  · exact State.foldl_storeOk (fun _ r ht => State.postReset_storeOk ht _ r) _ (by simpa using h)

/-! ## Machine/ResetOps -/

@[simp] theorem State.startStep_storeOk {s : State} (h : storeOk s.store) : storeOk s.startStep.store := by
  simp [State.startStep, h]

@[simp] theorem State.bare_storeOk (s : State) : storeOk s.bare.store :=
  ⟨rfl, fun _ => ⟨Nat.zero_le _, List.nodup_nil, fun _ he => absurd he List.not_mem_nil⟩⟩

@[simp] theorem State.deviceReset_storeOk (s : State) (cause master : Nat) : storeOk (s.deviceReset cause master).store := by
  simp [State.deviceReset]

@[simp] theorem State.toOff_storeOk (s : State) (cause : Nat) : storeOk (s.toOff cause).store := by
  simp [State.toOff]

@[simp] theorem State.startUp_storeOk {s : State} (h : storeOk s.store) : storeOk s.startUp.store := by simp [State.startUp, h]

@[simp] theorem State.cantleStart_storeOk {s : State} (h : storeOk s.store) (cause master : Nat) (sh : Shadow) :
    storeOk (s.cantleStart cause master sh).store := by
  simp +contextual [State.cantleStart, State.foldl_storeOk, h]

@[simp] theorem State.cantleStep_storeOk {s : State} (h : storeOk s.store) : storeOk s.cantleStep.store := by
  unfold State.cantleStep
  repeat' split
  all_goals simp [h]

@[simp] theorem State.ftResets_storeOk {s : State} (h : storeOk s.store) (x : FcRec) : storeOk (s.ftResets x).store := by
  simp [State.ftResets, h]

@[simp] theorem State.ftStep_storeOk {s : State} (h : storeOk s.store) : storeOk s.ftStep.store := by
  unfold State.ftStep
  split <;> simp [h]

@[simp] theorem State.progress_storeOk {s : State} (h : storeOk s.store) : storeOk s.progress.store := by
  have hft : storeOk s.ftStep.store := State.ftStep_storeOk h
  have hcantle : storeOk s.ftStep.halfStep.cantleStep.store := by simp [hft]
  simp [State.progress, hcantle]

/-! ## Machine/Fault -/

@[simp] theorem State.ftReaction_storeOk {s : State} (h : storeOk s.store) (x : FcRec) : storeOk (s.ftReaction x).store := by
  simp [State.ftReaction, h]

@[simp] theorem State.ucReact_storeOk {s : State} (h : storeOk s.store) (x : FcRec) : storeOk (s.ucReact x).store := by
  unfold State.ucReact
  split <;> simp [h]

@[simp] theorem State.expire_storeOk {s : State} (h : storeOk s.store) (x : FcRec) : storeOk (s.expire x).1.store := by
  unfold State.expire
  split
  · simp [h]
  · split <;> simp [h]

@[simp] theorem State.runLoose_storeOk {s : State} (h : storeOk s.store) : storeOk s.runLoose.store := by
  refine State.foldl_storeOk (fun t x ht => ?_) _ h
  dsimp only
  split
  · exact ht
  · have he := State.logRewrite_storeOk (State.expire_storeOk ht x) (t.expire x).2
    simpa using he

@[simp] theorem State.fcSettle_storeOk {s : State} (h : storeOk s.store) : storeOk s.fcSettle.store := by
  unfold State.fcSettle
  extract_lets s1 s2 s3
  have h2 : storeOk s2.store := by
    refine State.foldl_prod_storeOk (fun t k r ht => ?_) _ (by simp [s1, h])
    cases r with
    | none => exact ht
    | some x =>
      dsimp only
      split
      · split <;> simp [ht]
      · exact ht
  have h3 : storeOk s3.store := State.foldl_storeOk (fun t x ht => by simp [ht]) _ h2
  simpa using h3

@[simp] theorem State.fcGo_storeOk {s : State} (h : storeOk s.store) : storeOk s.fcGo.store := by simp [State.fcGo, h]

@[simp] theorem detection_storeOk {s : State} (h : storeOk s.store) (r : Option Report) : storeOk (detection s r).store := by
  unfold detection
  split
  · simp [h]
  · split <;> simp [h]

@[simp] theorem State.fcAckSeq_storeOk {s : State} (h : storeOk s.store) (v : Nat) : storeOk (s.fcAckSeq v).store := by
  unfold State.fcAckSeq
  split <;> simp [h]

@[simp] theorem graceExpiry_storeOk {s : State} (h : storeOk s.store) (k : Nat) : storeOk (graceExpiry s k).store := by
  unfold graceExpiry
  split
  next x _ =>
    have hx := State.expire_storeOk h x
    simp [h, hx]
  · exact h

@[simp] theorem State.injected_storeOk {s : State} (h : storeOk s.store) (g d : Nat) : storeOk (s.injected g d).store := by
  simp [State.injected, h]

@[simp] theorem State.fcInjWrite_storeOk {s : State} (h : storeOk s.store) (v : Word) : storeOk (s.fcInjWrite v).store := by
  simp [State.fcInjWrite, h]

@[simp] theorem State.grpClear_storeOk {s : State} (h : storeOk s.store) (g : Nat) (v : Word) : storeOk (s.grpClear g v).store := by
  unfold State.grpClear
  extract_lets s1
  have h1 : storeOk s1.store := by simpa [s1] using h
  split
  · exact h1
  · exact State.fcGo_storeOk (State.foldl_storeOk (fun _ _ ht => by simp [ht]) _ h1)

/-! ## Machine/Power -/

@[simp] theorem State.startTrans_storeOk {s : State} (h : storeOk s.store) (t : Nat) : storeOk (s.startTrans t).store := by
  simp [State.startTrans, h]

@[simp] theorem modeTransitionStart_storeOk {s : State} (h : storeOk s.store) : storeOk (modeTransitionStart s).store := by
  simp [modeTransitionStart, h]

@[simp] theorem modeTransitionEnd_storeOk {s : State} (h : storeOk s.store) : storeOk (modeTransitionEnd s).store := by
  unfold modeTransitionEnd
  split <;> simp [h]

@[simp] theorem prepTimeout_storeOk {s : State} (h : storeOk s.store) : storeOk (prepTimeout s).store := by
  unfold prepTimeout
  split <;> simp [h]

@[simp] theorem State.domRequest_storeOk {s : State} (h : storeOk s.store) (v : Word) : storeOk (s.domRequest v).store := by
  simp [State.domRequest, h]

@[simp] theorem portGroupDownTimeout_storeOk {s : State} (h : storeOk s.store) (n : Nat) : storeOk (portGroupDownTimeout s n).store :=
  by
  simp [portGroupDownTimeout, h]

@[simp] theorem quadDownTimeout_storeOk {s : State} (h : storeOk s.store) (k : Nat) : storeOk (quadDownTimeout s k).store := by
  simp [quadDownTimeout, h]

@[simp] theorem State.reins_storeOk {s : State} (h : storeOk s.store) (m : Master) (cmd : Nat) : storeOk (s.reins m cmd).store := by
  unfold State.reins
  split <;> simp [h]

@[simp] theorem State.svcEnter_storeOk {s : State} (h : storeOk s.store) (m : Master) : storeOk (s.svcEnter m).store := by
  simp [State.svcEnter, h]

@[simp] theorem State.svcExit_storeOk {s : State} (h : storeOk s.store) (m : Master) : storeOk (s.svcExit m).store := by
  simp [State.svcExit, h]

@[simp] theorem pllLock_storeOk {s : State} (h : storeOk s.store) : storeOk (pllLock s).store := by simp [pllLock, h]

@[simp] theorem powerUpRampEnd_storeOk {s : State} (h : storeOk s.store) (d : Nat) : storeOk (powerUpRampEnd s d).store := by
  simp [powerUpRampEnd, h]

theorem SMap.get_filter {α : Type} (d : α) (p : Nat → Bool) (m : SMap α) (k : Nat) :
    SMap.get d (m.filter (fun e => p e.1)) k = if p k then SMap.get d m k else d := by
  induction m with
  | nil => simp
  | cons e m ih =>
    obtain ⟨j, a⟩ := e
    by_cases hj : j = k
    · subst hj
      by_cases hp : p j <;> simp [SMap.get, hp, ih]
    · by_cases hp : p j <;> simp [SMap.get, hp, hj, ih]

theorem bufOk_nil (k : Nat) : bufOk k [] := ⟨Nat.zero_le _, List.nodup_nil, fun _ he => absurd he List.not_mem_nil⟩

/-- Leaving out bytes and whole buffers keeps the form. -/
theorem storeOk_filter {m : SMap Byte × SMap (List MergeEntry)} (h : storeOk m) (p q : Nat → Bool) :
    storeOk (m.1.filter (fun e => p e.1), m.2.filter (fun e => q e.1)) := by
  refine ⟨SMap.wf_filter _ h.1, fun k => ?_⟩
  rw [SMap.get_filter]
  split
  · exact h.2 k
  · exact bufOk_nil k

@[simp] theorem State.fill_storeOk {s : State} (h : storeOk s.store) (d : Nat) : storeOk (s.fill d).store := by
  have hf := storeOk_filter h (fun a => !inMemDom d a)
    (fun k => if d = 1 then k != 24 else !(decide (22 ≤ d) && decide (d ≤ 25) && k / 6 == d - 22))
  unfold State.fill
  extract_lets s1 s2
  have h1 : storeOk s1.store := hf
  split
  · simpa [s2] using h1
  split
  · simpa using h1
  · exact h1

@[simp] theorem fillComplete_storeOk {s : State} (h : storeOk s.store) (d : Nat) : storeOk (fillComplete s d).store := by
  simp [fillComplete, h]

@[simp] theorem State.bistFail_storeOk {s : State} (h : storeOk s.store) (u : Nat) : storeOk (s.bistFail u).store := by
  simp [State.bistFail, h]

@[simp] theorem selftestComplete_storeOk {s : State} (h : storeOk s.store) (u : Nat) (failing : List Nat) (checkerOk : Bool) :
    storeOk (selftestComplete s u failing checkerOk).store := by
  unfold selftestComplete
  split <;> simp [h]

/-! ## Machine/Boot -/

@[simp] theorem pornLow_storeOk {s : State} (h : storeOk s.store) : storeOk (pornLow s).store := by simp [pornLow, h]

@[simp] theorem supplyOutOfRange_storeOk {s : State} (h : storeOk s.store) (rail : Nat) : storeOk (supplyOutOfRange s rail).store :=
  by
  simp [supplyOutOfRange, h]

@[simp] theorem fuseLoad_storeOk {s : State} (h : storeOk s.store) (r : Option Fuses) : storeOk (fuseLoad s r).store := by
  unfold fuseLoad
  split
  · simp [h]
  · split <;> simp [h]

@[simp] theorem State.noImage_storeOk {s : State} (h : storeOk s.store) (cantle : Bool) (err : Nat) :
    storeOk (s.noImage cantle err).store :=
  by
  simp [State.noImage, h]

@[simp] theorem bootImageLoaded_storeOk {s : State} (h : storeOk s.store) (i : Image) : storeOk (bootImageLoaded s i).store := by
  unfold bootImageLoaded
  split
  · exact h
  extract_lets base s1
  have h1 : storeOk s1.store := State.writeMem_storeOk h _ _ _
  split
  · refine State.fcSettle_storeOk ?_
    split <;> simp [h1]
  · exact State.fcSettle_storeOk (State.noImage_storeOk h1 _ _)

@[simp] theorem bootFlashTimeout_storeOk {s : State} (h : storeOk s.store) : storeOk (bootFlashTimeout s).store := by
  unfold bootFlashTimeout
  split <;> simp [h]

@[simp] theorem warmStart_storeOk {s : State} (h : storeOk s.store) (ok : Bool) : storeOk (warmStart s ok).store := by
  simp [warmStart, h]

@[simp] theorem State.resetScope_storeOk {s : State} (h : storeOk s.store) (scope cause master : Nat) :
    storeOk (s.resetScope scope cause master).store := by
  simp [State.resetScope, h]

@[simp] theorem State.suRst_storeOk {s : State} (h : storeOk s.store) (m : Nat) (v : Word) : storeOk (s.suRst m v).store := by
  simp [State.suRst, h]

@[simp] theorem State.regRow_storeOk {s : State} (h : storeOk s.store) {f : State → State}
    (hf : ∀ t, storeOk t.store → storeOk (f t).store) (m : Master) (a : Nat) (v : Word) : storeOk (s.regRow m a v f).store := by
  unfold State.regRow
  split
  · exact hf _ (by simpa using h)
  all_goals simp [h]

@[simp] theorem State.resetBy_storeOk {s : State} (h : storeOk s.store) (scope : Nat) (by_ : ResetBy) :
    storeOk (s.resetBy scope by_).store := by
  cases by_ with
  | suRst m v => exact State.regRow_storeOk h (fun _ ht => State.suRst_storeOk ht _ _) _ _ _
  | reaction => exact h
  | debugPort => exact State.resetScope_storeOk h _ _ _

/-! ## Machine/Journal -/

@[simp] theorem State.replayFinish_storeOk {s : State} (h : storeOk s.store) : storeOk s.replayFinish.store := by
  unfold State.replayFinish
  extract_lets s1 s2 s3 s4 s5 s6 s7 s8 s9 s10
  have h2 : storeOk s2.store := State.foldl_storeOk (fun _ k ht => State.slotFnReset_storeOk ht k) _ (by simpa [s1] using h)
  have h9 : storeOk s9.store := by simpa [s9, s8, s7, s6, s5, s4, s3] using h2
  exact State.powerStep_storeOk (by simpa [s10] using h9)

@[simp] theorem State.replayExit_storeOk {s : State} (h : storeOk s.store) (m : Master) : storeOk (s.replayExit m).store := by
  simp [State.replayExit, h]

@[simp] theorem replayEnd_storeOk {s : State} (h : storeOk s.store) (why : ReplayEndWhy) : storeOk (replayEnd s why).store := by
  simp [replayEnd, h]

/-! ## Machine/RegOps -/

@[simp] theorem State.ceStore_storeOk {s : State} (h : storeOk s.store) (a : Nat) (v : Word) : storeOk (s.ceStore a v).store := by
  simp [State.ceStore, h]

@[simp] theorem State.msStore_storeOk {s : State} (h : storeOk s.store) (m : Master) (a : Nat) (v : Word) :
    storeOk (s.msStore m a v).store :=
  by
  unfold State.msStore
  split <;> simp [h]

@[simp] theorem State.fcStore_storeOk {s : State} (h : storeOk s.store) (m : Master) (a : Nat) (v : Word) :
    storeOk (s.fcStore m a v).store :=
  by
  simp [State.fcStore, h]

@[simp] theorem State.pmCtrl_storeOk {s : State} (h : storeOk s.store) (m : Master) (v : Word) : storeOk (s.pmCtrl m v).store := by
  unfold State.pmCtrl
  extract_lets s1 s2 s3 s4 s5
  have h1 : storeOk s1.store := by simp [s1, h]
  have h2 : storeOk s2.store := by simp [s2, h1]
  have h4 : storeOk s4.store := by simp [s4, s3, h2]
  simpa [s5] using h4

@[simp] theorem State.pmStore_storeOk {s : State} (h : storeOk s.store) (m : Master) (a : Nat) (v : Word) :
    storeOk (s.pmStore m a v).store :=
  by
  unfold State.pmStore
  split <;> simp [h]

@[simp] theorem State.suStore_storeOk {s : State} (h : storeOk s.store) (m : Master) (a : Nat) (v : Word) :
    storeOk (s.suStore m a v).store :=
  by
  unfold State.suStore
  split <;> simp [h]

@[simp] theorem State.regStore_storeOk {s : State} (h : storeOk s.store) (m : Master) (a : Nat) (v : Word) :
    storeOk (s.regStore m a v).store := by
  unfold State.regStore
  split <;> simp [h]

/-- What lies outside the datapath keeps the form where its effect does. -/
theorem State.onLive_storeOk {s : State} (h : storeOk s.store) {f : State → State} (hf : ∀ t, storeOk t.store → storeOk (f t).store) :
    storeOk (s.onLive f).store := by
  unfold State.onLive
  split
  · exact hf s h
  · simpa using hf _ (by simpa using h)

@[simp] theorem State.bar0Write_storeOk {s : State} (h : storeOk s.store) (f : Fn) (off size : Nat) (v : Quad) :
    storeOk (s.bar0Write f off size v).store := by
  fun_cases State.bar0Write s f off size v
  case case2 => exact State.regRow_storeOk h (fun _ ht => State.regStore_storeOk ht _ _ _) _ _ _
  all_goals simp [h]

@[simp] theorem State.coreReg_storeOk {s : State} (h : storeOk s.store) (m : Master) (a size : Nat) (op : RegOp) :
    storeOk (s.coreReg m a size op).store := by
  unfold State.coreReg
  split
  · simp [h]
  extract_lets w
  split
  · split
    · simp [h]
    · exact State.regRow_storeOk h (fun _ ht => State.regStore_storeOk ht _ _ _) _ _ _
  · simp [h]

@[simp] theorem registerWrite_storeOk {s : State} (h : storeOk s.store) (m : Master) (a size : Nat) (op : RegOp) :
    storeOk (registerWrite s m a size op).store := by
  unfold registerWrite
  split
  · exact State.onLive_storeOk h (fun _ ht => State.bar0Write_storeOk ht _ _ _ _)
  · exact State.onLive_storeOk h (fun _ ht => State.bar0Write_storeOk ht _ _ _ _)
  · simp [h]
  · simp [h]

/-! ## Machine/DictOps -/

theorem State.fwWrite_storeOk {s t : State} (h : storeOk s.store) {a : Nat} {v : Word} (ht : s.fwWrite a v = .ok t) :
    storeOk t.store :=
  by
  revert ht
  fun_cases State.fwWrite s a v <;> rintro ⟨⟩ <;> simp [h]

theorem State.fwWrites_storeOk {s t : State} (h : storeOk s.store) {l : List (Nat × Word)} (ht : s.fwWrites l = .ok t) :
    storeOk t.store := by
  induction l generalizing s with
  | nil => cases ht; exact h
  | cons p l ih =>
    rw [State.fwWrites] at ht
    split at ht
    · exact ih (State.fwWrite_storeOk h ‹_›) ht
    · cases ht

@[simp] theorem State.applyIndex_storeOk {s : State} (h : storeOk s.store) (idx : Nat) : storeOk (s.applyIndex idx).store := by
  refine State.foldl_prod_storeOk (fun t a v ht => ?_) _ h
  dsimp only
  split
  · exact ht
  split
  · exact State.fwWrite_storeOk ht ‹_›
  · exact ht

theorem State.applyIndices_storeOk {α : Type} {s : State} (h : storeOk s.store) (f : α → Nat) (l : List α) :
    storeOk (l.foldl (fun t i => t.applyIndex (f i)) s).store :=
  State.foldl_storeOk (fun _ i ht => State.applyIndex_storeOk ht (f i)) l h

@[simp] theorem State.applyGroup_storeOk {s : State} (h : storeOk s.store) (n : Nat) : storeOk (s.applyGroup n).store :=
  State.applyIndices_storeOk (State.applyIndex_storeOk h _) _ _

theorem State.remapPlace_storeOk {s t : State} (h : storeOk s.store) {w : Word} (ht : s.remapPlace w = .ok t) : storeOk t.store := by
  revert ht
  fun_cases State.remapPlace s w <;> rintro ⟨⟩ <;> simp [h]

theorem State.remapAll_storeOk {s t : State} (h : storeOk s.store) {ws : List Word} (ht : s.remapAll ws = .ok t) : storeOk t.store :=
  by
  induction ws generalizing s with
  | nil => cases ht; exact h
  | cons w ws ih =>
    rw [State.remapAll] at ht
    split at ht
    · exact ih (State.remapPlace_storeOk h ‹_›) ht
    · cases ht

theorem State.dictEffect_storeOk {s t : State} (h : storeOk s.store) {idx sub : Nat} {e : DEntry} {v : List Byte}
    (ht : s.dictEffect idx sub e v = .ok t) : storeOk t.store := by
  revert ht
  fun_cases State.dictEffect s idx sub e v
  all_goals intro ht
  case case1 => exact State.lifeAdvance_store ht ▸ h
  case case2 => exact State.keyProgram_store ht ▸ h
  case case3 => exact State.dictCommit_store ht ▸ h
  case case5 => exact State.svnRaise_store ht ▸ h
  case case12 => cases ht; exact State.remapAll_storeOk h ‹_›
  case case16 | case17 | case23 | case25 | case26 | case33 => exact State.fwWrites_storeOk h ht
  all_goals cases ht <;> simp [h]

@[simp] theorem State.applyArrays_storeOk {s : State} (h : storeOk s.store) (lo hi : Nat) : storeOk (s.applyArrays lo hi).store := by
  refine State.foldl_storeOk (fun t k ht => ?_) _ h
  split
  · split
    · exact State.dictEffect_storeOk ht ‹_›
    · exact ht
  · exact ht

@[simp] theorem State.applyStations_storeOk {s : State} (h : storeOk s.store) : storeOk s.applyStations.store := by
  refine State.foldl_storeOk (fun t k ht => ?_) _ h
  split
  · exact ht
  split
  · split
    · exact State.dictEffect_storeOk ht ‹_›
    · exact ht
  · exact ht

@[simp] theorem State.applySources_storeOk {s : State} (h : storeOk s.store) : storeOk s.applySources.store :=
  State.applyIndices_storeOk h _ _

/-- The passes of both firmwares over the stations and the sources. -/
theorem State.applyLater_storeOk {s : State} (h : storeOk s.store) : storeOk s.applyStations.applySources.store :=
  State.applySources_storeOk (State.applyStations_storeOk h)

@[simp] theorem State.cantleFirmware_storeOk {s : State} (h : storeOk s.store) : storeOk s.cantleFirmware.store := by
  unfold State.cantleFirmware
  extract_lets s1 s2 s3 s4
  have h2 : storeOk s2.store := by
    refine State.foldl_storeOk (fun t f ht => State.foldl_storeOk (fun u i hu => ?_) _ ht) _ (by simpa [s1] using h)
    split <;> simpa using hu
  have h3 : storeOk s3.store :=
    State.applyArrays_storeOk (State.foldl_storeOk (fun _ n ht => State.applyGroup_storeOk ht n) _ h2) _ _
  exact State.applyIndices_storeOk (State.applyArrays_storeOk (State.applyLater_storeOk h3) _ _) _ _

@[simp] theorem State.applyShares_storeOk {s : State} (h : storeOk s.store) : storeOk s.applyShares.store := by
  unfold State.applyShares
  split
  · exact h
  · exact State.applyIndices_storeOk (by simpa using h) _ _

@[simp] theorem State.pommelFirmware_storeOk {s : State} (h : storeOk s.store) : storeOk s.pommelFirmware.store := by
  unfold State.pommelFirmware
  extract_lets s1 s2 s3 s4
  have h1 : storeOk s1.store := by simp [s1, h]
  have h2 : storeOk s2.store := State.applyArrays_storeOk (by simp [h1]) _ _
  have h3 : storeOk s3.store := State.applyLater_storeOk (State.foldl_storeOk (fun _ n ht => State.applyGroup_storeOk ht n) _ h2)
  exact State.applyIndex_storeOk (State.applyIndices_storeOk h3 _ _) _

@[simp] theorem State.firmwareJob_storeOk {s : State} (h : storeOk s.store) (j : Nat) : storeOk (s.firmwareJob j).store := by
  have hlater := State.applyLater_storeOk (State.applyGroup_storeOk h (j - 2))
  simp [State.firmwareJob, h, hlater]

@[simp] theorem State.firmware_storeOk {s : State} (h : storeOk s.store) : storeOk s.firmware.store := by
  unfold State.firmware
  split
  · exact h
  extract_lets first rest
  have hjobs : storeOk ((first ++ rest).foldl State.firmwareJob s).store :=
    State.foldl_storeOk (fun _ j ht => State.firmwareJob_storeOk ht j) _ h
  exact hjobs

/-! ## Machine/Dict -/

@[simp] theorem State.dictReset_storeOk {s : State} (h : storeOk s.store) (idx sub res : Nat) (v : List Byte) :
    storeOk (s.dictReset idx sub res v).store := by
  simp [State.dictReset, h]

theorem State.dictStore_storeOk {s t : State} (h : storeOk s.store) {idx sub : Nat} {e : DEntry} {v : List Byte}
    (ht : s.dictStore idx sub e v = .ok t) : storeOk t.store := by
  revert ht
  fun_cases State.dictStore s idx sub e v
  case case4 u hu =>
    rintro ⟨⟩
    have h1 := State.dictEffect_storeOk h hu
    split <;> simpa using h1
  all_goals rintro ⟨⟩

theorem State.dictWhole_storeOk {s t : State} (h : storeOk s.store) {idx sub : Nat} {e : DEntry} {im : Option Bool} {bs d : List Byte}
    (ht : s.dictWhole idx sub e im bs d = .ok t) : storeOk t.store := by
  revert ht
  fun_cases State.dictWhole s idx sub e im bs d
  · exact State.dictStore_storeOk h
  · rintro ⟨⟩
    simpa [State.imageFin_eq_store ‹_›] using h
  · rintro ⟨⟩

/-- A write ends in the form where the state that it stored, if any, has it. -/
theorem State.dictEnd_storeOk {s : State} (h : storeOk s.store) {r : Except Nat State} (hr : ∀ t, r = .ok t → storeOk t.store)
    (k : DictClass) (idx sub : Nat) : storeOk (s.dictEnd k idx sub r).1.store := by
  cases r with
  | ok t => simpa [State.dictEnd] using hr t rfl
  | error e => simpa [State.dictEnd] using h

@[simp] theorem State.dictWrite_storeOk {s : State} (h : storeOk s.store) (q : DictReq) : storeOk (s.dictWrite q).1.store := by
  fun_cases State.dictWrite s q
  case case6 t =>
    have h1 : storeOk t.store := by simpa [t] using h
    exact State.dictEnd_storeOk h1 (fun _ => State.dictWhole_storeOk h1) _ _ _
  all_goals simp +zetaDelta [h]

@[simp] theorem State.dictServe_storeOk {s : State} (h : storeOk s.store) (q : DictReq) (wr : Bool) :
    storeOk (s.dictServe q wr).1.store := by
  unfold State.dictServe
  extract_lets c x hdr s1
  have h1 : storeOk s1.store := by simpa [s1] using h
  split
  · exact h
  cases wr <;> simp [h1]

@[simp] theorem State.dictRequest_storeOk {s : State} (h : storeOk s.store) (q : DictReq) (wr : Bool) :
    storeOk (s.dictRequest q wr).store :=
  by
  simp [State.dictRequest, h]

@[simp] theorem State.dictAction_storeOk {s : State} (h : storeOk s.store) (k : DictClass) (idx sub : Nat) (v : List Byte) :
    storeOk (s.dictAction k idx sub v).store := by
  unfold State.dictAction
  split
  · exact h
  extract_lets mail r
  have hend := State.dictEnd_storeOk h (r := r) (fun t ht => by
    simp only [r] at ht
    split at ht
    · cases ht
    split at ht
    · cases ht
    split at ht
    · cases ht
    exact State.dictStore_storeOk h ht) k idx sub
  simp [hend]

@[simp] theorem dictReplyReady_storeOk {s : State} (h : storeOk s.store) : storeOk (dictReplyReady s).store := by
  unfold dictReplyReady
  split
  · simp [h]
  · split <;> simp [h]

@[simp] theorem i3cDictRequest_storeOk {s : State} (h : storeOk s.store) (b : List Byte) : storeOk (i3cDictRequest s b).store := by
  unfold i3cDictRequest
  repeat' split
  all_goals simp [h]

@[simp] theorem State.svcWord_storeOk {s : State} (h : storeOk s.store) (f : Fin 16) (v : Word) : storeOk (s.svcWord f v).store := by
  unfold State.svcWord
  split <;> simp [h]

@[simp] theorem State.serveBox_storeOk {s : State} (h : storeOk s.store) (f : Fin 16) : storeOk (s.serveBox f).store := by
  unfold State.serveBox
  split
  · simp [h]
  · split <;> simp [h]

@[simp] theorem State.serveBoxes_storeOk {s : State} (h : storeOk s.store) : storeOk s.serveBoxes.store := by
  simp +contextual [State.serveBoxes, State.foldl_storeOk, h]

/-! ## Machine/Debug -/

@[simp] theorem State.debugDevice_storeOk (s : State) : storeOk s.debugDevice.store := by simp [State.debugDevice]

@[simp] theorem debugAttach_storeOk {s : State} (h : storeOk s.store) : storeOk (debugAttach s).store := by simp [debugAttach, h]

@[simp] theorem zeroize_storeOk {s : State} (h : storeOk s.store) : storeOk (zeroize s).store := by simp [zeroize, h]

@[simp] theorem debugRequest_storeOk {s : State} (h : storeOk s.store) (q : DebugReq) : storeOk (debugRequest s q).store := by
  unfold debugRequest
  split
  · simp [h]
  · split <;> simp [h]

/-! ## Machine/Replay -/

@[simp] theorem State.restoreWord_storeOk {s : State} (h : storeOk s.store) (a v : Nat) : storeOk (s.restoreWord a v).store := by
  simp [State.restoreWord, h]

@[simp] theorem State.restoreWords_storeOk {s : State} (h : storeOk s.store) (a : Nat) (l : List Nat) :
    storeOk (s.restoreWords a l).store :=
  by
  fun_induction State.restoreWords s a l <;> simp_all

@[simp] theorem State.restorePiece_storeOk {s : State} (h : storeOk s.store) (a : Nat) (l : List Nat) :
    storeOk (s.restorePiece a l).store :=
  by
  simp [State.restorePiece, h]

@[simp] theorem State.loadRec_storeOk {s : State} (h : storeOk s.store) (r : JRec) : storeOk (s.loadRec r).store := by
  unfold State.loadRec
  split <;> simp [h]

@[simp] theorem State.loadBytes_storeOk {s : State} (h : storeOk s.store) (k : Nat) : storeOk (s.loadBytes k).store := by
  fun_induction State.loadBytes s k <;> simp_all +zetaDelta

@[simp] theorem journalRingRead_storeOk {s : State} (h : storeOk s.store) (r : HostResult) : storeOk (journalRingRead s r).store := by
  unfold journalRingRead
  extract_lets o room n s1
  split
  · exact h
  cases r <;> simp [s1, h]

@[simp] theorem State.replayAccess_storeOk {s : State} (h : storeOk s.store) (m w0 w1 : Nat) :
    storeOk (s.replayAccess m w0 w1).store :=
  by
  fun_cases State.replayAccess s m w0 w1 <;> simp [h]

@[simp] theorem State.replayRec_storeOk {s : State} (h : storeOk s.store) (r : JRec) : storeOk (s.replayRec r).store := by
  unfold State.replayRec
  repeat' split
  all_goals simp [h]

@[simp] theorem State.replayDue_storeOk {s : State} (h : storeOk s.store) (k : Nat) : storeOk (s.replayDue k).store := by
  induction k generalizing s with
  | zero => exact h
  | succ k ih =>
    rw [State.replayDue]
    split
    · exact h
    split
    · exact h
    simp [ih, h]

@[simp] theorem State.replayTick_storeOk {s : State} (h : storeOk s.store) : storeOk s.replayTick.store := by
  simp [State.replayTick, h]

theorem State.noPatrol_store (s : State) : State.store { s with patrol := false } = s.store := sameMem.store ⟨rfl, rfl⟩

/-- The last steps of a tick. -/
theorem State.tickEnd_storeOk {s : State} (h : storeOk s.store) :
    storeOk (State.progress { s with patrol := false }).jnSettle.fcSettle.store := by
  refine State.fcSettle_storeOk ?_
  rw [State.jnSettle_store]
  refine State.progress_storeOk ?_
  rwa [State.noPatrol_store]

@[simp] theorem clockTick_storeOk {s : State} (h : storeOk s.store) : storeOk (clockTick s).store := by
  unfold clockTick
  split
  · exact h
  extract_lets a b
  have ha : storeOk a.store := by
    simp only [a, State.pwmTicks_store, State.laneReturns_store]
    split <;> simp [h]
  have hb : storeOk b.store := by simp [b, ha]
  have hc : storeOk b.firmware.serveBoxes.winPlace.store := by simp [hb]
  exact State.tickEnd_storeOk hc

/-! ## Machine/Tick -/

@[simp] theorem State.atStep_storeOk {s : State} (h : storeOk s.store) (p : Nat) : storeOk (State.atStep p s).store := by
  simp only [State.atStep, State.store_mk]
  split <;> simp [h]

/-! ## What a Vangest entry leaves of memory -/

theorem VState.step_storeOk {v y : VState} {c : Nat} {w u : Word} (hv : storeOk v.s.store) (h : v.step c w u = .ok y) :
    storeOk y.s.store := by
  revert h
  fun_cases VState.step v c w u
  all_goals rintro ⟨⟩
  case case1 => split <;> exact (VState.put_store v w _ _).symm ▸ hv
  case case6 | case8 => simpa [State.scLoad_eq_store ‹_›] using hv
  case case10 | case12 => exact State.scStore_storeOk hv ‹_›
  case case14 => simpa [State.agLoad_eq_store ‹_›] using hv
  case case16 => exact State.agStore_storeOk hv ‹_›
  case case18 => exact (VState.put_store v w _ _).symm ▸ hv
  all_goals simpa using hv

theorem VState.run_storeOk {c : Nat} {w : Word} {us : List Word} {v y : VState} (hv : storeOk v.s.store)
    (h : VState.run c w v us = .ok y) : storeOk y.s.store := by
  induction us generalizing v with
  | nil => cases h; exact hv
  | cons u us ih =>
    rw [VState.run] at h
    split at h
    · cases h
    · exact ih (VState.step_storeOk hv ‹_›) h

/-! ## The rows -/

theorem State.fromOutside_storeOk {s : State} (h : storeOk s.store) {f : State → State} (hf : storeOk (f s).store) :
    storeOk (s.fromOutside f).store := by
  unfold State.fromOutside
  split
  · exact h
  · exact hf

theorem execScanReadReturn_storeOk (g : RingId) (ret : Option (Nat × HostResult)) {s : State} (h : storeOk s.store) :
    ∃ t, execScanReadReturn g ret s = .next t ∧ storeOk t.store := by
  refine ⟨_, rfl, ?_⟩
  cases ret with
  | none => simp [h]
  | some p => exact State.fromOutside_storeOk h (by simp [h])

theorem execWakeTimerArm_storeOk (m : Master) (v : Word) {s : State} (h : storeOk s.store) :
    ∃ t, execWakeTimerArm m v s = .next t ∧ storeOk t.store :=
  ⟨_, rfl, State.regRow_storeOk h (fun t ht => by simpa using ht) m _ v⟩

theorem execWakeTimerDisarm_storeOk (m : Master) (v : Word) {s : State} (h : storeOk s.store) :
    ∃ t, execWakeTimerDisarm m v s = .next t ∧ storeOk t.store :=
  ⟨_, rfl, State.regRow_storeOk h (fun t ht => by simpa using ht) m _ v⟩

/-- A row of the Staccato core answers the state that its instruction leaves. -/
theorem State.next_scExec_storeOk {s : State} (h : storeOk s.store) {f : State → ScCore → Word → ScDone}
    (hf : ∀ x w, storeOk (f s x w).state.store) (c : Nat) (want : Word → Bool) :
    ∃ t, (Host.Outcome.next (s.scExec c want f) : Result) = .next t ∧ storeOk t.store :=
  ⟨_, rfl, State.scExec_storeOk h hf c want⟩

theorem execIllegalInstruction_storeOk (c : CoreId) {s : State} (h : storeOk s.store) :
    ∃ t, execIllegalInstruction c s = .next t ∧ storeOk t.store :=
  State.next_scExec_storeOk h (f := fun s _ w => .exc s (illegal (if undefinedMajor (fMajor w) then 1 else 2))) (fun _ _ => h) c.val _

theorem execScLda_storeOk (c : CoreId) {s : State} (h : storeOk s.store) :
    ∃ t, execScLda c s = .next t ∧ storeOk t.store := by
  refine State.next_scExec_storeOk h (fun x w => ?_) c.val _
  dsimp only
  split
  · exact h
  split
  · exact h
  split <;> exact (State.agLoad_eq_store ‹_›).symm ▸ h

theorem execScSta_storeOk (c : CoreId) {s : State} (h : storeOk s.store) :
    ∃ t, execScSta c s = .next t ∧ storeOk t.store := by
  refine State.next_scExec_storeOk h (fun x w => ?_) c.val _
  dsimp only
  split
  · exact h
  split
  · exact h
  split
  · exact h
  · exact State.agStore_storeOk h ‹_›

theorem execScCall_storeOk (c : CoreId) {s : State} (h : storeOk s.store) :
    ∃ t, execScCall c s = .next t ∧ storeOk t.store :=
  State.next_scExec_storeOk h (fun x _ => by simpa using h) c.val _

theorem execScCallr_storeOk (c : CoreId) {s : State} (h : storeOk s.store) :
    ∃ t, execScCallr c s = .next t ∧ storeOk t.store :=
  State.next_scExec_storeOk h (fun x w => by simp [h]) c.val _

theorem execScSysNop_storeOk (c : CoreId) {s : State} (h : storeOk s.store) :
    ∃ t, execScSysNop c s = .next t ∧ storeOk t.store :=
  ⟨_, rfl, (State.sysOp_store (f := fun s x => .seq s x) (fun _ _ => rfl) s c.val 0).symm ▸ h⟩

theorem execScWfi_storeOk (c : CoreId) {s : State} (h : storeOk s.store) :
    ∃ t, execScWfi c s = .next t ∧ storeOk t.store := by
  refine State.next_scExec_storeOk h (fun x w => ?_) c.val _
  dsimp only
  split
  · exact h
  split
  · exact (State.wfiClaim_store s _ _).symm ▸ h
  · exact h

theorem execScMfs_storeOk (c : CoreId) {s : State} (h : storeOk s.store) :
    ∃ t, execScMfs c s = .next t ∧ storeOk t.store := by
  refine State.next_scExec_storeOk h (fun x w => ?_) c.val _
  split
  · exact h
  split <;> exact h

theorem execScMts_storeOk (c : CoreId) {s : State} (h : storeOk s.store) :
    ∃ t, execScMts c s = .next t ∧ storeOk t.store := by
  refine State.next_scExec_storeOk h (fun x w => ?_) c.val _
  split
  · exact h
  split <;> exact h

theorem execScVangestEntry_storeOk (c : CoreId) {s : State} (h : storeOk s.store) :
    ∃ t, execScVangestEntry c s = .next t ∧ storeOk t.store := by
  refine State.next_scExec_storeOk h (fun x w => ?_) c.val _
  dsimp only
  split
  · exact h
  split
  · exact h
  split
  · exact h
  split
  · exact h
  split
  · exact (State.poisonSeen_store s _ _ _).symm ▸ h
  · split <;> exact VState.run_storeOk (v := VState.mk _ _ _ _) h ‹_›

theorem execInputEdge_storeOk (n : SrcId) (rising : Bool) {s : State} (h : storeOk s.store) :
    ∃ t, execInputEdge n rising s = .next t ∧ storeOk t.store := by
  refine ⟨_, rfl, State.fromOutside_storeOk h ?_⟩
  extract_lets u
  have hu : storeOk u.store := State.atStep_storeOk h 1
  rw [inputEdge_store]
  split <;> simp [hu]

/-- Every row answers a state, with memory in its form. -/
theorem exec_storeOk (c : Instr) {s : State} (h : storeOk s.store) : ∃ t, exec c s = .next t ∧ storeOk t.store := by
  cases c
  case scanReadReturn g ret => exact execScanReadReturn_storeOk g ret h
  case wakeTimerArm m v => exact execWakeTimerArm_storeOk m v h
  case wakeTimerDisarm m v => exact execWakeTimerDisarm_storeOk m v h
  case illegalInstruction c => exact execIllegalInstruction_storeOk c h
  case scLda c => exact execScLda_storeOk c h
  case scSta c => exact execScSta_storeOk c h
  case scCall c => exact execScCall_storeOk c h
  case scCallr c => exact execScCallr_storeOk c h
  case scSysNop c => exact execScSysNop_storeOk c h
  case scWfi c => exact execScWfi_storeOk c h
  case scMfs c => exact execScMfs_storeOk c h
  case scMts c => exact execScMts_storeOk c h
  case scVangestEntry c => exact execScVangestEntry_storeOk c h
  case ceACqHeadWrite | remapWrite | fcAck | fcInj | groupStatusClear | domainRequest | give | take | svcEnter | svcExit | replayExit =>
    exact ⟨_, rfl, State.regRow_storeOk h (fun _ ht => by simp [ht]) _ _ _⟩
  case hostTimeUpdate | hostSyncLoss => exact ⟨_, rfl, State.fromOutside_storeOk h (by simp [h])⟩
  case uartBreak => exact ⟨_, rfl, State.fromOutside_storeOk h (by split <;> simp [h])⟩
  case bar2Access => exact ⟨_, rfl, State.onLive_storeOk h fun _ ht => by simp [ht]⟩
  case inputEdge n rising => exact execInputEdge_storeOk n rising h
  all_goals exact ⟨_, rfl, by simp [h]⟩

/-- Settles O4: the front of the queue is run, or the clock ticks; both keep the form. -/
theorem memoryFormIsKept : Obligations.MemoryFormIsKept := by
  unfold Obligations.MemoryFormIsKept
  intro s t h hs
  unfold step at hs
  split at hs
  next => cases hs; exact clockTick_storeOk h
  next c rest _ =>
    obtain ⟨u, hu, hok⟩ := exec_storeOk c (s := { s with pending := rest }) h
    cases hu.symm.trans hs
    exact (State.memOk_iff_storeOk t).2 hok

end Sys2Proof.Machine

namespace Sys2Proof.Machine

/-! # The debug port (R22, R486, R487) -/

theorem State.debugControl_iff (s : State) :
    s.debugControl = true ↔ s.dbgOn = true ∧ (s.life ≤ 1 ∨ (s.mode ≠ 1 ∧ s.mode ≠ 2)) := by
  simp [State.debugControl]

/-- A refused debug request raises the sticky error flag, makes one report and changes nothing else (R22, R486). -/
def debugRefused (s t : State) : Prop :=
  t = { s with debugErr := t.debugErr, reports := t.reports } ∧ t.debugErr.isSome ∧ t.reports.length = s.reports.length + 1

theorem debugRefused_debugRefuse (s : State) : debugRefused s s.debugRefuse :=
  ⟨rfl, rfl, List.length_append⟩

theorem refused_of_eq {i : Instr} {s : State} (h : exec i s = .next s.debugRefuse) :
    ∃ t, exec i s = .next t ∧ debugRefused s t :=
  ⟨_, h, debugRefused_debugRefuse s⟩

/-! ## Attach and ZEROIZE -/

theorem exec_debugAttach {s : State} (h : s.mode ≠ 0) :
    exec .debugAttach s = .next (if 2 ≤ s.life then s.debugDevice else { s with dbgOn := true }) := by
  simp only [exec, execDebugAttach, debugAttach, if_neg h]

theorem exec_zeroize {s : State} (h : s.mode ≠ 0) :
    exec .zeroize s = .next (if s.life = 1 then s.debugDevice else s.debugRefuse) := by
  simp only [exec, execZeroize, zeroize, if_neg h]

/-! ## Requests -/

theorem exec_debugReset {s : State} (h : s.mode ≠ 0) (scope : Byte) :
    exec (.debugRequest (.reset scope)) s =
      .next (if 1 ≤ scope.toNat ∧ scope.toNat ≤ 3 then s.resetScope scope.toNat 4 127 else s.debugRefuse) := by
  simp only [exec, execDebugRequest, debugRequest, if_neg h]

theorem exec_haltCore {s : State} (h : s.mode ≠ 0) (c : Bool) : exec (.debugRequest (.haltCore c)) s = .next (s.debugHalt c true) := by
  simp only [exec, execDebugRequest, debugRequest, if_neg h]

theorem exec_resumeCore {s : State} (h : s.mode ≠ 0) (c : Bool) :
    exec (.debugRequest (.resumeCore c)) s = .next (s.debugHalt c false) := by
  simp only [exec, execDebugRequest, debugRequest, if_neg h]

theorem exec_stepCore {s : State} (h : s.mode ≠ 0) (c : Bool) :
    exec (.debugRequest (.stepCore c)) s =
      .next (if (s.debugControl && decide (s.life ≤ 1) && (if c then s.haltC else s.haltP)) = true then s.emit (.debug true [])
        else s.debugRefuse) := by
  simp only [exec, execDebugRequest, debugRequest, if_neg h]

theorem exec_debugRegister {s : State} (h : s.mode ≠ 0) (a : Word) (op : RegOp) :
    exec (.debugRequest (.register a op)) s = exec (.registerWrite .debug a 4 op) s := by
  simp only [exec, execDebugRequest, debugRequest, execRegisterWrite, if_neg h]

theorem exec_debugMemory {s : State} (h : s.mode ≠ 0) (a : Word) (n : Nat) (op : MemOp) :
    exec (.debugRequest (.memory a n op)) s =
      .next (if accessOk a.toNat n op = true then coreMemoryAccess s .debug a.toNat n op none else s.debugRefuse) := by
  simp only [exec, execDebugRequest, debugRequest, if_neg h]

/-- The port halts a core, or lets it go on, while it has control and the part is not in RETIRED. -/
theorem State.debugHalt_of_control {s : State} (hc : s.debugControl = true) (hl : s.life ≠ 3) (cantle halted : Bool) :
    s.debugHalt cantle halted =
      ((if cantle then { s with haltC := halted } else { s with haltP := halted } : State)).emit (.debug true []) := by
  simp [State.debugHalt, hc, hl]

theorem State.debugHalt_refused {s : State} (h : s.debugControl = false ∨ s.life = 3) (cantle halted : Bool) :
    s.debugHalt cantle halted = s.debugRefuse := by
  rcases h with h | h <;> simp [State.debugHalt, h]

/-- Settles O57: one equation a request says what the port does, by mode and lifecycle state. -/
theorem debugPortActsByLifecycle : Obligations.DebugPortActsByLifecycle := by
  unfold Obligations.DebugPortActsByLifecycle
  intro s refused
  have hrefused {i : Instr} (h : exec i s = .next s.debugRefuse) : refused i := refused_of_eq h
  refine ⟨fun h0 => ?_, fun h0 => ⟨fun hl => ?_, fun hl => ?_, fun hl => ?_, fun hl => ?_, fun scope => ⟨fun h1 h3 => ?_, fun h => ?_⟩,
    ?_, exec_debugRegister h0, fun a n op => ⟨fun h => ?_, fun h => ?_⟩⟩⟩
  · simp [exec, execDebugAttach, debugAttach, execZeroize, zeroize, execDebugRequest, debugRequest, h0]
  · rw [exec_debugAttach h0, if_pos hl]; rfl
  · rw [exec_debugAttach h0, if_neg (Nat.not_le.2 hl)]
  · rw [exec_zeroize h0, if_pos hl]; rfl
  · exact hrefused (by rw [exec_zeroize h0, if_neg hl])
  · rw [exec_debugReset h0, if_pos ⟨h1, h3⟩]
  · exact hrefused (by rw [exec_debugReset h0, if_neg (by omega)])
  · simp only [← s.debugControl_iff, exec_haltCore h0, exec_resumeCore h0, exec_stepCore h0]
    refine ⟨fun hc hl => ?_, fun h c => ?_, fun c => ⟨fun hc hl hh => ?_, fun h => ?_⟩⟩
    · simp [State.debugHalt_of_control hc hl, State.emit_plain _ (o := .debug true []) rfl]
    · have hr : s.debugControl = false ∨ s.life = 3 := h.imp_left (by simp)
      exact ⟨hrefused ((exec_haltCore h0 c).trans (by rw [State.debugHalt_refused hr])),
        hrefused ((exec_resumeCore h0 c).trans (by rw [State.debugHalt_refused hr]))⟩
    · rw [if_pos (by simp [hc, hl, hh]), State.emit_plain _ rfl]
    · refine hrefused ((exec_stepCore h0 c).trans ?_)
      rw [if_neg]
      rcases h with h | h | h <;> simp_all
  · rw [exec_debugMemory h0, if_pos h]; rfl
  · exact hrefused (by rw [exec_debugMemory h0, if_neg (by simp [h])])

end Sys2Proof.Machine

namespace Sys2Proof.Machine

/-! # What the memory operations change beside memory (R328 to R334, R350)

Each operation on the array, its ECC and the merge buffers stays within `onlyMem`. -/

theorem onlyMem.refl (s : State) : onlyMem s s := ⟨rfl, fun _ _ _ => rfl⟩

/-- The first half of onlyMem with the new fields named. -/
theorem onlyMem.form {s t : State} (h : onlyMem s t) :
    ∃ m g e c f r i p j,
      t = { s with mem := m, merge := g, ecc := e, ceList := c, freeCtr := f, regs := r, irqs := i, reports := p, jn := j } :=
  ⟨_, _, _, _, _, _, _, _, _, h.1⟩

theorem onlyMem.trans {s t u : State} (h : onlyMem s t) (k : onlyMem t u) : onlyMem s u := by
  refine ⟨?_, fun b hb hj => (k.2 b hb hj).trans (h.2 b hb hj)⟩
  obtain ⟨_, _, _, _, _, _, _, _, _, rfl⟩ := h.form
  obtain ⟨_, _, _, _, _, _, _, _, _, rfl⟩ := k.form
  rfl

theorem onlyMem_ite {s t u : State} {p : Prop} [Decidable p] (h : onlyMem s t) (k : onlyMem s u) :
    onlyMem s (if p then t else u) := by
  split
  · exact h
  · exact k

theorem onlyMem_foldl {α : Type} {f : State → α → State} (hf : ∀ t x, onlyMem t (f t x)) (l : List α) (s : State) :
    onlyMem s (l.foldl f s) := by
  induction l generalizing s with
  | nil => exact onlyMem.refl s
  | cons x l ih => exact (hf s x).trans (ih (f s x))

/-- Registers of the memory system alone. -/
theorem onlyMem_of_onlyRegs {s t : State} {as : List Nat} (h : onlyRegs s t as) (ha : ∀ a ∈ as, a / 0x100000 = 0x49) : onlyMem s t := by
  refine ⟨?_, fun b hb hj => h.2 b (fun hm => hb (ha b hm)) hj⟩
  obtain ⟨_, _, _, _, rfl⟩ := h.form
  rfl

theorem onlyMem_setReg (s : State) {a : Nat} (v : Word) (ha : a / 0x100000 = 0x49) : onlyMem s (s.setReg a v) :=
  onlyMem_of_onlyRegs (onlyRegs_setReg s a v) (by simpa using ha)

theorem onlyMem_setStatus (s : State) {a : Nat} (v : Word) (ha : a / 0x100000 = 0x49) : onlyMem s (s.setStatus a v) :=
  onlyMem_of_onlyRegs (onlyRegs_setStatus s a v) (by simpa using ha)

theorem onlyMem_setEcc (s : State) (w : Nat) (m : EccMark) : onlyMem s (s.setEcc w m) := ⟨rfl, fun _ _ _ => rfl⟩

theorem onlyMem_setMerge (s : State) (g : SMap (List MergeEntry)) : onlyMem s { s with merge := g } := ⟨rfl, fun _ _ _ => rfl⟩

theorem onlyMem_eccEvent (s : State) (w : Nat) (m : EccMark) (master owner : Nat) : onlyMem s (s.eccEvent w m master owner) := by
  unfold State.eccEvent
  refine onlyMem_ite (onlyMem.refl s) ?_
  extract_lets kind syn s1 held rec_ info s2 s3 s4 filtered g det s5
  have h1 : onlyMem s s1 := onlyMem_ite (onlyMem.refl s) ⟨rfl, fun _ _ _ => rfl⟩
  have h2 : onlyMem s1 s2 := onlyMem_ite ((onlyMem_setReg _ _ rfl).trans (onlyMem_setReg _ _ rfl)) (onlyMem.refl _)
  have h3 : onlyMem s2 s3 := onlyMem_setStatus _ _ rfl
  have h4 : onlyMem s3 s4 := onlyMem_ite (onlyMem_setReg _ _ rfl) (onlyMem_ite (onlyMem_setReg _ _ rfl) (onlyMem.refl _))
  have h := ((h1.trans h2).trans h3).trans h4
  have h5 : onlyMem s4 s5 := ⟨rfl, fun _ _ _ => rfl⟩
  exact onlyMem_ite h (onlyMem_ite ((h.trans h5).trans ⟨rfl, fun _ _ _ => rfl⟩) (h.trans h5))

theorem onlyMem_readMem (s : State) (a n master owner : Nat) : onlyMem s (s.readMem a n master owner).1 :=
  onlyMem_foldl (fun t w => onlyMem_eccEvent t w _ master owner) _ s

theorem onlyMem_putBytes (s : State) (a : Nat) (bs : List Byte) : onlyMem s (s.putBytes a bs) := by
  induction bs generalizing s a with
  | nil => exact onlyMem.refl s
  | cons b bs ih =>
    have hb : onlyMem s (s.putByte a b) := ⟨rfl, fun _ _ _ => rfl⟩
    exact hb.trans (ih _ _)

theorem onlyMem_injMark (s : State) (a : Nat) (m : EccMark) : onlyMem s (s.injMark a m).2 := by
  unfold State.injMark
  split
  · dsimp only
    exact (onlyMem_setReg s _ rfl).trans (onlyMem_setStatus _ _ rfl)
  · exact onlyMem.refl s

theorem onlyMem_arrayWrite (s : State) (a : Nat) (bs : List Byte) (m : EccMark) : onlyMem s (s.arrayWrite a bs m) :=
  (((onlyMem_putBytes s a bs).trans (onlyMem_setEcc _ _ _)).trans (onlyMem_injMark _ _ _)).trans (onlyMem_setEcc _ _ _)

theorem onlyMem_drainEntry (s : State) (e : MergeEntry) : onlyMem s (s.drainEntry e) := by
  unfold State.drainEntry
  exact onlyMem_ite ((onlyMem_setMerge s _).trans (onlyMem_arrayWrite _ _ _ _))
    (((onlyMem_eccEvent s _ _ _ _).trans (onlyMem_setMerge _ _)).trans (onlyMem_arrayWrite _ _ _ _))

theorem onlyMem_drainWord (s : State) (a : Nat) : onlyMem s (s.drainWord a) := by
  unfold State.drainWord
  split
  · exact onlyMem_drainEntry s _
  · exact onlyMem.refl s

theorem onlyMem_makeRoom (s : State) (k : Nat) : onlyMem s (s.makeRoom k) := by
  unfold State.makeRoom
  refine onlyMem_ite ?_ (onlyMem.refl s)
  split
  · exact onlyMem_drainEntry s _
  · exact onlyMem.refl s

theorem onlyMem_narrowWrite (s : State) (a : Nat) (bs : List Byte) : onlyMem s (s.narrowWrite a bs) := by
  cases h : s.mergeEntry a with
  | some e =>
    rw [State.narrowWrite_some h]
    have hm := onlyMem_setMerge s
    exact onlyMem_ite ((hm _).trans (onlyMem_drainEntry _ _)) (hm _)
  | none =>
    rw [State.narrowWrite_none h]
    exact (onlyMem_makeRoom s _).trans (onlyMem_setMerge _ _)

theorem onlyMem_writeWord (s : State) (a : Nat) (bs : List Byte) (poison : Bool) : onlyMem s (s.writeWord a bs poison) := by
  unfold State.writeWord
  exact onlyMem_ite ((onlyMem_ite (onlyMem.refl s) (onlyMem_setMerge s _)).trans (onlyMem_arrayWrite _ _ _ _))
    (onlyMem_ite ((onlyMem_drainWord s a).trans (onlyMem_arrayWrite _ _ _ _))
      (onlyMem_ite ((onlyMem_eccEvent s _ _ _ _).trans (onlyMem_arrayWrite _ _ _ _)) (onlyMem_narrowWrite s a bs)))

theorem onlyMem_writeMemAux (s : State) (a : Nat) (bs : List Byte) (poison : Bool) (k : Nat) :
    onlyMem s (s.writeMemAux a bs poison k) := by
  induction k generalizing s a bs with
  | zero => exact onlyMem.refl s
  | succ k ih => exact onlyMem_ite (onlyMem.refl s) ((onlyMem_writeWord s _ _ _).trans (ih _ _ _))

theorem onlyMem_writeMem (s : State) (a : Nat) (bs : List Byte) (poison : Bool) : onlyMem s (s.writeMem a bs poison) :=
  onlyMem_writeMemAux s a bs poison _

/-! ## What an access reads of a state -/

theorem sameMem_of_onlyRegs {s t : State} {as : List Nat} (h : onlyRegs s t as) : sameMem s t := by
  obtain ⟨_, _, _, _, rfl⟩ := h.form
  exact ⟨rfl, rfl⟩

theorem onlyRegs.poisoned {s t : State} {as : List Nat} (h : onlyRegs s t as) (a n : Nat) : t.poisoned a n = s.poisoned a n := by
  obtain ⟨_, _, _, _, rfl⟩ := h.form
  rfl

theorem onlyRegs.freeCtr {s t : State} {as : List Nat} (h : onlyRegs s t as) : t.freeCtr = s.freeCtr := by
  obtain ⟨_, _, _, _, rfl⟩ := h.form
  rfl

theorem onlyMem.out {s t : State} (h : onlyMem s t) : t.out = s.out := by
  obtain ⟨_, _, _, _, _, _, _, _, _, rfl⟩ := h.form
  rfl

/-- The right to an address does not depend on what memory holds. -/
theorem onlyMem.memRight {s t : State} (h : onlyMem s t) (m : Master) (a : Nat) (k : Acc) : t.memRight m a k = s.memRight m a k := by
  obtain ⟨_, _, _, _, _, _, _, _, _, rfl⟩ := h.form
  rfl

theorem bytesAt_of_sameMem {s t : State} (h : sameMem s t) (a n : Nat) : t.bytesAt a n = s.bytesAt a n := by
  simp [State.bytesAt, byteAt_of_sameMem h]

/-! ## Stores that follow each other -/

theorem stored_of_sameMem {s t u : State} {a : Nat} {bs : List Byte} (h : sameMem s t) (k : stored t u a bs) : stored s u a bs := by
  intro p
  rw [k p, byteAt_of_sameMem h]

/-- To store nothing is to keep memory. -/
theorem stored_nil_iff {s t : State} {a : Nat} : stored s t a [] ↔ memKept s t := by
  refine forall_congr' fun p => ?_
  rw [if_neg (by simp)]

theorem stored_append {s t u : State} {a : Nat} {xs ys : List Byte} (h : stored s t a xs) (k : stored t u (a + xs.length) ys) :
    stored s u a (xs ++ ys) := by
  intro p
  rw [k p, h p, List.length_append]
  by_cases hx : a ≤ p ∧ p < a + xs.length
  · rw [if_neg (by omega), if_pos hx, if_pos (by omega), List.getElem?_append_left (by omega)]
  by_cases hy : a + xs.length ≤ p ∧ p < a + xs.length + ys.length
  · rw [if_pos hy, if_pos (by omega), List.getElem?_append_right (by omega)]
    congr 2
    omega
  · rw [if_neg hy, if_neg hx, if_neg (by omega)]

/-! # Accesses of memory (R25, R220, R330, R333, R335, R337) -/

theorem onlyRegs_coreacc (s : State) (m full a n : Nat) (w : Option (List Byte)) : onlyRegs s (s.coreacc m full a n w) [] := by
  unfold State.coreacc
  exact onlyRegs_ite (onlyRegs_jrec s _ _ _) (onlyRegs.refl s _)

theorem onlyRegs_trBusy (s : State) (m : Master) (a : Nat) (meet : Option TrMeet) (write : Bool) :
    onlyRegs s (s.trBusy m a meet write) [0x04900020] := by
  cases meet with
  | none => exact onlyRegs.refl s _
  | some x => exact onlyRegs_ite (onlyRegs_setReg s _ _) (onlyRegs.refl s _)

/-- The other port of the Tack Room writes the word at the same time (R337). -/
def tackClash (a : Nat) (meet : Option TrMeet) : Bool := isTack a && (match meet with | some x => x.otherWrites | none => false)

/-- The bytes of a performed read with their poison mark: free ones where the other port writes (R337), else those last written. -/
def State.fetched (s : State) (a n : Nat) (meet : Option TrMeet) : List Byte × Bool :=
  if tackClash a meet then (leBytes n (Config.tackRoomUndefined s.freeCtr).toNat, false) else (s.bytesAt a n, s.poisoned a n)

theorem State.memFetch_eq {s : State} {m : Master} {a n : Nat} {meet : Option TrMeet} (h : isHw a = false) :
    s.memFetch m a n meet =
      if tackClash a meet then ({ s with freeCtr := s.freeCtr + 1 }, s.fetched a n meet) else s.readMem a n m.id (eccOwner m.id) := by
  cases meet <;> simp +contextual [State.memFetch, h, State.fetched, tackClash]

/-- A read outside the records of the hardware changes no byte. -/
theorem State.memFetch_spec (s : State) (m : Master) {a : Nat} (n : Nat) (meet : Option TrMeet) (h : isHw a = false) :
    onlyMem s (s.memFetch m a n meet).1 ∧ sameMem s (s.memFetch m a n meet).1 ∧ (s.memFetch m a n meet).2 = s.fetched a n meet := by
  rw [State.memFetch_eq h]
  split
  · exact ⟨⟨rfl, fun _ _ _ => rfl⟩, ⟨rfl, rfl⟩, rfl⟩
  next hc => exact ⟨onlyMem_readMem s a n _ _, sameMem_readMem s a n _ _, (if_neg hc).symm⟩

theorem onlyRegs.fetched {s t : State} {as : List Nat} (h : onlyRegs s t as) (a n : Nat) (meet : Option TrMeet) :
    t.fetched a n meet = s.fetched a n meet := by
  rw [State.fetched, State.fetched, h.freeCtr, bytesAt_of_sameMem (sameMem_of_onlyRegs h), h.poisoned]

/-- From s to t a master's read took place: memory is as it was and the part has answered o. -/
def readAnswers (s t : State) (o : Out) : Prop := memKept s t ∧ onlyMem { s with out := t.out } t ∧ t.out = s.out ++ [o]

theorem readAnswers_emit {s u : State} {o : Out} (ho : o.ofPath = false) (hm : sameMem s u) (h : onlyMem s u) :
    readAnswers s (u.emit o) o := by
  rw [State.emit_plain u ho]
  refine ⟨byteAt_of_sameMem hm, ?_, by rw [h.out]⟩
  refine ⟨?_, h.2⟩
  obtain ⟨_, _, _, _, _, _, _, _, _, rfl⟩ := h.form
  rfl

/-- The fetch of a permitted read, after what is recorded of the access. -/
theorem onlyRegs.memFetch_spec {s t : State} {as : List Nat} (ht : onlyRegs s t as) (has : ∀ a ∈ as, a / 0x100000 = 0x49) (m : Master)
    {a : Nat} (n : Nat) (meet : Option TrMeet) (h : isHw a = false) :
    onlyMem s (t.memFetch m a n meet).1 ∧ sameMem s (t.memFetch m a n meet).1 ∧ (t.memFetch m a n meet).2 = s.fetched a n meet := by
  obtain ⟨hreg, hsame, hval⟩ := t.memFetch_spec m n meet h
  exact ⟨(onlyMem_of_onlyRegs ht has).trans hreg, (sameMem_of_onlyRegs ht).trans hsame, hval.trans (ht.fetched a n meet)⟩

theorem onlyRegs.writeMem_spec {s t : State} {as : List Nat} (ht : onlyRegs s t as) (has : ∀ a ∈ as, a / 0x100000 = 0x49)
    (h : s.memOk) (a : Nat) (d : List Byte) : (t.writeMem a d).memOk ∧ stored s (t.writeMem a d) a d ∧ onlyMem s (t.writeMem a d) := by
  obtain ⟨hok, hst⟩ := State.writeMem_spec (memOk_of_sameMem (sameMem_of_onlyRegs ht) h) a d false
  exact ⟨hok, stored_of_sameMem (sameMem_of_onlyRegs ht) hst, (onlyMem_of_onlyRegs ht has).trans (onlyMem_writeMem t a d false)⟩

/-! ## The cores and debug -/

/-- The answer to a core's or debug's read: a bus error for a poisoned word (R330). -/
def coreAnswer (m full : Nat) (r : List Byte × Bool) : Out := if r.2 then .accessError m full else .readData m r.1

theorem coreAnswer_plain (m full : Nat) (r : List Byte × Bool) : (coreAnswer m full r).ofPath = false := by
  unfold coreAnswer
  split <;> rfl

theorem coreAnswer_fetched (s : State) (m full a n : Nat) (meet : Option TrMeet) :
    coreAnswer m full (s.fetched a n meet) =
      if tackClash a meet then .readData m (leBytes n (Config.tackRoomUndefined s.freeCtr).toNat)
      else if s.poisoned a n then .accessError m full else .readData m (s.bytesAt a n) := by
  unfold coreAnswer State.fetched
  split <;> rfl

theorem State.memLoad_may {s : State} {m : Master} {full a n : Nat} {k : Acc} {meet : Option TrMeet} (hk : s.memRight m a k = true)
    (h : isHw a = false) : readAnswers s (s.memLoad m full a n k meet) (coreAnswer m.id full (s.fetched a n meet)) := by
  have ht := (onlyRegs_coreacc s m.id full a n none).trans (onlyRegs_trBusy _ m a meet false)
  obtain ⟨hreg, hsame, hval⟩ := ht.memFetch_spec (by simp) m n meet h
  have heq : s.memLoad m full a n k meet =
      (((s.coreacc m.id full a n none).trBusy m a meet false).memFetch m a n meet).1.emit (coreAnswer m.id full (s.fetched a n meet)) := by
    rw [State.memLoad, hk, ← hval, coreAnswer]
    exact (apply_ite (State.emit _) _ _ _).symm
  rw [heq]
  exact readAnswers_emit (coreAnswer_plain _ _ _) hsame hreg

theorem State.memLoad_refused {s : State} {m : Master} {full a n : Nat} {k : Acc} {meet : Option TrMeet} (hk : s.memRight m a k = false) :
    s.memLoad m full a n k meet = s.refuse m full := by
  simp [State.memLoad, hk]

theorem State.memStore_may {s : State} {m : Master} {a : Nat} {d : List Byte} {meet : Option TrMeet} (hk : s.memRight m a .w = true)
    (h : s.memOk) : stored s (s.memStore m a d meet) a d ∧ onlyMem s (s.memStore m a d meet) := by
  have hc := onlyRegs_coreacc s m.id a a d.length (some d)
  have hb : onlyRegs s (if isTack a && d.length % 4 != 0 then s.coreacc m.id a a d.length (some d)
      else (s.coreacc m.id a a d.length (some d)).trBusy m a meet true) [0x04900020] :=
    onlyRegs_ite (hc.mono (by simp)) (hc.trans (onlyRegs_trBusy _ m a meet true))
  have heq : s.memStore m a d meet = (if isTack a && d.length % 4 != 0 then s.coreacc m.id a a d.length (some d)
      else (s.coreacc m.id a a d.length (some d)).trBusy m a meet true).writeMem a d := by
    simp [State.memStore, hk]
  rw [heq]
  exact (hb.writeMem_spec (by simp) h a d).2

theorem State.memStore_refused {s : State} {m : Master} {a : Nat} {d : List Byte} {meet : Option TrMeet}
    (hk : s.memRight m a .w = false) : s.memStore m a d meet = s.refuse m a := by
  simp [State.memStore, hk]

/-- A plain address names no alias and no register block; each kind of access goes its own way. -/
theorem coreMemoryAccess_plain (s : State) {m : Master} (hm : m = .pommel ∨ m = .cantle ∨ m = .debug) {a : Nat} (ha : a < 0x04000000)
    (n : Nat) (op : MemOp) (meet : Option TrMeet) :
    coreMemoryAccess s m a n op meet =
      match op with
      | .write d => s.memStore m a d meet
      | .read => s.memLoad m a a n .r meet
      | .fetch => s.memLoad m a a n .x meet := by
  have hreg : isReg a = false := by simp [isReg, Nat.not_le.2 ha]
  have halias : aliasOf a = none := by
    unfold aliasOf
    rw [if_neg (by omega), if_neg (by omega)]
  rcases hm with rfl | rfl | rfl <;> cases op <;> simp [coreMemoryAccess, hreg, halias]

/-! ## BAR2 -/

theorem exec_bar2Access {s : State} (h : s.jnState ≠ 5) (off : BitVec 28) (n : Nat) (op : MemOp) :
    exec (.bar2Access off n op) s = .next (bar2Access s off.toNat n op) := by
  simp only [exec, execBar2Access, State.onLive, if_pos h]

theorem bar2Access_closed {s : State} (h : s.bar2Open = false) (a n : Nat) (op : MemOp) :
    bar2Access s a n op = match op with | .write _ => s | _ => { s with out := s.out ++ [.bar2 none false] } := by
  rw [← State.emit_plain s (o := .bar2 none false) rfl]
  cases op <;> simp [bar2Access, h]

/-- A request within one word. -/
theorem bar2Access_word {s : State} (h : s.bar2Open = true) {a n : Nat} (hn : a % 8 + n ≤ 8) (op : MemOp) :
    bar2Access s a n op = bar2Word s a n op a n := by
  simp [bar2Access, h, hn]

theorem bar2Word_write_may {s : State} {a : Nat} (hk : s.memRight (.host 0) a .w = true) (h : s.memOk) (n : Nat) (d : List Byte)
    (r len : Nat) :
    (bar2Word s a n (.write d) r len).memOk ∧ stored s (bar2Word s a n (.write d) r len) a d ∧
      onlyMem s (bar2Word s a n (.write d) r len) := by
  simpa [bar2Word, hk] using (onlyRegs_coreacc s 32 a a d.length (some d)).writeMem_spec (by simp) h a d

theorem bar2Word_read_may {s : State} {a : Nat} (hk : s.memRight (.host 0) a .r = true) (h : isHw a = false) (n r len : Nat) :
    readAnswers s (bar2Word s a n .read r len) (.bar2 (some (s.bytesAt a n)) (s.poisoned a n)) := by
  obtain ⟨hreg, hsame, hval⟩ := (onlyRegs_coreacc s 32 a a n none).memFetch_spec (by simp) (.host 0) n none h
  have hnone : s.fetched a n none = (s.bytesAt a n, s.poisoned a n) := if_neg (by simp [tackClash])
  have heq : bar2Word s a n .read r len = ((s.coreacc 32 a a n none).memFetch (.host 0) a n none).1.emit
      (.bar2 (some (s.fetched a n none).1) (s.fetched a n none).2) := by
    simp [bar2Word, hk, ← hval]
  rw [heq, hnone]
  exact readAnswers_emit rfl hsame hreg

theorem State.setCfgs_reg (s : State) (f off : Nat) (l : List Word) (b : Nat) : (s.setCfgs f off l).reg b = s.reg b := by
  induction l generalizing s off with
  | nil => rfl
  | cons v l ih => rw [State.setCfgs, ih]; rfl

/-- Error reporting by PCIe changes no register of the part. -/
theorem State.aerLog_reg (s : State) (f i : Nat) (header : List Word) (b : Nat) : (s.aerLog f i header).reg b = s.reg b := by
  unfold State.aerLog
  dsimp only
  split
  · rw [State.setCfgs_reg]; rfl
  · rfl

theorem memKept_of_store {s t : State} (h : t.store = s.store) : memKept s t :=
  byteAt_of_sameMem ⟨congrArg Prod.fst h, congrArg Prod.snd h⟩

theorem bit_or_two (x : Word) : bit (x ||| 2#32) 1 = true := by
  simp [bit]

/-- A refused write is dropped with BAR2ERR. -/
theorem State.bar2Refuse_write (s : State) (a r n : Nat) :
    memKept s (s.bar2Refuse a r n true) ∧ bit ((s.bar2Refuse a r n true).reg 0x04100004) 1 = true := by
  refine ⟨memKept_of_store (s.bar2Refuse_store a r n true), ?_⟩
  rw [State.bar2Refuse, if_pos rfl]
  dsimp only
  rw [State.aerLog_reg, State.reg_setReg_self, bit_or_two]

/-- A refused read is answered with Unsupported Request. -/
theorem State.bar2Refuse_read (s : State) (a r n : Nat) :
    memKept s (s.bar2Refuse a r n false) ∧ .bar2 none false ∈ (s.bar2Refuse a r n false).out := by
  refine ⟨memKept_of_store (s.bar2Refuse_store a r n false), ?_⟩
  rw [State.bar2Refuse, if_neg (by decide), State.emit_plain _ rfl]
  exact List.mem_append_right _ (List.mem_singleton_self _)

theorem bar2Word_write_refused {s : State} {a : Nat} (hk : s.memRight (.host 0) a .w = false) (n : Nat) (d : List Byte) (r len : Nat) :
    bar2Word s a n (.write d) r len = s.bar2Refuse a r len true := by
  simp [bar2Word, hk]

theorem bar2Word_read_refused {s : State} {a : Nat} (hk : s.memRight (.host 0) a .r = false) (n r len : Nat) :
    bar2Word s a n .read r len = s.bar2Refuse a r len false := by
  simp [bar2Word, hk]

/-! ### A write longer than a word -/

/-- The bytes of a request, n from a on, that lie in the w-th word: the first one and their number. -/
def bar2Piece (a n w : Nat) : Nat × Nat := (max a (8 * w), min (a + n) (8 * w + 8) - max a (8 * w))

theorem bar2Words_eq (a n : Nat) : bar2Words a n = (span (a / 8) ((a + n + 7) / 8 - a / 8)).map (bar2Piece a n) := rfl

/-- The write of one word of a longer request. -/
def bar2WritePiece (a n : Nat) (d : List Byte) (t : State) (p : Nat × Nat) : State :=
  bar2Word t p.1 p.2 (.write ((d.drop (p.1 - a)).take p.2)) a n

theorem bar2Access_words {s : State} (h : s.bar2Open = true) {a n : Nat} (hn : 8 < a % 8 + n) (d : List Byte) :
    bar2Access s a n (.write d) = (bar2Words a n).foldl (bar2WritePiece a n d) s := by
  rw [bar2Access, h, if_neg (by decide), if_neg (by omega)]
  rfl

/-- What follows a word's bytes are the bytes of the next word, or none. -/
theorem stored_next_word {s t : State} {a n w : Nat} {d : List Byte} (hd : d.length = n) (hw : a / 8 ≤ w) (hlt : 8 * w < a + n)
    (h : stored s t (max a (8 * (w + 1))) (d.drop (max a (8 * (w + 1)) - a))) :
    stored s t ((bar2Piece a n w).1 + (bar2Piece a n w).2) (d.drop ((bar2Piece a n w).1 - a + (bar2Piece a n w).2)) := by
  have hp : (bar2Piece a n w).1 + (bar2Piece a n w).2 = min (a + n) (8 * w + 8) := by
    simp only [bar2Piece]
    omega
  have hle : a ≤ (bar2Piece a n w).1 := Nat.le_max_left _ _
  by_cases hlast : a + n ≤ 8 * w + 8
  · rw [List.drop_eq_nil_of_le (by omega), stored_nil_iff] at h ⊢
    exact h
  · have hnext : max a (8 * (w + 1)) = (bar2Piece a n w).1 + (bar2Piece a n w).2 := by omega
    rw [hnext] at h
    rwa [← Nat.sub_add_comm hle]

/-- The words of a request from the w-th on, written one by one, store its bytes from there on. -/
theorem bar2WritePieces {a n : Nat} {d : List Byte} (hd : d.length = n) (m : Nat) {s : State} {w : Nat} (hm : (a + n + 7) / 8 - w = m)
    (hw : a / 8 ≤ w) (hok : s.memOk) (hr : ∀ p ∈ (span w m).map (bar2Piece a n), s.memRight (.host 0) p.1 .w = true) :
    let t := ((span w m).map (bar2Piece a n)).foldl (bar2WritePiece a n d) s
    stored s t (max a (8 * w)) (d.drop (max a (8 * w) - a)) ∧ onlyMem s t := by
  induction m generalizing s w with
  | zero =>
    have hnil : d.drop (max a (8 * w) - a) = [] := List.drop_eq_nil_of_le (by omega)
    rw [hnil]
    exact ⟨stored_nil_iff.2 fun _ => rfl, onlyMem.refl s⟩
  | succ m ih =>
    rw [span, List.map_cons, List.forall_mem_cons] at hr
    obtain ⟨hfirst, hrest⟩ := hr
    have hstep := bar2Word_write_may hfirst hok (bar2Piece a n w).2
      ((d.drop ((bar2Piece a n w).1 - a)).take (bar2Piece a n w).2) a n
    obtain ⟨hok1, hst1, honly1⟩ := hstep
    have hnext := ih (s := bar2WritePiece a n d s (bar2Piece a n w)) (w := w + 1) (by omega) (by omega) hok1
      (fun p hp => (honly1.memRight _ _ _).trans (hrest p hp))
    obtain ⟨hst2, honly2⟩ := hnext
    refine ⟨?_, honly1.trans honly2⟩
    have hlen : ((d.drop ((bar2Piece a n w).1 - a)).take (bar2Piece a n w).2).length = (bar2Piece a n w).2 := by
      rw [List.length_take, List.length_drop, hd]
      simp only [bar2Piece]
      omega
    change stored s _ (bar2Piece a n w).1 (d.drop ((bar2Piece a n w).1 - a))
    rw [← List.take_append_drop (bar2Piece a n w).2 (d.drop ((bar2Piece a n w).1 - a))]
    refine stored_append hst1 ?_
    rw [hlen, List.drop_drop]
    exact stored_next_word hd hw (by omega) hst2

theorem bar2Access_write_words {s : State} (h : s.bar2Open = true) {a n : Nat} (hn : 8 < a % 8 + n) {d : List Byte}
    (hd : d.length = n) (hr : ∀ p ∈ bar2Words a n, s.memRight (.host 0) p.1 .w = true) (hok : s.memOk) :
    stored s (bar2Access s a n (.write d)) a d ∧ onlyMem s (bar2Access s a n (.write d)) := by
  rw [bar2Words_eq] at hr
  rw [bar2Access_words h hn, bar2Words_eq]
  have hall := bar2WritePieces hd _ rfl le_rfl hok hr
  have hfirst : max a (8 * (a / 8)) = a := by omega
  rwa [hfirst, Nat.sub_self, List.drop_zero] at hall

/-! ## The statement -/

/-- Settles O19: what is recorded of an access leaves memory alone, and the access itself is `readMem` or `writeMem`. -/
theorem memoryAccesses : Obligations.MemoryAccesses := by
  unfold Obligations.MemoryAccesses
  constructor
  · intro s m addr n meet a clash reads hm ha
    have hreads {op : MemOp} {k : Acc} (hop : coreMemoryAccess s m a n op meet = s.memLoad m a a n k meet) : reads op k := by
      refine ⟨fun hk hw => ⟨_, rfl, ?_⟩, fun hk => ⟨_, rfl, ?_⟩⟩
      · rw [hop]
        have hload := State.memLoad_may (full := a) (n := n) (meet := meet) hk hw
        rwa [coreAnswer_fetched] at hload
      · rw [hop, State.memLoad_refused hk]
        exact refusedOnly_refuse s m a
    refine ⟨hreads (coreMemoryAccess_plain s hm ha n .read meet), hreads (coreMemoryAccess_plain s hm ha n .fetch meet),
      fun d => ⟨fun hk hok => ⟨_, rfl, ?_⟩, fun hk => ⟨_, rfl, ?_⟩⟩⟩
    · rw [coreMemoryAccess_plain s hm ha]
      exact State.memStore_may hk hok
    · rw [coreMemoryAccess_plain s hm ha]
      dsimp only
      rw [State.memStore_refused hk]
      exact refusedOnly_refuse s m a
  · intro s off n d a h hj
    simp only [exec_bar2Access hj]
    refine ⟨fun ho hn => ⟨fun hk hok => ⟨_, rfl, ?_⟩, fun hk hw => ⟨_, rfl, ?_⟩, fun hk => ⟨_, rfl, ?_⟩, fun hk => ⟨_, rfl, ?_⟩⟩,
      fun ho hn hd hr hok => ⟨_, rfl, bar2Access_write_words ho hn hd hr hok⟩, fun ho => ?_⟩
    · rw [bar2Access_word ho hn]
      exact (bar2Word_write_may hk hok n d a n).2
    · rw [bar2Access_word ho hn]
      exact bar2Word_read_may hk hw n a n
    · rw [bar2Access_word ho hn, bar2Word_write_refused hk]
      exact s.bar2Refuse_write a a n
    · rw [bar2Access_word ho hn, bar2Word_read_refused hk]
      exact s.bar2Refuse_read a a n
    · exact ⟨congrArg _ (bar2Access_closed ho _ n (.write d)), congrArg _ (bar2Access_closed ho _ n .read)⟩

end Sys2Proof.Machine

namespace Sys2Proof.Machine

/-! # How operations and CCWs end (R43, R44, R76, R78, R86, R94) -/

/-! ## What the handling of a station changes -/

/-- A slot without the count of its response timer, which the handling of a station may start or pause. -/
def Slot.untimed (x : Slot) : Slot := { x with w := { x.w with timerFrom := none, timerUsed := 0 } }

/-- From s to t nothing changes but lanes, FIFOs, stations, launches, outputs and the counts of response timers; word 0 of every
descriptor, with the station's lane, reads as before. -/
def onlyPort (s t : State) : Prop :=
  t = { s with slots := t.slots, lanes := t.lanes, fifos := t.fifos, stations := t.stations, launches := t.launches, out := t.out } ∧
    (∀ n, (t.station n).w0 = (s.station n).w0) ∧ ∀ k, (t.slot k).untimed = (s.slot k).untimed

theorem onlyPort.refl (s : State) : onlyPort s s := ⟨rfl, fun _ => rfl, fun _ => rfl⟩

/-- The first part of onlyPort with the new fields named. -/
theorem onlyPort.form {s t : State} (h : onlyPort s t) :
    ∃ x l f n g o, t = { s with slots := x, lanes := l, fifos := f, stations := n, launches := g, out := o } :=
  ⟨_, _, _, _, _, _, h.1⟩

theorem onlyPort.trans {s t u : State} (h : onlyPort s t) (k : onlyPort t u) : onlyPort s u := by
  refine ⟨?_, fun n => (k.2.1 n).trans (h.2.1 n), fun j => (k.2.2 j).trans (h.2.2 j)⟩
  obtain ⟨_, _, _, _, _, _, rfl⟩ := h.form
  obtain ⟨_, _, _, _, _, _, rfl⟩ := k.form
  rfl

theorem onlyPort_ite {s t u : State} {p : Prop} [Decidable p] (h : onlyPort s t) (k : onlyPort s u) :
    onlyPort s (if p then t else u) := by
  split
  · exact h
  · exact k

theorem onlyPort_foldl {α : Type} {f : State → α → State} (hf : ∀ t x, onlyPort t (f t x)) (l : List α) (s : State) :
    onlyPort s (l.foldl f s) := by
  induction l generalizing s with
  | nil => exact onlyPort.refl s
  | cons x l ih => exact (hf s x).trans (ih (f s x))

theorem onlyPort_setLane (s : State) (l : Nat) (x : Lane) : onlyPort s (s.setLane l x) := ⟨rfl, fun _ => rfl, fun _ => rfl⟩

theorem onlyPort_setFifo (s : State) (q : Nat) (x : Fifo) : onlyPort s (s.setFifo q x) := ⟨rfl, fun _ => rfl, fun _ => rfl⟩

theorem onlyPort_launches (s : State) (l : List Launch) : onlyPort s { s with launches := l } := ⟨rfl, fun _ => rfl, fun _ => rfl⟩

theorem onlyPort_emit (s : State) (o : Out) : onlyPort s (s.emit o) := by
  rw [State.emit_form]
  exact ⟨rfl, fun _ => rfl, fun _ => rfl⟩

theorem onlyPort_setStation (s : State) (n : Nat) {x : Station} (hx : x.w0 = (s.station n).w0) : onlyPort s (s.setStation n x) := by
  refine ⟨rfl, fun j => ?_, fun _ => rfl⟩
  by_cases hj : j = n
  · subst hj
    rwa [State.station_setStation]
  · rw [State.station_setStation_other s x hj]

theorem onlyPort_timerUpdate (s : State) (key : Nat) : onlyPort s (s.timerUpdate key) := by
  have hset {x : Slot} (hx : x.untimed = (s.slot key).untimed) : onlyPort s (s.setSlot key x) := by
    refine ⟨rfl, fun _ => rfl, fun j => ?_⟩
    by_cases hj : j = key
    · subst hj
      rwa [State.slot_setSlot]
    · rw [State.slot_setSlot_other s x hj]
  unfold State.timerUpdate
  refine onlyPort_ite (onlyPort.refl s) ?_
  split
  · exact hset rfl
  · exact hset rfl
  · exact onlyPort.refl s

theorem onlyPort_driveLane (s : State) (l : Nat) (d : Drive) : onlyPort s (s.driveLane l d) :=
  onlyPort_ite (onlyPort.refl s) (onlyPort_setLane s _ _)

theorem onlyPort_actionFree (s : State) (l : Nat) : onlyPort s (s.actionFree l) :=
  onlyPort_ite ((onlyPort_launches s _).trans (onlyPort_launches _ _)) (onlyPort.refl s)

theorem onlyPort_gateTimer (s : State) (l : Nat) : onlyPort s (s.gateTimer l) := by
  unfold State.gateTimer
  split
  · exact onlyPort_timerUpdate s _
  · exact onlyPort.refl s

theorem onlyPort_shutGate (s : State) (l : Nat) : onlyPort s (s.shutGate l) :=
  ((onlyPort_setLane s _ _).trans (onlyPort_actionFree _ _)).trans (onlyPort_gateTimer _ _)

theorem onlyPort_laneToSafe (s : State) (l : Nat) : onlyPort s (s.laneToSafe l) :=
  ((onlyPort_driveLane s _ _).trans (onlyPort_setLane _ _ _)).trans (onlyPort_actionFree _ _)

theorem onlyPort_flushFifo (s : State) (q : Nat) : onlyPort s (s.flushFifo q) :=
  (onlyPort_setFifo s q _).trans (onlyPort_ite (onlyPort_ite (onlyPort_driveLane _ _ _) (onlyPort.refl _)) (onlyPort.refl _))

theorem onlyPort_busStop (s : State) (l : Nat) : onlyPort s (s.busStop l) :=
  onlyPort_ite ((onlyPort_setLane s _ _).trans (onlyPort_emit _ _)) (onlyPort.refl s)

theorem onlyPort_cutLaunches (s : State) (key : Nat) : onlyPort s (s.cutLaunches key) := by
  unfold State.cutLaunches
  extract_lets mine s1 s2
  have h2 : onlyPort s1 s2 := by
    refine onlyPort_foldl (fun t l => ?_) _ _
    dsimp only
    split
    · exact ((onlyPort_setLane t _ _).trans (onlyPort_driveLane _ _ _)).trans (onlyPort_actionFree _ _)
    · exact onlyPort_shutGate t l
  exact ((onlyPort_launches s _).trans h2).trans
    (onlyPort_foldl (fun t l => onlyPort_ite (onlyPort.refl t) (onlyPort_shutGate t l)) _ _)

theorem onlyPort_stationInitial (s : State) (st : Nat) : onlyPort s (s.stationInitial st) := by
  unfold State.stationInitial
  extract_lets l s1 s2 y s3
  have h1 : onlyPort s s1 := onlyPort_foldl (fun t k => onlyPort_ite (onlyPort_setLane t _ _) (onlyPort.refl t)) _ _
  have h2 : onlyPort s1 s2 := (onlyPort_flushFifo s1 _).trans (onlyPort_flushFifo _ _)
  have h3 : onlyPort s2 s3 := (onlyPort_setLane s2 _ _).trans (onlyPort_actionFree _ _)
  exact ((h1.trans h2).trans h3).trans (onlyPort_setStation s3 st rfl)

/-- A station is handled as under R94. -/
theorem onlyPort_stationClear (s : State) (st key : Nat) : onlyPort s (s.stationClear st key) :=
  (((onlyPort_cutLaunches s key).trans (onlyPort_busStop _ _)).trans (onlyPort_foldl onlyPort_laneToSafe _ _)).trans
    (onlyPort_stationInitial _ st)

/-! ## One slot, and its station's bus -/

theorem onlySlot.refl (s : State) (key : Nat) : onlySlot s s key := ⟨rfl, fun _ _ => rfl⟩

theorem onlySlot.trans {s t u : State} {key : Nat} (h : onlySlot s t key) (k : onlySlot t u key) : onlySlot s u key := by
  refine ⟨?_, fun j hj => (k.2 j hj).trans (h.2 j hj)⟩
  rw [k.1, h.1]

theorem onlySlot_setSlot (s : State) (key : Nat) (x : Slot) : onlySlot s (s.setSlot key x) key :=
  ⟨rfl, fun _ hj => State.slot_setSlot_other s x hj⟩

/-- From s to t nothing changes but one slot, lanes and outputs: an operation has let its station's bus go. -/
def onlyOp (s t : State) (key : Nat) : Prop :=
  t = { s with slots := t.slots, lanes := t.lanes, out := t.out } ∧ ∀ k, k ≠ key → t.slot k = s.slot k

theorem onlyOp.refl (s : State) (key : Nat) : onlyOp s s key := ⟨rfl, fun _ _ => rfl⟩

theorem onlyOp.trans {s t u : State} {key : Nat} (h : onlyOp s t key) (k : onlyOp t u key) : onlyOp s u key := by
  refine ⟨?_, fun j hj => (k.2 j hj).trans (h.2 j hj)⟩
  rw [k.1, h.1]

theorem onlySlot.op {s t : State} {key : Nat} (h : onlySlot s t key) : onlyOp s t key := by
  refine ⟨?_, h.2⟩
  rw [h.1]

theorem State.busStop_form (s : State) (l : Nat) :
    s.busStop l = { s with lanes := (s.busStop l).lanes, out := (s.busStop l).out } := by
  unfold State.busStop
  split
  · rw [State.emit_form]
    rfl
  · rfl

@[simp] theorem State.slot_busStop (s : State) (l k : Nat) : (s.busStop l).slot k = s.slot k := by
  rw [State.busStop_form]
  rfl

theorem onlyOp_busStop (s : State) (l key : Nat) : onlyOp s (s.busStop l) key := by
  rw [State.busStop_form]
  exact ⟨rfl, fun _ _ => rfl⟩

theorem onlyOp_ite {s t u : State} {key : Nat} {p : Prop} [Decidable p] (h : onlyOp s t key) (k : onlyOp s u key) :
    onlyOp s (if p then t else u) key := by
  split
  · exact h
  · exact k

theorem onlyOp_toPosting (s : State) (key : Nat) : onlyOp s (s.toPosting key) key := by
  unfold State.toPosting
  extract_lets x s1 e
  have h1 : onlyOp s s1 key := onlyOp_ite (onlyOp_busStop s _ key) (onlyOp.refl s key)
  exact onlyOp_ite (h1.trans (onlySlot_setSlot s1 key _).op) (h1.trans (onlySlot_setSlot s1 key _).op)

theorem onlyOp_settle (s : State) (key : Nat) : onlyOp s (s.settle key) key :=
  onlyOp_ite (onlyOp.refl s key) (onlyOp_ite (onlyOp_toPosting s key) (onlySlot_setSlot s key _).op)

/-! ## An operation enters POSTING or HALTING -/

/-- What an operation carries from one CCW to the next beside its status (R57, R80, R493). -/
def Slot.results (x : Slot) : Bool × Bool × Cmp × Nat × Nat := (x.timeout, x.fallback, x.cmp, x.usedBytes, x.w.nlaunch)

/-- Slot y is slot x on its way out: in POSTING or HALTING, its status captured and its ending kept. -/
def Slot.leaves (x y : Slot) : Prop :=
  (y.st = .posting ∨ y.st = .halting) ∧ y.cstat = x.cstat ∧ (∃ v, y.ustat = x.ustat ||| v) ∧ y.w.ending = x.w.ending ∧
    y.results = x.results

theorem or_zero_word (v : Word) : v = v ||| 0#32 := by simp

/-- An operation that is not under a function reset enters POSTING with its status captured (R86). -/
theorem State.toPosting_slot {s : State} {key : Nat} (hf : (s.slot key).w.fnReset = false) :
    ((s.toPosting key).slot key).st = .posting ∧ (s.slot key).leaves ((s.toPosting key).slot key) ∧
      ((s.toPosting key).slot key).w.holding = false ∧
      ∃ y : Entry, ((s.toPosting key).slot key).w.final = some y ∧ y.tag = (s.slot key).tag ∧ y.cstat = (s.slot key).cstat ∧
        y.kind = 0 ∧ y.engine = keyEngine key ∧ y.slot = keySlot key := by
  simp only [State.toPosting, hf, Bool.false_eq_true, if_false, State.slot_setSlot]
  exact ⟨trivial, ⟨.inl rfl, rfl, ⟨_, rfl⟩, rfl, rfl⟩, trivial, _, rfl, rfl, rfl, rfl, rfl, rfl⟩

theorem State.toPosting_fnReset {s : State} {key : Nat} (hf : (s.slot key).w.fnReset = true) : (s.toPosting key).slot key = {} := by
  simp only [State.toPosting, hf, if_true, State.freeSlot, State.slot_setSlot]

theorem State.settle_slot {s : State} {key : Nat} (hr : s.engineRuns (keyEngine key) = true) (hf : (s.slot key).w.fnReset = false) :
    (s.slot key).leaves ((s.settle key).slot key) := by
  simp only [State.settle, hr, Bool.not_true, Bool.false_eq_true, if_false]
  split
  · exact (State.toPosting_slot hf).2.1
  · rw [State.slot_setSlot]
    exact ⟨.inr rfl, rfl, ⟨0#32, or_zero_word _⟩, rfl, rfl⟩

/-! ## An operation is ended -/

/-- A check may end the operation of a slot now: its engine runs, and no ending is fixed. -/
structure State.mayEnd (s : State) (key : Nat) : Prop where
  runs : s.engineRuns (keyEngine key) = true
  live : (s.slot key).over = false
  mid : (s.slot key).midHeld = false
  ending : (s.slot key).w.ending = none
  fnReset : (s.slot key).w.fnReset = false

/-- The slot after its ending is fixed. -/
def Slot.fixed (x : Slot) (c : Check) (last : Quad) (residual : Nat) (clear : Bool) : Slot :=
  let base := if bit c.ustat 2 && c.cstat == 0#32 then x.ustat &&& 0xFFFFFFFE#32 else x.ustat
  { x with
    cstat := x.cstat ||| c.cstat
    ustat := (if bit c.cstat 5 then base &&& 0xFFFFFFFB#32 else base) ||| c.ustat
    w := { x.w with
      ending := some { lastCcw := last, residual := residual, normal := c == chkNone }
      cleared := x.w.cleared || clear, haltRuns := false } }

/-- The station of an operation that ends: its last unit check's reason, and the handling of R94 where it is asked for. -/
def State.stationEnds (s : State) (key : Nat) (c : Check) (clear : Bool) : State :=
  let x := s.slot key
  let s := if bit c.ustat 1 && x.w.holding then s.setStation x.station { s.station x.station with ureason := bitsOf c.ustat 23 16 } else s
  if clear && x.w.holding then s.stationClear x.station key else s

theorem onlyPort_stationEnds (s : State) (key : Nat) (c : Check) (clear : Bool) : onlyPort s (s.stationEnds key c clear) := by
  unfold State.stationEnds
  extract_lets x y s1
  have h1 : onlyPort s s1 := onlyPort_ite (onlyPort_setStation s _ rfl) (onlyPort.refl s)
  exact onlyPort_ite (h1.trans (onlyPort_stationClear s1 _ key)) h1

/-- Without the handling of R94, and without a unit check, the station stays as it is. -/
theorem State.stationEnds_plain (s : State) (key : Nat) {c : Check} (hc : bit c.ustat 1 = false) : s.stationEnds key c false = s := by
  simp [State.stationEnds, hc]

theorem State.endOp_eq {s : State} {key : Nat} (h : s.mayEnd key) (c : Check) (last : Quad) (residual : Nat) (clear : Bool) :
    s.endOp key c last residual clear =
      ((s.setSlot key ((s.slot key).fixed c last residual clear)).stationEnds key c clear).settle key := by
  have hr := h.runs
  simp only [State.endOp, h.live, hr, h.mid, h.ending, Option.isSome_none, Bool.not_true, Bool.or_self, Bool.false_and,
    Bool.false_eq_true, if_false, State.stationEnds, State.slot_setSlot, Slot.fixed]

/-- What does not look at the response timer reads the same. -/
theorem Slot.read_untimed {α : Type} {x y : Slot} (h : x.untimed = y.untimed) (f : Slot → α)
    (hf : ∀ z, f z.untimed = f z := by intro; rfl) : f x = f y := by
  rw [← hf x, h, hf y]

theorem onlyPort.engineRuns {s t : State} (h : onlyPort s t) (e : Nat) : t.engineRuns e = s.engineRuns e := by
  obtain ⟨_, _, _, _, _, _, rfl⟩ := h.form
  rfl

/-- The slot of an operation that is ended leaves with its status and ending fixed. -/
theorem State.endOp_slot {s : State} {key : Nat} (h : s.mayEnd key) (c : Check) (last : Quad) (residual : Nat) (clear : Bool) :
    ((s.slot key).fixed c last residual clear).leaves ((s.endOp key c last residual clear).slot key) := by
  rw [State.endOp_eq h]
  generalize ht : s.setSlot key ((s.slot key).fixed c last residual clear) = t
  have hslot : t.slot key = (s.slot key).fixed c last residual clear := by rw [← ht, State.slot_setSlot]
  have hp := onlyPort_stationEnds t key c clear
  have hx := hp.2.2 key
  rw [← hslot]
  have hfn : ((t.stationEnds key c clear).slot key).w.fnReset = false := by
    rw [Slot.read_untimed hx (·.w.fnReset), hslot]
    exact h.fnReset
  have hruns : (t.stationEnds key c clear).engineRuns (keyEngine key) = true := by
    rw [hp.engineRuns, ← ht]
    exact h.runs
  obtain ⟨hst, hcs, ⟨v, hus⟩, hen, hre⟩ := State.settle_slot hruns hfn
  exact ⟨hst, hcs.trans (Slot.read_untimed hx (·.cstat)), ⟨v, hus.trans (by rw [Slot.read_untimed hx (·.ustat)])⟩,
    hen.trans (Slot.read_untimed hx (·.w.ending)), hre.trans (Slot.read_untimed hx (·.results))⟩

theorem or_or_and_self (a u v : Word) : ((a ||| u) ||| v) &&& u = u := by
  ext i
  simp only [BitVec.getElem_and, BitVec.getElem_or]
  cases u[i] <;> simp

/-- A check or request that may end an operation ends it. -/
theorem State.endOp_ends {s : State} {key : Nat} (h : s.mayEnd key) {c : Check} (hc : (c == chkNone) = false) (last : Quad)
    (residual : Nat) (clear : Bool) : opEnds s (s.endOp key c last residual clear) key c last residual := by
  obtain ⟨hst, hcs, ⟨v, hus⟩, hen, -⟩ := State.endOp_slot h c last residual clear
  refine ⟨hst, hcs, ?_, hen.trans ?_⟩
  · rw [hus]
    exact or_or_and_self _ _ _
  · simp only [Slot.fixed, hc]

/-- An operation ends normally. -/
theorem State.endOp_normal {s : State} {key : Nat} (h : s.mayEnd key) (last : Quad) (residual : Nat) (clear : Bool) :
    let y := (s.endOp key chkNone last residual clear).slot key
    (y.st = .posting ∨ y.st = .halting) ∧ y.w.ending = some { lastCcw := last, residual := residual, normal := true } := by
  obtain ⟨hst, -, -, hen, -⟩ := State.endOp_slot h chkNone last residual clear
  exact ⟨hst, hen⟩

/-- An ending without a unit check, whose station is not handled as under R94, changes one slot and its bus alone. -/
theorem onlyOp_endOp {s : State} {key : Nat} (h : s.mayEnd key) {c : Check} (hc : bit c.ustat 1 = false) (last : Quad) (residual : Nat) :
    onlyOp s (s.endOp key c last residual false) key := by
  rw [State.endOp_eq h, State.stationEnds_plain _ _ hc]
  exact (onlySlot_setSlot s key _).op.trans (onlyOp_settle _ key)

/-- Of what other units see, no ending changes interrupt sources or word 0 of a descriptor. -/
theorem State.endOp_outside {s : State} {key : Nat} (h : s.mayEnd key) (c : Check) (last : Quad) (residual : Nat) (clear : Bool) :
    (s.endOp key c last residual clear).irqs = s.irqs ∧
      ∀ n, ((s.endOp key c last residual clear).station n).w0 = (s.station n).w0 := by
  rw [State.endOp_eq h]
  generalize ht : s.setSlot key ((s.slot key).fixed c last residual clear) = t
  have hp := onlyPort_stationEnds t key c clear
  have hset := onlyOp_settle (t.stationEnds key c clear) key
  refine ⟨?_, fun n => ?_⟩
  · rw [hset.1]
    obtain ⟨_, _, _, _, _, _, hform⟩ := hp.form
    rw [hform, ← ht]
    rfl
  · have hn : ((t.stationEnds key c clear).settle key).station n = (t.stationEnds key c clear).station n := by rw [hset.1]; rfl
    rw [hn, hp.2.1 n, ← ht]
    rfl

/-- The state from which an operation ends matters for its status alone. -/
theorem opEnds.of_cstat {s u t : State} {key : Nat} {c : Check} {last : Quad} {residual : Nat} (h : opEnds u t key c last residual)
    (hc : (u.slot key).cstat = (s.slot key).cstat) : opEnds s t key c last residual := by
  obtain ⟨hst, hcs, hus, hen⟩ := h
  exact ⟨hst, by rw [hcs, hc], hus, hen⟩

end Sys2Proof.Machine

namespace Sys2Proof.Machine

/-! ## A CCW ends (R43, R44, R78) -/

/-- What decides whether the operation of a slot may still be ended. -/
def Slot.fate (x : Slot) : SlotSt × Option Entry × Option Ending × Bool := (x.st, x.w.final, x.w.ending, x.w.fnReset)

theorem State.mayEnd.of_fate {s t : State} {key : Nat} (h : s.mayEnd key) (hs : t.stopped = s.stopped)
    (hx : (t.slot key).fate = (s.slot key).fate) : t.mayEnd key := by
  simp only [Slot.fate, Prod.mk.injEq] at hx
  obtain ⟨hst, hfi, hen, hfn⟩ := hx
  obtain ⟨h1, h2, h3, h4, h5⟩ := h
  refine ⟨?_, ?_, ?_, hen.trans h4, hfn.trans h5⟩
  · simpa only [State.engineRuns, hs] using h1
  · simpa only [Slot.over, Slot.midHeld, hst, hfi] using h2
  · simpa only [Slot.midHeld, hst, hfi] using h3

theorem State.mayEnd.of_setSlot {s : State} {key : Nat} (h : s.mayEnd key) {x : Slot} (hx : x.fate = (s.slot key).fate) :
    (s.setSlot key x).mayEnd key :=
  h.of_fate rfl (by rw [State.slot_setSlot, hx])

/-- A slot whose CCW has ended, with its mark where one is due (R44). -/
def State.withMark (s : State) (key residual : Nat) : State :=
  let x := s.slot key
  if ccwPmk x.ccw && !x.w.marked && ccwOp x.ccw != 8 && ccwOp x.ccw != 9 && ccwOp x.ccw != 10 then s.addMark key residual else s

theorem State.withMark_slot (s : State) (key residual : Nat) :
    onlySlot s (s.withMark key residual) key ∧ ∃ ms b, (ccwPmk (s.slot key).ccw = false → ms = []) ∧
      (s.withMark key residual).slot key =
        { s.slot key with w := { (s.slot key).w with marks := (s.slot key).w.marks ++ ms, marked := b } } := by
  have hnone : ∃ ms b, (ccwPmk (s.slot key).ccw = false → ms = []) ∧
      s.slot key = { s.slot key with w := { (s.slot key).w with marks := (s.slot key).w.marks ++ ms, marked := b } } :=
    ⟨[], (s.slot key).w.marked, fun _ => rfl, by rw [List.append_nil]⟩
  unfold State.withMark
  dsimp only
  split
  · next hdue =>
    unfold State.addMark
    dsimp only
    split
    · exact ⟨onlySlot.refl s key, hnone⟩
    · refine ⟨onlySlot_setSlot s key _, [_], true, fun hp => ?_, State.slot_setSlot s key _⟩
      simp [hp] at hdue
  · exact ⟨onlySlot.refl s key, hnone⟩

/-- A flow CCW leaves no mark (R44, R56). -/
theorem State.withMark_flow {s : State} {key : Nat} (h : isFlow (s.slot key).ccw = true) (residual : Nat) : s.withMark key residual = s := by
  unfold State.withMark
  dsimp only
  rw [if_neg]
  simp only [isFlow, Bool.or_eq_true, beq_iff_eq] at h
  rcases h with (h | h) | h <;> simp [h]

/-- The slot that goes on at another CCW, at once or when its marks have been posted. -/
def Slot.goesOn (x : Slot) (next : Quad) (branch : Option Quad) : Slot :=
  let w := x.w.nextCcw
  let wait := !w.marks.isEmpty
  { x with
    st := (if !wait then .fetching else if w.markHeld then .postHeld else .running), cur := next, remain := 0
    w := { w with branchFrom := branch, ccwDone := wait } }

/-- The slot of an operation that ends, with ZERO_MARGIN where its busy claim ends on this tick (R99). -/
def State.tied (s : State) (x : Slot) : Slot :=
  { x with cstat := x.cstat ||| bitWord 7 (decide (s.busyLimit x ≤ s.usedBusy x) && x.busyFrom.isSome) }

/-- The slot that ends when its marks have been posted. -/
def Slot.lastEnds (x : Slot) (residual : Nat) : Slot :=
  { x with st := (if x.w.markHeld then .postHeld else .running), w := { x.w with ccwDone := true, lastDone := some residual } }

/-- What the end of a CCW comes to, after its mark. -/
theorem State.endCcw_eq (s : State) (key residual : Nat) (goOn : Bool) (next : Quad) (branch : Option Quad) :
    s.endCcw key residual goOn next branch =
      let t := s.withMark key residual
      let x := t.tied (t.slot key)
      if !t.engineRuns (keyEngine key) then t
      else if (t.slot key).w.haltRuns then t.endOp key chkException (t.slot key).cur 0 false
      else if goOn then t.setSlot key ((t.slot key).goesOn next branch)
      else if x.w.marks.isEmpty then (t.setSlot key x).endOp key chkNone x.cur residual false
      else t.setSlot key (x.lastEnds residual) := rfl

/-- The same for a flow CCW with no mark to post, which goes on at once. -/
theorem State.endCcw_flow {s : State} {key : Nat} (hr : s.engineRuns (keyEngine key) = true) (hf : isFlow (s.slot key).ccw = true)
    (hh : (s.slot key).w.haltRuns = false) (residual : Nat) (next : Quad) (branch : Option Quad) :
    s.endCcw key residual true next branch = s.setSlot key ((s.slot key).goesOn next branch) := by
  simp [State.endCcw_eq, State.withMark_flow hf, hr, hh]

/-- A CCW that is no flow CCW ends from a state v that differs in the slot alone, whose run of flow CCWs is broken and whose mark is
made where one is due. -/
theorem State.ccwEnded_form {s : State} {key : Nat} (h : s.mayEnd key) (residual : Nat) :
    ∃ v ms b, onlySlot s v key ∧ v.mayEnd key ∧ (ccwPmk (s.slot key).ccw = false → ms = []) ∧
      v.slot key = { s.slot key with flow := 0, w := { (s.slot key).w with marks := (s.slot key).w.marks ++ ms, marked := b } } ∧
      s.ccwEnded key residual =
        if (s.slot key).w.haltRuns then v.endOp key chkException (s.slot key).cur 0 false
        else if ccwNext (s.slot key).ccw then v.setSlot key ((v.slot key).goesOn (nextAddr (s.slot key).cur) none)
        else if ((s.slot key).w.marks ++ ms).isEmpty then
          (v.setSlot key (v.tied (v.slot key))).endOp key chkNone (s.slot key).cur residual false
        else v.setSlot key ((v.tied (v.slot key)).lastEnds residual) := by
  have hu := onlySlot_setSlot s key { s.slot key with flow := 0 }
  have hux := State.slot_setSlot s key { s.slot key with flow := 0 }
  have he : s.ccwEnded key residual =
      (s.setSlot key { s.slot key with flow := 0 }).endCcw key residual (ccwNext (s.slot key).ccw) (nextAddr (s.slot key).cur) none := rfl
  rw [he, State.endCcw_eq]
  generalize s.setSlot key { s.slot key with flow := 0 } = u at hu hux ⊢
  obtain ⟨honly, ms, b, hms, hx⟩ := u.withMark_slot key residual
  rw [hux] at hx hms
  have hv := hu.trans honly
  have hmay : (u.withMark key residual).mayEnd key := h.of_fate (by rw [hv.1]) (by rw [hx]; rfl)
  have hr := hmay.runs
  refine ⟨_, ms, b, hv, hmay, hms, hx, ?_⟩
  simp only [hr, Bool.not_true, Bool.false_eq_true, if_false, State.tied, hx]

/-- From s to t the current CCW of a slot has ended: it passes to the next CCW or ends its operation, what else the operation
carries stays, and no other part of the machine changes but the station's bus. -/
structure State.ccwGone (s t : State) (key residual : Nat) : Prop where
  passes : ccwPasses s t key residual
  only : onlyOp s t key
  ustat : ∃ v, (t.slot key).ustat = (s.slot key).ustat ||| v
  results : (t.slot key).results = (s.slot key).results

theorem running_or_postHeld (b : Bool) :
    (if b then SlotSt.postHeld else .running) = .running ∨ (if b then SlotSt.postHeld else .running) = .postHeld := by
  cases b <;> simp

/-- A CCW ends: its operation goes on, or ends normally, at once or when its marks have been posted. -/
theorem State.ccwEnded_gone {s : State} {key : Nat} (h : s.mayEnd key) (hh : (s.slot key).w.haltRuns = false) (residual : Nat) :
    s.ccwGone (s.ccwEnded key residual) key residual := by
  obtain ⟨v, ms, b, hv, hmay, hms, hx, he⟩ := State.ccwEnded_form h residual
  simp only [he, hh, Bool.false_eq_true, if_false]
  have hset (x : Slot) : onlyOp s (v.setSlot key x) key := (hv.trans (onlySlot_setSlot v key x)).op
  split
  · next hn =>
    refine ⟨⟨fun _ => ?_, fun hf => absurd (hn.symm.trans hf) (by decide)⟩, hset _, ⟨0#32, ?_⟩, ?_⟩
    · rw [State.slot_setSlot, hx]
      refine ⟨rfl, rfl, rfl, ?_, fun hm hp => ?_⟩
      · simp only [Slot.goesOn, Work.nextCcw]
        cases (s.slot key).w.marks ++ ms with
        | nil => exact .inl rfl
        | cons y ys => exact .inr ⟨running_or_postHeld _, rfl, by simp⟩
      · simp [Slot.goesOn, Work.nextCcw, hm, hms hp]
    · rw [State.slot_setSlot, hx]
      exact or_zero_word _
    · rw [State.slot_setSlot, hx]
      rfl
  next hn =>
  split
  · have htied : (v.setSlot key (v.tied (v.slot key))).mayEnd key := hmay.of_setSlot rfl
    obtain ⟨hst, -, ⟨w, hus⟩, hen, hre⟩ := State.endOp_slot htied chkNone (s.slot key).cur residual false
    refine ⟨⟨fun ht => absurd ht hn, fun _ => ⟨.inl ⟨hst, hen⟩, fun _ _ => ⟨hst, hen⟩⟩⟩, ?_, ⟨w, ?_⟩, ?_⟩
    · exact (hset _).trans (onlyOp_endOp htied rfl _ _)
    · rw [hus, State.slot_setSlot, hx]
      simp [Slot.fixed, chkNone, State.tied, bit]
    · rw [hre, State.slot_setSlot, hx]
      rfl
  · next hmore =>
    rw [List.isEmpty_iff] at hmore
    refine ⟨⟨fun ht => absurd ht hn, fun _ => ⟨.inr ?_, fun hm hp => absurd (by rw [hm, hms hp]; rfl) hmore⟩⟩, hset _, ⟨0#32, ?_⟩, ?_⟩
    · rw [State.slot_setSlot, hx]
      exact ⟨running_or_postHeld _, rfl, rfl, hmore⟩
    · rw [State.slot_setSlot, hx]
      exact or_zero_word _
    · rw [State.slot_setSlot, hx]
      rfl

/-- A CCW on whose end a HALT waits ends its operation (R93). -/
theorem State.ccwEnded_halted {s : State} {key : Nat} (h : s.mayEnd key) (hh : (s.slot key).w.haltRuns = true) (residual : Nat) :
    opEnds s (s.ccwEnded key residual) key chkException (s.slot key).cur 0 := by
  obtain ⟨v, ms, b, -, hmay, -, hx, he⟩ := State.ccwEnded_form h residual
  rw [he, if_pos hh]
  exact (State.endOp_ends hmay rfl _ _ _).of_cstat (by rw [hx])

/-- Where a CCW passes from depends on the CCW, its address and the marks alone. -/
theorem ccwPasses.of_slot {s u t : State} {key residual : Nat} (h : ccwPasses u t key residual) (hc : (u.slot key).ccw = (s.slot key).ccw)
    (ha : (u.slot key).cur = (s.slot key).cur) (hm : (u.slot key).w.marks = (s.slot key).w.marks) : ccwPasses s t key residual := by
  simpa only [ccwPasses, hc, ha, hm] using h

/-! ## A CCW executes -/

/-- What a slot that executes a CCW of opcode p satisfies. -/
structure State.executing (s : State) (key : Nat) (p : Nat → Bool) : Prop where
  goes : (s.slot key).st = .running ∨ (s.slot key).w.haltRuns = true
  snapped : (s.slot key).w.snapped = true
  op10 : (s.slot key).w.op10 = false
  ccwDone : (s.slot key).w.ccwDone = false
  runs : s.engineRuns (keyEngine key) = true
  op : p (ccwOp (s.slot key).ccw) = true

theorem State.executing_of_executes {s : State} {key : Nat} {p : Nat → Bool} (h : s.executes key p = true) : s.executing key p := by
  simp only [State.executes, Bool.and_eq_true, Bool.or_eq_true, Bool.not_eq_true', beq_iff_eq] at h
  obtain ⟨⟨⟨⟨⟨⟨⟨hg, hs⟩, h10⟩, hd⟩, hr⟩, hp⟩, -⟩, -⟩ := h
  exact ⟨hg, hs, h10, hd, hr, hp⟩

theorem State.executing.running {s : State} {key : Nat} {p : Nat → Bool} (h : s.executing key p) (ho : (s.slot key).openEnd) :
    (s.slot key).st = .running := by
  obtain ⟨-, -, hh, -⟩ := ho
  exact h.goes.resolve_right (by simp [hh])

theorem State.mayEnd_of_running {s : State} {key : Nat} (hr : s.engineRuns (keyEngine key) = true) (hst : (s.slot key).st = .running)
    (he : (s.slot key).w.ending = none) (hf : (s.slot key).w.fnReset = false) : s.mayEnd key :=
  ⟨hr, by simp [Slot.over, Slot.midHeld, hst], by simp [Slot.midHeld, hst], he, hf⟩

theorem State.executing.mayEnd {s : State} {key : Nat} {p : Nat → Bool} (h : s.executing key p) (ho : (s.slot key).openEnd) :
    s.mayEnd key :=
  State.mayEnd_of_running h.runs (h.running ho) ho.1 ho.2.1

/-- A check at the current CCW of an operation that may end (R86). -/
theorem State.checkNow_ends {s : State} {key : Nat} (h : s.mayEnd key) {c : Check} (hc : (c == chkNone) = false) :
    opEnds s (s.checkNow key c) key c (s.slot key).cur (s.slot key).residue :=
  State.endOp_ends h hc _ _ _

end Sys2Proof.Machine

namespace Sys2Proof.Machine

/-! # Flow and system commands (R43, R56 to R59, R64, R65) -/

/-! ## Flow CCWs -/

/-- A slot with no mark to post goes on at once. -/
theorem Slot.goesOn_st {x : Slot} (hm : x.w.marks = []) (next : Quad) (branch : Option Quad) : (x.goesOn next branch).st = .fetching := by
  simp [Slot.goesOn, Work.nextCcw, hm]

section
variable {s u : State} {key : Nat} {ls : List (Quad × Nat)} (hu : onlySlot s u key) (hx : u.slot key = { s.slot key with loops := ls })
  (hr : s.engineRuns (keyEngine key) = true) (hf : isFlow (s.slot key).ccw = true) (hh : (s.slot key).w.haltRuns = false)
  (hm : (s.slot key).w.marks = [])
include hu hx hr hf hh hm

/-- The operation branches from a flow CCW, once its loop counters are ls. -/
theorem branchTo_branches (a : Quad) :
    let t := u.branchTo key a
    (onlySlot s t key ∧ (t.slot key).st = .fetching ∧ (t.slot key).cur = a ∧ (t.slot key).w.lines = [] ∧
      (t.slot key).w.branchFrom = some (s.slot key).cur ∧ (t.slot key).flow = (s.slot key).flow ∧ (t.slot key).w.snapped = false) ∧
      (t.slot key).loops = ls := by
  have hv := State.slot_setSlot u key { u.slot key with w := (u.slot key).w.dropLines }
  have hrv : (u.setSlot key { u.slot key with w := (u.slot key).w.dropLines }).engineRuns (keyEngine key) = true := by
    rw [hu.1]
    exact hr
  have he : u.branchTo key a = (u.setSlot key { u.slot key with w := (u.slot key).w.dropLines }).endCcw key 0 true a (some (u.slot key).cur) := rfl
  rw [he, State.endCcw_flow hrv (by rw [hv, hx]; exact hf) (by rw [hv, hx]; exact hh), hv, hx]
  dsimp only
  rw [State.slot_setSlot]
  exact ⟨⟨(hu.trans (onlySlot_setSlot u key _)).trans (onlySlot_setSlot _ key _),
    Slot.goesOn_st (x := { s.slot key with loops := ls, w := (s.slot key).w.dropLines }) hm a _, rfl, rfl, rfl, rfl, rfl⟩, rfl⟩

/-- The operation goes on after a flow CCW, once its loop counters are ls. -/
theorem endCcw_falls :
    let t := u.endCcw key 0 true (nextAddr (s.slot key).cur) none
    (onlySlot s t key ∧ (t.slot key).st = .fetching ∧ (t.slot key).cur = (s.slot key).cur + 16#64 ∧
      (t.slot key).w.lines = (s.slot key).w.lines ∧ (t.slot key).w.branchFrom = none ∧ (t.slot key).flow = (s.slot key).flow) ∧
      (t.slot key).loops = ls := by
  have hrv : u.engineRuns (keyEngine key) = true := by
    rw [hu.1]
    exact hr
  rw [State.endCcw_flow hrv (by rw [hx]; exact hf) (by rw [hx]; exact hh), hx]
  dsimp only
  rw [State.slot_setSlot]
  exact ⟨⟨hu.trans (onlySlot_setSlot u key _), Slot.goesOn_st (x := { s.slot key with loops := ls }) hm _ _, rfl, rfl, rfl, rfl⟩, rfl⟩
end

/-! ## CCWs that end from a state that their work has changed -/

/-- What a slot must keep for its CCW to end as if nothing had changed before. -/
def Slot.course (x : Slot) : (SlotSt × Option Entry × Option Ending × Bool) × Bool × Ccw × Quad × List Entry :=
  (x.fate, x.w.haltRuns, x.ccw, x.cur, x.w.marks)

/-- The CCW that an open operation executes ends, after work of it that has led to state u. -/
theorem State.executing.passes {s : State} {key : Nat} {p : Nat → Bool} (h : s.executing key p) (ho : (s.slot key).openEnd)
    (u : State) (hs : u.stopped = s.stopped) (hx : (u.slot key).course = (s.slot key).course) (residual : Nat) :
    u.ccwGone (u.ccwEnded key residual) key residual ∧ ccwPasses s (u.ccwEnded key residual) key residual := by
  simp only [Slot.course, Prod.mk.injEq] at hx
  obtain ⟨hfate, hh, hc, ha, hm⟩ := hx
  have hgone := State.ccwEnded_gone ((h.mayEnd ho).of_fate hs hfate) (hh.trans ho.2.2.1) residual
  exact ⟨hgone, hgone.passes.of_slot hc ha hm⟩

/-- A FENCE whose conditions hold discards the lines held and ends (R65, R83). -/
theorem State.executing.fence {s : State} {key : Nat} {p : Nat → Bool} (h : s.executing key p) (ho : (s.slot key).openEnd) :
    ccwPasses s ((s.setSlot key { s.slot key with w := (s.slot key).w.dropLines }).ccwEnded key 0) key 0 :=
  (h.passes ho (s.setSlot key _) rfl (by rw [State.slot_setSlot]; rfl) 0).2

/-- A SIGNAL to a source of its owner (R64). -/
theorem State.executing.signal {s : State} {key : Nat} {p : Nat → Bool} (h : s.executing key p) (ho : (s.slot key).openEnd) (n : Nat) :
    ccwPasses s ((s.irq n).ccwEnded key 0) key 0 ∧ (((s.irq n).ccwEnded key 0).irqSrc n).pend = true ∧
      ∀ j, j ≠ n → ((s.irq n).ccwEnded key 0).irqSrc j = s.irqSrc j := by
  obtain ⟨hgone, hpass⟩ := h.passes ho (s.irq n) rfl rfl 0
  have hsrc : ∀ j, ((s.irq n).ccwEnded key 0).irqSrc j = (s.irq n).irqSrc j := fun j => by rw [hgone.only.1]; rfl
  refine ⟨hpass, ?_, fun j hj => ?_⟩
  · rw [hsrc]
    exact congrArg IrqSrc.pend (SMap.get_set_self _ _ _ _)
  · rw [hsrc]
    exact SMap.get_set_ne _ _ _ _ hj

/-- A WAIT ends: its latch is clear where it ended on it, and its condition state where nothing was awaited (R52, R57). -/
theorem State.executing.wait {s : State} {key : Nat} {p : Nat → Bool} (h : s.executing key p) (ho : (s.slot key).openEnd)
    (he : s.executes key (· == 0xC) = true) :
    let x := s.slot key
    let t := waitCcw s key
    ccwPasses s t key 0 ∧ (ccwEvent x.ccw = 1 → x.timeout = false → (t.station x.station).latch = false) ∧
      (ccwEvent x.ccw ≠ 1 → t.station x.station = s.station x.station) ∧
      (ccwMode x.ccw = 0 → ccwEvent x.ccw = 0 → (t.slot key).timeout = false ∧ (t.slot key).fallback = false) := by
  simp only [waitCcw, he, if_true]
  generalize hv : (if (ccwEvent (s.slot key).ccw == 1 && !((s.slot key).timeout && (s.slot key).w.met && ccwMode (s.slot key).ccw == 3)) = true then
    s.setStation (s.slot key).station { s.station (s.slot key).station with latch := false } else s) = v
  generalize hy : (if (ccwMode (s.slot key).ccw == 0 && ccwEvent (s.slot key).ccw == 0) = true then
    { s.slot key with timeout := false, fallback := false } else s.slot key) = y
  have hvs : v.stopped = s.stopped := by rw [← hv, apply_ite State.stopped]; simp
  have hyc : y.course = (s.slot key).course := by rw [← hy]; split <;> rfl
  obtain ⟨hgone, hpass⟩ := h.passes ho (v.setSlot key y) hvs (by rw [State.slot_setSlot, hyc]) 0
  have hsta : ∀ n, ((v.setSlot key y).ccwEnded key 0).station n = v.station n := fun n => by rw [hgone.only.1]; rfl
  refine ⟨hpass, fun h1 ht => ?_, fun h1 => ?_, fun h0 h1 => ?_⟩
  · rw [hsta, ← hv, if_pos (by simp [h1, ht]), State.station_setStation]
  · rw [hsta, ← hv, if_neg (by simp [h1])]
  · have hres := hgone.results
    rw [State.slot_setSlot] at hres
    simp only [Slot.results, Prod.mk.injEq] at hres
    obtain ⟨hti, hfa, -⟩ := hres
    rw [hti, hfa, ← hy, if_pos (by simp [h0, h1])]
    exact ⟨rfl, rfl⟩

/-! ## The statement -/

theorem next_if_neg {b : Bool} {t u : State} (h : b = false) : (.next (if b then t else u) : Result) = .next u := by
  rw [h]
  rfl

theorem next_if_pos {b : Bool} {t u : State} (h : b = true) : (.next (if b then t else u) : Result) = .next t := by
  rw [h]
  rfl

theorem isFlow_of_op {c : Ccw} (h : ccwOp c = 8 ∨ ccwOp c = 9 ∨ ccwOp c = 10) : isFlow c = true := by
  rcases h with h | h | h <;> simp [isFlow, h]

/-- A LOOP branches while passes are left, and goes on after its last one (R59). -/
theorem loopCcw_passes {s : State} {key : Nat} (he : s.executes key (· == 10) = true) (ho : (s.slot key).openEnd) (hm : (s.slot key).w.marks = []) :
    let x := s.slot key
    let t := loopCcw s key
    let branches := fun ls => (onlySlot s t key ∧ (t.slot key).st = .fetching ∧ (t.slot key).cur = ccwAddr x.ccw ∧ (t.slot key).w.lines = [] ∧
      (t.slot key).w.branchFrom = some x.cur ∧ (t.slot key).flow = x.flow ∧ (t.slot key).w.snapped = false) ∧ (t.slot key).loops = ls
    let falls := fun ls => (onlySlot s t key ∧ (t.slot key).st = .fetching ∧ (t.slot key).cur = x.cur + 16#64 ∧
      (t.slot key).w.lines = x.w.lines ∧ (t.slot key).w.branchFrom = none ∧ (t.slot key).flow = x.flow) ∧ (t.slot key).loops = ls
    (x.loops.find? (fun l => l.1 == x.cur) = none →
      (ccwCount x.ccw = 1 → falls x.loops) ∧ (ccwCount x.ccw ≠ 1 → branches (x.loops ++ [(x.cur, ccwCount x.ccw - 1)]))) ∧
    (∀ n, x.loops.find? (fun l => l.1 == x.cur) = some (x.cur, n) →
      (n ≤ 1 → falls (x.loops.filter (fun l => l.1 != x.cur))) ∧
      (1 < n → branches (x.loops.map (fun l => if l.1 == x.cur then (l.1, n - 1) else l)))) := by
  intro x t branches falls
  have hex := State.executing_of_executes he
  have hf : isFlow x.ccw = true := isFlow_of_op (.inr (.inr (by simpa using hex.op)))
  have hset (ls : List (Quad × Nat)) := State.slot_setSlot s key { x with loops := ls }
  have hbr (ls : List (Quad × Nat)) := branchTo_branches (onlySlot_setSlot s key _) (hset ls) hex.runs hf ho.2.2.1 hm (ccwAddr x.ccw)
  have hfa (ls : List (Quad × Nat)) := endCcw_falls (onlySlot_setSlot s key _) (hset ls) hex.runs hf ho.2.2.1 hm
  have ht : t = loopCcw s key := rfl
  simp only [loopCcw, he, if_true] at ht
  refine ⟨fun hfind => ⟨fun h1 => ?_, fun h1 => ?_⟩, fun n hfind => ⟨fun h1 => ?_, fun h1 => ?_⟩⟩
  · simp only [x] at hfind h1
    simp only [hfind, h1, if_true] at ht
    simp only [falls, ht]
    exact endCcw_falls (onlySlot.refl s key) rfl hex.runs hf ho.2.2.1 hm
  · simp only [x] at hfind h1
    simp only [hfind, h1, if_false] at ht
    simp only [branches, ht]
    exact hbr _
  · simp only [x] at hfind
    simp only [hfind, h1, if_true] at ht
    simp only [falls, ht]
    exact hfa _
  · simp only [x] at hfind
    simp only [hfind, Nat.not_le.mpr h1, if_false] at ht
    simp only [branches, ht]
    exact hbr _

/-- Settles O49: each flow or system CCW that executes ends as its row says, and one that does not changes nothing. -/
theorem flowAndSystemCcws : Obligations.FlowAndSystemCcws := by
  unfold Obligations.FlowAndSystemCcws
  intro s e k key x to_ branches falls ready
  refine ⟨next_if_neg, next_if_neg, next_if_neg, next_if_neg, next_if_neg, next_if_neg, next_if_neg, fun he ho hm => ?_, fun he ho hm => ?_,
    fun he ho hm => ?_, fun ho => ⟨fun he => ?_, fun he hn => ?_, fun he hn => ?_, fun he => ?_, fun he => ?_⟩⟩
  all_goals have hex := State.executing_of_executes he
  case refine_1 =>
    have hf : isFlow x.ccw = true := isFlow_of_op (.inl (by simpa using hex.op))
    exact ⟨_, next_if_pos he, (branchTo_branches (onlySlot.refl s key) rfl hex.runs hf ho.2.2.1 hm _).1⟩
  case refine_2 =>
    have hf : isFlow x.ccw = true := isFlow_of_op (.inr (.inl (by simpa using hex.op)))
    refine ⟨fun hc => ⟨_, (next_if_pos he).trans (next_if_pos hc), ?_⟩, fun hc => ⟨_, (next_if_pos he).trans (next_if_neg hc), ?_⟩⟩
    · exact (branchTo_branches (onlySlot.refl s key) rfl hex.runs hf ho.2.2.1 hm _).1
    · exact (endCcw_falls (onlySlot.refl s key) rfl hex.runs hf ho.2.2.1 hm).1
  case refine_3 =>
    obtain ⟨hnone, hsome⟩ := loopCcw_passes he ho hm
    exact ⟨fun hf => ⟨fun h1 => ⟨_, rfl, (hnone hf).1 h1⟩, fun h1 => ⟨_, rfl, (hnone hf).2 h1⟩⟩,
      fun n hf => ⟨fun h1 => ⟨_, rfl, (hsome n hf).1 h1⟩, fun h1 => ⟨_, rfl, (hsome n hf).2 h1⟩⟩⟩
  case refine_4 => exact ⟨_, next_if_pos he, (hex.passes ho s rfl rfl 0).2⟩
  case refine_5 =>
    exact (next_if_pos he).trans (next_if_neg (by simpa [ready, Bool.and_eq_true] using hn))
  case refine_6 => exact ⟨_, (next_if_pos he).trans (next_if_pos (by simpa [ready, Bool.and_eq_true] using hn)), hex.fence ho⟩
  case refine_7 =>
    refine ⟨fun hown => ⟨_, (next_if_pos he).trans (congrArg Host.Outcome.next (if_pos hown)), hex.signal ho _⟩,
      fun hown => ⟨_, (next_if_pos he).trans (congrArg Host.Outcome.next (if_neg hown)), ?_⟩⟩
    exact ⟨State.checkNow_ends (hex.mayEnd ho) rfl, (State.endOp_outside (hex.mayEnd ho) _ _ _ _).1⟩
  case refine_8 => exact ⟨_, rfl, hex.wait ho he⟩

end Sys2Proof.Machine

namespace Sys2Proof.Machine

/-! # Memory and dispatch commands (R55, R60 to R63, R93, R121, R271, R292) -/

/-! ## What an engine reads and stores of local memory (R23, R33) -/

theorem stored.of_store {s t u : State} {a : Nat} {bs : List Byte} (h : stored s t a bs) (k : u.store = t.store) : stored s u a bs :=
  fun p => (byteAt_of_sameMem ⟨congrArg Prod.fst k, congrArg Prod.snd k⟩ p).trans (h p)

theorem memOk_of_store {s t : State} (h : t.store = s.store) (hs : s.memOk) : t.memOk :=
  memOk_of_sameMem ⟨congrArg Prod.fst h, congrArg Prod.snd h⟩ hs

/-- From s to t only memory, what belongs to it, and the digest of one slot may have changed. -/
structure State.memoryWork (s t : State) (key : Nat) : Prop where
  stopped : t.stopped = s.stopped
  stations : t.stations = s.stations
  slot : ∃ m, t.slot key = { s.slot key with w := { (s.slot key).w with mdig := m } }

theorem State.memoryWork_of_onlyMem {s t : State} (h : onlyMem s t) (key : Nat) : s.memoryWork t key := by
  obtain ⟨_, _, _, _, _, _, _, _, _, rfl⟩ := h.form
  exact ⟨rfl, rfl, (s.slot key).w.mdig, rfl⟩

theorem State.memoryWork.trans {s t u : State} {key : Nat} (h : s.memoryWork t key) (k : t.memoryWork u key) : s.memoryWork u key := by
  obtain ⟨m, hm⟩ := h.slot
  obtain ⟨n, hn⟩ := k.slot
  exact ⟨k.stopped.trans h.stopped, k.stations.trans h.stations, n, by rw [hn, hm]⟩

theorem State.memoryWork_addItem (s : State) (key a : Nat) (d : List Byte) : s.memoryWork (s.addItem key a d) key := by
  unfold State.addItem
  dsimp only
  split
  · exact ⟨rfl, rfl, _, State.slot_setSlot s key _⟩
  · exact ⟨rfl, rfl, (s.slot key).w.mdig, rfl⟩

/-- A store to local memory writes the bytes, whose item enters the operation's digest (R33, R493). -/
theorem State.storeBytes_local {s : State} (h : s.memOk) (key : Nat) {a : Quad} (ha : isLocal a = true) {d : List Byte} (hd : d ≠ [])
    (poison : Bool) : ∃ t, s.storeBytes key a d poison = some t ∧ s.memoryWork t key ∧ stored s t (localOf a) d := by
  refine ⟨(s.addItem key a.toNat d).writeMem (localOf a) d poison, ?_, ?_, ?_⟩
  · simp [State.storeBytes, ha, hd]
  · exact (s.memoryWork_addItem key a.toNat d).trans (State.memoryWork_of_onlyMem (onlyMem_writeMem _ _ _ _) key)
  · have hst := State.addItem_store s key a.toNat d
    exact stored_of_sameMem ⟨congrArg Prod.fst hst, congrArg Prod.snd hst⟩ (State.writeMem_spec (memOk_of_store hst h) _ d poison).2

section
variable {s : State} {key n : Nat} {a : Quad} (ha : isLocal a = true)
include ha

theorem State.fetchBytes_refused (h : s.engMay key (s.slot key) (localOf a) n = false) :
    s.fetchBytes key a n = .fail (s.refusedAccess (engineMaster (keyEngine key)) (localOf a)) chkProtection := by
  simp [State.fetchBytes, ha, h]

theorem State.fetchBytes_local (h : s.engMay key (s.slot key) (localOf a) n = true) :
    ∃ t, s.fetchBytes key a n = .bytes t (s.bytesAt (localOf a) n) (s.poisoned (localOf a) n) ∧ onlyMem s t ∧ t.store = s.store := by
  refine ⟨(s.engRead key (s.slot key) (localOf a) n).1, ?_, onlyMem_readMem _ _ _ _ _, State.engRead_store ..⟩
  simp [State.fetchBytes, ha, h, State.engRead, State.readMem]
end

theorem State.firstPoison_none {s : State} {a n : Nat} (h : s.poisoned a n = false) : s.firstPoison a n = none := by
  unfold State.firstPoison
  split
  · next w hw =>
    have hclean := List.any_eq_false.mp h w (List.mem_of_find?_eq_some hw)
    have hbad := List.find?_some hw
    cases hm : SMap.get .ok s.ecc w <;> simp_all [EccMark.bad]
  · rfl

@[simp] theorem State.bytesAt_length (s : State) (a n : Nat) : (s.bytesAt a n).length = n := by
  rw [State.bytesAt, List.length_map, span_length]

@[simp] theorem moveBytes_length (src dst : Quad) (d : List Byte) : (moveBytes src dst d).length = d.length := by
  unfold moveBytes
  dsimp only
  split
  · rw [List.length_map, span_length]
  · rfl

/-! ## MOVE, COMPARE and POST (R60, R61, R63, R93, R121) -/

section
variable {s : State} {key : Nat}

/-- A MOVE within its owner's rights and claims copies its bytes and then ends. -/
theorem moveCcw_copies (he : s.executes key (· == 0x11) = true) (hok : s.memOk) :
    let x := s.slot key
    let src := leQuad x.w.block
    let dst := leQuad (x.w.block.drop 8)
    let n := ccwCount x.ccw
    n ≠ 0 → n ≤ x.claimLeft → isLocal src = true → isLocal dst = true → s.engMay key x (localOf src) n = true →
    s.poisoned (localOf src) n = false → ∃ u, moveCcw s key = u.ccwEnded key 0 ∧ u.stopped = s.stopped ∧
      (∃ m, u.slot key = { x with usedBytes := x.usedBytes + n, w := { x.w with moved := n, mdig := m } }) ∧
      stored s u (localOf dst) (moveBytes src dst (s.bytesAt (localOf src) n)) := by
  intro x src dst n hn hle hsrc hdst hmay hpoi
  obtain ⟨t, hfetch, hfm, hfs⟩ := State.fetchBytes_local hsrc hmay
  have hft := State.memoryWork_of_onlyMem hfm key
  have hne : moveBytes src dst (s.bytesAt (localOf src) n) ≠ [] := fun hd => hn (by simpa using congrArg List.length hd)
  obtain ⟨u, hstore, hsu, hst⟩ := State.storeBytes_local (memOk_of_store hfs hok) key hdst hne false
  obtain ⟨m, hm⟩ := (hft.trans hsu).slot
  refine ⟨u.moveCount key n, ?_, hsu.stopped.trans hft.stopped, ⟨m, ?_⟩, ?_⟩
  · have hmin : min (ccwCount (s.slot key).ccw) (s.slot key).claimLeft = n := Nat.min_eq_left hle
    have hbad : s.firstPoison (localOf src) n = none := State.firstPoison_none hpoi
    unfold moveCcw
    rw [if_pos he]
    dsimp only
    rw [hmin, if_neg hn, hfetch, if_pos hsrc, hbad]
    dsimp only
    rw [hstore]
    exact if_neg (lt_irrefl n)
  · simp only [State.moveCount, State.slot_setSlot, hm]
    rfl
  · exact (stored_of_sameMem ⟨congrArg Prod.fst hfs, congrArg Prod.snd hfs⟩ hst).of_store (State.moveCount_store u key n)

/-- A MOVE with no byte left of its claim ends its operation. -/
theorem moveCcw_overrun (he : s.executes key (· == 0x11) = true) (h0 : (s.slot key).claimLeft = 0) :
    moveCcw s key = s.endOp key chkOverrun (s.slot key).cur (ccwCount (s.slot key).ccw) true := by
  unfold moveCcw
  rw [if_pos he]
  dsimp only
  rw [h0, Nat.min_zero, if_pos rfl]

/-- A MOVE from outside its owner's share is refused. -/
theorem moveCcw_refused (he : s.executes key (· == 0x11) = true) (hn : ccwCount (s.slot key).ccw ≠ 0)
    (hle : ccwCount (s.slot key).ccw ≤ (s.slot key).claimLeft) (hsrc : isLocal (leQuad (s.slot key).w.block) = true)
    (hmay : s.engMay key (s.slot key) (localOf (leQuad (s.slot key).w.block)) (ccwCount (s.slot key).ccw) = false) :
    moveCcw s key =
      (s.refusedAccess (engineMaster (keyEngine key)) (localOf (leQuad (s.slot key).w.block))).checkNow key chkProtection := by
  unfold moveCcw
  rw [if_pos he]
  dsimp only
  rw [Nat.min_eq_left hle, if_neg hn, State.fetchBytes_refused hsrc hmay]
  exact if_neg (by decide)

/-- A COMPARE of bytes within its owner's rights compares them under the mask, or meets poison. -/
theorem compareCcw_reads (he : s.executes key (· == 0x12) = true) (hl : isLocal (leQuad (s.slot key).w.block) = true) :
    let x := s.slot key
    let a := localOf (leQuad x.w.block)
    let n := ccwCount x.ccw
    (s.engMay key x a n = false → compareCcw s key = (s.refusedAccess (engineMaster (keyEngine key)) a).checkNow key chkProtection) ∧
    (s.engMay key x a n = true → ∃ t, s.memoryWork t key ∧ t.store = s.store ∧
      (s.poisoned a n = true → compareCcw s key = t.checkNow key chkData) ∧
      (s.poisoned a n = false →
        let mask := leNat ((x.w.block.drop 8).take n)
        let v := leNat (s.bytesAt a n) &&& mask
        let w := leNat ((x.w.block.drop 16).take n) &&& mask
        compareCcw s key = (t.setSlot key { t.slot key with cmp := if v < w then .lt else if v = w then .eq else .gt }).ccwEnded key 0)) := by
  intro x a n
  refine ⟨fun hmay => ?_, fun hmay => ?_⟩
  · unfold compareCcw
    rw [if_pos he]
    dsimp only
    rw [State.fetchBytes_refused hl hmay]
  · obtain ⟨t, hfetch, hfm, hfs⟩ := State.fetchBytes_local hl hmay
    have hft := State.memoryWork_of_onlyMem hfm key
    obtain ⟨m, hm⟩ := hft.slot
    refine ⟨t, hft, hfs, fun hp => ?_, fun hp => ?_⟩
    · unfold compareCcw
      rw [if_pos he]
      dsimp only
      rw [hfetch]
      exact if_pos hp
    · unfold compareCcw
      rw [if_pos he]
      dsimp only
      rw [hfetch, hp]
      simp only [Bool.false_eq_true, if_false, hm]
      rfl

/-- A check at the current CCW after work that has left the operation as it was. -/
theorem State.memoryWork.checkNow {t : State} (h : s.memoryWork t key) (hmay : s.mayEnd key) {c : Check} (hc : (c == chkNone) = false) :
    opEnds s (t.checkNow key c) key c (s.slot key).cur (s.slot key).residue := by
  obtain ⟨m, hm⟩ := h.slot
  have hends := State.checkNow_ends (hmay.of_fate h.stopped (by rw [hm]; rfl)) hc
  rw [hm] at hends
  exact hends.of_cstat (by rw [hm])

theorem State.memoryWork_refusedAccess (s : State) (key m a : Nat) : s.memoryWork (s.refusedAccess m a) key :=
  ⟨rfl, rfl, (s.slot key).w.mdig, rfl⟩
end

end Sys2Proof.Machine

namespace Sys2Proof.Machine

/-! ## STRIKE (R55, R152 to R154) -/

theorem onlyPort_endPulse (s : State) (l : Nat) : onlyPort s (s.endPulse l) := by
  unfold State.endPulse
  dsimp only
  split
  · exact ((onlyPort_setLane s _ _).trans (onlyPort_driveLane _ _ _)).trans ((onlyPort_launches _ _).trans (onlyPort_launches _ _))
  · exact onlyPort.refl s

/-- A launch counts the slot among its owners on this tick, and leaves slots and engines as they are. -/
theorem State.launch_counts (s : State) (key g : Nat) :
    (s.launch key g).stopped = s.stopped ∧ ((s.launch key g).slot key).untimed = (s.slot key).untimed ∧
      ∃ y ∈ (s.launch key g).launches, y.group = g ∧ y.at_ = s.time ∧ key ∈ y.owners := by
  unfold State.launch
  split
  · next hany =>
    refine ⟨rfl, rfl, ?_⟩
    obtain ⟨y, hy, hyg⟩ := List.any_eq_true.mp hany
    refine ⟨_, List.mem_map_of_mem hy, ?_⟩
    rw [if_pos hyg]
    simp only [Bool.and_eq_true, beq_iff_eq] at hyg
    exact ⟨hyg.1, hyg.2, List.mem_append_right _ (List.mem_singleton.mpr rfl)⟩
  · extract_lets v s1 s2 s3
    have h2 : s2.stopped = s.stopped ∧ s2.slots = s.slots ∧ s2.time = s.time := by
      simp only [s2, s1]
      split <;> exact ⟨rfl, rfl, rfl⟩
    have h3 : onlyPort s2 s3 := onlyPort_foldl (fun t (e : Nat × Nat × Nat) => onlyPort_ite (onlyPort_endPulse t e.1) (onlyPort.refl t)) _ _
    have hslot : s2.slot key = s.slot key := by rw [State.slot, h2.2.1]; rfl
    have hform := h3.1
    refine ⟨(congrArg State.stopped hform).trans h2.1, (h3.2.2 key).trans (by rw [hslot]), _, List.mem_append_right _ (List.mem_singleton.mpr rfl),
      rfl, (congrArg State.time hform).trans h2.2.2, List.mem_singleton.mpr rfl⟩

/-- A STRIKE that may launch its group launches it, counts the launch and ends. -/
theorem State.executing.strike {s : State} {key : Nat} {p : Nat → Bool} (h : s.executing key p) (ho : (s.slot key).openEnd) (g : Nat) :
    let t := ((s.launch key g).countLaunch key).ccwEnded key 0
    ccwPasses s t key 0 ∧ (t.slot key).w.nlaunch = (s.slot key).w.nlaunch + 1 ∧
      ∃ y ∈ t.launches, y.group = g ∧ y.at_ = s.time ∧ key ∈ y.owners := by
  obtain ⟨hs, hx, y, hy, hyg⟩ := s.launch_counts key g
  have hslot : ((s.launch key g).countLaunch key).slot key =
      { (s.launch key g).slot key with w := { ((s.launch key g).slot key).w with nlaunch := ((s.launch key g).slot key).w.nlaunch + 1 } } :=
    State.slot_setSlot _ key _
  obtain ⟨hgone, hpass⟩ := h.passes ho ((s.launch key g).countLaunch key) hs (by rw [hslot]; exact Slot.read_untimed hx Slot.course) 0
  have hres := hgone.results
  rw [hslot] at hres
  simp only [Slot.results, Prod.mk.injEq] at hres
  refine ⟨hpass, hres.2.2.2.2.trans ?_, y, ?_, hyg⟩
  · exact congrArg (· + 1) (Slot.read_untimed hx (·.w.nlaunch))
  · rw [hgone.only.1]
    exact hy

/-! ## SHAPE (R62, R271) -/

section
variable {s : State} {key : Nat} (he : s.executes key (· == 0x10) = true)
include he

theorem shapeCcw_returned (hx : (s.slot key).w.shapeEnd = some .returned) : shapeCcw s key = s.ccwEnded key 0 := by
  simp [shapeCcw, he, hx]

theorem shapeCcw_poison (hx : (s.slot key).w.shapeEnd = some .poison) : shapeCcw s key = s.checkNow key chkData := by
  simp [shapeCcw, he, hx]

theorem shapeCcw_failed (hx : (s.slot key).w.shapeEnd = some .fault ∨ (s.slot key).w.shapeEnd = some .noCore) :
    shapeCcw s key = s.checkNow key (chkProg 0x0E) := by
  rcases hx with hx | hx <;> simp [shapeCcw, he, hx]

theorem shapeCcw_waits (hx : (s.slot key).w.shapeEnd = none) (ha : (s.slot key).w.shapeAt.isSome = true) : shapeCcw s key = s := by
  simp [shapeCcw, he, hx, ha]

theorem shapeCcw_noCore (hx : (s.slot key).w.shapeEnd = none) (ha : (s.slot key).w.shapeAt = none)
    (hc : s.shapeCores (descCores (s.slot key).w.block) = []) :
    shapeCcw s key =
      (s.setSlot key { s.slot key with w := { (s.slot key).w with shapeAt := some s.time, shapeEnd := some .noCore } }).checkNow key
        (chkProg 0x0E) := by
  simp [shapeCcw, he, hx, ha, hc]

theorem shapeCcw_asks (hx : (s.slot key).w.shapeEnd = none) (ha : (s.slot key).w.shapeAt = none)
    (hc : s.shapeCores (descCores (s.slot key).w.block) ≠ []) :
    shapeCcw s key =
      { s.setSlot key { s.slot key with w := { (s.slot key).w with shapeAt := some s.time, shapeLate := false } } with
        shapeQ := s.shapeQ ++ [{ key := key, owner := (s.slot key).owner, desc := (s.slot key).w.block, at_ := s.time }] } := by
  simp [shapeCcw, he, hx, ha, hc]
end

/-! ## SENSE (R292, R293) -/

theorem leBytes_length (n v : Nat) : (leBytes n v).length = n := by
  induction n generalizing v with
  | zero => rfl
  | succ n ih => rw [leBytes, List.length_cons, ih]

theorem padTo_length (n : Nat) (bs : List Byte) : (padTo n bs).length = n := by
  simp only [padTo, rep, List.length_append, List.length_take, List.length_replicate]
  omega

theorem Station.senseBytes_length (x : Station) (flags : Nat) : (x.senseBytes flags).length = 32 := by
  simp [Station.senseBytes, leBytes_length, padTo_length, rep]

theorem dataRun_plain {c : Ccw} (h : ccwPgl c = false) (block : List Byte) : dataRun c block 0 = (ccwAddr c, ccwCount c) := by
  simp [dataRun, h]

/-- A SENSE whose bytes have all been stored stores no more. -/
theorem State.senseStore_done {s : State} {key : Nat} (h : (s.slot key).remain = 0) (k : Nat) : s.senseStore key k = s := by
  cases k with
  | zero => rfl
  | succ k => simp [State.senseStore, h]

/-- SENSE moves memory's bytes: neither VOID nor AUSE keeps them from it. -/
theorem State.noMemory_sense (s : State) (st : Nat) {c : Ccw} (hop : ccwOp c = 4) (hv : ccwVoid c = false) : s.noMemory st c = false := by
  simp [State.noMemory, State.noAuse, isStationOp, hop, hv]

/-- The bytes of a SENSE that fit its claim and one run of local memory are stored at once. -/
theorem State.senseStore_local {s : State} {key n : Nat} (hok : s.memOk) (hst : (s.slot key).st = .running)
    (hop : ccwOp (s.slot key).ccw = 4) (hv : ccwVoid (s.slot key).ccw = false) (hpgl : ccwPgl (s.slot key).ccw = false)
    (hl : isLocal (ccwAddr (s.slot key).ccw) = true) (hc : ccwCount (s.slot key).ccw = n) (hr : (s.slot key).remain = n)
    (hpos : (s.slot key).w.chainPos = 0) (h1 : 1 ≤ n) (hcl : n ≤ (s.slot key).claimLeft) (hd : n ≤ (s.slot key).w.data.length) (k : Nat) :
    ∃ t m, s.senseStore key (k + 1) = t ∧ t.stopped = s.stopped ∧ t.stations = s.stations ∧
      t.slot key = { s.slot key with
        remain := 0, usedBytes := (s.slot key).usedBytes + n, w := { (s.slot key).w with mdig := m } } ∧
      stored s t (localOf (ccwAddr (s.slot key).ccw)) ((s.slot key).w.data.take n) := by
  have hlen : ((s.slot key).w.data.take n).length = n := by rw [List.length_take]; omega
  have hne : (s.slot key).w.data.take n ≠ [] := fun h => by simp [h] at hlen; omega
  obtain ⟨u, hstore, hsu, hstored⟩ := State.storeBytes_local hok key hl hne false
  obtain ⟨m, hm⟩ := hsu.slot
  have hnot : ¬ (32 ≤ 0) := by decide
  refine ⟨u.setSlot key { u.slot key with remain := 0, usedBytes := (u.slot key).usedBytes + n }, m, ?_, hsu.stopped, hsu.stations, ?_, ?_⟩
  · unfold State.senseStore
    dsimp only
    rw [if_neg (by simp [hst, hr, hc, hpos]; omega), if_neg (by omega), State.noMemory_sense s _ hop hv]
    have hoff : ccwCount (s.slot key).ccw - (s.slot key).remain = 0 := by omega
    have htake : min (min (s.slot key).remain (ccwCount (s.slot key).ccw)) (s.slot key).claimLeft = n := by omega
    simp only [hoff, hpos, dataRun_plain hpgl, htake, Bool.false_eq_true, if_false, List.drop_zero, Nat.add_zero]
    rw [hstore]
    dsimp only
    have hrem : (u.slot key).remain - ((s.slot key).w.data.take n).length = 0 := by rw [hlen, hm]; simp [hr]
    rw [hrem, hlen, State.senseStore_done (by rw [State.slot_setSlot])]
  · rw [State.slot_setSlot, hm]
  · exact hstored.of_store rfl

/-- A transfer that has been counted to its end, with no byte left and no member to follow, ends its CCW. -/
theorem State.dataProgress_counted {s : State} {key : Nat} (hr : s.engineRuns (keyEngine key) = true) (hst : (s.slot key).st = .running)
    (hsn : (s.slot key).w.snapped = true) (hsu : (s.slot key).w.succ = false) (h10 : (s.slot key).w.op10 = false)
    (hd : (s.slot key).w.ccwDone = false) (he : (s.slot key).w.xferEnd = some .counted) (h0 : (s.slot key).remain = 0)
    (hsp : ccwSpan (s.slot key).ccw = false) :
    s.dataProgress key = (s.setSlot key { s.slot key with short := false }).ccwEnded key 0 := by
  simp [State.dataProgress, State.finishData, hr, hst, hsn, hsu, h10, hd, he, h0, hsp]

/-- The station's sense data, taken as a SENSE begins. -/
def State.senseTaken (s : State) (key : Nat) : State :=
  let x := s.slot key
  let st := x.station
  let t := s.setStation st { s.station st with levels := s.pgLevels (s.staLane st / 12) }
  t.setSlot key { x with
    ustat := x.ustat &&& 0xFFFFFFFA#32
    w := { x.w with loaded := true, timerFrom := some s.time, timerUsed := 0, data := (t.station st).senseBytes (t.staFlags st) } }

/-- The 32 bytes of sense data that a SENSE takes. -/
def State.senseNow (s : State) (st : Nat) : List Byte :=
  ({ s.station st with levels := s.pgLevels (s.staLane st / 12) } : Station).senseBytes (s.staFlags st)

theorem State.senseTaken_slot (s : State) (key : Nat) : (s.senseTaken key).slot key = { s.slot key with
    ustat := (s.slot key).ustat &&& 0xFFFFFFFA#32
    w := { (s.slot key).w with loaded := true, timerFrom := some s.time, timerUsed := 0, data := s.senseNow (s.slot key).station } } := by
  have hsta := State.station_setStation s (s.slot key).station
    { s.station (s.slot key).station with levels := s.pgLevels (s.staLane (s.slot key).station / 12) }
  unfold State.senseTaken
  dsimp only
  rw [State.slot_setSlot, State.senseNow, State.staFlags, State.staFlags, hsta]
  rfl

/-- A command of a SENSE: the sense data are taken once, what the position allows is stored, and the transfer ends where it is complete. -/
theorem senseCcw_eq (s : State) (key : Nat) :
    senseCcw s key =
      if !s.executes key (· == 4) then s
      else
        let t := (if (s.slot key).w.loaded || (s.slot key).w.chainPos != 0 then s else s.senseTaken key).senseStore key 40
        let x := t.slot key
        if x.st != .running then t
        else
          (if x.w.xferEnd.isSome then t
          else if x.remain = 0 ∧ !ccwSpan x.ccw then t.senseEnd key .counted
          else if 32 ≤ x.w.chainPos + (ccwCount x.ccw - x.remain) then t.senseEnd key .remote
          else t).dataProgress key := rfl

/-- The first command of a SENSE that is no member of a chain. -/
theorem senseCcw_first {s : State} {key : Nat} (he : s.executes key (· == 4) = true) (hl : (s.slot key).w.loaded = false)
    (hp : (s.slot key).w.chainPos = 0) {t : State} (ht : (s.senseTaken key).senseStore key 40 = t) (hst : (t.slot key).st = .running)
    (hx : (t.slot key).w.xferEnd = none) (hr : (t.slot key).remain = 0) (hsp : ccwSpan (t.slot key).ccw = false) :
    senseCcw s key = (t.senseEnd key .counted).dataProgress key := by
  simp [senseCcw_eq, he, hl, hp, ht, hst, hx, hr, hsp]

/-- The arrival of what a timer waited for changes the slot's status and timer alone. -/
theorem State.arrival_eq (s : State) (key : Nat) : ∃ v f, s.arrival key = s.setSlot key { s.slot key with
    cstat := (s.slot key).cstat ||| v, w := { (s.slot key).w with timerUsed := 0, timerFrom := f } } := ⟨_, _, rfl⟩

/-- A SENSE whose transfer is complete: STATION_END, and the station's flags and reason clear (R292). -/
theorem State.senseEnd_ends (s : State) (key : Nat) (how : XferEnd) :
    let x := s.slot key
    let t := s.senseEnd key how
    t.stopped = s.stopped ∧ (t.station x.station).flags = 0 ∧ (t.station x.station).ureason = 0 ∧
      ∃ v, t.slot key = { x with
        cstat := x.cstat ||| v, ustat := x.ustat ||| 1#32, w := { x.w with xferEnd := some how, timerFrom := none, timerUsed := 0 } } := by
  intro x t
  generalize hy : ({ s.station x.station with flags := 0, ureason := 0, safeAck := s.safeMark } : Station) = y
  have ht : t = ((s.setStation x.station y).arrival key).setSlot key { ((s.setStation x.station y).arrival key).slot key with
      ustat := (((s.setStation x.station y).arrival key).slot key).ustat ||| 1#32
      w := { (((s.setStation x.station y).arrival key).slot key).w with xferEnd := some how, timerFrom := none } } := by
    rw [← hy]
    rfl
  obtain ⟨v, f, hv⟩ := (s.setStation x.station y).arrival_eq key
  rw [hv, State.slot_setSlot] at ht
  have hsta : t.station x.station = y := by
    rw [ht]
    exact State.station_setStation s x.station y
  refine ⟨by rw [ht]; rfl, by rw [hsta, ← hy], by rw [hsta, ← hy], v, ?_⟩
  rw [ht, State.slot_setSlot]
  rfl

/-- The first command of a SENSE stores its bytes and ends the CCW (R292). -/
theorem State.executing.sense {s : State} {key : Nat} (he : s.executes key (· == 4) = true) (ho : (s.slot key).openEnd) (hok : s.memOk)
    (hl : (s.slot key).w.loaded = false) (hp : (s.slot key).w.chainPos = 0) (hsu : (s.slot key).w.succ = false)
    (hx : (s.slot key).w.xferEnd = none) (hv : ccwVoid (s.slot key).ccw = false) (hg : ccwPgl (s.slot key).ccw = false)
    (hsp : ccwSpan (s.slot key).ccw = false) (hlo : isLocal (ccwAddr (s.slot key).ccw) = true)
    (hr : (s.slot key).remain = ccwCount (s.slot key).ccw) (h1 : 1 ≤ ccwCount (s.slot key).ccw) (h32 : ccwCount (s.slot key).ccw ≤ 32)
    (hc : ccwCount (s.slot key).ccw ≤ (s.slot key).claimLeft) :
    let x := s.slot key
    let t := senseCcw s key
    ccwPasses s t key 0 ∧ (t.station x.station).flags = 0 ∧ (t.station x.station).ureason = 0 ∧
      stored s t (localOf (ccwAddr x.ccw))
        ((({ s.station x.station with levels := s.pgLevels (s.staLane x.station / 12) } : Station).senseBytes (s.staFlags x.station)).take
          (ccwCount x.ccw)) := by
  have hex := State.executing_of_executes he
  have hst := hex.running ho
  intro x t
  have hlen : (s.senseNow x.station).length = 32 := Station.senseBytes_length _ _
  have hslot := s.senseTaken_slot key
  generalize hu : s.senseTaken key = u at hslot
  have hus : u.store = s.store := by rw [← hu]; rfl
  obtain ⟨v, m, hstore, hvs, -, hvx, hvst⟩ := State.senseStore_local (s := u) (key := key) (n := ccwCount x.ccw) (memOk_of_store hus hok)
    (by rw [hslot]; exact hst) (by rw [hslot]; simpa using hex.op) (by rw [hslot]; exact hv) (by rw [hslot]; exact hg) (by rw [hslot]; exact hlo)
    (by rw [hslot]) (by rw [hslot]; exact hr) (by rw [hslot]; exact hp) h1 (by rw [hslot]; exact hc)
    (by rw [hslot]; exact h32.trans hlen.ge) 39
  rw [hslot] at hvx hvst
  obtain ⟨hws, hfl, hre, b, hwx⟩ := v.senseEnd_ends key .counted
  have hwst := State.senseEnd_store v key .counted
  have ht : t = (v.senseEnd key .counted).dataProgress key :=
    senseCcw_first he hl hp (by rw [hu]; exact hstore) (by rw [hvx]; exact hst) (by rw [hvx]; exact hx) (by rw [hvx]) (by rw [hvx]; exact hsp)
  rw [hvx] at hwx hfl hre
  generalize v.senseEnd key .counted = w at *
  have hwstop : w.stopped = s.stopped := hws.trans (hvs.trans (by rw [← hu]; rfl))
  have hruns : w.engineRuns (keyEngine key) = true := by simpa only [State.engineRuns, hwstop] using hex.runs
  rw [State.dataProgress_counted hruns (by rw [hwx]; exact hst) (by rw [hwx]; exact hex.snapped) (by rw [hwx]; exact hsu)
    (by rw [hwx]; exact hex.op10) (by rw [hwx]; exact hex.ccwDone) (by rw [hwx]) (by rw [hwx]) (by rw [hwx]; exact hsp)] at ht
  obtain ⟨hgone, hpass⟩ := hex.passes ho (w.setSlot key { w.slot key with short := false }) hwstop (by rw [State.slot_setSlot, hwx]; rfl) 0
  have hsta : ∀ n, t.station n = w.station n := fun n => by rw [ht, hgone.only.1]; rfl
  refine ⟨ht ▸ hpass, (congrArg Station.flags (hsta _)).trans hfl, (congrArg Station.ureason (hsta _)).trans hre, ?_⟩
  refine ((stored_of_sameMem ⟨congrArg Prod.fst hus, congrArg Prod.snd hus⟩ hvst).of_store hwst).of_store ?_
  rw [ht, State.ccwEnded_store]
  rfl

end Sys2Proof.Machine

namespace Sys2Proof.Machine

/-! ## The statement -/

section
variable {s : State} {key : Nat}

/-- The clauses of MOVE for an operation that is open (R60, R121). -/
theorem State.executing.move (he : s.executes key (· == 0x11) = true) (ho : (s.slot key).openEnd) :
    let x := s.slot key
    let src := leQuad x.w.block
    let dst := leQuad (x.w.block.drop 8)
    let n := ccwCount x.ccw
    let t := moveCcw s key
    (n ≠ 0 → x.claimLeft = 0 → opEnds s t key chkOverrun x.cur n) ∧
    (n ≠ 0 → n ≤ x.claimLeft → isLocal src = true → isLocal dst = true → s.memOk →
      (s.engMay key x (localOf src) n = false → memKept s t ∧ opEnds s t key chkProtection x.cur x.residue) ∧
      (s.engMay key x (localOf src) n = true → s.poisoned (localOf src) n = false →
        stored s t (localOf dst) (moveBytes src dst (s.bytesAt (localOf src) n)) ∧ ccwPasses s t key 0 ∧
        (t.slot key).usedBytes = x.usedBytes + n)) := by
  intro x src dst n t
  have hex := State.executing_of_executes he
  have hmay := hex.mayEnd ho
  refine ⟨fun _ h0 => ?_, fun hn hle hsrc hdst hok => ⟨fun hr => ?_, fun hr hp => ?_⟩⟩
  · simp only [t, moveCcw_overrun he h0]
    exact State.endOp_ends hmay rfl _ _ _
  · simp only [t, moveCcw_refused he hn hle hsrc hr]
    exact ⟨memKept_of_store (by simp), (s.memoryWork_refusedAccess key _ _).checkNow hmay rfl⟩
  · obtain ⟨u, ht, hus, ⟨m, hux⟩, hst⟩ := moveCcw_copies he hok hn hle hsrc hdst hr hp
    obtain ⟨hgone, hpass⟩ := hex.passes ho u hus (by rw [hux]; rfl) 0
    have hres := hgone.results
    rw [hux] at hres
    simp only [Slot.results, Prod.mk.injEq] at hres
    simp only [t, ht]
    exact ⟨hst.of_store (State.ccwEnded_store ..), hpass, hres.2.2.2.1⟩

/-- A HALT that waits for a MOVE lets it copy its bytes, and then ends the operation (R93). -/
theorem State.executing.moveHalted (he : s.executes key (· == 0x11) = true) (hok : s.memOk) :
    let x := s.slot key
    let src := leQuad x.w.block
    let dst := leQuad (x.w.block.drop 8)
    let n := ccwCount x.ccw
    let t := moveCcw s key
    x.st = .running → x.w.ending = none → x.w.fnReset = false → x.w.haltRuns = true →
      n ≠ 0 → n ≤ x.claimLeft → isLocal src = true → isLocal dst = true → s.engMay key x (localOf src) n = true →
      s.poisoned (localOf src) n = false →
      stored s t (localOf dst) (moveBytes src dst (s.bytesAt (localOf src) n)) ∧ opEnds s t key chkException x.cur 0 := by
  intro x src dst n t hst hen hfn hh hn hle hsrc hdst hr hp
  obtain ⟨u, ht, hus, ⟨m, hux⟩, hstored⟩ := moveCcw_copies he hok hn hle hsrc hdst hr hp
  have hmay := State.mayEnd_of_running (State.executing_of_executes he).runs hst hen hfn
  have hends := State.ccwEnded_halted (hmay.of_fate hus (by rw [hux]; rfl)) (by rw [hux]; exact hh) 0
  rw [hux] at hends
  simp only [t, ht]
  exact ⟨hstored.of_store (State.ccwEnded_store ..), hends.of_cstat (by rw [hux])⟩

/-- How the bytes read by a COMPARE compare with its own under its mask. -/
def Slot.compared (x : Slot) (d : List Byte) : Cmp :=
  let n := ccwCount x.ccw
  let mask := leNat ((x.w.block.drop 8).take n)
  let v := leNat d &&& mask
  let w := leNat ((x.w.block.drop 16).take n) &&& mask
  if v < w then .lt else if v = w then .eq else .gt

/-- The clauses of COMPARE (R61). -/
theorem State.executing.compare (he : s.executes key (· == 0x12) = true) (ho : (s.slot key).openEnd) :
    let x := s.slot key
    let a := leQuad x.w.block
    let n := ccwCount x.ccw
    let t := compareCcw s key
    isLocal a = true →
      (s.engMay key x (localOf a) n = false → memKept s t ∧ opEnds s t key chkProtection x.cur x.residue) ∧
      (s.engMay key x (localOf a) n = true → s.poisoned (localOf a) n = true → memKept s t ∧ opEnds s t key chkData x.cur x.residue) ∧
      (s.engMay key x (localOf a) n = true → s.poisoned (localOf a) n = false → memKept s t ∧ ccwPasses s t key 0 ∧
        let mask := leNat ((x.w.block.drop 8).take n)
        let v := leNat (s.bytesAt (localOf a) n) &&& mask
        let w := leNat ((x.w.block.drop 16).take n) &&& mask
        (t.slot key).cmp = if v < w then .lt else if v = w then .eq else .gt) := by
  intro x a n t hl
  have hex := State.executing_of_executes he
  obtain ⟨hbad, hgood⟩ := compareCcw_reads he hl
  refine ⟨fun hr => ?_, fun hr hp => ?_, fun hr hp => ?_⟩
  · simp only [t, hbad hr]
    exact ⟨memKept_of_store (by simp), (s.memoryWork_refusedAccess key _ _).checkNow (hex.mayEnd ho) rfl⟩
  all_goals obtain ⟨u, hu, hus, hpoison, hclean⟩ := hgood hr
  · simp only [t, hpoison hp]
    exact ⟨memKept_of_store (by simp [hus]), hu.checkNow (hex.mayEnd ho) rfl⟩
  · obtain ⟨m, hm⟩ := hu.slot
    let c := x.compared (s.bytesAt (localOf a) n)
    have ht : t = (u.setSlot key { u.slot key with cmp := c }).ccwEnded key 0 := hclean hp
    obtain ⟨hgone, hpass⟩ := hex.passes ho (u.setSlot key { u.slot key with cmp := c }) hu.stopped (by rw [State.slot_setSlot, hm]; rfl) 0
    rw [← ht] at hgone hpass
    have hres := hgone.results
    rw [State.slot_setSlot] at hres
    simp only [Slot.results, Prod.mk.injEq] at hres
    exact ⟨memKept_of_store (by rw [ht]; simp [hus]), hpass, hres.2.2.1⟩

/-- A POST stores its record and ends (R63). -/
theorem State.executing.post (he : s.executes key (· == 0x18) = true) (ho : (s.slot key).openEnd)
    (hl : isLocal (ccwAddr (s.slot key).ccw) = true) (hok : s.memOk) :
    let x := s.slot key
    stored s (postCcw s key) (localOf (ccwAddr x.ccw)) (s.postRecord (ccwSrc x.ccw)) ∧ ccwPasses s (postCcw s key) key 0 := by
  intro x
  have hlen : (s.postRecord (ccwSrc x.ccw)).length = 16 := by simp [State.postRecord, leBytes_length]
  have hne : s.postRecord (ccwSrc x.ccw) ≠ [] := fun h => by simp [h] at hlen
  obtain ⟨u, hstore, hu, hst⟩ := State.storeBytes_local hok key hl hne false
  obtain ⟨m, hm⟩ := hu.slot
  have ht : postCcw s key = u.ccwEnded key 0 := by
    unfold postCcw
    rw [if_pos he]
    dsimp only
    rw [hstore]
  rw [ht]
  exact ⟨hst.of_store (State.ccwEnded_store ..), ((State.executing_of_executes he).passes ho u hu.stopped (by rw [hm]; rfl) 0).2⟩

/-- The clauses of SHAPE (R62, R271). -/
theorem State.executing.shape (he : s.executes key (· == 0x10) = true) (ho : (s.slot key).openEnd) :
    let x := s.slot key
    let t := shapeCcw s key
    let fails := opEnds s t key (chkProg 0x0E) x.cur x.residue
    (x.w.shapeEnd = some .returned → ccwPasses s t key 0) ∧
    (x.w.shapeEnd = some .poison → opEnds s t key chkData x.cur x.residue) ∧
    (x.w.shapeEnd = some .fault ∨ x.w.shapeEnd = some .noCore → fails) ∧
    (x.w.shapeEnd = none → x.w.shapeAt.isSome → t = s) ∧
    (x.w.shapeEnd = none → x.w.shapeAt = none → s.shapeCores (descCores x.w.block) = [] → fails) ∧
    (x.w.shapeEnd = none → x.w.shapeAt = none → s.shapeCores (descCores x.w.block) ≠ [] →
      t.shapeQ = s.shapeQ ++ [{ key := key, owner := x.owner, desc := x.w.block, at_ := s.time }] ∧ (t.slot key).w.shapeAt = some s.time ∧
      (t.slot key).st = .running) := by
  have hex := State.executing_of_executes he
  have hmay := hex.mayEnd ho
  refine ⟨fun hx => ?_, fun hx => ?_, fun hx => ?_, fun hx ha => shapeCcw_waits he hx ha, fun hx ha hc => ?_, fun hx ha hc => ?_⟩
  · rw [shapeCcw_returned he hx]
    exact (hex.passes ho s rfl rfl 0).2
  · rw [shapeCcw_poison he hx]
    exact State.checkNow_ends hmay rfl
  · rw [shapeCcw_failed he hx]
    exact State.checkNow_ends hmay rfl
  · rw [shapeCcw_noCore he hx ha hc]
    have hslot := State.slot_setSlot s key { s.slot key with w := { (s.slot key).w with shapeAt := some s.time, shapeEnd := some .noCore } }
    have hends := State.checkNow_ends (hmay.of_fate (t := s.setSlot key _) rfl (by rw [hslot]; rfl)) (c := chkProg 0x0E) rfl
    rw [hslot] at hends
    exact hends.of_cstat (by rw [hslot])
  · rw [shapeCcw_asks he hx ha hc]
    have hslot := State.slot_setSlot s key { s.slot key with w := { (s.slot key).w with shapeAt := some s.time, shapeLate := false } }
    exact ⟨rfl, congrArg (·.w.shapeAt) hslot, (congrArg (·.st) hslot).trans (hex.running ho)⟩
end

/-- Settles O50: each memory or dispatch CCW that executes does what its row says, and one that does not changes nothing. -/
theorem memoryAndDispatchCcws : Obligations.MemoryAndDispatchCcws := by
  unfold Obligations.MemoryAndDispatchCcws
  intro s e k key x src dst n
  refine ⟨next_if_neg, next_if_neg, next_if_neg, next_if_neg, fun he => congrArg Host.Outcome.next (by simp [senseCcw, key, he]),
    ?strike, ?halted, ?_⟩
  case strike =>
    intro u x g
    refine ⟨next_if_neg, fun he ho => ⟨fun hm => ?_, fun hm => ?_⟩⟩
    · exact ⟨_, (next_if_pos he).trans (next_if_neg hm), State.checkNow_ends ((State.executing_of_executes he).mayEnd ho) rfl⟩
    · exact ⟨_, (next_if_pos he).trans (next_if_pos hm), (State.executing_of_executes he).strike ho g⟩
  case halted =>
    exact fun he hst hen hfn hh hn hle hsrc hdst hok hr hp => ⟨_, rfl, State.executing.moveHalted he hok hst hen hfn hh hn hle hsrc hdst hr hp⟩
  intro ho
  refine ⟨fun he => ?move, fun he hl => ?compare, fun he hl hok => ⟨_, rfl, State.executing.post he ho hl hok⟩, fun he => ?shape,
    fun he hl hp hsu hx hv hg hsp hlo hr h1 h32 hc hok => ⟨_, rfl, State.executing.sense he ho hok hl hp hsu hx hv hg hsp hlo hr h1 h32 hc⟩⟩
  case move =>
    obtain ⟨hover, hruns⟩ := State.executing.move he ho
    refine ⟨fun hn h0 => ⟨_, rfl, hover hn h0⟩, fun hn hle hsrc hdst hok => ?_⟩
    obtain ⟨hbad, hgood⟩ := hruns hn hle hsrc hdst hok
    exact ⟨fun hr => ⟨_, rfl, hbad hr⟩, fun hr hp => ⟨_, rfl, hgood hr hp⟩⟩
  case compare =>
    obtain ⟨hbad, hpoison, hgood⟩ := State.executing.compare he ho hl
    exact ⟨fun hr => ⟨_, rfl, hbad hr⟩, fun hr hp => ⟨_, rfl, hpoison hr hp⟩, fun hr hp => ⟨_, rfl, hgood hr hp⟩⟩
  case shape =>
    obtain ⟨hret, hpoison, hfail, hwait, hnone, hasks⟩ := State.executing.shape he ho
    exact ⟨fun hx => ⟨_, rfl, hret hx⟩, fun hx => ⟨_, rfl, hpoison hx⟩, fun hx => ⟨_, rfl, hfail hx⟩,
      fun hx ha => congrArg Host.Outcome.next (hwait hx ha), fun hx ha hc => ⟨_, rfl, hnone hx ha hc⟩,
      fun hx ha hc => ⟨_, rfl, hasks hx ha hc⟩⟩

end Sys2Proof.Machine

namespace Sys2Proof.Machine

/-! # Data commands and their stations (R37, R98, R285, R294, R298, R302) -/

/-! ## Records that hardware keeps in memory (R101, R330, R331) -/

section
variable {s : State} {a : Nat}

theorem State.hwCheck_clean (h : SMap.get .ok s.ecc a = .ok) (master owner : Nat) : s.hwCheck a master owner = s := by
  simp [State.hwCheck, State.eccEvent, h]

theorem State.hwBad_clean (h : SMap.get .ok s.ecc a = .ok) : s.hwBad a = false := by
  simp [State.hwBad, EccMark.bad, h]

theorem onlyMem_hwCheck (s : State) (a master owner : Nat) : onlyMem s (s.hwCheck a master owner) := onlyMem_eccEvent _ _ _ _ _

theorem onlyMem_hwWrite (s : State) (a : Nat) : onlyMem s (s.hwWrite a) :=
  (onlyMem_setEcc s a _).trans ((onlyMem_injMark _ _ _).trans (onlyMem_setEcc _ _ _))
end

theorem onlyMem.slots {s t : State} (h : onlyMem s t) : t.slots = s.slots := by rw [h.1]

theorem onlyMem.slot {s t : State} (h : onlyMem s t) (key : Nat) : t.slot key = s.slot key := by rw [State.slot, h.slots]; rfl

theorem onlyMem.stopped {s t : State} (h : onlyMem s t) : t.stopped = s.stopped := by rw [h.1]

theorem onlyMem.stations {s t : State} (h : onlyMem s t) : t.stations = s.stations := by rw [h.1]

theorem State.mayEnd.of_onlyMem {s t : State} {key : Nat} (h : s.mayEnd key) (k : onlyMem s t) : t.mayEnd key :=
  h.of_fate k.stopped (by rw [k.slot])

section
variable {s : State} {key : Nat}

theorem State.readDescriptor_clean (h : SMap.get .ok s.ecc (descAddr (s.slot key).station) = .ok) : s.readDescriptor key = s := by
  simp [State.readDescriptor, State.hwBad_clean h, State.hwCheck_clean h]

theorem bit_cleared (v : Word) : bit (v &&& 0x7FFFFFFF#32) 31 = false := by
  simp [bit]

/-- A descriptor that cannot be read ends the operation, and its VALID is cleared (R330). -/
theorem State.readDescriptor_bad (h : s.mayEnd key) (hb : s.hwBad (descAddr (s.slot key).station) = true) :
    opEnds s (s.readDescriptor key) key chkInterface (s.slot key).cur (s.slot key).haltResidue ∧
      (s.readDescriptor key).staVALID (s.slot key).station = false := by
  generalize hu : (s.hwCheck (descAddr (s.slot key).station) 0 31) = u
  have hsu : onlyMem s u := hu ▸ onlyMem_hwCheck s _ _ _
  generalize hv : u.setStation (s.slot key).station
    { u.station (s.slot key).station with w0 := (u.station (s.slot key).station).w0 &&& 0x7FFFFFFF#32 } = v
  have hvs : v.station (s.slot key).station = _ := hv ▸ State.station_setStation u (s.slot key).station _
  have hvw := onlyMem_hwWrite v (descAddr (s.slot key).station)
  generalize hw : v.hwWrite (descAddr (s.slot key).station) = w at hvw
  have hslot : w.slot key = s.slot key := by rw [hvw.slot, ← hv, ← hsu.slot]; rfl
  have hmay : w.mayEnd key := h.of_fate (by rw [hvw.stopped, ← hv]; exact hsu.stopped) (by rw [hslot])
  have ht : s.readDescriptor key = w.endOp key chkInterface (s.slot key).cur (s.slot key).haltResidue true := by
    simp [State.readDescriptor, hb, hu, hv, hw]
  rw [ht]
  refine ⟨(State.endOp_ends hmay rfl _ _ _).of_cstat (by rw [hslot]), ?_⟩
  rw [State.staVALID, (State.endOp_outside hmay _ _ _ _).2, State.station, hvw.stations]
  change bit (v.station (s.slot key).station).w0 31 = false
  rw [hvs]
  exact bit_cleared _
end

/-! ## A transfer is loaded (R98, R294, R302) -/

theorem chkUnit_ne_chkNone (r : Nat) : (chkUnit r == chkNone) = false := by
  have h : BitVec.ofNat 32 (r * 65536 + 2) ≠ 0#32 := fun h => by
    have := congrArg BitVec.toNat h
    simp at this
    omega
  simp [chkUnit, chkNone, h]

/-- From s to t nothing changes but lanes and outputs. -/
def onlyBus (s t : State) : Prop := t = { s with lanes := t.lanes, out := t.out }

theorem onlyBus.refl (s : State) : onlyBus s s := rfl

theorem onlyBus.trans {s t u : State} (h : onlyBus s t) (k : onlyBus t u) : onlyBus s u := by
  unfold onlyBus at h k ⊢
  rw [k, h]

theorem onlyBus_ite {s t u : State} {p : Prop} [Decidable p] (h : onlyBus s t) (k : onlyBus s u) : onlyBus s (if p then t else u) := by
  split
  · exact h
  · exact k

theorem onlyBus_setLane (s : State) (l : Nat) (x : Lane) : onlyBus s (s.setLane l x) := rfl

theorem onlyBus_emit (s : State) (o : Out) : onlyBus s (s.emit o) := by
  unfold onlyBus
  rw [State.emit_form]

theorem State.lanes_emit (s : State) (o : Out) : (s.emit o).lanes = s.lanes := by rw [State.emit_form]

theorem onlyBus_sendHead (s : State) (l : Nat) : onlyBus s (s.sendHead l) ∧ (s.sendHead l).lanes = s.lanes := by
  unfold State.sendHead
  split
  · exact ⟨rfl, rfl⟩
  · dsimp only
    split
    · exact ⟨onlyBus_emit _ _, State.lanes_emit _ _⟩
    · split
      · exact ⟨onlyBus_emit _ _, State.lanes_emit _ _⟩
      · exact ⟨rfl, rfl⟩

/-- The transfer that the lane engine takes for the current CCW of a slot. -/
def State.newXfer (s : State) (key : Nat) (out inn started : Bool) : Xfer :=
  let x := s.slot key
  let lo := s.laneopOf x.station x.ccw
  { station := x.station, key := key, out := out, inn := inn, laneop := lo, started := started
    lead := leadBytes (s.laneFunc (s.staLane x.station)) lo
    want := if inn then ccwCount x.ccw else 0, owe := if out then ccwCount x.ccw else 0, count := 0, stopping := false }

/-- The slot whose transfer has been loaded. -/
def Slot.withXfer (x : Slot) : Slot := { x with ustat := x.ustat &&& 0xFFFFFFFA#32, w := { x.w with loaded := true } }

/-- The slot whose response timer starts at a time. -/
def Slot.timed (x : Slot) (at_ : Nat) : Slot := { x with w := { x.w with timerFrom := some at_, timerUsed := 0 } }

/-- From s to t the transfer of the current CCW of a slot has been loaded into its lane engine, and its response timer has begun. -/
structure State.loads (s t : State) (key : Nat) (out inn : Bool) : Prop where
  only : t = { s with slots := t.slots, lanes := t.lanes, out := t.out }
  slot : (t.slot key).untimed = (s.slot key).withXfer.untimed
  xfer : ∃ b, (t.lane (s.staLane (s.slot key).station)).xfer = some (s.newXfer key out inn b)

/-- The bus of a lane before a new transfer: one that was kept ends, a UART's break is sent (R298, R299). -/
def State.busFreed (s : State) (l lo : Nat) : State :=
  let t := if (s.lane l).busKept then (s.setLane l { s.lane l with busKept := false }).emit (.busEnd l 1) else s
  if s.laneFunc l = 9 ∧ lo.testBit 6 then t.emit (.busEnd l 2) else t

theorem onlyBus_busFreed (s : State) (l lo : Nat) : onlyBus s (s.busFreed l lo) := by
  unfold State.busFreed
  extract_lets y t
  have ht : onlyBus s t := onlyBus_ite ((onlyBus_setLane s _ _).trans (onlyBus_emit _ _)) (onlyBus.refl s)
  exact onlyBus_ite (ht.trans (onlyBus_emit _ _)) ht

/-- The current CCW's transfer given to its lane engine. -/
def State.xferTaken (s : State) (key : Nat) (out inn : Bool) : State :=
  let l := s.staLane (s.slot key).station
  let lo := s.laneopOf (s.slot key).station (s.slot key).ccw
  let fn := s.laneFunc l
  let t := s.busFreed l lo
  let gated := gateFn fn && bit (t.laneCfg l) 23
  let u := t.setLane l { t.lane l with
    xfer := some (s.newXfer key out inn !gated), gateOpen := false, closing := false
    streamOn := (t.lane l).streamOn || (fn == 10 && lo.testBit 0), frame := if (t.lane l).streamOn then (t.lane l).frame else 0 }
  let v := if gated then u else u.sendHead l
  (v.setSlot key ((v.slot key).withXfer.timed v.time)).timerUpdate key

theorem State.timerUpdate_form (s : State) (key : Nat) : s.timerUpdate key = { s with slots := (s.timerUpdate key).slots } := by
  unfold State.timerUpdate
  dsimp only
  split
  · rfl
  · split <;> rfl

/-- The bytes that the current CCW of a slot moves each way. -/
def State.ways (s : State) (key : Nat) : Bool × Bool :=
  let x := s.slot key
  let cls := s.classOf x.station (ccwOp x.ccw)
  let data := cls.data && ccwCount x.ccw != 0
  (data && (cls == .out || cls == .exch || cls == .control), data && (cls == .inn || cls == .exch))

section
variable {s : State} {key : Nat}

/-- What a reason that bars a transfer does (R292, R294). -/
theorem State.barred_ends (h : s.mayEnd key) (st r residual : Nat) (a : Quad) (clear : Bool) :
    opEnds s ((if r = 8 then s.senseFlag st 6 else s).endOp key (chkUnit r) a residual clear) key (chkUnit r) a residual := by
  split
  · exact (State.endOp_ends (s := s.senseFlag st 6) (h.of_fate rfl rfl) (chkUnit_ne_chkNone r) _ _ _).of_cstat rfl
  · exact State.endOp_ends h (chkUnit_ne_chkNone r) _ _ _

/-- A transfer that its lanes bar ends the operation with UNIT_CHECK (R294). -/
theorem State.loadXfer_barred {r : Nat} (h : s.mayEnd key)
    (hb : s.transferBar (s.slot key).station (s.ways key).1 (s.ways key).2 = some r) :
    opEnds s (s.loadXfer key) key (chkUnit r) (s.slot key).cur (s.slot key).residue := by
  unfold State.ways at hb
  unfold State.loadXfer
  dsimp only at hb ⊢
  rw [hb]
  exact State.barred_ends h _ _ _ _ _

theorem State.loadXfer_unreadable (hb : s.transferBar (s.slot key).station (s.ways key).1 (s.ways key).2 = none)
    (hd : s.hwBad (descAddr (s.slot key).station) = true) : s.loadXfer key = s.readDescriptor key := by
  unfold State.ways at hb
  unfold State.loadXfer
  dsimp only at hb ⊢
  rw [hb]
  exact if_pos hd

theorem State.loadXfer_taken (hb : s.transferBar (s.slot key).station (s.ways key).1 (s.ways key).2 = none)
    (hd : SMap.get .ok s.ecc (descAddr (s.slot key).station) = .ok) : s.loadXfer key = s.xferTaken key (s.ways key).1 (s.ways key).2 := by
  have hd' := State.hwBad_clean hd
  unfold State.ways at hb
  unfold State.loadXfer
  dsimp only at hb ⊢
  rw [hb]
  dsimp only
  rw [if_neg (by simp [hd']), State.readDescriptor_clean hd]
  rfl

/-- A transfer that nothing bars is loaded (R98). -/
theorem State.loadXfer_loads (hb : s.transferBar (s.slot key).station (s.ways key).1 (s.ways key).2 = none)
    (hd : SMap.get .ok s.ecc (descAddr (s.slot key).station) = .ok) : s.loads (s.loadXfer key) key (s.ways key).1 (s.ways key).2 := by
  rw [State.loadXfer_taken hb hd]
  generalize (s.ways key).1 = out
  generalize (s.ways key).2 = inn
  unfold State.xferTaken
  extract_lets l lo fn t gated y u v
  have htu : onlyBus s u := (onlyBus_busFreed s l lo).trans (onlyBus_setLane _ _ _)
  have huv : onlyBus u v := onlyBus_ite (onlyBus.refl u) (onlyBus_sendHead u l).1
  have hv : onlyBus s v := htu.trans huv
  have hl : v.lanes = u.lanes := by
    simp only [v, apply_ite State.lanes, (onlyBus_sendHead u l).2, ite_self]
  have hx : v.slot key = s.slot key := by rw [hv]; rfl
  generalize hw : v.setSlot key ((v.slot key).withXfer.timed v.time) = w
  have hwx : w.slot key = (v.slot key).withXfer.timed v.time := hw ▸ State.slot_setSlot v key _
  refine ⟨?_, ?_, ?_⟩
  · rw [State.timerUpdate_form, ← hw, hv]
    rfl
  · rw [(onlyPort_timerUpdate w key).2.2, hwx, hx]
    rfl
  · refine ⟨!gated, ?_⟩
    have hlane : (w.timerUpdate key).lane l = u.lane l := by
      rw [State.timerUpdate_form, ← hw]
      exact congrArg (SMap.get {} · l) hl
    rw [hlane]
    exact congrArg Lane.xfer (State.lane_setLane t l _)
end

end Sys2Proof.Machine

namespace Sys2Proof.Machine

/-! ## What a data CCW that has been loaded moves (R37, R40, R306) -/

/-- From s to t nothing of lanes, stations, engines and slots changes, and no FIFO but q. -/
structure State.fifoWork (s t : State) (q : Nat) : Prop where
  stopped : t.stopped = s.stopped
  stations : t.stations = s.stations
  lanes : t.lanes = s.lanes
  slots : t.slots = s.slots
  fifo : ∀ p, p ≠ q → t.fifo p = s.fifo p

theorem State.fifoWork.refl (s : State) (q : Nat) : s.fifoWork s q := ⟨rfl, rfl, rfl, rfl, fun _ _ => rfl⟩

theorem State.fifoWork.trans {s t u : State} {q : Nat} (h : s.fifoWork t q) (k : t.fifoWork u q) : s.fifoWork u q :=
  ⟨k.stopped.trans h.stopped, k.stations.trans h.stations, k.lanes.trans h.lanes, k.slots.trans h.slots,
    fun p hp => (k.fifo p hp).trans (h.fifo p hp)⟩

theorem State.fifoWork.slot {s t : State} {q : Nat} (h : s.fifoWork t q) (key : Nat) : t.slot key = s.slot key := by
  rw [State.slot, State.slot, h.slots]

theorem State.fifoWork_of_onlyMem {s t : State} (h : onlyMem s t) (q : Nat) : s.fifoWork t q := by
  obtain ⟨_, _, _, _, _, _, _, _, _, rfl⟩ := h.form
  exact ⟨rfl, rfl, rfl, rfl, fun _ _ => rfl⟩

theorem State.fifoWork_setFifo (s : State) (q : Nat) (x : Fifo) : s.fifoWork (s.setFifo q x) q :=
  ⟨rfl, rfl, rfl, rfl, fun _ hp => State.fifo_setFifo_other s x hp⟩

theorem State.fifoWork_levelCross (s : State) (q was now : Nat) : s.fifoWork (s.levelCross q was now) q := by
  unfold State.levelCross
  dsimp only
  split
  · exact ⟨rfl, rfl, rfl, rfl, fun _ _ => rfl⟩
  · exact State.fifoWork.refl s q

theorem State.fifoWork_pushWord (s : State) (q : Nat) (w : FWord) : s.fifoWork (s.pushWord q w) q := by
  unfold State.pushWord
  dsimp only
  split
  · exact ((State.fifoWork_of_onlyMem (onlyMem_injMark s _ _) q).trans (State.fifoWork_setFifo _ q _)).trans (State.fifoWork_levelCross _ q _ _)
  · exact (State.fifoWork_setFifo s q _).trans (State.fifoWork_levelCross _ q _ _)

theorem State.fifoWork_pushBytesAux (s : State) (q : Nat) (poison : Bool) (k : Nat) (bs : List Byte) :
    s.fifoWork (s.pushBytesAux q poison k bs) q := by
  induction k generalizing s bs with
  | zero => exact State.fifoWork.refl s q
  | succ k ih =>
    unfold State.pushBytesAux
    dsimp only
    split
    · exact State.fifoWork.refl s q
    · split
      · exact ((State.fifoWork_setFifo s q _).trans (State.fifoWork_pushWord _ q _)).trans (ih _ _)
      · exact State.fifoWork_setFifo s q _

theorem State.fifoWork_closePacket (s : State) (q : Nat) : s.fifoWork (s.closePacket q) q := by
  unfold State.closePacket
  dsimp only
  split
  · exact (State.fifoWork_setFifo s q _).trans (State.fifoWork_pushWord _ q _)
  · split
    · exact State.fifoWork_setFifo s q _
    · exact State.fifoWork_setFifo s q _

/-- Bytes of an operation that has moved n bytes to FIFO q: only that FIFO, and what the operation counts, has changed. -/
structure State.hasPassed (s t : State) (key q n : Nat) : Prop where
  stopped : t.stopped = s.stopped
  stations : t.stations = s.stations
  lanes : t.lanes = s.lanes
  slot : ∃ d, t.slot key = { s.slot key with w := { (s.slot key).w with moved := n, sdig := d } }
  fifo : ∀ p, p ≠ q → t.fifo p = s.fifo p

theorem State.passDigest_slot (s : State) (key : Nat) (d : List Byte) :
    onlySlot s (s.passDigest key d) key ∧
      ∃ e, (s.passDigest key d).slot key = { s.slot key with w := { (s.slot key).w with sdig := e } } := by
  unfold State.passDigest
  dsimp only
  split
  · exact ⟨onlySlot_setSlot s key _, _, State.slot_setSlot s key _⟩
  · exact ⟨onlySlot.refl s key, (s.slot key).w.sdig, rfl⟩

/-- The last run of a data CCW is passed to FIFO q: its bytes, their digest, the count, and the end of the packet. -/
def State.passLast (s : State) (key q n : Nat) (d : List Byte) : State :=
  let t := (s.pushBytes q d false).passDigest key d
  (t.setSlot key { t.slot key with w := { (t.slot key).w with moved := n } }).closePacket q

/-- The count of an operation's bytes does not change as bytes enter a FIFO and the digest. -/
theorem State.pushed_slot (s : State) (key q : Nat) (d : List Byte) :
    ∃ e, ((s.pushBytes q d false).passDigest key d).slot key = { s.slot key with w := { (s.slot key).w with sdig := e } } := by
  obtain ⟨-, e, he⟩ := (s.pushBytes q d false).passDigest_slot key d
  have hs : (s.pushBytes q d false).slot key = s.slot key := (State.fifoWork_pushBytesAux ..).slot key
  exact ⟨e, by rw [he, hs]⟩

theorem State.passLast_hasPassed (s : State) (key q n : Nat) (d : List Byte) : s.hasPassed (s.passLast key q n d) key q n := by
  have h1 : s.fifoWork (s.pushBytes q d false) q := State.fifoWork_pushBytesAux ..
  unfold State.passLast
  generalize s.pushBytes q d false = t at h1
  obtain ⟨honly, e, he⟩ := t.passDigest_slot key d
  generalize t.passDigest key d = u at honly he
  dsimp only
  have hv := State.slot_setSlot u key { u.slot key with w := { (u.slot key).w with moved := n } }
  generalize hw : u.setSlot key { u.slot key with w := { (u.slot key).w with moved := n } } = v at hv
  have h2 := v.fifoWork_closePacket q
  refine ⟨h2.stopped.trans ?_, h2.stations.trans ?_, h2.lanes.trans ?_, ⟨e, ?_⟩, fun p hp => (h2.fifo p hp).trans ?_⟩
  · rw [← hw]
    exact (congrArg State.stopped honly.1).trans h1.stopped
  · rw [← hw]
    exact (congrArg State.stations honly.1).trans h1.stations
  · rw [← hw]
    exact (congrArg State.lanes honly.1).trans h1.lanes
  · rw [h2.slot, hv, he, h1.slot]
  · rw [← hw, ← h1.fifo p hp]
    exact (congrArg (fun v : State => v.fifo p) honly.1 :)

section
variable {s : State} {key : Nat}

/-- A data CCW that has passed all its bytes passes no more. -/
theorem State.dataOut_done (h : ccwCount (s.slot key).ccw ≤ (s.slot key).w.moved) (k : Nat) : s.dataOut key k = s := by
  cases k with
  | zero => rfl
  | succ k => simp [State.dataOut, h]

/-- Bytes of one run of local memory, for which the FIFO has room, are passed at once. -/
theorem State.dataOut_local {n : Nat} (hst : (s.slot key).st = .running) (hm : (s.slot key).w.moved = 0) (hn : ccwCount (s.slot key).ccw = n)
    (h0 : n ≠ 0) (hroom : n ≤ s.fifoRoom (2 * s.staLane (s.slot key).station + 1))
    (hmem : s.noMemory (s.slot key).station (s.slot key).ccw = false)
    (hg : ccwPgl (s.slot key).ccw = false) (hl : isLocal (ccwAddr (s.slot key).ccw) = true)
    (hmay : s.engMay key (s.slot key) (localOf (ccwAddr (s.slot key).ccw)) n = true)
    (hp : s.poisoned (localOf (ccwAddr (s.slot key).ccw)) n = false) (hi : (s.slot key).w.inbox = []) (hr : (s.slot key).w.reads = []) (k : Nat) :
    s.hasPassed (s.dataOut key (k + 1)) key (2 * s.staLane (s.slot key).station + 1) n := by
  obtain ⟨u, hfetch, hu, -⟩ := State.fetchBytes_local hl hmay
  have hpass := u.passLast_hasPassed key (2 * s.staLane (s.slot key).station + 1) n (s.bytesAt (localOf (ccwAddr (s.slot key).ccw)) n)
  generalize hd : s.bytesAt (localOf (ccwAddr (s.slot key).ccw)) n = d at hfetch hpass
  obtain ⟨e, he⟩ := u.pushed_slot key (2 * s.staLane (s.slot key).station + 1) d
  have hmin : min (ccwCount (s.slot key).ccw - 0) (s.fifoRoom (2 * s.staLane (s.slot key).station + 1)) = n := by omega
  have hlen : (s.slot key).w.readLen (ccwAddr (s.slot key).ccw) (min n (ccwCount (s.slot key).ccw)) = n := by simp [Work.readLen, hi, hr, hn]
  have hstep : s.dataOut key (k + 1) = (u.passLast key (2 * s.staLane (s.slot key).station + 1) n d).dataOut key k := by
    have hu0 := congrArg (·.w.moved) he
    dsimp only at hu0
    rw [hu.slot, hm] at hu0
    rw [State.dataOut]
    dsimp only
    rw [if_neg (by simp [hst, hm, hn]; omega), hm, dataRun_plain hg]
    dsimp only
    rw [hmin, if_neg h0, hmem, if_neg (by decide), hlen, hfetch]
    dsimp only
    rw [hp, if_neg (by decide), hu0, zero_add, if_pos hn.symm]
    rfl
  obtain ⟨f, hf⟩ := hpass.slot
  rw [hstep, State.dataOut_done (by rw [hf, hu.slot]; exact hn.le)]
  refine ⟨hpass.stopped.trans hu.stopped, hpass.stations.trans hu.stations, hpass.lanes.trans ?_, ⟨f, by rw [hf, hu.slot]⟩,
    fun p hq => (hpass.fifo p hq).trans ?_⟩
  · rw [hu.1]
  · rw [hu.1]
    rfl

/-- There is nothing to take from an empty FIFO. -/
theorem State.dataIn_empty (he : s.inboundEmpty (s.slot key).station = true) (hd : s.memberDelivered key = false) (k : Nat) :
    s.dataIn key k = s := by
  simp only [State.inboundEmpty, Bool.and_eq_true, List.isEmpty_iff] at he
  obtain ⟨hw, hp⟩ := he
  cases k with
  | zero => rfl
  | succ k => simp [State.dataIn, hw, hp, hd]

/-- A transfer that has not ended goes on while bytes are left. -/
theorem State.dataProgress_more (hx : (s.slot key).w.xferEnd = none) (hr : (s.slot key).remain ≠ 0) : s.dataProgress key = s := by
  simp [State.dataProgress, hx, hr]
end

end Sys2Proof.Machine

namespace Sys2Proof.Machine

/-! ## The commands of data CCWs and of bare lane operations -/

section
variable {s t : State} {key : Nat} {out inn : Bool}

/-- What does not look at the response timer reads in a slot that has been loaded as in the slot with its transfer. -/
theorem State.loads.read (h : s.loads t key out inn) {α : Type} (f : Slot → α) (hf : ∀ z, f z.untimed = f z := by intro; rfl) :
    f (t.slot key) = f (s.slot key).withXfer := Slot.read_untimed h.slot f hf

/-- The class of the CCW is as before. -/
theorem State.loads.classOf (h : s.loads t key out inn) :
    t.classOf (t.slot key).station (ccwOp (t.slot key).ccw) = s.classOf (s.slot key).station (ccwOp (s.slot key).ccw) := by
  rw [h.read (·.station), h.read (·.ccw), h.only]
  rfl

theorem State.inboundEmpty_of_same {u v : State} {x : Nat} (hs : v.stations = u.stations)
    (hf : v.fifo (2 * u.staLane x) = u.fifo (2 * u.staLane x)) : v.inboundEmpty x = u.inboundEmpty x := by
  have hl : v.staLane x = u.staLane x := by rw [State.staLane, State.station, hs]; rfl
  rw [State.inboundEmpty, hl, hf]
  rfl

theorem State.loads.inboundEmpty (h : s.loads t key out inn) :
    t.inboundEmpty (t.slot key).station = s.inboundEmpty (s.slot key).station := by
  rw [h.read (·.station), h.only]
  rfl

/-- The lanes have not delivered the bytes of an inbound transfer that has just been loaded. -/
theorem State.loads.undelivered {v : State} (h : s.loads t key out true) (hn : ccwCount (s.slot key).ccw ≠ 0) (hl : v.lanes = t.lanes)
    (hs : v.stations = t.stations) (hx : (v.slot key).station = (t.slot key).station) : v.memberDelivered key = false := by
  obtain ⟨b, hb⟩ := h.xfer
  have hsl : v.staLane (v.slot key).station = s.staLane (s.slot key).station := by
    rw [hx, h.read (·.station), State.staLane, State.station, hs, h.only]
    rfl
  have hxfer : (v.lane (v.staLane (v.slot key).station)).xfer = some (s.newXfer key out true b) := by
    rw [hsl, ← hb, State.lane, hl]
    rfl
  simp [State.memberDelivered, State.xferOf, hxfer, State.newXfer, hn]

theorem State.ways_data (hd : (s.classOf (s.slot key).station (ccwOp (s.slot key).ccw)).data = true) (hn : ccwCount (s.slot key).ccw ≠ 0) :
    let cls := s.classOf (s.slot key).station (ccwOp (s.slot key).ccw)
    s.ways key = (decide (cls = .out ∨ cls = .exch ∨ cls = .control), decide (cls = .inn ∨ cls = .exch)) := by
  intro cls
  unfold State.ways
  dsimp only
  change cls.data = true at hd
  change (cls.data && _ && (cls == .out || cls == .exch || cls == .control), cls.data && _ && (cls == .inn || cls == .exch)) = _
  simp only [hd, bne_iff_ne.mpr hn, Bool.true_and]
  cases cls <;> rfl

theorem State.ways_bare (hb : s.bareCommand (s.slot key).station (s.slot key).ccw = true) : s.ways key = (false, false) := by
  have hd : ((s.classOf (s.slot key).station (ccwOp (s.slot key).ccw)).data && ccwCount (s.slot key).ccw != 0) = false := by
    simp only [State.bareCommand, Bool.or_eq_true, Bool.and_eq_true, beq_iff_eq] at hb
    rcases hb with ⟨-, h0⟩ | ⟨-, hcls⟩
    · simp [h0]
    · simp [hcls, CcwClass.data]
  simp [State.ways, hd]

/-- A command of a data CCW that is not loaded yet: its transfer is loaded, and what can be moved is moved. -/
theorem State.dataCommand_eq (hl : (s.slot key).w.loaded = false) (hx : (s.slot key).w.xferEnd = none) (hc : (s.slot key).w.chainPos = 0)
    (ht : s.loadXfer key = t) :
    s.dataCommand key =
      if (t.slot key).st != .running then t
      else
        let v := if (t.slot key).w.xferEnd.isSome then t else t.dataOut key 40
        let v := match t.classOf (t.slot key).station (ccwOp (t.slot key).ccw) with
          | .out => v
          | .control => v
          | .exch => v.dataIn key 4200
          | .inn => t.dataIn key 4200
          | _ => t
        (v.timerUpdate key).dataProgress key := by
  subst ht
  simp only [State.dataCommand, hl, hx, hc]
  rfl

/-- With bytes left, and no end of the transfer, the timer alone is brought up to date. -/
theorem State.timerUpdate_progress (hx : (s.slot key).w.xferEnd = none) (hr : (s.slot key).remain ≠ 0) :
    (s.timerUpdate key).dataProgress key = s.timerUpdate key := by
  have hp := (onlyPort_timerUpdate s key).2.2 key
  exact State.dataProgress_more ((Slot.read_untimed hp (·.w.xferEnd)).trans hx) (fun h => hr ((Slot.read_untimed hp (·.remain)).symm.trans h))

section
variable (hl : (s.slot key).w.loaded = false) (hx : (s.slot key).w.xferEnd = none) (hc : (s.slot key).w.chainPos = 0)
  (hst : (s.slot key).st = .running) (hr : (s.slot key).remain ≠ 0)
include hl hx hc

/-- An operation that ends as its transfer is loaded moves nothing. -/
theorem State.dataCommand_ends {c : Check} {last : Quad} {residual : Nat} (h : opEnds s (s.loadXfer key) key c last residual) :
    opEnds s (s.dataCommand key) key c last residual := by
  have hne : ((s.loadXfer key).slot key).st != .running := by
    rcases h.1 with h | h <;> rw [h] <;> decide
  rwa [State.dataCommand_eq hl hx hc rfl, if_pos hne]

include hst hr

/-- An inbound CCW whose FIFO is empty waits for its bytes. -/
theorem State.loads.waits (h : s.loads t key out true) (ht : s.loadXfer key = t) (hn : ccwCount (s.slot key).ccw ≠ 0)
    (hcls : s.classOf (s.slot key).station (ccwOp (s.slot key).ccw) = .inn) (he : s.inboundEmpty (s.slot key).station = true) :
    s.dataCommand key = t.timerUpdate key := by
  have hst' : (t.slot key).st = .running := (h.read (·.st)).trans hst
  rw [State.dataCommand_eq hl hx hc ht, if_neg (by simp [hst']), h.classOf, hcls]
  dsimp only
  rw [State.dataIn_empty (h.inboundEmpty.trans he) (h.undelivered hn rfl rfl rfl)]
  exact State.timerUpdate_progress ((h.read (·.w.xferEnd)).trans hx) (fun hr' => hr ((h.read (·.remain)).symm.trans hr'))

/-- An outbound CCW whose bytes have all gone to its FIFO waits for the lanes; so does an exchange with nothing inbound yet. -/
theorem State.loads.sends {n : Nat} (h : s.loads t key out inn) (ht : s.loadXfer key = t) (hn : ccwCount (s.slot key).ccw ≠ 0)
    (hcls : let cls := s.classOf (s.slot key).station (ccwOp (s.slot key).ccw)
      cls = .out ∨ cls = .exch ∧ inn = true ∧ s.inboundEmpty (s.slot key).station = true ∨ cls = .control)
    (hv : t.hasPassed (t.dataOut key 40) key (2 * s.staLane (s.slot key).station + 1) n) :
    s.dataCommand key = (t.dataOut key 40).timerUpdate key := by
  have hst' : (t.slot key).st = .running := (h.read (·.st)).trans hst
  have hx' : (t.slot key).w.xferEnd = none := (h.read (·.w.xferEnd)).trans hx
  obtain ⟨d, hd⟩ := hv.slot
  have hgo : ((t.dataOut key 40).timerUpdate key).dataProgress key = (t.dataOut key 40).timerUpdate key :=
    State.timerUpdate_progress (by rw [hd]; exact hx') (by rw [hd]; exact fun hr' => hr ((h.read (·.remain)).symm.trans hr'))
  rw [State.dataCommand_eq hl hx hc ht, if_neg (by simp [hst']), h.classOf, hx']
  rcases hcls with hcls | ⟨hcls, rfl, he⟩ | hcls
  all_goals
    rw [hcls]
    dsimp only [Option.isSome]
  · exact hgo
  · have hsta : ((t.dataOut key 40).slot key).station = (t.slot key).station := by rw [hd]
    have hempty : (t.dataOut key 40).inboundEmpty ((t.dataOut key 40).slot key).station = true := by
      rw [hsta, State.inboundEmpty_of_same hv.stations (hv.fifo _ (by omega))]
      exact h.inboundEmpty.trans he
    rw [if_neg (by decide), State.dataIn_empty hempty (h.undelivered hn hv.lanes hv.stations hsta)]
    exact hgo
  · exact hgo
end
end

/-! ## A lane operation without data (R37, R66) -/

section
variable {s t : State} {key : Nat}

theorem State.bareRun_loads (hn : s.noLaneOp (s.slot key).station (s.slot key).ccw = false) (hl : (s.slot key).w.loaded = false)
    (ht : s.loadXfer key = t) :
    s.bareRun key = if (t.slot key).st == .running && (t.slot key).w.xferEnd.isSome then t.ccwEnded key 0 else t := by
  subst ht
  simp [State.bareRun, hn, hl]

/-- An operation that ends as its transfer is loaded does no more. -/
theorem State.bareRun_ends (hn : s.noLaneOp (s.slot key).station (s.slot key).ccw = false) (hl : (s.slot key).w.loaded = false)
    {c : Check} {last : Quad} {residual : Nat} (h : opEnds s (s.loadXfer key) key c last residual) :
    opEnds s (s.bareRun key) key c last residual := by
  have hne : (((s.loadXfer key).slot key).st == .running) = false := by
    rcases h.1 with h | h <;> rw [h] <;> decide
  rwa [State.bareRun_loads hn hl rfl, hne, Bool.false_and, if_neg (by decide)]

theorem State.bareRun_barred (h : s.mayEnd key) (hn : s.noLaneOp (s.slot key).station (s.slot key).ccw = true) {r : Nat}
    (ht : s.transferBar (s.slot key).station false false = some r) :
    opEnds s (s.bareRun key) key (chkUnit r) (s.slot key).cur 0 := by
  unfold State.bareRun
  dsimp only
  rw [if_pos hn, ht]
  exact State.barred_ends h _ _ _ _ _

/-- A lane operation that moves nothing ends at once with STATION_END (R37). -/
theorem State.executing.bareRun {p : Nat → Bool} (h : s.executing key p) (ho : (s.slot key).openEnd)
    (hn : s.noLaneOp (s.slot key).station (s.slot key).ccw = true) (ht : s.transferBar (s.slot key).station false false = none) :
    ccwPasses s (s.bareRun key) key 0 ∧ bit ((s.bareRun key).slot key).ustat 0 = true := by
  unfold State.bareRun
  dsimp only
  rw [if_pos hn, ht]
  dsimp only
  generalize hu : (if s.laneFunc (s.staLane (s.slot key).station) = 10 then _ else s) = u
  have hus : u.stopped = s.stopped := by rw [← hu, apply_ite State.stopped]; exact ite_self _
  have hslot := State.slot_setSlot u key { s.slot key with ustat := (s.slot key).ustat ||| 1#32 }
  obtain ⟨hgone, hpass⟩ := h.passes ho (u.setSlot key _) hus (by rw [hslot]; rfl) 0
  obtain ⟨v, hv⟩ := hgone.ustat
  refine ⟨hpass, ?_⟩
  rw [hv, hslot]
  simp [bit]
end

end Sys2Proof.Machine

namespace Sys2Proof.Machine

/-! ## The statement -/

theorem State.timerUpdate_lane (s : State) (key l : Nat) : (s.timerUpdate key).lane l = s.lane l := by
  rw [State.timerUpdate_form]
  rfl

/-- What an engine may reach depends on the staging of the slot alone. -/
theorem State.engMay_of_stage {s : State} {key a n : Nat} {x y : Slot} (ha : x.w.stageA = y.w.stageA) (hb : x.w.stageB = y.w.stageB) :
    s.engMay key x a n = s.engMay key y a n := by
  simp only [State.engMay, ha, hb]

theorem inboundEmpty_of_parts {s : State} {st : Nat} (hw : (s.fifo (2 * s.staLane st)).words = [])
    (hp : (s.fifo (2 * s.staLane st)).part = []) : s.inboundEmpty st = true := by
  simp [State.inboundEmpty, hw, hp]

section
variable {s : State} {key : Nat} {p : Nat → Bool}

/-- The clauses of a bare lane operation that has a transfer (R66, R98, R294). -/
theorem State.executing.bareTransfer (h : s.executing key p) (ho : (s.slot key).openEnd)
    (hb : s.bareCommand (s.slot key).station (s.slot key).ccw = true) (hn : s.noLaneOp (s.slot key).station (s.slot key).ccw = false)
    (hl : (s.slot key).w.loaded = false) (hx : (s.slot key).w.xferEnd = none) :
    let x := s.slot key
    let t := s.bareRun key
    (∀ r, s.transferBar x.station false false = some r → opEnds s t key (chkUnit r) x.cur x.residue) ∧
    (s.transferBar x.station false false = none → SMap.get .ok s.ecc (descAddr x.station) = .ok →
      (t.slot key).st = .running ∧ (t.slot key).w.loaded = true ∧ bit (t.slot key).ustat 0 = false ∧
        ∃ y, (t.lane (s.staLane x.station)).xfer = some y ∧ y.key = key ∧ y.station = x.station ∧ y.inn = false ∧ y.out = false ∧
          y.count = 0) := by
  intro x t
  have hw := State.ways_bare hb
  refine ⟨fun r hr => ?_, fun hr hd => ?_⟩
  · exact State.bareRun_ends hn hl (State.loadXfer_barred (h.mayEnd ho) (by rwa [hw]))
  · have hload := State.loadXfer_loads (by rwa [hw]) hd
    rw [hw] at hload
    have ht : t = s.loadXfer key := by
      have hnone : ((s.loadXfer key).slot key).w.xferEnd = none := (hload.read (·.w.xferEnd)).trans hx
      exact (State.bareRun_loads hn hl rfl).trans (if_neg (by rw [hnone]; simp))
    obtain ⟨b, hy⟩ := hload.xfer
    rw [ht]
    refine ⟨(hload.read (·.st)).trans (h.running ho), hload.read (·.w.loaded), ?_, _, hy, rfl, rfl, rfl, rfl, rfl⟩
    rw [hload.read (·.ustat)]
    simp [Slot.withXfer, bit]

section
variable (h : s.executing key p) (ho : (s.slot key).openEnd) (hl : (s.slot key).w.loaded = false) (hx : (s.slot key).w.xferEnd = none)
  (hc : (s.slot key).w.chainPos = 0)
include h ho hl hx hc

/-- A data CCW whose lanes are barred, or whose station's descriptor is unreadable, ends (R294, R302, R330). -/
theorem State.executing.dataBarred :
    let x := s.slot key
    let t := s.dataCommand key
    (∀ r, s.transferBar x.station (s.ways key).1 (s.ways key).2 = some r → opEnds s t key (chkUnit r) x.cur x.residue) ∧
    (s.transferBar x.station (s.ways key).1 (s.ways key).2 = none → s.hwBad (descAddr x.station) = true →
      opEnds s t key chkInterface x.cur x.haltResidue) := by
  intro x t
  refine ⟨fun r hr => State.dataCommand_ends hl hx hc (State.loadXfer_barred (h.mayEnd ho) hr), fun hr hd => ?_⟩
  apply State.dataCommand_ends hl hx hc
  rw [State.loadXfer_unreadable hr hd]
  exact (State.readDescriptor_bad (h.mayEnd ho) hd).1

variable (hn : ccwCount (s.slot key).ccw ≠ 0) (hr : (s.slot key).remain = ccwCount (s.slot key).ccw)
  (hbar : s.transferBar (s.slot key).station (s.ways key).1 (s.ways key).2 = none)
  (hd : SMap.get .ok s.ecc (descAddr (s.slot key).station) = .ok)
include hn hr hbar hd

/-- An inbound CCW is loaded, and waits where nothing has arrived (R37). -/
theorem State.executing.dataIn (hcls : s.classOf (s.slot key).station (ccwOp (s.slot key).ccw) = .inn)
    (he : s.inboundEmpty (s.slot key).station = true) :
    let x := s.slot key
    let t := s.dataCommand key
    (t.slot key).st = .running ∧ (t.slot key).w.loaded = true ∧ bit (t.slot key).ustat 0 = false ∧
      ∃ y, (t.lane (s.staLane x.station)).xfer = some y ∧ y.key = key ∧ y.station = x.station ∧ y.inn = true ∧ y.out = false ∧
        y.want = ccwCount x.ccw ∧ y.count = 0 := by
  intro x t
  have hw : s.ways key = (false, true) := by
    rw [State.ways_data (by rw [hcls]; rfl) hn, hcls]
    rfl
  have hload := State.loadXfer_loads hbar hd
  rw [hw] at hload
  have ht : t = (s.loadXfer key).timerUpdate key := hload.waits hl hx hc (h.running ho) (by rwa [hr]) rfl hn hcls he
  have hslot := (onlyPort_timerUpdate (s.loadXfer key) key).2.2 key
  obtain ⟨b, hy⟩ := hload.xfer
  rw [ht, State.timerUpdate_lane]
  refine ⟨(Slot.read_untimed hslot (·.st)).trans ((hload.read (·.st)).trans (h.running ho)),
    (Slot.read_untimed hslot (·.w.loaded)).trans (hload.read (·.w.loaded)), ?_, _, hy, rfl, rfl, rfl, rfl, rfl, rfl⟩
  rw [Slot.read_untimed hslot (·.ustat), hload.read (·.ustat)]
  simp [Slot.withXfer, bit]

/-- An outbound CCW is loaded, and passes the bytes for which its FIFO has room (R37, R306). -/
theorem State.executing.dataOut
    (hcls : let cls := s.classOf (s.slot key).station (ccwOp (s.slot key).ccw)
      cls = .out ∨ cls = .exch ∧ s.inboundEmpty (s.slot key).station = true ∨ cls = .control)
    (hm : (s.slot key).w.moved = 0) (hg : ccwPgl (s.slot key).ccw = false) (hmem : s.noMemory (s.slot key).station (s.slot key).ccw = false)
    (hlo : isLocal (ccwAddr (s.slot key).ccw) = true)
    (hmay : s.engMay key (s.slot key) (localOf (ccwAddr (s.slot key).ccw)) (ccwCount (s.slot key).ccw) = true)
    (hp : s.poisoned (localOf (ccwAddr (s.slot key).ccw)) (ccwCount (s.slot key).ccw) = false)
    (hroom : ccwCount (s.slot key).ccw ≤ s.fifoRoom (2 * s.staLane (s.slot key).station + 1)) (hi : (s.slot key).w.inbox = [])
    (hre : (s.slot key).w.reads = []) :
    let x := s.slot key
    let n := ccwCount x.ccw
    let cls := s.classOf x.station (ccwOp x.ccw)
    let t := s.dataCommand key
    memKept s t ∧ (t.slot key).st = .running ∧ (t.slot key).w.loaded = true ∧ (t.slot key).w.moved = n ∧
      ∃ y, (t.lane (s.staLane x.station)).xfer = some y ∧ y.key = key ∧ y.out = true ∧ y.inn = decide (cls = .exch) ∧ y.owe = n ∧
        y.want = (if cls = .exch then n else 0) ∧ y.count = 0 := by
  intro x n cls t
  have hw : s.ways key = (true, decide (cls = .exch)) := by
    rcases hcls with hcls | ⟨hcls, -⟩ | hcls
    all_goals
      rw [State.ways_data (by rw [hcls]; rfl) hn, show cls = _ from hcls, hcls]
      rfl
  have hload := State.loadXfer_loads hbar hd
  rw [hw] at hload
  generalize hu : s.loadXfer key = u at hload
  have hpass : u.hasPassed (u.dataOut key 40) key (2 * s.staLane x.station + 1) n := by
    have hq : u.staLane (u.slot key).station = s.staLane x.station := by
      rw [hload.read (·.station), hload.only]
      rfl
    have hccw : (u.slot key).ccw = x.ccw := hload.read (·.ccw)
    rw [← hq]
    refine State.dataOut_local ((hload.read (·.st)).trans (h.running ho)) ((hload.read (·.w.moved)).trans hm) (by rw [hccw]) hn ?_ ?_
      (by rwa [hccw]) (by rwa [hccw]) ?_ ?_ ((hload.read (·.w.inbox)).trans hi) ((hload.read (·.w.reads)).trans hre) 39
    · rw [hq, hload.only]
      exact hroom
    · rw [hload.read (·.station), hccw, hload.only]
      exact hmem
    · rw [hccw, State.engMay_of_stage (hload.read (·.w.stageA)) (hload.read (·.w.stageB)), hload.only]
      exact hmay
    · rw [hccw, hload.only]
      exact hp
  have ht : t = (u.dataOut key 40).timerUpdate key := by
    refine hload.sends hl hx hc (h.running ho) (by rwa [hr]) hu hn ?_ hpass
    rcases hcls with hcls | ⟨hcls, he⟩ | hcls
    · exact .inl hcls
    · exact .inr (.inl ⟨hcls, decide_eq_true hcls, he⟩)
    · exact .inr (.inr hcls)
  have hslot := (onlyPort_timerUpdate (u.dataOut key 40) key).2.2 key
  obtain ⟨d, hd'⟩ := hpass.slot
  obtain ⟨b, hy⟩ := hload.xfer
  have hlane : (u.dataOut key 40).lane (s.staLane x.station) = u.lane (s.staLane x.station) := by
    rw [State.lane, State.lane, hpass.lanes]
  refine ⟨memKept_of_store (by rw [ht, ← hu]; simp), ?_⟩
  rw [ht, State.timerUpdate_lane, hlane, Slot.read_untimed hslot (·.st), Slot.read_untimed hslot (·.w.loaded),
    Slot.read_untimed hslot (·.w.moved), hd']
  refine ⟨(hload.read (·.st)).trans (h.running ho), hload.read (·.w.loaded), rfl, _, hy, rfl, rfl, rfl, rfl, ?_, rfl⟩
  simp only [State.newXfer, decide_eq_true_eq]
  rfl
end
end

/-- What a data CCW or a station command does where it executes. -/
theorem exec_stationRun {s : State} {e : EngineId} {k : SlotId} {i : Instr} {p : Nat → Bool}
    (hi : (i = .write e k ∧ p = (· == 1)) ∨ (i = .read e k ∧ p = (· == 2)) ∨ (i = .control e k ∧ p = (· == 3)) ∨
      (i = .writeRead e k ∧ p = (· == 5)) ∨ (i = .stationCommand e k ∧ p = isStationOp)) :
    exec i s = .next (if s.executes (slotKey e.val k.val) p then s.stationRun (slotKey e.val k.val) else s) := by
  rcases hi with ⟨rfl, rfl⟩ | ⟨rfl, rfl⟩ | ⟨rfl, rfl⟩ | ⟨rfl, rfl⟩ | ⟨rfl, rfl⟩ <;> rfl

/-- Settles O51: a data CCW or station command that executes ends where its lanes bar it, and otherwise loads its transfer and moves what
can be moved. -/
theorem dataCcwsUseTheirLanes : Obligations.DataCcwsUseTheirLanes := by
  unfold Obligations.DataCcwsUseTheirLanes
  intro s e k i p hi key x st l n cls out inn clean fresh
  rw [exec_stationRun hi]
  refine ⟨next_if_neg, fun he ho => ?_⟩
  have hex := State.executing_of_executes he
  have hgo : (.next (if s.executes key p then s.stationRun key else s) : Result) = .next (s.stationRun key) := next_if_pos he
  rw [hgo]
  refine ⟨fun hb hn => ?_, fun hb hn hl hx => ?_, fun hb hdata hf => ?_⟩
  · have hrun : s.stationRun key = s.bareRun key := if_pos hb
    rw [hrun]
    exact ⟨fun r hr => ⟨_, rfl, State.bareRun_barred (hex.mayEnd ho) hn hr⟩, fun hr => ⟨_, rfl, hex.bareRun ho hn hr⟩⟩
  · have hrun : s.stationRun key = s.bareRun key := if_pos hb
    rw [hrun]
    obtain ⟨hbar, hload⟩ := hex.bareTransfer ho hb hn hl hx
    exact ⟨fun r hr => ⟨_, rfl, hbar r hr⟩, fun hr hd => ⟨_, rfl, hload hr hd⟩⟩
  · have hrun : s.stationRun key = s.dataCommand key := if_neg (by simp [key] at hb ⊢; exact hb)
    rw [hrun]
    obtain ⟨hl, hx, hc, hsu, hm, hr, hn⟩ := hf
    have hways : s.ways key = (decide out, decide inn) := State.ways_data hdata hn
    obtain ⟨hbar, hbad⟩ := hex.dataBarred ho hl hx hc
    rw [hways] at hbar hbad
    refine ⟨fun r hr => ⟨_, rfl, hbar r hr⟩, fun hr hd => ⟨_, rfl, hbad hr hd⟩, fun hfree hd hcls hw hp => ⟨_, rfl, ?_⟩,
      fun hfree hd hout hg hmem hlo hmay hpo hroom hexch hib hre => ⟨_, rfl, ?_⟩⟩
    · exact hex.dataIn ho hl hx hc hn hr (by rw [hways]; exact hfree) hd hcls (inboundEmpty_of_parts hw hp)
    · refine hex.dataOut ho hl hx hc hn hr (by rw [hways]; exact hfree) hd ?_ hm hg hmem hlo hmay hpo hroom hib hre
      rcases hout with hcls | hcls | hcls
      · exact .inl hcls
      · exact .inr (.inl ⟨hcls, inboundEmpty_of_parts (hexch hcls).1 (hexch hcls).2⟩)
      · exact .inr (.inr hcls)

end Sys2Proof.Machine

namespace Sys2Proof.Machine

/-! # How an operation advances (R45, R49, R52, R70, R73, R76, R82, R85) -/

/-! ## The order of the checks (R70) -/

/-- Steps 3 to 9 of a CCW that is no successor: the first that fails is reported. -/
theorem State.check39_first (s : State) (key : Nat) (x : Slot) (c : Ccw) :
    s.check39 key x c false =
      if opDefined (ccwOp c) = false then some (chkProg 0x01)
      else if ccwOp c = 0x10 ∧ keyEngine key = 64 then some (chkProg 0x10)
      else if s.reservedField x.station c = true then some (chkProg 0x02)
      else if s.flagsBad x.station c = true then some chkChaining
      else if s.whenBad x c = true then some (chkProg 0x09)
      else if s.countBad x.station c = true then some (chkProg 0x03)
      else if s.profileBad x.station c = true then some (chkUnit 0x01)
      else none := by
  simp only [State.check39, Bool.false_and, Bool.or_false, Bool.not_eq_true']

/-- No failed check of steps 3 to 9 is without a status bit. -/
theorem State.check39_ne_chkNone {s : State} {key : Nat} {x : Slot} {c : Ccw} {chk : Check} (h : s.check39 key x c false = some chk) :
    (chk == chkNone) = false := by
  rw [State.check39_first] at h
  split_ifs at h <;> cases h <;> rfl

/-! ## The fields of a CCW (R31) -/

/-- Bytes spell the number that they were cut from, as far as they reach. -/
theorem leNat_leBytes (n v : Nat) : leNat (leBytes n v) = v % 256 ^ n := by
  induction n generalizing v with
  | zero => simp [leBytes, leNat, Nat.mod_one]
  | succ n ih =>
    rw [leBytes, leNat, ih, BitVec.toNat_ofNat, pow_succ' 256 n, Nat.mod_mul (a := 256)]
    omega

theorem ccwOf_leBytes (v : Ccw) : ccwOf (leBytes 16 v.toNat) = v := by
  have hlen : (leBytes 16 v.toNat).take 16 = leBytes 16 v.toNat := List.take_of_length_le (leBytes_length 16 _).le
  rw [ccwOf, hlen, leNat_leBytes]
  exact BitVec.eq_of_toNat_eq (by simpa using v.isLt)

/-- A field of a CCW stands in the 32-bit word at bit b that holds it. -/
theorem ccwField_eq_bitsOf (v : Ccw) {b hi lo : Nat} (hlo : b ≤ lo) (hle : lo ≤ hi) (hhi : hi < b + 32) :
    ccwField v hi lo = bitsOf (v.extractLsb' b 32) (hi - b) (lo - b) := by
  apply Nat.eq_of_testBit_eq
  intro i
  have hlen : hi - b + 1 - (lo - b) = hi + 1 - lo := by omega
  simp only [ccwField, bitsOf, hlen, BitVec.extractLsb'_toNat, Nat.testBit_mod_two_pow, Nat.testBit_shiftRight]
  by_cases hi' : i < hi + 1 - lo
  · have hw : lo - b + i < 32 := by omega
    have hb : b + (lo - b + i) = lo + i := by omega
    simp [hi', hw, hb]
  · simp [hi']

theorem ccwAddr_eq_extract (v : Ccw) : ccwAddr v = v.extractLsb' 64 64 := by
  apply BitVec.eq_of_toNat_eq
  simp [ccwAddr, ccwField]

/-- R70's first clauses, with the form of a CCW that a lone fetch spells (R31). -/
theorem check39_order (s : State) (key : Nat) (x : Slot) (c : Ccw) :
    let st := x.station
    let c3 := opDefined (ccwOp c) = true
    let c4 := c3 ∧ ¬ (ccwOp c = 0x10 ∧ keyEngine key = 64)
    let c5 := c4 ∧ s.reservedField st c = false
    let c6 := c5 ∧ s.flagsBad st c = false
    let c7 := c6 ∧ s.whenBad x c = false
    let c8 := c7 ∧ s.countBad st c = false
    let c9 := c8 ∧ s.profileBad st c = false
    (¬ c3 → s.check39 key x c false = some (chkProg 0x01)) ∧
    (c3 → ¬ c4 → s.check39 key x c false = some (chkProg 0x10)) ∧
    (c4 → ¬ c5 → s.check39 key x c false = some (chkProg 0x02)) ∧
    (c5 → ¬ c6 → s.check39 key x c false = some chkChaining) ∧
    (c6 → ¬ c7 → s.check39 key x c false = some (chkProg 0x09)) ∧
    (c7 → ¬ c8 → s.check39 key x c false = some (chkProg 0x03)) ∧
    (c8 → ¬ c9 → s.check39 key x c false = some (chkUnit 0x01)) ∧
    (c9 → s.check39 key x c false = none) := by
  intro st c3 c4 c5 c6 c7 c8 c9
  rw [State.check39_first]
  have bad {p : Prop} {b : Bool} (hp : p) (hn : ¬ (p ∧ b = false)) : b = true := by simpa using fun hb => hn ⟨hp, hb⟩
  have no {α : Type} {b v : Bool} {y z : α} (hb : b = !v) : (if b = v then y else z) = z := if_neg (by cases v <;> simp [hb])
  refine ⟨fun h3 => if_pos (by simpa [c3] using h3), fun h3 h4 => ?_, fun h4 h5 => ?_, fun h5 h6 => ?_, fun h6 h7 => ?_, fun h7 h8 => ?_,
    fun h8 h9 => ?_, fun h9 => ?_⟩
  · exact (no h3).trans (if_pos (not_not.mp fun hn => h4 ⟨h3, hn⟩))
  · obtain ⟨h3, hce⟩ := id h4
    exact (no h3).trans ((if_neg hce).trans (if_pos (bad h4 h5)))
  · obtain ⟨⟨h3, hce⟩, hres⟩ := id h5
    exact (no h3).trans ((if_neg hce).trans ((no hres).trans (if_pos (bad h5 h6))))
  · obtain ⟨⟨⟨h3, hce⟩, hres⟩, hfl⟩ := id h6
    exact (no h3).trans ((if_neg hce).trans ((no hres).trans ((no hfl).trans (if_pos (bad h6 h7)))))
  · obtain ⟨⟨⟨⟨h3, hce⟩, hres⟩, hfl⟩, hwh⟩ := id h7
    exact (no h3).trans ((if_neg hce).trans ((no hres).trans ((no hfl).trans ((no hwh).trans (if_pos (bad h7 h8))))))
  · obtain ⟨⟨⟨⟨⟨h3, hce⟩, hres⟩, hfl⟩, hwh⟩, hco⟩ := id h8
    exact (no h3).trans ((if_neg hce).trans ((no hres).trans ((no hfl).trans ((no hwh).trans ((no hco).trans (if_pos (bad h8 h9)))))))
  · obtain ⟨⟨⟨⟨⟨⟨h3, hce⟩, hres⟩, hfl⟩, hwh⟩, hco⟩, hpr⟩ := h9
    exact (no h3).trans ((if_neg hce).trans ((no hres).trans ((no hfl).trans ((no hwh).trans ((no hco).trans (no hpr))))))

end Sys2Proof.Machine

namespace Sys2Proof.Machine

/-! ## A station is acquired (R73, R101, R330) -/

theorem State.ecc_ite {s t u : State} {p : Prop} [Decidable p] (h : t.ecc = s.ecc) (k : u.ecc = s.ecc) :
    (if p then t else u).ecc = s.ecc := by
  split
  · exact h
  · exact k

theorem State.ecc_setReg (s : State) (a : Nat) (v : Word) : (s.setReg a v).ecc = s.ecc := rfl

theorem State.ecc_setStatus (s : State) (a : Nat) (v : Word) : (s.setStatus a v).ecc = s.ecc := by
  rw [(onlyRegs_setStatus s a v).1]

theorem State.ecc_report (s : State) (g det cls owner unit master : Nat) (detail : Word) (cond : Bool) :
    (s.report g det cls owner unit master detail cond).ecc = s.ecc := rfl

/-- A read of a record leaves the conditions of all words as they are. -/
theorem State.ecc_hwCheck (s : State) (w master owner : Nat) : (s.hwCheck w master owner).ecc = s.ecc := by
  unfold State.hwCheck State.eccEvent
  refine State.ecc_ite rfl ?_
  extract_lets kind syn s1 held r info s2 s3 s4 f g det s5
  have h1 : s1.ecc = s.ecc := State.ecc_ite rfl rfl
  have h2 : s2.ecc = s.ecc := State.ecc_ite ((State.ecc_setReg ..).trans ((State.ecc_setReg ..).trans h1)) h1
  have h3 : s3.ecc = s.ecc := (State.ecc_setStatus ..).trans h2
  have h4 : s4.ecc = s.ecc := State.ecc_ite ((State.ecc_setReg ..).trans h3) (State.ecc_ite ((State.ecc_setReg ..).trans h3) h3)
  have h5 : s5.ecc = s.ecc := (State.ecc_report ..).trans h4
  exact State.ecc_ite h4 (State.ecc_ite h5 h5)

theorem State.hwBad_hwCheck (s : State) (w a master owner : Nat) : (s.hwCheck a master owner).hwBad w = s.hwBad w := by
  rw [State.hwBad, State.ecc_hwCheck]
  rfl

/-- An operation whose slot is in use and has not ended may be ended. -/
theorem State.mayEnd_of_st {s : State} {key : Nat} (hr : s.engineRuns (keyEngine key) = true)
    (hst : (s.slot key).st = .admitted ∨ (s.slot key).st = .fetching ∨ (s.slot key).st = .running)
    (he : (s.slot key).w.ending = none) (hf : (s.slot key).w.fnReset = false) : s.mayEnd key := by
  rcases hst with hst | hst | hst
  all_goals exact ⟨hr, by simp [Slot.over, Slot.midHeld, hst], by simp [Slot.midHeld, hst], he, hf⟩

section
variable {s : State} {key : Nat}

theorem State.readRecord_clean (h : SMap.get .ok s.ecc (slotAddr key) = .ok) : s.readRecord key = (s, true) := by
  simp [State.readRecord, State.hwBad_clean h, State.hwCheck_clean h]

/-- A record that cannot be read ends its slot (R101). -/
theorem State.readRecord_bad (hmay : s.mayEnd key) (h : s.hwBad (slotAddr key) = true) :
    ∃ t, s.readRecord key = (t, false) ∧ opEnds s t key chkInterface 0#64 0 := by
  have hu := onlyMem_hwCheck s (slotAddr key) (engineMaster (keyEngine key)) (slotOwner (s.slot key))
  exact ⟨_, if_pos h, (State.endOp_ends (hmay.of_onlyMem hu) rfl _ _ _).of_cstat (by rw [hu.slot])⟩

theorem State.readRecord_good (h : s.hwBad (slotAddr key) = false) :
    s.readRecord key = (s.hwCheck (slotAddr key) (engineMaster (keyEngine key)) (slotOwner (s.slot key)), true) :=
  if_neg (by simp [h])

/-- The slot waits for its station, which is free, and is the first that does (R73). -/
def State.firstInLine (s : State) (key : Nat) : Prop :=
  let x := s.slot key
  x.st = .admitted ∧ s.engineRuns (keyEngine key) = true ∧ s.holders x.station = [] ∧ ∀ p ∈ s.waiters x.station, x.w.order ≤ p.2.w.order

/-- The slot that has acquired its station: its busy time starts. -/
def State.acquired (s : State) (x : Slot) : Slot :=
  { x with st := .fetching, busyBase := 0, busyFrom := some s.time, w := { x.w with holding := true, busyMark := s.time } }

theorem stationAcquire_waits (h : ¬ s.firstInLine key) : stationAcquire s key = s := by
  apply if_pos
  simp only [Bool.or_eq_true, bne_iff_ne, Bool.not_eq_true', List.isEmpty_eq_false_iff, List.any_eq_true, decide_eq_true_eq]
  by_contra hn
  simp only [not_or, not_not, not_exists, not_and, not_lt, Bool.not_eq_false] at hn
  obtain ⟨⟨⟨hst, hr⟩, hh⟩, hw⟩ := hn
  exact h ⟨hst, hr, hh, hw⟩

theorem stationAcquire_first (h : s.firstInLine key) :
    stationAcquire s key = match s.readRecord key with
      | (t, false) => t
      | (t, true) => (t.setSlot key (t.acquired (s.slot key))).readDescriptor key := by
  obtain ⟨hst, hr, hh, hw⟩ := h
  have hany : (s.waiters (s.slot key).station).any (fun (_, y) => decide (y.w.order < (s.slot key).w.order)) = false := by
    simp only [List.any_eq_false, decide_eq_true_eq, not_lt]
    exact fun p hp => hw p hp
  unfold stationAcquire
  dsimp only
  rw [if_neg (by simp [hst, hr, hh, hany])]
  rfl

theorem stationAcquire_clean (h : s.firstInLine key) (hs : SMap.get .ok s.ecc (slotAddr key) = .ok)
    (hd : SMap.get .ok s.ecc (descAddr (s.slot key).station) = .ok) : stationAcquire s key = s.setSlot key (s.acquired (s.slot key)) := by
  rw [stationAcquire_first h, State.readRecord_clean hs]
  exact State.readDescriptor_clean (by rw [State.slot_setSlot]; exact hd)

theorem stationAcquire_record (h : s.firstInLine key) (ho : (s.slot key).openEnd) (hs : s.hwBad (slotAddr key) = true) :
    opEnds s (stationAcquire s key) key chkInterface 0#64 0 := by
  obtain ⟨t, ht, hends⟩ := State.readRecord_bad (State.mayEnd_of_st h.2.1 (.inl h.1) ho.1 ho.2.1) hs
  rwa [stationAcquire_first h, ht]

theorem stationAcquire_descriptor (h : s.firstInLine key) (ho : (s.slot key).openEnd) (hs : s.hwBad (slotAddr key) = false)
    (hd : s.hwBad (descAddr (s.slot key).station) = true) :
    opEnds s (stationAcquire s key) key chkInterface (s.slot key).cur (s.slot key).haltResidue ∧
      (stationAcquire s key).staVALID (s.slot key).station = false := by
  rw [stationAcquire_first h, State.readRecord_good hs]
  dsimp only
  have hu := onlyMem_hwCheck s (slotAddr key) (engineMaster (keyEngine key)) (slotOwner (s.slot key))
  have hbad := s.hwBad_hwCheck (descAddr (s.slot key).station) (slotAddr key) (engineMaster (keyEngine key)) (slotOwner (s.slot key))
  generalize s.hwCheck (slotAddr key) (engineMaster (keyEngine key)) (slotOwner (s.slot key)) = u at hu hbad
  have hslot := State.slot_setSlot u key (u.acquired (s.slot key))
  have hr : (u.setSlot key (u.acquired (s.slot key))).engineRuns (keyEngine key) = true := by
    rw [State.engineRuns]
    change (SMap.get 0 u.stopped (keyEngine key) == 0) = true
    rw [hu.stopped]
    exact h.2.1
  have hmay : (u.setSlot key (u.acquired (s.slot key))).mayEnd key := 
    State.mayEnd_of_st hr (.inr (.inl (by rw [hslot]; rfl))) (by rw [hslot]; exact ho.1) (by rw [hslot]; exact ho.2.1)
  obtain ⟨hends, hvalid⟩ := State.readDescriptor_bad hmay (by rw [hslot]; exact hbad.trans hd)
  rw [hslot] at hends hvalid
  exact ⟨hends.of_cstat (by rw [hslot]; rfl), hvalid⟩
end

end Sys2Proof.Machine

namespace Sys2Proof.Machine

/-! ## A CCW is fetched and its snapshot taken (R45, R70, R82) -/

/-! ### What the checks read does not change as hardware writes memory -/

theorem ccwOp_lt (c : Ccw) : ccwOp c < 256 := Nat.mod_lt _ (by decide)

section
variable {s t : State} (h : onlyMem s t)
include h

theorem onlyMem.staProfile (st : Nat) : t.staProfile st = s.staProfile st := by
  rw [State.staProfile, State.station, h.stations]
  rfl

/-- The registers of the profiles read the same. -/
theorem onlyMem.entryOf (st : Nat) {op : Nat} (hop : op < 256) : t.entryOf st op = s.entryOf st op := by
  have hp : s.staProfile st < 64 := Nat.mod_lt _ (by decide)
  have hoff : entryOff op < 0x800 := by
    unfold entryOff
    split_ifs <;> omega
  have hreg (k : Nat) (hk : k ≤ 4) : t.reg (profileAddr (s.staProfile st) + entryOff op + k) =
      s.reg (profileAddr (s.staProfile st) + entryOff op + k) := by
    refine h.2 _ ?_ ?_ <;> unfold profileAddr <;> omega
  rw [State.entryOf, State.entryOf, h.staProfile, State.cmdEntry, State.cmdEntry, hreg 4 (by decide)]
  have h0 := hreg 0 (by decide)
  rw [Nat.add_zero] at h0
  rw [h0]

theorem onlyMem.classOf (st : Nat) {op : Nat} (hop : op < 256) : t.classOf st op = s.classOf st op := by
  rw [State.classOf, State.classOf, h.entryOf st hop]

theorem onlyMem.byteCount (st : Nat) (c : Ccw) : t.byteCount st c = s.byteCount st c := by
  rw [State.byteCount, State.byteCount, h.classOf st (ccwOp_lt c)]

theorem onlyMem.residual39 (x : Slot) (c : Ccw) : t.residual39 x c = s.residual39 x c := by
  rw [State.residual39, State.residual39, h.classOf x.station (ccwOp_lt c)]

theorem onlyMem.noMemory (st : Nat) (c : Ccw) : t.noMemory st c = s.noMemory st c := by
  rw [State.noMemory, State.noMemory, State.noAuse, State.noAuse, h.classOf st (ccwOp_lt c), h.entryOf st (ccwOp_lt c)]

theorem onlyMem.srcEnabled (n : Nat) : t.srcEnabled n = s.srcEnabled n := by
  rw [h.1]
  rfl

/-- Steps 3 to 9 of R70 give the same. -/
theorem onlyMem.check39 (key : Nat) (x : Slot) (c : Ccw) : t.check39 key x c false = s.check39 key x c false := by
  have hop := ccwOp_lt c
  have h5 : t.reservedField x.station c = s.reservedField x.station c := by
    rw [State.reservedField, State.reservedField, h.classOf _ hop, h.noMemory]
  have h6 : t.flagsBad x.station c = s.flagsBad x.station c := by
    rw [State.flagsBad, State.flagsBad, State.noAuse, State.noAuse, h.classOf _ hop, h.entryOf _ hop]
  have h7 : t.whenBad x c = s.whenBad x c := by
    rw [State.whenBad, State.whenBad, h.srcEnabled]
  have h8 : t.countBad x.station c = s.countBad x.station c := by
    rw [State.countBad, State.countBad, h.classOf _ hop]
  have h9 : t.profileBad x.station c = s.profileBad x.station c := by
    rw [State.profileBad, State.profileBad, h.entryOf _ hop]
  rw [State.check39_first, State.check39_first, h5, h6, h7, h8, h9]
end

/-! ### The fetch -/

section
variable {s : State} {key : Nat}

theorem ccwFetch_stopped (h : s.engineRuns (keyEngine key) = false) : ccwFetch s key = s := by
  simp [ccwFetch, h]

/-- The address of the CCW that a slot in FETCHING fetches: at first that of the program. -/
def Slot.fetchAt (x : Slot) : Quad := if x.usedCcws = 0 ∧ x.cur = 0#64 then x.prog else x.cur

/-- A slot may fetch its next CCW. -/
structure State.fetching (s : State) (key : Nat) : Prop where
  runs : s.engineRuns (keyEngine key) = true
  st : (s.slot key).st = .fetching
  op10 : (s.slot key).w.op10 = false
  open_ : (s.slot key).openEnd

theorem State.fetching.mayEnd (h : s.fetching key) : s.mayEnd key := State.mayEnd_of_st h.runs (.inr (.inl h.st)) h.open_.1 h.open_.2.1

theorem State.fetching.ccwFetch (h : s.fetching key) :
    ccwFetch s key = match s.readRecord key with
      | (t, false) => t
      | (t, true) =>
        let a := (s.slot key).fetchAt
        let u := t.setSlot key { s.slot key with cur := a }
        if a.toNat % 16 != 0 then u.endOp key (chkProg 0x04) a 0 false
        else if localBad a then u.endOp key (chkProg 0x02) a 0 false
        else match u.fetchCcw key a with
          | .got v c => v.takeSnapshot key c
          | .wait v => v
          | .fail v c => v.endOp key c a 0 false := by
  obtain ⟨hr, hst, h10, he, -, -, hl⟩ := h
  unfold Machine.ccwFetch
  dsimp only
  rw [if_neg (by simp [hr, he, hl]), if_neg (by simp [hst]), if_neg (by simp [h10]), if_pos hst]
  rfl

/-- The slot at the address that it fetches from. -/
def State.atFetch (s : State) (key : Nat) : State := s.setSlot key { s.slot key with cur := (s.slot key).fetchAt }

theorem State.fetching.clean (h : s.fetching key) (hc : SMap.get .ok s.ecc (slotAddr key) = .ok) :
    Machine.ccwFetch s key =
      let a := (s.slot key).fetchAt
      let u := s.atFetch key
      if a.toNat % 16 != 0 then u.endOp key (chkProg 0x04) a 0 false
      else if localBad a then u.endOp key (chkProg 0x02) a 0 false
      else match u.fetchCcw key a with
        | .got v c => v.takeSnapshot key c
        | .wait v => v
        | .fail v c => v.endOp key c a 0 false := by
  rw [h.ccwFetch, State.readRecord_clean hc]
  rfl

/-- An ending on the way to a CCW. -/
theorem State.fetching.ends (h : s.fetching key) {v : State} (hs : v.stopped = s.stopped) (hx : (v.slot key).fate = (s.slot key).fate)
    (hc : (v.slot key).cstat = (s.slot key).cstat) {chk : Check} (hk : (chk == chkNone) = false) (a : Quad) (residual : Nat) :
    opEnds s (v.endOp key chk a residual false) key chk a residual :=
  (State.endOp_ends (h.mayEnd.of_fate hs hx) hk _ _ _).of_cstat hc

theorem State.atFetch_slot (s : State) (key : Nat) : (s.atFetch key).slot key = { s.slot key with cur := (s.slot key).fetchAt } :=
  State.slot_setSlot s key _

/-- An address that is misaligned, or that sets reserved bits, ends the operation (R70). -/
theorem State.fetching.badAddress (h : s.fetching key) (hc : SMap.get .ok s.ecc (slotAddr key) = .ok) :
    let a := (s.slot key).fetchAt
    (a.toNat % 16 ≠ 0 → opEnds s (Machine.ccwFetch s key) key (chkProg 0x04) a 0) ∧
    (a.toNat % 16 = 0 → localBad a = true → opEnds s (Machine.ccwFetch s key) key (chkProg 0x02) a 0) := by
  intro a
  rw [h.clean hc]
  dsimp only
  refine ⟨fun ha => ?_, fun ha hb => ?_⟩
  · rw [if_pos (bne_iff_ne.mpr ha)]
    exact h.ends (v := s.atFetch key) rfl (by rw [State.atFetch_slot]; rfl) (by rw [State.atFetch_slot]) rfl _ _
  · rw [if_neg (by simpa using ha), if_pos hb]
    exact h.ends (v := s.atFetch key) rfl (by rw [State.atFetch_slot]; rfl) (by rw [State.atFetch_slot]) rfl _ _

section
variable (h : s.fetching key) (hc : SMap.get .ok s.ecc (slotAddr key) = .ok) (ha : (s.slot key).fetchAt.toNat % 16 = 0)
  (hb : localBad (s.slot key).fetchAt = false)
include h hc ha hb

theorem State.fetching.aligned :
    Machine.ccwFetch s key = match (s.atFetch key).fetchCcw key (s.slot key).fetchAt with
      | .got v c => v.takeSnapshot key c
      | .wait v => v
      | .fail v c => v.endOp key c (s.slot key).fetchAt 0 false := by
  rw [h.clean hc]
  dsimp only
  rw [if_neg (by simpa using ha), if_neg (by simp [hb])]

/-- A CCW that is read alone from local memory: outside the owner's rights, or poisoned, it ends the operation (R68, R84). -/
theorem State.fetching.alone (hh : (s.slot key).w.held (s.slot key).fetchAt.toNat = none) (hp : s.prefetchMode key = 0)
    (hl : isLocal (s.slot key).fetchAt = true) :
    let a := (s.slot key).fetchAt
    (s.engMay key (s.slot key) (localOf a) 16 = false → opEnds s (Machine.ccwFetch s key) key chkProtection a 0) ∧
    (s.engMay key (s.slot key) (localOf a) 16 = true → s.poisoned (localOf a) 16 = true →
      opEnds s (Machine.ccwFetch s key) key chkData a 0) := by
  intro a
  have hslot := s.atFetch_slot key
  have hfetch : (s.atFetch key).fetchCcw key a = (s.atFetch key).fetchAlone key a := by
    unfold State.fetchCcw
    dsimp only
    rw [hslot]
    dsimp only
    rw [hh]
    exact if_pos hp
  have hmay : (s.atFetch key).engMay key ((s.atFetch key).slot key) (localOf a) 16 = s.engMay key (s.slot key) (localOf a) 16 := by
    rw [hslot]
    rfl
  rw [h.aligned hc ha hb, hfetch]
  unfold State.fetchAlone
  refine ⟨fun hr => ?_, fun hr hpo => ?_⟩
  · rw [State.fetchBytes_refused hl (hmay.trans hr)]
    have hx (m b : Nat) : ((s.atFetch key).refusedAccess m b).slot key = { s.slot key with cur := a } := hslot
    exact h.ends (v := (s.atFetch key).refusedAccess _ _) rfl (by rw [hx]; rfl) (by rw [hx]) rfl _ _
  · obtain ⟨t, ht, hmem, -⟩ := State.fetchBytes_local hl (hmay.trans hr)
    have hpo' : (s.atFetch key).poisoned (localOf a) 16 = true := hpo
    rw [ht, hpo']
    exact h.ends hmem.stopped (by rw [hmem.slot, hslot]; rfl) (by rw [hmem.slot, hslot]) rfl _ _

/-- A CCW that a held line has is taken from it. -/
theorem State.fetching.held {c : Ccw} (hh : (s.slot key).w.held (s.slot key).fetchAt.toNat = some c) :
    Machine.ccwFetch s key = (s.atFetch key).takeSnapshot key c := by
  have hslot := s.atFetch_slot key
  have hfetch : (s.atFetch key).fetchCcw key (s.slot key).fetchAt = .got (s.atFetch key) c := by
    unfold State.fetchCcw
    dsimp only
    rw [hslot]
    dsimp only
    rw [hh]
  rw [h.aligned hc ha hb, hfetch]
end
end

/-! ### The snapshot -/

/-- The slot whose CCW has been read: n bytes are to be moved. -/
def Slot.snapshot (x : Slot) (c : Ccw) (n : Nat) : Slot := { x with ccw := c, remain := n, w := { x.w with snapped := true, block := [] } }

/-- The slot whose CCW has passed steps 3 to 9 of R70. -/
def Slot.checked (x : Slot) (c : Ccw) (tgt : Option Nat) : Slot :=
  { x with
    st := if (ccwMode c = 0 ∧ ccwEvent c = 0) ∨ isFlow c then .running else .fetching
    w := { x.w with chainOp := some (ccwOp c), target := tgt, winEnd := if ccwMode c = 3 then tgt.map (· + ccwWidth c) else none } }

/-- What a snapshot comes to: the slot's record is written, and the checks are made as before that write. -/
theorem State.takeSnapshot_form (s : State) (key : Nat) (c : Ccw) : ∃ t, onlyMem s t ∧ t.store = s.store ∧
    s.takeSnapshot key c =
      let z := (s.slot key).snapshot c (s.byteCount (s.slot key).station c)
      if ccwSus c && (s.slot key).susreq then t.setSlot key { z with st := .suspended, susreq := false }
      else match s.check39 key z c false with
        | some chk => (t.setSlot key z).endOp key chk (s.slot key).cur (s.residual39 (s.slot key) c) false
        | none => (t.setSlot key (z.checked c (if ccwMode c = 0 ∨ isFlow c then none else some (t.whenTarget z c)))).afterChecks key := by
  have h := onlyMem_hwWrite s (slotAddr key)
  refine ⟨_, h, by simp, ?_⟩
  have hb := h.byteCount (s.slot key).station c
  have hk := h.check39 key ((s.slot key).snapshot c (s.byteCount (s.slot key).station c)) c
  have hr := h.residual39 ((s.slot key).snapshot c (s.byteCount (s.slot key).station c)) c
  unfold State.takeSnapshot
  dsimp only
  rw [h.slot, hb]
  unfold Slot.snapshot at hk hr
  rw [hk, hr]
  rfl

end Sys2Proof.Machine

namespace Sys2Proof.Machine

/-! ### A SUS point, a failed check, and a NOP (R45, R65, R69, R121) -/

section
variable {s : State} {key : Nat} {c : Ccw}

/-- The snapshot of a CCW that a held line has. -/
theorem State.fetching.snapshot (h : s.fetching key) (hc : SMap.get .ok s.ecc (slotAddr key) = .ok) (ha : (s.slot key).fetchAt.toNat % 16 = 0)
    (hb : localBad (s.slot key).fetchAt = false) (hh : (s.slot key).w.held (s.slot key).fetchAt.toNat = some c) :
    let x := s.slot key
    let z := { x with cur := x.fetchAt }.snapshot c (s.byteCount x.station c)
    ∃ t, onlyMem (s.atFetch key) t ∧ t.store = s.store ∧
      Machine.ccwFetch s key =
        if ccwSus c && x.susreq then t.setSlot key { z with st := .suspended, susreq := false }
        else match (s.atFetch key).check39 key z c false with
          | some chk => (t.setSlot key z).endOp key chk x.fetchAt (s.residual39 x c) false
          | none => (t.setSlot key (z.checked c (if ccwMode c = 0 ∨ isFlow c then none else some (t.whenTarget z c)))).afterChecks key := by
  intro x z
  obtain ⟨t, ht, hst, heq⟩ := (s.atFetch key).takeSnapshot_form key c
  refine ⟨t, ht, hst, ?_⟩
  rw [h.held hc ha hb hh, heq, State.atFetch_slot]
  rfl

theorem State.slot_sendReads (s : State) (f addr len i k key : Nat) : (s.sendReads f addr len i k).slot key = s.slot key := by
  unfold State.sendReads
  dsimp only
  split <;> rfl

/-- A speculative read adds at most a line or a read to its slot. -/
theorem State.speculate_slot (s : State) (key : Nat) : ∃ ls rs, (s.speculate key).slot key =
    { s.slot key with w := { (s.slot key).w with lines := ls, reads := rs } } := by
  have hsame : ∃ ls rs, s.slot key = { s.slot key with w := { (s.slot key).w with lines := ls, reads := rs } } :=
    ⟨(s.slot key).w.lines, (s.slot key).w.reads, rfl⟩
  unfold State.speculate
  dsimp only
  split
  · exact hsame
  split
  · exact hsame
  split
  · split
    · exact ⟨_, _, State.slot_setSlot _ key _⟩
    · exact hsame
  · split
    · exact ⟨_, _, (State.slot_sendReads ..).trans (State.slot_setSlot s key _)⟩
    · exact hsame

/-- A NOP passes step 10 of R70 as it is. -/
theorem State.step10_nop (hop : ccwOp (s.slot key).ccw = 0x1F) : s.step10 key = .bytes s [] false := by
  have hcls : s.classOf (s.slot key).station 0x1F = .other := by simp [State.classOf, isStationOp]
  simp [State.step10, State.usesPgl, hop, hcls, CcwClass.data]

theorem step11_nop {x : Slot} (hop : ccwOp x.ccw = 0x1F) : step11 x = none := by
  simp [step11, isFlow, hop]

/-- The slot whose CCW has passed step 10 of R70. -/
def Slot.stepped (x : Slot) : Slot := { x with w := { x.w with op10 := false } }

theorem Slot.ccwsOver_stepped (x : Slot) : x.stepped.ccwsOver = decide (x.claimCcws ≤ x.usedCcws) := by
  simp [Slot.ccwsOver, Slot.stepped]

/-- The slot whose CCW has been counted against its claim. -/
def Slot.counted (x : Slot) : Slot :=
  { x with usedCcws := x.usedCcws + 1, flow := (if isFlow x.ccw then x.flow + 1 else 0), w := { x.w with branchFrom := none } }

/-- A CCW that has passed the checks is counted; the next line may be read, and a station's bus that it does not use is let go. -/
def State.started (s : State) (key : Nat) (x : Slot) : State :=
  let t := (s.setSlot key x.counted).speculate key
  if isFlow x.ccw || t.laneTransfer x.station x.ccw then t else t.busStop (t.staLane x.station)

theorem State.started_slot (s : State) (key : Nat) (x : Slot) :
    ∃ ls rs, (s.started key x).slot key = { x.counted with w := { x.counted.w with lines := ls, reads := rs } } := by
  obtain ⟨ls, rs, ht⟩ := (s.setSlot key x.counted).speculate_slot key
  rw [State.slot_setSlot] at ht
  refine ⟨ls, rs, ?_⟩
  unfold State.started
  dsimp only
  split
  · exact ht
  · rw [State.slot_busStop, ht]

/-- After step 10: the claim test, step 11, and the start of the CCW or its wait. -/
theorem State.afterChecks_eq {t : State} {d : List Byte} {p : Bool} (h : s.step10 key = .bytes t d p) :
    s.afterChecks key =
      let x := (t.slot key).stepped
      let u := t.setSlot key x
      if x.ccwsOver then u.checkNow key chkOverrun
      else match step11 x with
        | some (c, a) => u.endOp key c a x.residue (u.xferOf x.station key).isSome
        | none =>
          let v := u.started key x
          if ccwMode x.ccw = 0 ∧ ccwEvent x.ccw = 0 then v.setSlot key { v.slot key with st := .running }
          else if isFlow x.ccw then v.setSlot key { v.slot key with st := .running }
          else v.enterWhen key := by
  unfold State.afterChecks
  rw [h]
  rfl

/-- A NOP without a condition overruns its claim, or executes (R69, R121). -/
theorem State.afterChecks_nop (hop : ccwOp (s.slot key).ccw = 0x1F) (hm : ccwMode (s.slot key).ccw = 0) :
    ((s.slot key).claimCcws ≤ (s.slot key).usedCcws → s.afterChecks key = (s.setSlot key (s.slot key).stepped).checkNow key chkOverrun) ∧
    ((s.slot key).usedCcws < (s.slot key).claimCcws → ∃ ls rs, (s.afterChecks key).slot key =
      { (s.slot key).stepped.counted with st := .running, w := { (s.slot key).stepped.counted.w with lines := ls, reads := rs } }) := by
  have hev : ccwEvent (s.slot key).ccw = 0 := by simp [ccwEvent, hop]
  rw [State.afterChecks_eq (State.step10_nop hop)]
  dsimp only
  refine ⟨fun hov => ?_, fun hov => ?_⟩
  · exact if_pos (by simpa [Slot.ccwsOver_stepped] using hov)
  · obtain ⟨ls, rs, hv⟩ := (s.setSlot key (s.slot key).stepped).started_slot key (s.slot key).stepped
    rw [if_neg (by simpa [Slot.ccwsOver_stepped] using hov), step11_nop (x := (s.slot key).stepped) hop]
    dsimp only
    refine ⟨ls, rs, ?_⟩
    rw [if_pos ⟨hm, hev⟩, State.slot_setSlot, hv]

section
variable (h : s.fetching key) (hc : SMap.get .ok s.ecc (slotAddr key) = .ok) (ha : (s.slot key).fetchAt.toNat % 16 = 0)
  (hb : localBad (s.slot key).fetchAt = false) (hh : (s.slot key).w.held (s.slot key).fetchAt.toNat = some c)
include h hc ha hb hh

/-- A CCW with SUS suspends a slot that was asked to (R45). -/
theorem State.fetching.suspends (hsus : ccwSus c = true) (hreq : (s.slot key).susreq = true) :
    let t := Machine.ccwFetch s key
    (t.slot key).st = .suspended ∧ (t.slot key).susreq = false ∧ (t.slot key).ccw = c ∧ (t.slot key).cur = (s.slot key).fetchAt ∧
      memKept s t ∧ ∀ j, j ≠ key → t.slot j = s.slot j := by
  obtain ⟨t, ht, hst, heq⟩ := h.snapshot hc ha hb hh
  rw [heq, if_pos (by simp [hsus, hreq])]
  have hslot (x : Slot) := State.slot_setSlot t key x
  refine ⟨by rw [hslot], by rw [hslot], by rw [hslot]; rfl, by rw [hslot]; rfl, memKept_of_store hst, fun j hj => ?_⟩
  rw [State.slot_setSlot_other _ _ hj, ht.slot]
  exact State.slot_setSlot_other s _ hj

variable (hsus : ccwSus c = false ∨ (s.slot key).susreq = false)
include hsus

/-- A CCW that fails steps 3 to 9 of R70 ends the operation. -/
theorem State.fetching.failsCheck {chk : Check}
    (hk : (s.atFetch key).check39 key ({ s.slot key with cur := (s.slot key).fetchAt }.snapshot c (s.byteCount (s.slot key).station c)) c false =
      some chk) :
    opEnds s (Machine.ccwFetch s key) key chk (s.slot key).fetchAt (s.residual39 (s.slot key) c) := by
  obtain ⟨t, ht, hst, heq⟩ := h.snapshot hc ha hb hh
  rw [heq, if_neg (by rcases hsus with hs | hs <;> simp [hs]), hk]
  have hslot (x : Slot) := State.slot_setSlot t key x
  exact h.ends (v := t.setSlot key _) ht.stopped (by rw [hslot]; rfl) (by rw [hslot]; rfl) (State.check39_ne_chkNone hk) _ _

/-- A NOP without a condition that passes the checks ends at an exhausted claim, and otherwise executes (R65, R121). -/
theorem State.fetching.nop
    (hk : (s.atFetch key).check39 key ({ s.slot key with cur := (s.slot key).fetchAt }.snapshot c (s.byteCount (s.slot key).station c)) c false =
      none) (hop : ccwOp c = 0x1F) (hm : ccwMode c = 0) :
    let x := s.slot key
    let t := Machine.ccwFetch s key
    (x.claimCcws ≤ x.usedCcws → opEnds s t key chkOverrun x.fetchAt 0) ∧
    (x.usedCcws < x.claimCcws → (t.slot key).st = .running ∧ (t.slot key).ccw = c ∧ (t.slot key).cur = x.fetchAt ∧
      (t.slot key).usedCcws = x.usedCcws + 1 ∧ (t.slot key).w.snapped = true ∧ (t.slot key).flow = 0) := by
  intro x
  obtain ⟨t, ht, hst, heq⟩ := h.snapshot hc ha hb hh
  rw [heq, if_neg (by rcases hsus with hs | hs <;> simp [hs]), hk]
  dsimp only
  generalize (if ccwMode c = 0 ∨ isFlow c = true then none else _ : Option Nat) = tgt
  have hev : ccwEvent c = 0 := by simp [ccwEvent, hop]
  have hfl : isFlow c = false := by simp [isFlow, hop]
  have hcount : s.byteCount x.station c = 0 := by simp [State.byteCount, State.classOf, isStationOp, hop, CcwClass.data]
  generalize hz : ({ x with cur := x.fetchAt }.snapshot c (s.byteCount x.station c)).checked c tgt = z
  have hslot := State.slot_setSlot t key z
  have hzc : z.ccw = c := by rw [← hz]; rfl
  obtain ⟨hover, hruns⟩ := State.afterChecks_nop (s := t.setSlot key z) (key := key) (by rw [hslot, hzc, hop]) (by rw [hslot, hzc, hm])
  rw [hslot] at hover hruns
  refine ⟨fun hov => ?_, fun hov => ?_⟩
  · rw [hover (by rw [← hz]; exact hov)]
    have hw := State.slot_setSlot (t.setSlot key z) key z.stepped
    have hruns : ((t.setSlot key z).setSlot key z.stepped).engineRuns (keyEngine key) = true := by
      rw [← h.runs]
      exact congrArg (fun m => SMap.get 0 m (keyEngine key) == 0) ht.stopped
    have hzst : z.st = .running := by rw [← hz]; exact if_pos (.inl ⟨hm, hev⟩)
    have hmay : ((t.setSlot key z).setSlot key z.stepped).mayEnd key := by
      refine State.mayEnd_of_running hruns (by rw [hw]; exact hzst) ?_ ?_
      · rw [hw, ← hz]
        exact h.open_.1
      · rw [hw, ← hz]
        exact h.open_.2.1
    have hends := (State.checkNow_ends hmay (c := chkOverrun) rfl).of_cstat (s := s) (by rw [hw, ← hz]; rfl)
    have hres : z.stepped.residue = 0 := by
      rw [← hz]
      simp [Slot.residue, Slot.stepped, Slot.checked, Slot.snapshot, hop, hcount]
    rw [hw, hres, ← hz] at hends
    rw [← hz]
    exact hends
  · obtain ⟨ls, rs, hgo⟩ := hruns (by rw [← hz]; exact hov)
    rw [hgo]
    refine ⟨rfl, hzc, by rw [← hz]; rfl, by rw [← hz]; rfl, by rw [← hz]; rfl, ?_⟩
    exact if_neg (by rw [show z.stepped.ccw = c from hzc, hfl]; decide)
end
end

end Sys2Proof.Machine

namespace Sys2Proof.Machine

/-! ## A waiting CCW is met, or its window ends (R49, R50, R52, R124) -/

section
variable {s : State} {key : Nat} {x : Slot}

theorem State.setMark_mode0 (h : ccwMode x.ccw = 0) : s.setMark x = x := if_pos h

/-- A met condition with a tempo target sets the mark of its source (R50). -/
theorem State.setMark_marks (h : ccwMode x.ccw ≠ 0) : (s.setMark x).markset = true ∧ (s.setMark x).markSrc = ccwSrc x.ccw := by
  unfold State.setMark
  dsimp only
  rw [if_neg h]
  exact ⟨rfl, rfl⟩

theorem State.setMark_at (h : ccwMode x.ccw = 1) : (s.setMark x).markPos = x.w.target.getD 0 := by
  simp [State.setMark, h]

theorem State.setMark_window (h : ccwMode x.ccw = 3) : (s.setMark x).markPos = s.pos (ccwSrc x.ccw) := by
  simp [State.setMark, h]

/-- The mark is all that changes. -/
theorem State.setMark_form (s : State) (x : Slot) : ∃ m n p, s.setMark x = { x with markset := m, markSrc := n, markPos := p } := by
  unfold State.setMark
  dsimp only
  split
  · exact ⟨x.markset, x.markSrc, x.markPos, rfl⟩
  · exact ⟨_, _, _, rfl⟩

theorem State.meet_met (s : State) (x : Slot) : (s.meet x).w.met = true ∧ (s.meet x).st = x.st := by
  obtain ⟨m, n, p, hm⟩ := s.setMark_form x
  unfold State.meet
  split
  · next h => exact ⟨h, rfl⟩
  · dsimp only
    rw [hm]
    exact ⟨rfl, rfl⟩

/-- The tick on which the condition is met sets the condition state and the mark, once. -/
theorem State.meet_first (h : x.w.met = false) :
    (ccwOp x.ccw = 0xC → (s.meet x).timeout = false) ∧ (s.meet x).markset = (s.setMark x).markset ∧
      (s.meet x).markSrc = (s.setMark x).markSrc ∧ (s.meet x).markPos = (s.setMark x).markPos := by
  unfold State.meet
  rw [if_neg (by simp [h])]
  exact ⟨fun hop => by simp [hop], rfl, rfl, rfl⟩

theorem whenMet_waits (h : ¬ ((s.slot key).st = .waiting ∧ s.engineRuns (keyEngine key) = true ∧ s.whenHolds (s.slot key) = true)) :
    whenMet s key = s := by
  apply if_pos
  simp only [Bool.or_eq_true, bne_iff_ne, Bool.not_eq_true']
  by_contra hn
  simp only [not_or, not_not, Bool.not_eq_false] at hn
  exact h ⟨hn.1.1, hn.1.2, hn.2⟩

theorem whenMet_eq (hst : (s.slot key).st = .waiting) (hr : s.engineRuns (keyEngine key) = true) (hw : s.whenHolds (s.slot key) = true) :
    whenMet s key =
      if s.mayLaunch key then
        { s.setSlot key { s.meet (s.slot key) with st := .running } with
          launched := SMap.set 0 s.launched (keyEngine key) (SMap.get 0 s.launched (keyEngine key) + 1) }
      else s.setSlot key (s.meet (s.slot key)) := by
  simp [whenMet, hst, hr, hw]

theorem State.setSlot_withLaunched (s : State) (key : Nat) (y : Slot) (m : SMap Nat) :
    let t := { s.setSlot key y with launched := m }
    t.slot key = y ∧ onlySlot { s with launched := m } t key :=
  ⟨State.slot_setSlot s key y, rfl, fun _ hj => State.slot_setSlot_other s y hj⟩

/-- A met condition starts its CCW, up to the launches of its engine on one tick (R124). -/
theorem whenMet_starts (hst : (s.slot key).st = .waiting) (hr : s.engineRuns (keyEngine key) = true) (hw : s.whenHolds (s.slot key) = true) :
    let t := whenMet s key
    onlySlot { s with launched := t.launched } t key ∧ (∃ y, t.slot key = { s.meet (s.slot key) with st := y }) ∧
      (s.mayLaunch key = true → (t.slot key).st = .running ∧
        SMap.get 0 t.launched (keyEngine key) = SMap.get 0 s.launched (keyEngine key) + 1) ∧
      (s.mayLaunch key = false → (t.slot key).st = .waiting ∧ t.launched = s.launched) := by
  intro t
  have ht : t = whenMet s key := rfl
  rw [whenMet_eq hst hr hw] at ht
  cases hl : s.mayLaunch key with
  | true =>
    rw [if_pos hl] at ht
    obtain ⟨hslot, honly⟩ := s.setSlot_withLaunched key { s.meet (s.slot key) with st := .running }
      (SMap.set 0 s.launched (keyEngine key) (SMap.get 0 s.launched (keyEngine key) + 1))
    rw [← ht] at hslot honly
    refine ⟨?_, ⟨_, hslot⟩, fun _ => ⟨by rw [hslot], ?_⟩, fun h => absurd h (by decide)⟩
    · rw [ht] at honly ⊢
      exact honly
    · have hla : t.launched = SMap.set 0 s.launched (keyEngine key) (SMap.get 0 s.launched (keyEngine key) + 1) := by rw [ht]
      rw [hla, SMap.get_set_self]
  | false =>
    rw [if_neg (by simp [hl])] at ht
    have hslot : t.slot key = s.meet (s.slot key) := by
      rw [ht]
      exact State.slot_setSlot s key _
    refine ⟨?_, ⟨_, hslot⟩, fun h => absurd h (by decide), fun _ => ⟨?_, by rw [ht]; rfl⟩⟩
    · rw [ht]
      exact ⟨rfl, fun j hj => State.slot_setSlot_other s _ hj⟩
    · rw [hslot, (s.meet_met _).2, hst]

/-- A WAIT's window ends now without its event. -/
def State.windowOver (s : State) (key : Nat) : Prop :=
  let x := s.slot key
  x.st = .waiting ∧ x.w.met = false ∧ s.engineRuns (keyEngine key) = true ∧ ccwOp x.ccw = 0xC ∧ ccwMode x.ccw = 3 ∧ ccwEvent x.ccw ≠ 0 ∧
    s.endDue x = true ∧ (s.eventHolds x = false ∨ s.endPassed x = true)

theorem windowEnd_waits (h : ¬ s.windowOver key) : windowEnd s key = s := by
  apply if_pos
  by_contra hn
  simp only [Bool.or_eq_true, Bool.and_eq_true, bne_iff_ne, beq_iff_eq, Bool.not_eq_true', not_or, not_not, not_and, Bool.not_eq_false,
    Bool.not_eq_true] at hn
  obtain ⟨⟨⟨⟨⟨⟨⟨hst, hm⟩, hr⟩, hop⟩, hmo⟩, hev⟩, hd⟩, hh⟩ := hn
  refine h ⟨hst, hm, hr, hop, hmo, hev, hd, ?_⟩
  cases he : s.eventHolds (s.slot key)
  · exact .inl rfl
  · exact .inr (by simpa using hh he)

/-- A window that ends sets TIMEOUT and the mark, and the CCW goes on (R50, R52). -/
theorem windowEnd_over (h : s.windowOver key) :
    let t := windowEnd s key
    onlySlot s t key ∧ (t.slot key).st = .running ∧ (t.slot key).timeout = true ∧ (t.slot key).w.met = true ∧
      (t.slot key).markset = true ∧ (t.slot key).markPos = s.pos (ccwSrc (s.slot key).ccw) := by
  obtain ⟨hst, hm, hr, hop, hmo, hev, hd, hh⟩ := h
  intro t
  have ht : t = windowEnd s key := rfl
  unfold windowEnd at ht
  dsimp only at ht
  rw [if_neg (by rcases hh with hh | hh <;> simp [hst, hm, hr, hop, hmo, hev, hd, hh])] at ht
  rw [ht, State.slot_setSlot]
  exact ⟨onlySlot_setSlot s key _, rfl, rfl, rfl, (State.setMark_marks (by rw [hmo]; decide)).1, State.setMark_window hmo⟩
end

/-! ## A host read is answered (R85) -/

section
variable {s : State} {key : Nat} {r : HostRead} {rest : List HostRead} {res : HostResult}

theorem hostReadCompletion_none (hr : (s.slot key).w.reads = []) : hostReadCompletion s key res = s := by
  simp [hostReadCompletion, hr]

theorem hostReadCompletion_unsent (hr : (s.slot key).w.reads = r :: rest) (hu : r.unsent = true) (hn : res ≠ .noTunnel) :
    hostReadCompletion s key res = s := by
  simp [hostReadCompletion, hr, hu, hn]

/-- The answer of a read that the operation waits for goes to its slot. -/
theorem hostReadCompletion_answers (hr : (s.slot key).w.reads = r :: rest) (hu : r.unsent = false) (hs : r.spec = false) :
    (hostReadCompletion s key res).slot key =
      { s.slot key with w := { (s.slot key).w with reads := rest, inbox := (s.slot key).w.inbox ++ [(r, res)] } } := by
  unfold hostReadCompletion
  dsimp only
  rw [hr]
  dsimp only
  rw [if_neg (by simp [hu]), if_neg (by simp [hs]), State.slot_setSlot]

/-- A speculative read that fails is dropped without effect (R84). -/
theorem hostReadCompletion_drops (hr : (s.slot key).w.reads = r :: rest) (hu : r.unsent = false) (hs : r.spec = true) (hbad : ∀ d, res ≠ .ok d) :
    (hostReadCompletion s key res).slot key = { s.slot key with w := { (s.slot key).w with reads := rest } } := by
  unfold hostReadCompletion
  dsimp only
  rw [hr]
  dsimp only
  rw [if_neg (by simp [hu]), if_pos hs]
  cases res with
  | ok d => exact absurd rfl (hbad d)
  | ur => exact State.slot_setSlot ..
  | ca => exact State.slot_setSlot ..
  | poisoned => exact State.slot_setSlot ..
  | timeout => exact State.slot_setSlot ..
  | noTunnel => exact State.slot_setSlot ..
end

/-! ## An operation ends once nothing of it is in progress (R76, R78) -/

section
variable {s : State} {key : Nat}

theorem operationEnd_stopped (h : s.engineRuns (keyEngine key) = false) : operationEnd s key = s := by
  simp [operationEnd, h]

theorem operationEnd_busy (hst : (s.slot key).st = .halting) (h : s.r76 key = false) : operationEnd s key = s := by
  simp [operationEnd, hst, h]

theorem operationEnd_open (hst : (s.slot key).st ≠ .halting) (he : (s.slot key).w.ending = none)
    (h : (s.slot key).w.lastDone = none ∨ (s.slot key).w.marks ≠ []) : operationEnd s key = s := by
  rcases h with h | h
  · simp [operationEnd, hst, he, h]
  · cases hl : (s.slot key).w.lastDone <;> simp [operationEnd, hst, he, hl, h]

variable (hr : s.engineRuns (keyEngine key) = true)
include hr

theorem operationEnd_done (hst : (s.slot key).st = .halting) (h : s.r76 key = true) : operationEnd s key = s.toPosting key := by
  simp [operationEnd, hr, hst, h]

theorem operationEnd_ended (hst : (s.slot key).st = .fetching) (he : (s.slot key).w.ending.isSome = true) :
    operationEnd s key = s.settle key := by
  simp [operationEnd, hr, hst, he]

theorem operationEnd_last {n : Nat} (hst : (s.slot key).st = .running ∨ (s.slot key).st = .fetching) (hl : (s.slot key).w.lastDone = some n)
    (hm : (s.slot key).w.marks = []) (he : (s.slot key).w.ending = none) :
    operationEnd s key = s.endOp key chkNone (s.slot key).cur n false := by
  rcases hst with hst | hst <;> simp [operationEnd, hr, hst, hl, hm, he]
end

end Sys2Proof.Machine

namespace Sys2Proof.Machine

/-! ## The statement -/

/-- The answer of a host read reaches the slot only outside REPLAY, and a timeout only when it is due (R222, R504). -/
theorem exec_hostReadCompletion {s : State} {e : EngineId} {k : SlotId} {res : HostResult} (hm : s.mode ≠ 0xA)
    (hl : res = .timeout → s.slotLate (slotKey e.val k.val) = true) :
    exec (.hostReadCompletion e k res) s = .next (hostReadCompletion s (slotKey e.val k.val) res) := by
  have hlate : ¬ ((res == .timeout && !s.slotLate (slotKey e.val k.val)) = true) := by
    simpa using hl
  exact congrArg Host.Outcome.next ((if_neg (by simpa using hm)).trans (if_neg hlate))

theorem exec_hostReadCompletion_idle {s : State} {e : EngineId} {k : SlotId} {res : HostResult}
    (h : s.mode = 0xA ∨ hostReadCompletion s (slotKey e.val k.val) res = s) : exec (.hostReadCompletion e k res) s = .next s := by
  apply congrArg Host.Outcome.next
  unfold State.fromOutside
  split
  · rfl
  · next hm =>
    dsimp only
    split
    · rfl
    · exact h.resolve_left (by simpa using hm)

/-- What a met condition leaves in its slot (R49, R50, R57, R124). -/
theorem whenMet_met {s : State} {key : Nat} (hst : (s.slot key).st = .waiting) (hr : s.engineRuns (keyEngine key) = true)
    (hw : s.whenHolds (s.slot key) = true) :
    let x := s.slot key
    let t := whenMet s key
    onlySlot { s with launched := t.launched } t key ∧ (t.slot key).w.met = true ∧
      (s.mayLaunch key = true → (t.slot key).st = .running ∧
        SMap.get 0 t.launched (keyEngine key) = SMap.get 0 s.launched (keyEngine key) + 1) ∧
      (s.mayLaunch key = false → (t.slot key).st = .waiting ∧ t.launched = s.launched) ∧
      (x.w.met = false →
        (ccwOp x.ccw = 0xC → (t.slot key).timeout = false) ∧
        (ccwMode x.ccw = 0 → (t.slot key).markset = x.markset ∧ (t.slot key).markPos = x.markPos) ∧
        (ccwMode x.ccw ≠ 0 → (t.slot key).markset = true ∧ (t.slot key).markSrc = ccwSrc x.ccw) ∧
        (ccwMode x.ccw = 1 → (t.slot key).markPos = x.w.target.getD 0) ∧
        (ccwMode x.ccw = 3 → (t.slot key).markPos = s.pos (ccwSrc x.ccw))) := by
  intro x t
  obtain ⟨honly, ⟨y, hy⟩, hgo, hwait⟩ := whenMet_starts hst hr hw
  refine ⟨honly, (congrArg (·.w.met) hy).trans (s.meet_met x).1, hgo, hwait, fun hm => ?_⟩
  obtain ⟨htime, hset, hsrc, hpos⟩ := s.meet_first hm
  rw [hy]
  dsimp only
  rw [hset, hsrc, hpos]
  refine ⟨htime, fun h0 => ?_, State.setMark_marks, State.setMark_at, State.setMark_window⟩
  rw [State.setMark_mode0 h0]
  exact ⟨rfl, rfl⟩

/-- Settles O48: the checks are made in their order, and each command that advances an operation does what its rule says. -/
theorem operationsAdvance : Obligations.OperationsAdvance := by
  unfold Obligations.OperationsAdvance
  refine ⟨fun s key x c => ?order, fun s e k => ?_⟩
  case order =>
    obtain ⟨h3, h4, h5, h6, h7, h8, h9, hok⟩ := check39_order s key x c
    exact ⟨h3, h4, h5, h6, h7, h8, h9, hok, fun v => ⟨ccwOf_leBytes v, ccwField_eq_bitsOf v (b := 0) (by decide) (by decide) (by decide),
      ccwField_eq_bitsOf v (b := 0) (by decide) (by decide) (by decide), ccwAddr_eq_extract v,
      ccwField_eq_bitsOf v (b := 32) (by decide) (by decide) (by decide), ccwField_eq_bitsOf v (b := 32) (by decide) (by decide) (by decide),
      ccwField_eq_bitsOf v (b := 32) (by decide) (by decide) (by decide), ccwField_eq_bitsOf v (b := 32) (by decide) (by decide) (by decide)⟩⟩
  intro key x clean
  refine ⟨?acquire, fun hr => congrArg Host.Outcome.next (ccwFetch_stopped hr), fun hr hst h10 ho hbad => ?record, fun hr hst h10 ho hc => ?fetch,
    ?met, fun res h => ?idle, fun r rest res hr hu hn => ?unsent, fun r rest res hm hr hu hl => ?answer, ?ending⟩
  case acquire =>
    intro first
    exact ⟨fun hf hs hd => congrArg Host.Outcome.next (stationAcquire_clean hf hs hd),
      fun hf ho hs => ⟨_, rfl, stationAcquire_record hf ho hs⟩,
      fun hf ho hs hd => ⟨_, rfl, stationAcquire_descriptor hf ho hs hd⟩,
      fun hf => congrArg Host.Outcome.next (stationAcquire_waits hf)⟩
  case record =>
    have hf : s.fetching key := ⟨hr, hst, h10, ho⟩
    obtain ⟨t, ht, hends⟩ := State.readRecord_bad hf.mayEnd hbad
    exact ⟨t, congrArg Host.Outcome.next (by rw [hf.ccwFetch, ht]), hends⟩
  case fetch =>
    have hf : s.fetching key := ⟨hr, hst, h10, ho⟩
    intro a
    obtain ⟨hmis, hrsv⟩ := hf.badAddress hc
    refine ⟨fun ha => ⟨_, rfl, hmis ha⟩, fun ha hb => ⟨_, rfl, hrsv ha hb⟩, fun ha hb => ⟨fun hh hp hl => ?_, fun c hh => ?_⟩⟩
    · obtain ⟨hprot, hdata⟩ := hf.alone hc ha hb hh hp hl
      exact ⟨fun hmay => ⟨_, rfl, hprot hmay⟩, fun hmay hpo => ⟨_, rfl, hdata hmay hpo⟩⟩
    · intro y w z go
      refine ⟨fun hsus hreq => ⟨_, rfl, hf.suspends hc ha hb hh hsus hreq⟩, fun hsus chk hk => ⟨_, rfl, hf.failsCheck hc ha hb hh hsus hk⟩,
        fun hsus hk hop hm => ?_⟩
      obtain ⟨hover, hruns⟩ := hf.nop hc ha hb hh hsus hk hop hm
      exact ⟨fun hov => ⟨_, rfl, hover hov⟩, fun hov => ⟨_, rfl, hruns hov⟩⟩
  case met =>
    intro u x e_ met
    refine ⟨fun hn => congrArg Host.Outcome.next (whenMet_waits hn), fun hmet => ⟨_, rfl, whenMet_met hmet.1 hmet.2.1 hmet.2.2⟩, ?_⟩
    intro over_
    exact ⟨fun hn => congrArg Host.Outcome.next (windowEnd_waits hn), fun hov => ⟨_, rfl, windowEnd_over hov⟩⟩
  case idle => exact exec_hostReadCompletion_idle (h.imp_right hostReadCompletion_none)
  case unsent => exact exec_hostReadCompletion_idle (.inr (hostReadCompletion_unsent hr hu hn))
  case answer =>
    rw [exec_hostReadCompletion hm hl]
    refine ⟨fun hs => ⟨_, rfl, ?_⟩, fun hs hbad => ⟨_, rfl, hostReadCompletion_drops hr hu hs hbad⟩⟩
    rw [hostReadCompletion_answers hr hu hs]
    exact ⟨rfl, rfl, rfl⟩
  case ending =>
    intro runs done go
    refine ⟨fun hr => congrArg Host.Outcome.next (operationEnd_stopped (by simpa [runs] using hr)),
      fun hst h => congrArg Host.Outcome.next (operationEnd_busy hst h), fun hst he h => congrArg Host.Outcome.next (operationEnd_open hst he h),
      fun hr hst he hf => ⟨_, rfl, ?_⟩, fun n hr hst hl hm he hf => ⟨_, rfl, ?_⟩, fun hr hd hf => ⟨_, rfl, ?_⟩,
      fun hr hd hf => ⟨_, rfl, ?_⟩⟩
    · obtain ⟨hend, -, -, hen, -⟩ := State.settle_slot hr hf
      rw [operationEnd_ended hr hst he]
      exact ⟨hend, hen⟩
    · have hmay : s.mayEnd key := State.mayEnd_of_st hr (.inr hst.symm) he hf
      rw [operationEnd_last hr hst hl hm he]
      exact State.endOp_normal hmay _ _ _
    · rw [operationEnd_done hr hd.1 hd.2]
      exact State.toPosting_fnReset hf
    · obtain ⟨hst, -, hhold, hfinal⟩ := State.toPosting_slot hf
      rw [operationEnd_done hr hd.1 hd.2]
      exact ⟨hst, hfinal, hhold, (onlyOp_toPosting s key).2⟩

end Sys2Proof.Machine

namespace Sys2Proof.Machine

/-! # Requests that stop and start operations (R92 to R97) -/

/-! ## What a station's return to its initial state leaves (R94, R297) -/

theorem State.lane_actionFree (s : State) (l k : Nat) : (s.actionFree l).lane k = s.lane k := by
  unfold State.actionFree
  split <;> rfl

theorem State.fifo_actionFree (s : State) (l q : Nat) : (s.actionFree l).fifo q = s.fifo q := by
  unfold State.actionFree
  split <;> rfl

theorem State.driveLane_form (s : State) (l : Nat) (d : Drive) : s.driveLane l d = { s with lanes := (s.driveLane l d).lanes } := by
  unfold State.driveLane
  dsimp only
  split <;> rfl

/-- A flush empties its FIFO; beside it only the level of RTS may change (R94, R314). -/
theorem State.flushFifo_fifo (s : State) (q : Nat) :
    ((s.flushFifo q).fifo q).words = [] ∧ ∀ p, p ≠ q → (s.flushFifo q).fifo p = s.fifo p := by
  unfold State.flushFifo
  extract_lets t
  have hrts : ∀ p, (if q % 2 = 0 then t.rts (q / 2) else t).fifo p = t.fifo p := by
    intro p
    split
    · unfold State.rts
      split
      · rw [State.driveLane_form]
        rfl
      · rfl
    · rfl
  refine ⟨?_, fun p hp => ?_⟩
  · rw [hrts, State.fifo_setFifo]
  · rw [hrts]
    exact State.fifo_setFifo_other s _ hp

/-- The station's lane carries no transfer, its FIFOs hold no words, and its attention latch is clear. -/
structure State.returned (t : State) (st l : Nat) : Prop where
  xfer : (t.lane l).xfer = none
  inbound : (t.fifo (2 * l)).words = []
  outbound : (t.fifo (2 * l + 1)).words = []
  latch : (t.station st).latch = false

theorem State.stationInitial_returned (s : State) (st : Nat) : (s.stationInitial st).returned st (s.staLane st) := by
  unfold State.stationInitial
  extract_lets l s1 s2 y s3
  have hin : (s2.fifo (2 * l)).words = [] := by
    rw [(State.flushFifo_fifo (s1.flushFifo (2 * l)) (2 * l + 1)).2 _ (by omega)]
    exact (State.flushFifo_fifo s1 (2 * l)).1
  have hout : (s2.fifo (2 * l + 1)).words = [] := (State.flushFifo_fifo _ _).1
  have hx3 : (s3.lane l).xfer = none := by rw [State.lane_actionFree, State.lane_setLane]
  have hf3 : ∀ q, s3.fifo q = s2.fifo q := fun q => State.fifo_actionFree _ l q
  clear_value s3 s2
  refine ⟨hx3, ?_, ?_, by rw [State.station_setStation]; rfl⟩
  · exact (congrArg Fifo.words (hf3 _)).trans hin
  · exact (congrArg Fifo.words (hf3 _)).trans hout

theorem onlyPort.staLane {s t : State} (h : onlyPort s t) (n : Nat) : t.staLane n = s.staLane n := by
  rw [State.staLane, h.2.1]
  rfl

/-- The handling of R94 ends with the station in its initial state. -/
theorem State.stationClear_returned (s : State) (st key : Nat) : (s.stationClear st key).returned st (s.staLane st) := by
  unfold State.stationClear
  extract_lets s1 s2
  have h : onlyPort s s2 :=
    ((onlyPort_cutLaunches s key).trans (onlyPort_busStop _ _)).trans (onlyPort_foldl onlyPort_laneToSafe _ _)
  rw [← h.staLane st]
  exact State.stationInitial_returned s2 st

theorem State.busStop_xfer (s : State) (l k : Nat) : ((s.busStop l).lane k).xfer = (s.lane k).xfer := by
  unfold State.busStop
  split
  · rw [State.emit_form]
    change ((s.setLane l _).lane k).xfer = _
    by_cases hk : k = l
    · rw [hk, State.lane_setLane]
    · rw [State.lane_setLane_other s _ hk]
  · rfl

theorem State.settle_xfer (s : State) (key k : Nat) : ((s.settle key).lane k).xfer = (s.lane k).xfer := by
  have hbus : ∀ (b : Bool) (l : Nat), ((if b then s.busStop l else s).lane k).xfer = (s.lane k).xfer := by
    intro b l
    cases b
    · rfl
    · exact s.busStop_xfer l k
  unfold State.settle
  split
  · rfl
  · split
    · unfold State.toPosting
      dsimp only
      split
      · exact hbus _ _
      · exact hbus _ _
    · rfl

theorem State.returned.settle {s : State} {st l : Nat} (h : s.returned st l) (key : Nat) : (s.settle key).returned st l := by
  have hf : (s.settle key).fifos = s.fifos := by rw [(onlyOp_settle s key).1]
  have hs : (s.settle key).stations = s.stations := by rw [(onlyOp_settle s key).1]
  refine ⟨(s.settle_xfer key l).trans h.xfer, ?_, ?_, ?_⟩
  · rw [State.fifo, hf]
    exact h.inbound
  · rw [State.fifo, hf]
    exact h.outbound
  · rw [State.station, hs]
    exact h.latch

/-- The slot of an operation that is ended, an ending fixed before being kept (R121). -/
def Slot.stopped (x : Slot) (c : Check) (last : Quad) (residual : Nat) (clear : Bool) : Slot :=
  if x.w.ending.isSome then { x with w := { x.w with cleared := x.w.cleared || clear, haltRuns := false } } else x.fixed c last residual clear

/-- What ends a live operation comes to: its status, its station, and POSTING or HALTING, but a slot that holds an intermediate
completion waits for that first (R78, R86, R94). -/
theorem State.endOp_stops {s : State} {key : Nat} (hl : (s.slot key).over = false) (hr : s.engineRuns (keyEngine key) = true) (c : Check)
    (last : Quad) (residual : Nat) (clear : Bool) :
    s.endOp key c last residual clear =
      let u := (s.setSlot key ((s.slot key).stopped c last residual clear)).stationEnds key c clear
      if (s.slot key).midHeld && !(s.slot key).w.fnReset then u else u.settle key := by
  simp only [State.endOp, hl, hr, Bool.not_true, Bool.or_self, Bool.false_eq_true, if_false, State.stationEnds, State.slot_setSlot]
  cases he : (s.slot key).w.ending with
  | none => simp [Slot.stopped, Slot.fixed, he]
  | some y => simp [Slot.stopped, he]

theorem Slot.stopped_station (x : Slot) (c : Check) (last : Quad) (residual : Nat) (clear : Bool) :
    (x.stopped c last residual clear).station = x.station ∧ (x.stopped c last residual clear).w.holding = x.w.holding := by
  unfold Slot.stopped
  split <;> exact ⟨rfl, rfl⟩

/-- Handling a station that the slot holds returns it. -/
theorem State.stationEnds_returned (s : State) (key : Nat) (c : Check) (h : (s.slot key).w.holding = true) :
    (s.stationEnds key c true).returned (s.slot key).station (s.staLane (s.slot key).station) := by
  unfold State.stationEnds
  extract_lets x y t
  have ht : onlyPort s t := onlyPort_ite (onlyPort_setStation s _ rfl) (onlyPort.refl s)
  rw [if_pos (by simpa using h), ← ht.staLane]
  exact t.stationClear_returned _ key

/-- An ending under R94 returns the station that its slot holds. -/
theorem State.endOp_returned {s : State} {key : Nat} (hl : (s.slot key).over = false) (hr : s.engineRuns (keyEngine key) = true)
    (hh : (s.slot key).w.holding = true) (c : Check) (last : Quad) (residual : Nat) :
    (s.endOp key c last residual true).returned (s.slot key).station (s.staLane (s.slot key).station) := by
  rw [State.endOp_stops hl hr]
  dsimp only
  obtain ⟨hst, hho⟩ := (s.slot key).stopped_station c last residual true
  generalize ht : s.setSlot key ((s.slot key).stopped c last residual true) = t
  have hslot : t.slot key = (s.slot key).stopped c last residual true := ht ▸ State.slot_setSlot s key _
  have hret : (t.stationEnds key c true).returned (s.slot key).station (s.staLane (s.slot key).station) := by
    have := t.stationEnds_returned key c (by rw [hslot, hho, hh])
    rw [hslot, hst] at this
    rw [← ht] at this ⊢
    exact this
  split
  · exact hret
  · exact hret.settle key

/-- No ending moves a station to another lane. -/
theorem State.endOp_staLane (s : State) (key : Nat) (c : Check) (last : Quad) (residual : Nat) (clear : Bool) (n : Nat) :
    (s.endOp key c last residual clear).staLane n = s.staLane n := by
  by_cases h : (s.slot key).over = false ∧ s.engineRuns (keyEngine key) = true
  · rw [State.endOp_stops h.1 h.2]
    dsimp only
    generalize hu : (s.setSlot key ((s.slot key).stopped c last residual clear)).stationEnds key c clear = u
    have hsu : u.staLane n = s.staLane n := hu ▸ (onlyPort_stationEnds _ key c clear).staLane n
    split
    · exact hsu
    · rw [(onlyOp_settle u key).1]
      exact hsu
  · have ht : s.endOp key c last residual clear = s := by
      unfold State.endOp
      extract_lets x
      refine if_pos ?_
      have : ¬ (x.over = false ∧ s.engineRuns (keyEngine key) = true) := h
      revert this
      cases x.over <;> cases s.engineRuns (keyEngine key) <;> simp
    rw [ht]

end Sys2Proof.Machine

namespace Sys2Proof.Machine

/-! ## Requests (R92 to R97) -/

section
variable {s : State} {key : Nat}

/-- A request ends an open operation with UNIT_EXCEPTION and the bytes that its CCW has not moved (R86, R93). -/
theorem State.endOnRequest_ends (h : s.mayEnd key) (clear : Bool) :
    opEnds s (s.endOnRequest key clear) key chkException (if (s.slot key).st = .admitted then 0#64 else (s.slot key).cur)
      (s.slot key).haltResidue :=
  (State.endOp_ends (s := s.stopKernel key) (h.of_fate rfl rfl) rfl _ _ _).of_cstat rfl

theorem onlyOp.shapeQ {s t : State} {key : Nat} (h : onlyOp s t key) : t.shapeQ = s.shapeQ := by rw [h.1]

/-- Ended without R94, the operation has no SHAPE request left (R273). -/
theorem State.endOnRequest_shapeQ (h : s.mayEnd key) : ∀ r ∈ (s.endOnRequest key false).shapeQ, r.key ≠ key := by
  have hq : (s.endOnRequest key false).shapeQ = (s.stopKernel key).shapeQ :=
    (onlyOp_endOp (s := s.stopKernel key) (h.of_fate rfl rfl) (c := chkException) rfl _ _).shapeQ
  intro r hr
  rw [hq] at hr
  simpa using (List.mem_filter.1 hr).2

/-- A slot whose operation is open and has not been captured may be ended. -/
theorem State.mayEnd_of_open (hr : s.engineRuns (keyEngine key) = true)
    (hst : (s.slot key).st ≠ .idle ∧ (s.slot key).st ≠ .posting ∧ (s.slot key).st ≠ .postHeld) (ho : (s.slot key).openEnd) : s.mayEnd key := by
  obtain ⟨hi, hp, hh⟩ := hst
  refine ⟨hr, ?_, ?_, ho.1, ho.2.1⟩
  · simp [Slot.over, hi, hp, hh]
  · simp [Slot.midHeld, hh]

/-- The request n was delivered to the slot, whose engine runs (R92, R102). -/
def State.got (s : State) (key n : Nat) : Prop := n ∈ (s.slot key).w.deliv ∧ s.engineRuns (keyEngine key) = true

theorem State.got_iff (n : Nat) :
    s.got key n ↔ ¬ ((!(s.slot key).w.deliv.contains n || !s.engineRuns (keyEngine key)) = true) := by
  simp [State.got]

/-- The slot without the request that takes effect. -/
def State.taking (s : State) (key n : Nat) : State := s.setSlot key ((s.slot key).undeliver n)

theorem State.mayEnd.taking (h : s.mayEnd key) (n : Nat) : (s.taking key n).mayEnd key := h.of_setSlot rfl

/-- The ending on request of a slot that has taken the request. -/
theorem State.taking_ends (h : s.mayEnd key) (n : Nat) (clear : Bool) :
    opEnds s ((s.taking key n).endOnRequest key clear) key chkException
      (if (s.slot key).st = .admitted then 0#64 else (s.slot key).cur) (s.slot key).haltResidue := by
  have hx : (s.taking key n).slot key = (s.slot key).undeliver n := State.slot_setSlot s key _
  have he := State.endOnRequest_ends (h.taking n) clear
  rw [hx] at he
  exact he.of_cstat (by rw [hx]; rfl)

/-- The slot has not reached a transfer; a suspended one has nothing in progress (R93). -/
def State.early (s : State) (key : Nat) : Prop :=
  let x := s.slot key
  x.st = .admitted ∨ x.st = .fetching ∨ x.st = .waiting ∨ (x.st = .suspended ∧ s.r76 key = true)

theorem State.early.live (h : s.early key) : (s.slot key).st ≠ .idle ∧ (s.slot key).st ≠ .posting ∧ (s.slot key).st ≠ .postHeld := by
  rcases h with h | h | h | ⟨h, -⟩ <;> simp [h]

/-! ### HALT and CLEAR -/

theorem haltSlot_idle (h : ¬ s.got key 2) : haltSlot s key = s := by
  rw [State.got_iff, not_not] at h
  exact if_pos h

theorem clearSlot_idle (h : ¬ s.got key 3) : clearSlot s key = s := by
  rw [State.got_iff, not_not] at h
  exact if_pos h

theorem haltSlot_suspended (hst : (s.slot key).st = .suspended) (h : s.r76 key = false) : haltSlot s key = s := by
  unfold haltSlot
  simp [hst, h]

theorem clearSlot_suspended (hst : (s.slot key).st = .suspended) (h : s.r76 key = false) : clearSlot s key = s := by
  unfold clearSlot
  simp [hst, h]

/-- A HALT before a transfer ends the operation (R93). -/
theorem haltSlot_early (hg : s.got key 2) (ho : (s.slot key).openEnd) (he : s.early key) :
    haltSlot s key = (s.taking key 2).endOnRequest key false := by
  rw [State.got_iff] at hg
  obtain ⟨-, -, -, hl⟩ := ho
  unfold haltSlot
  dsimp only
  rw [if_neg hg]
  rcases he with h | h | h | ⟨h, hq⟩
  · rw [h]
    rfl
  · rw [h, hl]
    rfl
  · rw [h]
    rfl
  · rw [h, hq]
    rfl

/-- A CCW between transfers, or one that neither moves data nor is run to its end, ends at once (R93). -/
theorem haltSlot_running (hg : s.got key 2) (ho : (s.slot key).openEnd) (hst : (s.slot key).st = .running)
    (hop : (s.slot key).w.ccwDone = true ∨ ccwOp (s.slot key).ccw ∈ [8, 9, 10, 0xC, 0xD, 0x10, 0x19, 0x1A, 0x1F]) :
    haltSlot s key = (s.taking key 2).endOnRequest key false := by
  rw [State.got_iff] at hg
  obtain ⟨-, -, -, hl⟩ := ho
  unfold haltSlot
  dsimp only
  rw [if_neg hg, hst]
  dsimp only
  rw [if_neg (by simp [hl])]
  by_cases hd : (s.slot key).w.ccwDone = true
  · rw [if_pos hd]
    rfl
  · rw [if_neg hd]
    have hmem := hop.resolve_left hd
    have hkind : runsOn (ccwOp (s.slot key).ccw) = false ∧
        ((s.classOf (s.slot key).station (ccwOp (s.slot key).ccw)).data || isStationOp (ccwOp (s.slot key).ccw)) = false := by
      simp only [List.mem_cons, List.not_mem_nil, or_false] at hmem
      rcases hmem with h | h | h | h | h | h | h | h | h <;> rw [h] <;> exact ⟨rfl, rfl⟩
    rw [if_neg (by simp [hkind.1]), if_neg (by simp [hkind.2])]
    rfl

/-- A CLEAR ends the operation, and cuts its transfer (R94). -/
theorem clearSlot_ends (hg : s.got key 3) (he : s.early key ∨ (s.slot key).st = .running) :
    ∃ b, clearSlot s key = (s.taking key 3).endOnRequest key b ∧
      ((s.slot key).st = .fetching ∨ (s.slot key).st = .waiting ∨ (s.slot key).st = .running → b = true) := by
  rw [State.got_iff] at hg
  unfold clearSlot
  dsimp only
  rw [if_neg hg]
  rcases he with (h | h | h | ⟨h, hq⟩) | h
  · rw [h]
    exact ⟨false, rfl, by simp⟩
  · rw [h]
    exact ⟨true, rfl, fun _ => rfl⟩
  · rw [h]
    exact ⟨true, rfl, fun _ => rfl⟩
  · rw [h, hq]
    exact ⟨false, rfl, by simp⟩
  · rw [h]
    exact ⟨true, rfl, fun _ => rfl⟩

/-- The station of an operation that a CLEAR cuts is back in its initial state. -/
theorem State.taking_returned (h : s.mayEnd key) (hh : (s.slot key).w.holding = true) (n : Nat) :
    ((s.taking key n).endOnRequest key true).returned (s.slot key).station (s.staLane (s.slot key).station) ∧
      ((s.taking key n).endOnRequest key true).staLane (s.slot key).station = s.staLane (s.slot key).station := by
  have hx : ((s.taking key n).stopKernel key).slot key = (s.slot key).undeliver n := State.slot_setSlot s key _
  have hret := State.endOp_returned (s := (s.taking key n).stopKernel key) (key := key) (by rw [hx]; exact h.live) h.runs
    (by rw [hx]; exact hh) chkException (if ((s.taking key n).slot key).st = .admitted then 0#64 else ((s.taking key n).slot key).cur)
    ((s.taking key n).slot key).haltResidue
  rw [hx] at hret
  exact ⟨hret, State.endOp_staLane _ _ _ _ _ _ _⟩

/-! ### A CLEAR that finds the slot in HALTING (R95) -/

/-- The slot whose normal ending becomes UNIT_EXCEPTION. -/
def Slot.turned (x : Slot) : Slot :=
  { x with
    ustat := (x.ustat &&& 0xFFFFFFFE#32) ||| 4#32
    w := { x.w with ending := x.w.ending.map (fun e => { e with residual := x.haltResidue, normal := false }), cleared := true } }

/-- What leaves in the slot's status: its own bits, and ATTENTION where the station's latch is set (R86, R189). -/
theorem State.settle_ustat (s : State) (key : Nat) (hr : s.engineRuns (keyEngine key) = true) (hf : (s.slot key).w.fnReset = false) :
    ∃ b, ((s.settle key).slot key).ustat = (s.slot key).ustat ||| bitWord 3 b := by
  have hzero : (s.slot key).ustat = (s.slot key).ustat ||| bitWord 3 false := or_zero_word _
  unfold State.settle
  rw [if_neg (by simp [hr])]
  split
  · unfold State.toPosting
    extract_lets x t e
    rw [if_neg (by simp [x, hf]), State.slot_setSlot]
    exact ⟨_, rfl⟩
  · rw [State.slot_setSlot]
    exact ⟨false, hzero⟩

theorem bits_turned (u : Word) (b : Bool) :
    bit (((u &&& 0xFFFFFFFE#32) ||| 4#32) ||| bitWord 3 b) 2 = true ∧ bit (((u &&& 0xFFFFFFFE#32) ||| 4#32) ||| bitWord 3 b) 0 = false := by
  cases b <;> simp [bit, bitWord]

theorem State.clearHalting_normal {y : Ending} (hy : (s.slot key).w.ending = some y) (hn : y.normal = true) :
    s.clearHalting key =
      (if (s.slot key).w.holding then (s.setSlot key (s.slot key).turned).stationClear (s.slot key).station key
        else s.setSlot key (s.slot key).turned).settle key := by
  simp only [State.clearHalting, Slot.turned, hy, hn, Bool.true_or, if_true]

theorem clearSlot_halting (hg : s.got key 3) (hst : (s.slot key).st = .halting) (hf : (s.slot key).w.fnReset = false) {y : Ending}
    (hy : (s.slot key).w.ending = some y) (hn : y.normal = true) :
    let t := clearSlot s key
    ((t.slot key).st = .posting ∨ (t.slot key).st = .halting) ∧ bit (t.slot key).ustat 2 = true ∧ bit (t.slot key).ustat 0 = false ∧
      (t.slot key).w.ending = some { lastCcw := y.lastCcw, residual := (s.slot key).haltResidue, normal := false } := by
  have hr := hg.2
  rw [State.got_iff] at hg
  generalize hu : (s.taking key 3).setSlot key ((s.slot key).undeliver 3).turned = u
  have hux : u.slot key = ((s.slot key).undeliver 3).turned := hu ▸ State.slot_setSlot _ key _
  have ht : clearSlot s key =
      (if (s.slot key).w.holding then u.stationClear (s.slot key).station key else u).settle key := by
    have hx : (s.taking key 3).slot key = (s.slot key).undeliver 3 := State.slot_setSlot s key _
    have hc := State.clearHalting_normal (s := s.taking key 3) (key := key) (by rw [hx]; exact hy) hn
    rw [hx, hu] at hc
    rw [← show _ = (if (s.slot key).w.holding then u.stationClear (s.slot key).station key else u).settle key from hc]
    unfold clearSlot
    dsimp only
    rw [if_neg hg, hst]
    rfl
  generalize hv : (if (s.slot key).w.holding then u.stationClear (s.slot key).station key else u) = v at ht
  have hp : onlyPort u v := hv ▸ onlyPort_ite (onlyPort_stationClear u _ key) (onlyPort.refl u)
  have hvx := hp.2.2 key
  have hvf : (v.slot key).w.fnReset = false := by
    rw [Slot.read_untimed hvx (·.w.fnReset), hux]
    exact hf
  have hvr : v.engineRuns (keyEngine key) = true := by
    rw [hp.engineRuns, ← hu]
    exact hr
  obtain ⟨hend, -, -, hen, -⟩ := State.settle_slot hvr hvf
  obtain ⟨b, hus⟩ := v.settle_ustat key hvr hvf
  rw [Slot.read_untimed hvx (·.ustat), hux] at hus
  rw [Slot.read_untimed hvx (·.w.ending), hux] at hen
  dsimp only
  rw [ht]
  obtain ⟨h2, h0⟩ := bits_turned (s.slot key).ustat b
  refine ⟨hend, ?_, ?_, ?_⟩
  · rw [hus]
    exact h2
  · rw [hus]
    exact h0
  · rw [hen]
    change (s.slot key).w.ending.map _ = _
    rw [hy]
    rfl

/-! ### SUSPEND and RESUME (R96, R97) -/

theorem suspendSlot_idle (h : ¬ s.got key 4) : suspendSlot s key = s := by
  rw [State.got_iff, not_not] at h
  exact if_pos h

theorem resumeSlot_idle (h : ¬ s.got key 5) : resumeSlot s key = s := by
  rw [State.got_iff, not_not] at h
  exact if_pos h

theorem suspendSlot_got (h : s.got key 4) :
    suspendSlot s key = s.setSlot key (if (s.slot key).st = .suspended ∨ (s.slot key).st = .posting ∨ (s.slot key).st = .postHeld ∨
      (s.slot key).st = .halting then (s.slot key).undeliver 4 else { (s.slot key).undeliver 4 with susreq := true }) := by
  rw [State.got_iff] at h
  exact if_neg h

theorem resumeSlot_got (h : s.got key 5) :
    resumeSlot s key = s.setSlot key (if (s.slot key).st = .suspended then
      { (s.slot key).undeliver 5 with st := .fetching, remain := 0, w := { ((s.slot key).undeliver 5).w.dropLines with snapped := false } }
      else { (s.slot key).undeliver 5 with susreq := false }) := by
  rw [State.got_iff] at h
  exact if_neg h
end

/-! ## The statement -/

/-- Settles O52: a request that was not delivered does nothing; a delivered one ends, suspends or resumes as its rule says. -/
theorem requestsStopAndStartOperations : Obligations.RequestsStopAndStartOperations := by
  unfold Obligations.RequestsStopAndStartOperations
  intro s e k key x early last got
  refine ⟨fun h => congrArg Host.Outcome.next (haltSlot_idle h), fun h => congrArg Host.Outcome.next (clearSlot_idle h),
    fun h => congrArg Host.Outcome.next (suspendSlot_idle h), fun h => congrArg Host.Outcome.next (resumeSlot_idle h),
    fun hst hq => ⟨congrArg Host.Outcome.next (haltSlot_suspended hst hq), congrArg Host.Outcome.next (clearSlot_suspended hst hq)⟩,
    ?halt, ?running, ?clear, ?halting, ?suspendKept, ?suspend, ?resumeOpen, ?resume⟩
  case halt =>
    intro hg ho he
    refine ⟨_, rfl, ?_⟩
    rw [haltSlot_early hg ho he]
    exact State.taking_ends (State.mayEnd_of_open hg.2 (State.early.live he) ho) 2 false
  case running =>
    intro hg ho hst hop
    have hmay : s.mayEnd key := State.mayEnd_of_running hg.2 hst ho.1 ho.2.1
    have hends := State.taking_ends hmay 2 false
    rw [if_neg (by rw [hst]; decide)] at hends
    refine ⟨_, rfl, ?_⟩
    rw [haltSlot_running hg ho hst hop]
    exact ⟨hends, State.endOnRequest_shapeQ (hmay.taking 2)⟩
  case clear =>
    intro hg ho he
    have hlive : x.st ≠ .idle ∧ x.st ≠ .posting ∧ x.st ≠ .postHeld := by
      rcases he with he | he
      · exact State.early.live he
      · simp [he]
    have hmay : s.mayEnd key := State.mayEnd_of_open hg.2 hlive ho
    obtain ⟨b, ht, hb⟩ := clearSlot_ends hg he
    refine ⟨_, rfl, ?_⟩
    rw [ht]
    refine ⟨State.taking_ends hmay 3 b, fun hh hst => ?_⟩
    obtain ⟨⟨hxf, hin, hout, hla⟩, hlane⟩ := State.taking_returned hmay hh 3
    rw [hb hst]
    rw [hlane]
    exact ⟨hxf, hin, hout, hla⟩
  case halting =>
    intro y hg hst hf hy hn
    exact ⟨_, rfl, clearSlot_halting hg hst hf hy hn⟩
  case suspendKept =>
    intro hg hst
    exact congrArg Host.Outcome.next ((suspendSlot_got hg).trans (by rw [if_pos hst]))
  case suspend =>
    intro hg h1 h2 h3 h4
    refine congrArg Host.Outcome.next ((suspendSlot_got hg).trans ?_)
    rw [if_neg (by rintro (h | h | h | h); exacts [h1 h, h2 h, h3 h, h4 h])]
  case resumeOpen =>
    intro hg hst
    exact congrArg Host.Outcome.next ((resumeSlot_got hg).trans (by rw [if_neg hst]))
  case resume =>
    intro hg hst
    refine ⟨_, rfl, ?_⟩
    rw [resumeSlot_got hg, if_pos hst, State.slot_setSlot]
    exact ⟨onlySlot_setSlot s key _, rfl, rfl, rfl, rfl, rfl, rfl⟩

end Sys2Proof.Machine

namespace Sys2Proof.Machine

/-! # Timers, claims and lockstep (R93, R98, R99, R102, R121, R127, R222) -/

/-! ## Endings that timers and claims make -/

theorem onlyOp.stopped {s t : State} {key : Nat} (h : onlyOp s t key) : t.stopped = s.stopped := by rw [h.1]

theorem onlyPort.stopped {s t : State} (h : onlyPort s t) : t.stopped = s.stopped := by
  obtain ⟨_, _, _, _, _, _, rfl⟩ := h.form
  rfl

section
variable {s : State} {key : Nat}

/-- The slot of an operation whose station is handled, but which does not leave yet. -/
theorem State.stationEnds_slot (x : Slot) (c : Check) (clear : Bool) :
    (((s.setSlot key x).stationEnds key c clear).slot key).untimed = x.untimed := by
  rw [(onlyPort_stationEnds _ key c clear).2.2, State.slot_setSlot]

/-- An operation whose ending is fixed leaves with it (R121). -/
theorem State.endOp_kept (hl : (s.slot key).over = false) (hr : s.engineRuns (keyEngine key) = true) (hm : (s.slot key).midHeld = false)
    (hf : (s.slot key).w.fnReset = false) {y : Ending} (hy : (s.slot key).w.ending = some y) (c : Check) (last : Quad) (residual : Nat)
    (clear : Bool) :
    let z := (s.endOp key c last residual clear).slot key
    (z.st = .posting ∨ z.st = .halting) ∧ z.cstat = (s.slot key).cstat ∧ z.w.ending = some y := by
  rw [State.endOp_stops hl hr]
  dsimp only
  have hx : (s.slot key).stopped c last residual clear =
      { s.slot key with w := { (s.slot key).w with cleared := (s.slot key).w.cleared || clear, haltRuns := false } } := by
    simp [Slot.stopped, hy]
  rw [if_neg (by simp [hm]), hx]
  have hu := State.stationEnds_slot (s := s) (key := key)
    { s.slot key with w := { (s.slot key).w with cleared := (s.slot key).w.cleared || clear, haltRuns := false } } c clear
  have hp := onlyPort_stationEnds
    (s.setSlot key { s.slot key with w := { (s.slot key).w with cleared := (s.slot key).w.cleared || clear, haltRuns := false } }) key c clear
  generalize State.stationEnds _ key c clear = u at hu hp
  have hru : u.engineRuns (keyEngine key) = true := by
    rw [hp.engineRuns]
    exact hr
  obtain ⟨hst, hcs, -, hen, -⟩ := State.settle_slot hru ((Slot.read_untimed hu (·.w.fnReset)).trans hf)
  exact ⟨hst, hcs.trans (Slot.read_untimed hu (·.cstat)), hen.trans ((Slot.read_untimed hu (·.w.ending)).trans hy)⟩

/-- An ending changes no slot but its own, beside the counts of response timers, and stops no engine. -/
theorem State.endOp_others (s : State) (key : Nat) (c : Check) (last : Quad) (residual : Nat) (clear : Bool) :
    (s.endOp key c last residual clear).stopped = s.stopped ∧
      ∀ k, k ≠ key → ((s.endOp key c last residual clear).slot k).untimed = (s.slot k).untimed := by
  by_cases h : (s.slot key).over || !s.engineRuns (keyEngine key)
  · have ht : s.endOp key c last residual clear = s := if_pos h
    rw [ht]
    exact ⟨rfl, fun _ _ => rfl⟩
  · simp only [Bool.or_eq_true, Bool.not_eq_true', not_or, Bool.not_eq_true, Bool.not_eq_false] at h
    rw [State.endOp_stops h.1 h.2]
    dsimp only
    have hp := onlyPort_stationEnds (s.setSlot key ((s.slot key).stopped c last residual clear)) key c clear
    generalize State.stationEnds _ key c clear = u at hp
    have hu : ∀ k, k ≠ key → (u.slot k).untimed = (s.slot k).untimed := fun k hk => by
      rw [hp.2.2, State.slot_setSlot_other s _ hk]
    split
    · exact ⟨hp.stopped, hu⟩
    · exact ⟨(onlyOp_settle u key).stopped.trans hp.stopped, fun k hk => by rw [(onlyOp_settle u key).2 k hk]; exact hu k hk⟩

/-- A station that its slot holds and that is returned has no transfer on its lane, and empty FIFOs. -/
def State.cleared (s t : State) (key : Nat) : Prop :=
  let x := s.slot key
  x.w.holding = true → (t.lane (t.staLane x.station)).xfer = none ∧ (t.fifo (2 * s.staLane x.station)).words = [] ∧
    (t.fifo (2 * s.staLane x.station + 1)).words = []

/-- An ending under R94 clears the station, from a state in which the operation and its station are as they were. -/
theorem State.endOp_cleared {u : State} (hl : (u.slot key).over = false) (hr : u.engineRuns (keyEngine key) = true)
    (hh : (u.slot key).w.holding = (s.slot key).w.holding) (hs : (u.slot key).station = (s.slot key).station)
    (hla : ∀ n, u.staLane n = s.staLane n) (c : Check) (last : Quad) (residual : Nat) :
    s.cleared (u.endOp key c last residual true) key := by
  intro hho
  obtain ⟨hx, hin, hout, -⟩ := State.endOp_returned hl hr (hh.trans hho) c last residual
  rw [hs, hla] at hx hin hout
  rw [State.endOp_staLane, hla]
  exact ⟨hx, hin, hout⟩

/-! ### The stop boundary and the response timer (R93, R99) -/

/-- The stop boundary of a halted transfer has not come in its time. -/
def State.boundaryDue (s : State) (key : Nat) : Prop :=
  let x := s.slot key
  x.st = .halting ∧ s.engineRuns (keyEngine key) = true ∧ (s.xferOf x.station key).isSome ∧ ∃ b, x.w.timerFrom = some b ∧ b + 240000 ≤ s.time

theorem stopBoundaryTimeout_waits (h : ¬ s.boundaryDue key) : stopBoundaryTimeout s key = s := by
  unfold stopBoundaryTimeout
  dsimp only
  split
  · next b hb =>
    refine if_neg fun hd => h ?_
    simp only [Bool.and_eq_true, beq_iff_eq, decide_eq_true_eq] at hd
    obtain ⟨⟨⟨hst, hr⟩, hx⟩, ht⟩ := hd
    exact ⟨hst, hr, hx, b, hb, ht⟩
  · rfl

theorem stopBoundaryTimeout_due (h : s.boundaryDue key) (hf : (s.slot key).w.fnReset = false) {y : Ending}
    (hy : (s.slot key).w.ending = some y) :
    let t := stopBoundaryTimeout s key
    s.cleared t key ∧ ((t.slot key).st = .posting ∨ (t.slot key).st = .halting) ∧ (t.slot key).cstat = (s.slot key).cstat ∧
      (t.slot key).w.ending = some { y with residual := (s.slot key).haltResidue } := by
  obtain ⟨hst, hr, hx, b, hb, ht⟩ := h
  unfold stopBoundaryTimeout
  dsimp only
  rw [hb]
  dsimp only
  rw [if_pos (by simp [hst, hr, hx, ht]), hy]
  generalize hu : s.setSlot key _ = u
  have hux : u.slot key = { s.slot key with w := { (s.slot key).w with
      timerFrom := none, ending := some { y with residual := (s.slot key).haltResidue } } } := hu ▸ State.slot_setSlot s key _
  have hl : (u.slot key).over = false ∧ (u.slot key).midHeld = false := by simp [hux, Slot.over, Slot.midHeld, hst]
  have hru : u.engineRuns (keyEngine key) = true := by
    rw [← hu]
    exact hr
  obtain ⟨hend, hcs, hen⟩ := State.endOp_kept hl.1 hru hl.2 (by rw [hux]; exact hf) (y := { y with residual := (s.slot key).haltResidue })
    (by rw [hux]) chkNone (s.slot key).cur 0 true
  refine ⟨State.endOp_cleared hl.1 hru (by rw [hux]) (by rw [hux]) (fun n => by rw [← hu]; rfl) _ _ _, hend, ?_, hen⟩
  rw [hcs, hux]

/-- The response timer has reached its limit without an arrival. -/
def State.responseDue (s : State) (key : Nat) : Prop :=
  let x := s.slot key
  x.st = .running ∧ s.engineRuns (keyEngine key) = true ∧ x.w.loaded = true ∧ x.w.timerFrom.isSome ∧ s.staTmo x.station * 1200 ≤ s.timerValue x

theorem responseTimeout_waits (h : ¬ s.responseDue key) : responseTimeout s key = s := by
  refine if_neg fun hd => h ?_
  simp only [Bool.and_eq_true, beq_iff_eq, decide_eq_true_eq] at hd
  obtain ⟨⟨⟨⟨hst, hr⟩, hlo⟩, hti⟩, hle⟩ := hd
  exact ⟨hst, hr, hlo, hti, hle⟩

theorem onlyPort_senseFlag (s : State) (st i : Nat) : onlyPort s (s.senseFlag st i) := onlyPort_setStation s st rfl

theorem responseTimeout_due (h : s.responseDue key) (ho : (s.slot key).openEnd) :
    opEnds s (responseTimeout s key) key chkInterface (s.slot key).cur (s.slot key).haltResidue ∧ s.cleared (responseTimeout s key) key := by
  obtain ⟨hst, hr, hlo, hti, hle⟩ := h
  have ht : responseTimeout s key =
      (s.senseFlag (s.slot key).station 7).endOp key chkInterface (s.slot key).cur (s.slot key).haltResidue true :=
    if_pos (by simp [hst, hr, hlo, hti, hle])
  rw [ht]
  generalize hu : s.senseFlag (s.slot key).station 7 = u
  have hux : u.slot key = s.slot key := by rw [← hu]; rfl
  have hmay : u.mayEnd key := (State.mayEnd_of_running hr hst ho.1 ho.2.1).of_fate (by rw [← hu]; rfl) (by rw [hux])
  exact ⟨(State.endOp_ends hmay rfl _ _ _).of_cstat (by rw [hux]),
    State.endOp_cleared hmay.live hmay.runs (by rw [hux]) (by rw [hux]) (fun n => hu ▸ (onlyPort_senseFlag s _ 7).staLane n) _ _ _⟩

/-! ### The busy claim (R121) -/

/-- The busy claim of an operation that holds its station is used up. -/
def State.claimDue (s : State) (key : Nat) : Prop :=
  let x := s.slot key
  x.over = false ∧ s.engineRuns (keyEngine key) = true ∧ x.w.holding = true ∧ x.busyFrom.isSome ∧ s.busyLimit x ≤ s.usedBusy x

theorem busyClaimExhausted_waits (h : ¬ s.claimDue key) : busyClaimExhausted s key = s := by
  refine if_neg fun hd => h ?_
  simp only [Bool.and_eq_true, Bool.not_eq_true', decide_eq_true_eq] at hd
  obtain ⟨⟨⟨⟨hov, hr⟩, hho⟩, hb⟩, hle⟩ := hd
  exact ⟨hov, hr, hho, hb, hle⟩

theorem busyClaimExhausted_open (h : s.claimDue key) (he : (s.slot key).w.ending = none) :
    busyClaimExhausted s key = (s.stopKernel key).endOp key chkOverrun (s.slot key).cur (s.slot key).haltResidue true := by
  obtain ⟨hov, hr, hho, hb, hle⟩ := h
  refine (if_pos (by simp [hov, hr, hho, hb, hle])).trans ?_
  rw [he]
  rfl

theorem busyClaimExhausted_cleared (h : s.claimDue key) (he : (s.slot key).w.ending = none) : s.cleared (busyClaimExhausted s key) key := by
  rw [busyClaimExhausted_open h he]
  exact State.endOp_cleared (u := s.stopKernel key) h.1 h.2.1 rfl rfl (fun _ => rfl) _ _ _

theorem busyClaimExhausted_ends (h : s.claimDue key) (ho : (s.slot key).openEnd) (hm : (s.slot key).midHeld = false) :
    opEnds s (busyClaimExhausted s key) key chkOverrun (s.slot key).cur (s.slot key).haltResidue := by
  have hmay : s.mayEnd key := ⟨h.2.1, h.1, hm, ho.1, ho.2.1⟩
  rw [busyClaimExhausted_open h ho.1]
  exact (State.endOp_ends (s := s.stopKernel key) (hmay.of_fate rfl rfl) rfl _ _ _).of_cstat rfl

theorem Slot.midHeld_st {x : Slot} (h : x.midHeld = true) : x.st = .postHeld := by
  simp only [Slot.midHeld, Bool.and_eq_true, beq_iff_eq] at h
  exact h.1

/-- A slot that holds an intermediate completion keeps it, its ending fixed (R44, R78, R121). -/
theorem busyClaimExhausted_held (h : s.claimDue key) (ho : (s.slot key).openEnd) (hm : (s.slot key).midHeld = true) :
    let z := (busyClaimExhausted s key).slot key
    z.st = .postHeld ∧ z.cstat = (s.slot key).cstat ||| chkOverrun.cstat ∧
      z.w.ending = some { lastCcw := (s.slot key).cur, residual := (s.slot key).haltResidue, normal := false } := by
  obtain ⟨he, hf, -, -⟩ := ho
  rw [busyClaimExhausted_open h he, State.endOp_stops (s := s.stopKernel key) h.1 h.2.1]
  have hfix : ((s.stopKernel key).slot key).stopped chkOverrun (s.slot key).cur (s.slot key).haltResidue true =
      (s.slot key).fixed chkOverrun (s.slot key).cur (s.slot key).haltResidue true :=
    if_neg (fun hs => by rw [Option.isSome_iff_ne_none] at hs; exact hs he)
  dsimp only
  rw [if_pos (by rw [Bool.and_eq_true]; exact ⟨hm, congrArg not hf⟩), hfix]
  have hu := State.stationEnds_slot (s := s.stopKernel key) (key := key)
    ((s.slot key).fixed chkOverrun (s.slot key).cur (s.slot key).haltResidue true) chkOverrun true
  generalize (State.stationEnds _ key chkOverrun true).slot key = z at hu
  exact ⟨(Slot.read_untimed hu (·.st)).trans (Slot.midHeld_st hm), Slot.read_untimed hu (·.cstat), Slot.read_untimed hu (·.w.ending)⟩

/-! ### Deadlines and SHAPE requests (R127, R128) -/

/-- The deadline of an admitted operation has passed, and has not been counted. -/
def State.deadlinePassed (s : State) (key : Nat) : Prop :=
  let x := s.slot key
  x.over = false ∧ x.be = false ∧ x.w.missed = false ∧ x.w.deadlineAt < s.time

theorem deadlineMiss_waits (h : ¬ s.deadlinePassed key) : deadlineMiss s key = s := by
  refine if_pos ?_
  by_contra hn
  simp only [Bool.or_eq_true, decide_eq_true_eq, not_or, Bool.not_eq_true, not_le] at hn
  obtain ⟨⟨⟨hov, hbe⟩, hmi⟩, hti⟩ := hn
  exact h ⟨hov, hbe, hmi, hti⟩

theorem State.reg_report (s : State) (g det cls owner unit master : Nat) (detail : Word) (cond : Bool) (a : Nat) :
    (s.report g det cls owner unit master detail cond).reg a = s.reg a := rfl

theorem bit_or_four (x : Word) : bit (x ||| 4#32) 2 = true := by simp [bit]

/-- The slot whose missed deadline has been counted. -/
def Slot.overdue (x : Slot) : Slot := { x with w := { x.w with missed := true } }

/-- A missed deadline is marked in its slot, latched and counted (R127). -/
theorem deadlineMiss_counts (h : s.deadlinePassed key) (he : keyEngine key ≠ 64) :
    let t := deadlineMiss s key
    t.slot key = (s.slot key).overdue ∧
      t.reg 0x04300014 = BitVec.ofNat 32 (2 ^ 31 + keyEngine key * 2 ^ 16 + keySlot key) ∧ t.reg 0x04300030 = satInc (s.reg 0x04300030) ∧
      bit (t.reg 0x04300004) 1 = true ∧ onlyRegs { s with slots := t.slots } t [0x04300014, 0x04300030, 0x04300004] := by
  obtain ⟨hov, hbe, hmi, hti⟩ := h
  intro t
  generalize hu : s.setSlot key (s.slot key).overdue = u
  have hux : u.slot key = _ := hu ▸ State.slot_setSlot s key _
  have hur : ∀ a, u.reg a = s.reg a := fun a => by rw [← hu]; rfl
  let v := BitVec.ofNat 32 (2 ^ 31 + keyEngine key * 2 ^ 16 + keySlot key)
  have ht : t = (((u.setReg 0x04300014 v).setReg 0x04300030 (satInc (u.reg 0x04300030))).setStatus 0x04300004 2#32).report 40 0 0
      (s.slot key).owner 0 0 v := by
    rw [← hu]
    refine (if_neg (by simp [hov, hbe, hmi, hti])).trans ?_
    exact if_neg he
  have honly : onlyRegs u t [0x04300014, 0x04300030, 0x04300004] := by
    rw [ht]
    exact (((onlyRegs_setReg u _ _).trans (onlyRegs_setReg _ _ _)).trans (onlyRegs_setStatus _ _ _)).trans (onlyRegs_report _ _ _ _ _ _ _ _ _)
  have hts : t.slots = u.slots := by rw [honly.1]
  refine ⟨?_, ?_, ?_, ?_, ?_⟩
  · rw [State.slot, hts]
    exact hux
  · rw [ht, State.reg_report, State.reg_setStatus, if_neg (by decide), State.reg_setReg, if_neg (by decide), State.reg_setReg_self]
  · rw [ht, State.reg_report, State.reg_setStatus, if_neg (by decide), State.reg_setReg_self, hur]
  · rw [ht, State.reg_report, State.reg_setStatus, if_pos rfl]
    exact bit_or_two _
  · rw [hts]
    have : { s with slots := u.slots } = u := by rw [← hu]; rfl
    rw [this]
    exact honly

theorem deadlineMiss_cea (h : s.deadlinePassed key) (he : keyEngine key = 64) :
    let t := deadlineMiss s key
    t.slot key = (s.slot key).overdue ∧
      t = { s with slots := t.slots, reports := t.reports } ∧ t.reports.length = s.reports.length + 1 := by
  obtain ⟨hov, hbe, hmi, hti⟩ := h
  have ht : deadlineMiss s key = (s.setSlot key (s.slot key).overdue).report 40 1 0 16 64 0
      (BitVec.ofNat 32 (keySlot key)) := by
    refine (if_neg (by simp [hov, hbe, hmi, hti])).trans ?_
    exact if_pos he
  rw [ht]
  exact ⟨State.slot_setSlot s key _, rfl, List.length_append⟩

/-- The SHAPE request r of the slot has waited too long, and has not been counted. -/
def State.shapeOverdue (s : State) (key : Nat) (r : ShapeReq) : Prop :=
  (s.slot key).be = false ∧ (s.slot key).w.shapeLate = false ∧ r.at_ + 2400 < s.time

theorem shapeLate_none (h : s.shapeQ.find? (fun r => r.key == key) = none) : shapeLate s key = s := by
  unfold shapeLate
  dsimp only
  rw [h]

variable {r : ShapeReq}

theorem shapeLate_waits (hq : s.shapeQ.find? (fun r => r.key == key) = some r) (h : ¬ s.shapeOverdue key r) : shapeLate s key = s := by
  unfold shapeLate
  dsimp only
  rw [hq]
  refine if_pos ?_
  by_contra hn
  simp only [Bool.or_eq_true, decide_eq_true_eq, not_or, Bool.not_eq_true, not_le] at hn
  exact h ⟨hn.1.1, hn.1.2, hn.2⟩

theorem shapeLate_counts (hq : s.shapeQ.find? (fun r => r.key == key) = some r) (h : s.shapeOverdue key r) :
    let t := shapeLate s key
    t.slot key = { s.slot key with w := { (s.slot key).w with shapeLate := true } } ∧ t.reg 0x04300034 = satInc (s.reg 0x04300034) ∧
      bit (t.reg 0x04300004) 2 = true ∧ onlyRegs { s with slots := t.slots } t [0x04300034, 0x04300004] := by
  obtain ⟨hbe, hla, hti⟩ := h
  intro t
  generalize hu : s.setSlot key { s.slot key with w := { (s.slot key).w with shapeLate := true } } = u
  have hux : u.slot key = _ := hu ▸ State.slot_setSlot s key _
  have hur : ∀ a, u.reg a = s.reg a := fun a => by rw [← hu]; rfl
  have ht : t = (u.setReg 0x04300034 (satInc (u.reg 0x04300034))).setStatus 0x04300004 4#32 := by
    rw [← hu]
    change shapeLate s key = _
    unfold shapeLate
    dsimp only
    rw [hq]
    exact if_neg (by simp [hbe, hla, hti])
  have honly : onlyRegs u t [0x04300034, 0x04300004] := by
    rw [ht]
    exact (onlyRegs_setReg u _ _).trans (onlyRegs_setStatus _ _ _)
  have hts : t.slots = u.slots := by rw [honly.1]
  refine ⟨?_, ?_, ?_, ?_⟩
  · rw [State.slot, hts]
    exact hux
  · rw [ht, State.reg_setStatus, if_neg (by decide), State.reg_setReg_self, hur]
  · rw [ht, State.reg_setStatus, if_pos rfl]
    exact bit_or_four _
  · rw [hts]
    have : { s with slots := u.slots } = u := by rw [← hu]; rfl
    rw [this]
    exact honly
end

end Sys2Proof.Machine

namespace Sys2Proof.Machine

/-! ## Completion timeouts (R85, R177, R193, R222) -/

theorem onlyRegs_jHostRead (s : State) (f addr : Nat) (res : HostResult) : onlyRegs s (s.jHostRead f addr res) [] := by
  unfold State.jHostRead
  exact onlyRegs_ite (onlyRegs.refl s _) (onlyRegs_jrec _ _ _ _)

/-- From s to t one completion timeout is counted and flagged (R222). -/
def timeoutCounted (s t : State) : Prop := t.reg 0x04000014 = satInc (s.reg 0x04000014) ∧ bit (t.reg 0x04000004) 2 = true

/-- The host's answer to a read is its completion timeout. -/
def State.readTimedOut (s : State) (f addr : Nat) : State := (s.jHostRead f addr .timeout).timedOut f .timeout

/-- Outside a replay a read that times out is counted (R222). -/
theorem State.readTimedOut_counts (s : State) (hm : s.mode ≠ 0xA) (f addr : Nat) : timeoutCounted s (s.readTimedOut f addr) := by
  have hj := onlyRegs_jHostRead s f addr .timeout
  unfold State.readTimedOut
  generalize s.jHostRead f addr .timeout = u at hj
  have hum : u.mode = s.mode := by rw [hj.1]
  have ht : u.timedOut f .timeout = (((u.setReg 0x04000014 (satInc (u.reg 0x04000014))).setStatus 0x04000004 4#32).aerLog f 14 []).report
      41 0 0 f 0 (32 + f) 0#32 := if_pos (by simp [hum, hm])
  rw [ht]
  refine ⟨?_, ?_⟩
  · rw [State.reg_report, State.aerLog_reg, State.reg_setStatus, if_neg (by decide), State.reg_setReg_self, hj.2 _ (by simp) (by decide)]
  · rw [State.reg_report, State.aerLog_reg, State.reg_setStatus, if_pos rfl]
    exact bit_or_four _

theorem timeoutCounted.of_reg {s t u : State} (h : timeoutCounted s t) (hu : ∀ a, u.reg a = t.reg a) : timeoutCounted s u := by
  unfold timeoutCounted
  rw [hu, hu]
  exact h

section
variable {s : State} {f : Nat}

theorem completionTimeout_slot_none {e : EngineId} {k : SlotId}
    (h : (s.slot (slotKey e.val k.val)).owner ≠ f ∨ s.slotLate (slotKey e.val k.val) = false) : completionTimeout s f (.slot e k) = s := by
  refine if_neg fun hd => ?_
  rw [Bool.and_eq_true, beq_iff_eq] at hd
  rcases h with h | h
  · exact h hd.1
  · rw [h] at hd
    exact absurd hd.2 (by decide)

theorem completionTimeout_scan_none {g : RingId} {i : Nat} (h : s.ringFn g.val ≠ some f ∨ s.scanLate g.val i = false) :
    completionTimeout s f (.scan g i) = s := by
  refine if_neg fun hd => ?_
  rw [Bool.and_eq_true, beq_iff_eq] at hd
  rcases h with h | h
  · exact h hd.1
  · rw [h] at hd
    exact absurd hd.2 (by decide)

theorem completionTimeout_head_none {g : RingId} (h : s.ringFn g.val ≠ some f ∨ s.headLate g.val = false) :
    completionTimeout s f (.head g) = s := by
  refine if_neg fun hd => ?_
  rw [Bool.and_eq_true, beq_iff_eq] at hd
  rcases h with h | h
  · exact h hd.1
  · rw [h] at hd
    exact absurd hd.2 (by decide)

/-- The operation whose read times out gets the error (R85). -/
theorem completionTimeout_slot (hm : s.mode ≠ 0xA) {e : EngineId} {k : SlotId} {r : HostRead} {rest : List HostRead}
    (ho : (s.slot (slotKey e.val k.val)).owner = f) (hr : (s.slot (slotKey e.val k.val)).w.reads = r :: rest)
    (hl : s.slotLate (slotKey e.val k.val) = true) (hs : r.spec = false) :
    let t := completionTimeout s f (.slot e k)
    timeoutCounted s t ∧ (t.slot (slotKey e.val k.val)).w.reads = rest ∧
      (t.slot (slotKey e.val k.val)).w.inbox = (s.slot (slotKey e.val k.val)).w.inbox ++ [(r, .timeout)] := by
  have hu : r.unsent = false := by
    simp only [State.slotLate, hr, Bool.and_eq_true, Bool.not_eq_true'] at hl
    exact hl.1
  have ht : completionTimeout s f (.slot e k) = hostReadCompletion s (slotKey e.val k.val) .timeout :=
    if_pos (by rw [Bool.and_eq_true]; exact ⟨beq_iff_eq.2 ho, hl⟩)
  have hread : ∃ x, hostReadCompletion s (slotKey e.val k.val) .timeout =
      (s.readTimedOut (s.slot (slotKey e.val k.val)).owner r.addr).setSlot (slotKey e.val k.val) x := by
    unfold hostReadCompletion
    dsimp only
    rw [hr]
    dsimp only
    rw [if_neg (by simp [hu]), if_neg (by simp [hs])]
    exact ⟨_, rfl⟩
  dsimp only
  rw [ht]
  refine ⟨?_, ?_⟩
  · obtain ⟨x, hx⟩ := hread
    rw [hx]
    exact (s.readTimedOut_counts hm _ _).of_reg fun _ => rfl
  · rw [hostReadCompletion_answers hr hu hs]
    exact ⟨rfl, rfl⟩

/-- A speculative line read that times out is dropped, and a queue inside Weir scans no further (R174, R176). -/
theorem completionTimeout_scan (hm : s.mode ≠ 0xA) {g : RingId} {i : Nat} (hf : s.ringFn g.val = some f) (hl : s.scanLate g.val i = true)
    (hty : (s.ring g.val).typ = 1) (hst : (s.ring g.val).st = 2) (hb : (s.ring g.val).buf = true) (hw : (s.ring g.val).inWeir = true)
    (hc : s.carried = true)
    (hn : ∀ q, (s.ring g.val).reads[i]? = some q → q.unit ≠ alignDown (s.ring g.val).head 4 ∧
      ∀ u, (s.ring g.val).need = some u → alignDown u 4 ≠ q.unit) :
    let t := completionTimeout s f (.scan g i)
    timeoutCounted s t ∧ (t.ring g.val).reads = (s.ring g.val).reads.eraseIdx i ∧ (t.ring g.val).st = 2 := by
  obtain ⟨q, hq, hsent⟩ : ∃ q, (s.ring g.val).reads[i]? = some q ∧ q.sent = true := by
    unfold State.scanLate at hl
    rw [hf] at hl
    cases hq : (s.ring g.val).reads[i]? with
    | none => simp [hq] at hl
    | some q => exact ⟨q, rfl, by simp only [hq, Bool.and_eq_true] at hl; exact hl.1⟩
  obtain ⟨hhead, hneed⟩ := hn q hq
  have hu := s.readTimedOut_counts hm f ((s.ring g.val).base.toNat + 16 * q.unit)
  generalize hus : s.readTimedOut f ((s.ring g.val).base.toNat + 16 * q.unit) = u at hu
  have hret : s.scanReturn g.val f i .timeout =
      u.setRing g.val { s.ring g.val with reads := (s.ring g.val).reads.eraseIdx i, ev := (s.ring g.val).ev + 1 } := by
    unfold State.scanReturn
    dsimp only
    rw [hq]
    dsimp only
    rw [if_neg (by simp [hsent]), if_pos hc]
    refine (if_neg fun hbad => ?_).trans (by rw [← hus]; rfl)
    rw [Bool.and_eq_true, Bool.or_eq_true, beq_iff_eq] at hbad
    refine hbad.1.elim hhead fun hne => ?_
    cases hnd : (s.ring g.val).need with
    | none => simp [hnd] at hne
    | some v => exact hneed v hnd (by simpa [hnd] using hne)
  generalize hv : u.setRing g.val { s.ring g.val with reads := (s.ring g.val).reads.eraseIdx i, ev := (s.ring g.val).ev + 1 } = v at hret
  have hvr : v.ring g.val = _ := hv ▸ State.ring_setRing u g.val _
  have hturn : v.scanTurn g.val f = v := if_pos (by rw [hvr]; simp [hw])
  have ht : completionTimeout s f (.scan g i) = v := by
    refine (if_pos (by rw [Bool.and_eq_true]; exact ⟨beq_iff_eq.2 hf, hl⟩)).trans ?_
    unfold scanReadReturn
    rw [hf]
    dsimp only
    rw [if_neg (by simp [hty, hst, hb]), hret, hturn]
  dsimp only
  rw [ht, hvr]
  exact ⟨hu.of_reg fun _ => by rw [← hv]; rfl, rfl, hst⟩

/-- A head-word read may be made again; the ring's status and HEAD are as they were (R192). -/
theorem State.headRead_keeps (s : State) (g f : Nat) :
    (∀ a, (s.headRead g f).reg a = s.reg a) ∧ ((s.headRead g f).ring g).cqStatus = (s.ring g).cqStatus ∧
      ((s.headRead g f).ring g).qhead = (s.ring g).qhead := by
  have hsend : ∀ (u : State) (h a n i k : Nat), (∀ b, (u.sendReads h a n i k).reg b = u.reg b) ∧ (u.sendReads h a n i k).ring g = u.ring g := by
    intro u h a n i k
    unfold State.sendReads
    dsimp only
    split <;> exact ⟨fun _ => rfl, rfl⟩
  unfold State.headRead
  dsimp only
  split
  · exact ⟨fun _ => rfl, rfl, rfl⟩
  · split
    · rw [State.ring_setRing]
      exact ⟨fun _ => rfl, rfl, rfl⟩
    · obtain ⟨hreg, hring⟩ := hsend (s.setRing g { s.ring g with headRead := true, headAgain := false, headLast := s.time }) f
        (s.ring g).haddr.toNat 8 0 1
      rw [hring, State.ring_setRing]
      exact ⟨fun a => (hreg a).trans rfl, rfl, rfl⟩

theorem State.headErr_keeps (s : State) (g f code : Nat) : (∀ a, (s.headErr g f code).reg a = s.reg a) ∧
    (s.headErr g f code).ring g = { s.ring g with cqStatus := (s.ring g).cqStatus ||| 1#32 } :=
  ⟨fun _ => rfl, State.ring_setRing s g _⟩

/-- A head-word read that times out sets HEADERR, and HEAD stays (R193). -/
theorem completionTimeout_head (hm : s.mode ≠ 0xA) {g : RingId} (hf : s.ringFn g.val = some f) (hl : s.headLate g.val = true)
    (hty : (s.ring g.val).typ = 2) (hst : (s.ring g.val).st = 1) :
    let t := completionTimeout s f (.head g)
    timeoutCounted s t ∧ bit (t.ring g.val).cqStatus 0 = true ∧ (t.ring g.val).qhead = (s.ring g.val).qhead := by
  have hread : (s.ring g.val).headRead = true := by
    simp only [State.headLate, hf, Bool.and_eq_true] at hl
    exact hl.1
  have hu := s.readTimedOut_counts hm f (s.ring g.val).haddr.toNat
  generalize hus : s.readTimedOut f (s.ring g.val).haddr.toNat = u at hu
  generalize hv : u.setRing g.val { s.ring g.val with headRead := false, headAgain := false } = v
  have hvr : v.ring g.val = _ := hv ▸ State.ring_setRing u g.val _
  obtain ⟨hwreg, hwr⟩ := v.headErr_keeps g.val f 0
  have ht : completionTimeout s f (.head g) =
      if (s.ring g.val).headAgain then (v.headErr g.val f 0).headRead g.val f else v.headErr g.val f 0 := by
    refine (if_pos (by rw [Bool.and_eq_true]; exact ⟨beq_iff_eq.2 hf, hl⟩)).trans ?_
    unfold headWordReturn
    dsimp only
    rw [hf]
    dsimp only
    rw [if_neg (by simp [hread]), if_neg (by simp [hty, hst]), ← hv, ← hus]
    rfl
  generalize v.headErr g.val f 0 = w at hwreg hwr ht
  rw [hvr] at hwr
  have hw : timeoutCounted s w := hu.of_reg fun a => (hwreg a).trans (by rw [← hv]; rfl)
  dsimp only
  rw [ht]
  obtain ⟨hreg, hstat, hhead⟩ := w.headRead_keeps g.val f
  split
  · refine ⟨hw.of_reg hreg, ?_, ?_⟩
    · rw [hstat, hwr]
      exact bit_or_one _
    · rw [hhead, hwr]
  · rw [hwr]
    exact ⟨hw, bit_or_one _, rfl⟩
end

/-! ## Lockstep (R102) -/

section
variable {s : State} {e : Nat}

theorem State.engineRuns_iff (s : State) (e : Nat) : s.engineRuns e = true ↔ SMap.get 0 s.stopped e = 0 := by
  simp [State.engineRuns]

theorem lockstepMismatch_stopped (h : s.engineRuns e = false) : lockstepMismatch s e = s := if_pos (by rw [h]; rfl)

/-- The state whose engine e the mismatch has stopped (R102 step 1, R273). -/
def State.mismatched (s : State) (e : Nat) : State :=
  { s with stopped := SMap.set 0 s.stopped e (s.time + 1), shapeQ := s.shapeQ.filter (fun r => keyEngine r.key != e) }

theorem State.mismatched_engines (s : State) (e : Nat) :
    (s.mismatched e).engineRuns e = false ∧ ∀ d, d ≠ e → (s.mismatched e).engineRuns d = s.engineRuns d := by
  refine ⟨?_, fun d hd => ?_⟩
  · unfold State.engineRuns State.mismatched
    dsimp only
    rw [SMap.get_set_self]
    rfl
  · unfold State.engineRuns State.mismatched
    dsimp only
    rw [SMap.get_set_other _ _ _ hd]

theorem onlyRegs.engineRuns {s t : State} {as : List Nat} (h : onlyRegs s t as) (d : Nat) : t.engineRuns d = s.engineRuns d := by
  obtain ⟨_, _, _, _, rfl⟩ := h.form
  rfl

theorem bit_andNot (v : Word) (i : Nat) (h : i < 32) : bit (v &&& ~~~ bitWord i true) i = false := by
  have : (BitVec.ofNat 32 (2 ^ i)).getLsbD i = true := by
    rw [BitVec.getLsbD_ofNat]
    simp [h]
  unfold bit bitWord
  rw [if_pos rfl, BitVec.getLsbD_and, BitVec.getLsbD_not, this]
  simp

/-- A mismatch of one of Weir's engines (R102). -/
theorem lockstepMismatch_weir (h : s.engineRuns e = true) (he : e ≠ 64) :
    let a := if e < 32 then 0x04400010 else 0x04400014
    let t := lockstepMismatch s e
    t.reg 0x04400020 = BitVec.ofNat 32 (2 ^ 31 + e) ∧ bit (t.reg a) (e % 32) = false ∧ bit (t.reg 0x04400004) 1 = true ∧
      onlyRegs (s.mismatched e) t [a, 0x04400020, 0x04400004] := by
  intro a t
  have ha : a ≠ 0x04400020 ∧ a ≠ 0x04400004 := by
    by_cases h32 : e < 32 <;> simp [a, h32]
  have ht : t = ((((s.mismatched e).setReg a ((s.mismatched e).reg a &&& ~~~ bitWord (e % 32) true)).setReg 0x04400020
      (BitVec.ofNat 32 (2 ^ 31 + e))).setStatus 0x04400004 2#32).report (10 + e / 8) (e % 8) 1 18 e 0 0#32 := by
    refine (if_neg (by rw [h]; decide)).trans ?_
    exact if_neg he
  clear_value a
  refine ⟨?_, ?_, ?_, ?_⟩
  · rw [ht, State.reg_report, State.reg_setStatus, if_neg (by decide), State.reg_setReg_self]
  · rw [ht, State.reg_report, State.reg_setStatus, if_neg ha.2, State.reg_setReg, if_neg ha.1, State.reg_setReg_self]
    exact bit_andNot _ _ (Nat.mod_lt _ (by decide))
  · rw [ht, State.reg_report, State.reg_setStatus, if_pos rfl]
    exact bit_or_two _
  · rw [ht]
    exact (((onlyRegs_setReg _ a _).trans (onlyRegs_setReg _ _ _)).trans (onlyRegs_setStatus _ _ _)).trans
      (onlyRegs_report _ _ _ _ _ _ _ _ _)

/-- CE-A's doorbell scan ends. -/
def State.scanOff (s : State) : State := { s with cea := { s.cea with scanning := false } }

theorem bit_and_not_one (v : Word) : bit (v &&& 0xFFFFFFFE#32) 0 = false := by simp [bit]

/-- A mismatch of CE-A (R102). -/
theorem lockstepMismatch_cea (h : s.engineRuns 64 = true) :
    let t := lockstepMismatch s 64
    bit (t.reg 0x04480000) 0 = false ∧ bit (t.reg 0x04480004) 1 = true ∧
      onlyRegs (s.mismatched 64).scanOff t [0x04480000, 0x04480004] := by
  intro t
  generalize hu : (s.mismatched 64).scanOff = u
  have hur : ∀ a, (s.mismatched 64).reg a = u.reg a := fun a => by rw [← hu]; rfl
  have ht : t = ((u.setReg 0x04480000 (u.reg 0x04480000 &&& 0xFFFFFFFE#32)).setStatus 0x04480004 2#32).report 18 0 1 16 64 0 0#32 := by
    rw [← hur, ← hu]
    refine (if_neg (by rw [h]; decide)).trans ?_
    exact if_pos rfl
  refine ⟨?_, ?_, ?_⟩
  · rw [ht, State.reg_report, State.reg_setStatus, if_neg (by decide), State.reg_setReg_self]
    exact bit_and_not_one _
  · rw [ht, State.reg_report, State.reg_setStatus, if_pos rfl]
    exact bit_or_two _
  · rw [ht]
    exact ((onlyRegs_setReg u _ _).trans (onlyRegs_setStatus _ _ _)).trans (onlyRegs_report _ _ _ _ _ _ _ _ _)

/-! ### The engine's sequencers run again -/

theorem sequencerResetDone_runs (h : s.engineRuns e = true) : sequencerResetDone s e = s :=
  if_pos (.inl ((s.engineRuns_iff e).1 h))

theorem sequencerResetDone_early (h : s.time < SMap.get 0 s.stopped e - 1 + 6000) : sequencerResetDone s e = s := if_pos (.inr h)

/-- Both copies of engine e run again. -/
def State.restarted (s : State) (e : Nat) : State := State.endShadow { s with stopped := SMap.set 0 s.stopped e 0 } (.engine e)

/-- One slot of the engine whose sequencers have been reset, and a slot of another. -/
def State.lockstepVisit (e : Nat) (t : State) (k : Nat) : State := if keyEngine k = e then t.lockstepEnd k else t

theorem sequencerResetDone_due {b : Nat} (hb : SMap.get 0 s.stopped e = b + 1) (ht : b + 6000 ≤ s.time) :
    sequencerResetDone s e = (s.slots.map (fun p => p.1)).foldl (State.lockstepVisit e) (s.restarted e) := by
  refine if_neg ?_
  rw [hb]
  omega

theorem State.restarted_runs (s : State) (e : Nat) : (s.restarted e).engineRuns e = true := by
  rw [State.engineRuns_iff]
  exact SMap.get_set_self 0 s.stopped e 0

/-- The end of one slot changes no other, beside the counts of response timers. -/
theorem State.lockstepEnd_others (s : State) (key : Nat) :
    (s.lockstepEnd key).stopped = s.stopped ∧ ∀ k, k ≠ key → ((s.lockstepEnd key).slot k).untimed = (s.slot k).untimed := by
  unfold State.lockstepEnd
  extract_lets x active
  split
  · exact ⟨rfl, fun _ _ => rfl⟩
  · generalize hu : (s.stopKernel key).setSlot key { x with w := { x.w with ending := none } } = u
    obtain ⟨hs, ho⟩ := u.endOp_others key chkInterface x.cur x.remain active
    refine ⟨hs.trans (by rw [← hu]; rfl), fun k hk => (ho k hk).trans ?_⟩
    rw [← hu, State.slot_setSlot_other _ _ hk]
    rfl

theorem State.lockstepVisits (e : Nat) (l : List Nat) (t : State) :
    (l.foldl (State.lockstepVisit e) t).stopped = t.stopped ∧
      ∀ k, keyEngine k ≠ e → ((l.foldl (State.lockstepVisit e) t).slot k).untimed = (t.slot k).untimed := by
  induction l generalizing t with
  | nil => exact ⟨rfl, fun _ _ => rfl⟩
  | cons j l ih =>
    obtain ⟨hs, ho⟩ := ih (State.lockstepVisit e t j)
    obtain ⟨hs1, ho1⟩ : (State.lockstepVisit e t j).stopped = t.stopped ∧
        ∀ k, keyEngine k ≠ e → ((State.lockstepVisit e t j).slot k).untimed = (t.slot k).untimed := by
      unfold State.lockstepVisit
      split
      · next hj =>
        obtain ⟨h1, h2⟩ := t.lockstepEnd_others j
        exact ⟨h1, fun k hk => h2 k (fun hkj => hk (hkj ▸ hj))⟩
      · exact ⟨rfl, fun _ _ => rfl⟩
    exact ⟨hs.trans hs1, fun k hk => (ho k hk).trans (ho1 k hk)⟩

/-- Five microseconds after a mismatch the engine runs again, and the slots of the others are as they were (R102). -/
theorem sequencerResetDone_others {b : Nat} (hb : SMap.get 0 s.stopped e = b + 1) (ht : b + 6000 ≤ s.time) :
    (sequencerResetDone s e).engineRuns e = true ∧ ∀ k, keyEngine k ≠ e →
      ((sequencerResetDone s e).slot k).st = (s.slot k).st ∧ ((sequencerResetDone s e).slot k).cur = (s.slot k).cur ∧
        ((sequencerResetDone s e).slot k).cstat = (s.slot k).cstat := by
  rw [sequencerResetDone_due hb ht]
  obtain ⟨hs, ho⟩ := State.lockstepVisits e (s.slots.map (fun p => p.1)) (s.restarted e)
  refine ⟨?_, fun k hk => ?_⟩
  · rw [State.engineRuns, hs]
    exact s.restarted_runs e
  · have hk := ho k hk
    exact ⟨Slot.read_untimed hk (·.st), Slot.read_untimed hk (·.cur), Slot.read_untimed hk (·.cstat)⟩

/-- A live operation of the engine ends with INTERFACE_CHECK (R86, R102). -/
theorem State.lockstepEnd_ends {key : Nat} (hr : s.engineRuns (keyEngine key) = true) (hf : (s.slot key).w.fnReset = false)
    (hst : (s.slot key).st ≠ .idle ∧ (s.slot key).st ≠ .posting ∧ (s.slot key).st ≠ .postHeld) :
    opEnds s (s.lockstepEnd key) key chkInterface (s.slot key).cur (s.slot key).remain := by
  obtain ⟨hi, hp, hh⟩ := hst
  have hov : (s.slot key).over = false := by simp [Slot.over, hi, hp, hh]
  unfold State.lockstepEnd
  dsimp only
  rw [if_neg (by simp [hov])]
  generalize hu : (s.stopKernel key).setSlot key { s.slot key with w := { (s.slot key).w with ending := none } } = u
  have hux : u.slot key = _ := hu ▸ State.slot_setSlot _ key _
  have hmay : u.mayEnd key := by
    refine ⟨by rw [← hu]; exact hr, ?_, ?_, by rw [hux], by rw [hux]; exact hf⟩
    · rw [hux]
      exact hov
    · simp [hux, Slot.midHeld, hh]
  exact (State.endOp_ends hmay rfl _ _ _).of_cstat (by rw [hux])

theorem sequencerResetDone_ends {b key : Nat} {x : Slot} (hb : SMap.get 0 s.stopped e = b + 1) (ht : b + 6000 ≤ s.time)
    (hs : s.slots = [(key, x)]) (hk : keyEngine key = e) (hf : x.w.fnReset = false)
    (hst : x.st ≠ .idle ∧ x.st ≠ .posting ∧ x.st ≠ .postHeld) :
    opEnds s (sequencerResetDone s e) key chkInterface x.cur x.remain := by
  have hslot : (s.restarted e).slot key = x := by
    change SMap.get {} s.slots key = x
    rw [hs]
    exact if_pos rfl
  have hdone : sequencerResetDone s e = (s.restarted e).lockstepEnd key := by
    rw [sequencerResetDone_due hb ht, hs]
    exact if_pos hk
  have hends := State.lockstepEnd_ends (s := s.restarted e) (key := key) (by rw [hk]; exact s.restarted_runs e) (by rw [hslot]; exact hf)
    (by rw [hslot]; exact hst)
  rw [hslot] at hends
  rw [hdone]
  exact hends.of_cstat rfl
end

/-! ## The statement -/

/-- A timeout takes effect only outside REPLAY (R504). -/
theorem exec_completionTimeout {s : State} (hm : s.mode ≠ 0xA) (f : Fn) (who : ReadOwner) :
    exec (.completionTimeout f who) s = .next (completionTimeout s f.val who) :=
  congrArg Host.Outcome.next (if_neg (by simpa using hm))

/-- Settles O53: each timer acts once it is due, and lockstep stops an engine once and restarts it. -/
theorem timersClaimsAndLockstep : Obligations.TimersClaimsAndLockstep := by
  unfold Obligations.TimersClaimsAndLockstep
  refine ⟨fun s e k => ?timers, fun s e => ?lockstep⟩
  case timers =>
    intro key x cleared
    refine ⟨?boundary, ?response, ?claim, ?deadline, fun h => congrArg Host.Outcome.next (shapeLate_none h), fun r hq => ?shape,
      fun f who hm => congrArg Host.Outcome.next (if_pos (by simpa using hm)), fun f hm => ?timeout⟩
    case boundary =>
      intro due
      exact ⟨fun h => congrArg Host.Outcome.next (stopBoundaryTimeout_waits h),
        fun h hf y hy => ⟨_, rfl, stopBoundaryTimeout_due h hf hy⟩⟩
    case response =>
      intro due
      exact ⟨fun h => congrArg Host.Outcome.next (responseTimeout_waits h), fun h ho => ⟨_, rfl, responseTimeout_due h ho⟩⟩
    case claim =>
      intro due
      refine ⟨fun h => congrArg Host.Outcome.next (busyClaimExhausted_waits h),
        fun h ho hm => ⟨_, rfl, busyClaimExhausted_ends h ho hm, busyClaimExhausted_cleared h ho.1⟩, fun h ho hm => ⟨_, rfl, ?_⟩⟩
      obtain ⟨hst, hcs, hen⟩ := busyClaimExhausted_held h ho hm
      exact ⟨hst, hcs, busyClaimExhausted_cleared h ho.1, hen⟩
    case deadline =>
      intro missed
      exact ⟨fun h => congrArg Host.Outcome.next (deadlineMiss_waits h), fun h he => ⟨_, rfl, deadlineMiss_counts h he⟩,
        fun h he => ⟨_, rfl, deadlineMiss_cea h he⟩⟩
    case shape =>
      intro late
      exact ⟨fun h => congrArg Host.Outcome.next (shapeLate_waits hq h), fun h => ⟨_, rfl, shapeLate_counts hq h⟩⟩
    case timeout =>
      intro counted
      refine ⟨fun h => ?_, fun r rest ho hr hl hs => ?_, fun g h => ?_, fun g i h => ?_, ?_, fun g hf hl hty hst => ?_⟩
      · rw [exec_completionTimeout hm, completionTimeout_slot_none h]
      · exact ⟨_, exec_completionTimeout hm f _, completionTimeout_slot hm ho hr hl hs⟩
      · rw [exec_completionTimeout hm, completionTimeout_head_none h]
      · rw [exec_completionTimeout hm, completionTimeout_scan_none h]
      · intro g i r hf hl hty hst hb hw hc hn
        exact ⟨_, exec_completionTimeout hm f _, completionTimeout_scan hm hf hl hty hst hb hw hc hn⟩
      · exact ⟨_, exec_completionTimeout hm f _, completionTimeout_head hm hf hl hty hst⟩
  case lockstep =>
    refine ⟨fun h => congrArg Host.Outcome.next (lockstepMismatch_stopped h), fun h he => ?weir, fun h => ?cea,
      fun h => congrArg Host.Outcome.next (sequencerResetDone_runs h), fun h => congrArg Host.Outcome.next (sequencerResetDone_early h),
      fun b hb ht => ⟨⟨_, rfl, sequencerResetDone_others hb ht⟩,
        fun key x hs hk hf hi hp hh => ⟨_, rfl, sequencerResetDone_ends hb ht hs hk hf ⟨hi, hp, hh⟩⟩⟩⟩
    case weir =>
      intro a
      obtain ⟨hlast, hbind, hstat, honly⟩ := lockstepMismatch_weir h he
      obtain ⟨hstop, hrun⟩ := s.mismatched_engines e.val
      refine ⟨_, rfl, (honly.engineRuns _).trans hstop, hbind, hlast, hstat, ?_, fun d hd => (honly.engineRuns d).trans (hrun d hd), ?_, ?_⟩
      · rw [honly.1]
        rfl
      · rw [honly.1]
        rfl
      · obtain ⟨_, _, _, _, hform⟩ := honly.form
        rw [hform] at honly ⊢
        exact honly
    case cea =>
      obtain ⟨hen, hstat, honly⟩ := lockstepMismatch_cea h
      refine ⟨lockstepMismatch s 64, rfl, (honly.engineRuns _).trans (s.mismatched_engines 64).1, hen, ?_, hstat, ?_⟩
      · rw [honly.1]
        rfl
      · obtain ⟨_, _, _, _, hform⟩ := honly.form
        rw [hform] at honly ⊢
        exact honly

end Sys2Proof.Machine

namespace Sys2Proof.Machine

/-! # CE-A's rings (R104, R105, R185, R193, R212) -/

/-- A change of registers alone is one beside whatever the rings of CE-A hold. -/
theorem onlyRegs.withCea {s t : State} {as : List Nat} (h : onlyRegs s t as) (x : CeA) :
    onlyRegs { s with cea := x } { t with cea := x } as := by
  obtain ⟨_, _, _, _, rfl⟩ := h.form
  exact ⟨rfl, h.2⟩

theorem onlyRegs.cea {s t : State} {as : List Nat} (h : onlyRegs s t as) : t.cea = s.cea := by
  obtain ⟨_, _, _, _, rfl⟩ := h.form
  rfl

theorem onlyRegs_cfgErr (s : State) (a : Nat) : onlyRegs s (s.cfgErr a) [a] := onlyRegs_setStatus s a _

theorem State.cfgErr_flag (s : State) (a : Nat) : bit ((s.cfgErr a).reg a) 0 = true := by
  rw [State.cfgErr, State.reg_setStatus, if_pos rfl]
  exact bit_or_one _

/-! ## CE_A_CTRL (R104, R105) -/

theorem bit_zero_mod (v : Word) : bit v 0 = decide (v.toNat % 2 = 1) := by
  rw [bit, BitVec.getLsbD, Nat.testBit_zero]

theorem bitsOf_two_one (v : Word) : bitsOf v 2 1 = v.toNat / 2 % 4 := by
  rw [bitsOf, Nat.shiftRight_eq_div_pow]
  norm_num

/-- EN and PREFETCH as a write of CE_A_CTRL stores them. -/
theorem and_seven_eq (v : Word) (h : bit v 0 = true) : v &&& 7#32 = BitVec.ofNat 32 (bitsOf v 2 1 * 2 + 1) := by
  rw [bit_zero_mod, decide_eq_true_eq] at h
  apply BitVec.eq_of_toNat_eq
  have h7 : v.toNat &&& 7 = v.toNat % 8 := Nat.and_two_pow_sub_one_eq_mod v.toNat 3
  rw [BitVec.toNat_and, bitsOf_two_one]
  simp only [BitVec.toNat_ofNat, Nat.reducePow, Nat.reduceMod]
  omega

theorem and_six_eq (v : Word) (h : bit v 0 = false) : v &&& 6#32 = BitVec.ofNat 32 (bitsOf v 2 1 * 2) := by
  have h67 : v &&& 6#32 = v &&& 7#32 := by
    apply BitVec.eq_of_getLsbD_eq
    intro i hi
    rw [BitVec.getLsbD_and, BitVec.getLsbD_and]
    cases i with
    | zero => rw [show v.getLsbD 0 = false from h, Bool.false_and, Bool.false_and]
    | succ i =>
      have hsame : ∀ j : Fin 31, (6#32).getLsbD (j.val + 1) = (7#32).getLsbD (j.val + 1) := by decide
      rw [hsame ⟨i, by omega⟩]
  rw [bit_zero_mod, decide_eq_false_iff_not] at h
  rw [h67]
  apply BitVec.eq_of_toNat_eq
  have h7 : v.toNat &&& 7 = v.toNat % 8 := Nat.and_two_pow_sub_one_eq_mod v.toNat 3
  rw [BitVec.toNat_and, bitsOf_two_one]
  simp only [BitVec.toNat_ofNat, Nat.reducePow, Nat.reduceMod]
  omega

/-- HEAD of the work ring, and HEAD and TAIL of the completion ring, begin anew where their ring has moved. -/
def State.ceaHeads (s : State) (wq cq : Bool) : State :=
  let s := if wq then s.setReg 0x0448001C 0#32 else s
  if cq then (s.setReg 0x04480020 0#32).setReg 0x04480024 0#32 else s

theorem onlyRegs_ceaHeads (s : State) (wq cq : Bool) : onlyRegs s (s.ceaHeads wq cq) [0x0448001C, 0x04480020, 0x04480024] := by
  unfold State.ceaHeads
  extract_lets t
  have ht : onlyRegs s t [0x0448001C] := onlyRegs_ite (onlyRegs_setReg s _ _) (onlyRegs.refl s _)
  have hu : onlyRegs t (if cq then (t.setReg 0x04480020 0#32).setReg 0x04480024 0#32 else t) [0x04480020, 0x04480024] :=
    onlyRegs_ite ((onlyRegs_setReg t _ _).trans (onlyRegs_setReg _ _ _)) (onlyRegs.refl t _)
  exact ht.trans hu

theorem State.ceaHeads_wq (s : State) (cq : Bool) : (s.ceaHeads true cq).reg 0x0448001C = 0#32 := by
  unfold State.ceaHeads
  dsimp only
  split
  · rw [State.reg_setReg, if_neg (by decide), State.reg_setReg, if_neg (by decide), if_pos rfl, State.reg_setReg_self]
  · rw [if_pos rfl, State.reg_setReg_self]

/-- The work ring's registers name another place or size than the one in force. -/
def State.ceaMoves (s : State) : Bool :=
  (s.reg 0x04480008).toNat != s.cea.wqBase || bitsOf (s.reg 0x0448000C) 3 0 != s.cea.wqSize

/-- CE-A's rings as its registers place them. -/
def State.ceaPlaced (s : State) : CeA :=
  let cb := (s.reg 0x04480010).toNat
  let cs := bitsOf (s.reg 0x04480014) 3 0
  { s.cea with
    wqBase := (s.reg 0x04480008).toNat, wqSize := bitsOf (s.reg 0x0448000C) 3 0, cqBase := cb, cqSize := cs, scanning := false
    stopped := false, lapx := (if s.ceaMoves then true else s.cea.lapx)
    lapw := (if cb != s.cea.cqBase || cs != s.cea.cqSize then true else s.cea.lapw) }

section
variable {s : State} {v : Word}

theorem State.ceaCtrl_on (hp : bitsOf v 2 1 ≠ 3) (hv : bit v 0 = true) (ho : bit (s.reg 0x04480000) 0 = false) (hk : s.ceaRingsOk = true) :
    ∃ cq, s.ceaCtrl v = { ((s.setReg 0x04480000 (v &&& 7#32)).ceaHeads s.ceaMoves cq) with cea := s.ceaPlaced } := by
  rw [and_seven_eq v hv]
  refine ⟨(s.reg 0x04480010).toNat != s.cea.cqBase || bitsOf (s.reg 0x04480014) 3 0 != s.cea.cqSize, ?_⟩
  unfold State.ceaCtrl
  dsimp only
  rw [if_neg hp, if_neg hp, if_pos (by simp [hv, ho]), if_pos hk]
  have hplace : ∀ t : State, t.cea = s.cea → { t with cea := { t.cea with
      wqBase := (s.reg 0x04480008).toNat, wqSize := bitsOf (s.reg 0x0448000C) 3 0, cqBase := (s.reg 0x04480010).toNat
      cqSize := bitsOf (s.reg 0x04480014) 3 0, scanning := false, stopped := false, lapx := (if s.ceaMoves then true else t.cea.lapx)
      lapw := (if (s.reg 0x04480010).toNat != s.cea.cqBase || bitsOf (s.reg 0x04480014) 3 0 != s.cea.cqSize then true else t.cea.lapw) } }
      = { t with cea := s.ceaPlaced } := fun t ht => by rw [ht]; rfl
  exact hplace _ (onlyRegs_ceaHeads _ _ _).cea

theorem State.ceaCtrl_bad (hp : bitsOf v 2 1 ≠ 3) (hv : bit v 0 = true) (ho : bit (s.reg 0x04480000) 0 = false) (hk : s.ceaRingsOk = false) :
    s.ceaCtrl v = (s.setReg 0x04480000 (BitVec.ofNat 32 (bitsOf v 2 1 * 2))).cfgErr 0x04480004 := by
  unfold State.ceaCtrl
  dsimp only
  rw [if_neg hp, if_neg hp, if_pos (by simp [hv, ho]), if_neg (by simp [hk])]

theorem State.ceaCtrl_off (hp : bitsOf v 2 1 ≠ 3) (hv : bit v 0 = false) :
    s.ceaCtrl v = (s.setReg 0x04480000 (v &&& 6#32)).scanOff := by
  rw [and_six_eq v hv]
  unfold State.ceaCtrl
  dsimp only
  rw [if_neg hp, if_neg hp, if_neg (by simp [hv]), hv]
  rfl
end

/-! ## The scan and the doorbell (R185) -/

theorem State.ceaScanOn_off (s : State) (h : s.cea.scanning = false) : s.ceaScanOn = s := by
  have hs : ∀ n, s.ceaScan (n + 1) = s := fun n => by
    rw [State.ceaScan, if_pos (by simp [h])]
  exact hs 4096

/-- The scan ends at a unit that is not owned (R185). -/
theorem State.ceaScanOn_unowned {s : State} (hs : s.cea.scanning = true) (hst : s.cea.stopped = false) (he : bit (s.reg 0x04480000) 0 = true)
    (hw : s.ceaWeir = []) (hp : s.poisoned (s.cea.wqBase + 16 * (s.reg 0x0448001C).toNat) 16 = false)
    (hu : unitOwned (s.ceaUnit (s.reg 0x0448001C).toNat) s.cea.lapx = false) : s.ceaScanOn = s.scanOff := by
  have hscan : ∀ n, s.ceaScan (n + 1) = s.scanOff := fun n => by
    rw [State.ceaScan, if_neg (by simp [hs, hst, he, hw])]
    dsimp only
    rw [if_neg (by simp [hp]), if_pos (by simp [hu])]
    rfl
  exact hscan 4096

/-! ## CE_A_CQ_HEAD (R193, R212) -/

/-- No slot holds an entry of those that satisfy p. -/
theorem State.oldestHeld_none {s : State} {p : Nat → Slot → Bool} (h : ∀ e ∈ s.slots, (e.2.holdsEntry && p e.1 e.2) = false) :
    s.oldestHeld p = none := by
  unfold State.oldestHeld
  generalize s.slots = l at h
  induction l with
  | nil => rfl
  | cons e l ih =>
    rw [List.foldl_cons]
    have he := h e List.mem_cons_self
    dsimp only
    rw [if_neg (by rw [he]; decide)]
    exact ih fun x hx => h x (List.mem_cons_of_mem _ hx)

/-- With no entry to write and no slot in POST-HELD the drain does nothing, and the stall timer stands (R105, R212). -/
theorem State.ceaRoomed_idle {s : State} (h : ∀ p ∈ s.slots, keyEngine p.1 = 64 → p.2.holdsEntry = false ∧ p.2.st ≠ .postHeld) :
    s.ceaRoomed = { s with cea := { s.cea with stallFrom := none } } := by
  have hnone : s.oldestHeld (fun k _ => keyEngine k == 64) = none := State.oldestHeld_none fun e he => by
    by_cases hk : keyEngine e.1 = 64
    · simp [(h e he hk).1]
    · simp [hk]
  have hdrain : ∀ n, s.ceaDrain n = s := fun n => by
    cases n with
    | zero => rfl
    | succ n =>
      rw [State.ceaDrain]
      split
      · rfl
      · rw [hnone]
  have hany : s.slots.any (fun (k, x) => keyEngine k == 64 && x.st == .postHeld) = false := by
    rw [List.any_eq_false]
    intro p hp
    by_cases hk : keyEngine p.1 = 64
    · simp [(h p hp hk).2]
    · simp [hk]
  unfold State.ceaRoomed
  rw [hdrain]
  unfold State.ceaStallUpdate
  rw [hany, Bool.and_false, Bool.false_and]
  rfl

/-- The head value claims no entry that has not been written. -/
def State.ceaTakes (s : State) (v : Word) : Prop :=
  let h := bitsOf v 9 0
  let n := 2 ^ s.cea.cqSize
  let tail := (s.reg 0x04480020).toNat
  let head := (s.reg 0x04480024).toNat
  h < n ∧ (h + n - head) % n ≤ (tail + n - head) % n

/-- HEAD takes a value; where it moves, the stall timer begins anew (R212). -/
def State.headTaken (s : State) (h : Nat) : State :=
  let t := s.setReg 0x04480024 (BitVec.ofNat 32 h)
  if h != (s.reg 0x04480024).toNat then { t with cea := { t.cea with stallFrom := none, stallDone := false } } else t

theorem State.headTaken_form (s : State) (h : Nat) : ∃ x, s.headTaken h = { s.setReg 0x04480024 (BitVec.ofNat 32 h) with cea := x } := by
  unfold State.headTaken
  dsimp only
  split
  · exact ⟨_, rfl⟩
  · exact ⟨_, rfl⟩

theorem State.headTaken_keeps (s : State) (h : Nat) : (s.headTaken h).slots = s.slots ∧ (s.headTaken h).cea.scanning = s.cea.scanning := by
  unfold State.headTaken
  dsimp only
  split <;> exact ⟨rfl, rfl⟩

theorem State.ceaCqHead_refuses {s : State} {v : Word} (h : ¬ s.ceaTakes v) : s.ceaCqHead v = s.cfgErr 0x04480004 := if_neg h

/-- A head value that is taken, while no slot waits for room and no scan runs. -/
theorem State.ceaCqHead_takes {s : State} {v : Word} (h : s.ceaTakes v) (hs : s.cea.scanning = false)
    (hp : ∀ p ∈ s.slots, keyEngine p.1 = 64 → p.2.holdsEntry = false ∧ p.2.st ≠ .postHeld) :
    ∃ x : CeA, x.stallFrom = none ∧ s.ceaCqHead v = { s.setReg 0x04480024 (BitVec.ofNat 32 (bitsOf v 9 0)) with cea := x } := by
  have hrun : ∀ t : State, t.slots = s.slots → t.cea.scanning = false →
      t.ceaRoomed.ceaScanOn = { t with cea := { t.cea with stallFrom := none } } := fun t ht hc => by
    rw [State.ceaRoomed_idle (by rw [ht]; exact hp), State.ceaScanOn_off]
    exact hc
  have ht : s.ceaCqHead v = (s.headTaken (bitsOf v 9 0)).ceaRoomed.ceaScanOn := if_pos h
  obtain ⟨hsl, hsc⟩ := s.headTaken_keeps (bitsOf v 9 0)
  obtain ⟨x, hx⟩ := s.headTaken_form (bitsOf v 9 0)
  rw [ht, hrun _ hsl (hsc.trans hs), hx]
  exact ⟨_, rfl, rfl⟩

/-! ## The stall timer (R212) -/

/-- The ring is full with an entry waiting, and this has not been reported. -/
def State.ceaStalls (s : State) : Prop :=
  s.ceaFree = 0 ∧ s.cea.stallDone = false ∧ ∃ p ∈ s.slots, keyEngine p.1 = 64 ∧ p.2.st = .postHeld

theorem State.ceaStalls_iff (s : State) : s.ceaStalls ↔
    (s.ceaFree == 0 && s.slots.any (fun (k, x) => keyEngine k == 64 && x.st == .postHeld) && !s.cea.stallDone) = true := by
  simp only [State.ceaStalls, Bool.and_eq_true, beq_iff_eq, List.any_eq_true, Bool.not_eq_true', and_assoc]
  exact and_congr_right fun _ => and_comm

section
variable {s : State}

theorem State.ceaStallUpdate_stands (h : ¬ s.ceaStalls) : s.ceaStallUpdate = { s with cea := { s.cea with stallFrom := none } } :=
  if_neg fun hr => h (s.ceaStalls_iff.2 hr)

theorem State.ceaStallUpdate_starts (h : s.ceaStalls) (hn : s.cea.stallFrom = none) :
    s.ceaStallUpdate = { s with cea := { s.cea with stallFrom := some s.time } } :=
  (if_pos (s.ceaStalls_iff.1 h)).trans (if_pos (by rw [hn]; rfl))

theorem State.ceaStallUpdate_goesOn (h : s.ceaStalls) {b : Nat} (hb : s.cea.stallFrom = some b) : s.ceaStallUpdate = s :=
  (if_pos (s.ceaStalls_iff.1 h)).trans (if_neg (by simp [hb]))

theorem ceAStall_stands (h : ¬ s.ceaStalls) : ceAStall s = { s with cea := { s.cea with stallFrom := none } } := by
  unfold ceAStall
  rw [State.ceaStallUpdate_stands h]

theorem ceAStall_starts (h : s.ceaStalls) (hn : s.cea.stallFrom = none) :
    ceAStall s = { s with cea := { s.cea with stallFrom := some s.time } } := by
  unfold ceAStall
  rw [State.ceaStallUpdate_starts h hn]
  exact if_neg (by dsimp only; omega)

theorem ceAStall_counts (h : s.ceaStalls) {b : Nat} (hb : s.cea.stallFrom = some b) (ht : s.time < b + 120000000) : ceAStall s = s := by
  unfold ceAStall
  rw [State.ceaStallUpdate_goesOn h hb]
  dsimp only
  rw [hb]
  exact if_neg (by omega)

theorem ceAStall_reports (h : s.ceaStalls) {b : Nat} (hb : s.cea.stallFrom = some b) (ht : b + 120000000 ≤ s.time) :
    ceAStall s = ({ s with cea := { s.cea with stallFrom := none, stallDone := true } } : State).report 39 9 1 16 64 0 0#32 := by
  unfold ceAStall
  rw [State.ceaStallUpdate_goesOn h hb]
  dsimp only
  rw [hb]
  exact if_pos (by omega)
end

/-! ## The statement -/

/-- The register of CE-A is not one of the journal's. -/
theorem onlyRegs.ceaReg {s u : State} (h : onlyRegs s u []) (a : Nat) (ha : a / 0x100000 = 0x44) : u.reg a = s.reg a :=
  h.2 a List.not_mem_nil (by rw [ha]; decide)

theorem onlyRegs.ceaRingsOk {s u : State} (h : onlyRegs s u []) : u.ceaRingsOk = s.ceaRingsOk := by
  unfold State.ceaRingsOk
  rw [h.ceaReg 0x04480008 rfl, h.ceaReg 0x0448000C rfl, h.ceaReg 0x04480010 rfl, h.ceaReg 0x04480014 rfl]

theorem onlyRegs.ceaMoves {s u : State} (h : onlyRegs s u []) : u.ceaMoves = s.ceaMoves := by
  unfold State.ceaMoves
  rw [h.ceaReg 0x04480008 rfl, h.ceaReg 0x0448000C rfl, h.cea]

theorem onlyRegs.ceaPlaced {s u : State} (h : onlyRegs s u []) : u.ceaPlaced = s.ceaPlaced := by
  unfold State.ceaPlaced
  rw [h.ceaMoves, h.cea, h.ceaReg 0x04480008 rfl, h.ceaReg 0x0448000C rfl, h.ceaReg 0x04480010 rfl, h.ceaReg 0x04480014 rfl]

theorem onlyRegs.ceaTakes {s u : State} (h : onlyRegs s u []) (v : Word) : u.ceaTakes v ↔ s.ceaTakes v := by
  unfold State.ceaTakes
  rw [h.cea, h.ceaReg 0x04480020 rfl, h.ceaReg 0x04480024 rfl]

theorem onlyRegs.slots {s u : State} {as : List Nat} (h : onlyRegs s u as) : u.slots = s.slots := by
  obtain ⟨_, _, _, _, rfl⟩ := h.form
  rfl

theorem State.ceaMoves_of {s : State} (hb : s.cea.wqBase < 2 ^ 32)
    (h : s.reg 0x04480008 ≠ BitVec.ofNat 32 s.cea.wqBase ∨ bitsOf (s.reg 0x0448000C) 3 0 ≠ s.cea.wqSize) : s.ceaMoves = true := by
  unfold State.ceaMoves
  rw [Bool.or_eq_true, bne_iff_ne, bne_iff_ne]
  refine h.imp_left fun hne he => hne (BitVec.eq_of_toNat_eq ?_)
  rw [he, BitVec.toNat_ofNat, Nat.mod_eq_of_lt hb]

/-- A write of CE_A_CTRL outside RECOVERY (R104). -/
theorem exec_ceAEnable {s : State} {m : Master} (v : Word) (h : s.regRight m 0x04480000 true = .may) (hm : s.mode ≠ 9) :
    ∃ u, onlyRegs s u [] ∧ exec (.ceAEnable m v) s = .next (u.ceaCtrl v) := by
  have hu := onlyRegs_jRegWrite s m.id 0x04480000 v
  refine ⟨_, hu, congrArg Host.Outcome.next ((State.regRow_may v _ h).trans (if_neg ?_))⟩
  have hmode : (s.jRegWrite m.id 0x04480000 v).mode = s.mode := by rw [hu.1]
  simp [hmode, modeRecovery, hm]

/-- Settles O45: CE-A's rings are placed, rung, emptied and watched as their rules say. -/
theorem cantleEngineRings : Obligations.CantleEngineRings := by
  unfold Obligations.CantleEngineRings
  intro s m v c e moves
  refine ⟨fun hr hm hp => ?ctrl, fun hr => ?doorbell, fun hs hst he hw hpo hu => State.ceaScanOn_unowned hs hst he hw hpo hu,
    fun hr => ?head, ?stall⟩
  case ctrl =>
    obtain ⟨u, hu, hx⟩ := exec_ceAEnable v hr hm
    refine ⟨fun hv ho hk => ?_, fun hv ho hk => ?_, fun hv => ?_⟩
    · obtain ⟨cq, ht⟩ := State.ceaCtrl_on hp hv (by rw [hu.ceaReg _ rfl]; exact ho) (by rw [hu.ceaRingsOk]; exact hk)
      rw [hu.ceaPlaced, hu.ceaMoves] at ht
      have hset := onlyRegs_setReg u c (v &&& 7#32)
      have hheads := onlyRegs_ceaHeads (u.setReg c (v &&& 7#32)) s.ceaMoves cq
      refine ⟨_, hx, ?_⟩
      rw [ht]
      refine ⟨?_, rfl, rfl, rfl, rfl, rfl, fun hmv hb => ?_, ?_⟩
      · exact (hheads.2 c (by decide) (by decide)).trans (State.reg_setReg_self u c _)
      · have hmt := State.ceaMoves_of hb hmv
        refine ⟨?_, if_pos hmt⟩
        rw [hmt]
        exact State.ceaHeads_wq _ cq
      · exact ((hu.trans hset).trans hheads).withCea s.ceaPlaced
    · refine ⟨_, hx, ?_⟩
      rw [State.ceaCtrl_bad hp hv (by rw [hu.ceaReg _ rfl]; exact ho) (by rw [hu.ceaRingsOk]; exact hk)]
      refine ⟨?_, State.cfgErr_flag _ _, (hu.trans (onlyRegs_setReg u c _)).trans (onlyRegs_cfgErr _ _)⟩
      rw [(onlyRegs_cfgErr _ _).2 c (by decide) (by decide), State.reg_setReg_self, bit_zero_mod, decide_eq_false_iff_not]
      rw [BitVec.toNat_ofNat]
      omega
    · refine ⟨_, hx, ?_⟩
      rw [State.ceaCtrl_off hp hv]
      refine ⟨State.reg_setReg_self u c _, congrArg (fun x : CeA => { x with scanning := false }) hu.cea, ?_⟩
      exact (hu.trans (onlyRegs_setReg u c _)).withCea _
  case doorbell =>
    have hu := onlyRegs_jRegWrite s m.id 0x04480018 0#32
    refine ⟨_, hu, congrArg Host.Outcome.next ((State.regRow_may 0#32 _ hr).trans ?_)⟩
    unfold State.ceaDoorbell
    rw [hu.ceaReg 0x04480000 rfl, hu.cea]
  case head =>
    intro h n tail head takes
    have hu := onlyRegs_jRegWrite s m.id 0x04480024 v
    have hx : exec (.ceACqHeadWrite m v) s = .next ((s.jRegWrite m.id 0x04480024 v).ceaCqHead v) :=
      congrArg Host.Outcome.next (State.regRow_may v _ hr)
    generalize s.jRegWrite m.id 0x04480024 v = u at hu hx
    refine ⟨fun hn => ⟨_, hx, ?_⟩, fun ht hs hpost => ⟨_, hx, ?_⟩⟩
    · rw [State.ceaCqHead_refuses (fun ht => hn ((hu.ceaTakes v).1 ht))]
      exact ⟨State.cfgErr_flag u e, hu.trans (onlyRegs_cfgErr u e)⟩
    · obtain ⟨x, hxs, hxt⟩ := State.ceaCqHead_takes ((hu.ceaTakes v).2 ht) (by rw [hu.cea]; exact hs) (by rw [hu.slots]; exact hpost)
      rw [hxt]
      exact ⟨State.reg_setReg_self u _ _, hxs, (hu.trans (onlyRegs_setReg u _ _)).withCea x⟩
  case stall =>
    intro stalls
    refine ⟨fun h => congrArg Host.Outcome.next (ceAStall_stands h), fun h hn => congrArg Host.Outcome.next (ceAStall_starts h hn),
      fun b h hb => ⟨fun ht => congrArg Host.Outcome.next (ceAStall_counts h hb ht), fun ht => ⟨_, rfl, ?_⟩⟩⟩
    rw [ceAStall_reports h hb ht]
    exact ⟨rfl, rfl, List.length_append⟩

end Sys2Proof.Machine

namespace Sys2Proof.Machine

/-! # What the work on rings leaves alone (R173, R174, R196 to R203)

Reading ahead, granting buffers, holding the queues of a blocked ring, firing a vector and timing a stall change how rings are served,
and never what they account for: their places, reservations, entries and backlogs. -/

/-- What a ring accounts for: all but the course of its scan, its moderation, its stall timer and its wake. -/
def Ring.account (r : Ring) : Ring :=
  { r with
    st := 0, buf := false, ev := 0, reads := [], units := [], need := none, heldBlock := false, modCount := 0, modFrom := none
    timeIn := 0, stallFrom := none, stallUsed := 0, woke := false }

/-- What reads a ring's account alone reads the same. -/
theorem Ring.read_account {α : Type} {x y : Ring} (h : x.account = y.account) (f : Ring → α)
    (hf : ∀ z, f z.account = f z := by intro; rfl) : f x = f y := by
  rw [← hf x, h, hf y]

/-- From s to t rings have been served: slots, Weir, the time and the registers of other units are as they were, what has been written to
the host stays written, and of each ring only the service has changed; a queue that is not inside Weir may have been held. -/
structure State.ringWork (s t : State) : Prop where
  slots : t.slots = s.slots
  weir : t.weir = s.weir
  time : t.time = s.time
  reg : ∀ a, a / 0x100000 ≠ 0x49 → a / 0x100000 ≠ 0x4F → t.reg a = s.reg a
  out : ∀ f a d r p, .hostWrite f a d r p ∈ s.out → .hostWrite f a d r p ∈ t.out
  ring : ∀ g, (t.ring g).account = (s.ring g).account
  st : ∀ g, (t.ring g).st = (s.ring g).st ∨ (s.ring g).inWeir = false ∧ (t.ring g).st = 3

theorem State.ringWork.refl (s : State) : s.ringWork s :=
  ⟨rfl, rfl, rfl, fun _ _ _ => rfl, fun _ _ _ _ _ h => h, fun _ => rfl, fun _ => .inl rfl⟩

theorem State.ringWork.trans {s t u : State} (h : s.ringWork t) (k : t.ringWork u) : s.ringWork u where
  slots := k.slots.trans h.slots
  weir := k.weir.trans h.weir
  time := k.time.trans h.time
  reg := fun a h1 h2 => (k.reg a h1 h2).trans (h.reg a h1 h2)
  out := fun f a d r p hm => k.out f a d r p (h.out f a d r p hm)
  ring := fun g => (k.ring g).trans (h.ring g)
  st := fun g => by
    have hw : (t.ring g).inWeir = (s.ring g).inWeir := Ring.read_account (h.ring g) (·.inWeir)
    rcases k.st g with hk | ⟨hin, hk⟩
    · rw [hk]
      exact h.st g
    · exact .inr ⟨hw ▸ hin, hk⟩

theorem State.ringWork_ite {s t u : State} {p : Prop} [Decidable p] (h : s.ringWork t) (k : s.ringWork u) :
    s.ringWork (if p then t else u) := by
  split
  · exact h
  · exact k

theorem State.ringWork_foldl {α : Type} {f : State → α → State} (hf : ∀ (t : State) x, t.ringWork (f t x)) (l : List α) (s : State) :
    s.ringWork (l.foldl f s) := by
  induction l generalizing s with
  | nil => exact .refl s
  | cons x l ih => exact (hf s x).trans (ih (f s x))

theorem State.ringWork.slot {s t : State} (h : s.ringWork t) (k : Nat) : t.slot k = s.slot k := by
  rw [State.slot, h.slots]
  rfl

theorem State.ringWork.ringFn {s t : State} (h : s.ringWork t) (g : Nat) : t.ringFn g = s.ringFn g := by
  have hshare : ∀ f, f < 16 → t.reg (0x04208100 + 4 * f) = s.reg (0x04208100 + 4 * f) := fun f hf =>
    h.reg _ (by omega) (by omega)
  have hspan : ∀ f ∈ span 0 16, f < 16 := by decide
  unfold State.ringFn State.shareFirst State.shareCount
  exact List.find?_congr fun f hf => by rw [hshare f (hspan f hf)]

/-! ## One step of service -/

/-- A change of functions and of what is held for a paused tunnel. -/
theorem State.ringWork_setFn (s : State) (f : Nat) (x : Func) : s.ringWork (s.setFn f x) :=
  ⟨rfl, rfl, rfl, fun _ _ _ => rfl, fun _ _ _ _ _ h => h, fun _ => rfl, fun _ => .inl rfl⟩

theorem State.ringWork_held (s : State) (l : List Out) : s.ringWork { s with held := l } :=
  ⟨rfl, rfl, rfl, fun _ _ _ => rfl, fun _ _ _ _ _ h => h, fun _ => rfl, fun _ => .inl rfl⟩

/-- An output that takes back no host write. -/
theorem State.ringWork_out (s : State) {l : List Out} (h : ∀ f a d r p, .hostWrite f a d r p ∈ s.out → .hostWrite f a d r p ∈ l) :
    s.ringWork { s with out := l } :=
  ⟨rfl, rfl, rfl, fun _ _ _ => rfl, h, fun _ => rfl, fun _ => .inl rfl⟩

theorem State.ringWork_emit (s : State) (o : Out) : s.ringWork (s.emit o) :=
  State.ringWork_ite (.refl s) (State.ringWork_out s fun _ _ _ _ _ h => List.mem_append_left _ h)

theorem State.ringWork_sendReads (s : State) (f addr len i k : Nat) : s.ringWork (s.sendReads f addr len i k) :=
  State.ringWork_ite (.refl s) (State.ringWork_out s fun _ _ _ _ _ h => List.mem_append_left _ h)

/-- A change of how one ring is served, which keeps its state. -/
theorem State.ringWork_setRing (s : State) (g : Nat) {x : Ring} (hx : x.account = (s.ring g).account) (hst : x.st = (s.ring g).st) :
    s.ringWork (s.setRing g x) := by
  refine ⟨rfl, rfl, rfl, fun _ _ _ => rfl, fun _ _ _ _ _ h => h, fun k => ?_, fun k => .inl ?_⟩
  · by_cases hk : k = g
    · rw [hk, State.ring_setRing, hx]
    · rw [State.ring_setRing_other s x hk]
  · by_cases hk : k = g
    · rw [hk, State.ring_setRing, hst]
    · rw [State.ring_setRing_other s x hk]

/-- A change of memory's records, or of registers of the memory system and the journal. -/
theorem State.ringWork_of_onlyMem {s t : State} (h : onlyMem s t) : s.ringWork t := by
  have hreg := h.2
  obtain ⟨_, _, _, _, _, _, _, _, _, rfl⟩ := h.form
  exact ⟨rfl, rfl, rfl, hreg, fun _ _ _ _ _ h => h, fun _ => rfl, fun _ => .inl rfl⟩

theorem State.ringWork_of_onlyRegs {s t : State} (h : onlyRegs s t []) : s.ringWork t :=
  State.ringWork_of_onlyMem (onlyMem_of_onlyRegs h (by simp))

/-! ## The scan (R173, R174) -/

theorem State.ringWork_lineRead (s : State) (g f u : Nat) : s.ringWork (s.lineRead g f u) :=
  (State.ringWork_setRing s g (by rfl) (by rfl)).trans (State.ringWork_sendReads _ _ _ _ _ _)

theorem State.ringWork_prefetch (s : State) (g f : Nat) : s.ringWork (s.prefetch g f) := by
  unfold State.prefetch
  dsimp only
  split
  · exact .refl s
  · refine State.ringWork_foldl (fun t i => ?_) _ s
    exact State.ringWork_ite (.refl t) (State.ringWork_lineRead t _ _ _)

theorem State.ringWork_grantBuffer (s : State) : s.ringWork s.grantBuffer := by
  unfold State.grantBuffer
  split
  · exact .refl s
  · split
    · exact .refl s
    · next g _ _ =>
      extract_lets r t
      have ht : s.ringWork t := State.ringWork_setRing s g (by rfl) (by rfl)
      clear_value t
      split
      · exact ht.trans (State.ringWork_prefetch t _ _)
      · exact ht

theorem State.ringWork_grantBuffers (s : State) : s.ringWork s.grantBuffers :=
  State.ringWork_foldl (fun t _ => State.ringWork_grantBuffer t) _ s

/-! ## Blocked rings (R199, R200) -/

/-- A table read after each entry has been changed by its number; an unlisted number still holds what it did. -/
theorem SMap.get_map_entries {α : Type} (d : α) (m : SMap α) (h : Nat → α → α) (k : Nat) :
    SMap.get d (m.map fun p => (p.1, h p.1 p.2)) k = h k (SMap.get d m k) ∨
      SMap.get d (m.map fun p => (p.1, h p.1 p.2)) k = SMap.get d m k := by
  induction m with
  | nil => exact .inr rfl
  | cons e m ih =>
    obtain ⟨j, a⟩ := e
    by_cases hj : j = k
    · subst hj
      simp [SMap.get]
    · simpa [SMap.get, hj] using ih

/-- What a blocked completion ring g of function f makes of ring k (R199). -/
def State.heldRing (s : State) (g f k : Nat) (r : Ring) : Ring :=
  if r.typ == 1 && (r.st == 1 || r.st == 2 || r.st == 3) && !r.inWeir && s.ringFn k == some f && s.cqOf f r == g then
    { r with st := 3, buf := false, units := [], reads := [], need := none, heldBlock := true }
  else r

theorem State.heldRing_account (s : State) (g f k : Nat) (r : Ring) : (s.heldRing g f k r).account = r.account ∧
    ((s.heldRing g f k r).st = r.st ∨ r.inWeir = false ∧ (s.heldRing g f k r).st = 3) := by
  unfold State.heldRing
  split
  · next h =>
    simp only [Bool.and_eq_true, Bool.not_eq_true'] at h
    exact ⟨rfl, .inr ⟨h.1.1.2, rfl⟩⟩
  · exact ⟨rfl, .inl rfl⟩

theorem State.ringWork_holdQueues (s : State) (g : Nat) : s.ringWork (s.holdQueues g) := by
  unfold State.holdQueues
  split
  · exact .refl s
  · next f _ =>
    extract_lets t
    have hmap : t.rings = s.rings.map fun p => (p.1, s.heldRing g f p.1 p.2) := by
      refine List.map_congr_left fun p _ => ?_
      dsimp only
      unfold State.heldRing
      split <;> rfl
    have ht : s.ringWork t := by
      refine ⟨rfl, rfl, rfl, fun _ _ _ => rfl, fun _ _ _ _ _ h => h, fun k => ?_, fun k => ?_⟩
      · rw [State.ring, hmap]
        rcases SMap.get_map_entries {} s.rings (s.heldRing g f) k with h | h <;> rw [h]
        · exact (s.heldRing_account g f k _).1
        · rfl
      · rw [State.ring, hmap]
        rcases SMap.get_map_entries {} s.rings (s.heldRing g f) k with h | h <;> rw [h]
        · exact (s.heldRing_account g f k _).2
        · exact .inl rfl
    exact ht.trans (State.ringWork_grantBuffers t)

theorem State.ringWork_stallUpdate (s : State) (g : Nat) : s.ringWork (s.stallUpdate g) := by
  unfold State.stallUpdate
  dsimp only
  split
  · exact .refl s
  · split
    · exact State.ringWork_setRing s g (by rfl) (by rfl)
    · exact State.ringWork_setRing s g (by rfl) (by rfl)
    · exact .refl s

theorem State.ringWork_roomUpdate (s : State) (g : Nat) : s.ringWork (s.roomUpdate g) :=
  (State.ringWork_ite (State.ringWork_holdQueues s g) (.refl s)).trans (State.ringWork_stallUpdate _ g)

/-! ## Firing (R202 to R208) -/

/-- The message that an earlier firing of the tick gave is no host write. -/
theorem State.mem_outBut {s : State} {f a : Nat} {d : List Byte} {r p : Bool} (g v : Nat) (h : .hostWrite f a d r p ∈ s.out) :
    .hostWrite f a d r p ∈ s.outBut g v := by
  unfold State.outBut
  split
  · rw [List.mem_reverse, List.mem_eraseP_of_neg (by simp), List.mem_reverse]
    exact h
  · exact h

theorem State.ringWork_msixIssue (s : State) (f v : Nat) : s.ringWork (s.msixIssue f v) := by
  unfold State.msixIssue
  refine State.ringWork_ite (State.ringWork_ite (.refl s) ?_) (State.ringWork_setFn s f _)
  exact (State.ringWork_setFn s f _).trans (State.ringWork_out _ fun _ _ _ _ _ h => List.mem_append_left _ (State.mem_outBut f v h))

theorem State.ringWork_deliverKept (s : State) (f : Nat) : s.ringWork (s.deliverKept f) :=
  (State.ringWork_setFn s f _).trans (State.ringWork_foldl (fun t v => State.ringWork_msixIssue t f v) _ _)

theorem State.ringWork_sendFiring (s : State) (f v : Nat) : s.ringWork (s.sendFiring f v) :=
  State.ringWork_ite (State.ringWork_deliverKept s f) ((State.ringWork_deliverKept s f).trans (State.ringWork_msixIssue _ f v))

theorem State.ringWork_keepFiring (s : State) (f v : Nat) : s.ringWork (s.keepFiring f v) :=
  State.ringWork_ite (.refl s) (State.ringWork_setFn s f _)

theorem State.ringWork_wakeLink (s : State) : s.ringWork s.wakeLink := State.ringWork_ite (State.ringWork_emit s _) (.refl s)

theorem State.ringWork_raisePme (s : State) (f : Nat) : s.ringWork (s.raisePme f) := by
  unfold State.raisePme
  refine State.ringWork_ite (.refl s) ?_
  extract_lets t y u
  have hu : s.ringWork u := (State.ringWork_setFn s f _).trans (State.ringWork_setFn t f _)
  clear_value u
  exact State.ringWork_ite (hu.trans (State.ringWork_emit u _)) (hu.trans (State.ringWork_held u _))

theorem State.ringWork_ringFireVector (s : State) (f v : Nat) (w : Bool) : s.ringWork (s.ringFireVector f v w) := by
  unfold State.ringFireVector
  refine State.ringWork_ite (State.ringWork_sendFiring s f v) (State.ringWork_ite (State.ringWork_ite ?_ ?_) (State.ringWork_keepFiring s f v))
  · exact (State.ringWork_wakeLink s).trans (State.ringWork_keepFiring _ f v)
  · exact (State.ringWork_wakeLink s).trans (State.ringWork_raisePme _ f)

theorem State.ringWork_ringFire (s : State) (g : Nat) : s.ringWork (s.ringFire g) := by
  unfold State.ringFire
  dsimp only
  split
  · exact .refl s
  · exact (State.ringWork_setRing s g (by rfl) (by rfl)).trans (State.ringWork_ringFireVector _ _ _ _)

theorem State.ringWork_moderate (s : State) (g : Nat) (urgent : Bool) : s.ringWork (s.moderate g urgent) := by
  unfold State.moderate
  extract_lets x t r n u
  have ht : s.ringWork t := State.ringWork_setRing s g (by rfl) (by rfl)
  have hu : t.ringWork u := State.ringWork_setRing t g (by rfl) (by rfl)
  clear_value u t
  refine ht.trans (State.ringWork_ite (State.ringWork_ringFire t g) (State.ringWork_ite ?_ (.refl t)))
  exact hu.trans (State.ringWork_ite (State.ringWork_ringFire u g) (.refl u))

theorem State.ringWork_joinWake (s : State) (g f : Nat) : s.ringWork (s.joinWake g f) := by
  unfold State.joinWake
  refine State.ringWork_ite (.refl s) ?_
  extract_lets x t
  have ht : s.ringWork t := State.ringWork_setRing s g (by rfl) (by rfl)
  clear_value t
  exact ht.trans (State.ringWork_ite (State.ringWork_wakeLink t) ((State.ringWork_wakeLink t).trans (State.ringWork_raisePme _ f)))

/-! ## Digests (R493, R506) -/

theorem onlyRegs_diverge (s : State) (kind srcid word0 : Nat) : onlyRegs s (s.diverge kind srcid word0) [] := by
  unfold State.diverge
  extract_lets t info u1 u2 u3 v
  have ht : onlyRegs s t [] := ((onlyRegs_setReg s 0x04F00034 _).drop (by decide)).trans (onlyRegs_irq _ _)
  have h1 : onlyRegs t u1 [] :=
    ((onlyRegs_setReg t 0x04F00038 _).drop (by decide)).trans ((onlyRegs_setReg _ 0x04F0003C _).drop (by decide))
  have h2 : onlyRegs u1 ((u1.setReg 0x04F00040 (BitVec.ofNat 32 (u1.t0 % 2 ^ 32))).setReg 0x04F00044 (BitVec.ofNat 32 (u1.t0 / 2 ^ 32))) [] :=
    ((onlyRegs_setReg u1 0x04F00040 _).drop (by decide)).trans ((onlyRegs_setReg _ 0x04F00044 _).drop (by decide))
  have h3 : onlyRegs t u2 [] := onlyRegs_ite (onlyRegs.refl t _) (h1.trans h2)
  have h4 : onlyRegs u2 u3 [] := onlyRegs_jnStatus u2 _
  exact ((ht.trans h3).trans h4).trans (onlyRegs_ite (onlyRegs_jn u3 _) (onlyRegs.refl u3 _))

theorem onlyRegs_missing (s : State) : onlyRegs s s.missing [] := by
  have hall (l : List Digest) (t : State) : onlyRegs t (l.foldl (fun u d => u.diverge 3 d.srcid d.word0) t) [] := by
    induction l generalizing t with
    | nil => exact onlyRegs.refl t _
    | cons d l ih => exact (onlyRegs_diverge t _ _ _).trans (ih _)
  exact onlyRegs_ite (onlyRegs.refl s _) ((onlyRegs_jn s _).trans (hall _ _))

theorem onlyRegs_digest (s : State) (srcid word0 word1 : Nat) : onlyRegs s (s.digest srcid word0 word1) [] := by
  unfold State.digest
  extract_lets t j drop
  have ht : onlyRegs s t [] := onlyRegs_missing s
  have hdrop (d : Digest) : onlyRegs t (drop d) [] := onlyRegs_jn t _
  have hoff (d : Digest) (k : Nat) : onlyRegs t ((drop d).diverge k srcid word0) [] := (hdrop d).trans (onlyRegs_diverge _ _ _ _)
  have hnone : onlyRegs t (t.diverge 4 srcid word0) [] := onlyRegs_diverge _ _ _ _
  clear_value drop
  clear_value t
  refine onlyRegs_ite (onlyRegs_jrec s _ _ _) (onlyRegs_ite (onlyRegs.refl s _) (ht.trans (onlyRegs_ite ?_ ?_)))
  · split
    · exact onlyRegs_ite (hdrop _) (hoff _ _)
    · split
      · exact hoff _ _
      · exact hnone
  · split
    · exact onlyRegs_ite (hdrop _) (hoff _ _)
    · exact hnone

/-- The digest of the entry is no item of its slot: only a PMK entry (R187) that is recorded is one (R493). -/
def State.digestsApart (s : State) (f : Nat) (y : Entry) : Prop := y.kind ≠ 1 ∨ s.recFn f = false ∨ (s.jnState ≠ 3 ∧ s.jnState ≠ 5)

theorem State.ringWork_entryDigest {s : State} {f : Nat} {y : Entry} (h : s.digestsApart f y) (a : Nat) (lap : Bool) :
    s.ringWork (s.entryDigest f a y lap) := by
  unfold State.entryDigest
  split
  · exact .refl s
  · next hrec =>
    have hk : y.kind ≠ 1 := by
      rcases h with hk | hk | hk
      · exact hk
      · simp [hk] at hrec
      · simp [hk] at hrec
    dsimp only
    rw [if_neg hk]
    exact State.ringWork_of_onlyRegs (onlyRegs_digest s _ _ _)

theorem State.entryDigest_out (s : State) (f a : Nat) (y : Entry) (lap : Bool) : (s.entryDigest f a y lap).out = s.out := by
  unfold State.entryDigest
  split
  · rfl
  · dsimp only
    split
    · rfl
    · exact (onlyMem_of_onlyRegs (onlyRegs_digest s _ _ _) (by simp)).out

/-! ## An entry is written (R191) -/

/-- A completion ring after an entry has been written at TAIL (R191). -/
def Ring.advanced (r : Ring) : Ring :=
  { r with
    tail := if r.cap ≤ r.tail + 1 then 0 else r.tail + 1, lapw := if r.cap ≤ r.tail + 1 then !r.lapw else r.lapw
    posted := r.posted + 1#32 }

/-- The entry y stands in what function f has written to the host, at the place of TAIL, and the ring has advanced. -/
structure State.written (s t : State) (g f : Nat) (y : Entry) : Prop where
  out : .hostWrite f ((s.ring g).base.toNat + 32 * (s.ring g).tail) (y.bytes (s.ring g).lapw) false false ∈ t.out
  ring : (t.ring g).account = (s.ring g).advanced.account

theorem State.written.ringWork {s t u : State} {g f : Nat} {y : Entry} (h : s.written t g f y) (k : t.ringWork u) : s.written u g f y :=
  ⟨k.out _ _ _ _ _ h.out, (k.ring g).trans h.ring⟩

/-- Ring g of function f, which was r, holds y at its TAIL with its lap mark, and has advanced (R191). -/
def Ring.wrote (r : Ring) (t : State) (g f : Nat) (y : Entry) : Prop :=
  .hostWrite f (r.base.toNat + 32 * r.tail) (y.bytes r.lapw) false false ∈ t.out ∧ (t.ring g).tail = r.advanced.tail ∧
    (t.ring g).lapw = r.advanced.lapw ∧ (t.ring g).posted = r.posted + 1#32

theorem State.written.wrote {s t : State} {g f : Nat} {y : Entry} (h : s.written t g f y) : (s.ring g).wrote t g f y :=
  ⟨h.out, Ring.read_account h.ring (·.tail), Ring.read_account h.ring (·.lapw), Ring.read_account h.ring (·.posted)⟩

section
variable {s : State} {g f : Nat} (hf : s.ringFn g = some f)
include hf

theorem State.cqWrite_eq (y : Entry) : s.cqWrite g y =
    (State.setRing ((s.emit (.hostWrite f ((s.ring g).base.toNat + 32 * (s.ring g).tail) (y.bytes (s.ring g).lapw) false false)).entryDigest f
      ((s.ring g).base.toNat + 32 * (s.ring g).tail) y (s.ring g).lapw) g (s.ring g).advanced).moderate g y.urgent := by
  unfold State.cqWrite
  rw [hf]
  rfl

theorem State.cqWrite_written (hm : s.mode ≠ 0xA) (y : Entry) : s.written (s.cqWrite g y) g f y := by
  rw [State.cqWrite_eq hf]
  refine State.written.ringWork ⟨?_, ?_⟩ (State.ringWork_moderate _ g _)
  · show _ ∈ (State.entryDigest _ _ _ _ _).out
    rw [State.entryDigest_out, State.emit, if_neg (by simp [hm])]
    exact List.mem_append_right _ List.mem_cons_self
  · rw [State.ring_setRing]

theorem State.cqWrite_slots {y : Entry} (h : s.digestsApart f y) : (s.cqWrite g y).slots = s.slots := by
  rw [State.cqWrite_eq hf]
  generalize hw : s.emit _ = u
  have hu : u.slots = s.slots ∧ u.regs = s.regs := by
    rw [← hw, State.emit_form]
    exact ⟨rfl, rfl⟩
  have hd : u.digestsApart f y := by
    unfold State.digestsApart State.recFn State.jnState State.reg
    rw [hu.2]
    exact h
  calc _ = (State.setRing (u.entryDigest f _ y _) g _).slots := (State.ringWork_moderate _ g _).slots
    _ = u.slots := (State.ringWork_entryDigest hd _ _).slots
    _ = s.slots := hu.1

end

end Sys2Proof.Machine

namespace Sys2Proof.Machine

/-! # The park buffer and the share of a function (R196 to R198) -/

theorem onlyMem_parkCopies (s : State) : onlyMem s s.parkCopies.2 := (onlyMem_injMark s _ _).trans (onlyMem_injMark _ _ _)

/-- Where no injection is armed both copies of a parked entry are clean (R350). -/
theorem State.parkCopies_clean {s : State} (h : bit (s.reg 0x04900024) 31 = false) : s.parkCopies.1 = (.ok, .ok) := by
  have hi : s.injMark parkBase .ok = (.ok, s) := if_neg (by simp [State.injHits, h])
  unfold State.parkCopies
  simp only [hi]

/-- An item joins a backlog: nothing else that the ring accounts for changes. -/
theorem State.ringWork_joinBacklog (s : State) (g f : Nat) (b : Backlog) :
    (s.setRing g { s.ring g with backlog := (s.ring g).backlog ++ [b] }).ringWork (s.joinBacklog g f b) :=
  (State.ringWork_joinWake _ g f).trans (State.ringWork_roomUpdate _ g)

/-- The entry y has joined the backlog of ring g as item b, and TAIL stays. -/
structure State.joined (s t : State) (g : Nat) (b : Backlog) : Prop where
  slots : t.slots = s.slots
  ring : (t.ring g).account = ({ s.ring g with backlog := (s.ring g).backlog ++ [b] } : Ring).account

theorem State.joinBacklog_joined (s : State) (g f : Nat) (b : Backlog) : s.joined (s.joinBacklog g f b) g b := by
  have h := State.ringWork_joinBacklog s g f b
  exact ⟨h.slots, by rw [h.ring, State.ring_setRing]⟩

theorem State.park_joined (s : State) (g f : Nat) (y : Entry) :
    ∃ c, (bit (s.reg 0x04900024) 31 = false → c = (EccMark.ok, EccMark.ok)) ∧ s.joined (s.park g f y) g (.parked y c) := by
  have hw : s.ringWork s.parkCopies.2 := State.ringWork_of_onlyMem (onlyMem_parkCopies s)
  have hr : s.parkCopies.2.ring g = s.ring g := by rw [State.ring, (onlyMem_parkCopies s).1]; rfl
  refine ⟨s.parkCopies.1, State.parkCopies_clean, ?_⟩
  have h := State.joinBacklog_joined s.parkCopies.2 g f (.parked y s.parkCopies.1)
  exact ⟨h.slots.trans hw.slots, by rw [← hr]; exact h.ring⟩

/-! ## A freed entry of the share (R198, R201) -/

/-- What a ring accounts for but its backlog. -/
def Ring.places (r : Ring) : Ring := { r.account with backlog := [] }

theorem Ring.read_places {α : Type} {x y : Ring} (h : x.places = y.places) (f : Ring → α)
    (hf : ∀ z, f z.places = f z := by intro; rfl) : f x = f y := by
  rw [← hf x, h, hf y]

theorem Ring.places_of_account {x y : Ring} (h : x.account = y.account) : x.places = y.places := by rw [Ring.places, h]; rfl

/-- From s to t rings have been served and held entries may have moved into a share: slots may have changed, and a backlog what it holds
but not its length. -/
structure State.ringKept (s t : State) : Prop where
  weir : t.weir = s.weir
  time : t.time = s.time
  reg : ∀ a, a / 0x100000 ≠ 0x49 → a / 0x100000 ≠ 0x4F → t.reg a = s.reg a
  out : ∀ f a d r p, .hostWrite f a d r p ∈ s.out → .hostWrite f a d r p ∈ t.out
  ring : ∀ g, (t.ring g).places = (s.ring g).places
  waiting : ∀ g, (t.ring g).backlog.length = (s.ring g).backlog.length
  st : ∀ g, (t.ring g).st = (s.ring g).st ∨ (s.ring g).inWeir = false ∧ (t.ring g).st = 3

theorem State.ringWork.kept {s t : State} (h : s.ringWork t) : s.ringKept t where
  weir := h.weir
  time := h.time
  reg := h.reg
  out := h.out
  ring := fun g => Ring.places_of_account (h.ring g)
  waiting := fun g => Ring.read_account (h.ring g) (·.backlog.length)
  st := h.st

theorem State.ringKept.trans {s t u : State} (h : s.ringKept t) (k : t.ringKept u) : s.ringKept u where
  weir := k.weir.trans h.weir
  time := k.time.trans h.time
  reg := fun a h1 h2 => (k.reg a h1 h2).trans (h.reg a h1 h2)
  out := fun f a d r p hm => k.out f a d r p (h.out f a d r p hm)
  ring := fun g => (k.ring g).trans (h.ring g)
  waiting := fun g => (k.waiting g).trans (h.waiting g)
  st := fun g => by
    have hw : (t.ring g).inWeir = (s.ring g).inWeir := Ring.read_places (h.ring g) (·.inWeir)
    rcases k.st g with hk | ⟨hin, hk⟩
    · rw [hk]
      exact h.st g
    · exact .inr ⟨hw ▸ hin, hk⟩

theorem State.ringKept_setSlot (s : State) (k : Nat) (x : Slot) : s.ringKept (s.setSlot k x) :=
  ⟨rfl, rfl, fun _ _ _ => rfl, fun _ _ _ _ _ h => h, fun _ => rfl, fun _ => rfl, fun _ => .inl rfl⟩

theorem State.ringKept_heldPosted (s : State) (k : Nat) : s.ringKept (s.heldPosted k) := by
  unfold State.heldPosted State.markPosted
  dsimp only
  split
  · split
    · exact State.ringKept_setSlot s k _
    · split
      · exact State.ringKept_setSlot s k _
      · exact State.ringKept_setSlot s k _
  · exact State.ringKept_setSlot s k _

theorem Ring.parkHeld_places (r : Ring) (k : Nat) (c : EccMark × EccMark) : (r.parkHeld k c).places = r.places := rfl

theorem Ring.parkHeld_waiting (r : Ring) (k : Nat) (c : EccMark × EccMark) : (r.parkHeld k c).backlog.length = r.backlog.length :=
  List.length_map _

/-- The entry that slot k holds moves into the share in every ring's backlog. -/
def State.heldParked (s : State) (k : Nat) (c : EccMark × EccMark) : State := { s with rings := s.rings.map fun p => (p.1, p.2.parkHeld k c) }

theorem State.ringKept_heldParked (s : State) (k : Nat) (c : EccMark × EccMark) : s.ringKept (s.heldParked k c) := by
  have hring (g : Nat) : (s.heldParked k c).ring g = (s.ring g).parkHeld k c ∨ (s.heldParked k c).ring g = s.ring g :=
    SMap.get_map_entries ({} : Ring) s.rings (fun _ r => r.parkHeld k c) g
  refine ⟨rfl, rfl, fun _ _ _ => rfl, fun _ _ _ _ _ h => h, fun g => ?_, fun g => ?_, fun g => .inl ?_⟩
  · rcases hring g with h | h <;> rw [h]
    exact Ring.parkHeld_places _ k c
  · rcases hring g with h | h <;> rw [h]
    exact Ring.parkHeld_waiting _ k c
  · rcases hring g with h | h <;> rw [h]
    rfl

theorem State.ringKept_shareFreed (s : State) (f : Nat) : s.ringKept (s.shareFreed f) := by
  unfold State.shareFreed
  split
  · exact (State.ringWork.refl s).kept
  · split
    · exact (State.ringWork.refl s).kept
    · next k _ _ =>
      have hw : s.ringWork s.parkCopies.2 := State.ringWork_of_onlyMem (onlyMem_parkCopies s)
      exact (hw.kept.trans (State.ringKept_heldParked _ k s.parkCopies.1)).trans (State.ringKept_heldPosted _ k)

/-! ## A parked entry is read (R197) -/

theorem onlyMem_eccEventIn (s : State) (base n : Nat) (m : EccMark) (owner : Nat) : onlyMem s (s.eccEventIn base n m owner) := by
  have hd : onlyMem s s.draw.2 := ⟨rfl, fun _ _ _ => rfl⟩
  exact onlyMem_ite (.refl s) (hd.trans (onlyMem_eccEvent _ _ _ _ _))

/-- Reading a parked entry changes memory's records alone, and the entry is had where one of its copies can be read. -/
theorem State.parkRead_spec (s : State) (f : Nat) (c : EccMark × EccMark) :
    onlyMem s (s.parkRead f c).1 ∧ (s.parkRead f c).2 = !(c.1.bad && c.2.bad) := by
  have hu : onlyMem s ((s.eccEventIn parkBase 8192 c.1 31).eccEventIn parkBase 8192 c.2 31) :=
    (onlyMem_eccEventIn s _ _ _ _).trans (onlyMem_eccEventIn _ _ _ _ _)
  have hreport (t : State) (d : Nat) (v : Word) : onlyMem t (t.report 39 8 d f 0 (32 + f) v) :=
    onlyMem_of_onlyRegs (onlyRegs_report t 39 8 d f 0 (32 + f) v _) (by simp)
  unfold State.parkRead
  extract_lets u
  change onlyMem s u at hu
  clear_value u
  cases c.1.bad <;> cases c.2.bad
  · exact ⟨hu, rfl⟩
  · exact ⟨hu.trans (hreport u _ _), rfl⟩
  · exact ⟨hu.trans (hreport u _ _), rfl⟩
  · exact ⟨hu.trans (hreport u _ _), rfl⟩

end Sys2Proof.Machine

namespace Sys2Proof.Machine

/-! # Posting requests (R105, R191, R196, R198) -/

theorem Ring.wrote.kept {r : Ring} {t u : State} {g f : Nat} {y : Entry} (h : r.wrote t g f y) (k : t.ringKept u) : r.wrote u g f y := by
  obtain ⟨hout, htail, hlapw, hposted⟩ := h
  exact ⟨k.out _ _ _ _ _ hout, (Ring.read_places (k.ring g) (·.tail)).trans htail, (Ring.read_places (k.ring g) (·.lapw)).trans hlapw,
    (Ring.read_places (k.ring g) (·.posted)).trans hposted⟩

/-- A ring takes an entry at once: it has room and no backlog, and its function may send (R196). -/
def State.ringOpen (s : State) (g f : Nat) : Prop := (s.ring g).backlog = [] ∧ 1 ≤ (s.ring g).room ∧ s.canIssue f = true

theorem State.ringOpen_iff (s : State) (g f : Nat) :
    ((s.ring g).backlog.isEmpty && decide (1 ≤ (s.ring g).room) && s.canIssue f) = true ↔ s.ringOpen g f := by
  simp [State.ringOpen, and_assoc]

/-- The slot after its entry has been written or parked. -/
def State.entryPosted (s : State) (k : Nat) (isMark : Bool) : State := if isMark then s.markPosted k else s.freeSlot k

section
variable {s : State} {g f : Nat} (k : Nat) (y : Entry) (isMark : Bool)

theorem State.postSlotEntry_open (h : s.ringOpen g f) :
    s.postSlotEntry g f k y isMark = ((s.cqWrite g y).roomUpdate g).entryPosted k isMark := if_pos ((s.ringOpen_iff g f).2 h)

theorem State.postSlotEntry_parks (h : ¬ s.ringOpen g f) (hp : s.parkUsed f < 64) :
    s.postSlotEntry g f k y isMark = (s.park g f y).entryPosted k isMark :=
  (if_neg fun h1 => h ((s.ringOpen_iff g f).1 h1)).trans (if_pos hp)

theorem State.postSlotEntry_holds (h : ¬ s.ringOpen g f) (hp : 64 ≤ s.parkUsed f) :
    s.postSlotEntry g f k y isMark = (s.holdEntry k isMark).joinBacklog g f (.held k y) :=
  (if_neg fun h1 => h ((s.ringOpen_iff g f).1 h1)).trans (if_neg (Nat.not_lt.2 hp))

end

/-- A final entry that finds no room is held in POST-HELD. -/
theorem State.holdEntry_st (s : State) (k : Nat) : ((s.holdEntry k false).slot k).st = .postHeld := by
  unfold State.holdEntry
  rw [State.slot_setSlot]
  rfl

/-- A mark that is not the last one leaves its slot otherwise as it was. -/
theorem State.markPosted_more {s : State} {k : Nat} {y : Entry} {ys : List Entry} (hm : (s.slot k).w.marks = y :: ys) (hys : ys ≠ [])
    (hh : (s.slot k).w.markHeld = false) (hst : (s.slot k).st ≠ .postHeld) :
    (s.markPosted k).slot k = { s.slot k with w := { (s.slot k).w with marks := ys } } := by
  unfold State.markPosted
  extract_lets x w0 w
  have hw : w = { x.w with marks := ys } := by
    show ({ x.w with marks := x.w.marks.drop 1, markHeld := false } : Work) = _
    rw [show x.w.marks = y :: ys from hm, ← show x.w.markHeld = false from hh]
    rfl
  have hne : w.marks.isEmpty = false := by
    rw [hw]
    simpa using hys
  change x.st ≠ _ at hst
  clear_value w
  subst hw
  split
  · rw [State.slot_setSlot]
  · rw [if_neg (by rw [hne]; simp), State.slot_setSlot]

/-! ## Requests of slots and of redeemed reservations -/

theorem postingRequest_silent {s : State} {e : EngineId} {k : SlotId} (hm : (s.slot (slotKey e.val k.val)).w.marks = [])
    (h : (s.slot (slotKey e.val k.val)).st ≠ .posting ∨ (s.slot (slotKey e.val k.val)).w.final = none) :
    postingRequest s (.slot e k) = s := by
  unfold postingRequest
  dsimp only
  rw [hm]
  dsimp only
  split
  · next hst hf =>
    rcases h with h | h
    · exact absurd hst h
    · rw [h] at hf
      cases hf
  · rfl

theorem postingRequest_final {s : State} {e : EngineId} {k : SlotId} {y : Entry}
    (hm : (s.slot (slotKey e.val k.val)).w.marks = []) (hst : (s.slot (slotKey e.val k.val)).st = .posting)
    (hy : (s.slot (slotKey e.val k.val)).w.final = some y) :
    postingRequest s (.slot e k) = if e.val = 64 then s.ceaPost (slotKey e.val k.val) y false else
      s.postSlotEntry (s.slot (slotKey e.val k.val)).cq (s.slot (slotKey e.val k.val)).owner (slotKey e.val k.val) y false := by
  unfold postingRequest
  dsimp only
  rw [hm, hst, hy]

theorem postingRequest_mark {s : State} {e : EngineId} {k : SlotId} (he : e.val ≠ 64) {y : Entry} {ys : List Entry}
    (hm : (s.slot (slotKey e.val k.val)).w.marks = y :: ys) (hh : (s.slot (slotKey e.val k.val)).w.markHeld = false) :
    postingRequest s (.slot e k) = s.postSlotEntry (s.slot (slotKey e.val k.val)).cq (s.slot (slotKey e.val k.val)).owner
      (slotKey e.val k.val) y true := by
  unfold postingRequest
  dsimp only
  rw [hm, hh]
  exact if_neg he

theorem postingRequest_markHeld {s : State} {e : EngineId} {k : SlotId} (hm : (s.slot (slotKey e.val k.val)).w.marks ≠ [])
    (hh : (s.slot (slotKey e.val k.val)).w.markHeld = true) : postingRequest s (.slot e k) = s := by
  obtain ⟨y, ys, hys⟩ := List.exists_cons_of_ne_nil hm
  unfold postingRequest
  dsimp only
  rw [hys, hh]
  rfl

/-! ## Slots of the engines -/

/-- Marks and slots aside, a posted entry leaves everything as it was. -/
theorem State.entryPosted_form (s : State) (k : Nat) (isMark : Bool) : ∃ x, s.entryPosted k isMark = s.setSlot k x := by
  unfold State.entryPosted State.markPosted
  dsimp only
  split
  · split
    · exact ⟨_, rfl⟩
    · split
      · exact ⟨_, rfl⟩
      · exact ⟨_, rfl⟩
  · exact ⟨_, rfl⟩

theorem State.written.entryPosted {s t : State} {g f : Nat} {y : Entry} (h : s.written t g f y) (k : Nat) (isMark : Bool) :
    s.written (t.entryPosted k isMark) g f y := by
  obtain ⟨x, hx⟩ := t.entryPosted_form k isMark
  rw [hx]
  exact ⟨h.out, h.ring⟩

theorem State.joined.entryPosted {s t : State} {g : Nat} {b : Backlog} (h : s.joined t g b) (k : Nat) (isMark : Bool) :
    ((t.entryPosted k isMark).ring g).backlog = (s.ring g).backlog ++ [b] ∧ ((t.entryPosted k isMark).ring g).tail = (s.ring g).tail := by
  obtain ⟨x, hx⟩ := t.entryPosted_form k isMark
  rw [hx]
  exact ⟨Ring.read_account h.ring (·.backlog), Ring.read_account h.ring (·.tail)⟩

section
variable {s : State} {g f : Nat} (hf : s.ringFn g = some f) (k : Nat) (y : Entry)
include hf

theorem State.postSlotEntry_written (hm : s.mode ≠ 0xA) (h : s.ringOpen g f) (isMark : Bool) :
    s.written (s.postSlotEntry g f k y isMark) g f y := by
  rw [State.postSlotEntry_open k y isMark h]
  exact ((State.cqWrite_written hf hm y).ringWork (State.ringWork_roomUpdate _ g)).entryPosted k isMark

/-- A mark that is written, and is not the last one, leaves its slot otherwise as it was. -/
theorem State.postSlotEntry_mark (h : s.ringOpen g f) (hd : s.digestsApart f y) {ys : List Entry} (hk : (s.slot k).w.marks = y :: ys)
    (hys : ys ≠ []) (hh : (s.slot k).w.markHeld = false) (hst : (s.slot k).st ≠ .postHeld) :
    (s.postSlotEntry g f k y true).slot k = { s.slot k with w := { (s.slot k).w with marks := ys } } := by
  have hslot : ((s.cqWrite g y).roomUpdate g).slot k = s.slot k := by
    rw [(State.ringWork_roomUpdate _ g).slot k, State.slot, State.cqWrite_slots hf hd]
    rfl
  rw [State.postSlotEntry_open k y true h, ← hslot]
  exact State.markPosted_more (hslot ▸ hk) hys (hslot ▸ hh) (hslot ▸ hst)

omit hf in
theorem State.postSlotEntry_free (h : s.ringOpen g f ∨ s.parkUsed f < 64) : (s.postSlotEntry g f k y false).slot k = {} := by
  by_cases ho : s.ringOpen g f
  · rw [State.postSlotEntry_open k y false ho]
    exact State.slot_setSlot _ k _
  · rw [State.postSlotEntry_parks k y false ho (h.resolve_left ho)]
    exact State.slot_setSlot _ k _

end

theorem State.reg_setRing (s : State) (g : Nat) (x : Ring) (a : Nat) : (s.setRing g x).reg a = s.reg a := rfl

/-! ## Redeemed reservations (R118, R196) -/

theorem State.postRedeemed_park (s : State) (g f : Nat) (y : Entry) :
    s.postRedeemed g f y false = (s.setRing g { s.ring g with resPark := (s.ring g).resPark - 1 }).park g f y := by
  unfold State.postRedeemed
  dsimp only
  rw [if_neg Bool.false_ne_true]

section
variable {s : State} {g f : Nat} (hf : s.ringFn g = some f)
include hf

omit hf in
theorem postingRequest_redeemed_none {gi : RingId} (hg : gi.val = g) (h : (s.ring g).redeemed = []) :
    postingRequest s (.redeemed gi) = s := by
  unfold postingRequest
  dsimp only
  rw [hg, h]

theorem postingRequest_redeemed {gi : RingId} (hg : gi.val = g) {y : Entry} {inRing : Bool} {rest : List (Entry × Bool)}
    (h : (s.ring g).redeemed = (y, inRing) :: rest) :
    postingRequest s (.redeemed gi) = (s.setRing g { s.ring g with redeemed := rest }).postRedeemed g f y inRing := by
  unfold postingRequest
  dsimp only
  rw [hg, h, hf]

/-- A ring after a redeemed reservation of its own has been taken up. -/
def Ring.taken (r : Ring) (rest : List (Entry × Bool)) : Ring := { r with redeemed := rest, resRing := r.resRing - 1 }

/-- A ring after a redeemed reservation of the park share has been taken up. -/
def Ring.takenParked (r : Ring) (rest : List (Entry × Bool)) : Ring := { r with redeemed := rest, resPark := r.resPark - 1 }

theorem postingRequest_redeemed_written (hm : s.mode ≠ 0xA) {gi : RingId} (hg : gi.val = g) {y : Entry} {rest : List (Entry × Bool)}
    (h : (s.ring g).redeemed = (y, true) :: rest) (hb : (s.ring g).backlog = []) (hc : s.canIssue f = true) :
    ∃ u : State, u.ring g = (s.ring g).taken rest ∧ u.written (postingRequest s (.redeemed gi)) g f y := by
  rw [postingRequest_redeemed hf hg h]
  set t := s.setRing g { s.ring g with redeemed := rest } with ht
  have hr : t.ring g = { s.ring g with redeemed := rest } := State.ring_setRing s g _
  set u := t.setRing g { t.ring g with resRing := (t.ring g).resRing - 1 } with hu
  refine ⟨u, ?_, ?_⟩
  · rw [hu, State.ring_setRing, hr]
    rfl
  · have hopen : ((t.ring g).backlog.isEmpty && decide (1 ≤ (t.ring g).room + 1) && t.canIssue f) = true := by
      have hct : t.canIssue f = true := hc
      rw [hr, hct]
      simp [hb]
    have hp : t.postRedeemed g f y true = (u.cqWrite g y).roomUpdate g := if_pos hopen
    rw [hp]
    exact (State.cqWrite_written (s := u) hf hm y).ringWork (State.ringWork_roomUpdate _ g)

theorem postingRequest_redeemed_parked {gi : RingId} (hg : gi.val = g) {y : Entry} {rest : List (Entry × Bool)}
    (h : (s.ring g).redeemed = (y, false) :: rest) :
    ∃ c, (bit (s.reg 0x04900024) 31 = false → c = (EccMark.ok, EccMark.ok)) ∧
      ∃ u : State, u.ring g = (s.ring g).takenParked rest ∧ u.joined (postingRequest s (.redeemed gi)) g (.parked y c) := by
  rw [postingRequest_redeemed hf hg h]
  set t := s.setRing g { s.ring g with redeemed := rest } with ht
  have hr : t.ring g = { s.ring g with redeemed := rest } := State.ring_setRing s g _
  set u := t.setRing g { t.ring g with resPark := (t.ring g).resPark - 1 } with hu
  have hp : t.postRedeemed g f y false = u.park g f y := t.postRedeemed_park g f y
  obtain ⟨c, hc, hj⟩ := u.park_joined g f y
  rw [hp]
  refine ⟨c, ?_, u, ?_, hj⟩
  · rwa [hu, State.reg_setRing, ht, State.reg_setRing] at hc
  · rw [hu, State.ring_setRing, hr]
    rfl

/-! ## The backlog drains (R198) -/

theorem backlogDrain_waits (h : (s.ring g).backlog = [] ∨ ¬ (s.canIssue f = true ∧ (s.fn f).resetAt = none)) : backlogDrain s g = s := by
  unfold backlogDrain
  dsimp only
  rcases h with h | h
  · rw [h]
  · rw [hf]
    split
    · next heq =>
      cases heq
      refine if_pos ?_
      cases hc : s.canIssue f <;> cases hr : (s.fn f).resetAt <;> simp_all
    · rfl

end

end Sys2Proof.Machine

namespace Sys2Proof.Machine

/-! # The backlog drains (R198) -/

section
variable {s : State} {g f : Nat} (hf : s.ringFn g = some f)
include hf

/-- Function f may write: it may send, and no reset of it runs (R198, R209). -/
def State.mayDrain (s : State) (f : Nat) : Prop := s.canIssue f = true ∧ (s.fn f).resetAt = none

omit hf in
theorem State.mayDrain.goes (h : s.mayDrain f) : ¬ (!s.canIssue f || (s.fn f).resetAt.isSome) = true := by
  rw [h.1, h.2]
  simp

/-- A ring without the oldest item of its backlog. -/
def Ring.popped (r : Ring) (rest : List Backlog) : Ring := { r with backlog := rest }

omit hf in
theorem backlogDrain_full {b : Backlog} {rest : List Backlog} (h : (s.ring g).backlog = b :: rest) (hb : ∀ y, b ≠ .reserved y)
    (hr : (s.ring g).room = 0) : backlogDrain s g = s := by
  unfold backlogDrain
  dsimp only
  rw [h]
  split
  · next heq _ =>
    cases heq
    split
    · rfl
    · cases b with
      | reserved y => exact absurd rfl (hb y)
      | parked y c => rfl
      | held k y => rfl
  · rfl

theorem backlogDrain_reserved (hm : s.mayDrain f) {y : Entry} {rest : List Backlog} (h : (s.ring g).backlog = .reserved y :: rest) :
    backlogDrain s g = ((s.setRing g { s.ring g with backlog := rest, resRing := (s.ring g).resRing - 1 }).cqWrite g y).roomUpdate g := by
  unfold backlogDrain
  dsimp only
  rw [h, hf]
  exact if_neg hm.goes

theorem backlogDrain_parked (hm : s.mayDrain f) (hr : 1 ≤ (s.ring g).room) {y : Entry} {c : EccMark × EccMark} {rest : List Backlog}
    (h : (s.ring g).backlog = .parked y c :: rest) :
    backlogDrain s g = ((if ((s.setRing g ((s.ring g).popped rest)).parkRead f c).2 then
      ((s.setRing g ((s.ring g).popped rest)).parkRead f c).1.cqWrite g y
      else ((s.setRing g ((s.ring g).popped rest)).parkRead f c).1).shareFreed f).roomUpdate g := by
  unfold backlogDrain
  dsimp only
  rw [h, hf]
  exact (if_neg hm.goes).trans (if_neg (by omega))

theorem backlogDrain_held (hm : s.mayDrain f) (hr : 1 ≤ (s.ring g).room) {k : Nat} {y : Entry} {rest : List Backlog}
    (h : (s.ring g).backlog = .held k y :: rest) :
    backlogDrain s g = (((s.setRing g ((s.ring g).popped rest)).cqWrite g y).heldPosted k).roomUpdate g := by
  unfold backlogDrain
  dsimp only
  rw [h, hf]
  exact (if_neg hm.goes).trans (if_neg (by omega))

/-- A parked entry is written from either of its two copies (R197). -/
theorem backlogDrain_parked_written (hx : s.mode ≠ 0xA) (hm : s.mayDrain f) (hr : 1 ≤ (s.ring g).room) {y : Entry}
    {c : EccMark × EccMark} {rest : List Backlog} (h : (s.ring g).backlog = .parked y c :: rest) (hc : c.1.bad = false ∨ c.2.bad = false) :
    (s.ring g).wrote (backlogDrain s g) g f y ∧ ((backlogDrain s g).ring g).backlog.length = rest.length := by
  rw [backlogDrain_parked hf hm hr h]
  set t := s.setRing g ((s.ring g).popped rest) with ht
  obtain ⟨hmem, hok⟩ := t.parkRead_spec f c
  have hhad : (t.parkRead f c).2 = true := by
    rw [hok]
    rcases hc with hc | hc <;> simp [hc]
  rw [if_pos hhad]
  generalize (t.parkRead f c).1 = u at hmem
  have hmode : u.mode = s.mode := by rw [hmem.1]; rfl
  have hring : u.ring g = (s.ring g).popped rest := by
    rw [State.ring, hmem.1]
    exact State.ring_setRing s g _
  have hfn : u.ringFn g = some f := ((State.ringWork_of_onlyMem hmem).ringFn g).trans hf
  have hw : u.written (u.cqWrite g y) g f y := State.cqWrite_written hfn (by rwa [hmode]) y
  have hk : (u.cqWrite g y).ringKept (((u.cqWrite g y).shareFreed f).roomUpdate g) :=
    (State.ringKept_shareFreed _ f).trans (State.ringWork_roomUpdate _ g).kept
  have hwrote := hw.wrote.kept hk
  have hlen : ((u.cqWrite g y).ring g).backlog.length = (u.ring g).backlog.length := Ring.read_account hw.ring (·.backlog.length)
  rw [hring] at hwrote hlen
  exact ⟨hwrote, (hk.waiting g).trans hlen⟩

/-- A parked entry of which both copies are unreadable is dropped (R197). -/
theorem backlogDrain_parked_dropped (hm : s.mayDrain f) (hr : 1 ≤ (s.ring g).room) {y : Entry}
    {c : EccMark × EccMark} {rest : List Backlog} (h : (s.ring g).backlog = .parked y c :: rest) (h1 : c.1.bad = true) (h2 : c.2.bad = true) :
    (s.setRing g ((s.ring g).popped rest)).ringKept (backlogDrain s g) := by
  rw [backlogDrain_parked hf hm hr h]
  set t := s.setRing g ((s.ring g).popped rest) with ht
  obtain ⟨hmem, hok⟩ := t.parkRead_spec f c
  have hw : t.ringWork (t.parkRead f c).1 := State.ringWork_of_onlyMem hmem
  have hlost : (t.parkRead f c).2 = false := by rw [hok, h1, h2]; rfl
  rw [if_neg (by simp [hlost])]
  exact hw.kept.trans ((State.ringKept_shareFreed _ f).trans (State.ringWork_roomUpdate _ g).kept)

theorem backlogDrain_reserved_written (hx : s.mode ≠ 0xA) (hm : s.mayDrain f) {y : Entry} {rest : List Backlog}
    (h : (s.ring g).backlog = .reserved y :: rest) :
    ∃ u : State, u.ring g = { s.ring g with backlog := rest, resRing := (s.ring g).resRing - 1 } ∧ u.written (backlogDrain s g) g f y := by
  rw [backlogDrain_reserved hf hm h]
  set u := s.setRing g { s.ring g with backlog := rest, resRing := (s.ring g).resRing - 1 } with hu
  exact ⟨u, State.ring_setRing s g _, (State.cqWrite_written (s := u) hf hx y).ringWork (State.ringWork_roomUpdate _ g)⟩

/-- A held entry is written and its slot is free. -/
theorem backlogDrain_held_written (hx : s.mode ≠ 0xA) (hm : s.mayDrain f) (hr : 1 ≤ (s.ring g).room) {k : Nat} {y : Entry}
    {rest : List Backlog} (h : (s.ring g).backlog = .held k y :: rest) (hk : (s.slot k).w.markHeld = false) (hy : y.kind ≠ 1) :
    (∃ u : State, u.ring g = (s.ring g).popped rest ∧ u.written (backlogDrain s g) g f y) ∧ (backlogDrain s g).slot k = {} := by
  rw [backlogDrain_held hf hm hr h]
  set u := s.setRing g ((s.ring g).popped rest) with hu
  have hslots : (u.cqWrite g y).slots = u.slots := State.cqWrite_slots (s := u) hf (.inl hy)
  have hfree : (u.cqWrite g y).heldPosted k = (u.cqWrite g y).freeSlot k := by
    refine if_neg ?_
    rw [State.slot, hslots]
    change ¬ (s.slot k).w.markHeld = true
    simp [hk]
  have hw : u.written (u.cqWrite g y) g f y := State.cqWrite_written (s := u) hf hx y
  rw [hfree]
  refine ⟨⟨u, State.ring_setRing s g _, (hw.entryPosted k false).ringWork (State.ringWork_roomUpdate _ g)⟩, ?_⟩
  rw [(State.ringWork_roomUpdate _ g).slot k]
  exact State.slot_setSlot _ k _

end

end Sys2Proof.Machine

namespace Sys2Proof.Machine

/-! # CE-A's entries (R105, R198, R212) -/

/-- What CE-A's stall timer does changes nothing else. -/
theorem State.ceaStallUpdate_form (s : State) : ∃ x, s.ceaStallUpdate = { s with cea := { s.cea with stallFrom := x } } := by
  unfold State.ceaStallUpdate
  dsimp only
  split
  · split
    · exact ⟨_, rfl⟩
    · exact ⟨s.cea.stallFrom, rfl⟩
  · exact ⟨_, rfl⟩

/-- The entry y stands in CE-A's completion ring, CE_A_CQ_TAIL has advanced, and source 304 is pending (R105, R212). -/
structure State.ceaWritten (s t : State) (y : Entry) : Prop where
  stored : stored s t (s.cea.cqBase + 32 * (s.reg 0x04480020).toNat) (y.bytes s.cea.lapw)
  pend : (t.irqSrc 304).pend = true
  tail : t.reg 0x04480020 =
    BitVec.ofNat 32 (if 2 ^ s.cea.cqSize ≤ (s.reg 0x04480020).toNat + 1 then 0 else (s.reg 0x04480020).toNat + 1)

theorem State.ceaWritten.of_same {s t u : State} {y : Entry} (h : s.ceaWritten t y) (hm : sameMem t u) (hi : u.irqs = t.irqs)
    (hr : u.regs = t.regs) : s.ceaWritten u y where
  stored := fun p => (byteAt_of_sameMem hm p).trans (h.stored p)
  pend := by
    rw [State.irqSrc, hi]
    exact h.pend
  tail := by
    rw [State.reg, hr]
    exact h.tail

theorem State.irq_pend (s : State) (n : Nat) : ((s.irq n).irqSrc n).pend = true := by
  rw [State.irq, State.irqSrc, State.setIrq, SMap.get_set_self]

theorem State.ceaWrite_written {s : State} (hs : s.memOk) (y : Entry) :
    s.ceaWritten (s.ceaWrite y) y ∧ (s.ceaWrite y).slots = s.slots ∧ (s.ceaWrite y).cea.redeemed = s.cea.redeemed ∧
      (s.ceaWrite y).cea.res = s.cea.res := by
  obtain ⟨-, hst⟩ := State.writeMem_spec hs (s.cea.cqBase + 32 * (s.reg 0x04480020).toNat) (y.bytes s.cea.lapw) false
  have hmem := onlyMem_writeMem s (s.cea.cqBase + 32 * (s.reg 0x04480020).toNat) (y.bytes s.cea.lapw) false
  have hcea : (s.writeMem (s.cea.cqBase + 32 * (s.reg 0x04480020).toNat) (y.bytes s.cea.lapw)).cea = s.cea := by rw [hmem.1]
  unfold State.ceaWrite
  extract_lets tail w wrap u
  change stored s w _ _ at hst
  change onlyMem s w at hmem
  change w.cea = s.cea at hcea
  have hwrap : wrap ↔ 2 ^ s.cea.cqSize ≤ (s.reg 0x04480020).toNat + 1 := by
    show 2 ^ w.cea.cqSize ≤ tail + 1 ↔ _
    rw [hcea]
  have hu : u = w.setReg 0x04480020 (BitVec.ofNat 32 (if wrap then 0 else tail + 1)) := rfl
  clear_value w
  have hucea : u.cea = s.cea := by rw [hu]; exact hcea
  have huslots : u.slots = s.slots := by rw [hu]; exact hmem.slots
  have htail : u.reg 0x04480020 = BitVec.ofNat 32 (if wrap then 0 else tail + 1) := by rw [hu, State.reg_setReg_self]
  have hsame : sameMem w u := by rw [hu]; exact ⟨rfl, rfl⟩
  clear_value u
  refine ⟨⟨fun p => ?_, State.irq_pend _ 304, htail.trans (congrArg (BitVec.ofNat 32) (if_congr hwrap rfl rfl))⟩, huslots, ?_, ?_⟩
  · exact (byteAt_of_sameMem (hsame.trans ⟨rfl, rfl⟩) p).trans (hst p)
  · show u.cea.redeemed = _
    rw [hucea]
  · show u.cea.res = _
    rw [hucea]

theorem State.ceaPost_written {s : State} (hs : s.memOk) (k : Nat) (y : Entry) (hr : 1 ≤ s.ceaRoom) :
    (s.ceaPost k y false).slot k = {} ∧ s.ceaWritten (s.ceaPost k y false) y := by
  have hw := (State.ceaWrite_written hs y).1
  have hp : s.ceaPost k y false = ((s.ceaWrite y).freeSlot k).ceaStallUpdate := by
    unfold State.ceaPost
    rw [if_pos hr]
    rfl
  obtain ⟨x, hx⟩ := ((s.ceaWrite y).freeSlot k).ceaStallUpdate_form
  rw [hp, hx]
  generalize s.ceaWrite y = u at hw
  exact ⟨State.slot_setSlot u k {}, hw.of_same ⟨rfl, rfl⟩ rfl rfl⟩

theorem State.ceaPost_held (s : State) (k : Nat) (y : Entry) (hr : s.ceaRoom = 0) :
    ((s.ceaPost k y false).slot k).st = .postHeld ∧ memKept s (s.ceaPost k y false) := by
  have hp : s.ceaPost k y false = (s.holdEntry k false).ceaStallUpdate := by
    unfold State.ceaPost
    rw [if_neg (by omega)]
  obtain ⟨x, hx⟩ := (s.holdEntry k false).ceaStallUpdate_form
  rw [hp, hx]
  exact ⟨s.holdEntry_st k, byteAt_of_sameMem ⟨rfl, rfl⟩⟩

theorem postingRequest_redeemedCeA {s : State} (hs : s.memOk) {y : Entry} {rest : List Entry} (h : s.cea.redeemed = y :: rest) :
    s.ceaWritten (postingRequest s .redeemedCeA) y ∧ (postingRequest s .redeemedCeA).cea.redeemed = rest ∧
      (postingRequest s .redeemedCeA).cea.res = s.cea.res - 1 := by
  unfold postingRequest
  dsimp only
  rw [h]
  dsimp only
  generalize hu : ({ s with cea := { s.cea with redeemed := rest, res := s.cea.res - 1 } } : State) = u
  have hcea : u.cea = { s.cea with redeemed := rest, res := s.cea.res - 1 } := by rw [← hu]
  have hsame : sameMem s u := by rw [← hu]; exact ⟨rfl, rfl⟩
  have hreg (a : Nat) : u.reg a = s.reg a := by rw [← hu]; rfl
  obtain ⟨hw, -, hred, hres⟩ := State.ceaWrite_written (memOk_of_sameMem hsame hs) y
  obtain ⟨x, hx⟩ := (u.ceaWrite y).ceaStallUpdate_form
  rw [hx]
  generalize u.ceaWrite y = t at hw hred hres
  refine ⟨⟨fun p => ?_, hw.pend, ?_⟩, hred.trans (congrArg CeA.redeemed hcea), hres.trans (congrArg CeA.res hcea)⟩
  · have hp := hw.stored p
    rw [hcea, hreg, byteAt_of_sameMem hsame p] at hp
    exact hp
  · have ht := hw.tail
    rw [hcea, hreg] at ht
    exact ht

theorem postingRequest_redeemedCeA_none {s : State} (h : s.cea.redeemed = []) : postingRequest s .redeemedCeA = s := by
  unfold postingRequest
  dsimp only
  rw [h]

end Sys2Proof.Machine

namespace Sys2Proof.Machine

/-- An entry that joins the park share: in its place of the backlog, and TAIL stays. -/
theorem State.postSlotEntry_parked {s : State} {g f : Nat} (k : Nat) (y : Entry) (ho : ¬ s.ringOpen g f) (hp : s.parkUsed f < 64) :
    (∃ c, (bit (s.reg 0x04900024) 31 = false → c = (EccMark.ok, EccMark.ok)) ∧
      ((s.postSlotEntry g f k y false).ring g).backlog = (s.ring g).backlog ++ [.parked y c]) ∧
      ((s.postSlotEntry g f k y false).ring g).tail = (s.ring g).tail := by
  obtain ⟨c, hc, hj⟩ := s.park_joined g f y
  obtain ⟨hb, ht⟩ := hj.entryPosted k false
  rw [State.postSlotEntry_parks k y false ho hp]
  exact ⟨⟨c, hc, hb⟩, ht⟩

/-- An entry that its slot holds: in POST-HELD, in its place of the backlog, and TAIL stays. -/
theorem State.postSlotEntry_held {s : State} {g f : Nat} (k : Nat) (y : Entry) (ho : ¬ s.ringOpen g f) (hp : 64 ≤ s.parkUsed f) :
    ((s.postSlotEntry g f k y false).slot k).st = .postHeld ∧
      ((s.postSlotEntry g f k y false).ring g).backlog = (s.ring g).backlog ++ [.held k y] ∧
      ((s.postSlotEntry g f k y false).ring g).tail = (s.ring g).tail := by
  have hj := State.joinBacklog_joined (s.holdEntry k false) g f (.held k y)
  rw [State.postSlotEntry_holds k y false ho hp]
  refine ⟨?_, Ring.read_account hj.ring (·.backlog), Ring.read_account hj.ring (·.tail)⟩
  rw [State.slot, hj.slots]
  exact s.holdEntry_st k

/-- Settles O46: every post comes down to one of three cases, the entry written (`State.written`), joined to the backlog (`State.joined`),
or written into CE-A's ring (`State.ceaWritten`); what is done to the rings afterwards leaves their accounts alone (`State.ringWork`). -/
theorem postsAreWrittenParkedOrHeld : Obligations.PostsAreWrittenParkedOrHeld := by
  intro s
  refine ⟨fun g f hf hx => ?_, fun k hs => ?_⟩
  · intro r wrote open_ parks
    refine ⟨fun e k he => ?_, fun gi hg => ?_⟩
    · intro key x go
      have hgo : go = .next (postingRequest s (.slot e k)) := rfl
      refine ⟨fun hm h => ?_, fun y hm hst hy hcq hown => ?_, fun hm hh => ?_, fun y ys hm hys hh hd hst hcq hown ho => ?_⟩
      · rw [hgo, postingRequest_silent hm h]
      · have hp : postingRequest s (.slot e k) = s.postSlotEntry g f key y false := by
          rw [postingRequest_final hm hst hy, if_neg he, ← hcq, ← hown]
        rw [hgo, hp]
        refine ⟨fun ho => ⟨_, rfl, State.postSlotEntry_free key y (.inl ho), (State.postSlotEntry_written hf key y hx ho false).wrote⟩,
          fun ho hu => ?_, fun ho hu => ?_⟩
        · obtain ⟨hpark, htail⟩ := State.postSlotEntry_parked key y ho hu
          exact ⟨_, rfl, State.postSlotEntry_free key y (.inr hu), hpark, htail⟩
        · obtain ⟨hst', hb, htail⟩ := State.postSlotEntry_held key y ho hu
          exact ⟨_, rfl, hst', hb, htail⟩
      · rw [hgo, postingRequest_markHeld hm hh]
      · have hp : postingRequest s (.slot e k) = s.postSlotEntry g f key y true := by
          rw [postingRequest_mark he hm hh, ← hcq, ← hown]
        rw [hgo, hp]
        exact ⟨_, rfl, State.postSlotEntry_mark hf key y ho hd hm hys hh hst, (State.postSlotEntry_written hf key y hx ho true).wrote⟩
    · intro go
      have hgo : go = .next (postingRequest s (.redeemed gi)) := rfl
      have hgi : exec (.backlogDrain gi) s = .next (backlogDrain s g) := by rw [← hg]; rfl
      refine ⟨fun h => ?_, fun y rest h hb hc => ?_, fun y rest h => ?_, ?_⟩
      · rw [hgo, postingRequest_redeemed_none hg h]
      · obtain ⟨u, hu, hw⟩ := postingRequest_redeemed_written hf hx hg h hb hc
        have ha : ((postingRequest s (.redeemed gi)).ring g).account = ((s.ring g).taken rest).advanced.account := by rw [hw.ring, hu]
        have hwrote := hw.wrote
        rw [hu] at hwrote
        exact ⟨_, hgo, hwrote, Ring.read_account ha (·.redeemed), Ring.read_account ha (·.resRing)⟩
      · obtain ⟨c, hc, u, hu, hj⟩ := postingRequest_redeemed_parked hf hg h
        have ha := hj.ring
        rw [hu] at ha
        exact ⟨_, hgo, ⟨c, hc, Ring.read_account ha (·.backlog)⟩, Ring.read_account ha (·.redeemed), Ring.read_account ha (·.resPark)⟩
      · intro drain may
        have hdr : drain = .next (backlogDrain s g) := hgi
        refine ⟨fun h => ?_, fun y c rest h => ⟨fun hr => ?_, fun hr hm hc => ?_, fun hr hm h1 h2 => ?_⟩, fun y rest h hm => ?_,
          fun k y rest h => ⟨fun hr => ?_, fun hr hm hk hy => ?_⟩⟩
        · rw [hdr, backlogDrain_waits hf h]
        · rw [hdr, backlogDrain_full h (fun _ => nofun) hr]
        · obtain ⟨hwrote, hlen⟩ := backlogDrain_parked_written hf hx hm hr h hc
          exact ⟨_, hdr, hwrote, hlen⟩
        · have hk := backlogDrain_parked_dropped hf hm hr h h1 h2
          have hring := hk.ring g
          have hlen := hk.waiting g
          rw [State.ring_setRing] at hring hlen
          exact ⟨_, hdr, Ring.read_places hring (·.tail), Ring.read_places hring (·.posted), hlen⟩
        · obtain ⟨u, hu, hw⟩ := backlogDrain_reserved_written hf hx hm h
          have ha : ((backlogDrain s g).ring g).account =
              ({ s.ring g with backlog := rest, resRing := (s.ring g).resRing - 1 } : Ring).advanced.account := by rw [hw.ring, hu]
          have hwrote := hw.wrote
          rw [hu] at hwrote
          exact ⟨_, hdr, hwrote, Ring.read_account ha (·.backlog), Ring.read_account ha (·.resRing)⟩
        · rw [hdr, backlogDrain_full h (fun _ => nofun) hr]
        · obtain ⟨⟨u, hu, hw⟩, hfree⟩ := backlogDrain_held_written hf hx hm hr h hk hy
          have ha : ((backlogDrain s g).ring g).account = ((s.ring g).popped rest).advanced.account := by rw [hw.ring, hu]
          have hwrote := hw.wrote
          rw [hu] at hwrote
          exact ⟨_, hdr, hwrote, Ring.read_account ha (·.backlog), hfree⟩
  · intro key x tail wrote
    refine ⟨fun y hm hst hy => ?_, fun y rest h => ?_, fun h => ?_⟩
    · have hp : exec (.postingRequest (.slot 64 k)) s = .next (s.ceaPost key y false) :=
        congrArg Host.Outcome.next ((postingRequest_final (e := 64) hm hst hy).trans (if_pos rfl))
      refine ⟨fun hr => ?_, fun hr => ?_⟩
      · obtain ⟨hfree, hw⟩ := State.ceaPost_written hs key y hr
        exact ⟨_, hp, hfree, hw.stored, hw.pend, hw.tail⟩
      · obtain ⟨hst', hkept⟩ := State.ceaPost_held s key y hr
        exact ⟨_, hp, hst', hkept⟩
    · obtain ⟨hw, hred, hres⟩ := postingRequest_redeemedCeA hs h
      exact ⟨_, rfl, ⟨hw.stored, hw.pend, hw.tail⟩, hred, hres⟩
    · exact congrArg Host.Outcome.next (postingRequest_redeemedCeA_none h)

end Sys2Proof.Machine

namespace Sys2Proof.Machine

/-! # Weir decides (R113, R118 to R120, R421)

What each step of a decision makes of the rings: a reservation is released, a START is consumed or held, an operation is bound. -/

/-! ## The START that is decided first (R120) -/

/-- The lower-numbered queue of two STARTs; the earlier one within a queue. -/
def lowerStart (b : Option Start) (x : Start) : Option Start :=
  match b with
  | none => some x
  | some y => if x.ring < y.ring then some x else some y

theorem nextStart_eq (ws : List Start) : nextStart ws = ws.foldl lowerStart none := rfl

theorem foldl_lowerStart (ws : List Start) (b : Start) : ∃ x, ws.foldl lowerStart (some b) = some x ∧ (x = b ∨ x ∈ ws) ∧
    x.ring ≤ b.ring ∧ ∀ y ∈ ws, x.ring ≤ y.ring := by
  induction ws generalizing b with
  | nil => exact ⟨b, rfl, .inl rfl, le_rfl, by simp⟩
  | cons w ws ih =>
    by_cases hw : w.ring < b.ring
    · obtain ⟨x, hx, hmem, hle, hall⟩ := ih w
      refine ⟨x, by rwa [List.foldl_cons, lowerStart, if_pos hw], ?_, by omega, ?_⟩
      · rcases hmem with rfl | hmem
        · exact .inr List.mem_cons_self
        · exact .inr (List.mem_cons_of_mem _ hmem)
      · intro y hy
        rcases List.mem_cons.1 hy with rfl | hy
        · exact hle
        · exact hall y hy
    · obtain ⟨x, hx, hmem, hle, hall⟩ := ih b
      refine ⟨x, by rwa [List.foldl_cons, lowerStart, if_neg hw], ?_, hle, ?_⟩
      · rcases hmem with rfl | hmem
        · exact .inl rfl
        · exact .inr (List.mem_cons_of_mem _ hmem)
      · intro y hy
        rcases List.mem_cons.1 hy with rfl | hy
        · omega
        · exact hall y hy

theorem nextStart_lowest {ws : List Start} {x : Start} (h : nextStart ws = some x) : x ∈ ws ∧ ∀ y ∈ ws, x.ring ≤ y.ring := by
  rw [nextStart_eq] at h
  cases ws with
  | nil => cases h
  | cons w ws =>
    obtain ⟨z, hz, hmem, hle, hall⟩ := foldl_lowerStart ws w
    have hzx : z = x := Option.some.inj (hz.symm.trans h)
    subst hzx
    refine ⟨List.mem_cons.2 hmem, fun y hy => ?_⟩
    rcases List.mem_cons.1 hy with rfl | hy
    · exact hle
    · exact hall y hy

/-! ## Rings: one is replaced, then they are served -/

/-- Replacing a ring twice is replacing it once. -/
theorem State.ringWork_setRing_twice (s : State) (g : Nat) (x y : Ring) : (s.setRing g y).ringWork ((s.setRing g x).setRing g y) := by
  have hring (k : Nat) : ((s.setRing g x).setRing g y).ring k = (s.setRing g y).ring k := by
    by_cases hk : k = g
    · rw [hk, State.ring_setRing, State.ring_setRing]
    · rw [State.ring_setRing_other _ y hk, State.ring_setRing_other _ x hk, State.ring_setRing_other _ y hk]
  exact ⟨rfl, rfl, rfl, fun _ _ _ => rfl, fun _ _ _ _ _ h => h, fun k => by rw [hring], fun k => .inl (by rw [hring])⟩

theorem State.ringWork_hwWrite (s : State) (w : Nat) : s.ringWork (s.hwWrite w) := State.ringWork_of_onlyMem (onlyMem_hwWrite s w)

/-- A work queue whose START of `len` further units has been consumed (R169, R175). -/
def Ring.consumedOne (r : Ring) (len : Nat) : Ring :=
  { r with
    inWeir := false, head := if r.head + len ≥ r.units16 then r.head + len - r.units16 else r.head + len
    lapx := if r.head + len ≥ r.units16 then !r.lapx else r.lapx, consumed := r.consumed + 1#32
    units := r.units.filter (fun u => !(decide (r.head ≤ u.idx) && decide (u.idx < r.head + len))), need := none }

/-- A decided START leaves Weir and is consumed. -/
theorem State.ringWork_decided (s : State) (g len : Nat) :
    (s.setRing g ((s.ring g).consumedOne len)).ringWork (s.decided g len) := by
  unfold State.decided
  extract_lets r u
  have hu : (s.setRing g ((s.ring g).consumedOne len)).ringWork u := by
    have hring : (s.setRing g { s.ring g with inWeir := false }).ring g = { s.ring g with inWeir := false } := State.ring_setRing s g _
    have hc : u = (((s.setRing g { s.ring g with inWeir := false }).setRing g ((s.ring g).consumedOne len)).hwWrite (ctxAddr g)) := by
      show State.consume _ g len = _
      unfold State.consume
      dsimp only
      rw [hring]
      rfl
    rw [hc]
    exact (State.ringWork_setRing_twice s g _ _).trans (State.ringWork_hwWrite _ _)
  clear_value u
  split
  · exact hu.trans ((State.ringWork_prefetch u g _).trans (State.ringWork_roomUpdate _ _))
  · exact hu

/-- A completion ring one of whose reservations is released (R118). -/
def Ring.released (r : Ring) (inRing : Bool) : Ring :=
  if inRing then { r with resRing := r.resRing - 1 } else { r with resPark := r.resPark - 1 }

theorem Ring.released_resRing (r : Ring) (inRing : Bool) : (r.released inRing).resRing = r.resRing - (if inRing then 1 else 0) := by
  cases inRing <;> rfl

theorem Ring.released_resPark (r : Ring) (inRing : Bool) : (r.released inRing).resPark = r.resPark - (if inRing then 0 else 1) := by
  cases inRing <;> rfl

/-- What a ring replaced by another of which the same is said: it is said of every ring as before. -/
theorem State.read_setRing {α : Type} (s : State) {g : Nat} {x : Ring} (p : Ring → α) (h : p x = p (s.ring g)) (k : Nat) :
    p ((s.setRing g x).ring k) = p (s.ring k) := by
  by_cases hk : k = g
  · rw [hk, State.ring_setRing, h]
  · rw [State.ring_setRing_other s x hk]

theorem Ring.read_released {α : Type} (r : Ring) (inRing : Bool) (p : Ring → α)
    (h : ∀ (z : Ring) (a b : Nat), p { z with resRing := a, resPark := b } = p z) : p (r.released inRing) = p r := by
  cases inRing
  · exact h r r.resRing (r.resPark - 1)
  · exact h r (r.resRing - 1) r.resPark

theorem State.ringKept_unreserve (s : State) (g f : Nat) (inRing : Bool) :
    (s.setRing g ((s.ring g).released inRing)).ringKept (s.unreserve g f inRing) := by
  cases inRing with
  | true => exact (State.ringWork_roomUpdate _ g).kept
  | false => exact (State.ringKept_shareFreed _ f).trans (State.ringWork_roomUpdate _ g).kept

/-- Reservations aside, what a ring accounts for outside its backlog is not touched. -/
theorem State.unreserve_read {α : Type} (s : State) (g f : Nat) (inRing : Bool) (k : Nat) (p : Ring → α)
    (h : ∀ z, p z.places = p z := by intro; rfl)
    (h' : ∀ (z : Ring) (a b : Nat), p { z with resRing := a, resPark := b } = p z := by intros; rfl) :
    p ((s.unreserve g f inRing).ring k) = p (s.ring k) :=
  (Ring.read_places ((s.ringKept_unreserve g f inRing).ring k) p h).trans (s.read_setRing p (Ring.read_released _ inRing p h') k)

theorem State.unreserve_reserved (s : State) (g f : Nat) (inRing : Bool) :
    ((s.unreserve g f inRing).ring g).resRing = (s.ring g).resRing - (if inRing then 1 else 0) ∧
      ((s.unreserve g f inRing).ring g).resPark = (s.ring g).resPark - (if inRing then 0 else 1) := by
  have h := (s.ringKept_unreserve g f inRing).ring g
  rw [State.ring_setRing] at h
  exact ⟨(Ring.read_places h (·.resRing)).trans (Ring.released_resRing _ inRing),
    (Ring.read_places h (·.resPark)).trans (Ring.released_resPark _ inRing)⟩

/-- A queue whose START is inside Weir keeps its state. -/
theorem State.unreserve_st (s : State) (g f : Nat) (inRing : Bool) {k : Nat} (h : (s.ring k).inWeir = true) :
    ((s.unreserve g f inRing).ring k).st = (s.ring k).st := by
  have hst := s.read_setRing (·.st) (Ring.read_released (s.ring g) inRing (·.st) fun _ _ _ => rfl) k
  have hin := s.read_setRing (·.inWeir) (Ring.read_released (s.ring g) inRing (·.inWeir) fun _ _ _ => rfl) k
  rcases (s.ringKept_unreserve g f inRing).st k with hk | ⟨hk, -⟩
  · exact hk.trans hst
  · rw [hin, h] at hk
    cases hk

/-- A reservation of the ring itself, given back, moves no held entry. -/
theorem State.unreserve_slots (s : State) (g f : Nat) : (s.unreserve g f true).slots = s.slots :=
  (State.ringWork_roomUpdate (s.setRing g ((s.ring g).released true)) g).slots

/-! ## A START goes back to its queue (R421, R494) -/

theorem State.leaveScan_work (s : State) (g st : Nat) : (s.setRing g { s.ring g with st := st }).ringWork (s.leaveScan g st) := by
  have h1 : (s.setRing g { s.ring g with st := st }).ringWork
      (s.setRing g { s.ring g with st := st, buf := false, units := [], reads := [], need := none }) := by
    refine ⟨rfl, rfl, rfl, fun _ _ _ => rfl, fun _ _ _ _ _ h => h, fun k => ?_, fun k => .inl ?_⟩
    · by_cases hk : k = g
      · rw [hk, State.ring_setRing, State.ring_setRing]
        rfl
      · rw [State.ring_setRing_other _ _ hk, State.ring_setRing_other _ _ hk]
    · by_cases hk : k = g
      · rw [hk, State.ring_setRing, State.ring_setRing]
      · rw [State.ring_setRing_other _ _ hk, State.ring_setRing_other _ _ hk]
  exact h1.trans (State.ringWork_grantBuffer _)

/-- A held queue has left SCAN; Weir is as it was. -/
theorem State.holdStart_spec (s : State) (g f : Nat) (x : Start) :
    (s.holdStart g f x).weir = s.weir ∧ ((s.holdStart g f x).ring g).st = 3 := by
  have hw := s.leaveScan_work g 3
  have hst : ((s.leaveScan g 3).ring g).st = 3 := by
    rcases hw.st g with h | h
    · rw [h, State.ring_setRing]
    · exact h.2
  unfold State.holdStart
  generalize s.leaveScan g 3 = u at hw hst
  refine ⟨hw.weir, ?_⟩
  dsimp only
  rw [State.ring_setRing]
  split
  · exact hst
  · exact hst

/-- What waits for a START aside, what a ring accounts for is not touched where its queue is held. -/
theorem State.holdStart_read {α : Type} (s : State) (g f : Nat) (x : Start) (k : Nat) (p : Ring → α)
    (h : ∀ z, p z.account = p z := by intro; rfl)
    (h' : ∀ (z : Ring) a b c, p { z with st := a, jnHold := b, heldStart := c } = p z := by intros; rfl) :
    p ((s.holdStart g f x).ring k) = p (s.ring k) := by
  have hw : p ((s.leaveScan g 3).ring k) = p (s.ring k) :=
    (Ring.read_account ((s.leaveScan_work g 3).ring k) p h).trans (s.read_setRing p (h' (s.ring g) 3 _ _) k)
  refine (State.read_setRing _ p ?_ k).trans hw
  split
  · exact h' _ _ true _
  · exact h' _ _ _ (some x)

/-- The START of queue g is no longer inside Weir. -/
def State.outOfWeir (s : State) (g : Nat) : State := s.setRing g { s.ring g with inWeir := false }

theorem State.outOfWeir_inWeir (s : State) (g : Nat) : ((s.outOfWeir g).ring g).inWeir = false := by
  rw [State.outOfWeir, State.ring_setRing]

theorem State.outOfWeir_read {α : Type} (s : State) (g k : Nat) (p : Ring → α)
    (h : ∀ (z : Ring) b, p { z with inWeir := b } = p z := by intros; rfl) : p ((s.outOfWeir g).ring k) = p (s.ring k) :=
  s.read_setRing p (h _ _) k

/-- The reservation of a START that leaves Weir, undecided, has been released. -/
def State.unsent (s : State) (x : Start) : State := State.unreserve { s with weir := s.weir.erase x } x.cq x.fn x.inRing

theorem State.sendBack_eq (s : State) (x : Start) : s.sendBack x =
    if ((s.unsent x).ring x.ring).typ = 1 ∧ ((s.unsent x).ring x.ring).st = 2 ∧ ((s.unsent x).ring x.ring).inWeir then
      ((s.unsent x).outOfWeir x.ring).holdStart x.ring x.fn x else (s.unsent x).outOfWeir x.ring := rfl

/-- A START that must wait leaves Weir with its reservation released, and its queue is HELD with the START at HEAD. -/
theorem State.sendBack_spec (s : State) (x : Start) :
    (s.sendBack x).weir = s.weir.erase x ∧ ((s.sendBack x).ring x.ring).head = (s.ring x.ring).head ∧
      ((s.sendBack x).ring x.ring).inWeir = false ∧
      ((s.sendBack x).ring x.cq).resRing = (s.ring x.cq).resRing - (if x.inRing then 1 else 0) ∧
      ((s.ring x.ring).typ = 1 → (s.ring x.ring).st = 2 → (s.ring x.ring).inWeir = true → ((s.sendBack x).ring x.ring).st = 3) := by
  have hweir : (s.unsent x).weir = s.weir.erase x := (State.ringKept_unreserve { s with weir := s.weir.erase x } x.cq x.fn x.inRing).weir
  have hhead : ((s.unsent x).ring x.ring).head = (s.ring x.ring).head := State.unreserve_read _ _ _ _ _ (·.head)
  have htyp : ((s.unsent x).ring x.ring).typ = (s.ring x.ring).typ := State.unreserve_read _ _ _ _ _ (·.typ)
  have hin : ((s.unsent x).ring x.ring).inWeir = (s.ring x.ring).inWeir := State.unreserve_read _ _ _ _ _ (·.inWeir)
  have hres : ((s.unsent x).ring x.cq).resRing = (s.ring x.cq).resRing - (if x.inRing then 1 else 0) :=
    (State.unreserve_reserved { s with weir := s.weir.erase x } x.cq x.fn x.inRing).1
  have hst (h : (s.ring x.ring).inWeir = true) : ((s.unsent x).ring x.ring).st = (s.ring x.ring).st :=
    State.unreserve_st { s with weir := s.weir.erase x } x.cq x.fn x.inRing h
  rw [State.sendBack_eq, htyp, hin]
  generalize s.unsent x = u at hweir hhead htyp hin hres hst
  have hweir' : (u.outOfWeir x.ring).weir = s.weir.erase x := hweir
  have hhead' := (u.outOfWeir_read x.ring x.ring (·.head)).trans hhead
  have hres' := (u.outOfWeir_read x.ring x.cq (·.resRing)).trans hres
  have hin' := u.outOfWeir_inWeir x.ring
  generalize u.outOfWeir x.ring = v at hweir' hhead' hres' hin'
  split
  · obtain ⟨hw3, hst3⟩ := v.holdStart_spec x.ring x.fn x
    exact ⟨hw3.trans hweir', (v.holdStart_read x.ring x.fn x x.ring (·.head)).trans hhead',
      (v.holdStart_read x.ring x.fn x x.ring (·.inWeir)).trans hin', (v.holdStart_read x.ring x.fn x x.cq (·.resRing)).trans hres',
      fun _ _ _ => hst3⟩
  · next hno => exact ⟨hweir', hhead', hin', hres', fun h1 h2 h3 => absurd ⟨h1, (hst h3).trans h2, h3⟩ hno⟩

end Sys2Proof.Machine

namespace Sys2Proof.Machine

/-! # A START is decided (R113, R118 to R120) -/

/-- The consumed START aside, what a ring accounts for is not touched when it leaves Weir. -/
theorem State.decided_read {α : Type} (s : State) (g len k : Nat) (p : Ring → α)
    (h : ∀ z, p z.account = p z := by intro; rfl) (h' : ∀ z : Ring, p (z.consumedOne len) = p z := by intro; rfl) :
    p ((s.decided g len).ring k) = p (s.ring k) :=
  (Ring.read_account ((s.ringWork_decided g len).ring k) p h).trans (s.read_setRing p (h' _) k)

/-- The entry is consumed and counted, and the queue is no longer inside Weir. -/
theorem State.decided_consumed (s : State) (g len : Nat) :
    ((s.decided g len).ring g).consumed = (s.ring g).consumed + 1#32 ∧ ((s.decided g len).ring g).inWeir = false := by
  have h := (s.ringWork_decided g len).ring g
  rw [State.ring_setRing] at h
  exact ⟨Ring.read_account h (·.consumed), Ring.read_account h (·.inWeir)⟩

/-! ## Verdicts -/

/-- The register in which a verdict is counted (R130). -/
def Verdict.counter : Verdict → Nat
  | .refuse _ => 0x0430002C
  | .accept _ false _ => 0x04300020
  | .accept _ true 0 => 0x04300024
  | .accept _ true _ => 0x04300028

theorem State.countVerdict_eq (s : State) (v : Verdict) : s.countVerdict v = s.setReg v.counter (satInc (s.reg v.counter)) := by
  cases v with
  | refuse c => rfl
  | accept e be r =>
    cases be
    · rfl
    · cases r <;> rfl

/-- What Weir has made of a START before its verdict takes effect: it is out of Weir and counted. -/
def State.verdictCounted (s : State) (x : Start) : State := State.countVerdict { s with weir := s.weir.erase x } (s.weirVerdict x)

theorem State.redeem_read {α : Type} (s : State) (g : Nat) (y : Entry) (inRing : Bool) (k : Nat) (p : Ring → α)
    (h : ∀ (z : Ring) l, p { z with redeemed := l } = p z := by intros; rfl) : p ((s.redeem g y inRing).ring k) = p (s.ring k) :=
  s.read_setRing p (h _ _) k

theorem State.redeem_redeemed (s : State) (g : Nat) (y : Entry) (inRing : Bool) :
    ((s.redeem g y inRing).ring g).redeemed = (s.ring g).redeemed ++ [(y, inRing)] := by rw [State.redeem, State.ring_setRing]

/-- Where the operation of an accepted START lies, and what its slot says of it (R74, R78, R110). -/
structure Slot.admits (y : Slot) (x : Start) (e : Nat) (be : Bool) (cq t : Nat) : Prop where
  st : y.st = .admitted
  owner : y.owner = if e = 64 then 16 else x.fn
  station : y.station = x.station
  tag : y.tag = x.tag
  prog : y.prog = x.prog
  be : y.be = be
  cq : y.cq = cq
  accept : y.accept = t

theorem State.bind_form (s : State) (x : Start) (e k : Nat) (be : Bool) (reason cq : Nat) : ∃ y : Slot, ∃ n j,
    y.admits x e be cq s.time ∧
      s.bind x e k be reason cq = (State.setSlot { s with seq := n, jn := j } (slotKey e k) y).hwWrite (slotAddr (slotKey e k)) := by
  unfold State.bind
  extract_lets d t i u
  have hu : ∃ j, u = { s with seq := s.seq + 1, jn := j } := by
    dsimp only [u]
    split
    · exact ⟨_, rfl⟩
    · exact ⟨s.jn, rfl⟩
  obtain ⟨j, hj⟩ := hu
  clear_value u
  subst hj
  split
  exact ⟨_, _, _, ⟨rfl, rfl, rfl, rfl, rfl, rfl, rfl, rfl⟩, rfl⟩

/-- Binding fills one slot, and changes neither rings nor Weir. -/
theorem State.bind_spec (s : State) (x : Start) (e k : Nat) (be : Bool) (reason cq : Nat) :
    ((s.bind x e k be reason cq).slot (slotKey e k)).admits x e be cq s.time ∧
      (∀ j, j ≠ slotKey e k → (s.bind x e k be reason cq).slot j = s.slot j) ∧
      (s.bind x e k be reason cq).weir = s.weir ∧ (s.bind x e k be reason cq).rings = s.rings := by
  obtain ⟨y, n, j, hy, hb⟩ := s.bind_form x e k be reason cq
  have hmem := onlyMem_hwWrite (State.setSlot { s with seq := n, jn := j } (slotKey e k) y) (slotAddr (slotKey e k))
  rw [hb]
  refine ⟨?_, fun i hi => ?_, by rw [hmem.1]; rfl, by rw [hmem.1]; rfl⟩
  · rwa [hmem.slot, State.slot_setSlot]
  · rw [hmem.slot, State.slot_setSlot_other _ y hi]
    rfl

/-! ## The decision -/

section
variable {s : State} {x : Start} (hx : nextStart s.weir = some x)
include hx

theorem admissionDecision_off (h : s.domOn domU4RT = false) : admissionDecision s = s := by
  unfold admissionDecision
  rw [hx]
  dsimp only
  rw [h]
  rfl

theorem admissionDecision_held (h : s.startHeld x false = true) (hd : s.domOn domU4RT = true) : admissionDecision s = s.sendBack x := by
  unfold admissionDecision
  rw [hx]
  dsimp only
  rw [hd, h]
  rfl

variable (h : s.startHeld x false = false) (hd : s.domOn domU4RT = true)
include h hd

theorem admissionDecision_refuses {code : Nat} (hv : s.weirVerdict x = .refuse code) : admissionDecision s =
    ((s.verdictCounted x).redeem x.cq (refusalEntry x.ringIndex x.tag code s.time) x.inRing).decided x.ring x.len := by
  unfold admissionDecision State.verdictCounted
  rw [hx]
  dsimp only
  rw [hd, h, hv]
  rfl

theorem admissionDecision_binds {e k reason : Nat} {be : Bool} (hv : s.weirVerdict x = .accept e be reason) (hk : s.idleSlot e = some k) :
    admissionDecision s =
      (((s.verdictCounted x).unreserve x.cq x.fn x.inRing).bind x e k be reason x.cq).decided x.ring x.len := by
  unfold admissionDecision State.verdictCounted
  rw [hx]
  dsimp only
  rw [hd, h, hv]
  dsimp only
  rw [hk]
  rfl

theorem admissionDecision_full {e reason : Nat} {be : Bool} (hv : s.weirVerdict x = .accept e be reason) (hk : s.idleSlot e = none) :
    admissionDecision s = ((s.verdictCounted x).unreserve x.cq x.fn x.inRing).decided x.ring x.len := by
  unfold admissionDecision State.verdictCounted
  rw [hx]
  dsimp only
  rw [hd, h, hv]
  dsimp only
  rw [hk]
  rfl

end

/-! ## What a decision leaves -/

theorem State.verdictCounted_spec (s : State) (x : Start) : (s.verdictCounted x).weir = s.weir.erase x ∧
    (s.verdictCounted x).rings = s.rings ∧ (s.verdictCounted x).slots = s.slots ∧ (s.verdictCounted x).time = s.time ∧
    (s.verdictCounted x).reg (s.weirVerdict x).counter = satInc (s.reg (s.weirVerdict x).counter) := by
  have h : s.verdictCounted x = State.setReg { s with weir := s.weir.erase x } (s.weirVerdict x).counter
      (satInc (s.reg (s.weirVerdict x).counter)) := State.countVerdict_eq _ _
  rw [h]
  exact ⟨rfl, rfl, rfl, rfl, State.reg_setReg_self _ _ _⟩

theorem State.verdictCounted_ring (s : State) (x : Start) (k : Nat) : (s.verdictCounted x).ring k = s.ring k := by
  rw [State.ring, (s.verdictCounted_spec x).2.1]
  rfl

/-- Its reservation released, an accepted START has left Weir and is counted. -/
theorem State.verdictCounted_unreserve (s : State) (x : Start) :
    ((s.verdictCounted x).unreserve x.cq x.fn x.inRing).weir = s.weir.erase x ∧
    ((s.verdictCounted x).unreserve x.cq x.fn x.inRing).time = s.time ∧
    (x.inRing = true → ((s.verdictCounted x).unreserve x.cq x.fn x.inRing).slots = s.slots) ∧
    (((s.verdictCounted x).unreserve x.cq x.fn x.inRing).ring x.ring).consumed = (s.ring x.ring).consumed ∧
    (((s.verdictCounted x).unreserve x.cq x.fn x.inRing).ring x.cq).resRing = (s.ring x.cq).resRing - (if x.inRing then 1 else 0) ∧
    (((s.verdictCounted x).unreserve x.cq x.fn x.inRing).ring x.cq).resPark = (s.ring x.cq).resPark - (if x.inRing then 0 else 1) := by
  obtain ⟨hweir, -, hslots, htime, -⟩ := s.verdictCounted_spec x
  have hring := s.verdictCounted_ring x
  generalize s.verdictCounted x = u at hweir hslots htime hring
  have hk := u.ringKept_unreserve x.cq x.fn x.inRing
  obtain ⟨hres, hpark⟩ := u.unreserve_reserved x.cq x.fn x.inRing
  have hc := (u.unreserve_read x.cq x.fn x.inRing x.ring (·.consumed)).trans (congrArg Ring.consumed (hring _))
  rw [hring] at hres hpark
  refine ⟨hk.weir.trans hweir, hk.time.trans htime, fun hin => ?_, hc, hres, hpark⟩
  rw [hin]
  exact (u.unreserve_slots x.cq x.fn).trans hslots

/-- A START has been decided: it is out of Weir, its entry is consumed and counted. -/
structure State.decides (s t : State) (x : Start) : Prop where
  weir : t.weir = s.weir.erase x
  consumed : (t.ring x.ring).consumed = (s.ring x.ring).consumed + 1#32
  inWeir : (t.ring x.ring).inWeir = false

theorem State.decides_decided {s u : State} {x : Start} (len : Nat) (hw : u.weir = s.weir.erase x)
    (hc : (u.ring x.ring).consumed = (s.ring x.ring).consumed) : s.decides (u.decided x.ring len) x := by
  obtain ⟨h1, h2⟩ := u.decided_consumed x.ring len
  exact ⟨(u.ringWork_decided x.ring len).weir.trans hw, by rw [h1, hc], h2⟩

section
variable {s : State} {x : Start} (hx : nextStart s.weir = some x) (h : s.startHeld x false = false) (hd : s.domOn domU4RT = true)
include hx h hd

/-- A refusal is redeemed from the START's reservation; no slot changes. -/
theorem admissionDecision_refused {code : Nat} (hv : s.weirVerdict x = .refuse code) :
    s.decides (admissionDecision s) x ∧ (admissionDecision s).slots = s.slots ∧
      (admissionDecision s).reg 0x0430002C = satInc (s.reg 0x0430002C) ∧
      ((admissionDecision s).ring x.cq).redeemed =
        (s.ring x.cq).redeemed ++ [(refusalEntry x.ringIndex x.tag code s.time, x.inRing)] := by
  obtain ⟨hweir, -, hslots, -, hreg⟩ := s.verdictCounted_spec x
  have hring := s.verdictCounted_ring x
  rw [hv] at hreg
  rw [admissionDecision_refuses hx h hd hv]
  generalize s.verdictCounted x = u at hweir hslots hreg hring
  generalize hy : refusalEntry x.ringIndex x.tag code s.time = y
  have hc := (u.redeem_read x.cq y x.inRing x.ring (·.consumed)).trans (congrArg Ring.consumed (hring _))
  have hr := u.redeem_redeemed x.cq y x.inRing
  rw [hring] at hr
  have hrw : (u.redeem x.cq y x.inRing).weir = s.weir.erase x := hweir
  have hrs : (u.redeem x.cq y x.inRing).slots = s.slots := hslots
  have hrr : (u.redeem x.cq y x.inRing).reg 0x0430002C = satInc (s.reg 0x0430002C) := hreg
  generalize u.redeem x.cq y x.inRing = v at hc hr hrw hrs hrr
  have hwork := v.ringWork_decided x.ring x.len
  exact ⟨State.decides_decided x.len hrw hc, hwork.slots.trans hrs, (hwork.reg _ (by decide) (by decide)).trans hrr,
    (v.decided_read x.ring x.len x.cq (·.redeemed)).trans hr⟩

/-- An accepted START fills an IDLE slot, and its reservation is released. -/
theorem admissionDecision_bound {e k reason : Nat} {be : Bool} (hv : s.weirVerdict x = .accept e be reason) (hk : s.idleSlot e = some k) :
    s.decides (admissionDecision s) x ∧ ((admissionDecision s).slot (slotKey e k)).admits x e be x.cq s.time ∧
      (x.inRing = true → ∀ j, j ≠ slotKey e k → (admissionDecision s).slot j = s.slot j) ∧
      ((admissionDecision s).ring x.cq).resRing = (s.ring x.cq).resRing - (if x.inRing then 1 else 0) ∧
      ((admissionDecision s).ring x.cq).resPark = (s.ring x.cq).resPark - (if x.inRing then 0 else 1) := by
  obtain ⟨hweir, htime, hslots, hc, hres, hpark⟩ := s.verdictCounted_unreserve x
  rw [admissionDecision_binds hx h hd hv hk]
  generalize (s.verdictCounted x).unreserve x.cq x.fn x.inRing = u at hweir htime hslots hc hres hpark
  obtain ⟨hslot, hothers, hbweir, hbrings⟩ := u.bind_spec x e k be reason x.cq
  have hring (j : Nat) : (u.bind x e k be reason x.cq).ring j = u.ring j := by rw [State.ring, hbrings]; rfl
  generalize u.bind x e k be reason x.cq = v at hslot hothers hbweir hring
  have hwork := v.ringWork_decided x.ring x.len
  refine ⟨State.decides_decided x.len (hbweir.trans hweir) (by rw [hring, hc]), ?_, fun hin j hj => ?_, ?_, ?_⟩
  · rw [hwork.slot]
    exact htime ▸ hslot
  · rw [hwork.slot]
    calc v.slot j = u.slot j := hothers j hj
      _ = s.slot j := by rw [State.slot, hslots hin]; rfl
  · exact (v.decided_read x.ring x.len x.cq (·.resRing)).trans (by rw [hring, hres])
  · exact (v.decided_read x.ring x.len x.cq (·.resPark)).trans (by rw [hring, hpark])

/-- Every verdict decides its START, also one whose engine has no IDLE slot. -/
theorem admissionDecision_decides : s.decides (admissionDecision s) x := by
  cases hv : s.weirVerdict x with
  | refuse code => exact (admissionDecision_refused hx h hd hv).1
  | accept e be reason =>
    cases hk : s.idleSlot e with
    | some k => exact (admissionDecision_bound hx h hd hv hk).1
    | none =>
      obtain ⟨hweir, -, -, hc, -, -⟩ := s.verdictCounted_unreserve x
      rw [admissionDecision_full hx h hd hv hk]
      exact State.decides_decided x.len hweir hc

end

/-! ## CE-A decides (R128) -/

section
variable {s : State} {x : Start} {xs : List Start} (hx : s.ceaWeir = x :: xs)
include hx

theorem ceAAdmission_held (h : s.startHeld x true = true) : ceAAdmission s = s := by
  unfold ceAAdmission
  rw [hx]
  exact if_pos h

theorem ceAAdmission_refuses (h : s.startHeld x true = false) {code : Nat} (hv : s.ceaVerdict x = .refuse code) :
    ceAAdmission s = ((State.ceaConsume { s with
      ceaWeir := [], cea := { s.cea with redeemed := s.cea.redeemed ++ [refusalEntry x.ringIndex x.tag code s.time] } } x.len).ceaScanOn) := by
  unfold ceAAdmission
  rw [hx]
  dsimp only
  rw [if_neg (by simp [h]), hv]

theorem ceAAdmission_binds (h : s.startHeld x true = false) {e k reason : Nat} {be : Bool} (hv : s.ceaVerdict x = .accept e be reason)
    (hk : s.idleSlot e = some k) : ceAAdmission s =
      ((State.bind (State.ceaRoomed { s with ceaWeir := [], cea := { s.cea with res := s.cea.res - 1 } }) x e k be reason 0).ceaConsume
        x.len).ceaScanOn := by
  unfold ceAAdmission
  rw [hx]
  dsimp only
  rw [if_neg (by simp [h]), hv]
  dsimp only
  rw [hk]

end

/-! ## The order of the tests (R113) -/

/-- Weir and the START's function are enabled. -/
def State.admits (s : State) (x : Start) : Prop := bit (s.reg 0x04300008) 0 = true ∧ bit (s.reg (0x04300200 + 16 * x.fn)) 0 = true

section
variable {s : State} {x : Start}

theorem State.weirVerdict_disabled (h : ¬ s.admits x) : s.weirVerdict x = .refuse 1 := by
  refine if_pos ?_
  unfold State.admits at h
  cases h1 : bit (s.reg 0x04300008) 0 <;> cases h2 : bit (s.reg (0x04300200 + 16 * x.fn)) 0 <;> simp_all

variable (h : s.admits x)
include h

theorem State.admits.enabled : ¬ (!bit (s.reg 0x04300008) 0 || !bit (s.reg (0x04300200 + 16 * x.fn)) 0) = true := by
  rw [h.1, h.2]
  simp

theorem State.weirVerdict_invalid (hv : s.staVALID x.station = false) : s.weirVerdict x = .refuse 2 :=
  (if_neg h.enabled).trans (if_pos (by simp [hv]))

variable (hv : s.staVALID x.station = true)
include hv

theorem State.weirVerdict_foreign (ho : s.staOwner x.station ≠ x.fn) : s.weirVerdict x = .refuse 3 :=
  (if_neg h.enabled).trans <| (if_neg (by simp [hv])).trans (if_pos (by simpa using ho))

variable (ho : s.staOwner x.station = x.fn)
include ho

theorem State.weirVerdict_unpowered (hp : s.domOn (pgDom (s.staLane x.station / 12)) = false) : s.weirVerdict x = .refuse 4 :=
  (if_neg h.enabled).trans <| (if_neg (by simp [hv])).trans <| (if_neg (by simp [ho])).trans (if_pos (by simp [hp]))

theorem State.weirVerdict_claims (hp : s.domOn (pgDom (s.staLane x.station / 12)) = true)
    (hq : SMap.get 0 s.downReq (pgDom (s.staLane x.station / 12)) = 0) (hc : x.busy < 1 ∨ 10000000 < x.busy ∨ x.ccws < 1) :
    s.weirVerdict x = .refuse 5 :=
  (if_neg h.enabled).trans <| (if_neg (by simp [hv])).trans <| (if_neg (by simp [ho])).trans <|
    (if_neg (by simp [hp, hq])).trans (if_pos hc)

end

/-- Settles O43: which START is decided, by induction on the STARTs inside Weir; then one lemma for each way in which it can leave: sent
back (`State.sendBack_spec`), refused (`admissionDecision_refused`) or bound (`admissionDecision_bound`). -/
theorem admissionBindsOrRefuses : Obligations.AdmissionBindsOrRefuses := by
  intro s
  refine ⟨fun h => ?_, fun x hx => ?_, fun h => ?_, fun x xs hx => ?_, fun x => ?_⟩
  · refine congrArg Host.Outcome.next ?_
    unfold admissionDecision
    rw [h]
    rfl
  · obtain ⟨hmem, hlow⟩ := nextStart_lowest hx
    refine ⟨hmem, hlow, fun hd => congrArg Host.Outcome.next (admissionDecision_off hx hd), fun h hd => ?_, fun h hd => ?_⟩
    · exact ⟨_, congrArg Host.Outcome.next (admissionDecision_held hx h hd), s.sendBack_spec x⟩
    · obtain ⟨hweir, hc, hin⟩ := admissionDecision_decides hx h hd
      refine ⟨_, rfl, hweir, hc, hin, fun code hv => (admissionDecision_refused hx h hd hv).2, fun e be reason k hv hk => ?_⟩
      obtain ⟨-, hslot, hothers, hres, hpark⟩ := admissionDecision_bound hx h hd hv hk
      exact ⟨hslot.st, hslot.owner, hslot.station, hslot.tag, hslot.prog, hslot.be, hslot.cq, hslot.accept, hothers, hres, hpark⟩
  · refine congrArg Host.Outcome.next ?_
    unfold ceAAdmission
    rw [h]
  · exact ⟨fun h => congrArg Host.Outcome.next (ceAAdmission_held hx h), fun h =>
      ⟨fun code hv => congrArg Host.Outcome.next (ceAAdmission_refuses hx h hv),
        fun e be reason k hv hk => congrArg Host.Outcome.next (ceAAdmission_binds hx h hv hk)⟩⟩
  · exact ⟨State.weirVerdict_disabled, State.weirVerdict_invalid, State.weirVerdict_foreign, State.weirVerdict_unpowered,
      State.weirVerdict_claims⟩

end Sys2Proof.Machine

namespace Sys2Proof.Machine

/-! # The tunnel comes and goes (R130, R213, R230) -/

/-! ## Bit fields: what a field reads after a field has been replaced -/

theorem testBit_bitsOf (v : Word) (hi lo i : Nat) : (bitsOf v hi lo).testBit i = (decide (i < hi + 1 - lo) && v.getLsbD (lo + i)) := by
  rw [bitsOf, Nat.testBit_mod_two_pow, Nat.testBit_shiftRight]
  rfl

theorem getLsbD_maskOf (hi lo i : Nat) : (maskOf hi lo).getLsbD i = (decide (i < 32) && decide (lo ≤ i ∧ i ≤ hi)) := by
  rw [maskOf, BitVec.getLsbD_ofNat, Nat.testBit_shiftLeft, Nat.testBit_two_pow_sub_one, ← Bool.decide_and]
  exact congrArg (_ && ·) (decide_eq_decide.2 (by omega))

theorem getLsbD_putBits (v : Word) (hi lo x i : Nat) :
    (putBits v hi lo x).getLsbD i = if lo ≤ i ∧ i ≤ hi then decide (i < 32) && x.testBit (i - lo) else v.getLsbD i := by
  rw [putBits, BitVec.getLsbD_or, BitVec.getLsbD_and, BitVec.getLsbD_not, getLsbD_maskOf, BitVec.getLsbD_ofNat, Nat.testBit_shiftLeft,
    Nat.testBit_mod_two_pow]
  by_cases h : lo ≤ i ∧ i ≤ hi
  · simp [h, show i - lo < hi + 1 - lo by omega]
  · have hout : (decide (i ≥ lo) && decide (i - lo < hi + 1 - lo)) = false := by
      rw [← Bool.decide_and]
      exact decide_eq_false (by omega)
    rw [if_neg h, decide_eq_false h, ← Bool.and_assoc (decide (i ≥ lo)), hout]
    by_cases hi32 : i < 32
    · simp [hi32]
    · simp [hi32, BitVec.getLsbD_of_ge v i (by omega)]

theorem bitsOf_putBits_self (v : Word) {hi lo x : Nat} (hhi : hi < 32) (hx : x < 2 ^ (hi + 1 - lo)) :
    bitsOf (putBits v hi lo x) hi lo = x := by
  refine Nat.eq_of_testBit_eq fun i => ?_
  rw [testBit_bitsOf, getLsbD_putBits]
  by_cases h : i < hi + 1 - lo
  · simp [h, show lo + i ≤ hi by omega, show lo + i < 32 by omega]
  · have hbig : x < 2 ^ i := hx.trans_le (Nat.pow_le_pow_right (by decide) (by omega))
    simp [h, Nat.testBit_lt_two_pow hbig]

theorem bitsOf_putBits_apart (v : Word) {hi lo hi' lo' : Nat} (x : Nat) (h : hi < lo' ∨ hi' < lo) :
    bitsOf (putBits v hi' lo' x) hi lo = bitsOf v hi lo := by
  refine Nat.eq_of_testBit_eq fun i => ?_
  rw [testBit_bitsOf, testBit_bitsOf, getLsbD_putBits]
  by_cases hi : i < hi + 1 - lo
  · rw [if_neg (by omega)]
  · simp [hi]

end Sys2Proof.Machine

namespace Sys2Proof.Machine

/-! ## What a change of the link leaves alone -/

/-- What holds of two states holds of them with the same rings in both. -/
theorem onlyRegs.withRings {s t : State} {as : List Nat} (h : onlyRegs s t as) (r : SMap Ring) :
    onlyRegs { s with rings := r } { t with rings := r } as := by
  obtain ⟨regs, irqs, reports, jn, rfl⟩ := h.form
  exact ⟨rfl, h.2⟩

theorem onlyRegs.withSrcs {s t : State} {as : List Nat} (h : onlyRegs s t as) (x : SMap Source) :
    onlyRegs { s with srcs := x } { t with srcs := x } as := by
  obtain ⟨regs, irqs, reports, jn, rfl⟩ := h.form
  exact ⟨rfl, h.2⟩

/-- What reads none of the four fields reads the same. -/
theorem onlyRegs.read {s t : State} {as : List Nat} {α : Type} (h : onlyRegs s t as) (f : State → α)
    (hf : ∀ (u : State) r i p j, f { u with regs := r, irqs := i, reports := p, jn := j } = f u := by intros; rfl) : f t = f s := by
  obtain ⟨regs, irqs, reports, jn, rfl⟩ := h.form
  exact hf s regs irqs reports jn

theorem onlyRegs_jHostEvent (s : State) (f code value : Nat) : onlyRegs s (s.jHostEvent f code value) [] := onlyRegs_jrec s _ _ _

theorem State.stallUpdate_form (s : State) (g : Nat) : s.stallUpdate g = { s with rings := (s.stallUpdate g).rings } := by
  unfold State.stallUpdate
  dsimp only
  split
  · rfl
  · split <;> rfl

/-- The stall timers belong to the rings (R208). -/
theorem State.stallUpdateAll_form (s : State) : ∃ r, s.stallUpdateAll = { s with rings := r } := by
  unfold State.stallUpdateAll
  generalize s.rings = l
  induction l generalizing s with
  | nil => exact ⟨s.rings, rfl⟩
  | cons x l ih =>
    obtain ⟨g, ring⟩ := x
    rw [List.foldl_cons]
    dsimp only
    split
    · obtain ⟨r, hr⟩ := ih (State.stallUpdate _ g)
      refine ⟨r, hr.trans ?_⟩
      rw [State.stallUpdate_form]
      split <;> rfl
    · exact ih s

/-- The change is recorded, and the stall timers follow it: registers outside the journal's block read as before. -/
theorem onlyRegs_linkEvent (s : State) (v : Nat) : ∃ r, onlyRegs { s with rings := r } (s.jHostEvent 0 4 v).stallUpdateAll [] := by
  obtain ⟨r, hr⟩ := (s.jHostEvent 0 4 v).stallUpdateAll_form
  exact ⟨r, hr ▸ (onlyRegs_jHostEvent s 0 4 v).withRings r⟩

/-- Outside REPLAY what was held leaves the part in its order; in every mode nothing else changes. -/
theorem State.foldl_emit_form (s : State) (l : List Out) : ∃ o, l.foldl State.emit s = { s with out := o } ∧
    (s.mode ≠ 0xA → o = s.out ++ l) := by
  induction l generalizing s with
  | nil => exact ⟨s.out, rfl, fun _ => (List.append_nil _).symm⟩
  | cons x l ih =>
    obtain ⟨o, ho, hout⟩ := ih (s.emit x)
    refine ⟨o, ho.trans (by rw [State.emit_form]), fun hm => ?_⟩
    have hx : (s.emit x).out = s.out ++ [x] := by rw [State.emit, if_neg (by simp [hm])]
    rw [hout (by rwa [State.emit_mode]), hx, List.append_assoc]
    rfl

/-! ## HP_LINK and AD_LINK_CAP -/

theorem State.reg_setLink (s : State) (tun dl : Bool) (cl : Nat) : (s.setLink tun dl cl).reg hpLink =
    putBits (putBits (putBits (s.reg hpLink) 26 24 cl) 31 31 (if tun then 1 else 0)) 30 30 (if dl then 1 else 0) :=
  State.reg_setReg_self _ _ _

theorem onlyRegs_setLink (s : State) (tun dl : Bool) (cl : Nat) : onlyRegs s (s.setLink tun dl cl) [hpLink] := onlyRegs_setReg s _ _

theorem onlyRegs_setLinkCap (s : State) : onlyRegs s s.setLinkCap [0x0430000C] := onlyRegs_setReg s _ _

theorem State.reg_setLinkCap_other (s : State) {b : Nat} (h : b ≠ 0x0430000C) : s.setLinkCap.reg b = s.reg b :=
  (State.reg_setReg _ _ _ _).trans (if_neg h)

/-- The trained rate stands in other fields of HP_LINK than the state of the link. -/
theorem State.trainedCap_setLink (s : State) (tun dl : Bool) (cl : Nat) : (s.setLink tun dl cl).trainedCap = s.trainedCap := by
  have field (hi lo : Nat) (h : hi < 24) : bitsOf ((s.setLink tun dl cl).reg hpLink) hi lo = bitsOf (s.reg hpLink) hi lo := by
    rw [State.reg_setLink, bitsOf_putBits_apart _ _ (.inl (by omega)), bitsOf_putBits_apart _ _ (.inl (by omega)),
      bitsOf_putBits_apart _ _ (.inl (by omega))]
  rw [State.trainedCap, field 15 12 (by decide), field 17 16 (by decide)]
  rfl

/-- HP_LINK and AD_LINK_CAP once both have been set. -/
theorem State.reg_setLink_setLinkCap (s : State) (tun dl : Bool) (cl : Nat) :
    (s.setLink tun dl cl).setLinkCap.reg hpLink = (s.setLink tun dl cl).reg hpLink ∧
      (s.setLink tun dl cl).setLinkCap.reg 0x0430000C = BitVec.ofNat 32 (if s.carried then s.trainedCap else 0) := by
  refine ⟨State.reg_setLinkCap_other _ (by decide), (State.reg_setReg_self _ _ _).trans ?_⟩
  rw [State.trainedCap_setLink]
  rfl

/-! ## The tunnel is carried (R230) -/

/-- The fields that a carried tunnel sets, before what was held is sent. -/
def State.nowCarried (s : State) : State := { s with tunnel := .carried, held := [], waken := none, conn := s.conn.or (some s.live) }

/-- From s to t the tunnel has been taken up (R230): HP_LINK shows it, AD_LINK_CAP gives the trained rate, and outside REPLAY what was held
has left the part in its order. -/
structure State.carriedFrom (s t : State) : Prop where
  tunnel : t.tunnel = .carried
  held : t.held = []
  waken : t.waken = none
  conn : t.conn = s.conn.or (some s.live)
  link : t.reg hpLink = putBits (putBits (putBits (s.reg hpLink) 26 24 0) 31 31 1) 30 30 1
  cap : t.reg 0x0430000C = BitVec.ofNat 32 s.trainedCap
  out : s.mode ≠ 0xA → t.out = s.out ++ s.held

theorem State.carry_carriedFrom (s : State) : s.carriedFrom s.carry := by
  let u := (s.nowCarried.setLink true true 0).setLinkCap
  obtain ⟨o, ho, hout⟩ := u.foldl_emit_form s.held
  obtain ⟨r, hr⟩ := onlyRegs_linkEvent { u with out := o } 1
  have hc : s.carry = ((({ u with out := o } : State).jHostEvent 0 4 1).stallUpdateAll) := by rw [← ho]; rfl
  obtain ⟨hlink, hcap⟩ := s.nowCarried.reg_setLink_setLinkCap true true 0
  rw [← hc] at hr
  exact {
    tunnel := hr.read State.tunnel
    held := hr.read State.held
    waken := hr.read State.waken
    conn := hr.read State.conn
    link := (hr.2 _ (by simp) (by decide)).trans (hlink.trans (State.reg_setLink _ _ _ _))
    cap := (hr.2 _ (by simp) (by decide)).trans hcap
    out := fun hm => (hr.read State.out).trans (hout hm) }

end Sys2Proof.Machine

namespace Sys2Proof.Machine

/-! ## A training (R130, R213) -/

/-- A training can end: the link's two domains are on, and the Pommel core has given LINKGO (R449). -/
def State.linkReady (s : State) : Prop := s.domOn 26 = true ∧ s.domOn 27 = true ∧ bit (s.reg 0x04E00008) 2 = true

/-- The generation and the lanes that both ends and HP_CTRL allow. -/
def State.agreedGen (s : State) (gen3 : Bool) : Nat := if gen3 = true ∧ bitsOf (s.reg 0x04000008) 3 2 = 3 then 3 else 2
def State.agreedLanes (s : State) (two : Bool) : Nat := if two = true ∧ bit (s.reg 0x04000008) 4 = false then 2 else 1

/-- HP_LINK shows the rate that has been trained, and HP_STATUS RTRN where it fell. -/
def State.trained (s : State) (gen lanes : Nat) : State :=
  let t := s.setReg hpLink (putBits (putBits (s.reg hpLink) 15 12 gen) 17 16 lanes)
  if linkCap gen lanes < s.trainedCap then t.setStatus hpStatus 2#32 else t

theorem State.agreedGen_lt (s : State) (gen3 : Bool) : s.agreedGen gen3 < 16 := by
  unfold State.agreedGen
  split <;> decide

theorem State.agreedLanes_lt (s : State) (two : Bool) : s.agreedLanes two < 4 := by
  unfold State.agreedLanes
  split <;> decide

theorem State.trainedCap_setReg (s : State) (w : Word) {gen lanes : Nat} (hg : gen < 16) (hl : lanes < 4) :
    (s.setReg hpLink (putBits (putBits w 15 12 gen) 17 16 lanes)).trainedCap = linkCap gen lanes := by
  rw [State.trainedCap, State.reg_setReg_self, bitsOf_putBits_apart _ _ (.inl (by decide)), bitsOf_putBits_self _ (by decide) hg,
    bitsOf_putBits_self _ (by decide) hl]

section
variable (s : State) {gen lanes : Nat}

theorem State.reg_trained : (s.trained gen lanes).reg hpLink = putBits (putBits (s.reg hpLink) 15 12 gen) 17 16 lanes := by
  unfold State.trained
  dsimp only
  split
  · rw [State.reg_setStatus, if_neg (by decide), State.reg_setReg_self]
  · exact State.reg_setReg_self _ _ _

theorem State.reg_trained_other {b : Nat} (hl : b ≠ hpLink) (hs : b ≠ hpStatus) : (s.trained gen lanes).reg b = s.reg b := by
  unfold State.trained
  dsimp only
  split
  · rw [State.reg_setStatus, if_neg hs, State.reg_setReg, if_neg hl]
  · exact (State.reg_setReg _ _ _ _).trans (if_neg hl)

theorem State.jn_trained : (s.trained gen lanes).jn = s.jn := by
  unfold State.trained
  dsimp only
  split
  · rw [State.setStatus_jn, State.setReg_jn]
  · rfl

theorem State.onlyRegs_trained :
    onlyRegs s (s.trained gen lanes) (if linkCap gen lanes < s.trainedCap then [hpLink, hpStatus] else [hpLink]) := by
  unfold State.trained
  dsimp only
  split
  · exact (onlyRegs_setReg _ _ _).trans (onlyRegs_setStatus _ _ _)
  · exact onlyRegs_setReg _ _ _

/-- RTRN of HP_STATUS (R213). -/
theorem State.trained_retrained (h : linkCap gen lanes < s.trainedCap) : bit ((s.trained gen lanes).reg hpStatus) 1 = true := by
  unfold State.trained
  rw [if_pos h, State.reg_setStatus, if_pos rfl, bit, BitVec.getLsbD_or]
  simp

theorem State.trainedCap_trained (hg : gen < 16) (hl : lanes < 4) : (s.trained gen lanes).trainedCap = linkCap gen lanes := by
  rw [← State.trainedCap_setReg s (s.reg hpLink) hg hl, State.trainedCap, State.trainedCap, State.reg_trained, State.reg_setReg_self]

theorem State.tunnel_trained : (s.trained gen lanes).tunnel = s.tunnel := s.onlyRegs_trained.read State.tunnel

theorem State.conn_trained : (s.trained gen lanes).conn = s.conn := s.onlyRegs_trained.read State.conn

theorem State.live_trained : (s.trained gen lanes).live = s.live := by
  have hstate : (s.trained gen lanes).reg 0x04F00010 = s.reg 0x04F00010 := s.reg_trained_other (by decide) (by decide)
  rw [State.live, State.live, State.replaying, State.replaying, hstate, State.jn_trained, s.onlyRegs_trained.read State.time]

/-- A training of a carried tunnel: its rate is in force at once (R130). -/
theorem State.reg_trained_setLinkCap (hg : gen < 16) (hl : lanes < 4) (ht : s.tunnel = .carried) :
    (s.trained gen lanes).setLinkCap.reg 0x0430000C = BitVec.ofNat 32 (linkCap gen lanes) := by
  have hc : (s.trained gen lanes).carried = true := by simp [State.carried, State.tunnel_trained, ht]
  rw [State.setLinkCap, State.reg_setReg_self, if_pos hc, State.trainedCap_trained s hg hl]

theorem State.onlyRegs_trained_setLinkCap : onlyRegs s (s.trained gen lanes).setLinkCap
    (if linkCap gen lanes < s.trainedCap then [hpLink, 0x0430000C, hpStatus] else [hpLink, 0x0430000C]) := by
  refine (s.onlyRegs_trained.trans (onlyRegs_setLinkCap _)).mono ?_
  split <;> decide

end

/-- What a training does by the tunnel's state. -/
theorem linkTrained_ready {s : State} (h : s.linkReady) (gen3 two : Bool) :
    linkTrained s gen3 two =
      let t := s.trained (s.agreedGen gen3) (s.agreedLanes two)
      if s.tunnel = .none then t.carry else if s.tunnel = .carried then t.setLinkCap else t := by
  obtain ⟨hphy, hrt, hgo⟩ := h
  have hgen : (if (gen3 && bitsOf (s.reg 0x04000008) 3 2 == 3) = true then 3 else 2) = s.agreedGen gen3 := by simp [State.agreedGen]
  have hlanes : (if (two && !bit (s.reg 0x04000008) 4) = true then 2 else 1) = s.agreedLanes two := by simp [State.agreedLanes]
  unfold linkTrained
  rw [if_neg (by simp [domU4PHY, domU4RT, hphy, hrt, hgo])]
  dsimp only
  rw [hgen, hlanes, State.trainedCap_setReg s _ (s.agreedGen_lt gen3) (s.agreedLanes_lt two)]
  change (match (s.trained _ _).tunnel with | .none => _ | .carried => _ | .paused _ => _) = _
  rw [State.tunnel_trained]
  cases s.tunnel <;> rfl

theorem linkTrained_notReady {s : State} (h : ¬ s.linkReady) (gen3 two : Bool) : linkTrained s gen3 two = s := by
  refine if_pos ?_
  simp only [State.linkReady, not_and, Bool.not_eq_true] at h
  cases hphy : s.domOn 26 <;> cases hrt : s.domOn 27 <;> simp [domU4PHY, domU4RT, hphy, hrt, h]

end Sys2Proof.Machine

namespace Sys2Proof.Machine

/-! ## Pause and resumption (R230) -/

/-- CLSTATE of HP_LINK while the tunnel is paused. -/
def pauseClState : PauseWhy → Nat
  | .cl2 => 3
  | .routerSleep => 4
  | .retrain => 5

/-- A pause changes the tunnel, its two registers and stall timers. -/
theorem tunnelPause_carried {s : State} (h : s.tunnel = .carried) (w : PauseWhy) : ∃ r,
    onlyRegs { s with tunnel := .paused w, pausedAt := s.live, rings := r } (tunnelPause s w) [hpLink, 0x0430000C] ∧
      (tunnelPause s w).reg hpLink = (s.setLink false true (pauseClState w)).reg hpLink ∧ (tunnelPause s w).reg 0x0430000C = 0#32 := by
  let p : State := { s with tunnel := .paused w, pausedAt := s.live }
  let u := (p.setLink false true (pauseClState w)).setLinkCap
  have hu : onlyRegs p u [hpLink, 0x0430000C] := (onlyRegs_setLink _ _ _ _).trans (onlyRegs_setLinkCap _)
  obtain ⟨r, hr⟩ := onlyRegs_linkEvent u 2
  obtain ⟨hlink, hcap⟩ := p.reg_setLink_setLinkCap false true (pauseClState w)
  have hp : tunnelPause s w = (u.jHostEvent 0 4 2).stallUpdateAll := by
    unfold tunnelPause
    rw [if_neg (by simp [State.carried, h])]
    cases w <;> rfl
  rw [hp]
  refine ⟨r, (hu.withRings r).trans hr, ?_, ?_⟩
  · rw [hr.2 _ (by decide) (by decide)]
    exact hlink
  · rw [hr.2 _ (by decide) (by decide)]
    exact hcap

theorem tunnelPause_notCarried {s : State} (h : s.tunnel ≠ .carried) (w : PauseWhy) : tunnelPause s w = s :=
  if_pos (by simpa [State.carried] using h)

theorem tunnelResume_paused {s : State} {w : PauseWhy} (h : s.tunnel = .paused w) : tunnelResume s = s.carry := by
  unfold tunnelResume
  rw [h]

theorem tunnelResume_notPaused {s : State} (h : ∀ w, s.tunnel ≠ .paused w) : tunnelResume s = s := by
  unfold tunnelResume
  split
  · next w hw => exact absurd hw (h w)
  · rfl

theorem State.retrainLate_iff (s : State) : s.retrainLate = true ↔ s.tunnel = .paused .retrain ∧ s.pausedAt + 120000000 < s.live := by
  simp [State.retrainLate]

end Sys2Proof.Machine

namespace Sys2Proof.Machine

/-! ## Loss (R230) -/

/-- The fields that a loss clears. -/
def State.linkDown (s : State) : State := { s with tunnel := .none, held := [], sleepReqs := [], conn := none }

/-- The registers of a link that is down, before the loss is recorded. -/
def State.linkDownRegs (s : State) : State :=
  ((((s.linkDown.setReg 0x04000018 (satInc (s.reg 0x04000018))).setStatus hpStatus 8#32).setLink false false 5).setReg hpLink
    0x05000000#32).setLinkCap

/-- The journal records a loss, and ends where the host takes it (R500). -/
def State.lossRecorded (s : State) : State :=
  let t := s.jHostEvent 0 4 0
  if t.recording && t.jnDest == 1 then t.jend 5 else t

/-- A loss up to the reads and the functions that it ends. -/
def State.linkLost (s : State) : State := hostSyncLoss s.linkDownRegs.lossRecorded

theorem tunnelLoss_eq {s : State} (h : s.tunnel ≠ .none) : tunnelLoss s =
    (span 0 16).foldl (fun t f => (t.cfgSpaceReset f).fnResetStart f)
      ((s.linkLost.busySlots.map (fun p => p.1)).foldl (fun t k =>
        ((t.slot k).w.reads).foldl (fun v _ => hostReadCompletion v k .noTunnel) t) s.linkLost) :=
  if_neg (by simpa using h)

theorem tunnelLoss_none {s : State} (h : s.tunnel = .none) : tunnelLoss s = s := if_pos (by simp [h])

theorem State.onlyRegs_lossRecorded (s : State) : onlyRegs s s.lossRecorded [] := by
  unfold State.lossRecorded
  extract_lets t
  exact (onlyRegs_jHostEvent s 0 4 0).trans (onlyRegs_ite (onlyRegs_jend t 5) (onlyRegs.refl t []))

/-- Host time is lost with TSYNC, and T1 alone follows (R226). -/
theorem hostSyncLoss_form (s : State) : ∃ x, onlyRegs { s with srcs := x } (hostSyncLoss s) [hpLink] ∧
    (hostSyncLoss s).reg hpLink = putBits (s.reg hpLink) 29 29 0 := by
  unfold hostSyncLoss
  dsimp only
  split
  · exact ⟨_, ⟨rfl, (onlyRegs_setReg s hpLink _).2⟩, State.reg_setReg_self s hpLink _⟩
  · exact ⟨s.srcs, onlyRegs_setReg s hpLink _, State.reg_setReg_self s hpLink _⟩

theorem State.onlyRegs_linkDownRegs (s : State) :
    onlyRegs s.linkDown s.linkDownRegs [0x04000018, hpStatus, hpLink, hpLink, 0x0430000C] :=
  ((((onlyRegs_setReg _ _ _).trans (onlyRegs_setStatus _ _ _)).trans (onlyRegs_setLink _ _ _ _)).trans (onlyRegs_setReg _ _ _)).trans
    (onlyRegs_setLinkCap _)

/-- The registers after a loss: the count of losses, TUNLOSS, the link and its capacity. -/
theorem State.reg_linkDownRegs (s : State) : s.linkDownRegs.reg hpLink = 0x05000000#32 ∧ s.linkDownRegs.reg 0x0430000C = 0#32 ∧
    bit (s.linkDownRegs.reg hpStatus) 3 = true ∧ s.linkDownRegs.reg 0x04000018 = satInc (s.reg 0x04000018) := by
  unfold State.linkDownRegs
  generalize hu : s.linkDown.setReg 0x04000018 (satInc (s.reg 0x04000018)) = u
  have hcount : u.reg 0x04000018 = satInc (s.reg 0x04000018) := hu ▸ State.reg_setReg_self _ _ _
  have hdown : u.carried = false := by rw [← hu]; rfl
  have hcap (t : State) (hb : t.carried = false) : t.setLinkCap.reg 0x0430000C = 0#32 := by
    rw [State.setLinkCap, State.reg_setReg_self, hb]
    rfl
  have hkeep (b : Nat) (hb : b ≠ 0x0430000C) (hl : b ≠ hpLink) :
      ((((u.setStatus hpStatus 8#32).setLink false false 5).setReg hpLink 0x05000000#32).setLinkCap).reg b =
        (u.setStatus hpStatus 8#32).reg b := by
    rw [State.setLinkCap, State.reg_setReg, if_neg hb, State.reg_setReg, if_neg hl, State.setLink, State.reg_setReg, if_neg hl]
  refine ⟨?_, ?_, ?_, ?_⟩
  · rw [State.setLinkCap, State.reg_setReg, if_neg (by decide), State.reg_setReg_self]
  · refine hcap _ ?_
    rw [State.carried, State.setReg_tunnel, State.setLink, State.setReg_tunnel, State.setStatus_tunnel]
    exact hdown
  · rw [hkeep _ (by decide) (by decide), State.reg_setStatus, if_pos rfl, bit, BitVec.getLsbD_or]
    simp
  · rw [hkeep _ (by decide) (by decide), State.reg_setStatus, if_neg (by decide), hcount]

/-- A loss up to there: the tunnel's fields and registers, and T1. -/
theorem State.linkLost_form (s : State) : ∃ x,
    onlyRegs { s.linkDown with srcs := x } s.linkLost [0x04000018, hpStatus, hpLink, 0x0430000C] ∧
      (∀ b, b ≠ hpLink → b / 0x100000 ≠ 0x4F → s.linkLost.reg b = s.linkDownRegs.reg b) ∧ s.linkLost.reg hpLink = 0x05000000#32 := by
  have hv := s.linkDownRegs.onlyRegs_lossRecorded
  unfold State.linkLost
  generalize s.linkDownRegs.lossRecorded = v at hv ⊢
  obtain ⟨x, hx, hlink⟩ := hostSyncLoss_form v
  obtain ⟨hdown, -, -, -⟩ := s.reg_linkDownRegs
  have hkeep (b : Nat) (hj : b / 0x100000 ≠ 0x4F) : v.reg b = s.linkDownRegs.reg b := hv.2 b List.not_mem_nil hj
  refine ⟨x, ?_, fun b hb hj => ?_, ?_⟩
  · exact (((s.onlyRegs_linkDownRegs.trans hv).withSrcs x).trans hx).mono (by decide)
  · rw [← hkeep b hj]
    exact hx.2 b (by simpa using hb) hj
  · rw [hlink, hkeep hpLink (by decide), hdown]
    decide

end Sys2Proof.Machine

namespace Sys2Proof.Machine

/-! ## The commands -/

section
variable {s : State} (hj : s.jnState ≠ 5)
include hj

theorem exec_linkTrained (gen3 two : Bool) : exec (.linkTrained gen3 two) s = .next (linkTrained s gen3 two) :=
  congrArg Host.Outcome.next (if_pos hj)

theorem exec_tunnelPause (w : PauseWhy) : exec (.tunnelPause w) s = .next (tunnelPause s w) := congrArg Host.Outcome.next (if_pos hj)

theorem exec_tunnelLoss : exec .tunnelLoss s = .next (tunnelLoss s) := congrArg Host.Outcome.next (if_neg hj)

theorem exec_tunnelResume : exec .tunnelResume s = .next (if s.retrainLate then tunnelLoss s else tunnelResume s) := by
  refine congrArg Host.Outcome.next ?_
  rw [State.onLiveTun, if_neg hj, State.loseTunnel, if_neg hj, State.onLive, if_pos hj]

theorem exec_tunnelResume_late (h : s.tunnel = .paused .retrain) (hl : s.pausedAt + 120000000 < s.live) :
    exec .tunnelResume s = exec .tunnelLoss s := by
  rw [exec_tunnelResume hj, if_pos (s.retrainLate_iff.2 ⟨h, hl⟩), exec_tunnelLoss hj]

theorem exec_tunnelResume_inTime (h : s.tunnel = .paused .retrain → s.live ≤ s.pausedAt + 120000000) :
    exec .tunnelResume s = .next (tunnelResume s) := by
  rw [exec_tunnelResume hj, if_neg fun hl => ?_]
  obtain ⟨hp, hlate⟩ := s.retrainLate_iff.1 hl
  exact Nat.not_lt.2 (h hp) hlate

end

/-- In a replay what acts on the live link leaves what is replayed as it was (R504). -/
theorem State.onLive_keeps {s : State} (hj : s.jnState = 5) (f : State → State) :
    (s.onLive f).fns = s.fns ∧ (s.onLive f).tunnel = s.tunnel ∧ (s.onLive f).rings = s.rings ∧ (s.onLive f).slots = s.slots ∧
      (s.onLive f).weir = s.weir := by
  rw [State.onLive, if_neg (not_not.2 hj)]
  exact ⟨rfl, rfl, rfl, rfl, rfl⟩

/-- The commands of the host and its link, which act on the live link alone in a replay (R504). -/
theorem exec_onLive {s : State} (hj : s.jnState = 5) {i : Instr}
    (hi : (∃ a b, i = .linkTrained a b) ∨ (∃ w, i = .tunnelPause w) ∨ i = .tunnelResume ∨ i = .tunnelLoss ∨
      (∃ f p, i = .powerStateWrite f p) ∨ (∃ f o v, i = .configWrite f o v) ∨ (∃ f, i = .flr f) ∨ ∃ o n p, i = .bar2Access o n p) :
    ∃ g, exec i s = .next (s.onLive g) := by
  have hlose : s.loseTunnel = s.onLive liveLoss := if_pos hj
  rcases hi with ⟨a, b, rfl⟩ | ⟨w, rfl⟩ | rfl | rfl | ⟨f, p, rfl⟩ | ⟨f, o, v, rfl⟩ | ⟨f, rfl⟩ | ⟨o, n, p, rfl⟩
  · exact ⟨_, rfl⟩
  · exact ⟨_, rfl⟩
  · change ∃ g, execTunnelResume s = _
    unfold execTunnelResume
    split
    · exact ⟨_, congrArg Host.Outcome.next hlose⟩
    · exact ⟨_, rfl⟩
  · exact ⟨_, congrArg Host.Outcome.next hlose⟩
  · exact ⟨_, rfl⟩
  · change ∃ g, execConfigWrite f o v s = _
    unfold execConfigWrite
    split <;> exact ⟨_, rfl⟩
  · exact ⟨_, congrArg Host.Outcome.next (if_pos hj)⟩
  · exact ⟨_, rfl⟩

end Sys2Proof.Machine

namespace Sys2Proof.Machine

/-! ## The statement -/

/-- Settles O30: by the command and the tunnel's state. A training and a resumption take the tunnel up through `State.carry_carriedFrom`, a
loss is `State.linkLost_form` with the reads and resets that follow it, and in REPLAY `exec_onLive` covers every command. -/
theorem tunnelComesAndGoes : Obligations.TunnelComesAndGoes := by
  intro s
  refine ⟨fun hj gen3 two => ?_, fun hj w => ?_, fun hj h => ?_, fun hj h => ?_, fun h hj => ?_, fun hj i hi => ?_⟩
  · intro ready gen lanes hp fell
    have hg : gen < 16 := s.agreedGen_lt gen3
    have hl : lanes < 4 := s.agreedLanes_lt two
    have hrun (hr : ready) := (exec_linkTrained hj gen3 two).trans (congrArg Host.Outcome.next (linkTrained_ready hr gen3 two))
    refine ⟨fun hr ht => ?_, fun hr ht => ?_, fun hr w ht => ?_, fun hr => ?_⟩
    · have hc := (s.trained gen lanes).carry_carriedFrom
      refine ⟨_, (hrun hr).trans (congrArg Host.Outcome.next (if_pos ht)), hc.tunnel, hc.held, hc.waken, ?_, ?_, ?_⟩
      · exact hc.conn.trans (by rw [State.conn_trained, State.live_trained])
      · exact hc.link.trans (by rw [State.reg_trained])
      · exact hc.cap.trans (by rw [State.trainedCap_trained s hg hl])
    · refine ⟨_, (hrun hr).trans (congrArg Host.Outcome.next ((if_neg (by simp [ht])).trans (if_pos ht))), ?_,
        s.reg_trained_setLinkCap hg hl ht, fun hf => ?_, s.onlyRegs_trained_setLinkCap⟩
      · exact (State.reg_setLinkCap_other _ (by decide)).trans s.reg_trained
      · exact (congrArg (bit · 1) (State.reg_setLinkCap_other _ (by decide))).trans (s.trained_retrained hf)
    · exact ⟨_, (hrun hr).trans (congrArg Host.Outcome.next ((if_neg (by simp [ht])).trans (if_neg (by simp [ht])))), s.reg_trained,
        s.onlyRegs_trained⟩
    · rw [exec_linkTrained hj, linkTrained_notReady hr]
  · intro cl
    refine ⟨fun h => ?_, fun h => ?_, exec_tunnelResume_late hj, fun h hw => ?_⟩
    · obtain ⟨r, honly, hlink, hcap⟩ := tunnelPause_carried h w
      refine ⟨_, exec_tunnelPause hj w, honly.read State.tunnel, hcap, ?_, honly.read State.held, honly.read State.fns⟩
      rw [hlink, State.reg_setLink]
      cases w <;> rfl
    · rw [exec_tunnelPause hj, tunnelPause_notCarried h]
    · have hc := s.carry_carriedFrom
      refine ⟨_, (exec_tunnelResume_inTime hj fun hre => ?_).trans (congrArg Host.Outcome.next (tunnelResume_paused h)), hc.tunnel, hc.held,
        hc.link, hc.cap, hc.out⟩
      rw [h] at hre
      exact hw.resolve_left (not_not.2 (by simpa using hre))
  · rw [exec_tunnelResume_inTime hj fun hre => absurd hre (h _), tunnelResume_notPaused h]
  · obtain ⟨x, honly, hregs, hlink⟩ := s.linkLost_form
    obtain ⟨-, hcap, hloss, hcount⟩ := s.reg_linkDownRegs
    refine ⟨s.linkLost, honly.read State.tunnel, honly.read State.held, honly.read State.conn,
      honly.read State.sleepReqs, hlink, ?_, ?_, ?_, honly.read State.fns, honly.read State.slots, ?_⟩
    · rw [hregs _ (by decide) (by decide), hcap]
    · rw [hregs _ (by decide) (by decide), hloss]
    · rw [hregs _ (by decide) (by decide), hcount]
    · rw [exec_tunnelLoss hj, tunnelLoss_eq h]
  · rw [exec_tunnelLoss hj, tunnelLoss_none h]
  · obtain ⟨g, hg⟩ := exec_onLive hj hi
    exact ⟨_, hg, State.onLive_keeps hj g⟩

end Sys2Proof.Machine

namespace Sys2Proof.Machine

-- One declaration after another: side by side they take the compile of the whole text past its memory.
set_option Elab.async false

/-! # Tempo sources and strike groups (R136 to R159)

A source's part of the state is its entry in the table of sources; `onlySrc` says that a change is one of that entry alone, beside
registers and what the journal records. What an edge or a boundary does is stated about the model's own functions, for the state in
which they run; a command runs them on a state that differs from its own in what the journal has recorded (`onlyRegs s u []`). -/

/-! ## A source after a write -/

@[simp] theorem State.src_setSrc (s : State) (n : Nat) (x : Source) : (s.setSrc n x).src n = x := by simp [State.src, State.setSrc]

theorem State.src_setSrc_other (s : State) {n j : Nat} (x : Source) (h : j ≠ n) : (s.setSrc n x).src j = s.src j :=
  SMap.get_set_ne _ _ _ _ h

@[simp] theorem State.src_moveSrc (s : State) (n : Nat) (x : Source) :
    (s.moveSrc n x).src n = { x with prev := some (s.time, s.posBefore n) } := State.src_setSrc _ _ _

@[simp] theorem State.moveSrc_time (s : State) (n : Nat) (x : Source) : (s.moveSrc n x).time = s.time := rfl

/-- From s to t only one source changes, beside registers, interrupt sources, reports and the journal recorder. -/
def onlySrc (s t : State) (n : Nat) (as : List Nat) : Prop :=
  onlyRegs { s with srcs := t.srcs } t as ∧ ∀ j, j ≠ n → t.src j = s.src j

theorem onlyRegs.src {s t : State} {as : List Nat} (h : onlyRegs s t as) (n : Nat) : t.src n = s.src n := h.read (State.src · n)

theorem onlyRegs.onlySrc {s t : State} {as : List Nat} (h : onlyRegs s t as) (n : Nat) : onlySrc s t n as := by
  refine ⟨?_, fun j _ => h.src j⟩
  have hsrcs : t.srcs = s.srcs := h.read State.srcs
  rw [hsrcs]
  exact h

theorem onlySrc_setSrc (s : State) (n : Nat) (x : Source) : onlySrc s (s.setSrc n x) n [] :=
  ⟨⟨rfl, fun _ _ _ => rfl⟩, fun _ hj => s.src_setSrc_other x hj⟩

theorem onlySrc_moveSrc (s : State) (n : Nat) (x : Source) : onlySrc s (s.moveSrc n x) n [] := onlySrc_setSrc _ _ _

theorem onlySrc.trans {s t u : State} {n : Nat} {as bs : List Nat} (h : onlySrc s t n as) (k : onlySrc t u n bs) :
    onlySrc s u n (as ++ bs) :=
  ⟨(h.1.withSrcs u.srcs).trans k.1, fun j hj => (k.2 j hj).trans (h.2 j hj)⟩

/-- The command runs, source n becomes x, and nothing else changes but what is recorded. -/
def srcGoes (i : Instr) (s : State) (n : Nat) (x : Source) : Prop :=
  ∃ t, exec i s = .next t ∧ onlySrc s t n [] ∧ t.src n = x

theorem srcGoes_of_setSrc {i : Instr} {s u : State} {n : Nat} {x y : Source} (hu : onlyRegs s u []) (he : exec i s = .next (u.setSrc n x))
    (hx : x = y) : srcGoes i s n y :=
  ⟨_, he, (hu.onlySrc n).trans (onlySrc_setSrc u n x), (State.src_setSrc u n x).trans hx⟩

/-! ## What the tempo unit reads beside the sources -/

section
variable {s t : State} (h : onlyRegs s t [])
include h

theorem onlyRegs.regOutside {a : Nat} (ha : a / 0x100000 ≠ 0x4F) : t.reg a = s.reg a := h.2 a List.not_mem_nil ha

theorem onlyRegs.srcCfg {n : Nat} (hn : n < 16) : t.srcCfg n = s.srcCfg n := h.regOutside (by omega)

theorem onlyRegs.srcLimit {n : Nat} (hn : n < 16) : t.srcLimit n = s.srcLimit n := h.regOutside (by omega)

theorem onlyRegs.srcNom {n : Nat} (hn : n < 16) : t.srcNom n = s.srcNom n := by
  rw [State.srcNom, State.srcNom, h.regOutside (by omega)]

theorem onlyRegs.tickLen : t.tickLen = s.tickLen := h.read State.tickLen

theorem onlyRegs.srcDiv {n : Nat} (hn : n < 16) : t.srcDiv n = s.srcDiv n := by
  rw [State.srcDiv, State.srcDiv, h.srcCfg hn]

theorem onlyRegs.audclk (n : Nat) : t.audclk n = s.audclk n := by
  rw [State.audclk, State.audclk, h.srcCfg (by decide)]

theorem onlyRegs.srcHasLane (n : Nat) : t.srcHasLane n = s.srcHasLane n := by
  rw [State.srcHasLane, State.srcHasLane, h.audclk]

theorem onlyRegs.laneDark {l : Nat} (hl : l < 128) : t.laneDark l = s.laneDark l := by
  rw [State.laneDark, State.laneDark, h.regOutside (by unfold pgStatus; omega)]

theorem onlyRegs.srcBall {n : Nat} (hn : n < 16) : t.srcBall n = s.srcBall n := by
  rw [State.srcBall, State.srcBall, State.srcLane, State.srcLane, State.audExternal, State.audExternal, h.srcHasLane, h.srcCfg hn, h.audclk,
    h.regOutside (by decide)]

end

theorem bitsOf_lt (v : Word) (hi lo : Nat) : bitsOf v hi lo < 2 ^ (hi + 1 - lo) := Nat.mod_lt _ (Nat.two_pow_pos _)

/-- The ball of a source is a lane number of seven bits. -/
theorem State.srcBall_lt {s : State} {n l : Nat} (h : s.srcBall n = some l) : l < 128 := by
  unfold State.srcBall at h
  split at h
  · exact Option.some.inj h ▸ bitsOf_lt _ 6 0
  · split at h
    · exact Option.some.inj h ▸ bitsOf_lt _ 14 8
    · cases h

theorem onlyRegs.srcPowered {s t : State} (h : onlyRegs s t []) {n : Nat} (hn : n < 16) : t.srcPowered n = s.srcPowered n := by
  unfold State.srcPowered
  rw [h.srcBall hn]
  cases hb : s.srcBall n with
  | none => exact h.read (fun u => if n = 1 then u.domOn domU4RT else if n = 6 then !u.tickAon else true)
  | some l =>
    dsimp only
    rw [h.laneDark (State.srcBall_lt hb), h.read (fun u => u.domOn (pgDom (l / 12)))]

/-! ## The position of a source (R132, R139, R143) -/

/-- No phase has passed since an event of this very time: a locked source is where the event left it. -/
theorem State.pos_at_event {s : State} {n : Nat} (hn : n ≠ 0) (hst : (s.src n).st = .locked) (he : (s.src n).e = s.time) :
    s.pos n = max (s.src n).floor (s.src n).base := by
  have hnow : phaseUnits (s.srcTicks (s.src n) s.time) (s.src n).pest = 0 := by
    simp [phaseUnits, State.srcTicks, he]
  unfold State.pos State.posAt
  simp [hn, he, hst, hnow]

/-- A source that does not count stays where it is. -/
theorem State.pos_frozen {s : State} {n p : Nat} (hn : n ≠ 0) (hst : (s.src n).st = .off) (hb : (s.src n).base = p)
    (hf : (s.src n).floor = p) : s.pos n = p := by
  unfold State.pos State.posAt
  simp only [if_neg hn, hst, hb, hf]
  split <;> omega

/-! ## The order within a tick (R146) -/

theorem State.atStep_here {s : State} {p : Nat} (h : s.tickStep = p) : s.atStep p = s := by
  unfold State.atStep
  rw [if_pos (by omega), ← h]

theorem State.atStep_of_le {s : State} {p : Nat} (h : s.tickStep ≤ p) : s.atStep p = { s with tickStep := p } := by
  rw [State.atStep, if_pos h]

theorem State.atStep_of_lt {s : State} {p : Nat} (h : p < s.tickStep) : s.atStep p = { clockTick s with tickStep := p } := by
  rw [State.atStep, if_neg (by omega)]

/-- A command takes its step of the tick once. -/
theorem State.atStep_twice (s : State) (p : Nat) : (s.atStep p).atStep p = s.atStep p := State.atStep_here rfl

theorem State.fromOutside_replay {s : State} (h : s.mode = 0xA) (f : State → State) : s.fromOutside f = s := by
  simp [State.fromOutside, h]

theorem State.fromOutside_live {s : State} (h : s.mode ≠ 0xA) (f : State → State) : s.fromOutside f = f s := by
  simp [State.fromOutside, h]

/-- An input from outside at its step of the tick. -/
theorem State.fromOutside_atStep {s : State} {p : Nat} (hm : s.mode ≠ 0xA) (ht : (s.atStep p).mode ≠ 0xA) (f : State → State) :
    s.fromOutside (fun u => f (u.atStep p)) = (s.atStep p).fromOutside (fun u => f (u.atStep p)) := by
  rw [State.fromOutside_live hm, State.fromOutside_live ht, State.atStep_twice]

/-! ## Edges at an input (R138) -/

/-- Source n is one that edges reach: not T0 or T1, enabled, and with an input that counts. -/
def State.srcLive (s : State) (n : Nat) : Prop := n ≠ 0 ∧ n ≠ 1 ∧ (s.src n).st ≠ .off ∧ s.srcPowered n = true

/-- The direction is one that the source's EDGE selects. -/
def State.srcSelects (s : State) (n : Nat) (rising : Bool) : Prop :=
  s.srcHasLane n = true → edgeSelected (s.srcCfg n) rising = true

/-- An edge at one time is plausible after one at an earlier time: not closer than 4 ticks, and not too early for a source that is
locked or in holdover. -/
def State.plausible (s : State) (n at_ t : Nat) : Prop :=
  4 ≤ s.ticksTo t at_ ∧ ¬ (((s.src n).st = .locked ∨ (s.src n).st = .holdover) ∧
    s.ticksTo t at_ * 256 * 100 * s.srcDiv n < bitsOf (s.srcLimit n) 15 8 * (s.src n).pest)

section
variable {s : State} {n at_ : Nat} {rising : Bool}

theorem inputEdge_notLive (h : ¬ s.srcLive n) : inputEdge s n rising = s := by
  refine if_pos ?_
  by_contra hno
  simp only [not_or, Bool.not_eq_true, Bool.not_eq_false'] at hno
  exact h hno

/-- What waits for the filter after an edge: the edge itself, unless one of the other direction waited. -/
def State.nextCand (s : State) (n : Nat) (rising : Bool) : Option (Nat × Nat × Bool) :=
  if (s.src n).cand.all (fun c => c.2.2 == rising) then some (s.time, s.time + s.filtTime n, rising) else none

theorem inputEdge_live (h : s.srcLive n) : inputEdge s n rising =
    if s.filtTime n = 0 then s.stableEdge n s.time rising else s.setSrc n { s.src n with cand := s.nextCand n rising } := by
  obtain ⟨h0, h1, hst, hp⟩ := h
  refine (if_neg (by simp [h0, h1, hst, hp])).trans (if_congr Iff.rfl rfl ?_)
  cases hx : (s.src n).cand with
  | none => simp [State.nextCand, hx]
  | some c => simp [State.nextCand, hx]

theorem inputEdge_unfiltered (h : s.srcLive n) (hf : s.filtTime n = 0) : inputEdge s n rising = s.stableEdge n s.time rising := by
  rw [inputEdge_live h, if_pos hf]

/-- A filtered edge waits; one in its direction that waits already starts anew. -/
theorem inputEdge_waits (h : s.srcLive n) (hf : s.filtTime n ≠ 0) (hc : ∀ c, (s.src n).cand = some c → c.2.2 = rising) :
    inputEdge s n rising = s.setSrc n { s.src n with cand := some (s.time, s.time + s.filtTime n, rising) } := by
  have hnext : s.nextCand n rising = some (s.time, s.time + s.filtTime n, rising) :=
    if_pos ((Option.all_eq_true _ _).2 fun c hx => beq_iff_eq.2 (hc c hx))
  rw [inputEdge_live h, if_neg hf, hnext]

/-- The opposite edge drops the one that waits. -/
theorem inputEdge_drops (h : s.srcLive n) (hf : s.filtTime n ≠ 0) {c : Nat × Nat × Bool} (hx : (s.src n).cand = some c)
    (hc : c.2.2 ≠ rising) : inputEdge s n rising = s.setSrc n { s.src n with cand := none } := by
  have hnext : s.nextCand n rising = none := by
    refine if_neg ?_
    simpa [hx] using hc
  rw [inputEdge_live h, if_neg hf, hnext]

theorem State.stableEdge_unselected (h : ¬ s.srcSelects n rising) : s.stableEdge n at_ rising = s := by
  refine if_pos ?_
  simpa [State.srcSelects] using h

theorem State.stableEdge_glitch (h : s.srcSelects n rising) {t : Nat} (ht : (s.src n).lastEdge = some t) (hp : ¬ s.plausible n at_ t) :
    s.stableEdge n at_ rising = s.setSrc n { s.src n with glitch := ((s.src n).glitch + 1) % 65536 } := by
  have hsel : ¬ (s.srcHasLane n = true ∧ (!edgeSelected (s.srcCfg n) rising) = true) := by simpa [State.srcSelects] using h
  unfold State.stableEdge
  simp only [if_neg hsel, ht]
  by_cases hk : s.ticksTo t at_ < 4
  · rw [if_pos hk]
  · rw [if_neg hk, if_pos (by_contra fun hq => hp ⟨Nat.le_of_not_lt hk, hq⟩)]

theorem State.stableEdge_counted (h : s.srcSelects n rising) (hp : ∀ t, (s.src n).lastEdge = some t → s.plausible n at_ t) :
    s.stableEdge n at_ rising = s.countedEdge n at_ := by
  have hsel : ¬ (s.srcHasLane n = true ∧ (!edgeSelected (s.srcCfg n) rising) = true) := by simpa [State.srcSelects] using h
  unfold State.stableEdge
  simp only [if_neg hsel]
  cases ht : (s.src n).lastEdge with
  | none => rfl
  | some t =>
    obtain ⟨h4, hq⟩ := hp t ht
    simp only [if_neg (Nat.not_lt.2 h4), if_neg hq]

/-! ## Counted edges (R138, R142) -/

/-- The entry of a source on an edge at one time that leaves a count of edges. -/
def Source.counting (x : Source) (at_ k : Nat) : Source := { x with lastEdge := some at_, edges := k }

theorem State.countedEdge_within (hst : (s.src n).st ≠ .lost) (hk : (s.src n).edges + 1 < s.srcDiv n) :
    s.countedEdge n at_ = s.setSrc n ((s.src n).counting at_ ((s.src n).edges + 1)) := by
  have hk' : ¬ s.srcDiv n ≤ (s.src n).edges + 1 := Nat.not_le.2 hk
  simp only [State.countedEdge, if_neg hst, if_neg hk']
  exact if_neg hk'

/-- The first edge after a loss. -/
theorem State.countedEdge_lost (hst : (s.src n).st = .lost) (hk : 1 < s.srcDiv n) :
    s.countedEdge n at_ = s.setSrc n
      (Source.counting { s.src n with st := .acquire, fromLost := true, hist := [], lastBound := none } at_ 1) := by
  have hk' : ¬ s.srcDiv n ≤ 0 + 1 := Nat.not_le.2 hk
  simp only [State.countedEdge, if_pos hst, if_neg hk']
  exact if_neg hk'

/-- The last edge of a period: the boundary follows, and the journal records one of CK_AUD (R490). -/
theorem State.countedEdge_last (hst : (s.src n).st ≠ .lost) (hk : s.srcDiv n ≤ (s.src n).edges + 1) :
    ∃ u, onlyRegs (s.setSrc n ((s.src n).counting at_ 0)) u [] ∧ s.countedEdge n at_ = u.boundary n at_ := by
  have hrec (t : State) : onlyRegs t (if s.audclk n then t.jTempo n 0 else t) [] :=
    onlyRegs_ite (onlyRegs_jrec t _ _ _) (onlyRegs.refl t _)
  refine ⟨_, hrec _, ?_⟩
  simp only [State.countedEdge, if_neg hst, if_pos hk]
  exact if_pos hk

theorem State.pos_setSrc_counting (k : Nat) : (s.setSrc n ((s.src n).counting at_ k)).pos n = s.pos n := by
  unfold State.pos State.posAt
  simp only [State.src_setSrc]
  rfl

/-! ## Boundaries (R139, R143) -/

/-- A locked source goes to its next period, and never back. -/
theorem State.boundary_locked (hst : (s.src n).st = .locked) :
    let x := s.src n
    let b := (if (x.base / 4096 + 1) * 4096 ≤ x.floor then x.floor / 4096 + 1 else x.base / 4096 + 1) * 4096
    ∃ y, s.boundary n at_ = s.moveSrc n y ∧ y.st = .locked ∧ y.e = at_ ∧ max y.floor y.base = b := by
  intro x b
  have hb : (if (x.base / 4096 + 1) * 4096 ≤ x.floor then (x.floor / 4096 + 1) * 4096 else (x.base / 4096 + 1) * 4096) = b :=
    (ite_mul _ _ _ _).symm
  unfold State.boundary
  simp only [hst]
  exact ⟨_, rfl, rfl, rfl, (max_self _).trans hb⟩

/-- A source in holdover goes to the nearer of this period and the next, without a step back. -/
theorem State.boundary_holdover (hst : (s.src n).st = .holdover) :
    ∃ y, s.boundary n s.time = s.moveSrc n y ∧ y.st = .locked ∧ y.pest = (s.src n).pest ∧ y.e = s.time ∧
      max y.floor y.base = if 2048 ≤ s.pos n % 4096 then (s.pos n / 4096 + 1) * 4096 else s.pos n := by
  have hp : s.posAt n s.time = s.pos n := rfl
  unfold State.boundary
  simp only [hst, hp, ge_iff_le]
  split
  · refine ⟨_, rfl, rfl, rfl, rfl, ?_⟩
    dsimp only
    omega
  · refine ⟨_, rfl, rfl, rfl, rfl, ?_⟩
    dsimp only
    omega

end

/-- The position on the event that locks a source. -/
theorem State.pos_moveSrc_locked {s : State} {n : Nat} (hn : n ≠ 0) {y : Source} (hst : y.st = .locked) (he : y.e = s.time) :
    (s.moveSrc n y).pos n = max y.floor y.base := by
  rw [State.pos_at_event hn (by rw [State.src_moveSrc]; exact hst) (by rw [State.src_moveSrc]; exact he), State.src_moveSrc]

/-! ## The command of an edge (R138, R146) -/

section
variable {s u : State} (h : onlyRegs s u []) {n : Nat} (hn : n < 16)
include h hn

theorem onlyRegs.srcLive : u.srcLive n ↔ s.srcLive n := by
  rw [State.srcLive, State.srcLive, h.src, h.srcPowered hn]

theorem onlyRegs.srcSelects (rising : Bool) : u.srcSelects n rising ↔ s.srcSelects n rising := by
  rw [State.srcSelects, State.srcSelects, h.srcHasLane, h.srcCfg hn]

theorem onlyRegs.filtTime : u.filtTime n = s.filtTime n := by
  rw [State.filtTime, State.filtTime, h.srcHasLane, h.srcLimit hn, h.tickLen]

theorem onlyRegs.plausible (at_ t : Nat) : u.plausible n at_ t ↔ s.plausible n at_ t := by
  rw [State.plausible, State.plausible, State.ticksTo, State.ticksTo, h.tickLen, h.src, h.srcDiv hn, h.srcLimit hn]

end

/-- An edge as its command brings it: recorded (R490), and then at its source. -/
def State.edgeComes (s : State) (n : Nat) (rising : Bool) : State :=
  inputEdge (if s.srcEnabled n && s.srcHasLane n then s.jEdge (s.srcLane n) rising else s) n rising

theorem exec_inputEdge_eq (s : State) (n : SrcId) (rising : Bool) :
    exec (.inputEdge n rising) s = .next (s.fromOutside fun u => (u.atStep 1).edgeComes n.val rising) := rfl

section
variable {s : State} {n : SrcId} {rising : Bool} (hm : s.mode ≠ 0xA) (ht : s.tickStep = 1)
include hm ht

/-- The edge meets its source in a state that differs in what the journal has recorded. -/
theorem exec_inputEdge : ∃ u, onlyRegs s u [] ∧ exec (.inputEdge n rising) s = .next (inputEdge u n.val rising) := by
  have hedge : onlyRegs s (s.jEdge (s.srcLane n.val) rising) [] := onlyRegs_ite (onlyRegs_jrec s _ _ _) (onlyRegs.refl s _)
  refine ⟨if s.srcEnabled n.val && s.srcHasLane n.val then s.jEdge (s.srcLane n.val) rising else s,
    onlyRegs_ite hedge (onlyRegs.refl s _), ?_⟩
  rw [exec_inputEdge_eq, State.fromOutside_live hm, State.atStep_here ht]
  rfl

/-- An edge that does not reach its source leaves no more than its record. -/
theorem exec_inputEdge_notLive (hl : ¬ s.srcLive n.val) : ∃ u, exec (.inputEdge n rising) s = .next u ∧ onlyRegs s u [] := by
  obtain ⟨u, hu, he⟩ := exec_inputEdge (n := n) (rising := rising) hm ht
  exact ⟨u, by rw [he, inputEdge_notLive fun h => hl ((hu.srcLive n.isLt).1 h)], hu⟩

theorem exec_inputEdge_waits (hl : s.srcLive n.val) (hf : s.filtTime n.val ≠ 0)
    (hc : ∀ c, (s.src n.val).cand = some c → c.2.2 = rising) :
    srcGoes (.inputEdge n rising) s n.val { s.src n.val with cand := some (s.time, s.time + s.filtTime n.val, rising) } := by
  obtain ⟨u, hu, he⟩ := exec_inputEdge (n := n) (rising := rising) hm ht
  rw [inputEdge_waits ((hu.srcLive n.isLt).2 hl) ((hu.filtTime n.isLt).trans_ne hf) (by rwa [hu.src])] at he
  exact srcGoes_of_setSrc hu he (by rw [hu.src, hu.filtTime n.isLt, hu.read State.time])

theorem exec_inputEdge_drops (hl : s.srcLive n.val) (hf : s.filtTime n.val ≠ 0) {c : Nat × Nat × Bool}
    (hc : (s.src n.val).cand = some c) (hr : c.2.2 ≠ rising) :
    srcGoes (.inputEdge n rising) s n.val { s.src n.val with cand := none } := by
  obtain ⟨u, hu, he⟩ := exec_inputEdge (n := n) (rising := rising) hm ht
  rw [inputEdge_drops ((hu.srcLive n.isLt).2 hl) ((hu.filtTime n.isLt).trans_ne hf) (by rwa [hu.src]) hr] at he
  exact srcGoes_of_setSrc hu he (by rw [hu.src])

/-- An edge without a filter comes to selection and plausibility at once. -/
theorem exec_inputEdge_unfiltered (hl : s.srcLive n.val) (hf : s.filtTime n.val = 0) :
    ∃ u, onlyRegs s u [] ∧ exec (.inputEdge n rising) s = .next (u.stableEdge n.val s.time rising) := by
  obtain ⟨u, hu, he⟩ := exec_inputEdge (n := n) (rising := rising) hm ht
  have htime : u.time = s.time := hu.read State.time
  refine ⟨u, hu, he.trans ?_⟩
  rw [inputEdge_unfiltered ((hu.srcLive n.isLt).2 hl) ((hu.filtTime n.isLt).trans hf), htime]

theorem exec_inputEdge_unselected (hl : s.srcLive n.val) (hf : s.filtTime n.val = 0) (hsel : ¬ s.srcSelects n.val rising) :
    ∃ u, exec (.inputEdge n rising) s = .next u ∧ onlyRegs s u [] := by
  obtain ⟨u, hu, he⟩ := exec_inputEdge_unfiltered (rising := rising) hm ht hl hf
  exact ⟨u, by rw [he, State.stableEdge_unselected fun h => hsel ((hu.srcSelects n.isLt rising).1 h)], hu⟩

section
variable (hl : s.srcLive n.val) (hf : s.filtTime n.val = 0) (hsel : s.srcSelects n.val rising)
include hl hf hsel

theorem exec_inputEdge_glitch {t : Nat} (hlast : (s.src n.val).lastEdge = some t) (hp : ¬ s.plausible n.val s.time t) :
    srcGoes (.inputEdge n rising) s n.val { s.src n.val with glitch := ((s.src n.val).glitch + 1) % 65536 } := by
  obtain ⟨u, hu, he⟩ := exec_inputEdge_unfiltered (rising := rising) hm ht hl hf
  rw [State.stableEdge_glitch ((hu.srcSelects n.isLt rising).2 hsel) (by rwa [hu.src]) (fun h => hp ((hu.plausible n.isLt _ _).1 h))] at he
  exact srcGoes_of_setSrc hu he (by rw [hu.src])

variable (hp : ∀ t, (s.src n.val).lastEdge = some t → s.plausible n.val s.time t)
include hp

theorem exec_inputEdge_counted : ∃ u, onlyRegs s u [] ∧ exec (.inputEdge n rising) s = .next (u.countedEdge n.val s.time) := by
  obtain ⟨u, hu, he⟩ := exec_inputEdge_unfiltered (rising := rising) hm ht hl hf
  rw [State.stableEdge_counted ((hu.srcSelects n.isLt rising).2 hsel)
    (fun t ht => (hu.plausible n.isLt _ t).2 (hp t (by rw [← hu.src]; exact ht)))] at he
  exact ⟨u, hu, he⟩

theorem exec_inputEdge_within (hst : (s.src n.val).st ≠ .lost) (hk : (s.src n.val).edges + 1 < s.srcDiv n.val) :
    srcGoes (.inputEdge n rising) s n.val ((s.src n.val).counting s.time ((s.src n.val).edges + 1)) := by
  obtain ⟨u, hu, he⟩ := exec_inputEdge_counted hm ht hl hf hsel hp
  rw [State.countedEdge_within (by rwa [hu.src]) (by rwa [hu.src, hu.srcDiv n.isLt])] at he
  exact srcGoes_of_setSrc hu he (by rw [hu.src])

theorem exec_inputEdge_lost (hst : (s.src n.val).st = .lost) (hk : 1 < s.srcDiv n.val) :
    srcGoes (.inputEdge n rising) s n.val
      (Source.counting { s.src n.val with st := .acquire, fromLost := true, hist := [], lastBound := none } s.time 1) := by
  obtain ⟨u, hu, he⟩ := exec_inputEdge_counted hm ht hl hf hsel hp
  rw [State.countedEdge_lost (by rwa [hu.src]) (by rwa [hu.srcDiv n.isLt])] at he
  exact srcGoes_of_setSrc hu he (by rw [hu.src])

variable (hk : s.srcDiv n.val ≤ (s.src n.val).edges + 1)
include hk

/-- An edge that ends a period is a boundary, of a source that has counted it and stands where it stood. -/
theorem exec_inputEdge_last (hst : (s.src n.val).st ≠ .lost) :
    ∃ u, onlySrc s u n.val [] ∧ exec (.inputEdge n rising) s = .next (u.boundary n.val u.time) ∧
      u.src n.val = (s.src n.val).counting s.time 0 ∧ u.pos n.val = s.pos n.val := by
  obtain ⟨v, hv, he⟩ := exec_inputEdge_counted hm ht hl hf hsel hp
  obtain ⟨u, hu, hb⟩ := State.countedEdge_last (s := v) (n := n.val) (at_ := s.time) (by rwa [hv.src])
    (by rwa [hv.src, hv.srcDiv n.isLt])
  have htime : u.time = s.time := (hu.read State.time).trans (hv.read State.time)
  refine ⟨u, ((hv.onlySrc _).trans (onlySrc_setSrc _ _ _)).trans (hu.onlySrc _), by rw [he, hb, htime], ?_, ?_⟩
  · rw [hu.src, State.src_setSrc, hv.src]
  · rw [hu.read (State.pos · n.val), State.pos_setSrc_counting, hv.read (State.pos · n.val)]

theorem exec_inputEdge_locked (hst : (s.src n.val).st = .locked) :
    let x := s.src n.val
    ∃ t, exec (.inputEdge n rising) s = .next t ∧ onlySrc s t n.val [] ∧ (t.src n.val).st = .locked ∧
      t.pos n.val = (if (x.base / 4096 + 1) * 4096 ≤ x.floor then x.floor / 4096 + 1 else x.base / 4096 + 1) * 4096 := by
  obtain ⟨u, hu, he, hsrc, -⟩ := exec_inputEdge_last hm ht hl hf hsel hp hk (by rw [hst]; decide)
  obtain ⟨y, hy, hyst, hye, hyb⟩ := State.boundary_locked (s := u) (n := n.val) (at_ := u.time) (by rwa [hsrc])
  refine ⟨_, he, ?_⟩
  rw [hy, State.pos_moveSrc_locked hl.1 hyst hye, State.src_moveSrc, hyb, hsrc]
  exact ⟨hu.trans (onlySrc_moveSrc _ _ _), hyst, rfl⟩

theorem exec_inputEdge_holdover (hst : (s.src n.val).st = .holdover) :
    ∃ t, exec (.inputEdge n rising) s = .next t ∧ onlySrc s t n.val [] ∧ (t.src n.val).st = .locked ∧
      (t.src n.val).pest = (s.src n.val).pest ∧
      t.pos n.val = if 2048 ≤ s.pos n.val % 4096 then (s.pos n.val / 4096 + 1) * 4096 else s.pos n.val := by
  obtain ⟨u, hu, he, hsrc, hpos⟩ := exec_inputEdge_last hm ht hl hf hsel hp hk (by rw [hst]; decide)
  obtain ⟨y, hy, hyst, hyp, hye, hyb⟩ := State.boundary_holdover (s := u) (n := n.val) (by rwa [hsrc])
  refine ⟨_, he, ?_⟩
  rw [hy, State.pos_moveSrc_locked hl.1 hyst hye, State.src_moveSrc, hyb, hpos]
  exact ⟨hu.trans (onlySrc_moveSrc _ _ _), hyst, by rw [hyp, hsrc]; rfl, rfl⟩

end

end

/-! ## A source is overdue, or its holdover ends (R142 to R144) -/

theorem State.not_edgeAhead_iff {s : State} {n t : Nat} :
    (!s.edgeAhead n t) = true ↔ ∀ c, (s.src n).cand = some c → t < c.1 := by
  unfold State.edgeAhead
  cases hc : (s.src n).cand with
  | none => simp
  | some c => simp

/-- No boundary came within P_est and TOL, and no edge that came in time waits for its filter. -/
def State.overdue (s : State) (n : Nat) : Prop :=
  n ≠ 0 ∧ n ≠ 1 ∧ (s.src n).st = .locked ∧
    (n = 7 ∨ (s.overdueAt n ≤ s.time ∧ ∀ c, (s.src n).cand = some c → s.overdueAt n < c.1))

theorem sourceOverdue_due {s : State} {n : Nat} (h : s.overdue n) :
    sourceOverdue s n = s.moveSrc n { s.src n with st := .holdover, holdFrom := if n = 7 then s.time else s.overdueAt n } := by
  obtain ⟨h0, h1, hst, hd⟩ := h
  unfold sourceOverdue
  dsimp only
  rw [if_neg (by simp [h0, h1, hst])]
  by_cases h7 : n = 7
  · rw [if_pos h7, if_pos h7]
  · obtain ⟨hat, hc⟩ := hd.resolve_left h7
    rw [if_neg h7, if_neg h7, if_pos ⟨hat, State.not_edgeAhead_iff.2 hc⟩]

theorem sourceOverdue_notDue {s : State} {n : Nat} (h : ¬ s.overdue n) : sourceOverdue s n = s := by
  unfold sourceOverdue
  dsimp only
  by_cases hl : n = 0 ∨ n = 1 ∨ (s.src n).st ≠ .locked
  · rw [if_pos hl]
  · obtain ⟨h0, h1, hst⟩ : n ≠ 0 ∧ n ≠ 1 ∧ (s.src n).st = .locked := by simpa using hl
    have h7 : n ≠ 7 := fun h7 => h ⟨h0, h1, hst, .inl h7⟩
    rw [if_neg hl, if_neg h7, if_neg fun hd => h ⟨h0, h1, hst, .inr ⟨hd.1, State.not_edgeAhead_iff.1 hd.2⟩⟩]

/-- A loss: the source is LOST at the position given, LOST is raised, and then the waiting CCWs meet it. -/
theorem State.srcLose_form (s : State) (n p : Nat) : ∃ u : State, s.srcLose n p = u.lossSlots n ∧ (u.src n).st = .lost ∧
    (u.src n).base = p ∧ bit (u.reg tpStatus) 1 = true ∧ onlyRegs { s with srcs := u.srcs } u [tpStatus] := by
  unfold State.srcLose
  extract_lets x t
  have ht : onlySrc s t n [] := onlySrc_moveSrc s n _
  have hu : onlyRegs t (t.setStatus tpStatus 2#32) [tpStatus] := onlyRegs_setStatus t tpStatus 2#32
  have hsrc : (t.setStatus tpStatus 2#32).src n = t.src n := hu.src n
  refine ⟨t.setStatus tpStatus 2#32, rfl, ?_, ?_, ?_, (ht.trans (hu.onlySrc n)).1⟩
  · rw [hsrc, State.src_moveSrc]
  · rw [hsrc, State.src_moveSrc]
  · rw [State.reg_setStatus, if_pos rfl]
    exact bit_or_two _

/-- The holdover has lasted HOLD microseconds, and no edge that came before its end waits for its filter. -/
def State.holdoverOver (s : State) (n : Nat) : Prop :=
  (s.src n).st = .holdover ∧ (s.src n).holdFrom + s.srcHold n * 1200 ≤ s.time ∧
    ∀ c, (s.src n).cand = some c → (s.src n).holdFrom + s.srcHold n * 1200 < c.1

theorem holdoverExpiry_over {s : State} {n : Nat} (h : s.holdoverOver n) : holdoverExpiry s n = s.srcLose n (s.pos n) := by
  obtain ⟨hst, hend, hc⟩ := h
  exact if_pos ⟨hst, hend, State.not_edgeAhead_iff.2 hc⟩

theorem holdoverExpiry_runs {s : State} {n : Nat} (h : ¬ s.holdoverOver n) : holdoverExpiry s n = s :=
  if_neg fun ⟨hst, hend, hc⟩ => h ⟨hst, hend, State.not_edgeAhead_iff.1 hc⟩

/-! ## Duplicated counters (R148) -/

/-- What a mismatch of a source other than T0 leaves in DUP's register, TP_STATUS and the reports. -/
def State.dupRecorded (s : State) (n : Nat) : State :=
  ((s.setReg 0x04500010 (BitVec.ofNat 32 (2 ^ 31 + n))).setStatus tpStatus 8#32).report 19 (n - 1) 1 18 n 0 0#32

theorem onlyRegs_dupRecorded (s : State) (n : Nat) : onlyRegs s (s.dupRecorded n) [0x04500010, tpStatus] :=
  ((onlyRegs_setReg _ _ _).trans (onlyRegs_setStatus _ _ _)).trans (onlyRegs_report _ _ _ _ _ _ _ _ _)

theorem State.reg_dupRecorded (s : State) (n : Nat) : (s.dupRecorded n).reg 0x04500010 = BitVec.ofNat 32 (2 ^ 31 + n) := by
  change State.reg (State.setStatus _ tpStatus 8#32) 0x04500010 = _
  rw [State.reg_setStatus, if_neg (by decide), State.reg_setReg_self]

/-- DUPERR of TP_STATUS. -/
theorem State.duperr_dupRecorded (s : State) (n : Nat) : bit ((s.dupRecorded n).reg tpStatus) 3 = true := by
  change bit (State.reg (State.setStatus _ tpStatus 8#32) tpStatus) 3 = true
  rw [State.reg_setStatus, if_pos rfl, bit, BitVec.getLsbD_or]
  simp

theorem State.report_dupRecorded (s : State) {n : Nat} (h0 : n ≠ 0) (hn : n < 16) :
    ∃ r ∈ (s.dupRecorded n).reports, r.group.val = 19 ∧ r.det.val + 1 = n ∧ r.cls.val = 1 := by
  refine ⟨_, List.mem_append_right _ (List.mem_singleton_self _), rfl, ?_, rfl⟩
  change (n - 1) % 64 + 1 = n
  omega

theorem dupCounterMismatch_t0 (s : State) (p : Nat) : dupCounterMismatch s 0 p = s.report 20 0 2 18 0 0 0#32 := rfl

theorem dupCounterMismatch_off {s : State} {n : Nat} (h0 : n ≠ 0) (hst : (s.src n).st = .off) (p : Nat) :
    dupCounterMismatch s n p =
      (s.moveSrc n { s.src n with base := min (s.pos n) p, floor := min (s.pos n) p }).dupRecorded n := by
  unfold dupCounterMismatch
  simp only [if_neg h0, if_pos hst]
  rfl

theorem dupCounterMismatch_on {s : State} {n : Nat} (h0 : n ≠ 0) (hst : (s.src n).st ≠ .off) (p : Nat) :
    dupCounterMismatch s n p = (s.srcLose n (min (s.pos n) p)).dupRecorded n := by
  unfold dupCounterMismatch
  simp only [if_neg h0, if_neg hst]
  rfl

section
variable {s : State} {n : SrcId} (ht : s.tickStep = 4)
include ht

theorem exec_dupCounterMismatch (o : Quad) : exec (.dupCounterMismatch n o) s = .next (dupCounterMismatch s n.val o.toNat) :=
  congrArg (fun u => Host.Outcome.next (dupCounterMismatch u n.val o.toNat)) (State.atStep_here ht)

/-- A mismatch loses a source that is not OFF, and leaves one in OFF at the lower position; either way it is recorded. -/
theorem exec_dupCounterMismatch_form (h0 : n.val ≠ 0) (o : Quad) :
    ∃ u : State, exec (.dupCounterMismatch n o) s = .next (u.dupRecorded n.val) ∧
      ((s.src n.val).st ≠ .off → u = s.srcLose n.val (min (s.pos n.val) o.toNat)) ∧
      ((s.src n.val).st = .off → (u.src n.val).st = .off ∧ u.pos n.val = min (s.pos n.val) o.toNat ∧ onlySrc s u n.val []) := by
  have hrun := exec_dupCounterMismatch (n := n) ht o
  by_cases hst : (s.src n.val).st = .off
  · rw [dupCounterMismatch_off h0 hst] at hrun
    refine ⟨_, hrun, fun h => absurd hst h, fun _ => ⟨?_, ?_, onlySrc_moveSrc _ _ _⟩⟩
    · rw [State.src_moveSrc]
      exact hst
    · refine State.pos_frozen h0 ?_ ?_ ?_ <;> rw [State.src_moveSrc]
      exact hst
  · rw [dupCounterMismatch_on h0 hst] at hrun
    exact ⟨_, hrun, fun _ => rfl, fun h => absurd h hst⟩

end

/-! ## Change of the tempo clock (R157) -/

/-- A source on the change of the clock: its estimates in ticks of the new length, and its position as a floor. -/
def State.rescaled (s : State) (aon : Bool) (n : Nat) : Source :=
  { s.src n with
    pest := rescale s.tickLen (if aon then 25 else 6) (s.src n).pest
    hist := (s.src n).hist.map (rescale s.tickLen (if aon then 25 else 6))
    floor := max (s.src n).floor (s.pos n), prev := some (s.time, s.posBefore n) }

theorem State.foldl_setSrc_form (f : Nat → Source) (l : List Nat) (s : State) :
    l.foldl (fun t n => t.setSrc n (f n)) s = { s with srcs := (l.foldl (fun t n => t.setSrc n (f n)) s).srcs } := by
  induction l generalizing s with
  | nil => rfl
  | cons n l ih =>
    rw [List.foldl_cons, ih]
    rfl

theorem State.foldl_setSrc_src (f : Nat → Source) (l : List Nat) (s : State) (j : Nat) :
    (l.foldl (fun t n => t.setSrc n (f n)) s).src j = if j ∈ l then f j else s.src j := by
  induction l generalizing s with
  | nil => simp
  | cons n l ih =>
    rw [List.foldl_cons, ih]
    by_cases hj : j = n
    · simp [hj]
    · simp [hj, State.src_setSrc_other]

/-- A source that neither is locked nor in holdover stands at its base. -/
theorem State.pos_not_counting {s : State} {n : Nat} (hn : n ≠ 0) (hlate : ¬ s.time < (s.src n).e) (hl : (s.src n).st ≠ .locked)
    (hh : (s.src n).st ≠ .holdover) : s.pos n = (s.src n).base := by
  unfold State.pos State.posAt
  rw [if_neg hn]
  dsimp only
  rw [if_neg hlate]
  split
  · contradiction
  · contradiction
  · rfl

/-- A floor at the position that a source has keeps it from going back. -/
theorem State.pos_le_of_floor {s t : State} {n : Nat} (hn : n ≠ 0) (htime : t.time = s.time) (hst : (t.src n).st = (s.src n).st)
    (hb : (t.src n).base = (s.src n).base) (he : (t.src n).e = (s.src n).e) (hf : s.pos n ≤ (t.src n).floor) : s.pos n ≤ t.pos n := by
  by_cases hearly : t.time < (t.src n).e
  · have hpos : t.pos n = max (t.src n).floor ((t.src n).base - 1) := (if_neg hn).trans (if_pos hearly)
    rw [hpos]
    exact le_max_of_le_left hf
  · by_cases hc : (t.src n).st = .locked ∨ (t.src n).st = .holdover
    · refine hf.trans ?_
      unfold State.pos State.posAt
      rw [if_neg hn]
      dsimp only
      rw [if_neg hearly]
      rcases hc with hc | hc <;> rw [hc] <;> exact le_max_left _ _
    · obtain ⟨hl, hh⟩ := not_or.1 hc
      rw [State.pos_not_counting hn hearly hl hh, hb]
      rw [htime, he] at hearly
      rw [hst] at hl hh
      exact (State.pos_not_counting hn hearly hl hh).le

theorem tempoClockChange_due {s : State} {aon : Bool} (hr : s.clkReq = some aon) (ht : s.time % 1200 = 0) (ha : aon ≠ s.tickAon) :
    ∃ slots, tempoClockChange s =
      (span 1 15).foldl (fun t n => t.setSrc n (s.rescaled aon n)) { s with tickAon := aon, clkReq := none, slots := slots } := by
  unfold tempoClockChange
  simp only [hr, if_neg (not_not.2 ht), if_neg ha, List.foldl_map]
  exact ⟨_, rfl⟩

theorem tempoClockChange_same {s : State} {aon : Bool} (hr : s.clkReq = some aon) (ht : s.time % 1200 = 0) (ha : aon = s.tickAon) :
    tempoClockChange s = { s with clkReq := none } := by
  unfold tempoClockChange
  simp only [hr, if_neg (not_not.2 ht), if_pos ha]

/-- Without a request, or between two boundaries of T0's period, nothing changes. -/
theorem tempoClockChange_waits {s : State} (h : s.clkReq = none ∨ s.time % 1200 ≠ 0) : tempoClockChange s = s := by
  unfold tempoClockChange
  cases hr : s.clkReq with
  | none => rfl
  | some aon => exact if_pos (h.resolve_left (by simp [hr]))

theorem mem_span {lo n j : Nat} : j ∈ span lo n ↔ lo ≤ j ∧ j < lo + n := by
  induction n generalizing lo with
  | zero => simp [span]
  | succ n ih =>
    rw [span, List.mem_cons, ih]
    omega

theorem State.rescaled_keeps (s : State) (aon : Bool) {n : Nat} (hn : n ≠ 0) {t : State} (htime : t.time = s.time)
    (hsrc : t.src n = s.rescaled aon n) : s.pos n ≤ t.pos n ∧ (t.src n).st = (s.src n).st ∧
      (t.src n).pest = (s.src n).pest * s.tickLen / (if aon then 25 else 6) := by
  refine ⟨State.pos_le_of_floor hn htime ?_ ?_ ?_ ?_, ?_, ?_⟩ <;> rw [hsrc]
  exacts [rfl, rfl, rfl, le_max_right _ _, rfl, rfl]

/-! ## The statement -/

/-- An edge counts when it is plausible after the last one, if there was one. -/
theorem counts_iff (s : State) (n : Nat) :
    (let x := s.src n
     let k := match x.lastEdge with | some t => s.ticksFrom t | none => 0
     x.lastEdge.isSome → 4 ≤ k ∧
       ¬ ((x.st = .locked ∨ x.st = .holdover) ∧ k * 256 * 100 * s.srcDiv n < bitsOf (s.srcLimit n) 15 8 * x.pest)) ↔
      ∀ t, (s.src n).lastEdge = some t → s.plausible n s.time t := by
  dsimp only
  cases hx : (s.src n).lastEdge with
  | none => simp
  | some t => simp [State.plausible, State.ticksTo, State.ticksFrom]

/-- Settles O33: each command first takes its step of the tick. An edge is then one of `exec_inputEdge`'s cases, by what the source's
filter, EDGE and plausibility say of it and by the source's state; the other commands have one equation for each case. -/
theorem tempoSourcesMove : Obligations.TempoSourcesMove := by
  refine ⟨fun s n => ?_, fun s => ⟨fun n o ht => ⟨fun h0 => ?_, fun h0 => ?_⟩, fun aon hr ht ha => ?_, fun aon hr ht ha => ?_,
    fun h => ?_⟩⟩
  · intro x k counts only live turn
    refine ⟨fun rising hm hm1 => ?_, ?_, ?_, fun o => ?_, fun p => State.atStep_of_le, fun p => State.atStep_of_lt, fun rising ht => ?_,
      fun ht => ?_, fun ht => ?_⟩
    · exact congrArg Host.Outcome.next (State.fromOutside_atStep hm hm1 (State.edgeComes · n.val rising))
    · exact congrArg (fun u => Host.Outcome.next (sourceOverdue u n.val)) (s.atStep_twice 2).symm
    · exact congrArg (fun u => Host.Outcome.next (holdoverExpiry u n.val)) (s.atStep_twice 2).symm
    · exact congrArg (fun u => Host.Outcome.next (dupCounterMismatch u n.val o.toNat)) (s.atStep_twice 4).symm
    · intro filt taken
      have hcounts : counts ↔ ∀ t, x.lastEdge = some t → s.plausible n.val s.time t := counts_iff s n.val
      refine ⟨fun h => ?_, fun ⟨hm, hl⟩ hf hc => exec_inputEdge_waits hm ht hl hf hc,
        fun ⟨hm, hl⟩ hf ⟨c, hc, hr⟩ => exec_inputEdge_drops hm ht hl hf hc hr, fun ⟨⟨hm, hl⟩, hf, hsel⟩ hp => ?_,
        fun ⟨⟨hm, hl⟩, hf, hsel⟩ hp hst hk => exec_inputEdge_within hm ht hl hf hsel (hcounts.1 hp) hst hk,
        fun ⟨⟨hm, hl⟩, hf, hsel⟩ hp hst hk => ?_,
        fun ⟨⟨hm, hl⟩, hf, hsel⟩ hp hst hk => exec_inputEdge_locked hm ht hl hf hsel (hcounts.1 hp) hk hst,
        fun ⟨⟨hm, hl⟩, hf, hsel⟩ hp hst hk => exec_inputEdge_holdover hm ht hl hf hsel (hcounts.1 hp) hk hst⟩
      · by_cases hm : s.mode = 0xA
        · exact ⟨s, congrArg Host.Outcome.next (State.fromOutside_replay hm _), onlyRegs.refl s []⟩
        by_cases hl : s.srcLive n.val
        · obtain ⟨hf, hno⟩ := h.resolve_left (not_not.2 ⟨hm, hl⟩)
          exact exec_inputEdge_unselected hm ht hl hf fun hsel => hno ⟨⟨hm, hl⟩, hf, hsel⟩
        · exact exec_inputEdge_notLive hm ht hl
      · rw [hcounts] at hp
        push Not at hp
        obtain ⟨t, hlast, hp⟩ := hp
        exact exec_inputEdge_glitch hm ht hl hf hsel hlast hp
      · obtain ⟨t, he, honly, hx⟩ := exec_inputEdge_lost hm ht hl hf hsel (hcounts.1 hp) hst hk
        exact ⟨t, he, honly, by rw [hx]; rfl, by rw [hx]; rfl, by rw [hx]; rfl⟩
    · intro at_ due
      have hrun : exec (.sourceOverdue n) s = .next (sourceOverdue s n.val) :=
        congrArg (fun u => Host.Outcome.next (sourceOverdue u n.val)) (State.atStep_here ht)
      refine ⟨fun hd => ⟨_, by rw [hrun, sourceOverdue_due hd], onlySrc_moveSrc _ _ _, State.src_moveSrc _ _ _⟩, fun hd => ?_⟩
      rw [hrun, sourceOverdue_notDue hd]
    · intro end_ due
      have hrun : exec (.holdoverExpiry n) s = .next (holdoverExpiry s n.val) :=
        congrArg (fun u => Host.Outcome.next (holdoverExpiry u n.val)) (State.atStep_here ht)
      refine ⟨fun hd => ?_, fun hd => ?_⟩
      · obtain ⟨u, hu, hrest⟩ := s.srcLose_form n.val (s.pos n.val)
        exact ⟨u, by rw [hrun, holdoverExpiry_over hd, hu], hrest⟩
      · rw [hrun, holdoverExpiry_runs hd]
  · rw [exec_dupCounterMismatch ht, h0, dupCounterMismatch_t0]
  · obtain ⟨u, he, hlose, hoff⟩ := exec_dupCounterMismatch_form ht h0 o
    have hu := onlyRegs_dupRecorded u n.val
    refine ⟨_, he, u.reg_dupRecorded n.val, u.duperr_dupRecorded n.val, fun hst => hlose hst ▸ hu, fun hst => ?_,
      u.report_dupRecorded h0 n.isLt⟩
    obtain ⟨hst, hpos, honly⟩ := hoff hst
    obtain ⟨hform, hothers⟩ := honly.trans (hu.onlySrc n.val)
    exact ⟨by rwa [hu.src], (hu.read (State.pos · n.val)).trans hpos, hform, hothers⟩
  · obtain ⟨slots, hc⟩ := tempoClockChange_due hr ht ha
    have hform := State.foldl_setSrc_form (s.rescaled aon) (span 1 15) { s with tickAon := aon, clkReq := none, slots := slots }
    have hsrc := State.foldl_setSrc_src (s.rescaled aon) (span 1 15) { s with tickAon := aon, clkReq := none, slots := slots }
    generalize (span 1 15).foldl _ _ = t at hc hform hsrc
    have htime : t.time = s.time := by rw [hform]
    refine ⟨t, congrArg Host.Outcome.next hc, by rw [hform], by rw [hform], ?_, fun n h1 h16 => ?_⟩
    · rw [hform]
    · exact s.rescaled_keeps aon (by omega) htime ((hsrc n).trans (if_pos (mem_span.2 ⟨h1, by omega⟩)))
  · exact congrArg Host.Outcome.next (tempoClockChange_same hr ht ha)
  · exact congrArg Host.Outcome.next (tempoClockChange_waits h)

end Sys2Proof.Machine

namespace Sys2Proof.Machine

-- One declaration after another: side by side they take the compile of the whole text past its memory.
set_option Elab.async false

/-! ## Host time (R136, R142, R226) -/

theorem State.setTsync_flag (s : State) (b : Bool) : bit ((s.setTsync b).reg hpLink) 29 = b := by
  change bit (State.reg (s.setReg hpLink _) hpLink) 29 = b
  rw [State.reg_setReg_self, bit, getLsbD_putBits]
  cases b <;> rfl

theorem onlyRegs_setTsync (s : State) (b : Bool) : onlyRegs s (s.setTsync b) [hpLink] := onlyRegs_setReg s hpLink _

/-- An update as it is told: TSYNC, and the journal's record (R490). -/
def State.hostTimed (s : State) (t : Nat) : State := (s.setTsync true).jTempo 1 t

theorem onlyRegs_hostTimed (s : State) (t : Nat) : onlyRegs s (s.hostTimed t) [hpLink] :=
  (onlyRegs_setTsync s true).trans (onlyRegs_jrec _ _ _ _)

theorem State.hostTimed_flag (s : State) (t : Nat) : bit ((s.hostTimed t).reg hpLink) 29 = true := by
  have hrec : onlyRegs (s.setTsync true) (s.hostTimed t) [] := onlyRegs_jrec _ _ _ _
  rw [hrec.regOutside (by decide), State.setTsync_flag]

section
variable {s : State} {t : Nat}

theorem hostTimeUpdate_unpowered (hd : s.domOn 27 = false) : hostTimeUpdate s t = s :=
  if_pos (show (!s.domOn domU4RT) = true by rw [domU4RT, hd]; rfl)

theorem hostTimeUpdate_off (hd : s.domOn 27 = true) (hst : (s.src 1).st = .off) : hostTimeUpdate s t = s.hostTimed t := by
  have hst' : ((s.hostTimed t).src 1).st = .off := by rwa [(onlyRegs_hostTimed s t).src]
  exact (if_neg (by simp [domU4RT, hd])).trans (if_pos hst')

/-- An update locks T1 at host time, and where it had been lost this counts as a relock. -/
theorem hostTimeUpdate_locks (hd : s.domOn 27 = true) (hst : (s.src 1).st ≠ .off) :
    ∃ y, hostTimeUpdate s t =
        (if (s.src 1).st = .lost then ((s.hostTimed t).moveSrc 1 y).setStatus tpStatus 4#32 else (s.hostTimed t).moveSrc 1 y) ∧
      y.st = .locked ∧ y.e = s.time ∧ max y.floor y.base = max (s.pos 1) t ∧
      y.relock = if (s.src 1).st = .lost then ((s.src 1).relock + 1) % 256 else (s.src 1).relock := by
  have hu := onlyRegs_hostTimed s t
  rw [← hu.src 1, ← hu.read State.time, ← hu.read (State.pos · 1)]
  rw [← hu.src 1] at hst
  exact ⟨_, (if_neg (by simp [domU4RT, hd])).trans (if_neg hst), rfl, rfl, rfl, rfl⟩

/-- The same for the whole state. -/
theorem hostTimeUpdate_form (hd : s.domOn 27 = true) (hst : (s.src 1).st ≠ .off) :
    let u := hostTimeUpdate s t
    (u.src 1).st = .locked ∧ u.pos 1 = max (s.pos 1) t ∧
      (u.src 1).relock = (if (s.src 1).st = .lost then ((s.src 1).relock + 1) % 256 else (s.src 1).relock) ∧
      bit (u.reg hpLink) 29 = true ∧ ((s.src 1).st = .lost → bit (u.reg tpStatus) 2 = true) ∧ onlySrc s u 1 [hpLink, tpStatus] := by
  obtain ⟨y, hy, hyst, hye, hyb, hyr⟩ := hostTimeUpdate_locks (t := t) hd hst
  have hu := onlyRegs_hostTimed s t
  generalize hv : (s.hostTimed t).moveSrc 1 y = v at hy
  have hflag : bit (v.reg hpLink) 29 = true := by rw [← hv]; exact s.hostTimed_flag t
  have honly : onlySrc s v 1 [hpLink] := by rw [← hv]; exact (hu.onlySrc 1).trans (onlySrc_moveSrc _ _ _)
  have hpos : v.pos 1 = max (s.pos 1) t := by
    rw [← hv, State.pos_moveSrc_locked (by decide) hyst (hye.trans (hu.read State.time).symm), hyb]
  have hsrc : v.src 1 = { y with prev := some (s.time, s.posBefore 1) } := by
    rw [← hv, State.src_moveSrc, hu.read State.time, hu.read (State.posBefore · 1)]
  intro u
  by_cases hl : (s.src 1).st = .lost
  · have hstatus := onlyRegs_setStatus v tpStatus 4#32
    have hu : u = v.setStatus tpStatus 4#32 := hy.trans (if_pos hl)
    rw [hu, hstatus.src, hsrc, hstatus.read (State.pos · 1)]
    refine ⟨hyst, hpos, hyr, ?_, fun _ => ?_, honly.trans (hstatus.onlySrc 1)⟩
    · rwa [State.reg_setStatus, if_neg (by decide)]
    · rw [State.reg_setStatus, if_pos rfl]
      exact bit_or_four _
  · have hu : u = v := hy.trans (if_neg hl)
    rw [hu, hsrc]
    exact ⟨hyst, hpos, hyr, hflag, fun h => absurd h hl, honly.1.mono (by decide), honly.2⟩

end

theorem hostSyncLoss_eq (s : State) : hostSyncLoss s =
    if (s.src 1).st = .locked then (s.setTsync false).moveSrc 1 { s.src 1 with st := .holdover, holdFrom := s.time }
    else s.setTsync false := rfl

/-- T1 goes into holdover where it was locked, and TSYNC is clear. -/
theorem hostSyncLoss_source (s : State) :
    let t := hostSyncLoss s
    bit (t.reg hpLink) 29 = false ∧ t.src 1 = (if (s.src 1).st = .locked then
      { s.src 1 with st := .holdover, holdFrom := s.time, prev := some (s.time, s.posBefore 1) } else s.src 1) ∧
      onlySrc s t 1 [hpLink] := by
  have hu := onlyRegs_setTsync s false
  rw [hostSyncLoss_eq]
  by_cases hl : (s.src 1).st = .locked
  · rw [if_pos hl, if_pos hl]
    exact ⟨s.setTsync_flag false, State.src_moveSrc _ _ _, (hu.onlySrc 1).trans (onlySrc_moveSrc _ _ _)⟩
  · rw [if_neg hl, if_neg hl]
    exact ⟨s.setTsync_flag false, hu.src 1, hu.onlySrc 1⟩

theorem exec_hostTimeUpdate_eq (s : State) (h : Quad) :
    exec (.hostTimeUpdate h) s = .next (s.fromOutside fun u => hostTimeUpdate (u.atStep 1) h.toNat) := rfl

theorem exec_hostSyncLoss_eq (s : State) : exec .hostSyncLoss s = .next (s.fromOutside fun u => hostSyncLoss (u.atStep 2)) := rfl

/-! ## Writes of TP_SRCn_CFG (R137, R159) -/

theorem onlyRegs.afterTick {s u : State} {as : List Nat} (h : onlyRegs s u as) : onlyRegs { s with tickStep := 7 } u.afterTick as := by
  obtain ⟨r, i, p, j, rfl⟩ := h.form
  exact ⟨rfl, h.2⟩

theorem onlyRegs.laneFunc {s t : State} (h : onlyRegs s t []) {l : Nat} (hl : l < 128) : t.laneFunc l = s.laneFunc l := by
  rw [State.laneFunc, State.laneFunc, h.regOutside (by unfold laneFnAddr; omega)]

theorem onlyRegs.srcRefused {s t : State} (h : onlyRegs s t []) (n : Nat) (v : Word) : t.srcRefused n v = s.srcRefused n v := by
  unfold State.srcRefused
  dsimp only
  rw [h.laneFunc (bitsOf_lt v 6 0), h.read (fun u => u.domOn (pgDom (bitsOf v 6 0 / 12)))]

/-- No field of the value takes a reserved code: EDGE, and LANE, which T1 does not have. -/
def srcCfgLegal (n : Nat) (new : Word) : Prop := n = 1 ∨ (bitsOf new 30 29 ≠ 3 ∧ bitsOf new 6 0 ≤ 95)

section
variable {s : State} {n : Nat} {v : Word}

theorem State.srcCfgWrite_fixed (h : n = 0 ∨ n = 7) : s.srcCfgWrite n v = s.afterTick := if_pos h

variable (h0 : n ≠ 0) (h7 : n ≠ 7)
include h0 h7

theorem State.srcCfgWrite_refused (hr : s.srcRefused n (v &&& srcCfgMask n) = true) : s.srcCfgWrite n v = s.afterTick.cfgErr tpStatus :=
  (if_neg (by omega)).trans (if_pos hr)

theorem State.srcCfgWrite_legal (hr : ¬ s.srcRefused n (v &&& srcCfgMask n) = true) (hl : srcCfgLegal n (v &&& srcCfgMask n)) :
    s.srcCfgWrite n v =
      let new := v &&& srcCfgMask n
      let was := (s.src n).st != .off
      let t := (if was && !bit new 31 then s.afterTick.srcOff n else s.afterTick).setReg (0x04500100 + 0x20 * n) new
      if !was && bit new 31 then t.srcOn n else t := by
  have hedge : (n != 1 && bitsOf (v &&& srcCfgMask n) 30 29 == 3) = false := by
    rcases hl with h | ⟨h, -⟩ <;> simp [h]
  have hlane : (n != 1 && decide (bitsOf (v &&& srcCfgMask n) 6 0 > 95)) = false := by
    rcases hl with h | ⟨-, h⟩ <;> simp [h]
  refine ((if_neg (by omega)).trans (if_neg hr)).trans ?_
  dsimp only
  rw [hedge, hlane]
  rfl

section
variable (hr : ¬ s.srcRefused n (v &&& srcCfgMask n) = true) (hl : srcCfgLegal n (v &&& srcCfgMask n))
include hr hl

theorem State.srcCfgWrite_on (hst : (s.src n).st = .off) (hv : bit (v &&& srcCfgMask n) 31 = true) :
    s.srcCfgWrite n v = (s.afterTick.setReg (0x04500100 + 0x20 * n) (v &&& srcCfgMask n)).srcOn n := by
  rw [State.srcCfgWrite_legal h0 h7 hr hl]
  simp [hst, hv]

/-- EN stays as it is. -/
theorem State.srcCfgWrite_stays (hv : (s.src n).st = .off ↔ bit (v &&& srcCfgMask n) 31 = false) :
    s.srcCfgWrite n v = s.afterTick.setReg (0x04500100 + 0x20 * n) (v &&& srcCfgMask n) := by
  rw [State.srcCfgWrite_legal h0 h7 hr hl]
  by_cases hst : (s.src n).st = .off
  · simp [hst, hv.1 hst]
  · have hen : bit (v &&& srcCfgMask n) 31 = true := Bool.eq_true_of_not_eq_false (mt hv.2 hst)
    simp [hst, hen]

theorem State.srcCfgWrite_off (hst : (s.src n).st ≠ .off) (hv : bit (v &&& srcCfgMask n) 31 = false) :
    s.srcCfgWrite n v = (s.afterTick.srcOff n).setReg (0x04500100 + 0x20 * n) (v &&& srcCfgMask n) := by
  rw [State.srcCfgWrite_legal h0 h7 hr hl]
  simp [hst, hv]

end

end

theorem State.srcOff_st (s : State) (n : Nat) : ((s.srcOff n).src n).st = .off := by
  rw [State.srcOff, State.src_setSrc]

/-- A source's CFG register is not one of the journal's. -/
theorem srcCfg_block {n : Nat} (hn : n < 16) : (0x04500100 + 0x20 * n) / 0x100000 ≠ 0x4F := by omega

theorem State.srcOn_src (s : State) (n : Nat) : ((s.srcOn n).src n).st = .acquire ∧ ((s.srcOn n).src n).base = (s.src n).base ∧
    ((s.srcOn n).src n).pest = nomPest s.tickAon (s.srcNom n) := by
  rw [State.srcOn, State.src_setSrc]
  exact ⟨rfl, rfl, rfl⟩

theorem onlySrc_srcOn (s : State) (n : Nat) : onlySrc s (s.srcOn n) n [] := onlySrc_setSrc _ _ _

/-- CFG and NOM of a source are two registers. -/
theorem State.srcNom_setReg_srcCfg (s : State) (n : Nat) (v : Word) : (s.setReg (0x04500100 + 0x20 * n) v).srcNom n = s.srcNom n := by
  rw [State.srcNom, State.srcNom, State.reg_setReg, if_neg (by omega)]

theorem State.positionRead_low (s : State) (m n : Nat) : (s.positionRead m n).2.toNat = s.pos n % 2 ^ 32 := by
  rw [State.positionRead, BitVec.toNat_ofNat, Nat.mod_mod]

theorem State.positionRead_captures (s : State) (m n : Nat) :
    (s.positionRead m n).1 = s.setReg (banked m (0x0450011C + 0x20 * n)) (BitVec.ofNat 32 (s.pos n / 2 ^ 32)) := rfl

theorem State.setReg_withOut (s : State) (a : Nat) (v : Word) (o : List Out) :
    ({ s.setReg a v with out := o } : State) = ({ s with out := o } : State).setReg a v := rfl

section
variable {s : State} {m : Master} {n : SrcId} {v : Word}

theorem exec_sourceCfgWrite (h : s.regRight m (0x04500100 + 0x20 * n.val) true = .may) :
    ∃ u, onlyRegs s u [] ∧ exec (.sourceCfgWrite m n v) s = .next (u.srcCfgWrite n.val v) :=
  ⟨_, onlyRegs_jRegWrite s _ _ v, congrArg Host.Outcome.next (State.regRow_may v _ h)⟩

theorem exec_positionRead_may (h : s.regRight m (0x04500118 + 0x20 * n.val) false = .may) :
    let r := s.positionRead m.id n.val
    exec (.positionRead m n) s = .next (r.1.emit (.readData m.id (leBytes 4 r.2.toNat))) :=
  congrArg Host.Outcome.next (State.readRow_may _ h)

/-- POSLO is answered, and the high word captured for the master (R158). -/
theorem exec_positionRead (h : s.regRight m (0x04500118 + 0x20 * n.val) false = .may) :
    let t : State := { s with out := s.out ++ [.readData m.id (leBytes 4 (s.pos n.val % 2 ^ 32))] }
    exec (.positionRead m n) s =
      .next (t.setReg (banked m.id (0x0450011C + 0x20 * n.val)) (BitVec.ofNat 32 (s.pos n.val / 2 ^ 32))) := by
  rw [exec_positionRead_may h, State.positionRead_low, State.positionRead_captures, State.emit_plain _ rfl, State.setReg_out]
  exact congrArg Host.Outcome.next (s.setReg_withOut _ _ _)

end

/-! ## The statement -/

/-- Settles O34: an update and a loss of host time by what T1 was, the write of TP_SRCn_CFG by the source, the refusal and EN. -/
theorem hostTimeAndSourceRegisters : Obligations.HostTimeAndSourceRegisters := by
  refine ⟨fun s h => ?_, fun s m n v => ⟨fun hr => ?_, fun hr => ?_⟩⟩
  · intro x
    have htime (hm : s.mode ≠ 0xA) (ht : s.tickStep = 1) : exec (.hostTimeUpdate h) s = .next (hostTimeUpdate s h.toNat) := by
      rw [exec_hostTimeUpdate_eq, State.fromOutside_live hm, State.atStep_here ht]
    refine ⟨fun hm ht => ?_, fun hm ht => ?_, fun ht hm hd hst => ?_, fun ht hm hd hst => ?_, fun hno => ?_, fun ht hm => ?_,
      fun hm => ?_⟩
    · exact congrArg Host.Outcome.next (State.fromOutside_atStep hm ht (hostTimeUpdate · h.toNat))
    · exact congrArg Host.Outcome.next (State.fromOutside_atStep hm ht hostSyncLoss)
    · obtain ⟨hlock, hpos, hrelock, hsync, hlost, honly⟩ := hostTimeUpdate_form (t := h.toNat) hd hst
      exact ⟨_, htime hm ht, hlock, hpos, hrelock, hsync, hlost, honly⟩
    · rw [htime hm ht, hostTimeUpdate_off hd hst]
      exact ⟨_, rfl, s.hostTimed_flag _, onlyRegs_hostTimed s _⟩
    · by_cases hm : s.mode = 0xA
      · exact congrArg Host.Outcome.next (State.fromOutside_replay hm _)
      · obtain ⟨ht, hd⟩ := hno.resolve_left hm
        rw [htime hm ht, hostTimeUpdate_unpowered hd]
    · obtain ⟨hsync, hsrc, honly⟩ := hostSyncLoss_source s
      refine ⟨_, ?_, hsync, hsrc, honly⟩
      rw [exec_hostSyncLoss_eq, State.fromOutside_live hm, State.atStep_here ht]
    · exact congrArg Host.Outcome.next (State.fromOutside_replay hm _)
  · intro a new refused legal off z
    obtain ⟨u, hu, he⟩ := exec_sourceCfgWrite (v := v) hr
    have hz := hu.afterTick
    have ha := srcCfg_block n.isLt
    rw [he]
    refine ⟨fun hfix => ?_, fun h0 h7 => ⟨fun href => ?_, fun href hlegal hoff hen => ?_, fun href hlegal hen => ?_,
      fun href hlegal hoff hen => ?_⟩⟩
    · rw [State.srcCfgWrite_fixed hfix]
      exact ⟨_, rfl, hz⟩
    · rw [State.srcCfgWrite_refused h0 h7 ((hu.srcRefused _ _).trans href)]
      exact ⟨_, rfl, State.cfgErr_flag _ _, hz.trans (onlyRegs_cfgErr _ _)⟩
    all_goals have href' : ¬ u.srcRefused n.val new = true := by rwa [hu.srcRefused]
    · rw [State.srcCfgWrite_on h0 h7 href' hlegal (by rwa [hu.src]) hen]
      have hw := hz.trans (onlyRegs_setReg u.afterTick a new)
      obtain ⟨hst, hbase, hpest⟩ := State.srcOn_src (u.afterTick.setReg a new) n.val
      refine ⟨_, rfl, State.reg_setReg_self _ _ _, hst, hbase.trans (congrArg Source.base (hu.src n.val)), hpest.trans ?_,
        (hw.onlySrc n.val).trans (onlySrc_srcOn _ _)⟩
      rw [State.srcNom_setReg_srcCfg, hw.read State.tickAon]
      exact congrArg _ (hu.srcNom n.isLt)
    · rw [State.srcCfgWrite_stays h0 h7 href' hlegal (by rwa [hu.src])]
      exact ⟨_, rfl, State.reg_setReg_self _ _ _, hz.trans (onlyRegs_setReg _ _ _)⟩
    · refine ⟨u.afterTick, hz, ?_, State.srcOff_st _ _⟩
      rw [State.srcCfgWrite_off h0 h7 href' hlegal (by rwa [hu.src]) hen]
  · rw [exec_positionRead hr]
    exact ⟨_, rfl, rfl, State.reg_setReg_self _ _ _, onlyRegs_setReg _ _ _⟩

end Sys2Proof.Machine

namespace Sys2Proof.Machine

-- One declaration after another: side by side they take the compile of the whole text past its memory.
set_option Elab.async false

/-! # Strike groups (R149 to R155, R158, R159) -/

/-! ## Waiting operations and a write of TP_SGg_CTRL (R146, R147) -/

/-- A table holds its default at a number, or an entry of that number. -/
theorem SMap.get_default_or_mem {α : Type} (d : α) (m : SMap α) (k : Nat) : SMap.get d m k = d ∨ (k, SMap.get d m k) ∈ m := by
  induction m with
  | nil => exact .inl rfl
  | cons e m ih =>
    obtain ⟨j, a⟩ := e
    by_cases hj : j = k
    · subst hj
      simp [SMap.get]
    · simp only [SMap.get, if_neg hj]
      exact ih.imp_right (List.mem_cons_of_mem _)

theorem State.slot_ne_waiting {s : State} (h : ∀ p ∈ s.busySlots, p.2.st ≠ .waiting) (k : Nat) : (s.slot k).st ≠ .waiting := by
  intro hw
  rcases SMap.get_default_or_mem {} s.slots k with hd | hm
  · rw [State.slot, hd] at hw
    cases hw
  · have hw' : (SMap.get {} s.slots k).st = .waiting := hw
    exact h _ (List.mem_filter.2 ⟨hm, by simp [hw']⟩) hw

theorem State.dueStrike_notWaiting {s : State} {key : Nat} (h : (s.slot key).st ≠ .waiting) (g : Nat) : s.dueStrike g key = s :=
  if_neg (by simp [h])

/-- No strike is due where no operation waits. -/
theorem State.foldl_dueStrike {s : State} (h : ∀ k, (s.slot k).st ≠ .waiting) (g : Nat) (l : List Nat) :
    l.foldl (fun t k => t.dueStrike g k) s = s := by
  induction l with
  | nil => rfl
  | cons k l ih => rw [List.foldl_cons, State.dueStrike_notWaiting (h k), ih]

/-! ## What a write of TP_SGg_CTRL stores (R150, R159) -/

/-- A bit replaced by itself. -/
theorem putBits_bit (v : Word) {i : Nat} (hi : i < 32) {b : Bool} (hb : bit v i = b) : putBits v i i (if b then 1 else 0) = v := by
  refine BitVec.eq_of_getLsbD_eq fun j hj => ?_
  rw [getLsbD_putBits]
  by_cases hji : j = i
  · subst hji
    rw [bit] at hb
    rw [if_pos ⟨le_rfl, le_rfl⟩, hb, Nat.sub_self]
    cases b <;> simp [hi]
  · exact if_neg (by omega)

theorem bit_putBits_self (v : Word) {i : Nat} (hi : i < 32) (b : Bool) : bit (putBits v i i (if b then 1 else 0)) i = b := by
  rw [bit, getLsbD_putBits, if_pos ⟨le_rfl, le_rfl⟩, Nat.sub_self]
  cases b <;> simp [hi]

/-- ARMED is no RSVD bit. -/
theorem bit_sgFields (v : Word) : bit (v &&& 0xDF03FFFF#32) 31 = bit v 31 := by
  rw [bit, BitVec.getLsbD_and]
  exact Bool.and_true _

/-- The stored value: RSVD bits 0, an OWNER out of range as it was, and ARMED as the check leaves it. -/
def sgStored (old v : Word) (arm : Bool) : Word :=
  let w := v &&& 0xDF03FFFF#32
  putBits (if bitsOf v 28 24 > 16 then putBits w 28 24 (bitsOf old 28 24) else w) 31 31 (if arm then 1 else 0)

theorem bit_sgStored (old v : Word) (arm : Bool) : bit (sgStored old v arm) 31 = arm := bit_putBits_self _ (by decide) arm

theorem sgStored_legal {v : Word} {arm : Bool} (hv : bitsOf v 28 24 ≤ 16) (hb : bit v 31 = arm) (old : Word) :
    sgStored old v arm = v &&& 0xDF03FFFF#32 := by
  unfold sgStored
  dsimp only
  rw [if_neg (Nat.not_lt.2 hv), putBits_bit _ (by decide) ((bit_sgFields v).trans hb)]

theorem sgStored_owner {v : Word} (hv : 16 < bitsOf v 28 24) (old : Word) (arm : Bool) :
    bitsOf (sgStored old v arm) 28 24 = bitsOf old 28 24 := by
  unfold sgStored
  dsimp only
  rw [if_pos hv, bitsOf_putBits_apart _ _ (by decide), bitsOf_putBits_self _ (by decide) (bitsOf_lt old 28 24)]

section
variable {s : State} {g : Nat} {v : Word} (hw : ∀ k, (s.slot k).st ≠ .waiting)
include hw

/-- An armed group refuses to be armed again. -/
theorem State.sgWrite_armed (ha : s.sgArmed g = true) (hv : bit v 31 = true) : s.sgWrite g v = s.afterTick.cfgErr tpStatus := by
  unfold State.sgWrite
  rw [State.foldl_dueStrike hw]
  refine if_pos ?_
  rw [hv, Bool.and_true]
  exact ha

theorem State.sgWrite_stores (ha : s.sgArmed g = false ∨ bit v 31 = false) :
    s.sgWrite g v =
      let arm := bit v 31 && s.armOk v
      let t := s.afterTick.setReg (sgCtrl g) (sgStored (s.reg (sgCtrl g)) v arm)
      if decide (bitsOf v 28 24 > 16) || (bit v 31 && !arm) then t.cfgErr tpStatus else t := by
  have hno : ¬ (bit (s.reg (sgCtrl g)) 31 && bit v 31) = true := by
    rcases ha with ha | ha
    · rw [show bit (s.reg (sgCtrl g)) 31 = false from ha]
      simp
    · simp [ha]
  unfold State.sgWrite
  rw [State.foldl_dueStrike hw]
  refine (if_neg hno).trans ?_
  simp only [sgStored, decide_eq_true_eq]
  rfl

theorem State.sgWrite_arms (ha : s.sgArmed g = false) (hv : bit v 31 = true) (ho : bitsOf v 28 24 ≤ 16) (hok : s.armOk v = true) :
    s.sgWrite g v = s.afterTick.setReg (sgCtrl g) (v &&& 0xDF03FFFF#32) := by
  rw [State.sgWrite_stores hw (.inl ha)]
  simp only [hv, hok, Bool.and_true, Bool.not_true, Bool.and_false, Bool.or_false, sgStored_legal ho hv]
  exact if_neg (by simpa using ho)

/-- An arming that R150 does not allow stores the other fields with CFGERR. -/
theorem State.sgWrite_unfit (ha : s.sgArmed g = false) (hv : bit v 31 = true) (hok : s.armOk v = false) :
    s.sgWrite g v = (s.afterTick.setReg (sgCtrl g) (sgStored (s.reg (sgCtrl g)) v false)).cfgErr tpStatus := by
  rw [State.sgWrite_stores hw (.inl ha)]
  simp [hv, hok]

theorem State.sgWrite_disarms (hv : bit v 31 = false) (ho : bitsOf v 28 24 ≤ 16) :
    s.sgWrite g v = s.afterTick.setReg (sgCtrl g) (v &&& 0xDF03FFFF#32) := by
  rw [State.sgWrite_stores hw (.inr hv)]
  simp only [hv, Bool.false_and, Bool.or_false, sgStored_legal ho hv]
  exact if_neg (by simpa using ho)

/-- An OWNER out of range keeps the old one, with CFGERR (R13). -/
theorem State.sgWrite_badOwner (hv : bit v 31 = false) (ho : 16 < bitsOf v 28 24) :
    s.sgWrite g v = (s.afterTick.setReg (sgCtrl g) (sgStored (s.reg (sgCtrl g)) v false)).cfgErr tpStatus := by
  rw [State.sgWrite_stores hw (.inr hv)]
  simp [hv, ho]

end

/-- A value stored with CFGERR. -/
theorem State.sgStored_cfgErr (s : State) (g : Nat) (w : Word) :
    let t := (s.setReg (sgCtrl g) w).cfgErr tpStatus
    t.reg (sgCtrl g) = w ∧ bit (t.reg tpStatus) 0 = true ∧ onlyRegs s t [sgCtrl g, tpStatus] := by
  have hother : sgCtrl g ≠ tpStatus := by
    unfold sgCtrl tpStatus
    omega
  refine ⟨?_, State.cfgErr_flag _ _, (onlyRegs_setReg _ _ _).trans (onlyRegs_cfgErr _ _)⟩
  rw [State.cfgErr, State.reg_setStatus, if_neg hother, State.reg_setReg_self]

/-! ## The value with ARMED replaced -/

theorem bit_armed (v : Word) : bit (v ||| 0x80000000#32) 31 = true := by
  rw [bit, BitVec.getLsbD_or]
  exact Bool.or_true _

theorem bitsOf_owner_disarmed (v : Word) : bitsOf (v &&& 0x7FFFFFFF#32) 28 24 = bitsOf v 28 24 := by
  have hmask : ∀ i, i < 5 → (0x7FFFFFFF#32).getLsbD (24 + i) = true := by decide
  refine Nat.eq_of_testBit_eq fun i => ?_
  rw [testBit_bitsOf, testBit_bitsOf, BitVec.getLsbD_and]
  by_cases hi : i < 28 + 1 - 24
  · rw [hmask i hi, Bool.and_true]
  · simp [hi]

/-! ## What the checks read (R150, R151) -/

theorem sgCtrl_block {g : Nat} (hg : g < 256) : sgCtrl g / 0x100000 = 0x45 := by unfold sgCtrl; omega

theorem actAddr_block {i : Nat} (hi : i < 4096) : actAddr i / 0x100000 = 0x45 := by unfold actAddr; omega

section
variable {s t : State} (h : onlyRegs s t [])
include h

theorem onlyRegs.sgCtrl {g : Nat} (hg : g < 256) : t.reg (sgCtrl g) = s.reg (sgCtrl g) :=
  h.regOutside (by rw [sgCtrl_block hg]; decide)

theorem onlyRegs.sgArmed {g : Nat} (hg : g < 256) : t.sgArmed g = s.sgArmed g := by
  rw [State.sgArmed, State.sgArmed, h.sgCtrl hg]

theorem onlyRegs.sgEntries (v : Word) : t.sgEntries v = s.sgEntries v := by
  refine List.map_congr_left fun i hi => ?_
  have hlo := bitsOf_lt v 10 0
  have hn := bitsOf_lt v 17 11
  have hspan := mem_span.1 hi
  rw [h.regOutside (by rw [actAddr_block (by omega)]; decide)]

theorem onlyRegs.armOk (v : Word) : t.armOk v = s.armOk v := by
  have hsuits : ∀ e ∈ s.sgEntries v, t.laneFunc e.1 = s.laneFunc e.1 := by
    intro e he
    obtain ⟨i, -, rfl⟩ := List.mem_map.1 he
    exact h.laneFunc (bitsOf_lt _ 6 0)
  unfold State.armOk
  dsimp only
  rw [h.sgEntries, Bool.eq_iff_iff]
  simp only [Bool.and_eq_true, List.all_eq_true]
  refine and_congr_left fun _ => and_congr_right fun _ => forall₂_congr fun e he => ?_
  rw [hsuits e he]

theorem onlyRegs.inArmed (i : Nat) : t.inArmed i = s.inArmed i := by
  unfold State.inArmed
  rw [Bool.eq_iff_iff, List.any_eq_true, List.any_eq_true]
  refine exists_congr fun g => and_congr_right fun hg => ?_
  rw [h.sgCtrl (mem_span.1 hg).2]

end

/-- A group whose fields may be armed has an owner in range. -/
theorem State.armOk_owner {s : State} {v : Word} (h : s.armOk v = true) : bitsOf v 28 24 ≤ 16 := by
  unfold State.armOk at h
  simp only [Bool.and_eq_true, decide_eq_true_eq] at h
  obtain ⟨⟨⟨-, hown⟩, -⟩, -⟩ := h
  exact hown

theorem State.actWrite_free {s : State} {i : Nat} (h : s.inArmed i = false) (v : Word) :
    s.actWrite i v = s.afterTick.setReg (actAddr i) (v &&& 0xFFFF0F7F#32) :=
  if_neg (show ¬ s.inArmed i = true by simp [h])

theorem State.actWrite_armed {s : State} {i : Nat} (h : s.inArmed i = true) (v : Word) : s.actWrite i v = s.afterTick.cfgErr tpStatus :=
  if_pos h

section
variable {s : State} {m : Master} {g : GroupId} {v : Word}

theorem exec_strikeGroupArm (h : s.regRight m (sgCtrl g.val) true = .may) :
    ∃ u, onlyRegs s u [] ∧ exec (.strikeGroupArm m g v) s = .next (u.sgWrite g.val (v ||| 0x80000000#32)) :=
  ⟨_, onlyRegs_jRegWrite s _ _ _, congrArg Host.Outcome.next (State.regRow_may _ _ h)⟩

theorem exec_strikeGroupDisarm (h : s.regRight m (sgCtrl g.val) true = .may) :
    ∃ u, onlyRegs s u [] ∧ exec (.strikeGroupDisarm m g v) s = .next (u.sgWrite g.val (v &&& 0x7FFFFFFF#32)) :=
  ⟨_, onlyRegs_jRegWrite s _ _ _, congrArg Host.Outcome.next (State.regRow_may _ _ h)⟩

theorem exec_actionEntryWrite {i : Fin 2048} (h : s.regRight m (actAddr i.val) true = .may) :
    ∃ u, onlyRegs s u [] ∧ exec (.actionEntryWrite m i v) s = .next (u.actWrite i.val v) :=
  ⟨_, onlyRegs_jRegWrite s _ _ _, congrArg Host.Outcome.next (State.regRow_may _ _ h)⟩

end

/-! ## Lanes and launches alone (R151 to R155) -/

/-- From s to t only lane l and the launches change. -/
def onlyLane (s t : State) (l : Nat) : Prop :=
  t = { s with lanes := t.lanes, launches := t.launches } ∧ ∀ k, k ≠ l → t.lane k = s.lane k

theorem onlyLane.trans {s t u : State} {l : Nat} (h : onlyLane s t l) (k : onlyLane t u l) : onlyLane s u l := by
  refine ⟨?_, fun j hj => (k.2 j hj).trans (h.2 j hj)⟩
  have hu := k.1
  rw [h.1] at hu
  exact hu

theorem onlyLane_setLane (s : State) (l : Nat) (x : Lane) : onlyLane s (s.setLane l x) l := ⟨rfl, fun _ hj => s.lane_setLane_other x hj⟩

theorem onlyLane_launches (s : State) (l : Nat) (x : List Launch) : onlyLane s { s with launches := x } l := ⟨rfl, fun _ _ => rfl⟩

/-- Outside REPLAY a lane is driven, unless its group's supply does not match. -/
theorem State.driveLane_live {s : State} (hm : s.mode ≠ 0xA) (l : Nat) (d : Drive) :
    ∃ y, s.driveLane l d = s.setLane l y ∧ y.drive = (if s.laneDark l then .hiZ else d) ∧ y.pulse = (s.lane l).pulse :=
  ⟨_, if_neg (by simpa using hm), rfl, rfl⟩

/-! ## An action reaches its ball (R151) -/

/-- The conditions under which an action is performed and not dropped. -/
def State.reaches (s : State) (l act : Nat) : Prop :=
  s.forcedSafe = false ∧ actSuits act (s.laneFunc l) = true ∧ s.domOn (pgDom (l / 12)) = true ∧ s.laneDark l = false

section
variable {s : State} {l act : Nat} {k param : Nat}

theorem State.strikeAction_dropped (h : ¬ s.reaches l act) :
    s.strikeAction k l act param = (s.setStatus 0x04500004 0x10#32, false) := by
  refine if_pos ?_
  by_contra hno
  simp only [Bool.or_eq_true, not_or, Bool.not_eq_true', Bool.not_eq_true, Bool.not_eq_false] at hno
  obtain ⟨⟨⟨hsafe, hsuits⟩, hdom⟩, hdark⟩ := hno
  exact h ⟨hsafe, hsuits, hdom, hdark⟩

theorem State.reaches.notDropped (h : s.reaches l act) :
    ¬ (s.forcedSafe || !actSuits act (s.laneFunc l) || !s.domOn (pgDom (l / 12)) || s.laneDark l) = true := by
  obtain ⟨hsafe, hsuits, hdom, hdark⟩ := h
  simp [hsafe, hsuits, hdom, hdark]

/-- The lane of an action that is performed is not held undriven. -/
theorem State.reaches.notDark (h : s.reaches l act) : s.laneDark l = false := by
  obtain ⟨-, -, -, hdark⟩ := h
  exact hdark

/-- A capture records the launch tick and the level. -/
theorem State.strikeAction_capture (h : s.reaches l 6) :
    s.strikeAction k l 6 param = (s.setReg (laneFnAddr l + 0x10) (captureRecord k (s.lane l).ball), false) :=
  if_neg h.notDropped

/-- The transfer on a lane whose gate opens. -/
def State.gateOpened (s : State) (l : Nat) (y : Xfer) : State :=
  (s.setLane l { s.lane l with gateOpen := true, closing := false, xfer := some { y with started := true } }).actionFree l

theorem State.strikeAction_gateOpen (h : s.reaches l 7) {y : Xfer} (hy : (s.lane l).xfer = some y) :
    s.strikeAction k l 7 param =
      (if y.started then (s.gateOpened l y).gateTimer l else ((s.gateOpened l y).gateTimer l).sendHead l, false) := by
  refine (if_neg h.notDropped).trans ?_
  simp only [hy]
  rfl

section
variable (h : s.reaches l act) (hp : (s.lane l).pulse = none)
include h hp

theorem State.strikeAction_low (ha : act = 1) : s.strikeAction k l act param = (s.driveLane l .low, false) := by
  subst ha
  refine (if_neg h.notDropped).trans ?_
  simp only [hp]
  rfl

theorem State.strikeAction_high (ha : act = 2) : s.strikeAction k l act param = (s.driveLane l .high, false) := by
  subst ha
  refine (if_neg h.notDropped).trans ?_
  simp only [hp]
  rfl

theorem State.strikeAction_toggle (ha : act = 3) :
    s.strikeAction k l act param = (s.driveLane l
      (if (s.lane l).drive = .high ∨ (bit (s.laneCfg l) 15 = true ∧ (s.lane l).drive ≠ .low) then .low else .high), false) := by
  subst ha
  refine (if_neg h.notDropped).trans ?_
  simp only [hp]
  rfl

/-- A pulse of a number of ticks begins at a level, and has the other one after it. -/
def State.startPulse (s : State) (l : Nat) (d : Drive) (param : Nat) (after : Bool) : State :=
  let t := s.driveLane l d
  t.setLane l { t.lane l with pulse := some (t.time + param * t.tickLen, after) }

theorem State.strikeAction_pulseHigh (ha : act = 4) : s.strikeAction k l act param = (s.startPulse l .high param false, true) := by
  subst ha
  refine (if_neg h.notDropped).trans ?_
  simp only [hp]
  rfl

theorem State.strikeAction_pulseLow (ha : act = 5) : s.strikeAction k l act param = (s.startPulse l .low param true, true) := by
  subst ha
  refine (if_neg h.notDropped).trans ?_
  simp only [hp]
  rfl

end

end

theorem State.driveLane_launches (s : State) (l : Nat) (d : Drive) : (s.driveLane l d).launches = s.launches := by
  rw [State.driveLane_form]

theorem State.startPulse_launches (s : State) (l : Nat) (d : Drive) (param : Nat) (after : Bool) :
    (s.startPulse l d param after).launches = s.launches := s.driveLane_launches l d

/-- From s to t only lane l and the launches change, and the lane is driven at a level. -/
def laneDriven (s t : State) (l : Nat) (d : Drive) : Prop :=
  t = { s with lanes := t.lanes, launches := t.launches } ∧ (t.lane l).drive = d ∧ ∀ k, k ≠ l → t.lane k = s.lane k

section
variable {s : State} {l : Nat} (hm : s.mode ≠ 0xA) (hd : s.laneDark l = false) (d : Drive) (ls : List Launch)
include hm hd

theorem laneDriven_driveLane : laneDriven s { s.driveLane l d with launches := ls } l d := by
  obtain ⟨y, hy, hdrive, -⟩ := State.driveLane_live hm l d
  obtain ⟨hform, hothers⟩ := (onlyLane_setLane s l y).trans (onlyLane_launches _ l ls)
  rw [hd] at hdrive
  rw [hy]
  exact ⟨hform, (congrArg Lane.drive (s.lane_setLane l y)).trans hdrive, hothers⟩

theorem laneDriven_startPulse (param : Nat) (after : Bool) :
    let t : State := { s.startPulse l d param after with launches := ls }
    laneDriven s t l d ∧ (t.lane l).pulse = some (s.time + param * s.tickLen, after) := by
  obtain ⟨y, hy, hdrive, -⟩ := State.driveLane_live hm l d
  have hrun : s.startPulse l d param after =
      (s.setLane l y).setLane l { y with pulse := some (s.time + param * s.tickLen, after) } := by
    rw [State.startPulse, hy, State.lane_setLane]
    rfl
  obtain ⟨hform, hothers⟩ := ((onlyLane_setLane s l y).trans (onlyLane_setLane _ l _)).trans (onlyLane_launches _ l ls)
  rw [hd] at hdrive
  intro t
  have hlane : t.lane l = { y with pulse := some (s.time + param * s.tickLen, after) } :=
    (congrArg (State.lane · l) hrun).trans (State.lane_setLane _ _ _)
  rw [show t = _ from congrArg (fun u : State => { u with launches := ls }) hrun] at hlane ⊢
  rw [hlane]
  exact ⟨⟨hform, (congrArg Lane.drive hlane).trans hdrive, hothers⟩, rfl⟩

end

/-! ## The end of a launch (R152 to R155) -/

/-- Before its latency is over a launch does nothing, and neither does a group without a launch. -/
theorem strikeActionEffect_idle {s : State} {g : Nat} (h : ∀ x ∈ s.launches, x.group = g → s.time < x.at_ + s.strikeLatency) :
    strikeActionEffect s g = s := by
  have hnone : s.launches.find? (fun x => x.group == g && !x.done && decide (x.at_ + s.strikeLatency ≤ s.time)) = none := by
    refine List.find?_eq_none.2 fun x hx => ?_
    have := h x hx
    simp only [Bool.and_eq_true, beq_iff_eq, decide_eq_true_eq, not_and, Nat.not_le]
    exact fun hg => this hg.1
  unfold strikeActionEffect
  rw [hnone]

section
variable {s : State} {g : Nat} {x : Launch} {l act param : Nat} (hx : s.launches = [x]) (hg : x.group = g) (hd : x.done = false)
  (he : x.entries = [(l, act, param)]) (hat : x.at_ + s.strikeLatency ≤ s.time)
include hx hg hd he hat

/-- The one action of the only launch takes effect; the launch is over, or its action stays open. -/
theorem strikeActionEffect_single {r : State} {o : Bool} (hr : s.strikeAction x.at_ l act param = (r, o)) (hl : r.launches = [x]) :
    strikeActionEffect s g = { r with launches := if o then [{ x with done := true, open_ := [l] }] else [] } := by
  have hfind : s.launches.find? (fun x => x.group == g && !x.done && decide (x.at_ + s.strikeLatency ≤ s.time)) = some x := by
    simp [hx, hg, hd, hat]
  have hfirst : ¬ s.launches.any (fun y => !y.done && y.at_ == x.at_ && decide (y.group < g)) = true := by simp [hx, hg]
  have halone : ¬ s.collides g x.at_ [(l, act, param)] = true := by simp [State.collides, hx, hg]
  unfold strikeActionEffect
  simp only [hfind, if_neg hfirst, he, if_neg halone, List.foldl_cons, List.foldl_nil, hr, hl, State.endLaunches]
  refine congrArg (fun ls => ({ r with launches := ls } : State)) ?_
  cases o
  · simp [hg]
  · simp [hg, he]

end

/-! ## A gate opens (R285) -/

theorem State.gateTimer_form (s : State) (l : Nat) : s.gateTimer l = { s with slots := (s.gateTimer l).slots } := by
  unfold State.gateTimer
  split
  · exact State.timerUpdate_form s _
  · rfl

/-- A launch whose actions have not reached their balls has none to complete. -/
theorem State.actionFree_launches {s : State} {x : Launch} (hx : s.launches = [x]) (hd : x.done = false) (ho : x.open_ = []) (l : Nat) :
    (s.actionFree l).launches = [x] := by
  have hkeep : ({ x with open_ := x.open_.filter (· != l) } : Launch) = x := by rw [ho, List.filter_nil, ← ho]
  unfold State.actionFree
  split
  · rw [hd] at hkeep
    simpa [State.actionDone, State.endLaunches, hx, hd] using hkeep
  · exact hx

/-- The lane after its gate has opened, and the launch that opened it. -/
theorem State.gateOpen_keeps {s : State} {x : Launch} (hx : s.launches = [x]) (hd : x.done = false) (ho : x.open_ = []) (l : Nat)
    (y : Xfer) :
    let r := if y.started then (s.gateOpened l y).gateTimer l else ((s.gateOpened l y).gateTimer l).sendHead l
    r.launches = [x] ∧ r.lane l = { s.lane l with gateOpen := true, closing := false, xfer := some { y with started := true } } := by
  intro r
  have hopen : (s.gateOpened l y).launches = [x] ∧
      (s.gateOpened l y).lane l = { s.lane l with gateOpen := true, closing := false, xfer := some { y with started := true } } :=
    ⟨State.actionFree_launches (s := s.setLane l _) hx hd ho l, (State.lane_actionFree _ l l).trans (State.lane_setLane _ _ _)⟩
  have htimer : ((s.gateOpened l y).gateTimer l).launches = (s.gateOpened l y).launches ∧
      ((s.gateOpened l y).gateTimer l).lanes = (s.gateOpened l y).lanes := by
    rw [State.gateTimer_form]
    exact ⟨rfl, rfl⟩
  obtain ⟨hbus, hlanes⟩ := onlyBus_sendHead ((s.gateOpened l y).gateTimer l) l
  have hr : r.launches = (s.gateOpened l y).launches ∧ r.lanes = (s.gateOpened l y).lanes := by
    by_cases hs : y.started = true
    · rw [show r = _ from if_pos hs]
      exact htimer
    · rw [show r = _ from if_neg hs, hlanes]
      refine ⟨?_, htimer.2⟩
      rw [hbus]
      exact htimer.1
  rw [State.lane, hr.1, hr.2]
  exact hopen

/-! ## The end of a pulse (R151) -/

theorem pulseEnd_none {s : State} {l : Nat} (hp : (s.lane l).pulse = none) : pulseEnd s l = s := by
  simp only [pulseEnd, hp]

section
variable {s : State} {l t0 : Nat} {after : Bool} (hp : (s.lane l).pulse = some (t0, after))
include hp

theorem pulseEnd_early (ht : s.time < t0) : pulseEnd s l = s := by
  simp only [pulseEnd, hp]
  exact if_neg (Nat.not_le.2 ht)

theorem pulseEnd_due (ht : t0 ≤ s.time) : pulseEnd s l =
    ((s.setLane l { s.lane l with pulse := none }).driveLane l (if after then .high else .low)).actionDone l := by
  simp only [pulseEnd, hp, if_pos ht, State.endPulse]

end

/-- No launch waits for an action that is complete. -/
theorem State.actionDone_open (s : State) (l : Nat) : ∀ x ∈ (s.actionDone l).launches, l ∉ x.open_ := by
  intro x hx
  obtain ⟨y, -, rfl⟩ := List.mem_map.1 (List.mem_filter.1 hx).1
  simp

theorem onlyLane_actionDone (s : State) (l : Nat) : onlyLane s (s.actionDone l) l := onlyLane_launches s l _

/-- Its width over, a pulse is gone, and the lane is at the other level. -/
theorem pulseEnd_form {s : State} {l t0 : Nat} {after : Bool} (hp : (s.lane l).pulse = some (t0, after)) (ht : t0 ≤ s.time)
    (hm : s.mode ≠ 0xA) :
    let t := pulseEnd s l
    (t.lane l).pulse = none ∧ (t.lane l).drive = (if s.laneDark l then .hiZ else if after then .high else .low) ∧
      (∀ x ∈ t.launches, l ∉ x.open_) ∧ onlyLane s t l := by
  obtain ⟨y, hy, hdrive, hpulse⟩ :=
    State.driveLane_live (s := s.setLane l { s.lane l with pulse := none }) hm l (if after then .high else .low)
  rw [State.lane_setLane] at hpulse
  have hdone := pulseEnd_due hp ht
  rw [hy] at hdone
  rw [hdone]
  have hlane : ((((s.setLane l { s.lane l with pulse := none }).setLane l y).actionDone l).lane l) = y := State.lane_setLane _ _ _
  refine ⟨?_, ?_, State.actionDone_open _ l, ((onlyLane_setLane _ _ _).trans (onlyLane_setLane _ _ _)).trans (onlyLane_actionDone _ _)⟩
  · rw [hlane, hpulse]
  · rw [hlane, hdrive]
    rfl

theorem onlyRegs.withLaunches {s t : State} {as : List Nat} (h : onlyRegs s t as) (x : List Launch) :
    onlyRegs { s with launches := x } { t with launches := x } as := by
  obtain ⟨regs, irqs, reports, jn, rfl⟩ := h.form
  exact ⟨rfl, h.2⟩

/-! ## The statement -/

/-- A launch of one action whose latency is over. -/
theorem strikeActionEffect_one {s : State} {g : GroupId} {x : Launch} {l act param : Nat} (hx : s.launches = [x]) (hg : x.group = g.val)
    (hd : x.done = false) (he : x.entries = [(l, act, param)]) (hat : x.at_ + s.strikeLatency ≤ s.time) {r : State} {o : Bool}
    (hr : s.strikeAction x.at_ l act param = (r, o)) (hl : r.launches = [x]) :
    exec (.strikeActionEffect g) s = .next { r with launches := if o then [{ x with done := true, open_ := [l] }] else [] } :=
  congrArg Host.Outcome.next (strikeActionEffect_single hx hg hd he hat hr hl)

section
variable {s : State} {m : Master} {g : GroupId} {v : Word} (hr : s.regRight m (sgCtrl g.val) true = .may)
  (hwait : ∀ p ∈ s.busySlots, p.2.st ≠ .waiting)
include hr hwait

/-- The write reaches the group where no operation waits, recorded (R490). -/
theorem exec_strikeGroupArm_idle : ∃ u, onlyRegs s u [] ∧ (∀ k, (u.slot k).st ≠ .waiting) ∧ u.sgArmed g.val = s.sgArmed g.val ∧
    exec (.strikeGroupArm m g v) s = .next (u.sgWrite g.val (v ||| 0x80000000#32)) := by
  obtain ⟨u, hu, he⟩ := exec_strikeGroupArm (v := v) hr
  exact ⟨u, hu, State.slot_ne_waiting (by rwa [State.busySlots, hu.slots]), hu.sgArmed g.isLt, he⟩

theorem exec_strikeGroupDisarm_idle : ∃ u, onlyRegs s u [] ∧ (∀ k, (u.slot k).st ≠ .waiting) ∧
    u.sgOwner g.val = s.sgOwner g.val ∧ exec (.strikeGroupDisarm m g v) s = .next (u.sgWrite g.val (v &&& 0x7FFFFFFF#32)) := by
  obtain ⟨u, hu, he⟩ := exec_strikeGroupDisarm (v := v) hr
  refine ⟨u, hu, State.slot_ne_waiting (by rwa [State.busySlots, hu.slots]), ?_, he⟩
  rw [State.sgOwner, State.sgOwner, hu.sgCtrl g.isLt]

end

/-- Settles O35: a write of TP_SGg_CTRL by ARMED, the group's state, and the checks of its fields; the one action of a launch by
`strikeActionEffect_single` and what that action does to its lane. -/
theorem strikeGroups : Obligations.StrikeGroups := by
  refine ⟨fun s m g v => ?_, fun s => ⟨fun g x l act param hx hg hd he ho => ⟨fun hearly => ?_, fun hat => ?_⟩, fun g hno => ?_,
    fun l t0 after hp => ⟨fun ht => ?_, fun ht hm => ?_⟩, fun l hp => ?_⟩⟩
  · intro a v1 v0 z
    have hv1 : bit v1 31 = true := bit_armed v
    have hv0 : bit v0 31 = false := bit_cleared v
    have hown : bitsOf v0 28 24 = bitsOf v 28 24 := bitsOf_owner_disarmed v
    refine ⟨fun hr hwait => ?_, fun i hr => ⟨fun hi => ?_, fun hi => ?_⟩⟩
    · obtain ⟨u, hu, hidle, harmed, hrun⟩ := exec_strikeGroupArm_idle (v := v) hr hwait
      obtain ⟨w, hw, hwidle, howner, hwrun⟩ := exec_strikeGroupDisarm_idle (v := v) hr hwait
      refine ⟨fun ha => ?_, fun ha hok => ?_, fun ha hok => ?_, fun ho => ?_, fun ho => ?_⟩
      · rw [hrun, State.sgWrite_armed hidle (harmed.trans ha) hv1]
        exact ⟨_, rfl, State.cfgErr_flag _ _, hu.afterTick.trans (onlyRegs_cfgErr _ _)⟩
      · rw [hrun, State.sgWrite_arms hidle (harmed.trans ha) hv1 (State.armOk_owner hok) ((hu.armOk v1).trans hok)]
        refine ⟨_, rfl, State.reg_setReg_self _ _ _, ?_, hu.afterTick.trans (onlyRegs_setReg _ _ _)⟩
        rw [State.sgArmed, State.reg_setReg_self, bit_sgFields, hv1]
      · rw [hrun, State.sgWrite_unfit hidle (harmed.trans ha) hv1 ((hu.armOk v1).trans hok)]
        obtain ⟨hreg, herr, honly⟩ := u.afterTick.sgStored_cfgErr g.val (sgStored (u.reg (sgCtrl g.val)) v1 false)
        exact ⟨_, rfl, by rw [State.sgArmed, hreg, bit_sgStored], herr, hu.afterTick.trans honly⟩
      · rw [hwrun, State.sgWrite_disarms hwidle hv0 (hown.trans_le ho)]
        refine ⟨_, rfl, State.reg_setReg_self _ _ _, ?_, hw.afterTick.trans (onlyRegs_setReg _ _ _)⟩
        rw [State.sgArmed, State.reg_setReg_self, bit_sgFields, hv0]
      · have ho' : 16 < bitsOf v0 28 24 := ho.trans_eq hown.symm
        rw [hwrun, State.sgWrite_badOwner hwidle hv0 ho']
        obtain ⟨hreg, herr, honly⟩ := w.afterTick.sgStored_cfgErr g.val (sgStored (w.reg (sgCtrl g.val)) v0 false)
        refine ⟨_, rfl, by rw [State.sgArmed, hreg, bit_sgStored], ?_, herr, hw.afterTick.trans honly⟩
        rw [State.sgOwner, hreg, sgStored_owner ho', ← howner, State.sgOwner]
    all_goals obtain ⟨u, hu, hrun⟩ := exec_actionEntryWrite (v := v) hr
    · rw [hrun, State.actWrite_free ((hu.inArmed i.val).trans hi)]
      exact ⟨_, rfl, State.reg_setReg_self _ _ _, hu.afterTick.trans (onlyRegs_setReg _ _ _)⟩
    · rw [hrun, State.actWrite_armed ((hu.inArmed i.val).trans hi)]
      exact ⟨_, rfl, State.cfgErr_flag _ _, hu.afterTick.trans (onlyRegs_cfgErr _ _)⟩
  · refine congrArg Host.Outcome.next (strikeActionEffect_idle fun y hy _ => ?_)
    rw [hx, List.mem_singleton] at hy
    rwa [hy]
  · intro may od still gone drives
    have hlit (h : may) : s.laneDark l = false := State.reaches.notDark h
    have hend {r : State} {o : Bool} := strikeActionEffect_one (r := r) (o := o) hx hg hd he hat
    refine ⟨fun hno => ?_, fun hmay hp hm => ⟨fun ha => ?_, fun ha => ?_, fun ha => ?_, fun ha => ?_, fun ha => ?_⟩,
      fun hmay ha => ?_, fun hmay ha y hy => ?_⟩
    · have hstatus := onlyRegs_setStatus s tpStatus 0x10#32
      refine ⟨_, hend (State.strikeAction_dropped hno) (hstatus.read State.launches ▸ hx), rfl, ?_, hstatus.withLaunches []⟩
      change bit ((s.setStatus tpStatus 0x10#32).reg tpStatus) 4 = true
      rw [State.reg_setStatus, if_pos rfl, bit, BitVec.getLsbD_or]
      simp
    · exact ⟨_, hend (State.strikeAction_low hmay hp ha) ((s.driveLane_launches l _).trans hx), rfl,
        laneDriven_driveLane hm (hlit hmay) _ _⟩
    · exact ⟨_, hend (State.strikeAction_high hmay hp ha) ((s.driveLane_launches l _).trans hx), rfl,
        laneDriven_driveLane hm (hlit hmay) _ _⟩
    · exact ⟨_, hend (State.strikeAction_toggle hmay hp ha) ((s.driveLane_launches l _).trans hx), rfl,
        laneDriven_driveLane hm (hlit hmay) _ _⟩
    · obtain ⟨hdrive, hpulse⟩ := laneDriven_startPulse hm (hlit hmay) .high [{ x with done := true, open_ := [l] }] param false
      exact ⟨_, hend (State.strikeAction_pulseHigh hmay hp ha) ((s.startPulse_launches l _ _ _).trans hx), rfl, hdrive, hpulse⟩
    · obtain ⟨hdrive, hpulse⟩ := laneDriven_startPulse hm (hlit hmay) .low [{ x with done := true, open_ := [l] }] param true
      exact ⟨_, hend (State.strikeAction_pulseLow hmay hp ha) ((s.startPulse_launches l _ _ _).trans hx), rfl, hdrive, hpulse⟩
    · subst ha
      refine ⟨_, hend (State.strikeAction_capture hmay) hx, rfl, State.reg_setReg_self _ _ _, (onlyRegs_setReg s _ _).withLaunches []⟩
    · subst ha
      obtain ⟨hl, hlane⟩ := State.gateOpen_keeps hx hd ho l y
      exact ⟨_, hend (State.strikeAction_gateOpen hmay hy) hl, rfl, hlane⟩
  · exact congrArg Host.Outcome.next (strikeActionEffect_idle fun x hx hg => absurd hg (hno x hx))
  · exact congrArg Host.Outcome.next (pulseEnd_early hp ht)
  · obtain ⟨hpulse, hdrive, hopen, hform, hothers⟩ := pulseEnd_form hp ht hm
    exact ⟨_, rfl, hpulse, hdrive, hopen, hothers, hform⟩
  · exact congrArg Host.Outcome.next (pulseEnd_none hp)

end Sys2Proof.Machine

namespace Sys2Proof.Machine

set_option Elab.async false

/-! # What entering and leaving SCAN makes of the rings (R173 to R178)

`State.entriesOf` gives what the table of rings lists for one number: an update of another ring keeps it, and so keeps what the ring
holds and whether it waits for a buffer. -/

/-! ## The entries of one ring -/

/-- What the table of rings lists for ring g. -/
def State.entriesOf (s : State) (g : Nat) : List (Nat × Ring) := s.rings.filter (fun e => e.1 == g)

theorem SMap.get_filter_self {α : Type} (d : α) (m : SMap α) (k : Nat) : SMap.get d (m.filter (fun e => e.1 == k)) k = SMap.get d m k := by
  induction m with
  | nil => rfl
  | cons e m ih =>
    obtain ⟨j, a⟩ := e
    by_cases hj : j = k
    · simp [hj, SMap.get]
    · simp [hj, SMap.get, ih]

theorem State.ring_of_entriesOf {s t : State} {g : Nat} (h : t.entriesOf g = s.entriesOf g) : t.ring g = s.ring g := by
  unfold State.entriesOf at h
  rw [State.ring, ← SMap.get_filter_self, h, SMap.get_filter_self]
  rfl

theorem SMap.filter_ins {α : Type} (m : SMap α) {k g : Nat} (a : α) (h : k ≠ g) :
    (SMap.ins m k a).filter (fun e => e.1 == g) = m.filter (fun e => e.1 == g) := by
  induction m with
  | nil => simp [SMap.ins, h]
  | cons e m ih =>
    obtain ⟨j, b⟩ := e
    by_cases hk : k < j
    · simp [SMap.ins, hk, h]
    · simp [SMap.ins, hk, List.filter_cons, ih]

theorem SMap.filter_del {α : Type} [DecidableEq α] (m : SMap α) {k g : Nat} (h : k ≠ g) :
    (SMap.del m k).filter (fun e => e.1 == g) = m.filter (fun e => e.1 == g) := by
  rw [SMap.del_eq_filter, List.filter_filter]
  refine List.filter_congr fun e _ => ?_
  by_cases he : e.1 = g
  · simp [he, Ne.symm h]
  · simp [he]

theorem State.entriesOf_setRing_other (s : State) {k g : Nat} (x : Ring) (h : k ≠ g) : (s.setRing k x).entriesOf g = s.entriesOf g := by
  change (SMap.set {} s.rings k x).filter _ = _
  unfold SMap.set
  split
  · exact SMap.filter_del _ h
  · exact (SMap.filter_ins _ x h).trans (SMap.filter_del _ h)

theorem State.mem_entriesOf_setRing {s : State} {g : Nat} {x : Ring} {e : Nat × Ring} (h : e ∈ (s.setRing g x).entriesOf g) : e = (g, x) := by
  obtain ⟨hm, hk⟩ := List.mem_filter.1 h
  have hk : e.1 = g := by simpa using hk
  have hdel : e ∉ SMap.del s.rings g := fun hd => by
    rw [SMap.del_eq_filter] at hd
    exact of_decide_eq_true (List.mem_filter.1 hd).2 hk
  change e ∈ SMap.set {} s.rings g x at hm
  unfold SMap.set at hm
  split at hm
  · exact absurd hm hdel
  · exact (SMap.mem_ins hm).resolve_right hdel

/-! ## Reads of a queue's lines (R174) -/

theorem State.sendReads_form (s : State) (f addr len i k : Nat) : ∃ o, s.sendReads f addr len i k = { s with out := o } := by
  unfold State.sendReads
  dsimp only
  split
  · exact ⟨s.out, rfl⟩
  · exact ⟨_, rfl⟩

/-- A line of ring g is asked for: the read is added, and nothing else changes but what has left the part. -/
theorem State.lineRead_form (s : State) (g f u : Nat) : ∃ o q, q.unit = alignDown u 4 ∧ q.tag = (s.ring g).dbseq ∧
    s.lineRead g f u = { s.setRing g { s.ring g with ev := (s.ring g).ev + 1, reads := (s.ring g).reads ++ [q] } with out := o } := by
  obtain ⟨o, ho⟩ := State.sendReads_form _ f ((s.ring g).base.toNat + 16 * alignDown u 4) 64 0 (min 1 (s.npRoom f))
  exact ⟨o, _, by rfl, by rfl, ho⟩

/-- Reading ahead asks for lines of ring g one after another, each where it is neither there nor asked for. -/
def State.readAhead (s : State) (g f : Nat) (us : List Nat) : State :=
  us.foldl (fun t u => if (t.ring g).haveLine u then t else t.lineRead g f u) s

theorem State.prefetch_eq (s : State) (g f : Nat) : s.prefetch g f =
    if !s.canIssue f || (s.ring g).st != 2 || !(s.ring g).buf then s
    else s.readAhead g f ((span 0 (s.ring g).depth).map fun i => ((s.ring g).head + i) % (s.ring g).units16) := by
  unfold State.readAhead
  rw [List.foldl_map]
  rfl

/-- Ring g before and after lines of it have been asked for: reads may have been added, and each was made under the DBSEQ of now. -/
def Ring.readsMore (r x : Ring) : Prop := ∃ ev l, x = { r with ev := ev, reads := r.reads ++ l } ∧ ∀ q ∈ l, q.tag = r.dbseq

theorem Ring.readsMore.refl (r : Ring) : r.readsMore r := ⟨r.ev, [], by simp, by simp⟩

theorem Ring.readsMore.trans {r x y : Ring} (h : r.readsMore x) (k : x.readsMore y) : r.readsMore y := by
  obtain ⟨ev, l, rfl, hl⟩ := h
  obtain ⟨ev', l', rfl, hl'⟩ := k
  refine ⟨ev', l ++ l', by simp, fun q hq => ?_⟩
  rcases List.mem_append.1 hq with hq | hq
  · exact hl q hq
  · exact hl' q hq

/-- From s to t lines of ring g have been asked for, and nothing else has changed but what has left the part. -/
structure State.asked (s t : State) (g : Nat) : Prop where
  form : ∃ r o, t = { s with rings := r, out := o }
  others : ∀ k, k ≠ g → t.entriesOf k = s.entriesOf k
  ring : (s.ring g).readsMore (t.ring g)

theorem State.asked.refl (s : State) (g : Nat) : s.asked s g := ⟨⟨s.rings, s.out, rfl⟩, fun _ _ => rfl, .refl _⟩

theorem State.asked.trans {s t u : State} {g : Nat} (h : s.asked t g) (k : t.asked u g) : s.asked u g := by
  refine ⟨?_, fun j hj => (k.others j hj).trans (h.others j hj), h.ring.trans k.ring⟩
  obtain ⟨r, o, rfl⟩ := h.form
  obtain ⟨r', o', rfl⟩ := k.form
  exact ⟨r', o', rfl⟩

theorem State.asked_lineRead (s : State) (g f u : Nat) : s.asked (s.lineRead g f u) g := by
  obtain ⟨o, q, -, htag, h⟩ := s.lineRead_form g f u
  rw [h]
  refine ⟨⟨_, o, rfl⟩, fun k hk => s.entriesOf_setRing_other _ (Ne.symm hk), ?_⟩
  change (s.ring g).readsMore ((s.setRing g _).ring g)
  rw [State.ring_setRing]
  exact ⟨_, [q], rfl, by simpa using htag⟩

theorem State.asked_readAhead (s : State) (g f : Nat) (us : List Nat) : s.asked (s.readAhead g f us) g := by
  induction us generalizing s with
  | nil => exact .refl s g
  | cons u us ih =>
    refine State.asked.trans ?_ (ih _)
    dsimp only
    split
    · exact .refl s g
    · exact s.asked_lineRead g f u

theorem State.asked_prefetch (s : State) (g f : Nat) : s.asked (s.prefetch g f) g := by
  rw [State.prefetch_eq]
  split
  · exact .refl s g
  · exact s.asked_readAhead g f _

/-- Each of the lines is being read afterwards, where the buffer holds no unit yet. -/
theorem State.readAhead_reads {s : State} {g : Nat} (f : Nat) (hu : (s.ring g).units = []) (us : List Nat) {u : Nat} (h : u ∈ us) :
    ∃ q ∈ ((s.readAhead g f us).ring g).reads, q.unit = alignDown u 4 := by
  induction us generalizing s with
  | nil => cases h
  | cons v us ih =>
    set t := if (s.ring g).haveLine v then s else s.lineRead g f v with ht
    have hst : s.asked t g := by
      rw [ht]
      split
      · exact .refl s g
      · exact s.asked_lineRead g f v
    have htu : (t.ring g).units = [] := by
      obtain ⟨ev, l, hr, -⟩ := hst.ring
      rw [hr]
      exact hu
    change ∃ q ∈ ((t.readAhead g f us).ring g).reads, _
    rcases List.mem_cons.1 h with rfl | h
    · have hq : ∃ q ∈ (t.ring g).reads, q.unit = alignDown u 4 := by
        rw [ht]
        split
        · next hl => simpa [Ring.haveLine, hu] using hl
        · obtain ⟨o, q, hq, -, hr⟩ := s.lineRead_form g f u
          refine ⟨q, ?_, hq⟩
          rw [hr]
          change q ∈ ((s.setRing g _).ring g).reads
          rw [State.ring_setRing]
          exact List.mem_append_right _ List.mem_cons_self
      obtain ⟨q, hq, hqu⟩ := hq
      obtain ⟨ev, l, hr, -⟩ := (t.asked_readAhead g f us).ring
      exact ⟨q, by rw [hr]; exact List.mem_append_left l hq, hqu⟩
    · exact ih htu h

/-! ## Leaving SCAN (R173) -/

/-- Ring r waits for a prefetch buffer. -/
def Ring.waits (r : Ring) : Bool := r.typ == 1 && r.st == 2 && !r.buf

/-- The earlier of a queue and another that waits: its number and its place in the order of entering SCAN. -/
def earlierWaiter (b : Option (Nat × Nat)) (e : Nat × Ring) : Option (Nat × Nat) :=
  if e.2.waits then
    match b with
    | none => some (e.1, e.2.scanOrder)
    | some (h, o) => if e.2.scanOrder < o then some (e.1, e.2.scanOrder) else some (h, o)
  else b

theorem earlierWaiter_cases (b : Option (Nat × Nat)) (e : Nat × Ring) :
    earlierWaiter b e = b ∨ e.2.waits = true ∧ earlierWaiter b e = some (e.1, e.2.scanOrder) := by
  unfold earlierWaiter
  split
  · next hw =>
    split
    · exact .inr ⟨hw, rfl⟩
    · split
      · exact .inr ⟨hw, rfl⟩
      · exact .inl rfl
  · exact .inl rfl

theorem foldl_earlierWaiter (l : List (Nat × Ring)) (b : Option (Nat × Nat)) :
    l.foldl earlierWaiter b = b ∨ ∃ e ∈ l, e.2.waits = true ∧ l.foldl earlierWaiter b = some (e.1, e.2.scanOrder) := by
  induction l generalizing b with
  | nil => exact .inl rfl
  | cons x l ih =>
    rw [List.foldl_cons]
    rcases ih (earlierWaiter b x) with h | ⟨e, he, hw, h⟩
    · rw [h]
      exact (earlierWaiter_cases b x).imp_right fun ⟨hw, hx⟩ => ⟨x, List.mem_cons_self, hw, hx⟩
    · exact .inr ⟨e, List.mem_cons_of_mem x he, hw, h⟩

/-- Ring g takes a buffer and reads ahead (R173). -/
def State.granted (s : State) (g : Nat) : State :=
  match s.ringFn g with
  | some f => (s.setRing g { s.ring g with buf := true }).prefetch g f
  | none => s.setRing g { s.ring g with buf := true }

/-- A buffer goes to a queue that waits for one. -/
theorem State.grantBuffer_form (s : State) : s.grantBuffer = s ∨ ∃ e ∈ s.rings, e.2.waits = true ∧ s.grantBuffer = s.granted e.1 := by
  have h : s.grantBuffer = if s.pfUsed ≥ 1024 then s else
      match s.rings.foldl earlierWaiter none with
      | none => s
      | some (g, _) => s.granted g := rfl
  rw [h]
  split
  · exact .inl rfl
  · rcases foldl_earlierWaiter s.rings none with hn | ⟨e, he, hw, hs⟩
    · rw [hn]
      exact .inl rfl
    · rw [hs]
      exact .inr ⟨e, he, hw, rfl⟩

/-- Nothing that the table lists for ring g waits for a buffer. -/
def State.unwaiting (s : State) (g : Nat) : Prop := ∀ e ∈ s.entriesOf g, e.2.waits = false

theorem State.unwaiting_setRing (s : State) (g : Nat) {x : Ring} (h : x.waits = false) : (s.setRing g x).unwaiting g := fun e he => by
  rw [State.mem_entriesOf_setRing he]
  exact h

/-- A buffer granted to a queue is none of a ring that does not wait. -/
theorem State.entriesOf_grantBuffer {s : State} {g : Nat} (h : s.unwaiting g) : s.grantBuffer.entriesOf g = s.entriesOf g := by
  rcases s.grantBuffer_form with hs | ⟨e, he, hw, hs⟩
  · rw [hs]
  · have hne : e.1 ≠ g := fun heq => by
      have := h e (List.mem_filter.2 ⟨he, by simp [heq]⟩)
      rw [hw] at this
      cases this
    have hset := s.entriesOf_setRing_other { s.ring e.1 with buf := true } hne
    rw [hs]
    unfold State.granted
    split
    · exact ((State.asked_prefetch _ e.1 _).others g (Ne.symm hne)).trans hset
    · exact hset

theorem State.entriesOf_grantBuffers {s : State} {g : Nat} (h : s.unwaiting g) : s.grantBuffers.entriesOf g = s.entriesOf g := by
  unfold State.grantBuffers
  generalize s.rings = l
  induction l generalizing s with
  | nil => rfl
  | cons e l ih =>
    have hg := State.entriesOf_grantBuffer h
    exact (ih (s := s.grantBuffer) (by unfold State.unwaiting; rwa [hg])).trans hg

/-- A queue that has left SCAN for another state. -/
def Ring.left (r : Ring) (st : Nat) : Ring := { r with st := st, buf := false, units := [], reads := [], need := none }

theorem State.leaveScan_ring (s : State) (g : Nat) {st : Nat} (h : st ≠ 2) : (s.leaveScan g st).ring g = (s.ring g).left st := by
  have hw : ((s.ring g).left st).waits = false := by simp [Ring.waits, Ring.left, h]
  exact (State.ring_of_entriesOf (State.entriesOf_grantBuffer (s.unwaiting_setRing g hw))).trans (State.ring_setRing s g _)

end Sys2Proof.Machine

namespace Sys2Proof.Machine

set_option Elab.async false

/-! # Entering SCAN (R173, R199, R494) -/

/-- A queue on its way into SCAN: what an earlier scan left behind is gone. -/
def Ring.fresh (r : Ring) : Ring :=
  { r with st := 3, buf := false, units := [], reads := [], need := none, fence := none, heldBlock := false, heldStart := none }

/-- The journal holds the function's queues, or the queue's completion ring is blocked: the queue is HELD and not scanned. -/
def State.barred (s : State) (g f : Nat) : Prop := s.jnHolds f = true ∨ (s.ring (s.cqOf f (s.ring g))).blocked = true

/-- The queue in SCAN, before its first lines are read. -/
def State.scanEntered (s : State) (g : Nat) : State :=
  ({ s with seq := s.seq + 1 }).setRing g
    { (s.ring g).fresh with st := 2, scanOrder := s.seq + 1, buf := decide (s.pfUsed < 1024) }

theorem State.enterScan_journal {s : State} {g f : Nat} (h : s.jnHolds f = true) :
    s.enterScan g f = s.setRing g { (s.ring g).fresh with jnHold := true } := if_pos h

theorem State.enterScan_blocked {s : State} {g f : Nat} (h : s.jnHolds f = false)
    (hb : (s.ring (s.cqOf f (s.ring g))).blocked = true) : s.enterScan g f = s.setRing g { (s.ring g).fresh with heldBlock := true } :=
  (if_neg (by simp [h])).trans (if_pos hb)

theorem State.enterScan_scans {s : State} {g f : Nat} (h : ¬ s.barred g f) :
    s.enterScan g f = if decide (s.pfUsed < 1024) then (s.scanEntered g).prefetch g f else s.scanEntered g := by
  unfold State.barred at h
  rw [not_or, Bool.not_eq_true, Bool.not_eq_true] at h
  exact (if_neg (by simp [h.1])).trans (if_neg (by rw [Bool.not_eq_true]; exact h.2))

theorem State.asked_scans (s : State) (g f : Nat) :
    (s.scanEntered g).asked (if decide (s.pfUsed < 1024) then (s.scanEntered g).prefetch g f else s.scanEntered g) g := by
  split
  · exact State.asked_prefetch _ g f
  · exact .refl _ g

theorem State.scanEntered_ring (s : State) (g : Nat) : (s.scanEntered g).ring g =
    { (s.ring g).fresh with st := 2, scanOrder := s.seq + 1, buf := decide (s.pfUsed < 1024) } := State.ring_setRing _ g _

/-- What a queue keeps that enters SCAN, in whichever state it ends: its place, its counts and what configures it. -/
def Ring.lasting (r : Ring) : Ring :=
  { r.fresh with scanOrder := 0, ev := 0, jnHold := false }

theorem Ring.read_lasting {α : Type} {x y : Ring} (h : x.lasting = y.lasting) (f : Ring → α)
    (hf : ∀ z, f z.lasting = f z := by intro; rfl) : f x = f y := by
  rw [← hf x, h, hf y]

/-- From s to t queue g has entered SCAN, or is HELD where it is barred; other rings are as they were. -/
structure State.entered (s t : State) (g f : Nat) : Prop where
  form : ∃ r n o, t = { s with rings := r, seq := n, out := o }
  others : ∀ k, k ≠ g → t.ring k = s.ring k
  lasting : (t.ring g).lasting = (s.ring g).lasting
  fence : (t.ring g).fence = none
  held : s.barred g f → (t.ring g).st = 3
  scans : ¬ s.barred g f → (t.ring g).st = 2 ∧ (t.ring g).heldBlock = false
  journal : s.jnHolds f = true → (t.ring g).heldBlock = false

theorem State.enterScan_entered (s : State) (g f : Nat) : s.entered (s.enterScan g f) g f := by
  by_cases hb : s.barred g f
  · by_cases hj : s.jnHolds f = true
    · have hring := State.ring_setRing s g { (s.ring g).fresh with jnHold := true }
      rw [State.enterScan_journal hj]
      exact ⟨⟨_, s.seq, s.out, rfl⟩, fun k hk => s.ring_setRing_other _ hk, by rw [hring]; rfl, by rw [hring]; rfl,
        fun _ => by rw [hring]; rfl, fun h => absurd hb h, fun _ => by rw [hring]; rfl⟩
    · have hring := State.ring_setRing s g { (s.ring g).fresh with heldBlock := true }
      rw [State.enterScan_blocked (by simpa using hj) (hb.resolve_left hj)]
      exact ⟨⟨_, s.seq, s.out, rfl⟩, fun k hk => s.ring_setRing_other _ hk, by rw [hring]; rfl, by rw [hring]; rfl,
        fun _ => by rw [hring]; rfl, fun h => absurd hb h, fun h => absurd h hj⟩
  · have h := s.asked_scans g f
    rw [← State.enterScan_scans hb] at h
    generalize s.enterScan g f = t at h
    obtain ⟨ev, l, hring, -⟩ := h.ring
    rw [s.scanEntered_ring] at hring
    obtain ⟨r, o, hform⟩ := h.form
    exact ⟨⟨r, _, o, hform⟩, fun k hk => (State.ring_of_entriesOf (h.others k hk)).trans (State.ring_setRing_other _ _ hk),
      by rw [hring]; rfl, by rw [hring]; rfl, fun h => absurd h hb, fun _ => by rw [hring]; exact ⟨rfl, rfl⟩, fun _ => by rw [hring]; rfl⟩

theorem State.entered.st {s t : State} {g f : Nat} (h : s.entered t g f) {p : Prop} [Decidable p] (hp : s.barred g f ↔ p) :
    (t.ring g).st = if p then 3 else 2 := by
  split
  · next hb => exact h.held (hp.2 hb)
  · next hb => exact (h.scans (mt hp.1 hb)).1

/-- Whether a queue is barred does not depend on what a doorbell or a RESTART changes in it. -/
theorem State.barred_setRing (s : State) (g f : Nat) {x : Ring} (hb : x.blocked = (s.ring g).blocked) (hc : x.cq = (s.ring g).cq) :
    (s.setRing g x).barred g f ↔ s.barred g f := by
  unfold State.barred State.cqOf
  rw [State.ring_setRing, hc]
  exact or_congr_right (Bool.eq_iff_iff.1 (s.read_setRing (·.blocked) hb _))

/-- A queue in SCAN with a buffer reads the units from HEAD on, as many as its depth (R174). -/
theorem State.enterScan_reads {s : State} {g f : Nat} (hst : ((s.enterScan g f).ring g).st = 2)
    (hbuf : ((s.enterScan g f).ring g).buf = true) (hc : s.canIssue f = true) {k : Nat} (hk : k < (s.ring g).depth) :
    ∃ q ∈ ((s.enterScan g f).ring g).reads, q.unit = alignDown (((s.ring g).head + k) % (s.ring g).units16) 4 ∧ q.tag = (s.ring g).dbseq := by
  have hbar : ¬ s.barred g f := fun hb => by
    have := (s.enterScan_entered g f).held hb
    omega
  rw [State.enterScan_scans hbar] at hbuf ⊢
  have hfree : decide (s.pfUsed < 1024) = true := by
    obtain ⟨ev, l, hring, -⟩ := (s.asked_scans g f).ring
    rw [hring, s.scanEntered_ring] at hbuf
    exact hbuf
  have hring := s.scanEntered_ring g
  rw [if_pos hfree, State.prefetch_eq, hring, if_neg (by
    have : (s.scanEntered g).canIssue f = true := hc
    simp [this, hfree])]
  have hmem : ((s.ring g).head + k) % (s.ring g).units16 ∈
      (span 0 (s.ring g).depth).map fun i => ((s.ring g).head + i) % (s.ring g).units16 :=
    List.mem_map.2 ⟨k, List.mem_of_getElem? (i := k) (by rw [span_getElem?, if_pos hk, Nat.zero_add]), rfl⟩
  obtain ⟨q, hq, hu⟩ := State.readAhead_reads f (s := s.scanEntered g) (g := g) (by rw [hring]; rfl) _ hmem
  obtain ⟨ev, l, hmore, htag⟩ := ((s.scanEntered g).asked_readAhead g f
    ((span 0 (s.ring g).depth).map fun i => ((s.ring g).head + i) % (s.ring g).units16)).ring
  refine ⟨q, hq, hu, ?_⟩
  rw [hmore, hring] at hq
  rw [hring] at htag
  exact htag q (by simpa [Ring.fresh] using hq)

/-! # What the journal records leaves of the queues (R490, R494) -/

/-- From s to t the state of the session is the same, or the session has ended. -/
def State.sessionKept (s t : State) : Prop := t.jnState = s.jnState ∨ t.jnState = 6

theorem State.sessionKept_ite {s t u : State} {p : Prop} [Decidable p] (h : s.sessionKept t) (k : s.sessionKept u) :
    s.sessionKept (if p then t else u) := by
  split
  · exact h
  · exact k

theorem State.sessionKept.trans {s t u : State} (h : s.sessionKept t) (k : t.sessionKept u) : s.sessionKept u := by
  rcases k with k | k
  · exact h.imp k.trans k.trans
  · exact .inr k

theorem State.sessionKept.of_regs {s t u : State} (h : s.sessionKept t) (hu : u.regs = t.regs) : s.sessionKept u := by
  have hj : u.jnState = t.jnState := by rw [State.jnState, State.reg, hu]; rfl
  rwa [State.sessionKept, hj]

theorem State.sessionKept_setReg (s : State) {a : Nat} (v : Word) (h : a ≠ 0x04F00010) : s.sessionKept (s.setReg a v) :=
  .inl (congrArg (bitsOf · 2 0) ((State.reg_setReg s a _ v).trans (if_neg (Ne.symm h))))

theorem State.sessionKept_jnStatus (s : State) (v : Word) : s.sessionKept (s.jnStatus v) :=
  .inl (congrArg (bitsOf · 2 0) ((State.reg_setStatus s _ _ v).trans (if_neg (by decide))))

theorem State.sessionKept_jput (s : State) (r : JRec) : s.sessionKept (s.jput r) :=
  State.sessionKept_setReg s (a := 0x04F0002C) (satAdd (s.reg 0x04F0002C) r.bytes) (by decide)

theorem State.sessionKept_jgap (s : State) : s.sessionKept s.jgap := State.sessionKept_jput { s with jn := _ } _

theorem State.jnState_setJnState (s : State) : (s.setJnState 6).jnState = 6 := by
  rw [State.jnState, State.setJnState, State.reg_setReg_self, bitsOf_putBits_self _ (by decide) (by decide)]

theorem State.sessionKept_jend {s : State} (h : s.jnState ≠ 1) (reason : Nat) : s.sessionKept (s.jend reason) := by
  unfold State.jend
  rw [if_neg h]
  refine State.sessionKept_ite (.inl rfl) ?_
  extract_lets s1 flags s2
  exact .inr ((s2.setJnState 6).sessionKept_jnStatus 4#32 |>.elim (fun k => k.trans s2.jnState_setJnState) id)

/-- A record leaves the session's state as it was, or ends it (R496). -/
theorem State.sessionKept_jrec (s : State) (type srcid : Nat) (payload : List Nat) : s.sessionKept (s.jrec type srcid payload) := by
  unfold State.jrec
  split
  · exact .inl rfl
  · next hrec =>
    extract_lets last s1 r j1 s2 j2 s3
    have h1 : s.sessionKept s1 := State.sessionKept_ite (State.sessionKept_jput s _) (.inl rfl)
    have h2 : s.sessionKept s2 := State.sessionKept_ite (h1.trans (State.sessionKept_jgap s1)) h1
    have hne : s2.jnState ≠ 1 := by
      have hs : s.jnState = 2 ∨ s.jnState = 3 := by simpa [State.recording, imp_iff_or_not, or_comm] using hrec
      unfold State.sessionKept at h2
      omega
    clear_value s2
    refine State.sessionKept_ite (h1.trans (State.sessionKept_setReg _ _ (by decide))) (State.sessionKept_ite
      (h2.trans (State.sessionKept_jput s2 r)) (State.sessionKept_ite (h2.trans (State.sessionKept_jend hne 4)) ?_))
    have h3 : s2.sessionKept s3 := .inl rfl
    have h4 : s3.sessionKept (s3.setReg 0x04F00030 (satAdd (s3.reg 0x04F00030) r.bytes)) := State.sessionKept_setReg s3 _ (by decide)
    have h5 := h4.trans (State.sessionKept_jnStatus _ 16#32)
    exact ((h2.trans h3).trans h5).of_regs ((State.report_regs ..).trans (State.irq_regs ..))

/-- Outside CKPT, where a full session that ends lets its queues go, a record changes nothing in which queues the journal holds (R494). -/
theorem State.jnHolds_jrec {s : State} (h : s.jnState ≠ 2) (f type srcid : Nat) (payload : List Nat) :
    (s.jrec type srcid payload).jnHolds f = s.jnHolds f := by
  by_cases hr : s.recording = true
  · have hs : s.jnState = 3 := by simpa [State.recording, h] using hr
    have hend := s.sessionKept_jrec type srcid payload
    unfold State.sessionKept at hend
    rcases hend with h6 | h6
    · simp [State.jnHolds, h6, hs]
    · simp [State.jnHolds, h6, hs]
  · rw [State.jrec, if_pos (by simpa using hr)]

/-- From s to u the journal has made a record. -/
structure State.recorded (s u : State) : Prop where
  regs : onlyRegs s u []
  holds : s.jnState ≠ 2 → ∀ f, u.jnHolds f = s.jnHolds f

theorem State.recorded.refl (s : State) : s.recorded s := ⟨.refl s [], fun _ _ => rfl⟩

theorem State.recorded_jrec (s : State) (type srcid : Nat) (payload : List Nat) : s.recorded (s.jrec type srcid payload) :=
  ⟨onlyRegs_jrec .., fun h f => State.jnHolds_jrec h f ..⟩

theorem State.recorded_ite {s t u : State} {p : Prop} [Decidable p] (h : s.recorded t) (k : s.recorded u) :
    s.recorded (if p then t else u) := by
  split
  · exact h
  · exact k

theorem State.recorded_jRegWrite (s : State) (m a : Nat) (v : Word) : s.recorded (s.jRegWrite m a v) :=
  State.recorded_ite (s.recorded_jrec ..) (.refl s)

/-! ## Shares and rings read the same after a record -/

section
variable {s u : State} (h : onlyRegs s u [])
include h

theorem onlyRegs.ring (g : Nat) : u.ring g = s.ring g := h.read (State.ring · g)

theorem onlyRegs.shareReg {f : Nat} (hf : f < 16) : u.reg (0x04208100 + 4 * f) = s.reg (0x04208100 + 4 * f) := h.regOutside (by omega)

theorem onlyRegs.shareFirst {f : Nat} (hf : f < 16) : u.shareFirst f = s.shareFirst f := by
  rw [State.shareFirst, State.shareFirst, h.shareReg hf]

theorem onlyRegs.shareCount {f : Nat} (hf : f < 16) : u.shareCount f = s.shareCount f := by
  rw [State.shareCount, State.shareCount, h.shareReg hf]

theorem onlyRegs.ringFn (g : Nat) : u.ringFn g = s.ringFn g := (State.ringWork_of_onlyRegs h).ringFn g

theorem onlyRegs.barred_iff (hj : ∀ f, u.jnHolds f = s.jnHolds f) {g f : Nat} (hf : f < 16) : u.barred g f ↔ s.barred g f := by
  unfold State.barred State.cqOf
  rw [hj, h.ring, h.ring, h.shareFirst hf]

end

end Sys2Proof.Machine

namespace Sys2Proof.Machine

set_option Elab.async false

/-! # Ring commands and shares (R162, R179, R180, R183, R195) -/

/-- What a code of QM_RING_CMD does to the selected ring. -/
def State.ringDo (s : State) (f g code : Nat) : State :=
  if code = 1 then s.ringEnable f g else if code = 2 then s.ringDisable f g else if code = 3 then s.ringRestart f g else s

/-- A write of QM_RING_CMD is recorded, and acts on the ring that is selected (R181). -/
theorem State.ringCmd_may {s : State} {m : Master} {f : Fn} (code : Nat) (h : s.regRight m (0x04200020 + 0x10000 * f.val) true = .may) :
    ∃ u, s.recorded u ∧ (s.selRing m.id f.val = none → s.ringCmd m f.val code = u) ∧
      ∀ g, s.selRing m.id f.val = some g → s.ringCmd m f.val code = u.ringDo f.val g code := by
  have hview : Machine.qmView f.val 0x20 = 0x04200020 + 0x10000 * f.val := by unfold Machine.qmView; omega
  have hu := s.recorded_jRegWrite m.id (Machine.qmView f.val 0x20) (BitVec.ofNat 32 code)
  have hrow : s.ringCmd m f.val code = _ := State.regRow_may _ _ (by rw [hview]; exact h)
  have hf := f.isLt
  have hsel : (s.jRegWrite m.id (Machine.qmView f.val 0x20) (BitVec.ofNat 32 code)).selRing m.id f.val = s.selRing m.id f.val := by
    unfold State.selRing
    rw [hu.regs.shareCount hf, hu.regs.shareFirst hf, hu.regs.regOutside (by unfold banked Machine.qmView; omega)]
  rw [hsel] at hrow
  refine ⟨_, hu, fun hn => hrow.trans ?_, fun g hg => hrow.trans ?_⟩
  · rw [hn]
  · rw [hg]
    rfl

/-! ## ENABLE (R162, R179, R195) -/

/-- A work queue may be enabled: its base meets R162, and the completion ring bound to it is one of the share that is enabled. -/
def State.wqReady (s : State) (f : Nat) (r : Ring) : Prop :=
  baseOk r = true ∧ r.cq < s.shareCount f ∧ (s.ring (s.shareFirst f + r.cq)).typ = 2 ∧ (s.ring (s.shareFirst f + r.cq)).st = 1

/-- A completion ring may be enabled: its base meets R162, its head word is an aligned host word, and it names a vector of the function. -/
def State.cqReady (s : State) (f : Nat) (r : Ring) : Prop :=
  baseOk r = true ∧ r.haddr.toNat % 8 = 0 ∧ r.haddr.getLsbD 63 = false ∧ (r.mod = 0 ∨ r.vector < (s.fn f).vectors)

/-- A work queue as ENABLE starts it. -/
def Ring.wqStarted (r : Ring) : Ring :=
  { r with
    st := 1, head := 0, lapx := true, dbseq := 0#32, consumed := 0#32, errcode := 0, inWeir := false, fence := none,
    heldBlock := false, heldStart := none, units := [], reads := [], buf := false, need := none, ev := 0 }

/-- A completion ring as ENABLE starts it. -/
def Ring.cqStarted (r : Ring) : Ring :=
  { r with
    st := 1, tail := 0, qhead := 0, posted := 0#32, lapw := true, backlog := [], resRing := 0, resPark := 0,
    redeemed := [], modCount := 0, modFrom := none, headRead := false, headAgain := false, stallFrom := none,
    stallDone := false, stallUsed := 0, dbseq := 0#32, timeIn := r.time, woke := false }

/-- A work queue as DISABLE leaves it. -/
def Ring.wqStopped (r : Ring) : Ring := { r.left 0 with fence := none, errcode := 0, heldBlock := false, heldStart := none }

/-- Something is bound to completion ring g, which is r, or waits in it. -/
def State.cqInUse (s : State) (f g : Nat) (r : Ring) : Bool :=
  s.rings.any (fun (k, q) => q.typ == 1 && q.st != 0 && s.ringFn k == some f && s.cqOf f q == g) || !r.backlog.isEmpty ||
    s.boundFor f g || r.resRing != 0 || r.resPark != 0 || !r.redeemed.isEmpty

/-- A completion ring as DISABLE leaves it. -/
def Ring.cqStopped (r : Ring) : Ring :=
  { r with st := 0, headRead := false, headAgain := false, stallFrom := none, modCount := 0, modFrom := none }

section
variable {s : State} {f g : Nat} {r : Ring} (hg : s.ring g = r)
include hg

theorem State.ringEnable_enabled (h : r.st ≠ 0) : s.ringEnable f g = s := by
  subst hg
  exact if_pos (by simpa using h)

theorem State.ringEnable_untyped (h : r.st = 0) (h1 : r.typ ≠ 1) (h2 : r.typ ≠ 2) : s.ringEnable f g = s.qmCfgErr f := by
  subst hg
  exact (if_neg (by simp [h])).trans ((if_neg h1).trans (if_neg h2))

theorem State.ringEnable_wq (h : r.st = 0) (ht : r.typ = 1) [Decidable (s.wqReady f r)] :
    s.ringEnable f g = if s.wqReady f r then (s.setRing g r.wqStarted).hwWrite (ctxAddr g) else s.qmCfgErr f := by
  subst hg
  refine (if_neg (by simp [h])).trans ((if_pos ht).trans (if_congr ?_ rfl rfl))
  simp [State.wqReady, and_assoc]

theorem State.ringEnable_cq (h : r.st = 0) (ht : r.typ = 2) [Decidable (s.cqReady f r)] :
    s.ringEnable f g = if s.cqReady f r then s.setRing g r.cqStarted else s.qmCfgErr f := by
  subst hg
  refine (if_neg (by simp [h])).trans ((if_neg (by omega)).trans ((if_pos ht).trans (if_congr ?_ rfl rfl)))
  simp [State.cqReady, and_assoc]

/-! ## DISABLE and RESTART (R179, R180, R195) -/

theorem State.ringDisable_disabled (h : r.st = 0) : s.ringDisable f g = s := by
  subst hg
  exact if_pos h

theorem State.ringDisable_wq (h : r.st ≠ 0) (ht : r.typ = 1) : s.ringDisable f g = (s.leaveScan g 0).setRing g r.wqStopped := by
  subst hg
  have hd : s.ringDisable f g = (s.leaveScan g 0).setRing g
      { (s.leaveScan g 0).ring g with fence := none, errcode := 0, heldBlock := false, heldStart := none } := (if_neg h).trans (if_pos ht)
  rw [hd, s.leaveScan_ring g (by decide)]
  rfl

theorem State.ringDisable_cq (h : r.st ≠ 0) (ht : r.typ = 2) :
    s.ringDisable f g = if s.cqInUse f g r then s.qmCfgErr f else s.setRing g r.cqStopped := by
  subst hg
  exact (if_neg h).trans ((if_neg (by omega)).trans (if_pos ht))

omit hg in
theorem State.cqInUse_backlog (h : r.backlog ≠ []) : s.cqInUse f g r = true := by
  unfold State.cqInUse
  simp [h]

omit hg in
theorem State.cqInUse_idle (hb : r.backlog = []) (hr : r.resRing = 0) (hp : r.resPark = 0) (hd : r.redeemed = []) (hs : s.busySlots = [])
    (hq : ∀ k q, (k, q) ∈ s.rings → q.typ = 1 → q.st = 0) : s.cqInUse f g r = false := by
  have hany : s.rings.any (fun (k, q) => q.typ == 1 && q.st != 0 && s.ringFn k == some f && s.cqOf f q == g) = false := by
    rw [List.any_eq_false]
    rintro ⟨k, q⟩ hm
    by_cases ht : q.typ = 1
    · simp [hq k q hm ht]
    · simp [ht]
  simp [State.cqInUse, State.boundFor, hany, hb, hr, hp, hd, hs]

theorem State.ringRestart_other (h : ¬ (r.typ = 1 ∧ r.st = 4)) : s.ringRestart f g = s := by
  subst hg
  exact if_neg h

theorem State.ringRestart_error (ht : r.typ = 1) (h : r.st = 4) :
    s.ringRestart f g = (s.setRing g { r with errcode := 0 }).enterScan g f := by
  subst hg
  exact if_pos ⟨ht, h⟩

end

/-! ## A configuration error (R13, R182) -/

theorem State.qmCfgErr_flag (s : State) (f : Nat) : bit ((s.qmCfgErr f).reg (0x04200004 + 0x10000 * f)) 0 = true := by
  rw [State.qmCfgErr, State.reg_setReg_self]
  exact bit_or_one _

theorem onlyRegs_qmCfgErr (s : State) (f : Nat) : onlyRegs s (s.qmCfgErr f) [0x04200004 + 0x10000 * f] := onlyRegs_setReg s _ _

/-! ## Shares (R183) -/

/-- A ring of function f's share is enabled. -/
def State.shareBusy (s : State) (f : Nat) : Prop := ∃ p ∈ s.rings, s.ringFn p.1 = some f ∧ p.2.st ≠ 0

/-- Rings `first` to `first + count - 1` meet the share of another function. -/
def State.shareLaps (s : State) (f first count : Nat) : Prop :=
  ∃ h, h < 16 ∧ h ≠ f ∧ 0 < count ∧ 0 < s.shareCount h ∧ first < s.shareFirst h + s.shareCount h ∧ s.shareFirst h < first + count

/-- Function f may have the share that v names. -/
def State.shareFits (s : State) (f : Nat) (v : Word) : Prop :=
  ¬ s.shareBusy f ∧ bitsOf v 13 0 + bitsOf v 28 16 ≤ 16384 ∧ ¬ s.shareLaps f (bitsOf v 13 0) (bitsOf v 28 16)

section
variable {s : State} {f : Nat} {v : Word}

theorem State.shareWrite_eq (hc : bitsOf v 28 16 ≤ 4096) [Decidable (s.shareFits f v)] : s.shareWrite f v =
    if s.shareFits f v then s.setReg (0x04208100 + 4 * f) (BitVec.ofNat 32 (bitsOf v 28 16 * 65536 + bitsOf v 13 0))
    else s.cfgErr 0x04208004 := by
  have hfits : (s.rings.any (fun (g, r) => s.ringFn g == some f && r.st != 0) || decide (bitsOf v 13 0 + bitsOf v 28 16 > 16384) ||
      (span 0 16).any (fun h => h != f && decide (0 < bitsOf v 28 16) && decide (0 < s.shareCount h)
        && decide (bitsOf v 13 0 < s.shareFirst h + s.shareCount h) && decide (s.shareFirst h < bitsOf v 13 0 + bitsOf v 28 16))) = true ↔
      ¬ s.shareFits f v := by
    simp only [Bool.or_eq_true, List.any_eq_true, Bool.and_eq_true, beq_iff_eq, bne_iff_ne, decide_eq_true_eq, mem_span, State.shareFits,
      State.shareBusy, State.shareLaps, not_and_or, not_not, not_le, Nat.zero_le, true_and, Nat.zero_add, and_assoc, or_assoc]
  unfold State.shareWrite
  dsimp only
  rw [if_pos hc, if_pos hc]
  by_cases h : s.shareFits f v
  · rw [if_pos h, if_neg fun hb => hfits.1 hb h]
  · rw [if_neg h, if_pos (hfits.2 h)]

end

end Sys2Proof.Machine

namespace Sys2Proof.Machine

set_option Elab.async false

/-! ## The statement -/

section
variable {s u : State} (h : onlyRegs s u [])
include h

theorem onlyRegs.wqReady_iff {f : Nat} (hf : f < 16) (r : Ring) : u.wqReady f r ↔ s.wqReady f r := by
  unfold State.wqReady
  rw [h.shareCount hf, h.shareFirst hf, h.ring]

theorem onlyRegs.cqReady_iff (f : Nat) (r : Ring) : u.cqReady f r ↔ s.cqReady f r := by
  unfold State.cqReady
  rw [h.read (State.fn · f)]

theorem onlyRegs.shareFits_iff (f : Nat) (v : Word) : u.shareFits f v ↔ s.shareFits f v := by
  have hrings : u.rings = s.rings := h.read State.rings
  have hlaps (first count : Nat) : u.shareLaps f first count ↔ s.shareLaps f first count :=
    exists_congr fun k => and_congr_right fun hk => by rw [h.shareCount hk, h.shareFirst hk]
  unfold State.shareFits State.shareBusy
  rw [hlaps, hrings]
  simp only [h.ringFn]

theorem onlyRegs.setRing (g : Nat) (x : Ring) :
    onlyRegs { s with rings := (u.setRing g x).rings } (u.setRing g x) [] ∧ ∀ k, k ≠ g → (u.setRing g x).ring k = s.ring k :=
  ⟨h.withRings _, fun k hk => (u.ring_setRing_other x hk).trans (h.ring k)⟩

end

/-- A ring has been replaced and its context written (R23, R101). -/
theorem onlyRegs_hwWrite (s : State) (w : Nat) :
    onlyRegs { s with ecc := (s.hwWrite w).ecc } (s.hwWrite w) [0x04900004, 0x04900024] := by
  have hset : onlyRegs (s.setEcc w .ok) ((s.setEcc w .ok).injMark w (SMap.get .ok (s.setEcc w .ok).ecc w)).2 [0x04900004, 0x04900024] := by
    unfold State.injMark
    split
    · exact ((onlyRegs_setReg _ 0x04900024 _).trans (onlyRegs_setStatus _ 0x04900004 _)).mono (by decide)
    · exact .refl _ _
  obtain ⟨r, i, p, j, hform⟩ := hset.form
  have hw : s.hwWrite w = (((s.setEcc w .ok).injMark w (SMap.get .ok (s.setEcc w .ok).ecc w)).2).setEcc w
      ((s.setEcc w .ok).injMark w (SMap.get .ok (s.setEcc w .ok).ecc w)).1 := rfl
  refine ⟨?_, fun b hb hj => hset.2 b hb hj⟩
  rw [hw, hform]
  rfl

theorem onlyRegs.withEcc {s t : State} {as : List Nat} (h : onlyRegs s t as) (x : SMap EccMark) :
    onlyRegs { s with ecc := x } { t with ecc := x } as := by
  obtain ⟨_, _, _, _, rfl⟩ := h.form
  exact ⟨rfl, h.2⟩

/-- A command that ends in a configuration error. -/
theorem State.recorded.qmCfgErr {s u : State} (h : s.recorded u) {i : Instr} {f : Nat} (hx : exec i s = .next (u.qmCfgErr f)) :
    ∃ t, exec i s = .next t ∧ bit (t.reg (0x04200004 + 0x10000 * f)) 0 = true ∧ onlyRegs s t [0x04200004 + 0x10000 * f] :=
  ⟨_, hx, u.qmCfgErr_flag f, h.regs.trans (onlyRegs_qmCfgErr u f)⟩

/-- A command of which nothing remains but what is recorded. -/
theorem State.recorded.idle {s u : State} (h : s.recorded u) {i : Instr} (hx : exec i s = .next u) :
    ∃ t, exec i s = .next t ∧ onlyRegs s t [] := ⟨_, hx, h.regs⟩

/-- Settles O44: one equation for each condition of each command, on the state in which the command has been recorded. -/
theorem ringCommandsAndShares : Obligations.RingCommandsAndShares := by
  classical
  intro s m f a e
  have hf := f.isLt
  refine ⟨fun hr => ?commands, fun v => ?share⟩
  case commands =>
    obtain ⟨u, hu, hun, hug⟩ := State.ringCmd_may 1 hr
    obtain ⟨d, hd, hdn, hdg⟩ := State.ringCmd_may 2 hr
    obtain ⟨x, hx, hxn, hxg⟩ := State.ringCmd_may 3 hr
    have hur := hu.regs
    refine ⟨fun hn i hi => ?_, fun g hg => ?_⟩
    · rcases hi with rfl | rfl | rfl
      · exact hu.idle (congrArg Host.Outcome.next (hun hn))
      · exact hd.idle (congrArg Host.Outcome.next (hdn hn))
      · exact hx.idle (congrArg Host.Outcome.next (hxn hn))
    intro r c bad none_ others wqOk cqOk
    have hen {t : State} (h : u.ringEnable f.val g = t) : exec (.ringEnable m f) s = .next t :=
      congrArg Host.Outcome.next ((hug g hg).trans h)
    have hdis {t : State} (h : d.ringDisable f.val g = t) : exec (.ringDisable m f) s = .next t :=
      congrArg Host.Outcome.next ((hdg g hg).trans h)
    have hre {t : State} (h : x.ringRestart f.val g = t) : exec (.ringRestart m f) s = .next t :=
      congrArg Host.Outcome.next ((hxg g hg).trans h)
    have hru : u.ring g = r := hur.ring g
    have hrd : d.ring g = r := hd.regs.ring g
    have hrx : x.ring g = r := hx.regs.ring g
    refine ⟨fun h => ?_, fun h ht hok => ?_, fun h ht hok => ?_, fun h ht hok => ?_, fun h ht hok => ?_, fun h h1 h2 => ?_, fun h => ?_,
      fun h ht => ?_, fun h ht hb => ?_, fun h ht hb hr0 hp0 hd0 hs0 hq => ?_, fun h => ?_, fun ht h => ?_⟩
    · exact hu.idle (hen (State.ringEnable_enabled hru h))
    · have hx := hen ((State.ringEnable_wq hru h ht).trans (if_pos ((hur.wqReady_iff hf r).2 hok)))
      obtain ⟨hset, hothers⟩ := hur.setRing g r.wqStarted
      have hring := u.ring_setRing g r.wqStarted
      have hw := onlyRegs_hwWrite (u.setRing g r.wqStarted) (ctxAddr g)
      generalize u.setRing g r.wqStarted = v at hx hset hothers hring hw
      have hkeep (k : Nat) : (v.hwWrite (ctxAddr g)).ring k = v.ring k := hw.read (State.ring · k)
      have hrings : (v.hwWrite (ctxAddr g)).rings = v.rings := hw.read State.rings
      refine ⟨_, hx, ?_⟩
      rw [hkeep, hring, hrings]
      exact ⟨rfl, rfl, rfl, rfl, rfl, rfl, fun k hk => (hkeep k).trans (hothers k hk), (hset.withEcc _).trans hw⟩
    · exact hu.qmCfgErr (hen ((State.ringEnable_wq hru h ht).trans (if_neg (mt (hur.wqReady_iff hf r).1 hok))))
    · have hx := hen ((State.ringEnable_cq hru h ht).trans (if_pos ((hur.cqReady_iff f r).2 hok)))
      obtain ⟨hset, hothers⟩ := hur.setRing g r.cqStarted
      refine ⟨_, hx, ?_⟩
      rw [State.ring_setRing]
      exact ⟨rfl, rfl, rfl, rfl, rfl, hothers, hset⟩
    · exact hu.qmCfgErr (hen ((State.ringEnable_cq hru h ht).trans (if_neg (mt (hur.cqReady_iff f r).1 hok))))
    · exact hu.qmCfgErr (hen (State.ringEnable_untyped hru h h1 h2))
    · exact hd.idle (hdis (State.ringDisable_disabled hrd h))
    · have ht := hdis (State.ringDisable_wq hrd h ht)
      have hweir : (d.leaveScan g 0).weir = s.weir := (d.leaveScan_work g 0).weir.trans (hd.regs.read State.weir)
      have hslots : (d.leaveScan g 0).slots = s.slots := (d.leaveScan_work g 0).slots.trans (hd.regs.read State.slots)
      generalize d.leaveScan g 0 = v at ht hweir hslots
      refine ⟨_, ht, ?_⟩
      rw [State.ring_setRing]
      exact ⟨rfl, rfl, rfl, hweir, hslots⟩
    · exact hd.qmCfgErr (hdis ((State.ringDisable_cq hrd h ht).trans (if_pos (State.cqInUse_backlog hb))))
    · have hidle : d.cqInUse f.val g r = false := State.cqInUse_idle hb hr0 hp0 hd0 ((hd.regs.read State.busySlots).trans hs0)
        (by rw [hd.regs.read State.rings]; exact hq)
      obtain ⟨hset, hothers⟩ := hd.regs.setRing g r.cqStopped
      refine ⟨_, hdis ((State.ringDisable_cq hrd h ht).trans (if_neg (by simp [hidle]))), ?_⟩
      rw [State.ring_setRing]
      exact ⟨rfl, hothers, hset⟩
    · exact hx.idle (hre (State.ringRestart_other hrx h))
    · have hin := (x.setRing g { r with errcode := 0 }).enterScan_entered g f.val
      have hbar := x.barred_setRing g f.val (x := { r with errcode := 0 }) (by rw [hrx]; rfl) (by rw [hrx])
      have hlast := hin.lasting
      have hothers (k : Nat) (hk : k ≠ g) := (hin.others k hk).trans ((hx.regs.setRing g _).2 k hk)
      rw [State.ring_setRing] at hlast
      refine ⟨_, hre (State.ringRestart_error hrx ht h), fun hj => ?_, Ring.read_lasting hlast (·.errcode),
        Ring.read_lasting hlast (·.head), hothers⟩
      exact hin.st (hbar.trans (hx.regs.barred_iff (hx.holds hj) hf))
  case share =>
    intro q first count busy laps hr hc
    have hu := (s.recorded_jRegWrite m.id q v).regs
    have hx : exec (.shareWrite m f v) s = .next ((s.jRegWrite m.id q v).shareWrite f.val v) :=
      congrArg Host.Outcome.next (State.regRow_may _ _ hr)
    generalize s.jRegWrite m.id q v = u at hu hx
    rw [State.shareWrite_eq hc] at hx
    refine ⟨fun hb hle hl => ?_, fun hbad => ?_⟩
    · rw [if_pos ((hu.shareFits_iff f v).2 ⟨hb, hle, hl⟩)] at hx
      exact ⟨_, hx, State.reg_setReg_self _ _ _, hu.trans (onlyRegs_setReg _ _ _)⟩
    · have hno : ¬ s.shareFits f.val v := fun ⟨hb, hle, hl⟩ => hbad.elim hb fun h => h.elim hle.not_gt hl
      rw [if_neg (mt (hu.shareFits_iff f v).1 hno)] at hx
      exact ⟨_, hx, State.cfgErr_flag _ _, hu.trans (onlyRegs_cfgErr _ _)⟩

end Sys2Proof.Machine

namespace Sys2Proof.Machine

set_option Elab.async false

/-! # Doorbells (R171, R192) -/

/-! ## The event message (R203 to R207) -/

/-- From s to t a vector may have fired: a message has left the part, or is kept, or is pending. -/
def State.fired (s t : State) : Prop := ∃ n o, t = { s with fns := n, out := o }

theorem State.fired.refl (s : State) : s.fired s := ⟨s.fns, s.out, rfl⟩

theorem State.fired.trans {s t u : State} (h : s.fired t) (k : t.fired u) : s.fired u := by
  obtain ⟨n, o, rfl⟩ := h
  obtain ⟨n', o', rfl⟩ := k
  exact ⟨n', o', rfl⟩

theorem State.fired_ite {s t u : State} {p : Prop} [Decidable p] (h : s.fired t) (k : s.fired u) : s.fired (if p then t else u) := by
  split
  · exact h
  · exact k

theorem State.fired_setFn (s : State) (f : Nat) (x : Func) : s.fired (s.setFn f x) := ⟨_, s.out, rfl⟩

theorem State.fired_msixIssue (s : State) (f v : Nat) : s.fired (s.msixIssue f v) :=
  State.fired_ite (State.fired_ite (.refl s) ⟨_, _, rfl⟩) (s.fired_setFn f _)

theorem State.fired_issues (s : State) (f : Nat) (vs : List Nat) : s.fired (vs.foldl (fun t v => t.msixIssue f v) s) := by
  induction vs generalizing s with
  | nil => exact .refl s
  | cons v vs ih => exact (s.fired_msixIssue f v).trans (ih _)

theorem State.fired_deliverKept (s : State) (f : Nat) : s.fired (s.deliverKept f) :=
  (s.fired_setFn f _).trans (State.fired_issues _ f _)

theorem State.fired_sendFiring (s : State) (f v : Nat) : s.fired (s.sendFiring f v) :=
  State.fired_ite (s.fired_deliverKept f) ((s.fired_deliverKept f).trans (State.fired_msixIssue _ f v))

theorem State.fired_fireVector (s : State) (f v : Nat) : s.fired (s.fireVector f v) :=
  State.fired_ite (s.fired_sendFiring f v) (State.fired_ite (.refl s) (s.fired_setFn f _))

theorem State.fired_eventMessage (s : State) (f : Nat) : s.fired (s.eventMessage f) :=
  State.fired_ite (s.fired_fireVector f _) (.refl s)

/-- A bit of QM_FN_STATUS is set, and the event message may go out (R205). -/
theorem State.qmFnStatus_fired (s : State) (f i : Nat) :
    (s.setReg (0x04200004 + 0x10000 * f) (s.reg (0x04200004 + 0x10000 * f) ||| bitWord i true)).fired (s.qmFnStatus f i) :=
  State.fired_ite (.refl _) (State.fired_eventMessage _ f)

theorem State.reg_qmFnStatus (s : State) (f i : Nat) :
    (s.qmFnStatus f i).reg (0x04200004 + 0x10000 * f) = s.reg (0x04200004 + 0x10000 * f) ||| bitWord i true := by
  obtain ⟨n, o, h⟩ := s.qmFnStatus_fired f i
  rw [h]
  exact State.reg_setReg_self s _ _

theorem State.qmFnStatus_rings (s : State) (f i : Nat) : (s.qmFnStatus f i).rings = s.rings := by
  obtain ⟨n, o, h⟩ := s.qmFnStatus_fired f i
  rw [h]
  rfl

/-! ## The ring that a doorbell reaches -/

/-- Ring r once its doorbell has been counted. -/
def Ring.rung (r : Ring) : Ring := { r with dbseq := r.dbseq + 1#32 }

section
variable {s : State} {f i : Nat} {r : Ring} (hg : s.ring (s.shareFirst f + i) = r)

theorem State.ringRung_outside (h : s.shareCount f ≤ i) : s.ringRung f i = s.qmFnStatus f 2 := if_pos h

include hg

theorem State.ringRung_ignored (h : i < s.shareCount f) (h2 : r.typ ≠ 2) (h1 : r.typ ≠ 1 ∨ r.st = 0) : s.ringRung f i = s := by
  subst hg
  exact (if_neg (by omega)).trans ((if_neg h2).trans (if_neg fun ⟨ht, hs⟩ => h1.elim (· ht) hs))

theorem State.ringRung_wq (h : i < s.shareCount f) (ht : r.typ = 1) (h0 : r.st ≠ 0) : s.ringRung f i =
    if r.st = 1 then (s.setRing (s.shareFirst f + i) r.rung).enterScan (s.shareFirst f + i) f
    else s.setRing (s.shareFirst f + i) r.rung := by
  subst hg
  exact (if_neg (by omega)).trans ((if_neg (by omega)).trans (if_pos ⟨ht, h0⟩))

theorem State.ringRung_cq (h : i < s.shareCount f) (ht : r.typ = 2) : s.ringRung f i = s.cqDoorbell (s.shareFirst f + i) f := by
  subst hg
  exact (if_neg (by omega)).trans (if_pos ht)

end

section
variable {s : State} {g f : Nat} {r : Ring} (hg : s.ring g = r)
include hg

/-- The head word waits where no read may be sent. -/
theorem State.headRead_noRoom (hc : s.canIssue f = true) (hn : s.npRoom f = 0) :
    s.headRead g f = s.setRing g { r with headAgain := true } := by
  subst hg
  exact (if_neg (by simp [hc])).trans (if_pos hn)

/-- The head word is read: its 8 bytes are one request (R192, R221). -/
theorem State.headRead_sends (hm : s.mode ≠ 0xA) (hc : s.canIssue f = true) (hn : s.npRoom f ≠ 0) :
    s.headRead g f = { s.setRing g { r with headRead := true, headAgain := false, headLast := s.time } with
      out := s.out ++ [.hostRead f r.haddr.toNat 8] } := by
  subst hg
  have hlen : min (s.maxRead f) (8 - 0 * s.maxRead f) = 8 := by
    have : 128 * 1 ≤ s.maxRead f := Nat.mul_le_mul_left 128 Nat.one_le_two_pow
    omega
  have hone : (span 0 1).map (fun i => Out.hostRead f ((s.ring g).haddr.toNat + i * s.maxRead f) (min (s.maxRead f) (8 - i * s.maxRead f))) =
      [.hostRead f (s.ring g).haddr.toNat 8] := by
    simp only [span, List.map_cons, List.map_nil, hlen]
    rw [Nat.zero_mul, Nat.add_zero]
  refine (if_neg (by simp [hc])).trans ((if_neg hn).trans ((if_neg (by simpa using hm)).trans ?_))
  rw [← hone]
  rfl

theorem State.cqDoorbell_disabled (h : r.st ≠ 1) : s.cqDoorbell g f = s := by
  subst hg
  exact if_neg h

theorem State.cqDoorbell_enabled (h : r.st = 1) : s.cqDoorbell g f =
    if r.headRead then (s.setRing g r.rung).setRing g { r.rung with headAgain := true } else (s.setRing g r.rung).headRead g f := by
  subst hg
  refine (if_pos h).trans ?_
  change (if (s.ring g).headRead then (s.setRing g (s.ring g).rung).setRing g
    { (s.setRing g (s.ring g).rung).ring g with headAgain := true } else _) = _
  rw [State.ring_setRing]
  rfl

end

/-! ## What a doorbell leaves alone -/

theorem onlyRegs.npRoom_setRing {s u : State} (h : onlyRegs s u []) (g : Nat) (x : Ring) (f : Nat) :
    (u.setRing g x).npRoom f = (s.setRing g x).npRoom f := by
  have hrings : (u.setRing g x).rings = (s.setRing g x).rings := h.read fun s => (s.setRing g x).rings
  have hslots : (u.setRing g x).slots = (s.setRing g x).slots := h.read State.slots
  have hfn (k : Nat) : (u.setRing g x).ringFn k = (s.setRing g x).ringFn k := h.ringFn k
  unfold State.npRoom State.npSum
  rw [hrings, hslots]
  simp only [hfn]

/-- From s to t rings other than g keep what they hold, and little else may have changed. -/
def State.aloneOn (s : State) (g : Nat) (t : State) : Prop :=
  (∀ k, k ≠ g → t.ring k = s.ring k) ∧ onlyRegs { s with rings := t.rings, seq := t.seq, out := t.out } t []

theorem State.aloneOn_of_form {s u t : State} (hu : onlyRegs s u []) {g : Nat} (hf : ∃ r n o, t = { u with rings := r, seq := n, out := o })
    (ho : ∀ k, k ≠ g → t.ring k = u.ring k) : s.aloneOn g t := by
  refine ⟨fun k hk => (ho k hk).trans (hu.ring k), ?_⟩
  obtain ⟨r, n, o, rfl⟩ := hf
  obtain ⟨_, _, _, _, rfl⟩ := hu.form
  exact ⟨rfl, hu.2⟩

theorem State.aloneOn_setRing {s u : State} (hu : onlyRegs s u []) (g : Nat) (x y : Ring) :
    s.aloneOn g ((u.setRing g x).setRing g y) := by
  have hv : u.setRing g x = { u with rings := (u.setRing g x).rings } := rfl
  have hothers (k : Nat) (hk : k ≠ g) : (u.setRing g x).ring k = u.ring k := u.ring_setRing_other x hk
  generalize u.setRing g x = v at hv hothers
  refine State.aloneOn_of_form hu ?_ fun k hk => (v.ring_setRing_other y hk).trans (hothers k hk)
  rw [hv]
  exact ⟨_, _, _, rfl⟩

theorem onlyRegs.withOut {s t : State} {as : List Nat} (h : onlyRegs s t as) (o : List Out) :
    onlyRegs { s with out := o } { t with out := o } as := by
  obtain ⟨_, _, _, _, rfl⟩ := h.form
  exact ⟨rfl, h.2⟩

theorem State.aloneOn.withOut {s t : State} {g : Nat} (h : s.aloneOn g t) (o : List Out) : s.aloneOn g { t with out := o } :=
  ⟨h.1, h.2.withOut o⟩

/-! ## The statement -/

/-- A doorbell is recorded, and then reaches the Queue Manager. -/
theorem doorbell_rung {s : State} (f : Fn) (i : Fin 4096) (hm : s.mode ≠ 0xA) (hb : s.bar0Open f.val = true) :
    ∃ u, s.recorded u ∧ exec (.doorbell f i) s = .next (u.ringRung f.val i.val) := by
  have h : doorbell s f.val i.val = (if s.bar0Open f.val && decide (i.val < s.shareCount f.val) && s.recFn f.val
      then s.jrec 8 (s.shareFirst f.val + i.val) [] else s).ringDoorbell f.val i.val := if_neg (by simpa using hm)
  have hu : s.recorded (if s.bar0Open f.val && decide (i.val < s.shareCount f.val) && s.recFn f.val
      then s.jrec 8 (s.shareFirst f.val + i.val) [] else s) := State.recorded_ite (s.recorded_jrec ..) (.refl s)
  generalize (if s.bar0Open f.val && decide (i.val < s.shareCount f.val) && s.recFn f.val
      then s.jrec 8 (s.shareFirst f.val + i.val) [] else s) = u at h hu
  have hbu : u.bar0Open f.val = true := (hu.regs.read (State.bar0Open · f.val)).trans hb
  exact ⟨u, hu, congrArg Host.Outcome.next (h.trans (if_neg (by simp [hbu])))⟩

/-- Settles O41: the ring that the doorbell reaches is the one of the state before it was recorded, and each kind and state of it has
an equation of its own. -/
theorem doorbellsReachTheirRings : Obligations.DoorbellsReachTheirRings := by
  intro s f i g r go alone
  have hf := f.isLt
  refine ⟨rfl, fun hm => ?replay, fun hm hb => ?closed, fun hm hb => ?rung⟩
  case replay => exact congrArg Host.Outcome.next (if_pos (by simpa using hm))
  case closed =>
    refine congrArg Host.Outcome.next ((if_neg (by simpa using hm)).trans ?_)
    rw [hb]
    exact if_pos (by simp [hb])
  case rung =>
  obtain ⟨u, hu, hgo⟩ := doorbell_rung f i hm hb
  have hreg := hu.regs
  have hcount : u.shareCount f.val = s.shareCount f.val := hreg.shareCount hf
  have hfirst : u.shareFirst f.val + i.val = g := congrArg (· + i.val) (hreg.shareFirst hf)
  have hring : u.ring (u.shareFirst f.val + i.val) = r := by rw [hfirst]; exact hreg.ring g
  have hissue : u.canIssue f.val = s.canIssue f.val := hreg.read (State.canIssue · f.val)
  have hmode : u.mode ≠ 0xA := fun h => hm ((hreg.read State.mode).symm.trans h)
  have hout : u.out = s.out := hreg.read State.out
  have hto {t : State} (h : u.ringRung f.val i.val = t) : go = .next t := hgo.trans (congrArg Host.Outcome.next h)
  refine ⟨fun h => ?outside, fun h => ?inside⟩
  case outside =>
    refine ⟨_, hto (State.ringRung_outside (by omega)), ?_, (u.qmFnStatus_rings f.val 2).trans (hreg.read State.rings)⟩
    rw [State.reg_qmFnStatus]
    exact bit_or_four _
  have hlt : i.val < u.shareCount f.val := by omega
  have hcq (ht : r.typ = 2) : u.ringRung f.val i.val = u.cqDoorbell g f.val := by rw [State.ringRung_cq hring hlt ht, hfirst]
  rw [hfirst] at hring
  refine ⟨fun h2 h1 => ?ignored, fun ht h0 h1 => ?counted, fun ht h1 => ?scan, fun ht h1 => ?disabled, fun ht h1 hh => ?reading,
    fun ht h1 hh hc => ⟨fun hn => ?reads, fun hn => ?noRoom⟩⟩
  case ignored => exact ⟨u, hto (State.ringRung_ignored (by rwa [hfirst]) hlt h2 h1), hreg⟩
  case counted =>
    have hx := (State.ringRung_wq (by rwa [hfirst]) hlt ht h0).trans (if_neg h1)
    rw [hfirst] at hx
    exact ⟨_, hto hx, u.ring_setRing g _, hout,
      State.aloneOn_of_form hreg ⟨_, u.seq, u.out, rfl⟩ fun k hk => u.ring_setRing_other _ hk⟩
  case scan =>
    have hx := (State.ringRung_wq (by rwa [hfirst]) hlt ht (by omega)).trans (if_pos h1)
    rw [hfirst] at hx
    have hrung := u.ring_setRing g r.rung
    have hin := (u.setRing g r.rung).enterScan_entered g f.val
    have hlast := hin.lasting
    rw [hrung] at hlast
    have hbar := u.barred_setRing g f.val (x := r.rung) (by rw [hring]; rfl) (by rw [hring]; rfl)
    refine ⟨_, hto hx, Ring.read_lasting hlast (·.dbseq), Ring.read_lasting hlast (·.head),
      fun hj => hin.st (hbar.trans (hreg.barred_iff (hu.holds hj) hf)), ?_, fun hst hbuf hc k hk => ?_⟩
    · obtain ⟨x, n, o, hform⟩ := hin.form
      exact State.aloneOn_of_form hreg ⟨x, n, o, hform⟩ fun k hk => (hin.others k hk).trans (u.ring_setRing_other _ hk)
    · have hread := State.enterScan_reads hst hbuf (hissue.trans hc) (k := k) (by rw [hrung]; exact hk)
      rwa [hrung] at hread
  case disabled => exact ⟨u, hto ((hcq ht).trans (State.cqDoorbell_disabled hring h1)), hreg⟩
  case reading =>
    have hx := (hcq ht).trans ((State.cqDoorbell_enabled hring h1).trans (if_pos hh))
    exact ⟨_, hto hx, (u.setRing g r.rung).ring_setRing g _, hout, State.aloneOn_setRing hreg g _ _⟩
  all_goals
    have hx := (hcq ht).trans ((State.cqDoorbell_enabled hring h1).trans (if_neg (by simp [hh])))
    have hrung := u.ring_setRing g r.rung
    rw [← hreg.npRoom_setRing] at hn
  case reads =>
    have hx := hx.trans (State.headRead_sends hrung hmode (hissue.trans hc) hn)
    refine ⟨_, hto hx, ((u.setRing g r.rung).ring_setRing g _).trans ?_, ?_, (State.aloneOn_setRing hreg g _ _).withOut _⟩
    · rw [← hreg.read State.time]
      rfl
    · rw [← hout]
      rfl
  case noRoom =>
    have hx := hx.trans (State.headRead_noRoom hrung (hissue.trans hc) hn)
    exact ⟨_, hto hx, (u.setRing g r.rung).ring_setRing g _, hout, State.aloneOn_setRing hreg g _ _⟩

end Sys2Proof.Machine

namespace Sys2Proof.Machine

set_option Elab.async false

/-! # The turn of a scan (R175, R180, R330) -/

/-! ## Records read and written

`onlyMem` leaves the journal's registers open; a read or write of a record by the hardware leaves them alone as well. -/

/-- From s to t records of memory have been read or written: beside them only the memory system's own registers may have changed. -/
structure memRecords (s t : State) : Prop where
  mem : onlyMem s t
  reg : ∀ b, b / 0x100000 ≠ 0x49 → t.reg b = s.reg b

theorem memRecords.refl (s : State) : memRecords s s := ⟨.refl s, fun _ _ => rfl⟩

theorem memRecords.trans {s t u : State} (h : memRecords s t) (k : memRecords t u) : memRecords s u :=
  ⟨h.mem.trans k.mem, fun b hb => (k.reg b hb).trans (h.reg b hb)⟩

theorem memRecords_ite {s t u : State} {p : Prop} [Decidable p] (h : memRecords s t) (k : memRecords s u) :
    memRecords s (if p then t else u) := by
  split
  · exact h
  · exact k

theorem memRecords_foldl {α : Type} {f : State → α → State} (hf : ∀ t x, memRecords t (f t x)) (l : List α) (s : State) :
    memRecords s (l.foldl f s) := by
  induction l generalizing s with
  | nil => exact .refl s
  | cons x l ih => exact (hf s x).trans (ih (f s x))

theorem memRecords_setReg (s : State) {a : Nat} (v : Word) (ha : a / 0x100000 = 0x49) : memRecords s (s.setReg a v) :=
  ⟨onlyMem_setReg s v ha, fun b hb => (State.reg_setReg s a b v).trans (if_neg fun h => hb (by rw [h]; exact ha))⟩

theorem memRecords_setStatus (s : State) {a : Nat} (v : Word) (ha : a / 0x100000 = 0x49) : memRecords s (s.setStatus a v) :=
  ⟨onlyMem_setStatus s v ha, fun b hb => (State.reg_setStatus s a b v).trans (if_neg fun h => hb (by rw [h]; exact ha))⟩

theorem memRecords_eccEvent (s : State) (w : Nat) (m : EccMark) (master owner : Nat) : memRecords s (s.eccEvent w m master owner) := by
  unfold State.eccEvent
  refine memRecords_ite (.refl s) ?_
  extract_lets kind syn s1 held rec_ info s2 s3 s4 filtered g det s5
  have h1 : memRecords s s1 := memRecords_ite (.refl s) ⟨⟨rfl, fun _ _ _ => rfl⟩, fun _ _ => rfl⟩
  have h2 : memRecords s1 s2 := memRecords_ite ((memRecords_setReg _ _ rfl).trans (memRecords_setReg _ _ rfl)) (.refl _)
  have h3 : memRecords s2 s3 := memRecords_setStatus _ _ rfl
  have h4 : memRecords s3 s4 := memRecords_ite (memRecords_setReg _ _ rfl) (memRecords_ite (memRecords_setReg _ _ rfl) (.refl _))
  have h := ((h1.trans h2).trans h3).trans h4
  have h5 : memRecords s4 s5 := ⟨⟨rfl, fun _ _ _ => rfl⟩, fun _ _ => rfl⟩
  exact memRecords_ite h (memRecords_ite ((h.trans h5).trans ⟨⟨rfl, fun _ _ _ => rfl⟩, fun _ _ => rfl⟩) (h.trans h5))

theorem memRecords_hwCheck (s : State) (w master owner : Nat) : memRecords s (s.hwCheck w master owner) := memRecords_eccEvent ..

theorem memRecords_eccEventIn (s : State) (base n : Nat) (m : EccMark) (owner : Nat) : memRecords s (s.eccEventIn base n m owner) := by
  have hd : memRecords s s.draw.2 := ⟨⟨rfl, fun _ _ _ => rfl⟩, fun _ _ => rfl⟩
  exact memRecords_ite (.refl s) (hd.trans (memRecords_eccEvent ..))

theorem memRecords_injMark (s : State) (a : Nat) (m : EccMark) : memRecords s (s.injMark a m).2 := by
  unfold State.injMark
  split
  · dsimp only
    exact (memRecords_setReg s _ rfl).trans (memRecords_setStatus _ _ rfl)
  · exact .refl s

theorem memRecords_setEcc (s : State) (w : Nat) (m : EccMark) : memRecords s (s.setEcc w m) := ⟨onlyMem_setEcc s w m, fun _ _ => rfl⟩

theorem memRecords_hwWrite (s : State) (w : Nat) : memRecords s (s.hwWrite w) :=
  ((memRecords_setEcc s w .ok).trans (memRecords_injMark _ w _)).trans (memRecords_setEcc ..)

/-- What reads none of what a record changes reads the same. -/
theorem memRecords.read {s t : State} {α : Type} (h : memRecords s t) (f : State → α)
    (hf : ∀ (u : State) m g e c n r i p j,
      f { u with mem := m, merge := g, ecc := e, ceList := c, freeCtr := n, regs := r, irqs := i, reports := p, jn := j } = f u := by
        intros; rfl) : f t = f s := by
  obtain ⟨m, g, e, c, n, r, i, p, j, rfl⟩ := h.mem.form
  exact hf s m g e c n r i p j

theorem memRecords.ring {s t : State} (h : memRecords s t) (g : Nat) : t.ring g = s.ring g := h.read (State.ring · g)

/-! ## What decides whether a START waits (R175, R421, R494) -/

/-- The two states agree on all that decides which START waits and which queue is whose. -/
structure State.agrees (s t : State) : Prop where
  reg : ∀ b, b / 0x100000 ≠ 0x49 → t.reg b = s.reg b
  stations : t.stations = s.stations
  doms : t.doms = s.doms
  slots : t.slots = s.slots
  weir : t.weir = s.weir

theorem State.agrees.trans {s t u : State} (h : s.agrees t) (k : t.agrees u) : s.agrees u :=
  ⟨fun b hb => (k.reg b hb).trans (h.reg b hb), k.stations.trans h.stations, k.doms.trans h.doms, k.slots.trans h.slots,
    k.weir.trans h.weir⟩

theorem memRecords.agrees {s t : State} (h : memRecords s t) : s.agrees t :=
  ⟨h.reg, h.read State.stations, h.read State.doms, h.read State.slots, h.read State.weir⟩

theorem State.agrees_setRing (s : State) (g : Nat) (x : Ring) : s.agrees (s.setRing g x) := ⟨fun _ _ => rfl, rfl, rfl, rfl, rfl⟩

theorem State.entered.agrees {s t : State} {g f : Nat} (h : s.entered t g f) : s.agrees t := by
  obtain ⟨r, n, o, rfl⟩ := h.form
  exact ⟨fun _ _ => rfl, rfl, rfl, rfl, rfl⟩

section
variable {s t : State} (h : s.agrees t)
include h

theorem State.agrees.jnHolds (f : Nat) : t.jnHolds f = s.jnHolds f := by
  rw [State.jnHolds, State.jnState, State.recFn, h.reg 0x04F00010 (by decide), h.reg 0x04F00014 (by decide)]
  rfl

theorem State.agrees.shareFirst {f : Nat} (hf : f < 16) : t.shareFirst f = s.shareFirst f := by
  rw [State.shareFirst, h.reg _ (by omega)]
  rfl

theorem State.agrees.fenceClear (g : Nat) : t.fenceClear g = s.fenceClear g := by
  rw [State.fenceClear, State.busySlots, h.slots]
  rfl

theorem State.agrees.engEligible (e : Nat) : t.engEligible e = s.engEligible e := by
  rw [State.engEligible, State.engBusy, State.busySlots, State.domOn, h.reg 0x04400010 (by decide), h.reg 0x04400014 (by decide), h.doms,
    h.slots]
  rfl

theorem State.agrees.startHeld (x : Start) : t.startHeld x false = s.startHeld x false := by
  have he : t.engEligible = s.engEligible := funext h.engEligible
  have hst (k : Nat) : t.station k = s.station k := by rw [State.station, h.stations]; rfl
  rw [State.startHeld, State.startHeld, h.jnHolds, he, h.doms, State.staVALID, State.staLane, hst]
  rfl

end

theorem State.ringFn_lt {s : State} {g f : Nat} (h : s.ringFn g = some f) : f < 16 := by
  have := mem_span.1 (List.mem_of_find?_eq_some h)
  omega

/-! ## The turn is taken -/

/-- The units of ring r's buffer that can be read. -/
def Ring.readable (r : Ring) : List RUnit := r.units.filter fun u => !u.mark.bad

/-- Queue g takes its turn: its context and its buffer have been read, and the next queue comes after it (R175, R330). -/
def State.turnTaken (s : State) (g : Nat) : State :=
  if (s.ring g).ready then { (s.hwCheck (ctxAddr g) 0 31).dropBadUnits g with scanNext := (g + 1) % 16384 }
  else (s.hwCheck (ctxAddr g) 0 31).dropBadUnits g

theorem State.dropBadUnits_eq (s : State) (g : Nat) : ∃ t, memRecords s t ∧
    s.dropBadUnits g = t.setRing g { s.ring g with units := (s.ring g).readable } :=
  ⟨_, memRecords_foldl (fun t (u : RUnit) => memRecords_eccEventIn t 0x00580000 65536 u.mark 31) _ s, rfl⟩

/-- What the turn leaves: of queue g the units that can be read, every other ring as it was. -/
structure State.tookTurn (s v : State) (g : Nat) : Prop where
  agrees : s.agrees v
  ring : v.ring g = { s.ring g with units := (s.ring g).readable }
  others : ∀ k, k ≠ g → v.ring k = s.ring k

theorem State.turnTaken_took (s : State) (g : Nat) : s.tookTurn (s.turnTaken g) g := by
  have hc := memRecords_hwCheck s (ctxAddr g) 0 31
  obtain ⟨t, ht, hd⟩ := (s.hwCheck (ctxAddr g) 0 31).dropBadUnits_eq g
  have hst := hc.trans ht
  have hu : s.tookTurn ((s.hwCheck (ctxAddr g) 0 31).dropBadUnits g) g := by
    rw [hd, hc.ring]
    exact ⟨hst.agrees.trans (t.agrees_setRing g _), t.ring_setRing g _, fun k hk => (t.ring_setRing_other _ hk).trans (hst.ring k)⟩
  unfold State.turnTaken
  generalize (s.hwCheck (ctxAddr g) 0 31).dropBadUnits g = u at hu
  split
  · exact ⟨hu.agrees.trans ⟨fun _ _ => rfl, rfl, rfl, rfl, rfl⟩, hu.ring, hu.others⟩
  · exact hu

/-- What does not read the buffer reads the same of every ring. -/
theorem State.tookTurn.read {s v : State} {g : Nat} {α : Type} (h : s.tookTurn v g) (p : Ring → α) (k : Nat)
    (hp : ∀ (z : Ring) us, p { z with units := us } = p z := by intros; rfl) : p (v.ring k) = p (s.ring k) := by
  by_cases hk : k = g
  · rw [hk, h.ring, hp]
  · rw [h.others k hk]

end Sys2Proof.Machine

namespace Sys2Proof.Machine

set_option Elab.async false

/-! # What a scan makes of the unit at HEAD (R174 to R178) -/

/-! ## A queue that leaves SCAN -/

theorem State.agrees.refl (s : State) : s.agrees s := ⟨fun _ _ => rfl, rfl, rfl, rfl, rfl⟩

theorem State.asked.agrees {s t : State} {g : Nat} (h : s.asked t g) : s.agrees t := by
  obtain ⟨r, o, rfl⟩ := h.form
  exact ⟨fun _ _ => rfl, rfl, rfl, rfl, rfl⟩

theorem State.granted_agrees (s : State) (g : Nat) : s.agrees (s.granted g) := by
  have hset := s.agrees_setRing g { s.ring g with buf := true }
  unfold State.granted
  generalize s.setRing g { s.ring g with buf := true } = t at hset
  split
  · next f _ => exact hset.trans (t.asked_prefetch g f).agrees
  · exact hset

theorem State.leaveScan_agrees (s : State) (g st : Nat) : s.agrees (s.leaveScan g st) := by
  have hset := s.agrees_setRing g ((s.ring g).left st)
  have hl : s.leaveScan g st = (s.setRing g ((s.ring g).left st)).grantBuffer := rfl
  rw [hl]
  generalize s.setRing g ((s.ring g).left st) = t at hset
  refine hset.trans ?_
  rcases t.grantBuffer_form with h | ⟨e, -, -, h⟩
  · rw [h]
    exact .refl t
  · rw [h]
    exact t.granted_agrees e.1

theorem State.qmFnStatus_weir (s : State) (f i : Nat) : (s.qmFnStatus f i).weir = s.weir := by
  obtain ⟨n, o, h⟩ := s.qmFnStatus_fired f i
  rw [h]
  rfl

/-- A queue error: the queue is in ERROR with its code and the place of the entry, and QERR is set (R178). -/
theorem State.queueError_spec (s : State) (g f code : Nat) :
    ((s.queueError g f code).ring g).st = 4 ∧ ((s.queueError g f code).ring g).errcode = code ∧
      ((s.queueError g f code).ring g).errIndex = (s.ring g).head ∧ ((s.queueError g f code).ring g).head = (s.ring g).head ∧
      bit ((s.queueError g f code).reg (0x04200004 + 0x10000 * f)) 1 = true ∧ (s.queueError g f code).weir = s.weir := by
  have hleft := s.leaveScan_ring g (st := 4) (by decide)
  have hw := (s.leaveScan_agrees g 4).weir
  unfold State.queueError
  extract_lets t r u w det
  change t.ring g = _ at hleft
  change t.weir = _ at hw
  have hr : r = (s.ring g).left 4 := hleft
  clear_value t
  have hu : u.ring g = { r with errIndex := r.head, errcode := code } :=
    ((memRecords_hwWrite _ _).ring g).trans (State.ring_setRing t g _)
  have huw : u.weir = s.weir := (memRecords_hwWrite _ _).agrees.weir.trans ((t.agrees_setRing g _).weir.trans hw)
  have hwu : w.ring g = u.ring g := by rw [State.ring, u.qmFnStatus_rings f 1]; rfl
  have hbit : bit (w.reg (0x04200004 + 0x10000 * f)) 1 = true := by
    rw [u.reg_qmFnStatus]
    exact bit_or_two _
  have hww : w.weir = u.weir := u.qmFnStatus_weir f 1
  rw [hu, hr] at hwu
  have hring : (w.report 39 det (if code = 9 then 1 else 0) f 0 (32 + f) (BitVec.ofNat 32 code)).ring g = w.ring g := rfl
  rw [hring, hwu]
  exact ⟨rfl, rfl, rfl, rfl, hbit, hww.trans huw⟩

/-- A queue whose START waits: the journal holds it, or it keeps the START whose domain is powering up. -/
theorem State.holdStart_ring (s : State) (g f : Nat) (x : Start) : (s.holdStart g f x).ring g =
    if s.jnHolds f then { (s.ring g).left 3 with jnHold := true } else { (s.ring g).left 3 with heldStart := some x } := by
  have hj := (s.leaveScan_agrees g 3).jnHolds f
  have hleft := s.leaveScan_ring g (st := 3) (by decide)
  unfold State.holdStart
  dsimp only
  rw [State.ring_setRing, hj, hleft]

/-! ## The entry's units -/

/-- The units of an entry at HEAD that has `n` of them after the first. -/
def Ring.entryUnits (r : Ring) (n : Nat) : List (List Byte) :=
  (span r.head (n + 1)).map fun i => match r.units.find? (fun x => x.idx == i) with | some x => x.data | none => []

theorem Ring.entryUnits_first {r : Ring} {u : RUnit} (hu : r.units.find? (fun x => x.idx == r.head) = some u) (n : Nat) :
    ((r.entryUnits n)[0]?).getD [] = u.data := by
  unfold Ring.entryUnits
  simp [span, hu]

/-- What the turn does with the checked units of the entry at HEAD, u the first of them. -/
def State.scanEntry (s : State) (g f : Nat) (u : RUnit) : ContCheck → State
  | .read v => s.reread g f v
  | .lapMismatch => s.queueError g f 4
  | .owned =>
    if reservedSet ((s.ring g).entryUnits (unitLen u.data)) then s.queueError g f 5
    else s.actOn g f ((s.ring g).entryUnits (unitLen u.data))

/-- What the turn does with u, the unit at HEAD. -/
def State.scanUnit (s : State) (g f : Nat) (u : RUnit) : State :=
  if !unitOwned u.data (s.ring g).lapx then
    if u.tag != (s.ring g).dbseq then s.reread g f (s.ring g).head else s.leaveScan g 1
  else if !typeOk (unitType u.data) then s.queueError g f 1
  else if !lenOk (unitType u.data) (unitLen u.data) then s.queueError g f 2
  else if (s.ring g).head + unitLen u.data ≥ (s.ring g).units16 then s.queueError g f 3
  else s.scanEntry g f u (contCheck (s.ring g) u (unitLen u.data))

/-- What the turn does once it is taken. -/
def State.scanHead (s : State) (g f : Nat) : State :=
  if (s.ring (s.cqOf f (s.ring g))).blocked then (s.leaveScan g 3).setRing g { (s.leaveScan g 3).ring g with heldBlock := true }
  else match (s.ring g).units.find? (fun u => u.idx == (s.ring g).head) with
    | none => if (s.ring g).reads.any (fun q => q.unit == alignDown (s.ring g).head 4) then s else s.lineRead g f (s.ring g).head
    | some u => s.scanUnit g f u

section
variable {s : State} {g f : Nat}

theorem State.scanTurn_eq (s : State) (g f : Nat) : s.scanTurn g f =
    if (s.ring g).typ != 1 || (s.ring g).st != 2 || !(s.ring g).buf || (s.ring g).inWeir || !s.canIssue f then s
    else if (s.ring g).ready && !s.isTurn g then s
    else if s.hwBad (ctxAddr g) then (s.hwCheck (ctxAddr g) 0 31).queueError g f 9
    else (s.turnTaken g).scanHead g f := rfl

theorem State.scanTurn_off (h : ((s.ring g).typ != 1 || (s.ring g).st != 2 || !(s.ring g).buf || (s.ring g).inWeir || !s.canIssue f) = true) :
    s.scanTurn g f = s := (s.scanTurn_eq g f).trans (if_pos h)

theorem State.scanTurn_waits (hr : (s.ring g).ready = true) (ht : s.isTurn g = false) : s.scanTurn g f = s := by
  rw [State.scanTurn_eq, hr, ht]
  exact ite_self s

theorem State.scanTurn_on (h : (s.ring g).typ = 1 ∧ (s.ring g).st = 2 ∧ (s.ring g).buf = true) (hw : (s.ring g).inWeir = false)
    (hc : s.canIssue f = true) (ht : (s.ring g).ready = true → s.isTurn g = true) : s.scanTurn g f =
    if s.hwBad (ctxAddr g) then (s.hwCheck (ctxAddr g) 0 31).queueError g f 9 else (s.turnTaken g).scanHead g f := by
  obtain ⟨htyp, hst, hbuf⟩ := h
  refine (s.scanTurn_eq g f).trans ((if_neg (by simp [htyp, hst, hbuf, hw, hc])).trans (if_neg ?_))
  simpa using ht

theorem State.scanHead_blocked (h : (s.ring (s.cqOf f (s.ring g))).blocked = true) :
    ((s.scanHead g f).ring g) = { (s.ring g).left 3 with heldBlock := true } ∧ (s.scanHead g f).weir = s.weir := by
  have hleft := s.leaveScan_ring g (st := 3) (by decide)
  have hw := (s.leaveScan_agrees g 3).weir
  have hx : s.scanHead g f = _ := if_pos h
  rw [hx]
  generalize s.leaveScan g 3 = t at hleft hw
  rw [State.ring_setRing, hleft]
  exact ⟨rfl, hw⟩

theorem State.scanHead_unit (h : (s.ring (s.cqOf f (s.ring g))).blocked = false) {u : RUnit}
    (hu : (s.ring g).units.find? (fun u => u.idx == (s.ring g).head) = some u) : s.scanHead g f = s.scanUnit g f u := by
  refine (if_neg (by simp [h])).trans ?_
  rw [hu]

variable {u : RUnit}

theorem State.scanUnit_idle (h : unitOwned u.data (s.ring g).lapx = false) (ht : u.tag = (s.ring g).dbseq) :
    s.scanUnit g f u = s.leaveScan g 1 := (if_pos (by simp [h])).trans (if_neg (by simp [ht]))

theorem State.scanUnit_reread (h : unitOwned u.data (s.ring g).lapx = false) (ht : u.tag ≠ (s.ring g).dbseq) :
    s.scanUnit g f u = s.reread g f (s.ring g).head := (if_pos (by simp [h])).trans (if_pos (by simp [ht]))

section
variable (h : unitOwned u.data (s.ring g).lapx = true)
include h

theorem State.scanUnit_type (ht : typeOk (unitType u.data) = false) : s.scanUnit g f u = s.queueError g f 1 :=
  (if_neg (by simp [h])).trans (if_pos (by simp [ht]))

variable (ht : typeOk (unitType u.data) = true)
include ht

theorem State.scanUnit_len (hl : lenOk (unitType u.data) (unitLen u.data) = false) : s.scanUnit g f u = s.queueError g f 2 :=
  (if_neg (by simp [h])).trans ((if_neg (by simp [ht])).trans (if_pos (by simp [hl])))

variable (hl : lenOk (unitType u.data) (unitLen u.data) = true)
include hl

theorem State.scanUnit_end (he : (s.ring g).units16 ≤ (s.ring g).head + unitLen u.data) : s.scanUnit g f u = s.queueError g f 3 :=
  (if_neg (by simp [h])).trans ((if_neg (by simp [ht])).trans ((if_neg (by simp [hl])).trans (if_pos he)))

theorem State.scanUnit_entry (he : (s.ring g).head + unitLen u.data < (s.ring g).units16) :
    s.scanUnit g f u = s.scanEntry g f u (contCheck (s.ring g) u (unitLen u.data)) :=
  (if_neg (by simp [h])).trans ((if_neg (by simp [ht])).trans ((if_neg (by simp [hl])).trans (if_neg (by omega))))

end

/-- A unit is read again: the queue stays in SCAN, needs the unit, and reads its line (R174). -/
theorem State.reread_spec (s : State) (g f k : Nat) : ((s.reread g f k).ring g).st = (s.ring g).st ∧
    ((s.reread g f k).ring g).need = some k ∧ ∃ q ∈ ((s.reread g f k).ring g).reads, q.unit = alignDown k 4 := by
  unfold State.reread
  dsimp only
  split
  · next h =>
    obtain ⟨q, hq, hu⟩ := List.any_eq_true.1 h
    rw [State.ring_setRing]
    exact ⟨rfl, rfl, q, hq, by simpa using hu⟩
  · have hring := s.ring_setRing g { s.ring g with units := (s.ring g).units.filter (fun x => x.idx != k), need := some k }
    generalize s.setRing g _ = t at hring
    obtain ⟨o, q, hu, -, hq⟩ := t.lineRead_form g f k
    have hx : (t.lineRead g f k).ring g = { t.ring g with ev := (t.ring g).ev + 1, reads := (t.ring g).reads ++ [q] } := by
      rw [hq]
      exact State.ring_setRing t g _
    rw [hx, hring]
    exact ⟨rfl, rfl, q, List.mem_append_right _ List.mem_cons_self, hu⟩

/-! ## Acting on an entry (R175) -/

variable {us : List (List Byte)}

/-- The START that the units spell, as the queue would send it. -/
def State.startAt (s : State) (g f : Nat) (us : List (List Byte)) (inRing : Bool) : Start :=
  startOf us g f (s.ring g).head inRing (s.cqOf f (s.ring g))

theorem State.actOn_start (ht : unitType ((us[0]?).getD []) = 1) : s.actOn g f us =
    if s.startHeld (s.startAt g f us true) false then s.holdStart g f (s.startAt g f us true)
    else match s.reserve (s.cqOf f (s.ring g)) f with
      | none => s.leaveScan g 3
      | some (inRing, t) => State.roomUpdate
          { t.setRing g { t.ring g with inWeir := true } with
            weir := (t.setRing g { t.ring g with inWeir := true }).weir ++ [s.startAt g f us inRing] } (s.cqOf f (s.ring g)) :=
  if_pos ht

theorem State.actOn_deliver (h2 : 2 ≤ unitType ((us[0]?).getD [])) (h5 : unitType ((us[0]?).getD []) ≤ 5) :
    s.actOn g f us = ((s.deliver f ((us[0]?).getD [])).consume g 1).prefetch g f :=
  (if_neg (by omega)).trans (if_pos (by omega))

/-- A FENCE that is not clear holds its queue. -/
theorem State.actOn_fence (ht : unitType ((us[0]?).getD []) = 6) (hc : s.fenceClear g = false) :
    ∃ n, (s.actOn g f us).ring g = { (s.ring g).left 3 with fence := some n } ∧ (s.actOn g f us).weir = s.weir := by
  have hleft := s.leaveScan_ring g (st := 3) (by decide)
  have hw := (s.leaveScan_agrees g 3).weir
  have hx : s.actOn g f us = _ :=
    (if_neg (by omega)).trans ((if_neg (by omega)).trans ((if_pos ht).trans (if_pos (by simp [hc]))))
  rw [hx]
  generalize s.leaveScan g 3 = t at hleft hw
  dsimp only
  rw [State.ring_setRing, hleft]
  exact ⟨_, rfl, hw⟩

theorem State.reserve_full {c : Nat} (hr : (s.ring c).room = 0) (hp : 64 ≤ s.parkUsed f) : s.reserve c f = none :=
  (if_neg (by omega)).trans (if_neg (by omega))

theorem State.reserve_room {c : Nat} (hr : 1 ≤ (s.ring c).room) :
    s.reserve c f = some (true, s.setRing c { s.ring c with resRing := (s.ring c).resRing + 1 }) := if_pos hr

/-- A START finds no room: its queue is HELD. -/
theorem State.actOn_start_full (ht : unitType ((us[0]?).getD []) = 1) (hr : (s.ring (s.cqOf f (s.ring g))).room = 0)
    (hp : 64 ≤ s.parkUsed f) : ((s.actOn g f us).ring g).st = 3 ∧ (s.actOn g f us).weir = s.weir := by
  rw [State.actOn_start ht, State.reserve_full hr hp]
  split
  · exact ⟨(s.holdStart_spec g f _).2, (s.holdStart_spec g f _).1⟩
  · rw [s.leaveScan_ring g (by decide)]
    exact ⟨rfl, (s.leaveScan_agrees g 3).weir⟩

end

/-! ## A START inside Weir keeps its queue as it is -/

/-- The queues of a blocked ring are held but for one that has a buffer and a START inside Weir. -/
theorem State.entriesOf_holdQueues {s : State} {g : Nat} (c : Nat) (h : ∀ e ∈ s.entriesOf g, e.2.inWeir = true ∧ e.2.buf = true) :
    (s.holdQueues c).entriesOf g = s.entriesOf g := by
  unfold State.holdQueues
  split
  · rfl
  · next f _ =>
    extract_lets t
    have hrings : t.rings = s.rings.map fun e => (e.1, s.heldRing c f e.1 e.2) := by
      refine List.map_congr_left fun p _ => ?_
      dsimp only
      unfold State.heldRing
      split <;> rfl
    have ht : t.entriesOf g = s.entriesOf g := by
      unfold State.entriesOf
      rw [hrings, List.filter_map]
      refine (List.map_congr_left fun e he => ?_).trans (List.map_id _)
      have hw := (h e he).1
      simp [State.heldRing, hw]
    have hwait : t.unwaiting g := fun e he => by
      rw [ht] at he
      simp [Ring.waits, (h e he).2]
    rw [State.entriesOf_grantBuffers hwait, ht]

theorem State.entriesOf_stallUpdate {s : State} {g c : Nat} (h : c ≠ g) : (s.stallUpdate c).entriesOf g = s.entriesOf g := by
  unfold State.stallUpdate
  dsimp only
  split
  · rfl
  · split
    · exact s.entriesOf_setRing_other _ h
    · exact s.entriesOf_setRing_other _ h
    · rfl

theorem State.entriesOf_roomUpdate {s : State} {g c : Nat} (hc : c ≠ g) (h : ∀ e ∈ s.entriesOf g, e.2.inWeir = true ∧ e.2.buf = true) :
    (s.roomUpdate c).entriesOf g = s.entriesOf g := by
  unfold State.roomUpdate
  rw [State.entriesOf_stallUpdate hc]
  split
  · exact State.entriesOf_holdQueues c h
  · rfl

/-- A START goes to Weir with a reservation of its completion ring (R118, R175). -/
theorem State.actOn_start_sent {s : State} {g f : Nat} {us : List (List Byte)} (ht : unitType ((us[0]?).getD []) = 1)
    (hb : (s.ring g).buf = true) (hh : s.startHeld (s.startAt g f us true) false = false) (hc : s.cqOf f (s.ring g) ≠ g)
    (hr : 1 ≤ (s.ring (s.cqOf f (s.ring g))).room) :
    (s.actOn g f us).weir = s.weir ++ [s.startAt g f us true] ∧ (s.actOn g f us).ring g = { s.ring g with inWeir := true } ∧
      ((s.actOn g f us).ring (s.cqOf f (s.ring g))).resRing = (s.ring (s.cqOf f (s.ring g))).resRing + 1 := by
  rw [State.actOn_start ht, if_neg (by simp [hh]), State.reserve_room hr]
  dsimp only
  generalize s.startAt g f us true = x
  generalize s.cqOf f (s.ring g) = c at hc
  have hg := s.ring_setRing_other { s.ring c with resRing := (s.ring c).resRing + 1 } (Ne.symm hc)
  have hres := s.ring_setRing c { s.ring c with resRing := (s.ring c).resRing + 1 }
  have htw : (s.setRing c { s.ring c with resRing := (s.ring c).resRing + 1 }).weir = s.weir := rfl
  generalize s.setRing c { s.ring c with resRing := (s.ring c).resRing + 1 } = t at hg hres htw
  rw [hg]
  have hin := t.ring_setRing g { s.ring g with inWeir := true }
  have hout := t.ring_setRing_other { s.ring g with inWeir := true } hc
  have hent (e : Nat × Ring) (he : e ∈ (t.setRing g { s.ring g with inWeir := true }).entriesOf g) : e.2.inWeir = true ∧ e.2.buf = true := by
    rw [State.mem_entriesOf_setRing he]
    exact ⟨rfl, hb⟩
  have hvw : (t.setRing g { s.ring g with inWeir := true }).weir = t.weir := rfl
  generalize t.setRing g { s.ring g with inWeir := true } = v at hin hout hent hvw
  have hroom := State.ringWork_roomUpdate { v with weir := v.weir ++ [x] } c
  have hkeep := State.ring_of_entriesOf (State.entriesOf_roomUpdate (s := { v with weir := v.weir ++ [x] }) hc hent)
  refine ⟨?_, hkeep.trans hin, ?_⟩
  · rw [hroom.weir, hvw, htw]
  · exact (Ring.read_account (hroom.ring c) (·.resRing)).trans (congrArg Ring.resRing (hout.trans hres))

end Sys2Proof.Machine

namespace Sys2Proof.Machine

set_option Elab.async false

/-! # Reads that return, fences and queues that resume (R91, R174 to R176) -/

/-- Queue r is in SCAN and has a buffer. -/
def Ring.scans (r : Ring) : Prop := r.typ = 1 ∧ r.st = 2 ∧ r.buf = true

section
variable {s : State} {g f : Nat}

theorem scanReadReturn_off (h : s.ringFn g = none ∨ ¬ (s.ring g).scans) (ret : Option (Nat × HostResult)) :
    scanReadReturn s g ret = s := by
  unfold scanReadReturn
  split
  · rfl
  · next f hf =>
    have hs : ¬ (s.ring g).scans := h.resolve_left (by simp [hf])
    refine if_pos ?_
    simpa [Ring.scans, imp_iff_not_or, or_assoc] using hs

theorem scanReadReturn_turn (hf : s.ringFn g = some f) (h : (s.ring g).scans) : scanReadReturn s g none = s.scanTurn g f := by
  obtain ⟨ht, hs, hb⟩ := h
  unfold scanReadReturn
  rw [hf]
  exact if_neg (by simp [ht, hs, hb])

theorem scanReadReturn_read (hf : s.ringFn g = some f) (h : (s.ring g).scans) (i : Nat) (res : HostResult) :
    scanReadReturn s g (some (i, res)) = (s.scanReturn g f i res).scanTurn g f := by
  obtain ⟨ht, hs, hb⟩ := h
  unfold scanReadReturn
  rw [hf]
  exact if_neg (by simp [ht, hs, hb])

/-! ## A read that returns (R174, R176) -/

/-- Queue r when its i-th read has returned. -/
def Ring.returned (r : Ring) (i : Nat) : Ring := { r with reads := r.reads.eraseIdx i, ev := r.ev + 1 }

/-- The units of line q that replace what the buffer holds. -/
def Ring.newUnits (r : Ring) (q : ScanRead) (d : List Byte) (m : EccMark) : List RUnit :=
  (lineUnits q (r.ev + 1) d m).filter fun v => !(r.units.any fun u => r.keeps u && u.idx == v.idx)

/-- Queue r when line d has come to its buffer. -/
def Ring.filled (r : Ring) (i : Nat) (q : ScanRead) (d : List Byte) (m : EccMark) : Ring :=
  { r.returned i with
    units := r.units.filter (fun u => !((r.newUnits q d m).any fun v => v.idx == u.idx)) ++ r.newUnits q d m, need := none }

/-- The buffer then holds each unit of the line: the one that was kept, or the new one. -/
theorem Ring.filled_units (r : Ring) (i : Nat) (q : ScanRead) (d : List Byte) (m : EccMark) {k : Nat} (hk : k < 4) :
    ∃ x ∈ (r.filled i q d m).units, x.idx = q.unit + k := by
  have hline : ∃ x ∈ lineUnits q (r.ev + 1) d m, x.idx = q.unit + k :=
    ⟨_, List.mem_map.2 ⟨k, mem_span.2 ⟨Nat.zero_le k, by omega⟩, rfl⟩, rfl⟩
  obtain ⟨x, hx, hxi⟩ := hline
  by_cases hkept : r.units.any (fun u => r.keeps u && u.idx == x.idx) = true
  · obtain ⟨u, hu, huk⟩ := List.any_eq_true.1 hkept
    obtain ⟨hkeep, hux⟩ : r.keeps u = true ∧ u.idx = x.idx := by simpa using huk
    refine ⟨u, List.mem_append_left _ (List.mem_filter.2 ⟨hu, ?_⟩), hux.trans hxi⟩
    rw [Bool.not_eq_true', List.any_eq_false]
    intro v hv hvu
    obtain ⟨-, hvn⟩ := List.mem_filter.1 hv
    rw [Bool.not_eq_true', List.any_eq_false] at hvn
    have hvi : v.idx = u.idx := by simpa using hvu
    exact hvn u hu (by simp [hkeep, hvi])
  · exact ⟨x, List.mem_append_right _ (List.mem_filter.2 ⟨hx, by simpa using hkept⟩), hxi⟩

/-- What is recorded and logged when a read returns. -/
def State.readLogged (s : State) (g f : Nat) (q : ScanRead) (res : HostResult) : State :=
  (s.jHostRead f ((s.ring g).base.toNat + 16 * q.unit) res).timedOut f (if s.carried then res else .noTunnel)

/-- The error code of a read that fails (R177). -/
def readError : HostResult → Nat
  | .poisoned => 7
  | .timeout => 8
  | _ => 6

section
variable {i : Nat} {q : ScanRead} (hq : (s.ring g).reads[i]? = some q) (hs : q.sent = true)
include hq hs

theorem State.scanReturn_ok (d : List Byte) : s.scanReturn g f i (.ok d) =
    ((s.readLogged g f q (.ok d)).injMark 0x00580000 .ok).2.setRing g
      ((s.ring g).filled i q d ((s.readLogged g f q (.ok d)).injMark 0x00580000 .ok).1) := by
  have hlog : (s.jHostRead f ((s.ring g).base.toNat + 16 * q.unit) (.ok d)).timedOut f (if s.carried then .ok d else .noTunnel) =
    s.readLogged g f q (.ok d) := rfl
  unfold State.scanReturn
  dsimp only
  rw [hq]
  refine (if_neg (by simp [hs])).trans ?_
  rw [hlog]
  rfl

/-- A read that fails and that the scan needs is a queue error. -/
theorem State.scanReturn_fails {res : HostResult} (hn : res ≠ .noTunnel) (hok : ∀ d, res ≠ .ok d) (hu : q.unit = alignDown (s.ring g).head 4)
    (hc : (s.readLogged g f q res).carried = true) : s.scanReturn g f i res =
      ((s.readLogged g f q res).setRing g ((s.ring g).returned i)).queueError g f
        (readError res) := by
  unfold State.scanReturn
  dsimp only
  rw [hq]
  refine (if_neg (by simp [hs])).trans ?_
  cases res with
  | ok d => exact absurd rfl (hok d)
  | noTunnel => exact absurd rfl hn
  | ur | ca | poisoned | timeout => exact if_pos (by rw [Bool.and_eq_true]; exact ⟨by simp [hu], hc⟩)

end

theorem State.setCfgs_tunnel (s : State) (f off : Nat) (l : List Word) : (s.setCfgs f off l).tunnel = s.tunnel := by
  induction l generalizing s off with
  | nil => rfl
  | cons v l ih => exact (ih (s.setCfg f off v) (off + 4)).trans rfl

theorem State.aerLog_tunnel (s : State) (f i : Nat) (header : List Word) : (s.aerLog f i header).tunnel = s.tunnel := by
  unfold State.aerLog
  extract_lets unc free t u
  have hu : u.tunnel = s.tunnel := rfl
  clear_value u
  split
  · exact (State.setCfgs_tunnel _ f _ _).trans hu
  · exact hu

theorem State.timedOut_tunnel (s : State) (f : Nat) (res : HostResult) : (s.timedOut f res).tunnel = s.tunnel := by
  unfold State.timedOut
  split
  · extract_lets t
    have ht : t.tunnel = s.tunnel :=
      ((onlyRegs_setStatus _ _ _).read State.tunnel).trans ((onlyRegs_setReg s _ _).read State.tunnel)
    clear_value t
    exact (t.aerLog_tunnel f 14 []).trans ht
  · rfl

/-- The record and the log of a timeout leave the tunnel. -/
theorem State.readLogged_tunnel (s : State) (g f : Nat) (q : ScanRead) (res : HostResult) : (s.readLogged g f q res).tunnel = s.tunnel := by
  have hj : (s.jHostRead f ((s.ring g).base.toNat + 16 * q.unit) res).tunnel = s.tunnel := by
    unfold State.jHostRead
    split
    · rfl
    · exact (onlyRegs_jrec ..).read State.tunnel
  unfold State.readLogged
  generalize s.jHostRead f ((s.ring g).base.toNat + 16 * q.unit) res = t at hj
  exact (t.timedOut_tunnel f _).trans hj

section
variable {i : Nat} {q : ScanRead} (hq : (s.ring g).reads[i]? = some q) (hs : q.sent = true)
include hq hs

/-- A line comes to the buffer of a queue whose START is inside Weir: nothing is scanned. -/
theorem State.scanReturn_line (hw : (s.ring g).inWeir = true) (d : List Byte) :
    ∃ m, ((s.scanReturn g f i (.ok d)).scanTurn g f).ring g = (s.ring g).filled i q d m := by
  have hx := State.scanReturn_ok (f := f) hq hs d
  generalize (s.readLogged g f q (.ok d)).injMark 0x00580000 .ok = p at hx
  have hring := p.2.ring_setRing g ((s.ring g).filled i q d p.1)
  rw [← hx] at hring
  have hfill : ((s.ring g).filled i q d p.1).inWeir = true := hw
  rw [State.scanTurn_off (by rw [hring, hfill]; simp)]
  exact ⟨p.1, hring⟩

/-- The queue is in ERROR, and is scanned no more. -/
theorem State.scanReturn_error {res : HostResult} (hn : res ≠ .noTunnel) (hok : ∀ d, res ≠ .ok d) (hu : q.unit = alignDown (s.ring g).head 4)
    (hc : s.carried = true) : ∃ t, (s.scanReturn g f i res).scanTurn g f = t ∧ (t.ring g).st = 4 ∧ (t.ring g).errcode = readError res ∧
      (t.ring g).errIndex = (s.ring g).head := by
  have hx := State.scanReturn_fails (f := f) hq hs hn hok hu (by rw [State.carried, State.readLogged_tunnel]; exact hc)
  have hret := (s.readLogged g f q res).ring_setRing g ((s.ring g).returned i)
  generalize (s.readLogged g f q res).setRing g ((s.ring g).returned i) = u at hx hret
  obtain ⟨hst, hcode, hidx, -⟩ := u.queueError_spec g f (readError res)
  rw [← hx] at hst hcode hidx
  rw [hret] at hidx
  exact ⟨_, State.scanTurn_off (by rw [hst]; simp), hst, hcode, hidx⟩

end

/-! ## A fence that clears (R91) -/

theorem wqFence_none (h : (s.ring g).fence = none) : wqFence s g = s := by
  unfold wqFence
  dsimp only
  rw [h]

theorem wqFence_waits {x : Bool × Word} (hx : (s.ring g).fence = some x) (hf : s.ringFn g = some f) (h : s.fenceClear g = false) :
    wqFence s g = s := by
  unfold wqFence
  dsimp only
  rw [hx, hf]
  exact if_pos (by simp [h])

theorem wqFence_clear {tag : Word} (hx : (s.ring g).fence = some (false, tag)) (hf : s.ringFn g = some f) (hst : (s.ring g).st = 3)
    (h : s.fenceClear g = true) (hb : (s.ring (s.cqOf f (s.ring g))).blocked = false)
    (hh : (s.ring g).heldBlock = true → (s.ring (s.cqOf f (s.ring g))).backlog = []) :
    wqFence s g = (s.consume g 1).enterScan g f := by
  unfold wqFence
  dsimp only
  rw [hx, hf]
  refine (if_neg ?_).trans (if_neg (by decide))
  simpa [hst, h, hb] using hh

/-- A queue consumes the entry at HEAD. -/
theorem State.consume_spec (s : State) (g n : Nat) : s.agrees (s.consume g n) ∧ ((s.consume g n).ring g).consumed = (s.ring g).consumed + 1#32 ∧
    (∀ k, ((s.consume g n).ring k).blocked = (s.ring k).blocked) ∧ ((s.consume g n).ring g).cq = (s.ring g).cq := by
  unfold State.consume
  extract_lets r h wrap
  have hset (x : Ring) (hc : x.consumed = r.consumed + 1#32) (hb : x.blocked = r.blocked) (hq : x.cq = r.cq) :
      s.agrees ((s.setRing g x).hwWrite (ctxAddr g)) ∧ (((s.setRing g x).hwWrite (ctxAddr g)).ring g).consumed = r.consumed + 1#32 ∧
        (∀ k, (((s.setRing g x).hwWrite (ctxAddr g)).ring k).blocked = (s.ring k).blocked) ∧
        (((s.setRing g x).hwWrite (ctxAddr g)).ring g).cq = r.cq := by
    have hw := memRecords_hwWrite (s.setRing g x) (ctxAddr g)
    have hb' := s.read_setRing (·.blocked) hb
    rw [hw.ring, State.ring_setRing]
    exact ⟨(s.agrees_setRing g x).trans hw.agrees, hc, fun k => by rw [hw.ring]; exact hb' k, hq⟩
  exact hset _ rfl rfl rfl

/-- A queue whose completion ring is not blocked is barred by the journal alone. -/
theorem State.barred_iff_jnHolds (h : (s.ring (s.cqOf f (s.ring g))).blocked = false) : s.barred g f ↔ s.jnHolds f = true := by
  unfold State.barred
  simp [h]

/-- A queue whose FENCE is consumed scans on, unless the journal holds it. -/
theorem State.consume_enterScan (hf : f < 16) (n : Nat) (hb : (s.ring (s.cqOf f (s.ring g))).blocked = false) :
    ∃ t, (s.consume g n).enterScan g f = t ∧ (t.ring g).fence = none ∧ (t.ring g).consumed = (s.ring g).consumed + 1#32 ∧
      (t.ring g).st = (if s.jnHolds f then 3 else 2) ∧ t.weir = s.weir := by
  obtain ⟨hag, hcons, hbl, hcqr⟩ := s.consume_spec g n
  have hcq : (s.consume g n).cqOf f ((s.consume g n).ring g) = s.cqOf f (s.ring g) := by
    rw [State.cqOf, hag.shareFirst hf, hcqr]
    rfl
  generalize s.consume g n = u at hag hcons hbl hcq
  have hin := u.enterScan_entered g f
  have hbar := State.barred_iff_jnHolds (s := u) (g := g) (f := f) (by rw [hbl, hcq]; exact hb)
  rw [hag.jnHolds] at hbar
  exact ⟨_, rfl, hin.fence, (Ring.read_lasting hin.lasting (·.consumed)).trans hcons, hin.st hbar, hin.agrees.weir.trans hag.weir⟩

/-! ## A queue that resumes (R175) -/

/-- A queue whose completion ring is not blocked enters SCAN, or is held by the journal. -/
theorem State.enterScan_unblocked (h : (s.ring (s.cqOf f (s.ring g))).blocked = false) :
    ∃ t, s.enterScan g f = t ∧ (t.ring g).st = (if s.jnHolds f then 3 else 2) ∧ (t.ring g).head = (s.ring g).head ∧
      (t.ring g).heldBlock = false ∧ ∀ k, k ≠ g → t.ring k = s.ring k := by
  have hin := s.enterScan_entered g f
  have hbar := State.barred_iff_jnHolds h
  refine ⟨_, rfl, hin.st hbar, Ring.read_lasting hin.lasting (·.head), ?_, hin.others⟩
  by_cases hb : s.barred g f
  · exact hin.journal (hbar.1 hb)
  · exact (hin.scans hb).2

/-- What holds queue g has cleared. -/
def State.mayResume (s : State) (g f : Nat) : Prop :=
  (s.ring g).typ = 1 ∧ (s.ring g).st = 3 ∧ (s.ring g).fence = none ∧ (s.ring (s.cqOf f (s.ring g))).blocked = false ∧
    (∀ x, (s.ring g).heldStart = some x → s.startHeld x false = false) ∧
    (if (s.ring g).heldBlock then (s.ring (s.cqOf f (s.ring g))).backlog = []
     else 1 ≤ (s.ring (s.cqOf f (s.ring g))).room ∨ s.parkUsed f < 64)

theorem queueResume_eq (hf : s.ringFn g = some f) [Decidable (s.mayResume g f)] :
    queueResume s g = if s.mayResume g f then s.enterScan g f else s := by
  unfold queueResume
  rw [hf]
  refine if_congr ?_ rfl rfl
  have hheld : (!(match (s.ring g).heldStart with | some st => s.startHeld st false | none => false)) = true ↔
      ∀ x, (s.ring g).heldStart = some x → s.startHeld x false = false := by
    cases (s.ring g).heldStart with
    | none => simp
    | some x => simp
  have hroom : (if (s.ring g).heldBlock then (s.ring (s.cqOf f (s.ring g))).backlog.isEmpty
      else decide (1 ≤ (s.ring (s.cqOf f (s.ring g))).room) || decide (s.parkUsed f < 64)) = true ↔
      if (s.ring g).heldBlock then (s.ring (s.cqOf f (s.ring g))).backlog = []
      else 1 ≤ (s.ring (s.cqOf f (s.ring g))).room ∨ s.parkUsed f < 64 := by
    split
    · simp
    · simp
  rw [Bool.and_eq_true, Bool.and_eq_true]
  refine (and_congr (and_congr_right fun _ => hheld) hroom).trans ?_
  simp [State.mayResume, and_assoc]

end

end Sys2Proof.Machine

namespace Sys2Proof.Machine

set_option Elab.async false

/-! # The scan: the statement -/

/-! ## What the conditions of a turn read (R175)

The turn is taken in s and acts in v: what it does is said of v, and what decides it of s. -/

section
variable {s v : State} {g f : Nat} (h : s.tookTurn v g)
include h

theorem State.tookTurn.head : (v.ring g).head = (s.ring g).head := by rw [h.ring]

theorem State.tookTurn.queueError (f code : Nat) :
    ((v.queueError g f code).ring g).st = 4 ∧ ((v.queueError g f code).ring g).errcode = code ∧
      ((v.queueError g f code).ring g).errIndex = (s.ring g).head ∧ ((v.queueError g f code).ring g).head = (s.ring g).head ∧
      bit ((v.queueError g f code).reg (0x04200004 + 0x10000 * f)) 1 = true ∧ (v.queueError g f code).weir = s.weir := by
  rw [← h.head, ← h.agrees.weir]
  exact v.queueError_spec g f code

/-- A queue with nothing to do becomes IDLE. -/
theorem State.tookTurn.leaves : ((v.leaveScan g 1).ring g).st = 1 ∧ ((v.leaveScan g 1).ring g).head = (s.ring g).head ∧
    (v.leaveScan g 1).weir = s.weir := by
  rw [v.leaveScan_ring g (by decide), ← h.agrees.weir]
  exact ⟨rfl, h.head, (v.leaveScan_agrees g 1).weir⟩

variable (hf : f < 16)
include hf

theorem State.tookTurn.cqOf : v.cqOf f (v.ring g) = s.cqOf f (s.ring g) := by
  rw [State.cqOf, h.agrees.shareFirst hf, h.ring]
  rfl

theorem State.tookTurn.blocked : (v.ring (v.cqOf f (v.ring g))).blocked = (s.ring (s.cqOf f (s.ring g))).blocked := by
  rw [h.cqOf hf]
  exact h.read (·.blocked) _

theorem State.tookTurn.room : (v.ring (v.cqOf f (v.ring g))).room = (s.ring (s.cqOf f (s.ring g))).room := by
  rw [h.cqOf hf]
  exact h.read (·.room) _

theorem State.tookTurn.startAt (us : List (List Byte)) (inRing : Bool) : v.startAt g f us inRing = s.startAt g f us inRing := by
  rw [State.startAt, h.cqOf hf, h.head]
  rfl

variable {us : List (List Byte)} (ht : unitType ((us[0]?).getD []) = 1)
include ht

/-- A START that waits holds its queue. -/
theorem State.tookTurn.holds (hh : s.startHeld (s.startAt g f us true) false = true) : ((v.actOn g f us).ring g).st = 3 ∧
    ((v.actOn g f us).ring g).head = (s.ring g).head ∧ (v.actOn g f us).weir = s.weir ∧
    (s.jnHolds f = false → ((v.actOn g f us).ring g).heldStart = some (s.startAt g f us true)) := by
  rw [State.actOn_start ht, h.startAt hf, h.agrees.startHeld, if_pos hh]
  obtain ⟨hw, hst⟩ := v.holdStart_spec g f (s.startAt g f us true)
  refine ⟨hst, (State.holdStart_read v g f _ g (·.head)).trans h.head, hw.trans h.agrees.weir, fun hj => ?_⟩
  rw [State.holdStart_ring, h.agrees.jnHolds, hj]
  rfl

theorem State.tookTurn.sends (hb : (s.ring g).buf = true) (hh : s.startHeld (s.startAt g f us true) false = false)
    (hc : s.cqOf f (s.ring g) ≠ g) (hr : 1 ≤ (s.ring (s.cqOf f (s.ring g))).room) :
    (v.actOn g f us).weir = s.weir ++ [s.startAt g f us true] ∧
      (v.actOn g f us).ring g = { s.ring g with units := (s.ring g).readable, inWeir := true } ∧
      ((v.actOn g f us).ring (s.cqOf f (s.ring g))).resRing = (s.ring (s.cqOf f (s.ring g))).resRing + 1 := by
  have hsent := State.actOn_start_sent (s := v) (g := g) ht (by rw [h.ring]; exact hb) (by rw [h.startAt hf, h.agrees.startHeld]; exact hh)
    (by rw [h.cqOf hf]; exact hc) (by rw [h.room hf]; exact hr)
  rw [h.agrees.weir, h.startAt hf, h.cqOf hf, h.read (·.resRing), h.ring] at hsent
  exact hsent

end

/-- A FENCE that is not clear holds its queue. -/
theorem State.tookTurn.fences {s v : State} {g : Nat} (h : s.tookTurn v g) (f : Nat) {us : List (List Byte)}
    (ht : unitType ((us[0]?).getD []) = 6) (hc : s.fenceClear g = false) : ((v.actOn g f us).ring g).st = 3 ∧
      ((v.actOn g f us).ring g).fence.isSome ∧ ((v.actOn g f us).ring g).head = (s.ring g).head ∧ (v.actOn g f us).weir = s.weir := by
  obtain ⟨x, hx, hw⟩ := State.actOn_fence (s := v) (g := g) (f := f) ht (by rw [h.agrees.fenceClear]; exact hc)
  rw [hx]
  exact ⟨rfl, rfl, h.head, hw.trans h.agrees.weir⟩

/-! ## The statement -/

theorem exec_scanTurn {s : State} {g : RingId} {f : Nat} (hf : s.ringFn g.val = some f) (h : (s.ring g.val).scans) :
    exec (.scanReadReturn g none) s = .next (s.scanTurn g.val f) := congrArg Host.Outcome.next (scanReadReturn_turn hf h)

/-- A read that returns comes from outside; its timeout has passed where it is one. -/
theorem exec_scanRead {s : State} (hm : s.mode ≠ 0xA) (g : RingId) (i : Nat) {res : HostResult}
    (hl : res = .timeout → s.scanLate g.val i = true) :
    exec (.scanReadReturn g (some (i, res))) s = .next (scanReadReturn s g.val (some (i, res))) := by
  refine congrArg Host.Outcome.next ((State.fromOutside_live hm _).trans (if_neg ?_))
  simpa using hl

theorem exec_scanRead_off {s : State} {g : RingId} (h : s.ringFn g.val = none ∨ ¬ (s.ring g.val).scans) (ret : Option (Nat × HostResult)) :
    exec (.scanReadReturn g ret) s = .next s := by
  cases ret with
  | none => exact congrArg Host.Outcome.next (scanReadReturn_off h none)
  | some p =>
    refine congrArg Host.Outcome.next ?_
    change s.fromOutside _ = s
    unfold State.fromOutside
    dsimp only
    rw [scanReadReturn_off h, ite_self, ite_self]

/-- Settles O42: the turn is one equation for each condition of the unit at HEAD, on the state in which the turn is taken, of which
`State.tookTurn` says all that the conditions read. -/
theorem scansActOnEntries : Obligations.ScansActOnEntries := by
  classical
  intro s g r scans turn
  refine ⟨fun h => ⟨exec_scanRead_off h none, exec_scanRead_off h⟩, fun f hf hs => ?turns, fun f i q hf hs hm hq hsent => ?reads,
    fun f notify tag hf hx hst => ?fence, fun h => congrArg Host.Outcome.next (wqFence_none h), fun f hf => ?resume⟩
  case turns =>
    have ⟨_, hst2, hbuf⟩ := hs
    intro cq c u0 v units errs
    have hturn : turn = .next (s.scanTurn g.val f) := exec_scanTurn hf hs
    refine ⟨fun h => ?idle, fun hw hc ht => ?acts⟩
    case idle =>
      refine hturn.trans (congrArg Host.Outcome.next ?_)
      rcases h with h | h | ⟨hr, ht⟩
      · exact State.scanTurn_off (by rw [show (s.ring g.val).inWeir = true from h]; simp)
      · exact State.scanTurn_off (by simp [h])
      · exact State.scanTurn_waits hr ht
    have hon := State.scanTurn_on hs hw hc ht
    refine ⟨fun hb => ?context, fun hb hblk => ?blocked, fun hb hblk u hu => ?unit⟩
    case context =>
      have hcheck := memRecords_hwCheck s (ctxAddr g.val) 0 31
      have hspec := (s.hwCheck (ctxAddr g.val) 0 31).queueError_spec g.val f 9
      rw [hcheck.ring, hcheck.agrees.weir] at hspec
      exact ⟨_, hturn.trans (congrArg Host.Outcome.next (hon.trans (if_pos hb))), hspec⟩
    all_goals
      have hf16 := State.ringFn_lt hf
      have hv : turn = .next (v.scanHead g.val f) :=
        hturn.trans (congrArg Host.Outcome.next (hon.trans (if_neg (by simp [hb]))))
      have htook : s.tookTurn v g.val := s.turnTaken_took g.val
      clear_value v
      have hblocked := (htook.blocked hf16).trans hblk
    case blocked =>
      obtain ⟨hheld, hw⟩ := State.scanHead_blocked hblocked
      exact ⟨_, hv, by rw [hheld]; rfl, by rw [hheld], hw.trans htook.agrees.weir⟩
    case unit =>
    intro d n us
    have hring : v.ring g.val = { r with units := units } := htook.ring
    have hscan := hv.trans (congrArg Host.Outcome.next (State.scanHead_unit hblocked (by rw [hring]; exact hu)))
    have hto {t : State} (h : v.scanUnit g.val f u = t) : turn = .next t := hscan.trans (congrArg Host.Outcome.next h)
    have hlap : (v.ring g.val).lapx = r.lapx := by rw [hring]
    have hsize : (v.ring g.val).units16 = r.units16 := by rw [hring]; rfl
    have htag : (v.ring g.val).dbseq = r.dbseq := by rw [hring]
    have herrs {code : Nat} (h : v.scanUnit g.val f u = v.queueError g.val f code) : errs code := ⟨_, hto h, htook.queueError f code⟩
    refine ⟨fun ho he => ?nothing, fun ho he => ?reread, fun ho => ?owned⟩
    case nothing => exact ⟨_, hto (State.scanUnit_idle (by rw [hlap]; exact ho) (by rw [htag]; exact he)), htook.leaves⟩
    case reread =>
      obtain ⟨hst, hneed, hread⟩ := v.reread_spec g.val f (v.ring g.val).head
      rw [htook.head] at hneed hread
      refine ⟨_, hto (State.scanUnit_reread (by rw [hlap]; exact ho) (by rw [htag]; exact he)), ?_, ?_⟩
      · rw [hst, hring]
        exact hst2
      · rw [htook.head]
        exact ⟨hneed, hread⟩
    case owned =>
    have ho : unitOwned u.data (v.ring g.val).lapx = true := by rw [hlap]; exact ho
    refine ⟨fun ht => herrs (State.scanUnit_type ho ht), fun ht hl => herrs (State.scanUnit_len ho ht hl),
      fun ht hl => ⟨fun he => herrs (State.scanUnit_end ho ht hl (by rw [htook.head, hsize]; exact he)), fun he hcont => ?lap,
        fun he hcont => ?entry⟩⟩
    all_goals
      have hentry := State.scanUnit_entry (f := f) ho ht hl (by rw [htook.head, hsize]; exact he)
      rw [hring, hcont] at hentry
    case lap => exact herrs hentry
    case entry =>
    have hus : (v.ring g.val).entryUnits (unitLen u.data) = us := by rw [hring]; rfl
    have hfirst : (us[0]?).getD [] = d := by
      rw [← hus]
      exact Ring.entryUnits_first (by rw [hring]; exact hu) n
    have hchecked : v.scanUnit g.val f u = if reservedSet us then v.queueError g.val f 5 else v.actOn g.val f us := by
      rw [← hus]
      exact hentry
    have hact (h : reservedSet us = false) : turn = .next (v.actOn g.val f us) := hto (hchecked.trans (if_neg (by simp [h])))
    clear_value us n d
    subst hfirst
    intro st
    exact ⟨fun hr => herrs (hchecked.trans (if_pos hr)),
      fun hr h1 hh => ⟨_, hact hr, htook.holds hf16 h1 hh⟩,
      fun hr h1 hh hne hroom => ⟨_, hact hr, htook.sends hf16 h1 hbuf hh hne hroom⟩,
      fun hr h1 hroom hp => ⟨_, hact hr, (State.actOn_start_full h1 ((htook.room hf16).trans hroom) hp).imp_right (·.trans htook.agrees.weir)⟩,
      fun hr h2 h5 => (hact hr).trans (congrArg Host.Outcome.next (State.actOn_deliver h2 h5)),
      fun hr h6 hcl => ⟨_, hact hr, htook.fences f h6 hcl⟩⟩
  case reads =>
    have hread {res : HostResult} (hl : res = .timeout → s.scanLate g.val i = true) {t : State}
        (h : (s.scanReturn g.val f i res).scanTurn g.val f = t) : exec (.scanReadReturn g (some (i, res))) s = .next t :=
      (exec_scanRead hm g i hl).trans (congrArg Host.Outcome.next ((scanReadReturn_read hf hs i res).trans h))
    refine ⟨fun d hw => ?line, fun bad => ?error⟩
    case line =>
      obtain ⟨m, hring⟩ := State.scanReturn_line (f := f) hq hsent hw d
      refine ⟨_, hread (res := .ok d) nofun rfl, ?_⟩
      rw [hring]
      exact ⟨rfl, rfl, fun k hk => Ring.filled_units _ i q d m hk⟩
    case error =>
      intro code hn hok hl hcar hu
      obtain ⟨t, ht, hspec⟩ := State.scanReturn_error (f := f) hq hsent hn hok hu hcar
      exact ⟨t, hread hl ht, hspec⟩
  case fence =>
    refine ⟨fun h => congrArg Host.Outcome.next (wqFence_waits hx hf h), fun h hblk hheld hn => ?_⟩
    subst hn
    obtain ⟨t, ht, hspec⟩ := State.consume_enterScan (State.ringFn_lt hf) 1 hblk
    exact ⟨t, congrArg Host.Outcome.next ((wqFence_clear hx hf hst h hblk hheld).trans ht), hspec⟩
  case resume =>
    have heq : exec (.queueResume g) s = .next (if s.mayResume g.val f then s.enterScan g.val f else s) :=
      congrArg Host.Outcome.next (queueResume_eq hf)
    refine ⟨fun hfree => ?_, fun hn => heq.trans (congrArg Host.Outcome.next (if_neg hn))⟩
    have ⟨_, _, _, hblk, _⟩ := hfree
    obtain ⟨t, ht, hspec⟩ := State.enterScan_unblocked hblk
    exact ⟨t, heq.trans (congrArg Host.Outcome.next ((if_pos hfree).trans ht)), hspec⟩

end Sys2Proof.Machine
